-- ==== Sys2Proof/Word.lean ====
section
/-! DEFINITION. The byte type and the little-endian packing of R4 (the bit order is R3's: bit 0 is the least
significant). Every width conversion that rounds or saturates stands in Machine/Arith.lean. -/

namespace Sys2Proof

/-- One byte, the unit of every memory image, record, frame, plan image and object value (Table 0-3, R4). -/
abbrev Byte := BitVec 8

end Sys2Proof
end

