-- ==== Sys2Proof/Syntax.lean ====
section
/-! DEFINITION. The commands of the block: one constructor per row of spec/opcode_table.json, in the table's order,
and the operand types they carry. The table gives no operand fields; each operand is what the rule of its row needs
from outside the state: an instant, the client of a USDO request, a value, a reading, a received message.

Operands shared by many rows: `t` is the instant of the step in nanoseconds of the sweep clock (R6), counted from the
start of the model's run; `c` is the client node-ID of the USDO request that carries a write (R468); `e` is a Hazel
engine 0-11; `corrected` and `bad` are what SECDED found in the Husk words fetched for a firing (R109); `raman` is what the
eight Raman converters sample for a DTS firing, by channel, from the first sampling edge of R200 on (R190, R193). WORK_ITEM_RELEASE
carries what SECDED found in the program and parameter words the item fetches (`ecc`, R220) and the channels or outputs whose state it
read with an uncorrectable error (`invalid`, R339). `phase` of RTD_SETTING_WRITE says whether the RTD's entry of the running pass
has not begun (0), is in its zero, settle or averaging phase (1), or is done (2) (R399). -/

namespace Sys2Proof

/-- What the mode registers and the training of the fitted DRAM answer (R341, R342). -/
structure DramFit where
  /-- [1:0] bit i set when interface Ii answers at 3200 MT/s. -/
  ifaces : Nat
  /-- Ranks per interface. -/
  ranks : Nat
  /-- Capacity per interface in units of 512 MiB. -/
  units : Nat
  /-- The data rates (MT/s) of R341 that every fitted interface passes. -/
  rates : List Nat
  deriving DecidableEq, Repr

/-- The four converter containers of one port at one instant, X-I, X-Q, Y-I, Y-Q (Tables 6-1 and 6-3). -/
structure Quad where
  xi : BitVec 16
  xq : BitVec 16
  yi : BitVec 16
  yq : BitVec 16
  deriving DecidableEq, Repr

/-- What the calibration of one converter found at the latest entry (R80, R124): the offset taken off, the offset left, the
gain error left in hundredths of a dB and the skew left in ps (Table 6-2). -/
structure Trim where
  offset : Int
  left : Int
  gain : Int
  skew : Int
  deriving DecidableEq, Repr

/-- An assertion of the input-limit detector (R79): the return peak in hundredths of dBm, and how long it lasts in ns. -/
structure Excess where
  peak : Int
  span : Nat
  deriving DecidableEq, Repr

/-- What SECDED finds in one word (R338, R339). -/
inductive EccError where
  | none
  | single
  | double
  deriving DecidableEq, Repr

/-- The sub-fields of a Hazel load/store slot (Table 10-3): which slot, reg, p index k, post-modify. -/
structure LsOp where
  /-- false is load/store slot 0, true is slot 1. -/
  slot1 : Bool
  reg : Nat
  k : Nat
  post : Bool
  /-- What SECDED finds in the words that a load fetches (R220, R338, R339). -/
  ecc : EccError
  /-- Cycles the access waits for a port of its Cashew bank (R332). -/
  waits : Nat
  deriving DecidableEq, Repr

/-- The sub-fields of a Hazel MAC slot (Table 10-3): acc, A, B, mod. -/
structure MacOp where
  acc : Nat
  a : Nat
  b : Nat
  mod : Nat
  deriving DecidableEq, Repr

/-- Who read a word with an uncorrectable error: a requester of DRAM (R356), or the owner of an SRAM of its own (R205, R220).
Linseed names a channel's port and bin, and whether the sum belongs to the period in progress. A replay buffer (R323) names its
lane and the frame's sequence, a queue's own storage (R290, R339) the queue; there `single` is a single-bit error, corrected. -/
inductive DramReader where
  | linseed (port bin : Nat) (latest : Bool)
  | capture (buf : Nat)
  | poppy (port pos tick : Nat)
  | queue (q : Nat)
  | prepare
  | burst
  | flax (ch : Nat)
  | almond
  | walnut
  | replay (lane seq : Nat) (single : Bool)
  | storage (q : Nat) (single : Bool)
  | linseedSram (port bin : Nat)
  | hazelSram (engine : Nat) (user : Bool)
  deriving DecidableEq, Repr

/-- The memory is DRAM. -/
def DramReader.dram : DramReader → Bool
  | .linseedSram _ _ => false
  | .hazelSram _ _ => false
  | .replay _ _ _ => false
  | .storage _ _ => false
  | _ => true

/-- The error is a single-bit one, which SECDED corrects. -/
def DramReader.single : DramReader → Bool
  | .replay _ _ s => s
  | .storage _ s => s
  | _ => false

/-- A host frame that fails its CRC or carries an unknown kind (R326): its receive lane, and whether it came as a download frame,
which counts as rejected (R330). -/
structure Dropped where
  lane : Nat
  download : Bool
  deriving DecidableEq, Repr

/-- The real-time requesters of Table 15-4. -/
inductive RtRequester where
  | burstWriter
  | linseed
  | sesame (buf : Nat)
  deriving DecidableEq, Repr

/-- The converter codes taken for one user-sequence entry (R393, R396). -/
structure EntryReading where
  /-- Samples of input 30 (kind 1). -/
  zero : List Int
  /-- Samples of the input (kind 0) or of the sense input (kind 1). -/
  sense : List Int
  /-- Samples of the lead input (kind 1). -/
  lead : List Int
  /-- The window comparator found a break during a conversion of the entry (R398). -/
  broken : Bool
  /-- The sampling intervals begun for the entry, retakes included: start and length in ns (R395). -/
  tries : List (Nat × Nat)
  /-- The instants of the entry's first sample and of the end of its last conversion (R391, Table 18-4); the end of the entry
  where it takes no sample. -/
  first : Nat
  last : Nat
  deriving DecidableEq, Repr

/-- What a converter pass took: the codes of converter 0's inputs 8 to 19 and 24 to 28 in that order (R390), the
optical powers (hundredths of dBm) that Walnut's conversion makes of inputs 8 to 16 (Table 4-7; the spec gives no formula for
it), the readings of converter 1's entries, the sixteen codes of input 31 (R400), and the sampling intervals of every input but
those of the entries (R395). -/
structure PassReading where
  codes : List Int
  powers : List Int
  entries : List EntryReading
  cross : List Int
  tries : List (Nat × Nat)
  deriving DecidableEq, Repr

/-- What a long operation found, where its rule leaves that to the world: bias set points per named port (empty for a
port that failed, R89), the RTD calibration's mean differences (R401), a break or over-range in the run, a failure of a
flash program or erase, and how many single-bit errors a DRAM scrub corrected (R343). -/
structure LongOutcome where
  setPoints : List (List Int)
  firstDr : List Int
  secondDr : List Int
  broken : Bool
  flashFailed : Bool
  corrected : Nat
  deriving DecidableEq, Repr

/-- A USDO request or segment as received (R468 to R470). -/
inductive UsdoReq where
  | read (index sub : Nat) (segmented : Bool)
  | write (index sub : Nat) (segmented : Bool) (data : List Byte)
  /-- One further segment of the client's open transfer: bytes of a write (empty for a read), and whether it is the
  last. -/
  | segment (data : List Byte) (last : Bool)
  deriving DecidableEq, Repr

/-- The commands: one constructor per row of spec/opcode_table.json. -/
inductive Instr where

  /-- VBAT_POWER_UP (R494). VBAT first rises through 1.8 V: the Shell starts, latches wake cause bit 9 and raises PWR_EN. -/
  | vbatPowerUp (t : Nat)
  /-- CRYSTAL_START (R494). The 32.768 kHz crystal starts and the wake timer begins to count. -/
  | crystalStart (t : Nat)
  /-- CORE_POWER_UP (R495). A rise of PWR_EN starts a Core power-up and the boot sequence of Table 26-1 towards Doze. -/
  | corePowerUp (t : Nat)
  /-- INTERNAL_RESET_RELEASE (R495). The internal reset is released; fuses, redundant columns and DRG_HEAD are sensed and Walnut starts in ROM. -/
  | internalResetRelease (t : Nat)
  /-- PG_IN_FALL (R422). A fall of PG_IN outside Dormant is loss of a live domain: PWR_EN drops and the device goes to Dormant. -/
  | pgInFall (t : Nat)
  /-- RESET_L (R502). RESET_L held low for 1 µs or more starts a Core reset that reboots to Doze. -/
  | resetL (t : Nat) (low : Nat)
  /-- WAKE_PIN (R418). An enabled wake pin holds its active level for 100 µs and wakes the device from Dormant. -/
  | wakePin (t : Nat) (pins : Nat)
  /-- WAKE_TIMER (R418). The Shell wake timer reaches the stored wake time and wakes the device. -/
  | wakeTimer (t : Nat)
  /-- PWR_EN_HOLD_END (R422). The 20 ms minimum low time of PWR_EN ends and a latched wake cause may raise it again. -/
  | pwrEnHoldEnd (t : Nat)
  /-- DORMANT_ENTRY (R423). Walnut ends long operations, writes retention RAM, arms the Shell and drops PWR_EN, or cancels on a latched wake cause. -/
  | dormantEntry (t : Nat)
  /-- RETENTION_WRITE (R497). Once per second Walnut rewrites retention RAM with time, Shell count and the held sweep index. -/
  | retentionWrite (t : Nat)
  /-- POWER_COMMAND_DORMANT (R464). A power command of 0 moves the device through the states between to Dormant. -/
  | powerCommandDormant (t : Nat) (c : Nat)
  /-- POWER_COMMAND_DOZE (R464). A power command of 1 ends Sensing if running and moves the device to Doze. -/
  | powerCommandDoze (t : Nat) (c : Nat)
  /-- POWER_COMMAND_READY (R464). A power command of 2 moves the device to Ready, ending Sensing if it runs. -/
  | powerCommandReady (t : Nat) (c : Nat)
  /-- POWER_COMMAND_SENSING (R466). A power command of 3 starts an entry to Sensing, judged at the write in Ready or after plan reload from Doze. -/
  | powerCommandSensing (t : Nat) (c : Nat)
  /-- START_REMOTE_NODE (R463). NMT start enters Sensing, through Ready from Doze. -/
  | startRemoteNode (t : Nat) (node : Nat)
  /-- STOP_REMOTE_NODE (R463). NMT stop ends Sensing if running and enters Doze and NMT Stopped. -/
  | stopRemoteNode (t : Nat) (node : Nat)
  /-- ENTER_PRE_OPERATIONAL (R463). NMT enter pre-operational ends Sensing if running and enters Ready. -/
  | enterPreOperational (t : Nat) (node : Nat)
  /-- RESET_NODE (R502). NMT reset node starts a Core reset within 1 ms of acceptance. -/
  | resetNode (t : Nat) (node : Nat)
  /-- RESET_COMMUNICATION (R463). NMT reset communication ends the session and any transfer and sends boot-up, leaving the power state. -/
  | resetCommunication (t : Nat) (node : Nat)
  /-- DOZE_TO_READY_DONE (R498). The first entry to Ready locks PLLs, trains DRAM and reserves fixed regions, or stays in Doze on training failure. -/
  | dozeToReadyDone (t : Nat) (fit : DramFit)
  /-- ACTIVE_PLAN_RELOAD (R498). The data-path image is staged, the library loaded and the active rung's plan reloaded; a pending entry to Sensing is judged. -/
  | activePlanReload (t : Nat)
  /-- KEPT_PLAN_RELOAD (R498). One further kept plan finishes reloading onto its rung. -/
  | keptPlanReload (t : Nat) (rung : Nat)
  /-- COLD_ENTRY_SEED_CHECK (R91). At 1.0 ms of a cold entry the seed is checked and the entry is abandoned below +9.0 dBm. -/
  | coldEntrySeedCheck (t : Nat) (dbm : Int)
  /-- ACQUISITION_DEADLINE (R87). A bias loop still Acquiring at its deadline enters Fault; an entry with no port left is abandoned. -/
  | acquisitionDeadline (t : Nat)
  /-- OFFSET_TRIM (R80). At entry to Sensing the device calibrates ADCs and trims TIA and ADC offsets of used ports. -/
  | offsetTrim (t : Nat) (found : List (List Trim))
  /-- SWEEP_BOUNDARY (R9). The sweep timer reaches a boundary: slot 0 fires, the index increments and boundary actions apply. -/
  | sweepBoundary
  /-- CHOICE_FIX (R110). At 2 µs before a boundary Husk fixes memory half, variant, attenuation, DTS slots and rows and fetches the waveform. -/
  | choiceFix (corrected : Nat) (bad : Bool)
  /-- SLOT_FIRING (R9). Slot s fires at the boundary plus s·P/S, the gate opens around the waveform and the window opens. -/
  | slotFiring (slot : Nat) (corrected : Nat) (bad : Bool) (raman : List (List Nat))
  /-- INPUT_LIMIT_ASSERT (R79). The input-limit detector asserts and flags and clamps samples of the port as over-range. -/
  | inputLimitAssert (t : Nat) (port : Nat) (excess : Excess)
  /-- REFLECTION_TRIP (R82). A return peak above the trip level with the gate open closes the gate and trips the port. -/
  | reflectionTrip (t : Nat) (port : Nat) (peak : Int)
  /-- SEED_LOW_SET (R69). The seed monitor stays below +8.0 dBm for 10 µs and the seed-low condition sets. -/
  | seedLowSet (t : Nat) (dbm : Int)
  /-- SEED_LOW_CLEAR (R69). The seed monitor stays above +9.0 dBm for 10 µs and the seed-low condition clears. -/
  | seedLowClear (t : Nat) (dbm : Int)
  /-- BIAS_MEASUREMENT (R86). A bias loop takes a measurement with the gate closed and moves between Acquiring, Locked and Fault. -/
  | biasMeasurement (t : Nat) (port : Nat) (loop : Nat) (err : Int) (setPoint : Int) (atEnd : Bool)
  /-- MEASUREMENT_TIMEOUT (R86). A loop without a measurement for 1 s leaves Locked for Holding. -/
  | measurementTimeout (t : Nat) (port : Nat) (loop : Nat)
  /-- BIAS_SEARCH (R89). A write to 0x2000:08 starts the photonic bias search on the named ports as a long operation. -/
  | biasSearch (t : Nat) (c : Nat) (mask : Nat)
  /-- DARK_PORT_POWER_DOWN (R39). After the last old-plan sweep completes, a port left dark powers its photonic sections down. -/
  | darkPortPowerDown (t : Nat) (port : Nat)
  /-- STOP_SHUTDOWN (R94). After the last completion following a stop, loops enter Holding or heaters and TIAs power down. -/
  | stopShutdown (t : Nat)
  /-- HOLD_WARM_ON (R420). A write of 1 to hold warm keeps or powers up the photonic domain in Ready. -/
  | holdWarmOn (t : Nat) (c : Nat)
  /-- HOLD_WARM_OFF (R420). A write of 0 to hold warm powers the photonic domain down in Ready within 1 ms. -/
  | holdWarmOff (t : Nat) (c : Nat)
  /-- CHESTNUT_OUTPUT (R134). Chestnut compresses a firing's samples and delivers output elements with taint and flags. -/
  | chestnutOutput (t : Nat) (port : Nat) (sweep : Nat) (slot : Nat) (conts : List Quad)
  /-- WORK_ITEM_RELEASE (R231). A Hazel work item is released when its event occurs and its first input reaches the engine. -/
  | workItemRelease (t : Nat) (user : Bool) (item : Nat) (sweep : Nat) (slot : Nat) (ecc : EccError) (invalid : List Nat)
  /-- CHECKPOINT_INSTANT (R234). A library item passes its checkpoint instant without END and the engine halts as failed. -/
  | checkpointInstant (t : Nat) (engine : Nat) (item : Nat)
  /-- BUDGET_EXHAUSTED (R240). A user item exceeds its cycle budget and is aborted. -/
  | budgetExhausted (t : Nat) (engine : Nat)
  /-- SWEEP_COMPLETION (R14). A sweep completes when its last window has closed and its last channel has left Hazel. -/
  | sweepCompletion (t : Nat)
  /-- SEGMENT_EMIT (R164). Hazel emits an acoustic segment record to its queue. -/
  | segmentEmit (t : Nat) (port : Nat) (sweep : Nat) (slot : Nat) (first : Nat)
  /-- POPPY_BLOCK (R175). Poppy filters a completed corner-turn block and emits decimated records. -/
  | poppyBlock (t : Nat) (port : Nat) (block : Nat) (corrected : Nat)
  /-- INACTIVE_BANK_LOAD (R184). A write to the inactive-bank load object is accepted or refused and transfers into the inactive bank. -/
  | inactiveBankLoad (t : Nat) (c : Nat) (stage : Nat) (data : List Byte)
  /-- POPPY_RESET_WRITE (R186). A write of 1 to 0x3400:02 requests a synchronising reset of all ports at the transfer boundary. -/
  | poppyResetWrite (t : Nat) (c : Nat)
  /-- POPPY_MODE_WRITE (R185). A write to 0x3400:03 selects chain or boxcar from a boundary. -/
  | poppyModeWrite (t : Nat) (c : Nat) (mode : Nat)
  /-- LINSEED_BLOCK_ADD (R203). Linseed adds a completed block into its DRAM set, discarding the next DTS firing if a stall delays it. -/
  | linseedBlockAdd (t : Nat) (stalled : Bool) (corrected : Nat)
  /-- DTS_DECODE (R206). At a period end Hazel decodes each channel into points and temperatures and emits DTS records. -/
  | dtsDecode (t : Nat) (port : Nat)
  /-- EVALUATION_INSTANT (R254). At each 4 ns instant each running sequence evaluates its level's terms and takes the winner's action. -/
  | evaluationInstant (t : Nat) (prb : Nat) (trig : Nat) (tb : Nat)
  /-- LEVEL_TIMER_EXPIRY (R255). A level timer expires, opening hold-off eligibility or taking its timeout action. -/
  | levelTimerExpiry (t : Nat) (seq : Nat)
  /-- AUTO_TIMER_EXPIRY (R258). The auto timer of a running sequence expires and forces an auto trigger. -/
  | autoTimerExpiry (t : Nat) (seq : Nat)
  /-- ZONE_UPDATE (R248). At the update instant a zone line takes the detector result of its tick, or the zone goes stale. -/
  | zoneUpdate (t : Nat) (zone : Nat) (sweep : Nat) (slot : Nat)
  /-- SEQUENCE_ARM (R256). A write of 1 to 0x3810+i:03 requests arming of the sequence. -/
  | sequenceArm (t : Nat) (c : Nat) (seq : Nat)
  /-- SEQUENCE_DISARM (R256). A write of 2 to 0x3810+i:03 requests disarming of the sequence. -/
  | sequenceDisarm (t : Nat) (c : Nat) (seq : Nat)
  /-- SEQUENCE_ARM_ACT (R256). An accepted arm or disarm acts at the first instant 1 µs after acceptance, judged again then. -/
  | sequenceArmAct (t : Nat) (seq : Nat)
  /-- FORCE (R258). A write of 1 to 0x3810+i:04 requests a host trigger of a running sequence. -/
  | force (t : Nat) (c : Nat) (seq : Nat)
  /-- FORCE_ACT (R258). An accepted host force triggers at the first instant 1 µs after acceptance. -/
  | forceAct (t : Nat) (seq : Nat)
  /-- HOST_LINE (R243). A write to 0x3800:01 drives internal status line IS14. -/
  | hostLine (t : Nat) (c : Nat) (level : Nat)
  /-- ZONE_THRESHOLD_WRITE (R247). A shadowed threshold write is judged as a pair and transfers or is dropped at the boundary. -/
  | zoneThresholdWrite (t : Nat) (c : Nat) (zone : Nat) (off : Bool) (value : Nat)
  /-- TRIG_IN_EDGE (R250). A rising edge on TRIG_IN after inversion is stamped by the TDC. -/
  | trigInEdge (t : Nat) (pin : Nat) (code : Nat) (c1 : Nat) (c2 : Nat) (calibrated : Bool)
  /-- CAPTURE_ARM (R269). A write of 1 to 0x3900+c:02 requests arming of the capture buffer. -/
  | captureArm (t : Nat) (c : Nat) (buf : Nat)
  /-- CAPTURE_DISARM (R269). A write of 2 to 0x3900+c:02 puts the buffer into Idle and discards its content. -/
  | captureDisarm (t : Nat) (c : Nat) (buf : Nat)
  /-- FILLING_ENTRY (R270). At an arm or re-arm instant the buffer resets pointers, step and window and loads base values. -/
  | fillingEntry (t : Nat) (buf : Nat)
  /-- CAPTURE_LENGTH_WRITE (R271). A length, post-count or post-time-limit write acts at once in Idle or Done, otherwise is held. -/
  | captureLengthWrite (t : Nat) (c : Nat) (buf : Nat) (sub : Nat) (value : Nat)
  /-- RATE_WINDOW_END (R280). A 65.536 µs rate window ends and the buffer steps down or up. -/
  | rateWindowEnd (t : Nat) (buf : Nat)
  /-- POST_TIME_LIMIT (R273). The post time limit expires and the buffer enters Reading. -/
  | postTimeLimit (t : Nat) (buf : Nat)
  /-- CAPTURE_RECORD_WRITE (R282). Sesame writes a capture record once the queue has room for it. -/
  | captureRecordWrite (t : Nat) (buf : Nat) (memError : Bool)
  /-- CAPTURE_REARM (R274). A buffer in automatic re-arm enters Filling 1 µs after its last record entered the queue. -/
  | captureRearm (t : Nat) (buf : Nat)
  /-- OWNER_WRITE (R285). A write to 0x3C00:01 in Ready hands PRB0–PRB27 to the probe lines or Sunflower. -/
  | ownerWrite (t : Nat) (c : Nat) (owner : Nat)
  /-- SUNFLOWER_ENABLE (R286). A write of 1 to 0x3C00:02 starts scanning within one frame time. -/
  | sunflowerEnable (t : Nat) (c : Nat)
  /-- SUNFLOWER_DISABLE (R286). A write of 0 to 0x3C00:02 stops scanning at the end of the frame in progress. -/
  | sunflowerDisable (t : Nat) (c : Nat)
  /-- VERTICAL_SYNC (R288). At each vertical sync Sunflower latches the newest row for the frame. -/
  | verticalSync (t : Nat)
  /-- UNDERRUN (R289). A row not read from DRAM in time drives zeros for the rest of the line and counts an underrun. -/
  | underrun (t : Nat) (line : Nat)
  /-- PLAN_INSTALL (R49). The install command runs the checks of Table 3-8 on the buffer image and installs it on the named rung. -/
  | planInstall (t : Nat) (c : Nat) (rung : Nat)
  /-- PLAN_INSTALL_KEEP (R51). An install with the keep bit also writes the plan into the flash plan store. -/
  | planInstallKeep (t : Nat) (c : Nat) (rung : Nat)
  /-- REMOVE_RUNG (R51). A write to 0x2400:0F removes a rung and supersedes its kept entry. -/
  | removeRung (t : Nat) (c : Nat) (rung : Nat)
  /-- REQUESTED_RUNG (R58). A write to 0x2400:03 requests a switch, replacing any pending switch. -/
  | requestedRung (t : Nat) (c : Nat) (rung : Nat)
  /-- PREPARE_END (R56). Prepare of a switch ends, fixing the take at the first boundary 2 µs later, or fails and drops the switch. -/
  | prepareEnd (t : Nat) (ok : Bool) (seedDbm : Int)
  /-- STAGE_OPEN (R60). A write of 1 to 0x2400:0B opens a stage set. -/
  | stageOpen (t : Nat) (c : Nat)
  /-- STAGE_APPLY (R60). A write of 2 to 0x2400:0B makes the stage set pending as one unit. -/
  | stageApply (t : Nat) (c : Nat)
  /-- STAGE_DISCARD (R60). A write of 3 to 0x2400:0B discards the stage set. -/
  | stageDiscard (t : Nat) (c : Nat)
  /-- SHADOWED_WRITE (R59). A write to a shadowed object is accepted and pends for a boundary or collects in an open stage set. -/
  | shadowedWrite (t : Nat) (c : Nat) (index : Nat) (sub : Nat) (data : List Byte)
  /-- CHAIN_SWITCH (R61). A write to 0x2400:10 at the head starts a chain switch by sending PREPARE. -/
  | chainSwitch (t : Nat) (c : Nat) (rung : Nat)
  /-- PREPARE (R61). A member receives PREPARE, prepares the rung and answers ACK or NAK. -/
  | prepare (t : Nat) (rung : Nat) (tag : Nat)
  /-- ACK (R61). The head receives an ACK and sends COMMIT with C once all ACKs are in. -/
  | ack (t : Nat) (src : Nat) (tag : Nat)
  /-- NAK (R61). The head receives a NAK and sends CANCEL. -/
  | nak (t : Nat) (src : Nat) (tag : Nat)
  /-- ACK_TIMEOUT (R61). 150 ms pass without all ACKs and the head sends CANCEL. -/
  | ackTimeout (t : Nat)
  /-- COMMIT (R63). A member receives COMMIT and takes at C, or late at its next boundary. -/
  | commit (t : Nat) (tag : Nat) (index : Nat)
  /-- CANCEL (R63). A member receives CANCEL and drops its prepared state unless already switched. -/
  | cancel (t : Nat) (tag : Nat)
  /-- FAIL (R62). The head receives FAIL and cancels if it arrives 100 µs before C. -/
  | fail (t : Nat) (src : Nat) (tag : Nat)
  /-- OUTCOME (R64). The head receives a member outcome and records it and the mismatch window. -/
  | outcome (t : Nat) (src : Nat) (tag : Nat) (outcome : Nat) (index : Nat)
  /-- COMMIT_LOST_TIMEOUT (R63). 250 ms after its ACK without COMMIT or CANCEL, a member discards its prepared state. -/
  | commitLostTimeout (t : Nat)
  /-- BURST_REQUEST (R144). A write of 1 to 0x4030:08 requests a raw burst with the current configuration. -/
  | burstRequest (t : Nat) (c : Nat)
  /-- BURST_ABANDON (R144). A write of 2 to 0x4030:08 abandons every outstanding burst. -/
  | burstAbandon (t : Nat) (c : Nat)
  /-- BURST_CAPTURE_END (R146). A burst's capture ends, complete or truncated, and its readout starts in order. -/
  | burstCaptureEnd (t : Nat) (src2 : Bool) (truncated : Bool) (data : List (List Quad)) (captured : Nat)
  /-- BURST_READOUT (R147). A raw burst record is offered to its queue when it fits. -/
  | burstReadout (t : Nat)
  /-- USER_PROGRAM (R236). A DOMAIN write to 0x4100:11 loads a user program into the named engine. -/
  | userProgram (t : Nat) (c : Nat) (data : List Byte)
  /-- NOP (R221). Control slot operation 0 does nothing. -/
  | hzNop (e : Nat)
  /-- LOOP (R227). LOOP opens the next loop level with the count of lc. -/
  | hzLoop (e : Nat) (last : Nat)
  /-- JMP (R229). JMP jumps to the target, closing loop levels it leaves. -/
  | hzJmp (e : Nat) (target : Nat)
  /-- BRA (R229). BRA jumps when pred is 1 in any lane. -/
  | hzBra (e : Nat) (target : Nat)
  /-- BRN (R229). BRN jumps when pred is 0 in every lane. -/
  | hzBrn (e : Nat) (target : Nat)
  /-- CHK (R234). CHK writes the engine's progress marker. -/
  | hzChk (e : Nat) (marker : Nat)
  /-- END (R239). END ends the work item after the bundle, and a user item sends its outbox record. -/
  | hzEnd (e : Nat) (t : Nat)
  /-- ILLEGAL_BUNDLE (R234). An illegal operation or loop fails a library item's engine or aborts a user item. -/
  | hzIllegalBundle (e : Nat) (t : Nat) (loop : Bool)
  /-- ADDR_NOP (R222). Address slot operation 0 does nothing. -/
  | hzAddrNop (e : Nat)
  /-- PADD (R222). PADD adds m_k to p_k modulo 2^32. -/
  | hzPadd (e : Nat) (k : Nat)
  /-- PLDP (R222). PLDP loads p_k from a parameter word. -/
  | hzPldp (e : Nat) (k : Nat) (imm : Nat)
  /-- PLDM (R222). PLDM loads m_k from a parameter word. -/
  | hzPldm (e : Nat) (k : Nat) (imm : Nat)
  /-- PLDL (R222). PLDL loads a loop count from a parameter word. -/
  | hzPldl (e : Nat) (k : Nat) (imm : Nat)
  /-- PLDZ (R222). PLDZ loads a lane stride from a parameter word. -/
  | hzPldz (e : Nat) (k : Nat) (imm : Nat)
  /-- PADDI (R222). PADDI adds 4 times a signed immediate to p_k. -/
  | hzPaddi (e : Nat) (k : Nat) (imm : Nat)
  /-- PSETS (R222). PSETS loads the store shift ss from a parameter word. -/
  | hzPsets (e : Nat) (k : Nat) (imm : Nat)
  /-- LDST_NOP (R223). Load/store slot operation 0 does nothing. -/
  | hzLdstNop (e : Nat) (ls : Bool)
  /-- LDW (R223). LDW loads bits [31:8] of a word into each lane. -/
  | hzLdw (e : Nat) (o : LsOp)
  /-- LDB (R223). LDB loads bits [7:0] of a word zero-extended. -/
  | hzLdb (e : Nat) (o : LsOp)
  /-- LDH (R223). LDH loads a half zero-extended. -/
  | hzLdh (e : Nat) (o : LsOp)
  /-- LDHS (R223). LDHS loads a half sign-extended. -/
  | hzLdhs (e : Nat) (o : LsOp)
  /-- LDS (R223). LDS broadcasts bits [31:8] of one word to every lane. -/
  | hzLds (e : Nat) (o : LsOp)
  /-- LDA (R223). LDA loads an accumulator from a dword. -/
  | hzLda (e : Nat) (o : LsOp)
  /-- STW (R223). STW stores d × 256 as a word. -/
  | hzStw (e : Nat) (o : LsOp)
  /-- STB (R223). STB stores d[7:0] into byte 0 of a word. -/
  | hzStb (e : Nat) (o : LsOp)
  /-- STH (R224). STH stores sat16 of d as a half. -/
  | hzSth (e : Nat) (o : LsOp)
  /-- STBP (R223). STBP stores d[7:0] as a byte. -/
  | hzStbp (e : Nat) (o : LsOp)
  /-- STS (R223). STS stores lane 0 of d sign-extended as a scalar word. -/
  | hzSts (e : Nat) (o : LsOp)
  /-- STA (R224). STA stores sat24 of the rounded accumulator × 256. -/
  | hzSta (e : Nat) (o : LsOp)
  /-- STAW (R224). STAW stores sat32 of the rounded accumulator. -/
  | hzStaw (e : Nat) (o : LsOp)
  /-- STAQ (R223). STAQ stores the accumulator sign-extended as a dword. -/
  | hzStaq (e : Nat) (o : LsOp)
  /-- MAC_NOP (R225). MAC slot operation 0 does nothing. -/
  | hzMacNop (e : Nat)
  /-- MAC (R225). MAC adds A × B to the accumulator with sat56. -/
  | hzMac (e : Nat) (o : MacOp)
  /-- MSU (R225). MSU subtracts A × B from the accumulator with sat56. -/
  | hzMsu (e : Nat) (o : MacOp)
  /-- MPY (R225). MPY sets the accumulator to A × B. -/
  | hzMpy (e : Nat) (o : MacOp)
  /-- CLR (R225). CLR clears the accumulator. -/
  | hzClr (e : Nat) (o : MacOp)
  /-- ACCD (R225). ACCD adds A to the accumulator with sat56. -/
  | hzAccd (e : Nat) (o : MacOp)
  /-- SETA (R225). SETA sets the accumulator to A sign-extended. -/
  | hzSeta (e : Nat) (o : MacOp)
  /-- RSA (R225). RSA rounds the accumulator right by n bits. -/
  | hzRsa (e : Nat) (o : MacOp)
  /-- LSA (R225). LSA shifts the accumulator left by n bits with sat56. -/
  | hzLsa (e : Nat) (o : MacOp)
  /-- DIVR (R225). DIVR divides the accumulator by the other accumulator with convergent rounding. -/
  | hzDivr (e : Nat) (o : MacOp)
  /-- EXT (R225). EXT extracts sat24 of the rounded accumulator into dA. -/
  | hzExt (e : Nat) (o : MacOp)
  /-- ADD (R225). ADD writes wrap24(dA + dB). -/
  | hzAdd (e : Nat) (o : MacOp)
  /-- SUB (R225). SUB writes wrap24(dA − dB). -/
  | hzSub (e : Nat) (o : MacOp)
  /-- ADDS (R225). ADDS writes sat24(dA + dB). -/
  | hzAdds (e : Nat) (o : MacOp)
  /-- SUBS (R225). SUBS writes sat24(dA − dB). -/
  | hzSubs (e : Nat) (o : MacOp)
  /-- MIN (R225). MIN writes the smaller of dA and dB. -/
  | hzMin (e : Nat) (o : MacOp)
  /-- MAX (R225). MAX writes the larger of dA and dB. -/
  | hzMax (e : Nat) (o : MacOp)
  /-- AND (R225). AND writes dA & dB. -/
  | hzAnd (e : Nat) (o : MacOp)
  /-- OR (R225). OR writes dA | dB. -/
  | hzOr (e : Nat) (o : MacOp)
  /-- XOR (R225). XOR writes dA ^ dB. -/
  | hzXor (e : Nat) (o : MacOp)
  /-- RSD (R225). RSD rounds dA right by n bits. -/
  | hzRsd (e : Nat) (o : MacOp)
  /-- LSD (R225). LSD shifts dA left by n bits with wrap24. -/
  | hzLsd (e : Nat) (o : MacOp)
  /-- CGT (R225). CGT sets pred to dA > dB. -/
  | hzCgt (e : Nat) (o : MacOp)
  /-- CEQ (R225). CEQ sets pred to dA == dB. -/
  | hzCeq (e : Nat) (o : MacOp)
  /-- SEL (R225). SEL writes dB into dA where pred is 1. -/
  | hzSel (e : Nat) (o : MacOp)
  /-- MOV (R225). MOV copies dB into dA. -/
  | hzMov (e : Nat) (o : MacOp)
  /-- PRM (R225). PRM writes dB with lanes permuted by mod. -/
  | hzPrm (e : Nat) (o : MacOp)
  /-- ABS (R225). ABS writes sat24 of |dA|. -/
  | hzAbs (e : Nat) (o : MacOp)
  /-- OVERRUN_CLEAR (R292). A write to 0x4000:03 clears queue overrun bits. -/
  | overrunClear (t : Nat) (c : Nat) (mask : Nat)
  /-- STATUS_RECORD (R306). Walnut offers a status record every 100 ms while a long operation runs. -/
  | statusRecord (t : Nat)
  /-- DATA_FRAME (R319). At a lane frame boundary the scheduler sends a data frame of a queue with credit, or a resend. -/
  | dataFrame (t : Nat) (lane : Nat)
  /-- DEVICE_CONTROL_FRAME (R322). Each up transmit lane sends a device control frame at least every 100 µs. -/
  | deviceControlFrame (t : Nat) (lane : Nat)
  /-- CREDIT (R320). A received credit frame updates the credit limits of the queues. -/
  | credit (t : Nat) (lane : Nat) (words : List Nat)
  /-- REPLAY_REQUEST (R323). A received replay request schedules resends of the named frames still held. -/
  | replayRequest (t : Nat) (lane : Nat) (entries : List (Nat × Nat × Nat))
  /-- HOST_STATUS (R325). A received host status sets which transmit lanes are up. -/
  | hostStatus (t : Nat) (lane : Nat) (mask : Nat)
  /-- DOWNLOAD (R330). A received download frame writes its data at its offset in the target, or is rejected. -/
  | download (t : Nat) (lane : Nat) (target : Nat) (seq : Nat) (offset : Nat) (data : List Byte)
  /-- BLOCK_LOCK (R325). A receiver gains block lock after 64 valid sync headers. -/
  | blockLock (t : Nat) (lane : Nat)
  /-- LOCK_LOSS (R326). A receiver loses lock on 16 invalid blocks within 1 024. -/
  | lockLoss (t : Nat) (lane : Nat)
  /-- ELECTRICAL_IDLE_ENTRY (R327). A lane with nothing to send for the idle-entry delay enters electrical idle. -/
  | electricalIdleEntry (t : Nat) (lane : Nat)
  /-- ELECTRICAL_IDLE_EXIT (R327). A frame becoming due turns the transmitter on, sends training and idle blocks and then the frame. -/
  | electricalIdleExit (t : Nat) (lane : Nat)
  /-- ADAPTATION (R328). Every 1 ms a receive lane adapts CTLE and DFE and updates its figure of merit. -/
  | adaptation (t : Nat) (lane : Nat) (ctle : Nat) (dfe : List Int) (fom : Nat)
  /-- BANK_OWNER_WRITE (R333). A write to 0x4201:01+b hands a Cashew bank to none or Flax after old accesses finish. -/
  | bankOwnerWrite (t : Nat) (c : Nat) (bank : Nat) (owner : Nat)
  /-- BUSY_STROBE (R336). A port-B read meeting a port-A write to the same dword is strobed and reissued. -/
  | busyStrobe (t : Nat) (bank : Nat)
  /-- CASHEW_SCRUB (R338). The scrubber reads a dword on an idle port-B cycle and writes corrected data back. -/
  | cashewScrub (t : Nat) (bank : Nat) (dword : Nat) (error : EccError)
  /-- REFRESH (R350). The controller issues a refresh at the refresh interval. -/
  | refresh (t : Nat) (iface : Nat) (waiting : Bool)
  /-- SELF_REFRESH_ENTRY (R352). An interface idle for 0x4200:0B enters self-refresh. -/
  | selfRefreshEntry (t : Nat) (iface : Nat)
  /-- REFRESH_MODE_WRITE (R351). A write to 0x4200:09 in Ready switches per-bank or HY36-compatible refresh. -/
  | refreshModeWrite (t : Nat) (c : Nat) (mode : Nat)
  /-- DRAM_UNCORRECTABLE (R356). An uncorrectable DRAM read error is counted, logged by address, pulses IS12 and returns data as read. -/
  | dramUncorrectable (t : Nat) (addr : Nat) (who : DramReader)
  /-- REAL_TIME_OVERFLOW (R355). A real-time buffer fills on a stall beyond its bound and its requester acts by kind. -/
  | realTimeOverflow (t : Nat) (who : RtRequester) (stall : Nat)
  /-- FULL_SCRUB (R357). A write of 1 to 0x4200:0D starts a full DRAM scrub as a long operation. -/
  | fullScrub (t : Nat) (c : Nat)
  /-- FLAX_START (R366). A write of 1 to 0x4310+ch:03 starts the chain at the first descriptor. -/
  | flaxStart (t : Nat) (c : Nat) (ch : Nat)
  /-- FLAX_STOP (R366). A write of 2 to 0x4310+ch:03 stops the channel at its next burst boundary. -/
  | flaxStop (t : Nat) (c : Nat) (ch : Nat)
  /-- FLAX_BURST (R364). At a burst boundary Flax arbitrates channels and moves a burst of up to 256 bytes. -/
  | flaxBurst (t : Nat) (memError : Option Nat) (corrected : Nat)
  /-- DESCRIPTOR_COMPLETE (R360). A descriptor completes and the channel reads its next field or ends the chain. -/
  | descriptorComplete (t : Nat)
  /-- JOB_START (R372). A write of 1 to 0x4400:02 starts the Almond job at the descriptor address. -/
  | jobStart (t : Nat) (c : Nat)
  /-- JOB_RESUME (R374). A write of 2 to 0x4400:02 resumes a stopped job with a new buffer list. -/
  | jobResume (t : Nat) (c : Nat)
  /-- JOB_ABANDON (R374). A write of 3 to 0x4400:02 abandons the job. -/
  | jobAbandon (t : Nat) (c : Nat)
  /-- DEVICE_TIME_WRITE (R379). A write to 0x2200:01 sets device time and cancels a pending PPS set. -/
  | deviceTimeWrite (t : Nat) (c : Nat) (ns : Nat)
  /-- TIME_AT_NEXT_PPS (R379). A write to 0x2200:02 arms a time set at the next accepted PPS edge. -/
  | timeAtNextPps (t : Nat) (c : Nat) (ns : Nat)
  /-- RATE_CORRECTION_WRITE (R382). A write to 0x2200:05 in mode 0 sets the rate correction r. -/
  | rateCorrectionWrite (t : Nat) (c : Nat) (r : Int)
  /-- PPS_EDGE (R380). A PPS_IN rising edge is stamped and accepted or rejected. -/
  | ppsEdge (t : Nat) (code : Nat) (c1 : Nat) (c2 : Nat) (calibrated : Bool)
  /-- PPS_PROCESS (R381). 1 µs after an accepted edge the device applies the set, frequency and phase updates or a step. -/
  | ppsProcess (t : Nat)
  /-- PPS_LOSS (R380). No accepted edge for 2.5 s enters acquisition or holdover. -/
  | ppsLoss (t : Nat)
  /-- INTERVAL_ARM (R387). A write of 1 to 0x2210:04 arms an interval measurement. -/
  | intervalArm (t : Nat) (c : Nat)
  /-- INTERVAL_DISARM (R387). A write of 2 to 0x2210:04 disarms the interval measurement. -/
  | intervalDisarm (t : Nat) (c : Nat)
  /-- INTERVAL_TIMEOUT (R387). The interval measurement times out after its start. -/
  | intervalTimeout (t : Nat)
  /-- TDC_FALLBACK (R385). An out-of-bounds calibration makes the interpolator use the factory pair. -/
  | tdcFallback (t : Nat) (ch : Nat)
  /-- CONVERTER_0_PASS (R390). Every 1 ms converter 0 starts its system pass. -/
  | converter0Pass (t : Nat)
  /-- CONVERTER_1_PASS (R394). A write of 1 to 0x4800:07 triggers a converter 1 pass. -/
  | converter1Pass (t : Nat) (c : Nat)
  /-- CONVERTER_1_TIMER (R394). The converter 1 timer expires and triggers a pass. -/
  | converter1Timer (t : Nat)
  /-- PASS_END (R400). A converter pass ends with its cross-check and results written; a pending pass starts. -/
  | passEnd (t : Nat) (conv : Nat) (reading : PassReading)
  /-- BLANK_IN (R395). BLANK_IN asserts or deasserts, blanking Pip sampling. -/
  | blankIn (t : Nat) (level : Bool)
  /-- RTD_SETTING_WRITE (R399). A write to an RTD's excitation, type or wiring acts at once and restarts a running entry. -/
  | rtdSettingWrite (t : Nat) (c : Nat) (rtd : Nat) (sub : Nat) (value : Nat) (phase : Nat)
  /-- CONVERTER_1_REFERENCE (R391). A write to 0x4800:03 selects converter 1's reference when idle or after the pass. -/
  | converter1Reference (t : Nat) (c : Nat) (value : Nat)
  /-- CALIBRATION_START (R401). A write of 1 to 0x4830:06 starts an RTD calibration run as a long operation. -/
  | calibrationStart (t : Nat) (c : Nat)
  /-- LONG_OPERATION_END (R473). A long operation ends, writing its result and posting event 0x000A. -/
  | longOperationEnd (t : Nat) (outcome : LongOutcome)
  /-- ENUM (R408). A received ENUM sets the device's position and propagates downstream. -/
  | enum (t : Nat) (sender : Nat)
  /-- ENUM_TIMEOUT (R408). 20 ms after its position was set with no downstream lock, a device sends ENUM_END. -/
  | enumTimeout (t : Nat)
  /-- ENUM_END (R408). The head receives ENUM_END and writes the chain length. -/
  | enumEnd (t : Nat) (position : Nat)
  /-- MARKER (R410). Every 1 ms a device sends a marker downstream and stamps its departure. -/
  | marker (t : Nat) (code : Nat) (c1 : Nat) (c2 : Nat)
  /-- MARKER_ARRIVAL (R410). A member stamps an arriving marker and sends its echo. -/
  | markerArrival (t : Nat) (arrive : Nat) (depart : Nat)
  /-- TURN (R410). The sender receives TURN, computes the one-way delay and sends SYNC. -/
  | turn (t : Nat) (bins : Nat) (back : Nat)
  /-- SYNC (R411). A member receives SYNC, updates its offset and steps T and its rate and state. -/
  | sync (t : Nat) (ts : Nat) (delay : Nat) (rate : Int) (state : Nat)
  /-- PHASE_STEP (R411). A member applies a 15.625 ps PLL phase step, at most one per µs. -/
  | phaseStep (t : Nat)
  /-- SYNC_LOSS (R412). A member without SYNC for 2.5 s enters holdover. -/
  | syncLoss (t : Nat)
  /-- BOUNDARY (R413). A member receives BOUNDARY and realigns its grid and index when they differ. -/
  | boundary (t : Nat) (index : Nat) (stamp : Nat) (period : Nat)
  /-- UPDATE (R453). An UPDATE message grants or returns the chain update grant. -/
  | update (t : Nat) (src : Nat) (give : Nat)
  /-- INJECT (R493). A member receives INJECT start or stop for ledger suspension. -/
  | inject (t : Nat) (on : Nat) (link : Nat) (action : Nat)
  /-- SIDE_LOCK (R406). A Darug side locks after 64 commas. -/
  | sideLock (t : Nat) (down : Bool)
  /-- SIDE_FAULT (R416). A Darug side loses lock, enters fault and retrains. -/
  | sideFault (t : Nat) (down : Bool)
  /-- DRG_REFI_LOSS (R405). A member loses DRG_REFI and holds its PLL. -/
  | drgRefiLoss (t : Nat)
  /-- REFERENCE_TIMEOUT (R405). 10 ms without the reference, the member ends Sensing and enters Doze. -/
  | referenceTimeout (t : Nat)
  /-- POD_SECOND (R424). Once per second Walnut debits measured energy and credits scheduled income to the balance. -/
  | podSecond (t : Nat)
  /-- INCOME_CREDIT (R424). A write to 0x2100:08 credits µJ to the balance under the cap. -/
  | incomeCredit (t : Nat) (c : Nat) (uj : Nat)
  /-- BALANCE_WRITE (R426). A write to 0x2100:03 replaces the balance and clears balance unknown. -/
  | balanceWrite (t : Nat) (c : Nat) (uj : Int)
  /-- MANAGED_OPERATION (R428). A write of 1 to 0x2100:02 lets Walnut enter and leave Sensing and sleep. -/
  | managedOperation (t : Nat) (c : Nat)
  /-- RUNG_CHOICE (R431). Walnut re-chooses a continuous rung or duty cycle every 60 s and on triggers. -/
  | rungChoice (t : Nat)
  /-- ENERGY_REFINE (R429). After each minute of Sensing the rung's refined power updates from the measured mean. -/
  | energyRefine (t : Nat) (mean : Nat)
  /-- ON_TIME_END (R432). A duty cycle's on-time ends, Sensing stops and the device sleeps until the next cycle. -/
  | onTimeEnd (t : Nat)
  /-- WATCHDOG (R436). The hardware watchdog expires and restarts Walnut. -/
  | watchdog (t : Nat)
  /-- RESTART_WALNUT (R436). A write of 1 to 0x5000:05 restarts Walnut. -/
  | restartWalnut (t : Nat) (c : Nat)
  /-- WALNUT_EXCEPTION (R436). An unrecoverable exception restarts Walnut. -/
  | walnutException (t : Nat)
  /-- TEMPERATURE_READING (R437). Every 10 ms Walnut reads the die sensors and acts on warning and critical levels. -/
  | temperatureReading (t : Nat) (temps : List Int)
  /-- LOG_ENTRY (R439). Walnut writes a buffered log entry to flash and q13. -/
  | logEntry (t : Nat)
  /-- LOG_SELECT (R440). A write to 0x5400:03 selects a log entry for reading. -/
  | logSelect (t : Nat) (c : Nat) (number : Nat)
  /-- ACORN_MEASUREMENT (R441). An Acorn monitor takes its scheduled reading and updates margin and projection. -/
  | acornMeasurement (t : Nat) (monitor : Nat) (value : Int)
  /-- AVS_STEP (R442). Walnut moves the VDD_CORE set point one 5 mV step over PMBus. -/
  | avsStep (t : Nat) (up : Bool) (acked : Bool)
  /-- PLAN_DERATING (R443). Walnut lowers the derate limit when margin falls at the top set point. -/
  | planDerating (t : Nat)
  /-- LEDGER_RESET (R445). A write of 1 to 0x5000:23 zeroes availability counters and the ledger. -/
  | ledgerReset (t : Nat) (c : Nat)
  /-- DOWNLOAD_OPEN (R451). A write of 1 to 0x5800:02 opens the image download on the inactive area. -/
  | downloadOpen (t : Nat) (c : Nat)
  /-- DOWNLOAD_CLOSE (R452). A write of 2 to 0x5800:02 closes and verifies the download segments. -/
  | downloadClose (t : Nat) (c : Nat)
  /-- DOWNLOAD_ABANDON (R452). A write of 3 to 0x5800:02 abandons the download. -/
  | downloadAbandon (t : Nat) (c : Nat)
  /-- CAN_FD_DATA (R451). A DOMAIN write to 0x5800:08 programs image bytes at the CAN FD offset. -/
  | canFdData (t : Nat) (c : Nat) (data : List Byte)
  /-- IMAGE_PREPARE (R453). A write of 1 to 0x5800:09 prepares the downloaded image as a long operation. -/
  | imagePrepare (t : Nat) (c : Nat)
  /-- ACTIVATE (R454). A write of 1 to 0x5800:0A activates the prepared image, restarting Walnut or pausing sensing. -/
  | activate (t : Nat) (c : Nat)
  /-- CONFIRM (R458). A write of 1 to 0x5800:0B confirms the trial image. -/
  | confirm (t : Nat) (c : Nat)
  /-- CONFIRM_TIMEOUT (R458). An unconfirmed trial reverts to the other slot after the confirm timeout. -/
  | confirmTimeout (t : Nat)
  /-- USDO_REQUEST (R468). A USDO request or segment is received, judged for session and precedence, and answered. -/
  | usdoRequest (t : Nat) (c : Nat) (req : UsdoReq)
  /-- LATEST_BOUNDARY_READ (R120). A read of 0x2200:0B latches the stamp of that boundary into 0x2200:0C and :0D. -/
  | latestBoundaryRead (t : Nat) (c : Nat)
  /-- SNAPSHOT_READ (R305). A segmented read of 0x5F00:02 takes the snapshot at its first segment and holds it to the last. -/
  | snapshotRead (t : Nat) (c : Nat)
  /-- REGISTER_WRITE (R471). A write to an object with no row of its own is checked and stored. -/
  | registerWrite (t : Nat) (c : Nat) (index : Nat) (sub : Nat) (data : List Byte)
  /-- LEASE_LAPSE (R468). The client lease lapses, ending the session and discarding an open stage set. -/
  | leaseLapse (t : Nat)
  /-- TRANSFER_TIMEOUT (R469). A segmented transfer with no segment for 1 s is aborted. -/
  | transferTimeout (t : Nat)
  /-- HEARTBEAT (R475). The heartbeat period expires and the device sends a heartbeat frame. -/
  | heartbeat (t : Nat)
  /-- EMCY (R476). A waiting EMCY is sent once the inhibit time has passed. -/
  | emcy (t : Nat)
  /-- UNLOCK (R485). A write of 0xC4A5 to 0x5E00:01 unlocks fault injection. -/
  | unlock (t : Nat) (c : Nat)
  /-- INJECTION_START (R486). A write of 1 to 0x5E00:07 starts injection with the settings in force. -/
  | injectionStart (t : Nat) (c : Nat)
  /-- INJECTION_STOP (R486). A write of 2 to 0x5E00:07 stops injection. -/
  | injectionStop (t : Nat) (c : Nat)
  /-- REORDER_HOLD_TIMEOUT (R489). A held frame with no partner within 10 µs goes out alone. -/
  | reorderHoldTimeout (t : Nat)
  /-- VBAT_LOSS (R417). VBAT falls below 1.8 V, so the Shell stops, retention RAM is lost and the wake timer halts. -/
  | vbatLoss (t : Nat)
  /-- DRG_REFI_RETURN (R405). A valid DRG_REFI returns within 10 ms, so Sensing stays undisturbed and alignment is re-measured, or a member waiting to leave Doze proceeds. -/
  | drgRefiReturn (t : Nat)
  /-- MESSAGE_CRC_ERROR (R407). A Darug message with a bad CRC is dropped and counted in 0x4C00:0E. -/
  | messageCrcError (t : Nat) (down : Bool)
  /-- HOST_FRAME_DROP (R326). A host frame that fails its CRC or carries an unknown kind is dropped and counted in 0x4048+m:06. -/
  | hostFrameDrop (t : Nat) (lane : Dropped)
  /-- JOB_DONE (R376). An Almond job finishes its input or stops on a full buffer, writing its result and counts and entering Done, Stopped or Error. -/
  | jobDone (t : Nat) (readError : Bool) (corrected : Nat) (fallbacks : Nat)
  /-- DOWNLOAD_VERIFY_END (R452). The read-back verification started by a close ends and the download state moves from verifying to 2 or 3. -/
  | downloadVerifyEnd (t : Nat)
  /-- ACTIVATION_LOAD_END (R454). During a data-path activation pause the library and Chestnut tables finish loading from staging and the warm entry to Sensing begins. -/
  | activationLoadEnd (t : Nat)
  /-- WALNUT_RESTART_DONE (R436). Walnut runs again after a restart, reads back hardware state, posts Pod for the interval, sends its EMCY and logs the restart. -/
  | walnutRestartDone (t : Nat)
  /-- USER_ITEM_CHECKPOINT (R240). A user item's checkpoint instant passes before END and the item is aborted without a record. -/
  | userItemCheckpoint (t : Nat) (engine : Nat)
  /-- PMBUS_RETRY (R508). 10 ms after a failed PMBus transaction the device retries once, then logs a failure and keeps the set point. -/
  | pmbusRetry (t : Nat) (acked : Bool)
  deriving DecidableEq, Repr

end Sys2Proof
end

