-- ==== Sys2Proof/Config.lean ====
section
/-! DEFINITION. What the spec leaves open. Every constant here is opaque and has no body: no proof can see what it is,
so a claim that goes through one holds whatever it is. -/

namespace Sys2Proof

/-- The value of the n-th draw of a free value: a number the spec says exists and does not state (assumption log 3). -/
opaque Config.freeNat : Nat → Nat

/-- Whether a low pulse of RESET_L of this many ns, 100 or more and less than 1000, starts a Core reset (R502). -/
opaque Config.shortResetActs : Nat → Bool

/-- Which of the temperatures within 1 mK of the exact inverse the device writes: -1, 0 or +1 mK by type, resistance
(R397); reduced by its reader to that span. -/
opaque Config.rtdPick : Nat → Nat → Nat

/-- The factory constant g by RTD, level and gain code, which the calibration area holds and the spec does not state (R402). -/
opaque Config.rtdFactory : Nat → Nat → Nat → Nat

/-- Which of the match lengths and literals Almond chooses where the format leaves it the choice (R370): for the state
of the window and the input, the length of the next literal run or match it prefers; its reader keeps it legal. -/
opaque Config.almondPick : Nat → Nat

/-- The bytes of the match tables an Almond history write carries, which the spec does not describe (R375). -/
opaque Config.almondTable : Nat → Nat

/-- The number of entries of the kernel directory of the data-path image stored at manufacture, which the spec does not
give (R519, assumption log 9); its reader keeps it from 1 to 256. -/
opaque Config.factoryKernels : Nat

/-- Entry i of that directory as a number: its entry bundle, role and name (Table 10-16); its reader keeps the fields in range. -/
opaque Config.factoryKernel : Nat → Nat

/-- A header field of an image stored at manufacture, by area and offset (Table 22-2, assumption log 9). -/
opaque Config.factoryField : Nat → Nat → Nat

/-- Revision and serial number of the part, 0x1018:03 and :04 by subindex, which the spec does not give (Table 24-2). -/
opaque Config.identity : Nat → Nat

/-- The hardware version string, which the spec gives by an example only (0x1009, Table 24-2). -/
opaque Config.hardwareVersion : List Byte

/-- How a Walnut version reads as a string, which the spec does not give (0x100A, Table 24-2). -/
opaque Config.softwareVersion : Nat → List Byte

/-- The design values that stand in for a factory record whose check fails (R496): by kind (0 latency in ns, 1 bias set
point, 2 RTD constant) and place. -/
opaque Config.designValue : Nat → Nat → Nat

/-- The baseline of an Acorn monitor, taken at manufacture, in its unit × 1000 (R441). -/
opaque Config.acornBaseline : Nat → Int

/-- The value of an acoustic output that no schedule entry works on, by tick number, port and output: the spec states none
(R166, assumption log 80). -/
opaque Config.unworked : Nat → Nat → Nat → Nat

/-- Where a kernel puts the record of a channel in its banks, by port and channel: the spec states no place (assumption log 81);
its reader keeps it inside the banks. -/
opaque Config.recordPlace : Nat → Nat → Nat

/-- The program words of the library kernels of a data-path image, by image version and byte address: the spec does not give
their place in the image (R217, assumption log 46). -/
opaque Config.libraryByte : Nat → Nat → Byte

end Sys2Proof
end

