-- ==== Sys2Proof/Machine/Arith.lean ====
section
/-! DEFINITION. The arithmetic the chapters share: convergent rounding (R5), saturation and wrapping (06, 07), the
little-endian packing of R4, CRC-32C (R42) and CRC-32 (R402), the ROM tables given by formula (R106, R130, R132, R133,
R135, R207), and small list helpers. Everything is exact integer arithmetic. -/

namespace Sys2Proof.Machine

open Sys2Proof

/-! ## Rounding, saturation, wrapping -/

/-- `rdiv(a, b)` for b > 0: the nearest integer to a / b, a tie going to the even one (07, R5). -/
def rdiv (a b : Int) : Int :=
  let q := a / b
  let r := a % b
  if 2 * r < b then q else if 2 * r > b then q + 1 else if q % 2 = 0 then q else q + 1

/-- `rhe(v, s)`: v divided by 2^s with convergent rounding; rhe(v, 0) is v (06). -/
def rhe (v : Int) (s : Nat) : Int := rdiv v (2 ^ s)

/-- Limit to the signed range of w bits: sat14, sat16, sat24, sat32, sat56 (05, 06, 07). -/
def satS (w : Nat) (v : Int) : Int := max (-(2 ^ (w - 1))) (min (2 ^ (w - 1) - 1) v)

/-- Reduce modulo 2^w into the signed range: wrap24, wrap64, wrapw (07, 08, 13). -/
def wrapS (w : Nat) (v : Int) : Int :=
  let m := v % 2 ^ w
  if m < 2 ^ (w - 1) then m else m - 2 ^ w

/-- The unsigned w-bit pattern of an integer. -/
def toU (w : Nat) (v : Int) : Nat := (v % 2 ^ w).toNat

/-- The signed value of a w-bit pattern. -/
def toI (w : Nat) (n : Nat) : Int := wrapS w n

/-- Bits [hi:lo] of n (R3). -/
def bits (n hi lo : Nat) : Nat := n / 2 ^ lo % 2 ^ (hi + 1 - lo)

def bit (n i : Nat) : Bool := n / 2 ^ i % 2 = 1

def setBit (n i : Nat) : Nat := if bit n i then n else n + 2 ^ i

def clearBits (n mask : Nat) : Nat := n - (n &&& mask)

/-! ## Lists -/

/-- Replace entry i by its image; no effect beyond the end. -/
def modAt {α : Type} (l : List α) (i : Nat) (f : α → α) : List α := l.modify i f

def mib : Nat := 2 ^ 20

/-- A list of n copies. -/
def rep {α : Type} (n : Nat) (a : α) : List α := List.replicate n a

/-- Sum of integers, exact. -/
def sumI (l : List Int) : Int := l.foldl (· + ·) 0

def sumN (l : List Nat) : Nat := l.foldl (· + ·) 0

/-- Ceiling division. -/
def ceilDiv (a b : Nat) : Nat := (a + b - 1) / b

/-! ## Bytes (R4: little-endian) -/

def byte (n : Nat) : Byte := BitVec.ofNat 8 n

/-- n little-endian bytes of v. -/
def le : Nat → Nat → List Byte
  | 0, _ => []
  | n + 1, v => byte v :: le n (v / 256)

/-- The value of little-endian bytes. -/
def unle : List Byte → Nat
  | [] => 0
  | b :: r => b.toNat + 256 * unle r

/-- n bytes at an offset, zeros beyond the end. -/
def sliceB (l : List Byte) (off n : Nat) : List Byte :=
  let r := (l.drop off).take n
  r ++ rep (n - r.length) 0

/-- The little-endian number of n bytes at an offset. -/
def fld (l : List Byte) (off n : Nat) : Nat := unle (sliceB l off n)

/-- The same, signed. -/
def fldI (l : List Byte) (off n : Nat) : Int := toI (8 * n) (fld l off n)

/-- Zero-pad to a multiple of n bytes. -/
def padTo (n : Nat) (l : List Byte) : List Byte := l ++ rep (ceilDiv l.length n * n - l.length) 0

/-- Overwrite bytes at an offset of a list. -/
def patch (l : List Byte) (off : Nat) (b : List Byte) : List Byte :=
  l.take off ++ b ++ l.drop (off + b.length)

/-! ## CRC -/

/-- One bit of a reflected CRC with polynomial `poly`. -/
def crcBit (poly c : BitVec 32) : BitVec 32 :=
  if c.getLsbD 0 then (c >>> 1) ^^^ poly else c >>> 1

def crcByte (poly c : BitVec 32) (b : Byte) : BitVec 32 :=
  let c := c ^^^ b.zeroExtend 32
  crcBit poly (crcBit poly (crcBit poly (crcBit poly
    (crcBit poly (crcBit poly (crcBit poly (crcBit poly c)))))))

/-- A reflected CRC with initial value 0xFFFF_FFFF and a final inversion. -/
def crcWith (poly : BitVec 32) (l : List Byte) : Nat := (~~~ (l.foldl (crcByte poly) 0xFFFFFFFF)).toNat

/-- CRC-32C as R42 uses it (Castagnoli polynomial 0x1EDC_6F41, here reflected). -/
def crc32c (l : List Byte) : Nat := crcWith 0x82F63B78 l

/-- CRC-32 as R402 states it: polynomial 0x04C1_1DB7, reflected. -/
def crc32 (l : List Byte) : Nat := crcWith 0xEDB88320 l

/-! ## ROM tables given by a formula

The manual gives these tables as the rounding of a real function. They are computed here in fixed point with 96 and
more fraction bits, far beyond the rounding distance of any entry (DEDUCED, assumption log 11). -/

/-- One in the fixed point of the series. -/
def fxOne : Int := 2 ^ 96

/-- pi in that fixed point. -/
def fxPi : Int := 248902613312231085230521944622

/-- Taylor series of the sine or cosine: the term `u` of order k, |x| <= pi/4 in fixed point. -/
def trigSeries : Nat → Nat → Int → Int → Int
  | 0, _, _, _ => 0
  | fuel + 1, k, x, u => u + trigSeries fuel (k + 2) x (-(u * x / fxOne * x / fxOne) / ((k + 1) * (k + 2)))

/-- cos(2 pi n / d) and sin(2 pi n / d) in fixed point, by octants so that the axes are exact. -/
def cosSin (n d : Nat) : Int × Int :=
  let n8 := 8 * (n % d)
  let o := n8 / d
  let r := n8 % d
  -- the angle within the octant, from its lower axis
  let f := if o % 2 = 0 then r else d - r
  let x := fxPi * f / (4 * d)
  let c := trigSeries 20 0 x fxOne
  let s := trigSeries 20 1 x x
  match o with
  | 0 => (c, s) | 1 => (s, c) | 2 => (-s, c) | 3 => (-c, s)
  | 4 => (-c, -s) | 5 => (-s, -c) | 6 => (s, -c) | _ => (c, -s)

/-- rhe(scale * cos(2 pi n / d)) for a real argument. -/
def romCos (scale : Int) (n d : Nat) : Int := rdiv (scale * (cosSin n d).1) fxOne

def romSin (scale : Int) (n d : Nat) : Int := rdiv (scale * (cosSin n d).2) fxOne

/-- The sweep timer's latest instant at or before x on the 500 MHz converter clock (R121), whose edges stand at even ns of the
sweep clock. -/
def adcEdge (x : Nat) : Nat := x / 2 * 2

/-- Series of the arc tangent of 2^-i (i >= 1) in fixed point: term numerator u of order k. -/
def atanSeries : Nat → Nat → Nat → Int → Int
  | 0, _, _, _ => 0
  | fuel + 1, i, k, u => u / k - atanSeries fuel i (k + 2) (u / 4 ^ i)

/-- atn[i] = rhe(2^27 * atan(2^-i) / pi) (R135). -/
def atn (i : Nat) : Int :=
  if i = 0 then 33554432 else rdiv (2 ^ 27 * atanSeries 60 i 1 (fxOne / 2 ^ i)) fxPi

/-- Search of the largest g below 2^bits_ with (2g-1)^200 * 10^a < 65536^200: the rounding of 32768 * 10^(-a/200). -/
def gainSearch (a : Nat) : Nat → Nat → Nat
  | 0, g => g
  | k + 1, g =>
    let g' := g + 2 ^ k
    if (2 * g' - 1) ^ 200 * 10 ^ a < 65536 ^ 200 then gainSearch a k g' else gainSearch a k g

/-- g[a] = round_half_even(32768 * 10^(-a/200)), the gain ROM of R106; a = 0 is exactly 32768. -/
def gainRom (a : Nat) : Nat := if a = 0 then 32768 else gainSearch a 16 0

/-- Series of ln((1+y)/(1-y)) / 2 in fixed point. -/
def lnSeries : Nat → Int → Int → Nat → Int
  | 0, _, _, _ => 0
  | fuel + 1, y2, u, k => u / k + lnSeries fuel y2 (u * y2 / fxOne) (k + 2)

/-- LN[k] = rhe(2^24 * ln(1 + k/256)) (R207). -/
def lnRom (k : Nat) : Int :=
  let y : Int := fxOne * k / (512 + k)
  rdiv (2 ^ 25 * lnSeries 50 (y * y / fxOne) y 1) fxOne

/-- The natural logarithm of R207 in units of 2^-24 neper, for v > 0. -/
def lnfix (v : Nat) : Int :=
  let e := Nat.log2 v
  let mm := v * 2 ^ 32 / 2 ^ e
  let k := mm / 2 ^ 24 % 256
  let fr : Int := (mm % 2 ^ 24 : Nat)
  e * lnRom 256 + lnRom k + rhe ((lnRom (k + 1) - lnRom k) * fr) 24

end Sys2Proof.Machine
end

