-- ==== Sys2Proof/Machine/State.lean ====
section
/-! DEFINITION. The state of one HY48: every register, memory, queue, timer and pin state the spec names, as plain
data, and the queue of waiting commands. The object dictionary (23, 24) is the register file: every numeric object of
Tables 24-1 to 24-9 has its cell in `objects`, every DOMAIN in `domains`; both are kept in canonical form (keys
rising, no cell equal to what an unlisted key reads as). State that software cannot read stands in the fields of the
block that owns it. Instants are nanoseconds of the sweep clock (R6). -/

namespace Sys2Proof.Machine

open Sys2Proof

/-- A sparse memory in canonical form: addresses strictly rising, no byte equal to zero, which is what an unlisted
address reads as (assumption log 4). -/
abbrev Mem := List Host.Cell

/-- Why a run stops with a fault: never, because the spec gives every command of its table an effect. The one
constructor stands for a command handed to a block that holds no such command; no meaning raises it (safe). -/
inductive Fault where
  /-- Raised by no meaning. Safe. -/
  | impossible
  deriving DecidableEq, Repr

/-- Why a command is turned away without a meaning. -/
inductive Refusal where
  /-- Raised by an arm of `exec` whose command has no meaning yet. Safe: nothing is claimed of it. -/
  | notModelled (mnemonic : String)
  deriving DecidableEq, Repr

/-! ## Power, Shell, board (02, 20, 26, 27) -/

/-- The four power states (Table 20-2). -/
inductive PowerState where
  | dormant | doze | ready | sensing
  deriving DecidableEq, Repr

/-- What is fixed in one part and its board: fuses (R25, R340, R449), straps (R403, R409). -/
structure Board where
  /-- Enabled ports, 1, 2 or 4 (R26). -/
  ports : Nat
  /-- Function C: combined acoustic and temperature (Table 0-1). -/
  combined : Bool
  /-- Reach class 80 km (Table 0-1). -/
  km80 : Bool
  /-- Redundant columns per Cashew bank (R340). -/
  columns : List Nat
  /-- The public-key hash in fuses (R449). -/
  keyHash : List Byte
  /-- Anti-rollback counters in fuses, Walnut and data path (R449). -/
  walnutCounter : Nat
  dataCounter : Nat
  /-- NODE_ID[3:0] strap (R409). -/
  nodeStrap : Nat
  /-- DRG_HEAD strap (R403). -/
  headStrap : Bool
  deriving DecidableEq, Repr

/-- An entry to Sensing in progress (Table 4-9, R92, R466). -/
structure Entry where
  warm : Bool
  /-- The instant of acceptance, from which Table 4-9 counts. -/
  start : Nat
  /-- The instant of the first boundary. -/
  first : Nat
  seedChecked : Bool
  /-- A command that ends Sensing came during the entry (R467). -/
  stop : Bool
  deriving DecidableEq, Repr

/-- The power island, the resets and the transitions (20, 26). -/
structure Power where
  /-- VBAT at or above 1.8 V (R417, R494). -/
  vbat : Bool
  /-- The 32.768 kHz crystal runs (R494). -/
  crystal : Bool
  /-- PWR_EN (R421). -/
  pwrEn : Bool
  /-- The 20 ms minimum low time runs, and its end (R422). -/
  lowHold : Bool
  lowUntil : Nat
  /-- PG_IN (R422). -/
  pgIn : Bool
  /-- A Core reset or power-up has begun and the internal reset is not yet released (R495, R502); its release instant. -/
  inReset : Bool
  releaseAt : Nat
  power : PowerState
  /-- The state a transition in progress ends in (R462, R466). -/
  goal : Option PowerState
  /-- NMT Stopped, and a stop command whose move to Doze is under way (R463). -/
  nmtStopped : Bool
  nmtStopWanted : Bool
  /-- Sensing stops at the next boundary (R94); it has stopped and the shut-down is still to come. -/
  stopWanted : Bool
  shutting : Bool
  entry : Option Entry
  /-- A plan-reload-then-enter judgement is waiting (R466). -/
  enterWanted : Bool
  /-- A host command that ended Sensing clears managed operation once the transition is over (R428). -/
  managedClear : Bool
  /-- The domains of Table 1-7 that vary within a live Core. -/
  dramLive : Bool
  photonic : Bool
  serial : Bool
  /-- The first entry to Ready after a Core power-up or reset is done (R498). -/
  readyDone : Bool
  /-- The Hazel library is loaded (R217, R455). -/
  library : Bool
  /-- Shell wake timer, 48 bits, and the part of a tick already elapsed, in units of 1/10^9 tick. -/
  shellCount : Nat
  shellRem : Nat
  /-- Shell armed for a wake (R423), a wake cause latched for this Dormant entry (R423), the stored wake time, 0 disabled
  (R418). -/
  armed : Bool
  woken : Bool
  wakeTime : Nat
  /-- The Shell count when the Shell was armed last, and the instant of the latest wake (R418, R432). -/
  armCount : Nat
  wokeAt : Nat
  /-- Retention RAM, 256 bytes (Table 20-1). -/
  retention : List Byte
  /-- The wake set in the confirmed settings area, in list order (R501). -/
  wakeSet : List (Nat × Nat)
  /-- The stored objects of R481 in the settings areas 0 and 1 (R446, R457). -/
  settings0 : List (Nat × Nat)
  settings1 : List (Nat × Nat)
  /-- PWR_EN went high for a wake from Dormant, so the wake set is restored (Table 26-2). -/
  fromDormant : Bool
  /-- Variant sensed at the last Core power-up (R25): ports, combined, km80, head. -/
  sensedPorts : Nat
  sensedCombined : Bool
  sensedKm80 : Bool
  sensedHead : Bool
  deriving DecidableEq, Repr

/-! ## Control session and management (21, 23) -/

/-- An open segmented transfer (R469, R470): the bytes of a write so far, or the value a read took at its first segment
and holds to the last (R305). -/
structure Transfer where
  index : Nat
  sub : Nat
  writing : Bool
  bytes : List Byte
  deadline : Nat
  deriving DecidableEq, Repr

/-- A running long operation (Table 23-4). -/
structure LongOp where
  code : Nat
  start : Nat
  maximum : Nat
  progress : Nat
  /-- Operation argument: rung and keep of an install, the mask of a bias search, the kind of a preparation. -/
  arg : Nat
  /-- The image of an install or a preparation. -/
  image : List Byte
  deriving DecidableEq, Repr

/-- One EMCY (R476). -/
structure Emcy where
  code : Nat
  detail : Nat
  argument : Nat
  deriving DecidableEq, Repr

/-- The USDO session, transfers, long operation, heartbeat and EMCY producer (23). -/
structure Control where
  /-- Session client, 0 none (R468); the lease's end. -/
  lease : Nat
  transfer : Option Transfer
  longOp : Option LongOp
  waiting : List Emcy
  /-- No EMCY before this instant (0x1015, R476). -/
  emcyFrom : Nat
  heartbeats : Nat
  /-- Walnut is restarting (R436). -/
  restarting : Bool
  restartAt : Nat
  /-- The node-ID in use (R409), 0 when the node sends nothing. -/
  nodeId : Nat
  /-- The data-phase bit rate since boot in Mbit/s (R460). -/
  rate : Nat
  /-- The PMIC's PMBus address since boot (R508). -/
  pmic : Nat
  deriving DecidableEq, Repr

/-- One Acorn monitor (R441). -/
structure Acorn where
  value : Int
  /-- Readings kept in the calibration area: device time in ns and value, oldest first. -/
  readings : List (Nat × Int)
  /-- The value at the last margin action. -/
  acted : Int
  deriving DecidableEq, Repr

/-- Walnut's supervision: log, rails, temperatures, availability (21). -/
structure Manage where
  /-- The log ring in flash, oldest first, 32-byte entries (R439). -/
  ring : List (List Byte)
  /-- Entries held in SRAM until written (R440). -/
  buffer : List (List Byte)
  nextEntry : Nat
  lostRun : Nat
  /-- Consecutive 1 ms passes each rail of Table 21-2 was outside its window. -/
  railRun : List Nat
  /-- Critical temperature seen; a host command may leave Doze after this instant, if any (R437). -/
  critical : Bool
  coolSince : Option Nat
  monitors : List Acorn
  /-- Intended time runs (R444), since this instant; time out of Sensing is charged to this cause. -/
  intended : Bool
  since : Nat
  charge : Option Nat
  /-- I - X, O (R444) in ns. -/
  inSpec : Nat
  outage : Nat
  /-- Ledger of Table 21-6 in ns, by cause. -/
  ledger : List Nat
  /-- Causes already borne by the sweep in progress. -/
  causes : List Nat
  /-- Outage intervals still open (R445): cause and ns so far. -/
  openOut : List (Nat × Nat)
  /-- Set points are to be stored at the next Ready entry (Table 21-5, monitor 3). -/
  storeSets : Bool
  /-- An AVS step waiting for its PMBus retry, mV, and when (R508). -/
  avsRetry : Option Nat
  avsLast : Nat
  deriving DecidableEq, Repr

/-! ## Plans (03) -/

/-- A section of a plan image (Table 3-2). -/
structure Section where
  typ : Nat
  inst : Nat
  bytes : List Byte
  deriving DecidableEq, Repr

/-- A plan: the 64-byte header (Table 3-1), the image length and the sections in directory order. -/
structure Plan where
  header : List Byte
  length : Nat
  secs : List Section
  deriving DecidableEq, Repr

/-- An occupied rung (R51, R52). -/
structure Rung where
  plan : Plan
  kept : Bool
  deriving DecidableEq, Repr

/-- An entry of the flash plan store (R447): rung, state byte, image, the check words of the image and of the head. -/
structure StoreEntry where
  rung : Nat
  status : Nat
  image : List Byte
  imageCheck : Nat
  headCheck : Nat
  deriving DecidableEq, Repr

/-- A pending switch (R56): its rung, when its prepare began, whether the seed check of its bring-up has been made (R93), whether
prepare has ended, the instant prepare ended, the ports brought up, the chain switch it belongs to (tag and commit index C). -/
structure Switch where
  rung : Nat
  startAt : Nat
  seedOk : Bool
  prepared : Bool
  readyAt : Nat
  bringUp : List Nat
  chain : Option Nat
  commit : Option Nat
  deriving DecidableEq, Repr

/-- One shadowed write: object key and value bytes (R59). -/
structure ShadowWrite where
  index : Nat
  sub : Nat
  bytes : List Byte
  deriving DecidableEq, Repr

/-- Shadowed writes that transfer together: their acceptance instant and the writes in order (R59, R60). -/
structure ShadowUnit where
  accepted : Nat
  staged : Bool
  writes : List ShadowWrite
  deriving DecidableEq, Repr

/-- A chain switch at the head (R61 to R64): positions that have acknowledged, the commit index, the positions not yet
known to run the target plan, and the largest distance from the commit index of a member that switched late. -/
structure ChainHead where
  rung : Nat
  tag : Nat
  sentAt : Nat
  acks : List Nat
  commit : Option Nat
  /-- Cancelled; the host has ended it with a new request, so the mismatch window is closed. -/
  ovr : Bool
  closed : Bool
  missing : List Nat
  window : Nat
  deriving DecidableEq, Repr

/-- A member's prepared chain switch (R61, R63). -/
structure ChainMember where
  rung : Nat
  tag : Nat
  acked : Bool
  ackAt : Nat
  switched : Bool
  deriving DecidableEq, Repr

structure Ladder where
  /-- Rungs 0 to 15 (R52). -/
  rungs : List (Option Rung)
  /-- Rungs still being reloaded (R498). -/
  reloading : List Nat
  /-- The plan in force for sweeps (R521) and its schedule instance (R54). -/
  inForce : Option Plan
  sched : Nat
  switch : Option Switch
  /-- Pending shadow units in acceptance order (R59), the open stage set (R60). -/
  pend : List ShadowUnit
  stage : Option (List ShadowWrite)
  chain : Option ChainHead
  member : Option ChainMember
  store : List StoreEntry
  /-- A running rung above the derate limit steps down at the next boundary (R443). -/
  derateDue : Bool
  deriving DecidableEq, Repr

/-! ## The sweep (01, 05) -/

/-- One statistics frame (R15 to R18): number, first sweep and its stamp, sweeps begun, the ordinal of the latest of them, the
runs of indices they have (first and count; a realign begins a new run, R413), length in force, whether its last sweep has
begun, its 86 counters (Table 13-7), queues whose first refusal was posted (R303). -/
structure Frame where
  number : Nat
  first : Nat
  stamp : Nat
  sweeps : Nat
  last : Nat
  runs : List (Nat × Nat)
  length : Nat
  closed : Bool
  counters : List Nat
  refused : List Nat
  deriving DecidableEq, Repr

/-- The values of one port that a sweep boundary fixed for its ticks (R136, R150): attenuation, gain, ash, h, ho, os,
fade threshold, ambiguity limit. -/
structure PortParams where
  atten : Nat
  gain : Nat
  ash : Nat
  h : Nat
  ho : Nat
  os : Nat
  fade : Nat
  lim : Nat
  deriving DecidableEq, Repr

/-- A sweep in flight (R11, R12, R14). `ord` counts the sweeps that have begun since the Core powered up: a realign makes
the index jump (R413), the ordinal rises by one at every sweep. -/
structure Flight where
  index : Nat
  ord : Nat
  /-- Its boundary (R9) and its stamp in units of 2^-16 ns (R119). -/
  start : Nat
  stamp : Nat
  plan : Plan
  rung : Nat
  sched : Nat
  /-- First sweep after a take (Table 7-6 bit 4); of a late switch (bit 0). -/
  taken : Bool
  late : Bool
  params : List PortParams
  /-- Zone thresholds in force at its boundary (R247), on and off by zone. -/
  thresholds : List (Nat × Nat)
  /-- Per slot: 0 code, 1 DTS word, 2 dark DTS (R195); DTS row; suppressed (R109). -/
  kinds : List Nat
  rows : List Nat
  suppressed : List Nat
  fired : Nat
  deriving DecidableEq, Repr

/-- What Husk fixes 2 µs before a boundary (R110): the sweep, the attenuation of each port, whether the waveform of slot 0
has an uncorrectable error, and the ports whose gates open for it, with the length of the opening (R73). The variant, the DTS
slots and their rows follow from the sweep and its plan. -/
structure Choice where
  index : Nat
  atten : List Nat
  bad : Bool
  gates : List Nat
  gate : Nat
  deriving DecidableEq, Repr

structure Sweep where
  /-- The instant of the next boundary, and of the latest one; its stamp (R119). -/
  next : Nat
  last : Nat
  lastIndex : Nat
  lastStamp : Nat
  /-- Sweeps begun since the Core powered up. -/
  ord : Nat
  flights : List Flight
  /-- The sweep that completed last, its completion instant, and whether its frame latched there (R231). -/
  past : Option (Flight × Nat × Bool)
  frames : List Frame
  nextFrame : Nat
  /-- Counters and refused queues gathered while no frame is open; they enter the first frame of the next entry (R18). -/
  early : List Nat
  earlyRefused : List Nat
  choice : Option Choice
  /-- DTS firings since the last reset of c (R116). -/
  dtsCount : Nat
  /-- Husk halves (R108): sections 0x0001 and 0x0002 of a plan, and which half is active. -/
  half0 : List Section
  half1 : List Section
  activeHalf1 : Bool
  /-- Output latency per port and receiver latency per port, from the calibration area (R110, R122). -/
  latency : List Nat
  rxLatency : List Nat
  /-- What the probe DACs of each port play (R102, R107): the instant at which sample 0 leaves the probe output, and the
  samples; before and after them the DACs output 0. -/
  waves : List (Nat × List (Int × Int))
  /-- A member holds its next boundary for a realign (R413): the head's next boundary and index. -/
  realign : Option (Nat × Nat)
  deriving DecidableEq, Repr

/-! ## Optics (04) -/

/-- One bias loop (Table 4-6). -/
structure Loop where
  code : Nat
  /-- Consecutive measurements within 1 degree. -/
  run : Nat
  deadline : Option Nat
  lastMeas : Nat
  setPoint : Int
  deriving DecidableEq, Repr

structure PortOptics where
  /-- Photonic sections powered (R65). -/
  live : Bool
  /-- Coming up: state 1 of Table 4-8. -/
  starting : Bool
  /-- Fires under the plan in force. -/
  firing : Bool
  /-- Protection trip (R82). -/
  tripped : Bool
  /-- Gate closed for a loop in Fault, judged at each boundary (R88). -/
  biasClosed : Bool
  /-- Spans whose samples carry the over-range flag and clamp: first instant, end if known, cause 0 input limit (R79),
  1 trip (R82), 2 bias fault (R88). -/
  forced : List (Nat × Option Nat × Nat)
  /-- I child, Q child, parent phase, gate (R86). -/
  loops : List Loop
  /-- The acquisition limit of an entry or a bring-up within prepare (Table 4-9, R92, R93), while it lies ahead. -/
  limit : Option Nat
  /-- Calibration of the four converters (R80, R124). -/
  trims : List Trim
  /-- Dark once the sweep of this ordinal completes (R39). -/
  darkAfter : Option Nat
  /-- The port emitted light in the frame (Table 4-7, probe peak). -/
  lit : Bool
  /-- Sum and count of the return-average readings of the frame. -/
  retSum : Int
  retCount : Nat
  deriving DecidableEq, Repr

structure Optics where
  seedLow : Bool
  seedDbm : Int
  /-- Spans of the seed-low condition, for R204. -/
  seedSpans : List (Nat × Option Nat)
  ports : List PortOptics
  /-- Bias set points stored in the calibration area, with the check word of the record (R89). -/
  stored : List (List Int)
  check : Nat
  deriving DecidableEq, Repr

/-! ## Chestnut and bursts (06) -/

/-- A Chestnut output element (Table 6-5). -/
structure Elem where
  i : Int
  q : Int
  ph : Int
  amp : Nat
  flags : Nat
  index : Nat
  deriving DecidableEq, Repr

/-- The elements and channel elements of one firing of one port (R137, R151). -/
structure FiringOut where
  port : Nat
  sweep : Nat
  ord : Nat
  slot : Nat
  x : List Elem
  y : List Elem
  cx : List Elem
  cy : List Elem
  deriving DecidableEq, Repr

/-- A raw burst (R143 to R147): configuration in force at the request and what was captured. -/
structure Burst where
  source : Nat
  mask : Nat
  start : Nat
  sweeps : Nat
  slot : Nat
  n0 : Nat
  count : Nat
  /-- Its start sweep has begun, at this instant; the end of Sensing stopped its capture. -/
  begun : Bool
  begins : Nat
  stop : Option Nat
  /-- Source 2: the firing has left Chestnut; the outputs in the capture RAM. -/
  got : Bool
  data : List Byte
  /-- Sources 0 and 1: where in DRAM its region stood at the request. -/
  base : Nat
  captured : Nat
  truncated : Bool
  noFiring : Bool
  abandoned : Bool
  stamp : Nat
  variant : Nat
  planP : Nat
  planL : Nat
  planS : Nat
  /-- Bytes of the data already offered; the first record already offered. -/
  sent : Nat
  headSent : Bool
  /-- The instant its capture ended. -/
  endedAt : Nat
  /-- Its next bytes of DRAM read with an uncorrectable error (R356). -/
  bad : Bool
  deriving DecidableEq, Repr

structure Chestnut where
  /-- What was delivered for the firings in flight. The reference spectra of R133 are a function of the plan each firing
  carries (`refSpectrum`), so they are not stored apart from it. -/
  outs : List FiringOut
  burst01 : Option Burst
  burst2 : Option Burst
  /-- Order in which captures ended, true is source 2 (R146). -/
  order : List Bool
  /-- Abandoned bursts whose head is still to leave. -/
  gone : List Burst
  deriving DecidableEq, Repr

/-! ## The acoustic chain (07) -/

/-- The channel state record (Table 7-3). `era` is the model's: the ordinal of the first sweep of the chain reset this record
was last cleared for, since a reset acts on each channel just before its first tick under the new plan (R156). -/
structure ChanState where
  era : Nat
  xph : Int
  yph : Int
  taint : Bool
  valid : Bool
  xa : Nat
  ya : Nat
  tick : Nat
  hs : Int
  b : List Int
  init : List Bool
  deriving DecidableEq, Repr

/-- What a tick's channel steps left for the output steps (R157 to R162); absent while the work is not done. -/
structure ChanWork where
  dd : Int
  restart : Bool
  fade : Bool
  amb : Bool
  taint : Bool
  ampSat : Bool
  deriving DecidableEq, Repr

/-- A tick of a port in Hazel: work per channel, value and flag byte per output (R162, R163). -/
structure TickWork where
  port : Nat
  sweep : Nat
  ord : Nat
  slot : Nat
  /-- A no-firing tick has `valid` false (R152). -/
  valid : Bool
  chans : List (Option ChanWork)
  outs : List (Option (Int × Nat))
  /-- Output items (role 2) that have ended: first output, count, and the outputs whose stored state was read with an
  error (R339). An output is computed once its channels are done too (R160). -/
  ended : List (Nat × Nat × List Nat)
  /-- Work lost with a failed engine (R166): role, first index and count of each range. -/
  lost : List (Nat × Nat × Nat)
  deriving DecidableEq, Repr

/-- The time from one chain reset of a port to the next (R156): index and ordinal of its first sweep, and the latest valid
tick of its completed sweeps (R153). -/
structure Era where
  sweep : Nat
  ord : Nat
  prev : Option Nat
  deriving DecidableEq, Repr

structure PortDas where
  chans : List ChanState
  /-- The eras that sweeps in flight still belong to, newest first. -/
  eras : List Era
  /-- Ordinals of the first sweeps of takes that changed the stream map or entered Sensing (R313), newest first. -/
  maps : List Nat
  deriving DecidableEq, Repr

structure Das where
  ports : List PortDas
  ticks : List TickWork
  deriving DecidableEq, Repr

/-! ## Poppy (08) -/

/-- The runtime state of one Poppy stage (Table 8-3, R181 to R183): its banks (shift, coefficients), the active bank,
the fade, the fade length in force for the next fade, and a bank select that waits for its first output. -/
structure PStage where
  bank0 : Nat × List Int
  bank1 : Nat × List Int
  active : Nat
  fading : Bool
  pos : Nat
  target : Nat
  len : Nat
  fadeLen : Nat
  want : Option Nat
  deriving DecidableEq, Repr

/-- The history of one stage of one output (R178, R179), newest first. -/
structure PHist where
  acc : List Int
  dly : List Int
  xs : List Int
  fs : List Nat
  deriving DecidableEq, Repr

/-- One decimated output: its stage histories and the boxcar's running sum and flags (R185). -/
structure POut where
  stages : List PHist
  box : Int
  boxFlags : Nat
  deriving DecidableEq, Repr

/-- What a plan gives Poppy for one port: its coefficient set sections and the port's decimation list. -/
structure PConf where
  secs : List (List Byte)
  list : List Nat
  deriving DecidableEq, Repr

/-- A change that acts on Poppy from an input index on (R181, R184 to R186), or a take to be flagged (Table 8-6). -/
inductive PEvent where
  | reset
  | conf (c : PConf)
  | select (j v : Nat)
  | load (j : Nat) (b : List Byte)
  | fadeLen (j n : Nat)
  | mode (v : Nat)
  | take (late : Bool)
  /-- A take changes the stream map (R313). -/
  | map
  deriving DecidableEq, Repr

/-- One tick of a port in the corner buffer (R174): absolute index, sweep, its ordinal and stamp, the plan that governs it, where the
buffer that holds its values and flags stands, and the positions of the list whose read meets an error (R356). -/
structure PTick where
  index : Nat
  sweep : Nat
  ord : Nat
  stamp : Nat
  plan : Plan
  base : Nat
  errs : List Nat
  deriving DecidableEq, Repr

/-- A change on its way to the chain of a port: the ordinal and first input index of the sweep it acts from. -/
structure PChange where
  ord : Nat
  at_ : Nat
  what : PEvent
  deriving DecidableEq, Repr

/-- Poppy's work for one port. The stages stand once per port, because each port reaches a change at its own pace. -/
structure PortPop where
  conf : PConf
  stages : List PStage
  outs : List POut
  boxcar : Bool
  modeNext : Bool
  /-- First input of the last reset (R186). -/
  resetAt : Nat
  /-- A reset or a change of the stream map since the last final output: the coding contexts restart with the next (R313). -/
  mark : Bool
  /-- Changes not yet reached. -/
  todo : List PChange
  ticks : List PTick
  deriving DecidableEq, Repr

structure Poppy where
  ports : List PortPop
  deriving DecidableEq, Repr

/-! ## Linseed (09) -/

/-- A DTS shot whose window has not closed: the ordinal of its period's first sweep, its own sweep, emission instant, row or M for
the background, containers by channel, and a discard already certain for every port (R204). -/
structure Shot where
  period : Nat
  sweep : Nat
  e : Nat
  dest : Nat
  data : List (List Nat)
  drop : Bool
  deriving DecidableEq, Repr

/-- A Linseed block (R201): period, destination, shots in all and by port, sums by channel and bin. -/
structure LBlock where
  period : Nat
  dest : Nat
  shots : Nat
  counts : List Nat
  sums : List (List Int)
  deriving DecidableEq, Repr

/-- A DTS integration period and its sets (R199 to R206); `ord` is the ordinal of its first sweep, which names it. -/
structure Period where
  ord : Nat
  first : Nat
  sweeps : Nat
  /-- Which of the two set groups (R202). -/
  group : Nat
  plan : Plan
  stamp : Nat
  start : Nat
  stop : Nat
  ended : Bool
  /-- Sums by destination (M is the background), then channel (2p and 2p+1), then bin. -/
  sets : List (List (List Int))
  /-- n_j and n_d by destination and port. -/
  shots : List (List Nat)
  /-- Over-range and memory-error bits by channel and bin. -/
  ovr : List (List Bool)
  memErr : List (List Bool)
  delta : List Nat
  discarded : List Bool
  changed : List Bool
  /-- 0x3000:03 to :09 and :0C by port, in force at the boundary after the last sweep (R210). -/
  vals : List (List Nat)
  /-- Ports still to decode. -/
  todo : List Nat
  deriving DecidableEq, Repr

structure Linseed where
  shots : List Shot
  block : Option LBlock
  /-- Complete blocks that wait for their add (R203). -/
  full : List LBlock
  /-- The period in progress is the last; the others have ended and are not yet decoded. -/
  periods : List Period
  discardNext : Bool
  /-- Instants of suppressed firings (R204). -/
  suppressed : List Nat
  /-- Valid conversions of RTDs: instant, RTD, mK (R209). -/
  temps : List (Nat × Nat × Int)
  deriving DecidableEq, Repr

/-! ## Hazel (10) -/

/-- The registers of one context (Table 10-1). -/
structure Regs where
  d : List (List (BitVec 24))
  a : List (List (BitVec 56))
  pred : List Bool
  p : List (BitVec 32)
  m : List (BitVec 32)
  lc : List (BitVec 16)
  z : List (BitVec 16)
  ss : BitVec 6
  sat : BitVec 8
  deriving DecidableEq, Repr

/-- An open loop level: first and last bundle of the body, iterations left (R227). -/
structure LoopLevel where
  first : Nat
  last : Nat
  left : Nat
  deriving DecidableEq, Repr

/-- The names of a register for the interlock (R226). -/
inductive RegId where
  | d (n : Nat) | a (n : Nat) | pred | p (n : Nat) | m (n : Nat) | lc (n : Nat) | z (n : Nat) | ss
  deriving DecidableEq, Repr

/-- One register context and its sequencing state. -/
structure Ctx where
  regs : Regs
  /-- The registers as they stood when the current bundle issued (R221). -/
  issue : Regs
  pc : Nat
  loops : List LoopLevel
  cycle : Nat
  /-- The current bundle cannot issue before this cycle (R226). -/
  stall : Nat
  /-- When each register is ready: for an accumulating MAC slot, and for any other reader (Table 10-8). -/
  ready : List (RegId × Nat × Nat)
  /-- Results of the current bundle with their two latencies. -/
  writes : List (RegId × Nat × Nat)
  /-- Stores of the current bundle, later ones winning (R222), and the local word banks it used (R219). -/
  stores : List (Nat × Byte)
  banks : List Nat
  deriving DecidableEq, Repr

/-- An update that a zone owes to a tick (R248). -/
structure Owed where
  /-- Sweep index and slot of the tick, its number (R153) and its update instant U. -/
  sweep : Nat
  slot : Nat
  tick : Nat
  due : Nat
  /-- Line, blind and energy of the detector's result; none for a tick whose sweep has completed without one. -/
  result : Option (Bool × Bool × Nat)
  /-- It has counted in its sweep's frame, which latched before U (R265). -/
  counted : Bool
  deriving DecidableEq, Repr

/-- A zone's detector (R246 to R249). `lineRun` and `eRun` are the line and the energy as the latest tick computed them, `line`
and `e` as they stand after the latest update; `era` is the model's: the sweep of the chain reset the state was last cleared for. -/
structure Zone where
  line : Bool
  lineRun : Bool
  e : Nat
  eRun : Nat
  stale : Bool
  blind : Bool
  lastTick : Nat
  era : Nat
  /-- Per output x1, x2, y1, y2. -/
  hist : List (Int × Int × Int × Int)
  /-- Ticks waiting for their update instants. -/
  waiting : List Owed
  deriving DecidableEq, Repr

/-- A work item (R231, R232): one execution of a schedule entry or of an open slot. -/
structure Item where
  user : Bool
  /-- Schedule entry or open slot. -/
  entry : Nat
  kernel : Nat
  /-- Role of the kernel (Table 10-17). -/
  role : Nat
  port : Nat
  sweep : Nat
  ord : Nat
  slot : Nat
  stamp : Nat
  /-- Its checkpoint instant. -/
  due : Nat
  /-- Entry bundle. -/
  bundle : Nat
  /-- Cashew banks it may access (R218). -/
  banks : Nat
  /-- The range the entry names (Tables 10-9 and 10-12). -/
  first : Nat
  count : Nat
  /-- Cycle budget and queue of a user item. -/
  budget : Nat
  queue : Nat
  /-- The parameter words (Tables 10-9 and 10-13). -/
  params : List Byte
  /-- Channels or outputs whose stored state it read with an error (R339). -/
  invalid : List Nat
  deriving DecidableEq, Repr

structure Engine where
  /-- Halted at a missed checkpoint (R234); the miss waiting to be reported: cause, kernel. -/
  halted : Bool
  /-- A user bundle is under way, so a library item takes over at its end only (R232). -/
  mid : Bool
  report : Option (Nat × Nat)
  lib : Ctx
  user : Ctx
  item : Option Item
  userItem : Option Item
  released : List Item
  deriving DecidableEq, Repr

structure Hazel where
  engines : List Engine
  /-- Local data memories and parameter areas: key engine*0x20000 + address, user parameter area at +0x10000. -/
  local_ : Mem
  /-- Program memories: key engine*0x4000 + 8*bundle + byte. -/
  prog : Mem
  /-- Open slots whose enable bit clears at the next boundary (R240). -/
  dropSlots : List Nat
  deriving DecidableEq, Repr

/-! ## Sesame (11) -/

structure Seq where
  /-- 0 Idle, 1 Running, 2 Triggered (R256). -/
  state : Nat
  level : Nat
  counter : Nat
  /-- Evaluation instants left of the level timer; none when off (R255). -/
  timer : Option Nat
  /-- The hold-off timer has expired (R254). -/
  open_ : Bool
  /-- Evaluation instants left of the auto timer; none when off (R258). -/
  auto : Option Nat
  number : Nat
  /-- Accepted arms and disarms that have not acted, oldest first: instant of acceptance, true for an arm (R256). -/
  acts : List (Nat × Bool)
  /-- Instants of acceptance of forces that have not acted, oldest first (R258). -/
  forces : List Nat
  deriving DecidableEq, Repr

structure Sesame where
  running : Bool
  /-- No instant was evaluated since Sesame started or resumed (R253). -/
  fresh : Bool
  /-- Line groups at the latest and at the previous evaluation instant (R243). -/
  g : List Nat
  prev : List Nat
  /-- Latest evaluation instant. -/
  at_ : Nat
  /-- Pin samples: edge instant, PRB, TRIG_IN; the sample of edge τ forms G(τ + 8 ns) (R244). -/
  pins : List (Nat × Nat × Nat)
  /-- IS pulse lines due at the next instant, bit i for IS i. -/
  pulses : Nat
  /-- Trigger pulses due at the next instant (R261). -/
  trigPulse : Nat
  /-- The own drive of each TB line (R261): 17 at its trigger's instant, one less at each later one, driven from 16 to 1. -/
  tb : List Nat
  /-- The trigger-bus lines as the Darug link delivered them last: upstream side in bits 7 to 0, downstream in 15 to 8. -/
  tbIn : Nat
  zones : List Zone
  zoneTick : Option Nat
  seqs : List Seq
  /-- Latest edges of each TRIG_IN pin, newest first: clock edge, edge time and stamp in T units, coarse (R250). -/
  stamps : List (List (Nat × Nat × Nat × Bool))
  /-- Clock-0 instants of this evaluation instant: port and tick number (R275). -/
  clock0 : List (Nat × Nat)
  /-- PRB0-27 read 0 until this instant after an owner change (R512). -/
  ownerUntil : Nat
  deriving DecidableEq, Repr

/-! ## Capture buffers and Sunflower (12) -/

structure Capture where
  /-- Instants of acceptance of arms that have not acted, oldest first (R269). -/
  arms : List Nat
  disarmAt : Option Nat
  rearmAt : Option Nat
  /-- Held length, post count, post time limit (R271). -/
  heldLen : Option Nat
  heldPost : Option Nat
  heldLimit : Option Nat
  /-- Entry into Filling (R270). -/
  f : Nat
  clockNo : Nat
  /-- Retained entries, oldest first: their bytes, watch slot (for the bases), and post-trigger mark. -/
  entries : List (List Byte × Nat × Bool)
  bases : List Nat
  refs : List Nat
  gap : Bool
  /-- Rate window: its start, bytes stored, a drop seen, consecutive quiet windows (R280). -/
  winStart : Nat
  winBytes : Nat
  winDrop : Bool
  quiet : Nat
  lowStep : Nat
  highStep : Nat
  dropped : Nat
  trigger : List Byte
  trigAt : Nat
  /-- Sweep index and stamp of the descriptor's sweep. -/
  trigSweep : Nat
  trigStamp : Nat
  preCount : Nat
  postStored : Nat
  flags : Nat
  /-- Entries already sent in records of this capture, and the number it has in them (R282). -/
  sent : Nat
  number : Nat
  /-- The last record of a readout that a disarm ended (R284), waiting for room: payload, sweep index and stamp. -/
  last : Option (List Byte × Nat × Nat)
  deriving DecidableEq, Repr

structure Sunflower where
  scanning : Bool
  startWanted : Bool
  stopWanted : Bool
  /-- The row latched at the frame's vertical sync (R288), the instant of that sync, and the lines of the frame that have ended. -/
  latched : Nat
  since : Nat
  shown : Nat
  /-- The line that a row not read in time cut short, and its first pixel without data (R289). -/
  cut : Option (Nat × Nat)
  deriving DecidableEq, Repr

/-! ## Queues and lanes (13, 14) -/

/-- A host frame as it arrived (Table 14-4): a credit, a replay request, a host status, a download frame, or one that fails its CRC or
carries an unknown kind, with whether it came as a download frame. -/
inductive RxFrame where
  | credit (words : List Nat)
  | replay (entries : List (Nat × Nat × Nat))
  | status (mask : Nat)
  | download (target seq off : Nat) (data : List Byte)
  | bad (download : Bool)
  deriving DecidableEq, Repr

/-- A record (Table 13-2), its payload as carried and the payload check the source computed (R297). -/
structure Rec where
  typ : Nat
  queue : Nat
  prio : Nat
  flags : Nat
  seq : Nat
  sweep : Nat
  stamp : Nat
  olen : Nat
  payload : List Byte
  check : Nat
  /-- The Cashew banks it stands in, bit b for bank b, or the base of the DRAM queue region (R520). -/
  banks : Nat
  region : Option Nat
  deriving DecidableEq, Repr

/-- A predictive coding context (R307): stream, port, first output; previous row; (A, Nc) per column. -/
structure PCtx where
  typ : Nat
  port : Nat
  first : Nat
  prev : List Int
  have_ : Bool
  cols : List (Nat × Nat)
  since : Nat
  restart : Bool
  /-- The sweep of the latest chain reset or change of the stream map before its last acoustic record (R313). -/
  gen : Nat
  deriving DecidableEq, Repr

structure Queue where
  recs : List Rec
  /-- Bytes of the first record already framed. -/
  framed : Nat
  seq : Nat
  /-- The next accepted record carries header flag 1 (R292). -/
  follows : Bool
  frameSeq : Nat
  capKiB : Nat
  storage : Nat
  cls : Nat
  chunk : Nat
  banks : Nat
  refresh : Nat
  /-- Lanes the held records of an old plan still use (R520). -/
  drainLanes : Nat
  /-- The base of the DRAM queue region its storage lies in (R345), none for Cashew, and the place of the next record in the ring. -/
  region : Option Nat
  pos : Nat
  /-- The instant of the latest accepted record and how many of the last records entered at it (R293). -/
  latest : Nat × Nat
  deriving DecidableEq, Repr

structure Queues where
  qs : List Queue
  ctxs : List PCtx
  /-- Round-robin position per service class (R295). -/
  turn : List Nat
  deriving DecidableEq, Repr

/-- A Pecan frame (Tables 14-3, 14-4). -/
structure LaneFrame where
  kind : Nat
  queue : Nat
  lseq : Nat
  qseq : Nat
  valid : Nat
  first : Nat
  payload : List Byte
  deriving DecidableEq, Repr

structure TxLane where
  up : Bool
  idle : Bool
  lseq : Nat
  /-- The last 1 024 data frames sent, oldest first (R323). -/
  replay : List LaneFrame
  /-- Resends waiting: the frame and the earliest instant (R324). -/
  resend : List (LaneFrame × Nat)
  lastSent : Nat
  /-- A control frame is due at once, and the instant of the latest one (R322). -/
  due : Bool
  control : Nat
  /-- The instant at which it left electrical idle, until its first frame after that (R327). -/
  wake : Option Nat
  deriving DecidableEq, Repr

structure RxLane where
  locked : Bool
  training : Bool
  dfe : List Int
  deriving DecidableEq, Repr

structure Lanes where
  tx : List TxLane
  rx : List RxLane
  /-- Credit limits L_q (R320). -/
  credit : List Nat
  /-- Download credit limits, accepted and rejected frames (Table 14-5). -/
  dlCredit : List Nat
  dlAccepted : List Nat
  dlRejected : Nat
  missLane : Nat
  missSeq : Nat
  deriving DecidableEq, Repr

/-! ## Memory, Flax, Almond (15, 16) -/

/-- The regions of R345. -/
inductive RegionKind where
  | plans | walnut | install | capture | frame | queues (rung : Nat) | dts | burst
  /-- A queue region of an old plan that held records have not left (R520), by its base. -/
  | drained (base : Nat)
  deriving DecidableEq, Repr

structure Region where
  kind : RegionKind
  base : Nat
  size : Nat
  deriving DecidableEq, Repr

structure Memory where
  dram : Mem
  cashew : Mem
  regions : List Region
  /-- Bank hand-overs under way: bank, completion instant (R334). -/
  handover : List (Nat × Nat)
  /-- All-bank refreshes postponed and self-refresh, per interface (R351, R352). -/
  postponed : List Nat
  selfRefresh : List Bool
  /-- The instant of the latest request to each interface (R352). -/
  used : List Nat
  /-- The DRAM fit as it stood at boot (R342). -/
  fit : Nat
  deriving DecidableEq, Repr

structure FlaxChan where
  /-- The descriptor being run (R360), read whole, and the next element in loop order. -/
  desc : List Byte
  loaded : Bool
  elem : Nat
  /-- It has held Flax since its start. -/
  ran : Bool
  /-- The pacing request as last examined (R365). -/
  asserted : Bool
  /-- A stop waits for the burst boundary (R366). -/
  stop : Bool
  deriving DecidableEq, Repr

structure Flax where
  chans : List FlaxChan
  deriving DecidableEq, Repr

/-- An Almond job (R372 to R374). -/
structure Job where
  kind : Nat
  flags : Nat
  /-- The block's original bytes. -/
  input : List Byte
  /-- A fault found when the job started (Table 16-9), 0 for none. -/
  fail : Nat
  /-- State image address (kinds 2 and 3). -/
  image : Nat
  /-- Units still to write, each whole (R373): the bytes and the input bytes they stand for. -/
  units : List (List Byte × Nat)
  /-- The window and its position once the block is done. -/
  after : List Byte
  afterPos : Nat
  /-- The list still to be used. -/
  listAt : Nat
  listLeft : Nat
  /-- The entry of the current buffer, its address, capacity and bytes used; capacity 0 when none is open. -/
  entryAt : Nat
  bufAt : Nat
  bufCap : Nat
  bufUsed : Nat
  consumed : Nat
  produced : Nat
  buffers : Nat
  deriving DecidableEq, Repr

structure Almond where
  /-- The window of latest original bytes, oldest first, at most 65 536 (R370), and the bytes output since the start of
  the stream (the window position). -/
  window : List Byte
  pos : Nat
  restart : Bool
  job : Option Job
  /-- A word that the predictive coder read has an uncorrectable error: its next coded record does not decode to its input (R314). -/
  upset : Bool
  deriving DecidableEq, Repr

/-! ## Time (17) -/

structure TimeBase where
  /-- The core clock runs (Ready, Sensing). -/
  running : Bool
  /-- T in units of 2^-16 ns and the accumulator of R377. -/
  t : Nat
  acc : Nat
  ppsArm : Option Nat
  fvalid : Bool
  /-- A host write set T since the last accepted edge was stamped (R381). -/
  moved : Bool
  tePrev : Nat
  /-- Stamp and instant of the last accepted edge; edges rejected in a row; edges within 100 ns in a row. -/
  lastEdge : Option (Nat × Nat)
  rejected : Nat
  good : Nat
  /-- An accepted edge waiting for its processing: stamp, due instant (R381). -/
  edge : Option (Nat × Nat)
  /-- Interval mode: start stamp and instant (R387). -/
  intStart : Nat
  intAt : Nat
  /-- Factory pairs (a, b) of the six TDC channels (R385). -/
  factory : List (Int × Int)
  /-- Instants of the two latest captures of each TDC channel, newest first (R383, R384). -/
  caps : List (List Nat)
  deriving DecidableEq, Repr

/-! ## Pip (18) -/

/-- A calibration record in flash (R402): RTD, level, gain code, g, R_cal, residual, device time, check word, and its mark. -/
structure CalRec where
  rtd : Nat
  level : Nat
  gain : Nat
  g : Int
  rcal : Nat
  residual : Nat
  time : Nat
  check : Nat
  superseded : Bool
  deriving DecidableEq, Repr

structure Pip where
  run0 : Bool
  pend0 : Bool
  run1 : Bool
  pend1 : Bool
  /-- Converter 1 pauses for a calibration run (R401). -/
  paused1 : Bool
  /-- Instants at which the references have settled (R391), and converter 1's reference in force. -/
  settle0 : Nat
  settle1 : Nat
  ref : Nat
  /-- Latest cross-check values in µV and whether the last comparison failed (R400). -/
  cross0 : Option Int
  cross1 : Option Int
  failed : Bool
  /-- The level of BLANK_IN, and the spans in which it was asserted (R395). -/
  blank : Bool
  blanks : List (Nat × Option Nat)
  /-- The probe-emission windows (R112) and the changes of the blank mask 0x4800:08, newest first, that the passes in progress met;
  and the instants at which these passes began. -/
  emits : List (Nat × Nat)
  masks : List (Nat × Nat)
  since0 : Nat
  since1 : Nat
  passes : Nat
  /-- RTDs whose entry was restarted or ended by a setting write in the running pass (R399). -/
  restarted : List Nat
  off : List Nat
  /-- Settings (RTD, type, wiring, excitation) of entries already completed when a write changed them. -/
  kept : List (Nat × Nat × Nat × Nat)
  /-- The RTD records of the calibration area, newest last. -/
  records : List CalRec
  /-- The instant at which the latest pass of converter 1 that has ended began (R400). -/
  latest1 : Nat
  nextTimer : Nat
  deriving DecidableEq, Repr

/-! ## Darug link (19) -/

structure Darug where
  /-- Position held by Shell retention RAM, 0xFF none (R408). -/
  position : Nat
  enumAt : Option Nat
  /-- Stamp at which the last marker left downstream; arrival and echo departure at this member (R410). -/
  markerAt : Nat
  arrive : Nat
  depart : Nat
  /-- Offsets of the last 64 exchanges in units of 2^-16 ns, on the present scale. -/
  offsets : List Int
  /-- Phase steps of 15.625 ps still to make, signed (R411). -/
  steps : Int
  stepFrom : Nat
  lastSync : Nat
  /-- The reference is missing since this instant; a move out of Doze waits for it (R404, R405). -/
  refLost : Option Nat
  waiting : Bool
  /-- The node-ID override in force since boot (R409). -/
  override_ : Nat
  /-- Head's update grant: holder position (R453); INJECT start in force (R493). -/
  grant : Option Nat
  inject : Bool
  /-- The head's latest boundary (R413): index, stamp, P in 16 ns, the instant it was received. -/
  headBoundary : Option (Nat × Nat × Nat × Nat)
  deriving DecidableEq, Repr

/-! ## Pod (20) -/

structure Pod where
  balance : Int
  fj : Int
  lastVin : Int
  lastAmp : Nat
  /-- Sum of pW over the second, for the mean of 0x2100:13. -/
  secondSum : Int
  secondPasses : Nat
  /-- The minute of Sensing on the active rung that runs (R429): its start, the sum of pW over it and the passes of it. -/
  minute : Nat × Int × Nat
  /-- The wake instant of the wake from Dormant that a boot ends, until Walnut has chosen (R431, R432). -/
  wokeAt : Option Nat
  /-- A duty cycle: wake instant w0 and on-time a in ms, first boundary (R432). -/
  cycle : Option (Nat × Nat × Option Nat)
  floorCrossed : Bool
  exhausted : Bool
  unknown : Bool
  deriving DecidableEq, Repr

/-! ## Firmware update (22) -/

/-- The boot control record (R450). -/
structure BootControl where
  number : Nat
  walnutSlot : Nat
  dataSlot : Nat
  walnutTrial : Nat
  dataTrial : Nat
  settingsArea : Nat
  deriving DecidableEq, Repr

structure Update where
  /-- Image areas: slot A and B of the Walnut and the data-path image (R446). -/
  walnutA : List Byte
  walnutB : List Byte
  dataA : List Byte
  dataB : List Byte
  /-- Areas (0 to 3 in the order above) that still hold the image stored at manufacture, whose bytes the spec does not
  give and which passes its check (assumption log 9). -/
  factory : List Nat
  /-- The two boot control sectors (R450). -/
  boot0 : Option BootControl
  boot1 : Option BootControl
  /-- Kind and length of the download as it was opened, and its segment checks (R451). -/
  kind : Nat
  length : Nat
  checks : List Nat
  /-- Segments erased since the download opened, or since a close found them wrong (R451, R452). -/
  erased : List Nat
  prepared : Option Nat
  confirmBy : Option Nat
  /-- A data-path image waits for its pause of Sensing, or for the next entry to Ready (R454). -/
  pausing : Bool
  /-- The check of the factory block in the calibration area fails (R447, R496). -/
  badFactory : Bool
  deriving DecidableEq, Repr

/-! ## Fault injection (25) -/

structure Inject where
  /-- The generator of R490. -/
  x : Nat
  /-- Frames and messages held for reordering with their deadlines (R488, R489): a transmit lane's frame, a receive lane's
  frame, a message of the downstream (true) or upstream
  side. -/
  heldTx : List (Nat × LaneFrame × Nat)
  heldRx : List (Nat × RxFrame × Nat)
  heldMsg : List (Bool × List Byte × Nat)
  deriving DecidableEq, Repr

/-! ## What leaves the device -/

/-- The answer to a USDO request: an abort code, a value read, or success of a write (R472). -/
inductive Answer where
  | abort (code : Nat)
  | value (bytes : List Byte)
  | done
  /-- A segment of an open transfer was taken. -/
  | more
  deriving DecidableEq, Repr

/-- What the device puts on its wires, in order. -/
inductive Wire where
  | bootUp (node : Nat)
  | heartbeat (bytes : List Byte)
  | emcy (bytes : List Byte)
  | answer (client : Nat) (a : Answer)
  /-- A Pecan frame: seven field bytes, 500 payload bytes, CRC. -/
  | frame (lane : Nat) (bytes : List Byte)
  | message (down : Bool) (bytes : List Byte)
  | marker (down : Bool)
  /-- A VOUT_COMMAND to the PMIC (R508). -/
  | pmbus (address millivolt : Nat)
  | row (pixels : List Byte)
  | underrun (line : Nat)
  deriving DecidableEq, Repr

/-! ## The whole -/

structure State where
  /-- The commands that are waiting, first in, first out. -/
  pending : List Instr
  /-- The latest instant reached, ns of the sweep clock. -/
  now : Nat
  /-- The model's own counter for free values (assumption log 3). -/
  free : Nat
  /-- The object dictionary's numeric values, keyed index*256 + subindex, canonical. -/
  objects : List (Nat × Nat)
  /-- The object dictionary's DOMAIN and string values. -/
  domains : List (Nat × List Byte)
  wire : List Wire
  board : Board
  pw : Power
  ctl : Control
  mg : Manage
  lad : Ladder
  sw : Sweep
  opt : Optics
  ch : Chestnut
  das : Das
  pop : Poppy
  lin : Linseed
  hz : Hazel
  ses : Sesame
  caps : List Capture
  sun : Sunflower
  qu : Queues
  ln : Lanes
  mem : Memory
  fx : Flax
  al : Almond
  tb : TimeBase
  pip : Pip
  dr : Darug
  pod : Pod
  up : Update
  inj : Inject
  deriving DecidableEq, Repr

/-! ## What a power-down of the Core domain leaves (R503) -/

/-- No session, nothing waiting (R468, R476). -/
def Control.blank : Control := ⟨0, none, none, [], 0, 0, false, 0, 0, 2, 0x40⟩

/-- The flash and Acorn data of management stay; SRAM goes. Entries are numbered on from `next`. -/
def Manage.blank (m : Manage) (next : Nat) : Manage :=
  ⟨m.ring, [], next, 0, List.replicate 7 0, false, none, m.monitors, false, 0, none, 0, 0, List.replicate 16 0, [], [], false,
    none, 0⟩

/-- The ladder is empty; the flash plan store stays. -/
def Ladder.blank (store : List StoreEntry) : Ladder :=
  ⟨List.replicate 16 none, [], none, 0, none, [], none, none, none, store, false⟩

def Sweep.blank (latency rxLatency : List Nat) : Sweep :=
  ⟨0, 0, 0, 0, 0, [], none, [], 0, List.replicate 86 0, [], none, 0, [], [], false, latency, rxLatency, List.replicate 4 (0, []), none⟩

def PortOptics.blank : PortOptics :=
  ⟨false, false, false, false, false, [], List.replicate 4 ⟨0, 0, none, 0, 0⟩, none, List.replicate 4 ⟨0, 0, 0, 0⟩, none, false, 0, 0⟩

def Optics.blank (stored : List (List Int)) (check : Nat) : Optics :=
  ⟨false, -9999, [], List.replicate 4 PortOptics.blank, stored, check⟩

def PortDas.blank : PortDas := ⟨[], [], []⟩

def Das.blank : Das := ⟨List.replicate 4 PortDas.blank, []⟩

def Poppy.blank : Poppy := ⟨List.replicate 4 ⟨⟨[], []⟩, [], [], false, false, 0, false, [], []⟩⟩

def Linseed.blank : Linseed := ⟨[], none, [], [], false, [], []⟩

/-- All registers zero (Table 10-1). -/
def Regs.zero : Regs :=
  ⟨List.replicate 16 (List.replicate 8 0), List.replicate 2 (List.replicate 8 0), List.replicate 8 false, List.replicate 8 0,
    List.replicate 8 0, List.replicate 4 0, List.replicate 2 0, 0, 0⟩

def Ctx.zero : Ctx := ⟨Regs.zero, Regs.zero, 0, [], 0, 0, [], [], [], []⟩

def Engine.idle : Engine := ⟨false, false, none, Ctx.zero, Ctx.zero, none, none, []⟩

def Hazel.blank : Hazel := ⟨List.replicate 12 Engine.idle, [], [], []⟩

def Zone.fresh : Zone := ⟨false, false, 0, 0, false, false, 0, 0, [], []⟩

def Seq.idle : Seq := ⟨0, 0, 0, none, false, none, 0, [], []⟩

def Sesame.blank : Sesame :=
  ⟨false, true, List.replicate 10 0, List.replicate 10 0, 0, [], 0, 0, List.replicate 8 0, 0,
    List.replicate 256 Zone.fresh, none, List.replicate 4 Seq.idle, [[], []], [], 0⟩

def Capture.blank : Capture :=
  ⟨[], none, none, none, none, none, 0, 0, [], [], [], false, 0, 0, false, 0, 0, 0, 0, [], 0, 0, 0, 0, 0, 0, 0, 0, none⟩

def Sunflower.blank : Sunflower := ⟨false, false, false, 0, 0, 0, none⟩

def Queue.blank : Queue := ⟨[], 0, 0, false, 0, 0, 0, 0, 0, 0, 0, 0, none, 0, (0, 0)⟩

/-- q13 and q14 hold 64 KiB in class 1, q15 256 items of 80 bytes in class 0 (Table 13-1); q0 to q12 wait for a stream map, in
class 0 until then (DESIGN CHOICE, assumption log 23: an unused queue's class is not stated). -/
def Queues.blank : Queues :=
  let fixed : Queue := { Queue.blank with capKiB := 64, cls := 1 }
  ⟨List.replicate 13 Queue.blank ++ [fixed, fixed, { Queue.blank with capKiB := 20 }], [], List.replicate 8 0⟩

/-- A transmit lane as its domain powers up at an instant. -/
def TxLane.blank (t : Nat) : TxLane := ⟨false, false, 0, [], [], t, false, t, none⟩

def Lanes.blank : Lanes :=
  ⟨List.replicate 8 (TxLane.blank 0), List.replicate 2 ⟨false, false, [0, 0, 0, 0, 0]⟩, List.replicate 16 0, [16384, 16384],
    [0, 0], 0, 0, 0⟩

def Memory.blank : Memory := ⟨[], [], [], [], [0, 0], [false, false], [0, 0], 0⟩

def Flax.blank : Flax := ⟨List.replicate 16 ⟨[], false, 0, false, false, false⟩⟩

def Almond.blank : Almond := ⟨[], 0, true, none, false⟩

/-- T and the factory pairs stay. -/
def TimeBase.blank (b : TimeBase) : TimeBase :=
  ⟨false, b.t, 0, none, false, false, 0, none, 0, 0, none, 0, 0, b.factory, List.replicate 6 []⟩

/-- The calibration records stay. -/
def Pip.afresh (records : List CalRec) : Pip :=
  ⟨false, false, false, false, false, 0, 0, 0, none, none, false, false, [], [], [(0, 3)], 0, 0, 0, [], [], [], records, 0, 0⟩

/-- The position in Shell retention RAM stays. -/
def Darug.blank (position : Nat) : Darug := ⟨position, none, 0, 0, 0, [], 0, 0, 0, none, false, 0, none, false, none⟩

/-- The balance stands in retention RAM. -/
def Pod.blank (balance : Int) : Pod := ⟨balance, 0, 0, 0, 0, 0, (0, 0, 0), none, none, false, false, false⟩

/-- Flash stays; a download in progress is closed (R459). -/
def Update.blank (u : Update) : Update :=
  ⟨u.walnutA, u.walnutB, u.dataA, u.dataB, u.factory, u.boot0, u.boot1, 0, 0, [], [], none, none, false, u.badFactory⟩

def Inject.blank : Inject := ⟨0, [], [], []⟩

/-- The power island while the Core domain is down. -/
def Power.blank (w : Power) : Power :=
  { w with
    pgIn := false, inReset := false, releaseAt := 0, power := .dormant, goal := none, nmtStopped := false, nmtStopWanted := false
    stopWanted := false, shutting := false, entry := none, enterWanted := false, managedClear := false, dramLive := false, photonic := false, serial := false
    readyDone := false, library := false }

/-! ## Reset -/

/-- The part and its board: an HY48-4C80 alone as a head, node-ID strap 1, no redundant column used (DESIGN CHOICE,
assumption log 21). -/
def Board.reset : Board := ⟨4, true, true, List.replicate 48 0, List.replicate 32 0, 0, 0, 1, true⟩

/-- The power island in Doze after the first power-up of VBAT (R494, R495): the crystal has not started yet. -/
def Power.reset : Power :=
  ⟨true, false, true, false, 0, true, false, 0, .doze, none, false, false, false, false, none, false, false, false, false,
    false, false, false, 0, 0, false, false, 0, 0, 0, List.replicate 256 0, [], [], [], false, 4, true, true, true⟩

/-- The log entry of the first entry to Doze: number 0, time 0, code 0x0002, severity 4, from 0 to 1, and its check
(Tables 21-3 and 21-4). -/
def State.firstLog : List Byte :=
  [0, 0, 0, 0, 0, 0, 0, 0, 0, 0, 0, 0, 2, 0, 4, 0, 0, 1, 0, 0, 0, 0, 0, 0, 0, 0, 0, 0, 81, 2, 242, 223]

/-- The machine right after its first power-up: Doze (R494, R495, R503). -/
def State.reset : State where
  pending := []
  now := 0
  free := 0
  objects := [(0x210014, 8), (0x210018, 512), (0x4C0001, 0), (0x4C0002, 1)]
  domains := []
  wire := [.bootUp 1]
  board := Board.reset
  pw := Power.reset
  ctl := { Control.blank with nodeId := 1 }
  mg := { Manage.blank ⟨[], [], 0, 0, [], false, none, List.replicate 8 ⟨0, [], 0⟩, false, 0, none, 0, 0, [], [], [], false,
    none, 0⟩ 1 with buffer := [State.firstLog] }
  lad := Ladder.blank []
  sw := Sweep.blank (List.replicate 4 0) (List.replicate 4 0)
  opt := Optics.blank (List.replicate 4 [0, 0, 0, 0]) 0x3C8EB67
  ch := ⟨[], none, none, [], []⟩
  das := Das.blank
  pop := Poppy.blank
  lin := Linseed.blank
  hz := Hazel.blank
  ses := Sesame.blank
  caps := List.replicate 8 Capture.blank
  sun := Sunflower.blank
  qu := Queues.blank
  ln := Lanes.blank
  mem := Memory.blank
  fx := Flax.blank
  al := Almond.blank
  tb := TimeBase.blank ⟨false, 0, 0, none, false, false, 0, none, 0, 0, none, 0, 0, List.replicate 6 (16, 16), []⟩
  pip := Pip.afresh []
  dr := Darug.blank 0xFF
  pod := { Pod.blank 0 with unknown := true }
  up := Update.blank ⟨[], [], [], [], [0, 2], some ⟨0, 0, 0, 0xFF, 0xFF, 0⟩, none, 0, 0, [], [], none, none, false, false⟩
  inj := Inject.blank

end Sys2Proof.Machine
end

