-- ==== Sys2Proof/Machine/Operands.lean ====
section
/-! DEFINITION. The object dictionary (R477): every object of Table 24-1 and Tables 24-2 to 24-9 with its type, access
class, default and range, and the checks a request meets (Table 23-3). Where a chapter's table states no type, the type
is the one R477 derives from the range; where it states no range either, the choice is in assumption log 12. -/

namespace Sys2Proof.Machine

open Sys2Proof

/-- CANopen types (R470). `dom n` is a DOMAIN, `n` its fixed length, 0 where the length varies. -/
inductive Ty where
  | u1 | u2 | u4 | u8 | i1 | i2 | i4 | i8 | str | dom (n : Nat)
  deriving DecidableEq, Repr

/-- Size in bytes of a numeric type, 0 for strings and DOMAINs. -/
def Ty.size : Ty → Nat
  | .u1 => 1 | .u2 => 2 | .u4 => 4 | .u8 => 8 | .i1 => 1 | .i2 => 2 | .i4 => 4 | .i8 => 8 | .str => 0 | .dom _ => 0

def Ty.signed : Ty → Bool
  | .i1 => true | .i2 => true | .i4 => true | .i8 => true | _ => false

/-- Access classes (R471). -/
inductive Access where
  | ro | wo | rw | const | rwReady
  deriving DecidableEq, Repr

/-- One row of an object table: first subindex, run length, type, access, shadowed, default, range. -/
structure Obj where
  sub : Nat
  run : Nat
  ty : Ty
  acc : Access
  sh : Bool
  dflt : Nat
  lo : Int
  hi : Int
  deriving DecidableEq, Repr

/-- An index family: `count` indexes from `index`, `stride` apart, each with these rows. -/
structure Family where
  index : Nat
  stride : Nat
  count : Nat
  rows : List Obj
  deriving DecidableEq, Repr

/-- The largest value of an unsigned type, the range where a table states none. -/
def Ty.top (t : Ty) : Int := 2 ^ (8 * t.size) - 1

/-- A read-only row with default 0. -/
def ro (sub : Nat) (ty : Ty) (dflt : Nat := 0) : Obj := ⟨sub, 1, ty, .ro, false, dflt, 0, 0⟩

def roN (sub run : Nat) (ty : Ty) (dflt : Nat := 0) : Obj := ⟨sub, run, ty, .ro, false, dflt, 0, 0⟩

def cst (sub : Nat) (ty : Ty) (dflt : Nat := 0) : Obj := ⟨sub, 1, ty, .const, false, dflt, 0, 0⟩

def wo (sub : Nat) (ty : Ty) (lo hi : Int) : Obj := ⟨sub, 1, ty, .wo, false, 0, lo, hi⟩

def rw_ (sub : Nat) (ty : Ty) (dflt : Nat) (lo hi : Int) : Obj := ⟨sub, 1, ty, .rw, false, dflt, lo, hi⟩

/-- A writable row over the whole range of its unsigned type. -/
def rwF (sub : Nat) (ty : Ty) (dflt : Nat := 0) : Obj := ⟨sub, 1, ty, .rw, false, dflt, 0, ty.top⟩

/-- A shadowed row (R59). -/
def rwSh (sub : Nat) (ty : Ty) (dflt : Nat) (lo hi : Int) : Obj := ⟨sub, 1, ty, .rw, true, dflt, lo, hi⟩

def rwR (sub : Nat) (ty : Ty) (dflt : Nat) (lo hi : Int) : Obj := ⟨sub, 1, ty, .rwReady, false, dflt, lo, hi⟩

def domW (sub : Nat) (n : Nat) (acc : Access) (sh : Bool) (run : Nat := 1) : Obj := ⟨sub, run, .dom n, acc, sh, 0, 0, 0⟩

/-- Table 24-2. -/
def famComm : List Family :=
  [⟨0x1000, 1, 1, [cst 0 .u4]⟩, ⟨0x1001, 1, 1, [ro 0 .u1]⟩, ⟨0x1008, 1, 1, [cst 0 .str]⟩, ⟨0x1009, 1, 1, [cst 0 .str]⟩,
   ⟨0x100A, 1, 1, [ro 0 .str]⟩, ⟨0x1015, 1, 1, [rwF 0 .u2]⟩, ⟨0x1017, 1, 1, [rwF 0 .u2 1000]⟩,
   ⟨0x1018, 1, 1, [cst 1 .u4 0x5E7, cst 2 .u4, cst 3 .u4, cst 4 .u4]⟩]

/-- Table 24-3. -/
def famState : List Family :=
  [⟨0x2000, 1, 1, [cst 1 .str, cst 2 .u4, ro 3 .u1 1, wo 4 .u1 0 3, ro 5 .u1, ro 6 .u1, ro 7 .u2, rwR 8 .u1 0 0 15,
     ro 9 .u1, rw_ 0xA .u1 2 2 8, ro 0xB .u4]⟩]

/-- Table 20-6. -/
def famPower : List Family :=
  [⟨0x2100, 1, 1,
    [rw_ 1 .u1 0 0 1, rw_ 2 .u1 0 0 1, ⟨3, 1, .i8, .rw, false, 0, -(2 ^ 63), 2 ^ 63 - 1⟩, rwF 4 .u8 0xFFFFFFFFFFFFFFFF,
     rwF 5 .u8, domW 6 96 .rw false, rw_ 7 .u4 0 0 86399, wo 8 .u8 0 (2 ^ 64 - 1), rw_ 9 .u1 0 0 1, rw_ 0xA .u1 24 1 168,
     rw_ 0xB .u4 600 0 86400, rwF 0xC .u4, rwF 0xD .u4 100000] ++
    [rwF 0xF .u4 500000, rw_ 0x10 .u4 60 1 86400, rw_ 0x11 .u1 0 0 1, rw_ 0x12 .u4 10000 100 1000000, ro 0x13 .u4,
     ro 0x14 .u1, ro 0x15 .u1, ro 0x16 .u4, ro 0x17 .u8, rwF 0x18 .u2, rwF 0x19 .u1, rwF 0x1A .u1,
     rw_ 0x1B .u1 0x40 0x08 0x77, ⟨0x1C, 1, .i8, .rw, false, 0, -(2 ^ 63), 2 ^ 63 - 1⟩, ro 0x1D .u4]⟩,
   ⟨0x2101, 1, 1, [roN 1 16 .u4]⟩]

/-- Tables 17-4 and 24-4. -/
def famTime : List Family :=
  [⟨0x2200, 1, 1,
    [rwF 1 .u8, wo 2 .u8 0 (2 ^ 64 - 1), ro 3 .u1, rw_ 4 .u1 2 0 2,
     ⟨5, 1, .i4, .rw, false, 0, -51200000, 51200000⟩, ro 6 .i4, rw_ 7 .u1 2 0 8, rw_ 8 .u1 4 0 8,
     rw_ 9 .u4 10000 100 1000000, rwF 0xA .u4 1000, ro 0xB .u8, ro 0xC .u8, ro 0xD .u2] ++
    [ro 0xE .u4, ro 0xF .u4, ro 0x10 .u1, ro 0x11 .u4, rw_ 0x12 .u1 0 0 1, rwR 0x13 .u8 0 0 (2 ^ 64 - 1)]⟩,
   ⟨0x2210, 1, 1,
    [rw_ 1 .u1 2 1 3, rw_ 2 .u1 3 1 3, rw_ 3 .u1 1 1 8, wo 4 .u1 1 2, ro 5 .u1, rw_ 6 .u4 1000 1 1000000, ro 7 .u1,
     roN 0x10 8 .u8]⟩]

/-- Table 24-5. -/
def famPlans : List Family :=
  [⟨0x2400, 1, 1,
    [ro 1 .u1, ro 2 .u1 0xFF, rw_ 3 .u1 0 0 15, rw_ 4 .u1 0 0 2, ro 5 .u8, ro 6 .u4, ro 7 .u1, wo 8 .u2 0 0x10F, ro 9 .u1,
     wo 0xB .u1 1 3, ro 0xC .u2, ro 0xD .u8 0xFFFFFFFFFFFFFFFF] ++
    [ro 0xE .u4, wo 0xF .u1 0 15, wo 0x10 .u1 0 15, ro 0x11 .u8, ro 0x12 .u4, ro 0x13 .u2, ro 0x14 .u8]⟩,
   ⟨0x2401, 1, 1, [roN 1 16 .u4]⟩, ⟨0x2403, 1, 1, [roN 1 8 .u1]⟩]

/-- Tables 24-6, 24-7 and 9-4: the port families. -/
def famPorts : List Family :=
  [⟨0x2800, 0x100, 4,
    [ro 1 .u1, rwSh 2 .u1 0 0 200, rwSh 3 .u1 0 0 1, rwSh 4 .i2 30 (-30) 80, ro 5 .u4,
     ⟨6, 1, .u1, .wo, true, 0, 1, 1⟩, ro 7 .u2, ro 8 .i2 0xD8F1, ro 9 .i2 0xD8F1, ro 0xA .i2 0xD8F1, ro 0xB .i2 0xD8F1,
     ro 0xC .u4, ro 0xD .u4]⟩,
   ⟨0x2C00, 0x100, 4,
    [ro 1 .u4, ro 2 .u2, rwSh 3 .u1 4 0 15, ro 4 .u4, rwSh 5 .u1 0 4 20, rwSh 6 .u1 0 4 16, rwSh 7 .u1 0 0 16,
     rwSh 8 .u4 0 0 (2 ^ 32 - 1), rwSh 9 .u4 0 0x200000 0x7FFFFF, ro 0xA .u1, ro 0xB .u4, ro 0xC .u2, ro 0xD .u2]⟩,
   ⟨0x3000, 0x100, 4,
    [ro 1 .u1, rwSh 2 .u1 0 0 63, rwSh 3 .u4 0 0 195999, rwSh 4 .u4 0 0 195999, rwSh 5 .u1 1 0 15,
     rwSh 6 .u4 633500 400000 900000, rwSh 7 .i4 0 (-(2 ^ 31)) (2 ^ 31 - 1), rwSh 8 .u1 0 0 1,
     rwSh 9 .i4 0 (-(2 ^ 31)) (2 ^ 31 - 1), ro 0xA .i4, ro 0xB .i4, rwSh 0xC .u1 0 0 1, ro 0xD .u4, ro 0xE .u4,
     ro 0xF .u8]⟩]

/-- The four numeric rows and the load object of Poppy stage j (Table 8-3). -/
def poppyStageRows (j : Nat) : List Obj :=
  [rwSh (0x10 + 0x10 * j) .u1 0 0 1, rwSh (0x11 + 0x10 * j) .u2 0 0 4096, ro (0x12 + 0x10 * j) .u1,
   ro (0x13 + 0x10 * j) .u2, domW (0x14 + 0x10 * j) 0 .wo true]

/-- Table 8-3. -/
def famPoppy : List Family :=
  [⟨0x3400, 1, 1,
    [ro 1 .u1, ⟨2, 1, .u1, .wo, true, 0, 1, 1⟩, rwSh 3 .u1 0 0 1] ++ (List.range 6).flatMap poppyStageRows⟩]

/-- Table 11-10. -/
def famSesame : List Family :=
  [⟨0x3800, 1, 1, [rw_ 1 .u1 0 0 1, domW 2 32 .ro false, ro 3 .u4, ro 4 .u4, rw_ 5 .u1 0 0 3, ro 6 .u2]⟩,
   ⟨0x3810, 1, 4, [ro 1 .u1, ro 2 .u1, wo 3 .u1 1 2, wo 4 .u1 1 1, ro 5 .u4, ro 6 .u4, domW 7 32 .ro false, ro 8 .u4,
     ro 9 .u8]⟩,
   ⟨0x3A00, 1, 256, [ro 1 .u1, ro 2 .u4, rwSh 3 .u4 0 0 (2 ^ 32 - 1), rwSh 4 .u4 0 0 (2 ^ 32 - 1), ro 5 .u1, ro 6 .u4]⟩]

/-- Tables 12-1 and 12-10. -/
def famCapture : List Family :=
  [⟨0x3900, 1, 8,
    [ro 1 .u1, wo 2 .u1 1 2, rw_ 3 .u1 0 0 1, rw_ 4 .u1 1 0 1, rw_ 5 .u1 0 0 3, rw_ 6 .u2 1 1 65535,
     rwF 7 .u4 0xFFFFFF08, rwF 8 .u4 0xFFFFFFFF, rwF 9 .u4 0xFFFFFFFF, rwF 0xA .u4 0xFFFFFFFF, rwF 0xB .u4 0xFFFFFFFF,
     rwF 0xC .u1] ++
    [rw_ 0xD .u1 0 0 32, rw_ 0xE .u4 0 0 0x1000000, ro 0xF .u4, rw_ 0x10 .u4 1 1 0x1000000, rwF 0x11 .u4,
     rw_ 0x12 .u1 0 0 1, ro 0x13 .u4, ro 0x14 .u4, ro 0x15 .u1, ro 0x16 .u4]⟩,
   ⟨0x3908, 1, 1, [rwR 1 .u2 0 0 4096]⟩,
   ⟨0x3C00, 1, 1,
    [rwR 1 .u1 0 0 1, rw_ 2 .u1 0 0 1, rw_ 3 .u1 24 16 32, rw_ 4 .u1 10 2 32, rwF 5 .u8, rwF 6 .u8, rw_ 7 .u1 0 0 15,
     rwR 8 .u1 0 0 64, ro 9 .u2, ro 0xA .u4, ro 0xB .u4]⟩]

/-- Tables 13-12 and 14-6. Queues q13 to q15 have their lane mask ro, so they are a family of their own. -/
def famQueues : List Family :=
  [⟨0x4000, 1, 1, [ro 1 .u2, ro 2 .u2, wo 3 .u2 0 65535, rwF 4 .u2, ro 5 .u1]⟩,
   ⟨0x4010, 1, 13, [ro 1 .u4, ro 2 .u4, ro 3 .u1, ro 4 .u4, rwSh 5 .u1 0 0 255, ro 6 .u4]⟩,
   ⟨0x401D, 1, 3, [ro 1 .u4, ro 2 .u4, ro 3 .u1, ro 4 .u4, ro 5 .u1, ro 6 .u4]⟩,
   ⟨0x4040, 1, 8, [ro 1 .u1, ro 2 .u4, ro 3 .u4, ro 4 .u4, rw_ 5 .u1 2 0 15, rw_ 6 .u1 8 0 31, rw_ 7 .u1 1 0 2]⟩,
   ⟨0x4048, 1, 2, [ro 1 .u1, ro 2 .u1, ro 3 .u1, rw_ 4 .u1 0 0 1, ro 5 .u4, ro 6 .u4, ro 7 .u4]⟩]

/-- Table 24-8. -/
def famHazel : List Family :=
  [⟨0x4030, 1, 1,
    [rw_ 1 .u1 1 0 15, rw_ 2 .u1 0 0 2, rwF 3 .u8, rw_ 4 .u1 1 1 64, rw_ 5 .u1 0 0 7, rw_ 6 .u4 0 0 391999,
     rw_ 7 .u2 1 1 32768, wo 8 .u1 1 2, ro 9 .u1, rwR 0xA .u2 0 0 1024, ro 0xB .u4, ro 0xC .u1, ro 0xD .u4]⟩,
   ⟨0x4100, 1, 1,
    [cst 1 .u1 12, ro 2 .u2, ro 3 .u4, ro 4 .u4, ro 5 .u4, domW 6 0 .ro false, rw_ 0x10 .u1 0 0 11, domW 0x11 0 .wo false,
     rwSh 0x12 .u2 0 0 65535, ro 0x13 .u2, ro 0x14 .u4, domW 0x20 48 .rw true 16, roN 0x40 12 .u1, roN 0x50 12 .u1]⟩]

/-- Tables 15-5, 16-5 and 16-10. -/
def famMemory : List Family :=
  [⟨0x4200, 1, 1,
    [ro 1 .u1, ro 2 .u4, ro 3 .u2, ro 4 .u1, rw_ 5 .u1 0 0 1, ro 6 .u4, ro 7 .u1 12, rw_ 8 .u1 12 8 16, rwR 9 .u1 0 0 1,
     ro 0xA .u1 1, rwF 0xB .u2 100, ro 0xC .u4, wo 0xD .u1 1 1] ++
    [ro 0xE .u4, ro 0xF .u4, ro 0x10 .u8, ro 0x11 .u4, ro 0x12 .u4, rwF 0x13 .u8, ro 0x14 .u4, ro 0x15 .u4, rwF 0x16 .u4]⟩,
   ⟨0x4201, 1, 1, [⟨1, 48, .u1, .rw, false, 0, 0, 255⟩]⟩, ⟨0x4202, 1, 1, [roN 1 48 .u1]⟩,
   ⟨0x4300, 1, 1, [ro 1 .u1 0xFF]⟩,
   ⟨0x4310, 1, 16,
    [ro 1 .u1, rwF 2 .u8, wo 3 .u1 1 2, ro 4 .u8, ro 5 .u8, ro 6 .u1, ro 7 .u8, ro 8 .u8, ro 9 .u4, rwF 0xA .u4 4096,
     rwF 0xB .u4 1024]⟩,
   ⟨0x4400, 1, 1,
    [rwF 1 .u8, wo 2 .u1 1 3, ro 3 .u1, ro 4 .u1, ro 5 .u4, ro 6 .u4, ro 7 .u2, rwF 8 .u8, rw_ 9 .u2 1 1 256, ro 0xA .u4]⟩]

/-- Tables 18-3 and 18-7. -/
def famPip : List Family :=
  [⟨0x4800, 1, 1,
    [ro 1 .u1, ro 2 .u1, rw_ 3 .u1 0 0 2, rw_ 4 .u4 1250000 1000000 1300000, rw_ 5 .u1 1 0 2,
     rw_ 6 .u4 100000 100 10000000, wo 7 .u1 1 1, rw_ 8 .u1 3 0 3, rw_ 9 .u1 0 0 1, rw_ 0xA .u2 2000 100 50000,
     ro 0xB .u4, ro 0xC .u4, ro 0xD .u4, ro 0xE .u4] ++
    [ro 0xF .u1, rw_ 0x10 .u1 1 1 16, ro 0x11 .u4, ⟨0x20, 16, .u8, .rw, false, 0, 0, 2 ^ 64 - 1⟩,
     domW 0x30 24 .ro false 16]⟩,
   ⟨0x4820, 1, 4,
    [rw_ 1 .u1 0 0 2, rw_ 2 .u1 4 3 4, rw_ 3 .u1 0 0 3, rw_ 4 .u1 10 1 100, ro 5 .u4, ro 6 .i4, ro 7 .u4, ro 8 .u2,
     ro 9 .u8, ro 0xA .u4]⟩,
   ⟨0x4830, 1, 1,
    [rwR 1 .u4 50000 50000 5000000, rwR 2 .u4 0 0 (2 ^ 32 - 1), rwR 3 .u1 0 0 3, rwR 4 .u1 1 1 3, rwR 5 .u1 0 0 5,
     wo 6 .u1 1 1, ro 7 .u1, ro 8 .u4, roN 0x10 3 .u4 0xFFFFFFFF, roN 0x18 3 .u4 0xFFFFFFFF, roN 0x20 3 .u4 0xFFFFFFFF,
     roN 0x28 3 .u4 0xFFFFFFFF]⟩]

/-- Tables 19-5, 21-6, 21-8 and 22-5. -/
def famManage : List Family :=
  [⟨0x4C00, 1, 1,
    [ro 1 .u1 0xFF, ro 2 .u1, rw_ 3 .u1 0 0 127, ro 4 .u1, ro 5 .u1, ro 6 .u1, ro 7 .u1, ro 8 .u4, ro 9 .u4, ro 0xA .i4,
     ro 0xB .u4, ro 0xC .u4, ro 0xD .u4, ro 0xE .u4, ro 0x10 .u1]⟩,
   ⟨0x5000, 1, 1,
    [ro 1 .u1, ro 2 .u4, ro 3 .u1, rw_ 4 .u2 100 10 1000, wo 5 .u1 1 1, roN 8 8 .i2, ro 0x10 .i2,
     rw_ 0x11 .i2 11000 8500 12000, ro 0x13 .u1, rwF 0x14 .u1, rw_ 0x15 .u2 3000 0 20000, rw_ 0x16 .u2 19000 0 20000] ++
    [ro 0x20 .u8, ro 0x21 .u8, ro 0x22 .u4, wo 0x23 .u1 1 1, ro 0x30 .u2 750, ro 0x31 .u1 15, rw_ 0x32 .u1 1 0 1,
     rwF 0x33 .u2 50]⟩,
   ⟨0x5002, 1, 1, [roN 1 5 .u8, roN 9 5 .u8]⟩,
   ⟨0x5010, 1, 8, [ro 1 .i4, ro 2 .u2, ro 3 .u2 0xFFFF, ro 4 .u8]⟩,
   ⟨0x5400, 1, 1, [ro 1 .u4, ro 2 .u4, rwF 3 .u4, domW 4 32 .ro false, rw_ 5 .u1 3 0 4, ro 6 .u4]⟩,
   ⟨0x5800, 1, 1,
    [rw_ 1 .u1 1 1 2, wo 2 .u1 1 3, rw_ 3 .u4 512 512 0xC00000, domW 4 0 .wo false, ro 5 .u1, domW 6 32 .ro false,
     rwF 7 .u4, domW 8 0 .wo false, wo 9 .u1 1 1, wo 0xA .u1 1 1] ++
    [wo 0xB .u1 1 1, ro 0xC .u1, rw_ 0xD .u4 600 60 86400, ro 0x10 .u8, ro 0x11 .u8, ro 0x12 .u2, ro 0x13 .u1]⟩]

/-- Table 24-9 and the statistics snapshot of Table 13-12. -/
def famInject : List Family :=
  [⟨0x5E00, 1, 1,
    [wo 1 .u2 0 65535, ro 2 .u1, rw_ 3 .u1 0 0 3, rw_ 4 .u1 1 1 3, rw_ 5 .u1 0 0 1, rwF 6 .u4, wo 7 .u1 1 2, ro 8 .u4]⟩,
   ⟨0x5F00, 1, 1, [ro 1 .u8, domW 2 376 .ro false, rwF 3 .u2, ro 4 .u2, roN 0x10 86 .u4]⟩]

/-- The whole dictionary (R477). -/
def families : List Family :=
  famComm ++ famState ++ famPower ++ famTime ++ famPlans ++ famPorts ++ famPoppy ++ famSesame ++ famCapture ++
    famQueues ++ famHazel ++ famMemory ++ famPip ++ famManage ++ famInject

/-- The family an index belongs to. -/
def familyOf (idx : Nat) : Option Family :=
  families.find? fun f =>
    decide (f.index ≤ idx) && decide ((idx - f.index) % f.stride = 0) && decide ((idx - f.index) / f.stride < f.count)

/-- The row that holds a subindex. -/
def rowOf (f : Family) (sub : Nat) : Option Obj :=
  f.rows.find? fun o => decide (o.sub ≤ sub) && decide (sub < o.sub + o.run)

/-- The highest subindex of a family: what its subindex 0 reads (R478). -/
def topSub (f : Family) : Nat := f.rows.foldl (fun m o => max m (o.sub + o.run - 1)) 0

/-- The row of an object. Subindex 0 of an index whose table holds none is a U8 const (R478). -/
def objRow (idx sub : Nat) : Option Obj :=
  match familyOf idx with
  | none => none
  | some f =>
    match rowOf f sub with
    | some o => some o
    | none => if sub = 0 then some (cst 0 .u1 (topSub f)) else none

/-- The key of an object in State: index, then subindex. -/
def okey (idx sub : Nat) : Nat := idx * 256 + sub

/-- The default of the object with a key (Table 24-x): what an unlisted key of `State.objects` reads as. -/
def odflt (k : Nat) : Nat :=
  match objRow (k / 256) (k % 256) with
  | some o => o.dflt
  | none => 0

/-- The default of a DOMAIN: zero bytes of its fixed length. -/
def ddflt (k : Nat) : List Byte :=
  match objRow (k / 256) (k % 256) with
  | some o => (match o.ty with | .dom n => rep n 0 | _ => [])
  | none => []

/-- Value sets that are not an interval: data-phase bit rate, pixel format, wiring, cycle period, user entries
(Table 18-2), the install word and the stage of 0x2200:0A (its high half is ro and is not judged). -/
def valueOk (idx sub : Nat) (v : Int) : Bool :=
  let n := v.toNat
  if idx = 0x2000 ∧ sub = 0xA then n == 2 || n == 4 || n == 5 || n == 8
  else if idx = 0x3C00 ∧ sub = 3 then n == 16 || n == 24 || n == 32
  else if idx = 0x2100 ∧ sub = 0xB then n == 0 || decide (60 ≤ n)
  else if idx = 0x2400 ∧ sub = 8 then bits n 7 4 == 0
  else if idx = 0x2200 ∧ sub = 0xA then decide (100 ≤ n % 65536)
  else if 0x3900 ≤ idx ∧ idx < 0x3908 ∧ sub = 0xE then n == 0 || decide (16 ≤ n)
  else if idx = 0x4800 ∧ 0x20 ≤ sub ∧ sub < 0x30 then
    bits n 63 48 == 0 && bits n 32 32 == 0 && bits n 23 16 == 0 && decide (bits n 35 33 ≤ 5) &&
      decide (bits n 39 36 ≤ 8) &&
      ((bits n 7 0 == 0 && decide (bits n 15 8 ≤ 31)) ||
        (bits n 7 0 == 1 && decide (bits n 15 8 ≤ 3)))
  else true

/-- A value as its type reads the bytes. -/
def valueOf (t : Ty) (b : List Byte) : Int := if t.signed then toI (8 * t.size) (unle b) else unle b

/-- Orders 6 to 8 of Table 23-3 that the tables alone settle: transfer kind, length, range. None when they pass. -/
def tableCheck (idx sub : Nat) (o : Obj) (segmented : Bool) (b : List Byte) : Option Nat :=
  match o.ty with
  | .dom n =>
    if !segmented then some 0x05040001
    else if idx = 0x4100 ∧ sub = 0x11 ∧ (b.length < 8 ∨ b.length % 8 ≠ 0 ∨ 4096 < b.length) then some 0x06070010
    else if b.length > 4096 then some 0x05040005
    else if n ≠ 0 ∧ b.length ≠ n then some 0x06070010
    else if idx = 0x5800 ∧ sub = 8 ∧ b.length = 0 then some 0x06070010
    else none
  | .str => if !segmented then some 0x05040001 else none
  | t =>
    if segmented then some 0x05040001
    else if b.length ≠ t.size then some 0x06070010
    else
      let v := valueOf t b
      if v < o.lo ∨ o.hi < v ∨ valueOk idx sub v = false then some 0x06090030 else none

/-- The port a port-family index names (0x2800, 0x2C00 or 0x3000 + 0x100·p), with 2 for the DTS family. -/
def portFamily (idx : Nat) : Option (Nat × Bool) :=
  if idx % 0x100 = 0 then
    if 0x2800 ≤ idx ∧ idx < 0x2C00 then some ((idx - 0x2800) / 0x100, false)
    else if 0x2C00 ≤ idx ∧ idx < 0x3000 then some ((idx - 0x2C00) / 0x100, false)
    else if 0x3000 ≤ idx ∧ idx < 0x3400 then some ((idx - 0x3000) / 0x100, true)
    else none
  else none

/-- What recovery mode serves (R456). -/
def recoverySet (idx sub : Nat) : Bool :=
  idx == 0x1018 || (idx == 0x5000 && sub == 1) ||
    (idx == 0x5800 && (decide (1 ≤ sub ∧ sub ≤ 8) || sub == 0xA || sub == 0xC))

end Sys2Proof.Machine
end

