-- ==== Sys2Proof/Machine/Sparse.lean ====
section
/-! DEFINITION. Sparse tables in one canonical form: keys strictly rising, no entry equal to what an unlisted key
reads as. The object dictionary's values, the DOMAIN values and every memory are held so. -/

namespace Sys2Proof.Machine

open Sys2Proof

/-- The value at key k of a sparse table whose unlisted keys read as `d`. -/
def sget {α : Type} (d : Nat → α) : List (Nat × α) → Nat → α
  | [], k => d k
  | (a, v) :: r, k => if a = k then v else sget d r k

/-- Write v at key k. Writing what an unlisted key reads as removes the entry. -/
def sput {α : Type} [DecidableEq α] (d : Nat → α) : List (Nat × α) → Nat → α → List (Nat × α)
  | [], k, v => if v = d k then [] else [(k, v)]
  | (a, w) :: r, k, v =>
    if k < a then (if v = d k then (a, w) :: r else (k, v) :: (a, w) :: r)
    else if k = a then (if v = d k then r else (k, v) :: r)
    else (a, w) :: sput d r k v

/-- The canonical form: every key is at least `lo`, keys rise strictly, and no entry equals the unlisted value. -/
def swfFrom {α : Type} [DecidableEq α] (d : Nat → α) : Nat → List (Nat × α) → Bool
  | _, [] => true
  | lo, (a, v) :: r => decide (lo ≤ a) && decide (v ≠ d a) && swfFrom d (a + 1) r

def swf {α : Type} [DecidableEq α] (d : Nat → α) (l : List (Nat × α)) : Bool := swfFrom d 0 l

/-- Drop every entry whose key a predicate names. -/
def sdrop {α : Type} (p : Nat → Bool) (l : List (Nat × α)) : List (Nat × α) := l.filter fun x => !p x.1

/-! ## Byte memories: an unlisted address reads as zero (assumption log 4). -/

/-- What an unlisted address reads as. -/
def memZero : Nat → BitVec 8 := fun _ => 0

abbrev Memory.get (m : List Host.Cell) (a : Nat) : BitVec 8 := sget memZero m a

abbrev Memory.put (m : List Host.Cell) (a : Nat) (b : BitVec 8) : List Host.Cell := sput memZero m a b

/-- The canonical form of a byte memory. -/
abbrev Memory.wf (m : List Host.Cell) : Bool := swf memZero m

/-- n bytes from address a upwards. -/
def memRead (m : List Host.Cell) : Nat → Nat → List Byte
  | _, 0 => []
  | a, n + 1 => Memory.get m a :: memRead m (a + 1) n

/-- Store bytes from address a upwards. -/
def memWrite (m : List Host.Cell) : Nat → List Byte → List Host.Cell
  | _, [] => m
  | a, b :: r => memWrite (Memory.put m a b) (a + 1) r

/-- Clear the addresses from a to a + n - 1. -/
def memClear (m : List Host.Cell) (a n : Nat) : List Host.Cell :=
  m.filter fun x => !(decide (a ≤ x.1) && decide (x.1 < a + n))

end Sys2Proof.Machine
end

