-- ==== Sys2Proof/Machine/Ops.lean ====
section
/-! DEFINITION. The operations every family shares: reading and writing objects, the passing of time, counters,
EMCYs, records and events, the log, long operations, and the judgement of a USDO write (23). -/

namespace Sys2Proof.Machine

open Sys2Proof

/-! ## Objects -/

/-- The raw value of an object, by key 0xIIIISS. -/
def State.og (s : State) (k : Nat) : Nat := sget odflt s.objects k

/-- The signed value of a w-bit object. -/
def State.ogI (s : State) (w k : Nat) : Int := toI w (s.og k)

/-- Set an object. -/
def State.os (s : State) (k v : Nat) : State := { s with objects := sput odflt s.objects k v }

/-- Set a signed object of w bits. -/
def State.osI (s : State) (w k : Nat) (v : Int) : State := s.os k (toU w v)

/-- Add to an UNSIGNED32 object that wraps (R482). -/
def State.bump (s : State) (k : Nat) (n : Nat := 1) : State := s.os k ((s.og k + n) % 2 ^ 32)

/-- The value of a DOMAIN object. -/
def State.dg (s : State) (k : Nat) : List Byte := sget ddflt s.domains k

def State.ds (s : State) (k : Nat) (b : List Byte) : State := { s with domains := sput ddflt s.domains k b }

/-- Set one bit of an object. -/
def State.osBit (s : State) (k i : Nat) (on : Bool) : State :=
  let v := s.og k
  s.os k (if on then setBit v i else clearBits v (2 ^ i))

/-- The port object of family `base` (key 0xIIIISS of port 0) at port p (R479). -/
def pk (base p : Nat) : Nat := base + 0x10000 * p

/-! ## Variant (02) -/

/-- Port p is enabled (R26). -/
def State.portOn (s : State) (p : Nat) : Bool := decide (p < s.pw.sensedPorts)

/-- Ports of a mask that the variant enables. -/
def State.ports (s : State) : List Nat := List.range s.pw.sensedPorts

/-- The enabled-port mask 0x2000:02 (R33). -/
def State.portMask (s : State) : Nat := 2 ^ s.pw.sensedPorts - 1

/-- Bonded transmit lanes (Table 2-2). -/
def State.lanesBonded (s : State) : Nat := 2 * s.pw.sensedPorts

/-- The sweep-period cap in ns (R7). -/
def State.periodCap (s : State) : Nat := if s.pw.sensedKm80 then 800000 else 400000

/-! ## Time (R6, R377, R378) -/

/-- The device runs its Core: Doze, Ready or Sensing. -/
def State.coreLive (s : State) : Bool := decide (s.pw.power ≠ .dormant) && !s.pw.inReset

/-- Advance T over n core clock cycles with rate r: the closed form of R377. -/
def advanceT (t acc : Nat) (r : Int) (n : Nat) : Nat × Nat :=
  let a : Int := acc + n * r * 256
  let k := a / 1000000000
  ((((t + 65536 * n : Nat) : Int) + k).toNat % 2 ^ 80, (a % 1000000000).toNat)

/-- Shell ticks that end within n ns, and the remainder in units of 10^-9 tick. -/
def shellTicks (rem n : Nat) : Nat × Nat := ((rem + n * 32768) / 1000000000, (rem + n * 32768) % 1000000000)

/-- Let time pass to instant t: the Shell counts, and T advances with the core clock, or with the Shell while the core
clock is stopped in Doze (R378). -/
def State.at (s : State) (t : Nat) : State :=
  let n := t - s.now
  let (ticks, rem) := if s.pw.crystal then shellTicks s.pw.shellRem n else (0, s.pw.shellRem)
  let (tt, acc) :=
    if s.tb.running then advanceT s.tb.t s.tb.acc (s.ogI 32 0x220005) n
    else if s.coreLive then ((s.tb.t + 2000000000 * ticks) % 2 ^ 80, s.tb.acc)
    else (s.tb.t, s.tb.acc)
  { s with
    now := s.now + n
    pw := { s.pw with shellCount := (s.pw.shellCount + ticks) % 2 ^ 48, shellRem := rem }
    tb := { s.tb with t := tt, acc := acc } }

/-- Device time in ns. -/
def State.devNs (s : State) : Nat := s.tb.t / 65536

/-- One draw of a free value below n (n > 0). -/
def State.draw (s : State) (n : Nat) : Nat × State := (Config.freeNat s.free % n, { s with free := s.free + 1 })

/-- Bytes as read with an uncorrectable error: they differ from the stored ones somewhere, which is not stated (R356). -/
def State.garble (s : State) (l : List Byte) : List Byte × State :=
  let (x, s) := s.draw (256 ^ l.length - 1)
  (l.zipWith (· ^^^ ·) (le l.length (x + 1)), s)

/-! ## Wire -/

def State.emit (s : State) (w : Wire) : State := { s with wire := s.wire ++ [w] }

/-! ## Statistics counters (R17, R18, Table 13-7) -/

/-- 86 zero counters. -/
def noCounters : List Nat := rep 86 0

/-- Add n to entry i of a counter list, UNSIGNED32. -/
def addCounter (l : List Nat) (i n : Nat) : List Nat := modAt l i fun v => (v + n) % 2 ^ 32

/-- Counters 0 to 35 are by port; a disabled port's never move (R37). -/
def State.countable (s : State) (i : Nat) : Bool := decide (36 ≤ i) || s.portOn (i % 4)

/-- Count an event of the second kind of R17: in the latest frame begun, or in the first frame to come. -/
def State.count (s : State) (i : Nat) (n : Nat := 1) : State :=
  if s.countable i = false then s
  else
    match s.sw.frames.reverse with
    | [] => { s with sw := { s.sw with early := addCounter s.sw.early i n } }
    | f :: r => { s with sw := { s.sw with frames := (r.reverse) ++ [{ f with counters := addCounter f.counters i n }] } }

/-- The frame contains a sweep with this index (R11, R15). -/
def Frame.holds (f : Frame) (sweep : Nat) : Bool := f.runs.any fun r => decide (r.1 ≤ sweep) && decide (sweep < r.1 + r.2)

/-- The number of the frame that contains a sweep. -/
def State.frameOf (s : State) (sweep : Nat) : Option Nat := (s.sw.frames.reverse.find? fun f => f.holds sweep).map (·.number)

/-- Count an event of a slot firing of a sweep: in the frame that contains the sweep (R11, R17). -/
def State.countAt (s : State) (sweep i : Nat) (n : Nat := 1) : State :=
  if s.countable i = false then s
  else
    match s.frameOf sweep with
    | none => s
    | some k =>
      { s with sw := { s.sw with frames := s.sw.frames.map fun f =>
          if f.number = k then { f with counters := addCounter f.counters i n } else f } }

/-- A corrected single-bit error of any memory (R17). -/
def State.eccFix (s : State) : State := s.count 53

/-- Single-bit errors that DRAM reads corrected (R343); with inline ECC off the controller detects none. -/
def State.dramFixed (s : State) (n : Nat) : State :=
  if s.og 0x420004 = 1 then (s.bump 0x42000E n).count 53 n else s

/-- An uncorrectable error of any memory (R17). -/
def State.eccLost (s : State) : State := s.count 54

/-! ## Records and queues (R290 to R297) -/

/-- The size a record occupies: header and payload. -/
def Rec.size (r : Rec) : Nat := 40 + r.payload.length

/-- Bytes a queue holds. -/
def Queue.held (q : Queue) : Nat := sumN (q.recs.map Rec.size)

/-- The queue with number q. -/
def State.queue (s : State) (q : Nat) : Queue :=
  s.qu.qs.getD q Queue.blank

def State.setQueue (s : State) (q : Nat) (f : Queue → Queue) : State :=
  { s with qu := { s.qu with qs := modAt s.qu.qs q f } }

/-- A record as a source hands it over: type, priority, flags, sweep index, stamp in T units, original length, payload. -/
structure Offer where
  typ : Nat
  prio : Nat := 0
  flags : Nat := 0
  sweep : Nat
  stamp : Nat
  olen : Nat
  payload : List Byte
  deriving DecidableEq, Repr

/-- Room for a record in a queue (R292). -/
def State.fits (s : State) (q n : Nat) : Bool :=
  let qq := s.queue q
  decide (qq.held + 40 + n ≤ qq.capKiB * 1024)

/-- Queues take no offer in Doze (R291). -/
def State.queuesLive (s : State) : Bool := decide (s.pw.power = .ready ∨ s.pw.power = .sensing)

/-- The Cashew banks of a mask that n bytes from place a of a ring of `cap` bytes meet: the ring fills them in ascending order
(DESIGN CHOICE, assumption log 89). -/
def ringBanks (mask cap a n : Nat) : Nat :=
  if mask = 0 then 0
  else
    ((List.range 48).filter (bit mask)).zipIdx.foldl (fun m (b, i) =>
      let lo := 524288 * i
      if (a < lo + 524288 ∧ lo < min cap (a + n)) ∨ lo + cap < a + n then setBit m b else m) 0

/-- Records in the ring one after another from place a on. -/
def Queue.place (q : Queue) : Nat → List Rec → List Rec
  | _, [] => []
  | a, r :: rs =>
    let cap := q.capKiB * 1024
    { r with banks := ringBanks q.banks cap a r.size, region := q.region } :: q.place ((a + r.size) % max 1 cap) rs

/-- Insert a record behind those of its type and lower ones. -/
def insertType (x : Rec) : List Rec → List Rec
  | [] => [x]
  | r :: rs => if x.typ < r.typ then x :: r :: rs else r :: insertType x rs

/-- A record enters a queue at an instant (R291 to R293): behind the others, but before the records of a higher type that entered at
the same instant, whose numbers and marks follow entry order. -/
def Queue.enter (q : Queue) (now : Nat) (r : Rec) : Queue :=
  let k := if q.latest.1 = now then min q.latest.2 (q.recs.length - if q.framed = 0 then 0 else 1) else 0
  let old := q.recs.take (q.recs.length - k)
  let tail := q.recs.drop (q.recs.length - k)
  let marks := (tail ++ [r]).map fun x => (x.seq, x.flags &&& 2)
  let cap := q.capKiB * 1024
  let a := (q.pos + cap - sumN (tail.map Rec.size) % max 1 cap) % max 1 cap
  let tail := (insertType r tail).zipWith (fun x m => { x with seq := m.1, flags := clearBits x.flags 2 ||| m.2 }) marks
  { q with recs := old ++ q.place a tail, seq := (q.seq + 1) % 2 ^ 32, follows := false, latest := (now, k + 1)
           pos := (q.pos + r.size) % max 1 cap }

/-- A record enters queue q. -/
def State.accept (s : State) (q : Nat) (o : Offer) : State :=
  s.setQueue q fun qq =>
    qq.enter s.now ⟨o.typ, q, o.prio, o.flags ||| (if qq.follows then 2 else 0), qq.seq, o.sweep, o.stamp, o.olen, o.payload,
      if q = 15 ∨ o.payload.length = 0 then 0 else crc32c o.payload, 0, none⟩

/-- The frame in which a refusal of queue q is the first has posted it (R303). -/
def State.noteRefused (s : State) (q : Nat) : Bool × State :=
  match s.sw.frames.reverse with
  | [] => (!s.sw.earlyRefused.contains q, { s with sw := { s.sw with earlyRefused := s.sw.earlyRefused ++ [q] } })
  | f :: r =>
    (!f.refused.contains q,
      { s with sw := { s.sw with frames := r.reverse ++ [{ f with refused := f.refused ++ [q] }] } })

/-- Counter i of the frame that encloses the present. -/
def State.frameCounter (s : State) (i : Nat) : Nat :=
  match s.sw.frames.reverse with
  | [] => s.sw.early.getD i 0
  | f :: _ => f.counters.getD i 0

/-- Pulse line IS i is 1 at the next evaluation instant (Table 11-2). -/
def State.pulse (s : State) (i : Nat) : State := { s with ses := { s.ses with pulses := setBit s.ses.pulses i } }

/-- A queue refuses a record: number, overrun bit, counters, mark on the next accepted record (R292). -/
def State.refuse (s : State) (q : Nat) : State :=
  let s := s.setQueue q fun qq => { qq with seq := (qq.seq + 1) % 2 ^ 32, follows := true }
  let s := (s.osBit 0x400002 q true).pulse 9
  let s := s.count (36 + q)
  s.bump (okey (0x4010 + q) 6)

/-- Offer to q15, which posts no refusal event of its own. -/
def State.offerEvent (s : State) (o : Offer) : State :=
  if s.queuesLive = false then s
  else if s.fits 15 o.payload.length then s.accept 15 o else s.refuse 15

/-- Post an event: payload of 40 bytes, header of the latest boundary (R302). -/
def State.event (s : State) (code prio : Nat) (body : List Byte) : State :=
  s.offerEvent
    { typ := 0x0B, prio := prio, sweep := s.sw.lastIndex, stamp := s.sw.lastStamp, olen := 40
      payload := le 2 code ++ rep 6 0 ++ (body ++ rep (32 - body.length) 0) }

/-- Offer a record to a queue; true when it entered (R291, R292, R303). -/
def State.offer (s : State) (q : Nat) (o : Offer) : Bool × State :=
  if s.queuesLive = false then (false, s)
  else if s.fits q o.payload.length then (true, s.accept q o)
  else
    let s := s.refuse q
    let (first, s) := s.noteRefused q
    (false,
      if first && decide (q ≠ 15) then s.event 0x0009 2 ([byte q] ++ rep 3 0 ++ le 4 (s.frameCounter (36 + q))) else s)

/-- The 40-byte record header (Table 13-2). -/
def Rec.header (r : Rec) : List Byte :=
  [byte r.typ, byte r.queue, byte r.prio, byte r.flags] ++ le 4 r.seq ++ le 4 r.payload.length ++
    le 4 r.check ++ le 8 r.sweep ++
    le 8 (r.stamp / 65536) ++ le 2 (r.stamp % 65536) ++ le 2 0 ++ le 4 r.olen

/-- A record as it travels. -/
def Rec.bytes (r : Rec) : List Byte := r.header ++ r.payload

/-! ## EMCY (R476) -/

/-- The error register bit that Table 23-6 gives an EMCY code. -/
def emcyBit (code : Nat) : Nat :=
  if code = 0x3100 then 2 else if code = 0x4200 ∨ code = 0x4210 then 3
  else if code = 0x5010 ∨ code = 0x5020 ∨ code = 0x5030 then 0 else if code = 0x8110 then 4 else 7

/-- An EMCY event: its error-register bit sets; it waits to be sent, or is dropped and counted when eight wait; while
NMT is Stopped it is neither sent nor held nor counted. -/
def State.emcy (s : State) (code detail arg : Nat) : State :=
  let s := s.osBit 0x100100 (emcyBit code) true
  if s.pw.nmtStopped then s
  else if 8 ≤ s.ctl.waiting.length then s.bump 0x20000B
  else { s with ctl := { s.ctl with waiting := s.ctl.waiting ++ [⟨code, detail, arg % 2 ^ 32⟩] } }

/-! ## Log (R439, R440) -/

/-- A 32-byte log entry with its number, device time and check (Table 21-3). -/
def logBytes (number time code sev src : Nat) (args : List Byte) : List Byte :=
  let b := le 4 number ++ le 8 time ++ le 2 code ++ [byte sev, byte src] ++ (args ++ rep (12 - args.length) 0)
  b ++ le 4 (crc32 b)

/-- Append one entry to the SRAM buffer. -/
def State.logPush (s : State) (code sev src : Nat) (args : List Byte) : State :=
  { s with mg := { s.mg with
      buffer := s.mg.buffer ++ [logBytes s.mg.nextEntry s.devNs code sev src args]
      nextEntry := (s.mg.nextEntry + 1) % 2 ^ 32 } }

/-- Post a log entry; an entry that finds the buffer of 256 full is lost and counted, and the next one that finds room
is preceded by one code 0x0060 entry. -/
def State.log (s : State) (code sev src : Nat) (args : List Byte) : State :=
  if 256 ≤ s.mg.buffer.length + (if s.mg.lostRun = 0 then 0 else 1) then
    { s.bump 0x540006 with mg := { s.mg with lostRun := s.mg.lostRun + 1 } }
  else if s.mg.lostRun = 0 then s.logPush code sev src args
  else
    let s := s.logPush 0x0060 2 0 (le 4 s.mg.lostRun)
    ({ s with mg := { s.mg with lostRun := 0 } }).logPush code sev src args

/-! ## Status records and power states (R306, R462) -/

/-- The code of a power state in 0x2000:03 and the log. -/
def PowerState.code : PowerState → Nat
  | .dormant => 0 | .doze => 1 | .ready => 2 | .sensing => 3

/-- Offer a status record on q13 (Table 13-10). -/
def State.statusRecord (s : State) (op progress result elapsed maximum : Nat) : State :=
  (s.offer 13
    { typ := 0x09, sweep := s.sw.lastIndex, stamp := s.sw.lastStamp, olen := 16
      payload := [byte s.pw.power.code, byte op, byte progress, byte result] ++ le 4 elapsed ++ le 4 maximum ++
        le 4 0 }).2

/-- The status record of the operation in progress. -/
def State.statusNow (s : State) : State :=
  match s.ctl.longOp with
  | none => s.statusRecord 0 0 0 0 0
  | some o => s.statusRecord o.code o.progress 0 ((s.now - o.start) / 1000000) o.maximum

/-- Stopped only ever accompanies Doze (Table 23-1). -/
def State.enterPower (s : State) (p : PowerState) : State :=
  if s.pw.power = p then s
  else
    let old := s.pw.power
    let s := { s with pw := { s.pw with power := p } }
    let s := s.log 0x0002 4 0 [byte old.code, byte p.code]
    s.statusNow

/-- A transition in progress (R466). -/
def State.inTransition (s : State) : Bool := s.pw.goal.isSome || s.pw.entry.isSome || s.pw.stopWanted ||
  s.pw.shutting || s.pw.enterWanted

/-- A transition is over; a host command that ended Sensing clears managed operation now (R428), and an NMT stop has
reached Stopped (R463). -/
def State.transitionDone (s : State) : State :=
  let s := { s with pw := { s.pw with
    goal := none, enterWanted := false
    nmtStopped := s.pw.nmtStopped || (s.pw.nmtStopWanted && decide (s.pw.power = PowerState.doze)), nmtStopWanted := false } }
  if s.pw.managedClear then { (s.os 0x210002 0).osBit 0x210014 0 false with pw := { s.pw with managedClear := false } }
  else s

/-! ## Long operations (R473, R474) -/

/-- Start a long operation. -/
def State.startLong (s : State) (code maximum arg : Nat) (image : List Byte) : State :=
  let s := { s with ctl := { s.ctl with longOp := some ⟨code, s.now, maximum, 0, arg, image⟩ } }
  let s := (s.os 0x200005 code).os 0x200006 0
  s.statusNow

/-- End the long operation with a result: 0x2000:05 to :07, event 0x000A, the last status record, the lease restarts. -/
def State.endLong (s : State) (result : Nat) : State :=
  match s.ctl.longOp with
  | none => s
  | some o =>
    let prog := if result = 0 then 100 else o.progress
    let s := s.statusRecord o.code prog result ((s.now - o.start) / 1000000) o.maximum
    let s := ((s.os 0x200005 0).os 0x200006 0).os 0x200007 (o.code * 256 + result % 256)
    let s := { s with ctl := { s.ctl with longOp := none, lease := s.now + 10000000000 } }
    s.event 0x000A 4 [byte o.code, byte result]

/-! ## The USDO session and the judgement of a request (R468 to R472) -/

/-- The node answers on CAN FD: awake, Walnut running, not NMT Stopped, with a node-ID. -/
def State.served (s : State) : Bool :=
  s.coreLive && !s.ctl.restarting && !s.pw.nmtStopped && decide (s.ctl.nodeId ≠ 0)

/-- The abort of R468 or R474 that meets a request of client c before anything else. -/
def State.gate (s : State) (c : Nat) : Option Nat :=
  if s.ctl.longOp.isSome then some 0x08000022
  else if s.og 0x200009 ≠ 0 ∧ s.og 0x200009 ≠ c then some 0x08000022
  else none

/-- The request opens a session or renews the lease (R468). -/
def State.renew (s : State) (c : Nat) : State :=
  { s.os 0x200009 c with ctl := { s.ctl with lease := s.now + 10000000000 } }

/-- The index belongs to an absent family (Table 2-4). -/
def State.absent (s : State) (idx : Nat) : Bool :=
  match portFamily idx with
  | none => false
  | some (p, dts) => !s.portOn p || (dts && !s.pw.sensedCombined)

/-- An object of an unbonded transmit lane (R331). -/
def State.unbondedLane (s : State) (idx : Nat) : Bool :=
  decide (0x4040 ≤ idx ∧ idx < 0x4048 ∧ s.lanesBonded ≤ idx - 0x4040)

/-- The object of a request, or its abort of order 2 or 3 of Table 23-3. -/
def State.locate (s : State) (idx sub : Nat) : Except Nat Obj :=
  if s.og 0x500001 = 1 ∧ recoverySet idx sub = false then .error 0x06020000
  else if (familyOf idx).isNone then .error 0x06020000
  else match objRow idx sub with
    | none => .error 0x06090011
    | some o => .ok o

/-- The orders 1 to 8 of Table 23-3 that a write meets before the state rules of its object. -/
def State.writeAbort (s : State) (idx sub : Nat) (segmented : Bool) (b : List Byte) : Option Nat :=
  match s.locate idx sub with
  | .error a => some a
  | .ok o =>
    if s.absent idx then some 0x08000020
    else if o.acc = .rwReady ∧ s.pw.power ≠ .ready then some 0x08000022
    else if idx = 0x2000 ∧ sub = 4 ∧ s.inTransition then some 0x08000022
    else if idx = 0x2400 ∧ sub = 8 ∧ s.pw.power = .doze then some 0x08000022
    else if o.acc = .ro ∨ o.acc = .const then some 0x06010002
    else match tableCheck idx sub o segmented b with
      | some a => some a
      | none =>
        if 0x4010 ≤ idx ∧ idx < 0x401D ∧ sub = 5 ∧ 2 ^ s.lanesBonded ≤ unle b then some 0x06090030
        else if idx = 0x5800 ∧ sub = 3 ∧ s.og 0x580001 = 1 ∧ 4 * mib < unle b then some 0x06090030
        else none

/-- Answer a client. -/
def State.answer (s : State) (c : Nat) (a : Answer) : State := s.emit (.answer c a)

/-- A whole write of client c (R468 to R472): refused by the gate, by the tables, by the rules of the object, or, in the last
order of Table 23-3, by the client's own open transfer; else its effect comes about. Everything but a refusal of R474 or of another
client's session renews the lease. -/
def State.hostWrite (s : State) (c idx sub : Nat) (segmented : Bool) (b : List Byte)
    (effect : State → Except Nat State) : State :=
  if s.served = false then s
  else match s.gate c with
    | some a => s.answer c (.abort a)
    | none =>
      let s := s.renew c
      match s.writeAbort idx sub segmented b with
      | some a => s.answer c (.abort a)
      | none =>
        match effect s with
        | .error a => s.answer c (.abort a)
        | .ok s' => if s.ctl.transfer.isSome then s.answer c (.abort 0x08000020) else s'.answer c .done

/-- Refuse unless a condition holds. -/
def require (p : Bool) (abort : Nat) (k : Except Nat State) : Except Nat State := if p then k else .error abort

end Sys2Proof.Machine
end

