-- ==== Sys2Proof/Machine/PlanImage.lean ====
section
/-! DEFINITION. Reading a plan image (03, 05, 07): header fields, sections, and what the hardware takes from them. -/

namespace Sys2Proof.Machine

open Sys2Proof

/-! ## Header (Table 3-1) -/

/-- n bytes of the header at an offset. -/
def Plan.hdr (pl : Plan) (off n : Nat) : Nat := fld pl.header off n

def Plan.useMask (pl : Plan) : Nat := pl.hdr 0x0E 1
def Plan.share (pl : Plan) : Nat := pl.hdr 0x0F 1
def Plan.ident (pl : Plan) : Nat := pl.hdr 0x10 4
/-- Slot count S. -/
def Plan.slots (pl : Plan) : Nat := pl.hdr 0x16 1
/-- Sweep period P in ns. -/
def Plan.period (pl : Plan) : Nat := 16 * pl.hdr 0x18 4
/-- Acquisition window W in ns. -/
def Plan.window (pl : Plan) : Nat := 2000 * pl.hdr 0x1C 2
/-- Tick P / S in ns. -/
def Plan.tick (pl : Plan) : Nat := pl.period / max 1 pl.slots
/-- Window length N_w in samples (Table 6-4). -/
def Plan.nw (pl : Plan) : Nat := pl.window / 2
/-- The plan fires on port p. -/
def Plan.uses (pl : Plan) (p : Nat) : Bool := bit pl.useMask p

/-- The bytes of a section, empty when the plan has none. -/
def Plan.sec (pl : Plan) (t i : Nat) : List Byte :=
  match pl.secs.find? fun x => decide (x.typ = t) && decide (x.inst = i) with
  | some x => x.bytes
  | none => []

def Plan.hasSec (pl : Plan) (t i : Nat) : Bool := pl.secs.any fun x => decide (x.typ = t) && decide (x.inst = i)

/-! ## Section 0x0001 (Tables 5-4 to 5-6) and 0x0002 (Table 5-7) -/

/-- Variant count V. -/
def Plan.variants (pl : Plan) : Nat := fld (pl.sec 1 0) 3 1
/-- Code length L in chips. -/
def Plan.codeLen (pl : Plan) : Nat := fld (pl.sec 1 0) 0x0A 2
/-- DTS code length M. -/
def Plan.dtsM (pl : Plan) : Nat := fld (pl.sec 1 0) 0x0C 2
/-- Template length T. -/
def Plan.tmplLen (pl : Plan) : Nat := fld (pl.sec 1 0) 0x0E 2
/-- Band of slot s. -/
def Plan.band (pl : Plan) (s : Nat) : Nat := fld (pl.sec 1 0) (0x20 + 8 * s) 1
/-- Offset of the port table entry of port p. -/
def Plan.portEntry (pl : Plan) (p : Nat) : Nat := 0x20 + 8 * pl.slots + 16 * p
/-- Round trip in ns. -/
def Plan.roundTrip (pl : Plan) (p : Nat) : Nat := fld (pl.sec 1 0) (pl.portEntry p) 4
def Plan.fibreLen (pl : Plan) (p : Nat) : Nat := fld (pl.sec 1 0) (pl.portEntry p + 4) 4
def Plan.groupIndex (pl : Plan) (p : Nat) : Nat := fld (pl.sec 1 0) (pl.portEntry p + 8) 2
def Plan.portRate (pl : Plan) (p : Nat) : Nat := fld (pl.sec 1 0) (pl.portEntry p + 12) 4
/-- Samples per chip: 5 at S = 4, 10 at S = 8 (Table 6-4). -/
def Plan.spc (pl : Plan) : Nat := if pl.slots = 8 then 10 else 5
/-- Chip duration in ns (R96). -/
def Plan.chip (pl : Plan) : Nat := if pl.slots = 8 then 20 else 10
/-- Code length N_c in samples. -/
def Plan.nc (pl : Plan) : Nat := pl.spc * pl.codeLen
/-- Waveform length N of a code (Table 5-7). -/
def Plan.waveLen (pl : Plan) : Nat := pl.chip * pl.codeLen + 16
/-- Offset of variant v in a code table. -/
def Plan.varOff (pl : Plan) (v : Nat) : Nat := 16 + v * (2 * pl.codeLen + 4 * pl.waveLen)
/-- Chip phase c of variant v of slot s (R105). -/
def Plan.chipPhase (pl : Plan) (s v c : Nat) : Nat := fld (pl.sec 2 s) (pl.varOff v + 2 * c) 2
/-- The I and Q values of a waveform sample word (R102). -/
def iqWord (w : Nat) : Int × Int := (toI 14 (bits w 15 2), toI 14 (bits w 31 18))
/-- Waveform sample k of variant v of slot s. -/
def Plan.waveSample (pl : Plan) (s v k : Nat) : Int × Int :=
  iqWord (fld (pl.sec 2 s) (pl.varOff v + 2 * pl.codeLen + 4 * k) 4)
/-- Template sample i of slot s. -/
def Plan.tmpl (pl : Plan) (s i : Nat) : Int × Int :=
  iqWord (fld (pl.sec 1 0) (0x60 + 8 * pl.slots + 4 * (s * pl.tmplLen + i)) 4)

/-! ## Channel map, section 0x0010 (Table 7-1) -/

def Plan.cmap (pl : Plan) (p off n : Nat) : Nat := fld (pl.sec 0x10 p) off n
/-- 0 strain rate, 1 differential phase. -/
def Plan.format (pl : Plan) (p : Nat) : Nat := pl.cmap p 3 1
/-- Channel count N. -/
def Plan.chans (pl : Plan) (p : Nat) : Nat := pl.cmap p 4 4
/-- Spatial samples per channel k. -/
def Plan.perChan (pl : Plan) (p : Nat) : Nat := pl.cmap p 8 2
/-- Gauge g in channels. -/
def Plan.gauge (pl : Plan) (p : Nat) : Nat := pl.cmap p 0x0A 2
/-- Value width, 2 or 4 bytes. -/
def Plan.width (pl : Plan) (p : Nat) : Nat := pl.cmap p 0x0E 1
def Plan.segLen (pl : Plan) (p : Nat) : Nat := pl.cmap p 0x14 2
def Plan.flagMode (pl : Plan) (p : Nat) : Nat := pl.cmap p 0x16 1
/-- Outputs N - g of a port (R160). -/
def Plan.outs (pl : Plan) (p : Nat) : Nat := pl.chans p - pl.gauge p

/-! ## Hazel schedules, section 0x0020 (Table 3-4) -/

/-- Engine-use mask of schedule instance i. -/
def Plan.schedMask (pl : Plan) (i : Nat) : Nat := fld (pl.sec 0x20 i) 4 2
def Plan.schedCount (pl : Plan) (i : Nat) : Nat := fld (pl.sec 0x20 i) 6 2

/-- n bytes of entry k of schedule instance i at an offset. -/
def Plan.entry (pl : Plan) (i k off n : Nat) : Nat := fld (pl.sec 0x20 i) (16 + 96 * k + off) n

/-- Slots of the open-slot table (R235), and n bytes of one at an offset. -/
def Plan.openSlots (pl : Plan) : Nat := fld (pl.sec 0x21 0) 2 2

def Plan.slotEntry (pl : Plan) (n off k : Nat) : Nat := fld (pl.sec 0x21 0) (16 + 32 * n + off) k

/-- `pick_schedule` (R54): none where the plan cannot run. -/
def Plan.pickSchedule (pl : Plan) (failed : Nat) : Option Nat :=
  if pl.schedMask 0 &&& failed = 0 then some 0
  else
    match (List.range 12).find? fun e => bit failed e && decide (pl.schedMask (e + 1) &&& failed = 0) with
    | some e => some (e + 1)
    | none => (List.range 12).map (· + 1) |>.find? fun i => decide (pl.schedMask i &&& failed = 0)

/-! ## Stream map, section 0x0050 (R298, Tables 13-4 and 13-5) -/

/-- A stream entry. -/
structure Stream where
  typ : Nat
  port : Nat
  queue : Nat
  coding : Nat
  first : Nat
  count : Nat
  deriving DecidableEq, Repr

def Plan.streams (pl : Plan) : List Stream :=
  let b := pl.sec 0x50 0
  (List.range (fld b 2 2)).map fun i =>
    let o := 432 + 16 * i
    ⟨fld b o 1, fld b (o + 1) 1, fld b (o + 2) 1, fld b (o + 3) 1, fld b (o + 4) 4, fld b (o + 8) 4⟩

/-- n bytes of the entry of queue q at an offset. -/
def Plan.qEntry (pl : Plan) (q off n : Nat) : Nat := fld (pl.sec 0x50 0) (16 + 32 * q + off) n

/-- The queue of a record kind that has one entry at most (types 0x04, 0x05; type 0x03 by port). -/
def Plan.queueOf (pl : Plan) (typ port : Nat) : Option Nat :=
  (pl.streams.find? fun e => decide (e.typ = typ) && (decide (typ ≠ 3) || decide (e.port = port))).map (·.queue)

/-- The stream of a record that begins at an output: types 0x01 and 0x02. -/
def Plan.streamOf (pl : Plan) (typ port o : Nat) : Option Stream :=
  pl.streams.find? fun e =>
    decide (e.typ = typ) && decide (e.port = port) && decide (e.first ≤ o) && decide (o < e.first + e.count)

/-- The decimation list of a port: outputs in entry order (R172, R299). -/
def Plan.decimList (pl : Plan) (p : Nat) : List Nat :=
  (pl.streams.filter fun e => decide (e.typ = 2) && decide (e.port = p)).flatMap fun e =>
    (List.range e.count).map (e.first + ·)

/-! ## Energy (Table 3-5) and bandwidth proof (Table 3-6) -/

/-- Sensing energy in µJ/s, header 0x2C. -/
def Plan.energy (pl : Plan) : Nat := pl.hdr 0x2C 4
def Plan.lossEnergy (pl : Plan) : Nat := fld (pl.sec 0x60 0) 4 4
def Plan.coldEnergy (pl : Plan) : Nat := fld (pl.sec 0x60 0) 8 4
def Plan.warmEnergy (pl : Plan) : Nat := fld (pl.sec 0x60 0) 12 4

/-- Capture readout and raw I/Q demand in MB/s (Table 3-6, 0x18). -/
def Plan.rawDemand (pl : Plan) : Nat := fld (pl.sec 0x61 0) 0x18 4

/-! ## Parsing (Tables 3-1 and 3-2) -/

/-- A directory entry. -/
structure DirEntry where
  typ : Nat
  inst : Nat
  off : Nat
  len : Nat
  check : Nat
  deriving DecidableEq, Repr

/-- The directory of an image. -/
def dirEntries (img : List Byte) : List DirEntry :=
  (List.range (fld img 0x36 2)).map fun i =>
    let b := sliceB img (fld img 0x38 4 + 16 * i) 16
    ⟨fld b 0 2, fld b 2 2, fld b 4 4, fld b 8 4, fld b 12 4⟩

/-- The plan of an image whose frame is sound: unknown types from 0x8000 on are left out (R44). -/
def parsePlan (img : List Byte) : Plan :=
  { header := img.take 64, length := img.length
    secs := ((dirEntries img).filter fun d => decide (d.typ < 0x8000)).map fun d =>
      ⟨d.typ, d.inst, (img.drop d.off).take d.len⟩ }

/-! ## The ladder (R51, R52, R521) -/

/-- The plan on a rung. -/
def State.rung (s : State) (r : Nat) : Option Plan := (s.lad.rungs.getD r none).map (·.plan)

/-- The 60 bytes of an entry's head that its check covers (R447); the check counts the state byte as it is first written, 0xFF
(DESIGN CHOICE, assumption log 92). -/
def StoreEntry.head (e : StoreEntry) : List Byte :=
  le 4 0x54534E50 ++ [byte e.rung, 0xFF] ++ le 2 0 ++ le 4 e.image.length ++ le 4 (parsePlan e.image).ident ++ le 4 e.imageCheck ++
    rep 40 0

/-- An entry's checks are right. -/
def StoreEntry.ok (e : StoreEntry) : Bool := e.imageCheck == crc32c e.image && e.headCheck == crc32c e.head

/-- A live entry for an image on a rung. -/
def StoreEntry.make (rung : Nat) (image : List Byte) : StoreEntry :=
  let e : StoreEntry := ⟨rung, 0x7F, image, crc32c image, 0⟩
  { e with headCheck := crc32c e.head }

/-- The live entry of a rung in the flash plan store. -/
def State.storeLive (s : State) (r : Nat) : Option StoreEntry := s.lad.store.find? fun e => e.rung == r && e.status == 0x7F && e.ok

/-- The plan of a rung as Walnut knows it: the resident one, or a kept one that is still to be reloaded (R498). -/
def State.planOn (s : State) (r : Nat) : Option Plan :=
  match s.rung r with
  | some pl => some pl
  | none =>
    if s.pw.readyDone = false ∨ s.lad.reloading.contains r = true then (s.storeLive r).map fun e => parsePlan e.image
    else none

/-- The rung is occupied: a plan stands on it, or a kept plan will once it is reloaded (R499). -/
def State.occupied (s : State) (r : Nat) : Bool := (s.planOn r).isSome

/-- The active plan: the plan of the active rung (R521). -/
def State.activePlan (s : State) : Option Plan := s.rung (s.og 0x240001)

/-- A rung is runnable for the current failed-engine mask when occupied and R54 picks a schedule. -/
def State.runnable (s : State) (r : Nat) : Bool :=
  match s.rung r with
  | none => false
  | some pl => (pl.pickSchedule (s.og 0x410002)).isSome

/-- The rung an entry to Sensing takes where rung a is asked for (R521): a itself, else the highest lower runnable one, else
the lowest higher one. -/
def State.rungFor (s : State) (a : Nat) : Option Nat :=
  if s.runnable a then some a
  else match (List.range a).reverse.find? s.runnable with
    | some r => some r
    | none => ((List.range 16).filter (a < ·)).find? s.runnable

/-- The rung an entry to Sensing takes without a pending switch (R521). -/
def State.entryRung (s : State) : Option Nat := s.rungFor (s.og 0x240001)

/-- The highest runnable rung at or below r (R55): what a switch to rung r takes. -/
def State.stepDown (s : State) (r : Nat) : Option Nat := (List.range (r + 1)).reverse.find? s.runnable

/-- The rung the next entry takes (R521): by a pending switch's rung, else by the active one. A chain switch takes only once it
is committed (R61). -/
def State.takeRung (s : State) : Option Nat :=
  match s.lad.switch with
  | some w => if w.chain.isSome && w.commit.isNone then s.entryRung else s.rungFor w.rung
  | none => s.entryRung

/-- The plan the next entry to Sensing takes. -/
def State.entryPlan (s : State) : Option Plan := s.takeRung.bind s.rung

/-- The next boundary that begins a sweep, its instant and index: a held boundary begins none (R59, R413); outside Sensing the
sweep takes the held index (R13). -/
def State.comingSweep (s : State) : Nat × Nat :=
  match s.sw.realign with
  | some g => g
  | none => (s.sw.next, if s.pw.power = .sensing then (s.sw.lastIndex + 1) % 2 ^ 64 else s.og 0x220013)

/-- The plan in force for a new firing, or the active plan outside Sensing. -/
def State.planNow (s : State) : Option Plan := if s.lad.inForce.isSome then s.lad.inForce else s.activePlan

/-- Update the rung identifiers 0x2401 (R52) from the ladder; a rung still being reloaded reads 0 (R498). -/
def State.showRungs (s : State) : State :=
  let s := (List.range 16).foldl (fun s r =>
    s.os (okey 0x2401 (r + 1)) (if s.lad.reloading.contains r then 0
      else match s.rung r with | some pl => pl.ident | none => 0)) s
  s.os 0x240006 (match s.activePlan with | some pl => pl.ident | none => 0)

end Sys2Proof.Machine
end

