-- ==== Sys2Proof/Machine/Chestnut.lean ====
section
/-! DEFINITION. Coherent acquisition and pulse compression (06): the converter container, Chestnut's arithmetic to the
bit, taint, and the channel averager (R151). -/

namespace Sys2Proof.Machine

open Sys2Proof

/-! ## Samples (R125 to R128) -/

/-- The 12-bit sample of a container. -/
def sampleOf (c : BitVec 16) : Int := toI 12 (c.toNat / 16)

/-- A sample is over-range exactly at a full-scale value (R126). -/
def overRange (v : Int) : Bool := decide (v = 2047) || decide (v = -2048)

/-- The clamp of R79: +2047 for zero or positive, -2048 for negative. -/
def clampOver (v : Int) : Int := if 0 ≤ v then 2047 else -2048

/-- The four samples of an instant, X-I, X-Q, Y-I, Y-Q. -/
structure Samples where
  xi : Int
  xq : Int
  yi : Int
  yq : Int
  deriving DecidableEq, Repr

/-- The samples of one instant, clamped when the port's flag is forced. -/
def quadSamples (q : Quad) (forced : Bool) : Samples :=
  let f (c : BitVec 16) : Int := if forced then clampOver (sampleOf c) else sampleOf c
  ⟨f q.xi, f q.xq, f q.yi, f q.yq⟩

/-- The port over-range flag o[j] (R127). -/
def Samples.ovr (m : Samples) : Bool := overRange m.xi || overRange m.xq || overRange m.yi || overRange m.yq

/-- An instant lies in a span that forces the flag. -/
def inForced (spans : List (Nat × Option Nat × Nat)) (t : Int) : Bool :=
  spans.any fun (a, b, _) =>
    decide ((a : Int) ≤ t) && (match b with | some e => decide (t < (e : Int)) | none => true)

/-! ## Down-conversion and chip sums (R130, R131) -/

/-- The band index h of a slot: band centre times 32 ns. -/
def bandH (slots band : Nat) : Int := if slots = 8 then 2 * (band : Int) - 7 else 4 * (band : Int) - 6

def c16 : List Int := (List.range 16).map fun k => romCos 65536 k 16
def s16 : List Int := (List.range 16).map fun k => romSin 65536 k 16

/-- One sample mixed to zero frequency. -/
def mix (h : Int) (j : Nat) (xr xi : Int) : Int × Int :=
  let k := (h * j % 16).toNat
  let c := c16.getD k 0
  let sn := s16.getD k 0
  (rhe (xr * c + xi * sn) 11, rhe (xi * c - xr * sn) 11)

def addC (a b : Int × Int) : Int × Int := (a.1 + b.1, a.2 + b.2)
def subC (a b : Int × Int) : Int × Int := (a.1 - b.1, a.2 - b.2)

/-- Sum of spc consecutive mixed samples from n. -/
def chipSum (m : Array (Int × Int)) (spc n : Nat) : Int × Int :=
  (List.range spc).foldl (fun a i => addC a (m.getD (n + i) (0, 0))) (0, 0)

/-! ## The 1 024-point transform (R132) -/

/-- The ten bits of i reversed. -/
def rev10 (i : Nat) : Nat := (List.range 10).foldl (fun a k => 2 * a + i / 2 ^ k % 2) 0

/-- Twiddle w[k]. -/
def twiddle (k : Nat) : Int × Int := let (c, sn) := cosSin k 1024; (rdiv (2 ^ 22 * c) fxOne, rdiv (-(2 ^ 22) * sn) fxOne)

/-- The twiddle table, k = 0 to 511. -/
def twiddles : Array (Int × Int) := (Array.range 512).map twiddle

/-- One stage of butterflies of length len. -/
def stage (w a : Array (Int × Int)) (inv : Bool) (len : Nat) : Array (Int × Int) :=
  (Array.range 1024).map fun i =>
    let q := i % len
    let half := len / 2
    let lo := if q < half then i else i - half
    let hi := lo + half
    let wk := w.getD ((q % half) * (1024 / len)) (0, 0)
    let wi := if inv then -wk.2 else wk.2
    let b := a.getD hi (0, 0)
    let u := a.getD lo (0, 0)
    let t := (rhe (b.1 * wk.1 - b.2 * wi) 22, rhe (b.1 * wi + b.2 * wk.1) 22)
    let r := if q < half then addC u t else subC u t
    if inv then (rhe r.1 1, rhe r.2 1) else r

/-- `xform` (R132). -/
def xform (a : Array (Int × Int)) (inv : Bool) : Array (Int × Int) :=
  let w := twiddles
  [2, 4, 8, 16, 32, 64, 128, 256, 512, 1024].foldl (fun a len => stage w a inv len)
    ((Array.range 1024).map fun i => a.getD (rev10 i) (0, 0))

/-! ## Matched filtering (R133, R134) -/

/-- The reference spectrum U of a slot and variant, from the chip phases. -/
def refSpectrum (pl : Plan) (slot v : Nat) : Array (Int × Int) :=
  xform ((Array.range 1024).map fun c =>
    if c < pl.codeLen then
      let ph := pl.chipPhase slot v c
      (romCos 32767 ph 65536, romSin 32767 ph 65536)
    else (0, 0)) false

/-- One bin times the conjugate of U. -/
def filterBin (a u : Int × Int) : Int × Int :=
  (rhe (a.1 * u.1 + a.2 * u.2) 23, rhe (a.2 * u.1 - a.1 * u.2) 23)

/-- Block t of stream r: positions t·V to t·V + 1 023 of the chip sums, filtered. -/
def filterBlock (b : Array (Int × Int)) (nb spc r v t : Nat) (u : Array (Int × Int)) : Array (Int × Int) :=
  let a := xform ((Array.range 1024).map fun q =>
    let n := r + spc * (t * v + q)
    if n < nb then b.getD n (0, 0) else (0, 0)) false
  xform ((Array.range 1024).map fun k => filterBin (a.getD k (0, 0)) (u.getD k (0, 0))) true

/-- The outputs y[0] to y[N_w - 1] of one polarisation (R130 to R134). -/
def compress (pl : Plan) (slot : Nat) (u : Array (Int × Int)) (x : List (Int × Int)) : Array (Int × Int) :=
  let nw := pl.nw
  let nc := pl.nc
  let spc := pl.spc
  let h := bandH pl.slots (pl.band slot)
  let m := ((x.take (nw + nc - 1)).zipIdx.map fun (z, j) => mix h j z.1 z.2).toArray
  let nb := nw + nc - spc
  let b := (Array.range nb).map (chipSum m spc)
  let v := 1025 - pl.codeLen
  let blocks := ceilDiv (ceilDiv nw spc) v
  let streams : Array (Array (Array (Int × Int))) :=
    (Array.range spc).map fun r => (Array.range blocks).map fun t => filterBlock b nb spc r v t u
  (Array.range nw).map fun n =>
    let r := n % spc
    let i := n / spc
    let y := ((streams.getD r #[]).getD (i / v) #[]).getD (i % v) (0, 0)
    (satS 24 y.1, satS 24 y.2)

/-! ## Phase and amplitude (R135) -/

def atnTable : List Int := (List.range 24).map atn

/-- One CORDIC iteration. -/
def cordicStep (st : Int × Int × Int) (i : Nat) : Int × Int × Int :=
  let (x, y, z) := st
  let dx := rhe y i
  let dy := rhe x i
  let a := atnTable.getD i 0
  if 0 ≤ y then (x + dx, y - dy, z + a) else (x - dx, y + dy, z - a)

/-- `cordic` (R135): phase, amplitude, amplitude saturated. -/
def cordic (yr yi : Int) (ash : Nat) : Int × Nat × Bool :=
  if yr = 0 ∧ yi = 0 then (0, 0, false)
  else
    let x0 := yr * 8
    let y0 := yi * 8
    let st : Int × Int × Int :=
      if x0 < 0 then (-x0, -y0, if 0 ≤ y0 then 2 ^ 27 else -(2 ^ 27)) else (x0, y0, 0)
    let (x, _, z) := (List.range 24).foldl cordicStep st
    let ph := rhe z 4
    let ph := if 2 ^ 23 ≤ ph then ph - 2 ^ 24 else ph
    let ph := if ph < -(2 ^ 23) then ph + 2 ^ 24 else ph
    let amp := rhe (x * 39797) (19 + ash)
    (ph, (min amp 65535).toNat, decide (65535 < amp))

/-! ## Elements, taint and the channel averager (R137 to R142, R151) -/

/-- Running count of set flags: entry k counts the flags before k. -/
def prefixCount (o : List Bool) : Array Nat :=
  (o.foldl (fun (st : Nat × Array Nat) b =>
    let n := st.1 + (if b then 1 else 0)
    (n, st.2.push n)) (0, #[0])).2

/-- Output n is tainted: some flag within one code length (R141). The flags are listed from j = -N_c. -/
def tainted (pre : Array Nat) (nc n : Nat) : Bool :=
  decide (pre.getD n 0 < pre.getD (min (n + 2 * nc + 1) (pre.size - 1)) 0)

/-- The elements of one polarisation (Table 6-5). -/
def elements (y : Array (Int × Int)) (pre : Array Nat) (nc ash : Nat) (missing : Bool) : List Elem :=
  y.toList.zipIdx.map fun (v, n) =>
    let (ph, amp, sat) := cordic v.1 v.2 ash
    ⟨v.1, v.2, ph, amp, (if sat then 4 else 0) + (if missing then 2 else 0) + (if tainted pre nc n then 1 else 0),
      n % 65536⟩

/-- The 16 bytes of an element (Table 6-5). -/
def Elem.bytes (e : Elem) : List Byte :=
  le 4 (toU 24 e.i * 256 + e.flags) ++ le 4 (toU 24 e.q * 256) ++ le 4 (toU 24 e.ph * 256) ++ le 2 e.amp ++ le 2 e.index

/-- ceil(log2 k), 0 for k = 1 (R151). -/
def clog2 (k : Nat) : Nat := if k ≤ 1 then 0 else Nat.log2 (k - 1) + 1

/-- The channel element c of one polarisation from its k elements (R151, Table 7-2). -/
def channelElem (es : List Elem) (k ash c : Nat) : Elem :=
  let part := (es.drop (c * k)).take k
  let cr := satS 24 (rhe (sumI (part.map (·.i))) (clog2 k))
  let ci := satS 24 (rhe (sumI (part.map (·.q))) (clog2 k))
  let (ph, amp, sat) := cordic cr ci ash
  ⟨cr, ci, ph, amp, (if sat then 4 else 0) + (if part.any fun e => bit e.flags 1 then 2 else 0) +
    (if part.any fun e => bit e.flags 0 then 1 else 0), c % 65536⟩

/-- The parameters a sweep boundary fixed for port p. -/
def Flight.param (f : Flight) (p : Nat) : PortParams := f.params.getD p ⟨0, 0, 0, 0, 0, 0, 0, 0⟩

/-- A sweep in flight by index. -/
def State.flight (s : State) (n : Nat) : Option Flight := s.sw.flights.find? fun f => decide (f.index = n)

/-- Everything Chestnut and the averager make of one firing of one port. -/
def chestnut (f : Flight) (port slot : Nat) (smp : List Samples) : FiringOut × Nat × Nat :=
  let pl := f.plan
  let nc := pl.nc
  let o := smp.map Samples.ovr
  let pre := prefixCount o
  let u := refSpectrum pl slot (f.index % max 1 pl.variants)
  let body := smp.drop nc
  let ash := (f.param port).ash
  let missing := f.suppressed.contains slot
  let x := elements (compress pl slot u (body.map fun m => (m.xi, m.xq))) pre nc ash missing
  let y := elements (compress pl slot u (body.map fun m => (m.yi, m.yq))) pre nc ash missing
  let chans := List.range (pl.chans port)
  (⟨port, f.index, f.ord, slot, x, y, chans.map (channelElem x (pl.perChan port) ash),
     chans.map (channelElem y (pl.perChan port) ash)⟩,
    ((o.drop nc).take pl.nw).countP id, x.countP fun e => bit e.flags 0)

end Sys2Proof.Machine
end

