-- ==== Sys2Proof/Machine/Optics.lean ====
section
/-! DEFINITION. The optical front end (04): bias loops, port optical states, seed monitor, trip and input limit. Errors of
a bias measurement are hundredths of a degree, powers hundredths of dBm. -/

namespace Sys2Proof.Machine

open Sys2Proof

/-! ## Shared operations -/

def State.po (s : State) (p : Nat) : PortOptics :=
  s.opt.ports.getD p PortOptics.blank

def State.setPort (s : State) (p : Nat) (f : PortOptics → PortOptics) : State :=
  { s with opt := { s.opt with ports := modAt s.opt.ports p f } }

def PortOptics.anyLoop (po : PortOptics) (code : Nat) : Bool := po.loops.any fun l => l.code == code

/-- 0x2800:07 (R86): gate, parent phase, Q child, I child. -/
def PortOptics.loopWord (po : PortOptics) : Nat :=
  (po.loops.getD 0 ⟨0, 0, none, 0, 0⟩).code + 16 * (po.loops.getD 1 ⟨0, 0, none, 0, 0⟩).code +
    256 * (po.loops.getD 2 ⟨0, 0, none, 0, 0⟩).code + 4096 * (po.loops.getD 3 ⟨0, 0, none, 0, 0⟩).code

/-- The optical state of a port by the order of R90. -/
def PortOptics.state (po : PortOptics) (seedLow warm : Bool) : Nat :=
  if po.anyLoop 1 then 7
  else if po.tripped then 4
  else if po.anyLoop 5 then 5
  else if seedLow && po.live then 6
  else if po.starting then 1
  else if po.firing then 3
  else if po.live && warm then 2
  else 0

/-- Ready holds the photonic domain warm (R420), or an activation pauses Sensing with the domain left on (R454). -/
def State.heldWarm (s : State) : Bool :=
  s.pw.photonic && decide (s.pw.power = .ready) && s.pw.entry.isNone && (decide (s.og 0x210011 = 1) || s.up.pausing)

/-- Put the loop states and optical states of the ports into their objects. -/
def State.showOptics (s : State) : State :=
  s.ports.foldl (fun s p =>
    let po := s.po p
    (s.os (pk 0x280007 p) po.loopWord).os (pk 0x280001 p) (po.state s.opt.seedLow s.heldWarm)) s

/-- A loop is brought up (Table 4-6, R92): one that held or ran goes on from its set point, another from the stored one. It
acquires, or holds while the seed is low, until the limit of its bring-up. -/
def Loop.acquire (l : Loop) (seedLow : Bool) (stored : Int) (limit : Nat) : Loop :=
  { l with code := if seedLow then 4 else 2, run := 0, deadline := some limit
           setPoint := if 2 ≤ l.code ∧ l.code ≤ 4 then l.setPoint else stored }

/-- The stored set point of a loop (R89). -/
def State.storedSet (s : State) (p i : Nat) : Int := (s.opt.stored.getD p []).getD i 0

/-- Bring ports up: sections powered, gates closed, loops acquiring until the limit of the entry, the prepare or the warm-up
(Table 4-9, R92, R93, R420). -/
def State.bringUp (s : State) (ports : List Nat) (limit : Nat) : State :=
  let s := ports.foldl (fun s p =>
    if s.portOn p then
      s.setPort p fun po =>
        { po with live := true, starting := true, darkAfter := none, limit := some limit
                  loops := (List.range 4).map fun i =>
                    (po.loops.getD i ⟨0, 0, none, 0, 0⟩).acquire s.opt.seedLow (s.storedSet p i) limit }
    else s) s
  s.showOptics

/-- The loops of a port go Off and its sections lose power (R65). -/
def PortOptics.powerDown (po : PortOptics) : PortOptics :=
  { po with live := false, starting := false, firing := false, biasClosed := false, darkAfter := none, limit := none
            loops := po.loops.map fun l => { l with code := 0, run := 0, deadline := none } }

/-- The photonic domain powers up: the seed-low condition starts clear (R69). -/
def State.photonicOn (s : State) : State :=
  { s with pw := { s.pw with photonic := true }, opt := { s.opt with seedLow := false } }

/-- The seed-low condition ends for the spans of R204. -/
def Optics.closeSeed (o : Optics) (now : Nat) : Optics :=
  { o with seedSpans := o.seedSpans.map fun (a, b) => (a, some (b.getD now)) }

/-- The photonic domain powers down (R69, R420): no light anywhere, condition clear. -/
def State.photonicOff (s : State) : State :=
  let s := { s with opt := s.opt.closeSeed s.now }
  let s := { s with
    pw := { s.pw with photonic := false }
    opt := { s.opt with seedLow := false, seedDbm := -9999, ports := s.opt.ports.map PortOptics.powerDown } }
  (s.osI 16 0x28000B (-9999)).showOptics

/-- Ports the plan in hand uses and the variant enables. -/
def State.usedPorts (s : State) (pl : Plan) : List Nat := s.ports.filter pl.uses

/-- A loop that was acquiring or locked holds (R70, R94); under the limit of a bring-up it must still lock by that limit. -/
def Loop.hold (l : Loop) (limit : Option Nat) : Loop :=
  if l.code = 2 ∨ l.code = 3 then { l with code := 4, run := 0, deadline := limit } else l

/-- The loops of live ports that were acquiring or locked hold (R70, R94). -/
def State.holdLoops (s : State) : State :=
  let s := { s with opt := { s.opt with ports := s.opt.ports.map fun (po : PortOptics) =>
    if po.live then { po with loops := po.loops.map (Loop.hold · po.limit) } else po } }
  s.showOptics

/-- No port fires any more (R94): gates rest closed, and samples forced for a bias fault (R88) end. -/
def State.endFiring (s : State) : State :=
  { s with opt := { s.opt with ports := s.opt.ports.map fun (po : PortOptics) =>
    { po with firing := false, biasClosed := false
              forced := po.forced.map fun (a, b, k) => (a, if k = 2 then some (b.getD s.now) else b, k) } } }

/-- The bias-fault EMCY of a port (R87). -/
def State.biasEmcy (s : State) (p : Nat) : State := s.emcy 0x5030 p (s.po p).loopWord

/-- The entry is abandoned (Table 4-9, R92): the device stays in Ready and sends EMCY 0x5010 with detail 1. -/
def State.abandonEntry (s : State) : State :=
  let s := s.emcy 0x5010 1 (toU 32 s.opt.seedDbm)
  let s := { s with pw := { s.pw with entry := none } }
  let s := { s with opt := { s.opt with ports := s.opt.ports.map fun (po : PortOptics) =>
    { po with starting := false, limit := none } } }
  let s := if s.og 0x210011 = 1 then s.holdLoops else s.photonicOff
  s.transitionDone

/-- Ledger and availability causes borne by the sweep in progress (Table 21-6). -/
def State.cause (s : State) (c : Nat) : State :=
  if s.mg.causes.contains c then s else { s with mg := { s.mg with causes := s.mg.causes ++ [c] } }

/-- The gate-open interval of a firing in ns, code or DTS word (R73, R100). -/
def Plan.gateLen (pl : Plan) (dts : Bool) : Nat := (if dts then 10 * pl.dtsM else pl.chip * pl.codeLen) + 16

/-- The gate of a port follows the firings: it is live and fires, with no trip and no loop in Fault (R82, R88, R107). -/
def State.gateReady (s : State) (p : Nat) : Bool :=
  let po := s.po p
  po.live && po.firing && !po.tripped && !po.biasClosed

/-- The gate-open intervals of a port that the firings of sweeps in flight give, fired or still to come, and the one that opens
for slot 0 of the sweep about to begin (R73, R109, R110): from E − 8 ns to 8 ns after the last chip. A firing that its command
will suppress counts until that command (assumption log 77). -/
def State.gateSpans (s : State) (p : Nat) : List (Nat × Nat) :=
  if s.gateReady p = false then []
  else
    (s.sw.flights.filter fun f => f.plan.uses p).flatMap (fun f =>
      ((List.range f.plan.slots).filter fun k => decide (f.kinds.getD k 0 ≠ 2) && !f.suppressed.contains k).map fun k =>
        let a := f.start + k * f.plan.tick - 8
        (a, a + f.plan.gateLen (f.kinds.getD k 0 = 1))) ++
    match s.sw.choice with
    | some c => if c.gates.contains p then [(s.sw.next - 8, s.sw.next - 8 + c.gate)] else []
    | none => []

/-- The gate of a port is open at instant t (R73). -/
def State.gateOpenAt (s : State) (p t : Nat) : Bool := (s.gateSpans p).any fun (a, b) => decide (a ≤ t) && decide (t ≤ b)

/-- The probe-emission window (R112): the gate of some port is open. -/
def State.emitting (s : State) (t : Nat) : Bool := s.ports.any fun p => s.gateOpenAt p t

/-- Emission windows and blanking older than this concern no pass in progress. -/
def State.pipSince (s : State) : Nat :=
  min (if s.pip.run0 then s.pip.since0 else s.now) (if s.pip.run1 then s.pip.since1 else s.now) - 10000

/-- A firing opens the probe-emission window from an instant, for a length (R112). -/
def State.noteEmission (s : State) (a len : Nat) : State :=
  if s.ports.any s.gateReady then
    { s with pip := { s.pip with emits := (s.pip.emits.filter fun x => decide (s.pipSince ≤ x.2)) ++ [(a, a + len)] } }
  else s

/-- A gate has closed early: the emission window ends with the last open gate. -/
def State.cutEmission (s : State) : State :=
  if s.emitting s.now then s
  else { s with pip := { s.pip with emits := s.pip.emits.map fun x => (x.1, min x.2 s.now) } }

/-- A bias loop of a port may measure at instant t (R85): 100 ns clear of every opening and closing, in a closed interval of
1 µs or more. While the choice for the coming boundary is not fixed yet, the gate counts as opening there. -/
def State.measurable (s : State) (p t : Nat) : Bool :=
  let known := s.gateSpans p
  let spans := if s.sw.choice.isNone && (s.po p).firing && decide (s.pw.power = .sensing) && !s.pw.shutting
    then known ++ [(s.sw.next - 8, s.sw.next)] else known
  (spans.all fun (a, b) => decide (t + 100 ≤ a) || decide (b + 100 ≤ t)) &&
    spans.all fun x => spans.all fun y => decide (t < x.2) || decide (y.1 < t) || decide (x.2 + 1000 ≤ y.1)

/-! ## Commands -/

/-- A loop whose deadline has come while it acquires enters Fault (R87). So does one that holds under the limit of an entry or a
bring-up, because it is not Locked there (Table 4-9, R92, R420; DESIGN CHOICE against Table 4-6, assumption log 78). -/
def Loop.expire (l : Loop) (now : Nat) : Loop :=
  match l.deadline with
  | some d => if d ≤ now then { l with code := if l.code = 2 ∨ l.code = 4 then 5 else l.code, run := 0, deadline := none } else l
  | none => l

/-- Every loop of a port whose deadline has come (R87): one EMCY for the port if any entered Fault. -/
def State.expirePort (s : State) (p : Nat) : State :=
  let old := s.po p
  let s := s.setPort p fun po =>
    { po with loops := po.loops.map (Loop.expire · s.now), limit := po.limit.filter fun d => decide (s.now < d) }
  if (old.loops.map (Loop.expire · s.now)).map (·.code) = old.loops.map (·.code) then s else s.biasEmcy p

/-- A port of a warm-up in Ready whose loops all hold is no longer starting (R420). -/
def PortOptics.settle (po : PortOptics) : PortOptics :=
  if po.loops.all fun l => (l.code == 4 && l.deadline.isNone) || l.code == 5 then { po with starting := false } else po

/-- From the acceptance of an entry or the start of a bring-up to its acquisition limit (Table 4-9, R92, R93). -/
def acquireTime (warm : Bool) : Nat := if warm then 3000000 else 90000000

/-- ACQUISITION_DEADLINE (R87, Table 4-9, R92): loops still Acquiring enter Fault; an entry left without a port is
abandoned. -/
def execAcquisitionDeadline (t : Nat) (s : State) : Host.Outcome State Fault Refusal :=
  let s := (s.ports.foldl State.expirePort (s.at t))
  let s := if s.pw.entry.isNone ∧ s.pw.power = .ready then
      { s with opt := { s.opt with ports := s.opt.ports.map PortOptics.settle } } else s
  let s := s.showOptics
  match s.pw.entry, s.entryPlan with
  | some e, some pl =>
    if e.start + acquireTime e.warm ≤ s.now ∧ ((s.usedPorts pl).all fun p => (s.po p).anyLoop 5) = true then .next s.abandonEntry
    else .next s
  | _, _ => .next s

/-- The ports whose converters the device calibrates now (R80, R124): the used ports of an entry, or those that join during
prepare, once the acquisition limit has passed (Table 4-9, R92, R93), with the gate closed. -/
def State.calibrated (s : State) : List Nat :=
  let ports := match s.pw.entry, s.entryPlan, s.lad.switch with
    | some e, some pl, _ => if e.start + acquireTime e.warm ≤ s.now then s.usedPorts pl else []
    | none, _, some w => if w.prepared = false ∧ w.startAt + acquireTime false ≤ s.now then w.bringUp else []
    | _, _, _ => []
  ports.filter fun p => (s.po p).live && !s.gateOpenAt p s.now

/-- OFFSET_TRIM (R80, R124): what the calibration found on each converter of the ports it runs on. -/
def execOffsetTrim (t : Nat) (found : List (List Trim)) (s : State) : Host.Outcome State Fault Refusal :=
  let s := s.at t
  .next (s.calibrated.foldl (fun s p => s.setPort p fun po => { po with trims := found.getD p po.trims }) s)

/-- The input-limit threshold of a receiver gain range in hundredths of dBm (Table 4-5). -/
def inputLimit (range : Nat) : Int := if range = 1 then -1500 else -600

/-- INPUT_LIMIT_ASSERT (R79): a return peak above the threshold of the active range. The count rises, and every sample of the
port is over-range while the detector asserts, for `span` ns, and for 40 ns after it. -/
def execInputLimitAssert (t port : Nat) (excess : Excess) (s : State) : Host.Outcome State Fault Refusal :=
  let s := s.at t
  if s.portOn port = true ∧ inputLimit (s.og (pk 0x280003 port)) < excess.peak then
    .next ((s.setPort port fun po => { po with forced := po.forced ++ [(s.now, some (s.now + excess.span + 40), 0)] }).bump
      (pk 0x28000C port))
  else .next s

/-- The latest sweep that began by t + 8 ns. -/
def State.sweepBy (s : State) (t : Nat) : Nat :=
  match (s.sw.flights.filter fun f => decide (f.start ≤ t + 8)).reverse with
  | f :: _ => f.index
  | [] => s.sw.lastIndex

/-- The sweep whose firing holds the gate open at t: the one about to begin in the 8 ns before its boundary. -/
def State.sweepAt (s : State) (t : Nat) : Nat :=
  match s.sw.choice with
  | some c => if s.sw.next ≤ t + 8 then c.index else s.sweepBy t
  | none => s.sweepBy t

/-- REFLECTION_TRIP (R82): a peak above the trip level with the gate open trips the port. -/
def execReflectionTrip (t port : Nat) (peak : Int) (s : State) : Host.Outcome State Fault Refusal :=
  let s := s.at t
  if s.gateOpenAt port s.now = true ∧ 10 * s.ogI 16 (pk 0x280004 port) < peak then
    let n := s.sweepAt s.now
    let s := s.setPort port fun po => { po with tripped := true, forced := po.forced ++ [(s.now, none, 1)] }
    let s := s.cutEmission.bump (pk 0x280005 port)
    let s := s.emcy 0x5020 port n
    let s := s.event 0x0003 0 (byte port :: rep 7 0 ++ le 8 n)
    .next (s.cause 8).showOptics
  else .next s

/-- The q15 body of a seed event (Table 13-6). -/
def seedBody (set : Nat) (dbm : Int) : List Byte := [byte set, 0] ++ le 2 (toU 16 dbm)

/-- SEED_LOW_SET (R69, R70). -/
def execSeedLowSet (t : Nat) (dbm : Int) (s : State) : Host.Outcome State Fault Refusal :=
  let s := s.at t
  if s.pw.photonic = true ∧ s.opt.seedLow = false ∧ dbm < 800 then
    let s := { s with opt := { s.opt with seedLow := true, seedDbm := dbm, seedSpans := s.opt.seedSpans ++ [(s.now, none)] } }
    let s := (s.osI 16 0x28000B dbm).holdLoops
    let s := s.emcy 0x5010 0 (toU 32 dbm)
    .next ((s.event 0x0002 1 (seedBody 1 dbm)).cause 8)
  else .next s

/-- SEED_LOW_CLEAR (R69, R70): holding loops resume acquisition, but for a Ready held warm. -/
def execSeedLowClear (t : Nat) (dbm : Int) (s : State) : Host.Outcome State Fault Refusal :=
  let s := s.at t
  if s.pw.photonic = true ∧ s.opt.seedLow = true ∧ 900 < dbm then
    let s := { s with opt := { s.opt.closeSeed s.now with seedLow := false, seedDbm := dbm } }
    let s := s.osI 16 0x28000B dbm
    let resume (po : PortOptics) : PortOptics :=
      if po.live ∧ (s.pw.power = .sensing ∨ s.pw.entry.isSome ∨ po.starting) then
        { po with loops := po.loops.map fun l =>
            if l.code = 4 then
              { l with code := 2, run := 0, deadline := some (l.deadline.getD (s.now + 100000000)) } else l }
      else po
    let s := { s with opt := { s.opt with ports := s.opt.ports.map resume } }
    .next (s.event 0x0002 1 (seedBody 0 dbm)).showOptics
  else .next s

/-- A loop after one measurement (Table 4-6). `warm`: Ready held warm, where a loop that locks holds; a loop that stays in Holding
keeps its set point, and one that is Off, Searching or in Fault is not measured. `limit` is that of the port's bring-up: a loop
that acquires again under it keeps it (R87, Table 4-9). -/
def Loop.measure (l : Loop) (now : Nat) (err : Int) (set : Int) (atEnd seedLow warm : Bool) (limit : Option Nat) : Loop :=
  let small := decide (-100 ≤ err ∧ err ≤ 100)
  if l.code = 0 ∨ l.code = 1 ∨ l.code = 5 ∨ (l.code = 4 ∧ (seedLow ∨ warm)) then l
  else
    let l := { l with lastMeas := now, setPoint := set }
    if atEnd then { l with code := 5, run := 0, deadline := none }
    else if l.code = 2 then
      if small then
        if 64 ≤ l.run + 1 then { l with code := if warm then 4 else 3, run := 0, deadline := none }
        else { l with run := l.run + 1 }
      else { l with run := 0 }
    else if l.code = 3 then
      if err < -500 ∨ 500 < err then { l with code := 2, run := 0, deadline := some (limit.getD (now + 100000000)) } else l
    else { l with code := 2, run := if small then 1 else 0, deadline := some (l.deadline.getD (limit.getD (now + 100000000))) }

/-- BIAS_MEASUREMENT (R85 to R88): taken where the gate lets a loop measure. -/
def execBiasMeasurement (t port loop : Nat) (err setPoint : Int) (atEnd : Bool) (s : State) :
    Host.Outcome State Fault Refusal :=
  let s := s.at t
  let po := s.po port
  if s.portOn port = true ∧ po.live = true ∧ loop < 4 ∧ s.measurable port s.now = true then
    let warm := decide (s.pw.power = .ready) && s.pw.entry.isNone
    let old := po.loops.getD loop ⟨0, 0, none, 0, 0⟩
    let new := old.measure s.now err setPoint atEnd s.opt.seedLow warm po.limit
    let s := s.setPort port fun po =>
      let po := { po with loops := modAt po.loops loop fun _ => new }
      if warm then po.settle else po
    let s := if new.code = 5 ∧ old.code ≠ 5 then s.biasEmcy port else s
    .next s.showOptics
  else .next s

/-- MEASUREMENT_TIMEOUT (Table 4-6): Locked for 1 s without a measurement becomes Holding. -/
def execMeasurementTimeout (t port loop : Nat) (s : State) : Host.Outcome State Fault Refusal :=
  let s := s.at t
  let l := (s.po port).loops.getD loop ⟨0, 0, none, 0, 0⟩
  if l.code = 3 ∧ l.lastMeas + 1000000000 ≤ s.now then
    .next (s.setPort port fun po => { po with loops := modAt po.loops loop fun l => l.hold po.limit }).showOptics
  else .next s

/-- The effect of a write to 0x2000:08 (R89): the named ports search. -/
def biasSearch (mask : Nat) (s : State) : Except Nat State :=
  require (decide (mask &&& s.portMask = mask)) 0x06090030 <|
    let s := s.os 0x200008 mask
    let s := (s.ports.filter (bit mask)).foldl (fun s p => s.setPort p fun po =>
      { po with loops := (List.range 4).map fun i =>
          { po.loops.getD i ⟨0, 0, none, 0, 0⟩ with code := 1, run := 0, deadline := none } }) s
    .ok (s.showOptics.startLong 3 20000 mask [])

/-- BIAS_SEARCH (R89). -/
def execBiasSearch (t c mask : Nat) (s : State) : Host.Outcome State Fault Refusal :=
  .next ((s.at t).hostWrite c 0x2000 8 false (le 1 mask) (biasSearch (mask % 256)))

/-- The check word of the record of set points (R89): CRC-32C over the set points as words in order of port and loop (DESIGN CHOICE,
assumption log 79). -/
def biasCheck (sets : List (List Int)) : Nat := crc32c (sets.flatMap fun l => l.flatMap fun v => le 4 (toU 32 v))

/-- The record of set points in the calibration area with its check word. -/
def State.storeSets (s : State) (sets : List (List Int)) : State :=
  { s with opt := { s.opt with stored := sets, check := biasCheck sets } }

/-- The end of a bias search (R89): set points found by port, an empty list where the port failed. The record is
written only when every named port succeeded; ports that failed read Fault, the others hold or go Off. -/
def State.endBiasSearch (s : State) (mask : Nat) (found : List (List Int)) (flashOk : Bool) : Nat × State :=
  let named := s.ports.filter (bit mask)
  let good (p : Nat) : Bool := decide ((found.getD p []).length = 4)
  let ok := named.all good && flashOk
  let s := named.foldl (fun s p => s.setPort p fun po =>
    { po with loops := po.loops.map fun l =>
        { l with code := if good p then (if po.live then 4 else 0) else 5 } }) s
  let merged := (List.range 4).map fun p => (if bit mask p = true then found.getD p [] else s.opt.stored.getD p [])
  let s := if ok then s.storeSets merged else s
  (if ok then 0 else 1, s.showOptics)

/-- DARK_PORT_POWER_DOWN (R39): once the last sweep of the old plan has completed. -/
def execDarkPortPowerDown (t port : Nat) (s : State) : Host.Outcome State Fault Refusal :=
  let s := s.at t
  match (s.po port).darkAfter with
  | some n =>
    if (s.sw.flights.any fun f => decide (f.ord ≤ n)) = true then .next s
    else .next (s.setPort port PortOptics.powerDown).showOptics
  | none => .next s

/-- Holding the photonic domain warm from Ready (R420): the domain powers up and the active plan's ports come up. -/
def State.warmUp (s : State) : State :=
  let s := s.photonicOn
  match s.activePlan with
  | some pl => s.bringUp (s.usedPorts pl) (s.now + acquireTime false)
  | none => s

end Sys2Proof.Machine
end

