-- ==== Sys2Proof/Machine/Queues.lean ====
section
/-! DEFINITION. Output queues and the predictive stream code (13): offering a stream's records, the commands on the
queues, and what a take does to them (R520). -/

namespace Sys2Proof.Machine

open Sys2Proof

/-! ## The predictive code (R307 to R311) -/

/-- The median-edge predictor: neighbours a, b, c, whether j = 0, whether a previous row exists (R308). -/
def predict (first haveprev : Bool) (a b c : Int) : Int :=
  if first && !haveprev then 0
  else
    let (a, c) := if first then (b, b) else (a, c)
    let (b, c) := if haveprev then (b, c) else (a, a)
    if max a b ≤ c then min a b
    else if c ≤ min a b then max a b
    else a + b - c

/-- u of a residue (R309). -/
def zigzag (e : Int) : Nat := if 0 ≤ e then (2 * e).toNat else (-2 * e - 1).toNat

/-- The smallest k from k0 with Nc·2^k >= A, at most w (R310). -/
def kparam (a nc : Nat) : Nat → Nat → Nat
  | 0, k => k
  | fuel + 1, k => if a ≤ nc * 2 ^ k then k else kparam a nc fuel (k + 1)

/-- n low bits of u, most significant first. -/
def msbBits : Nat → Nat → List Bool
  | 0, _ => []
  | n + 1, u => bit u n :: msbBits n u

/-- The code word of u with parameter k at width w (R309). -/
def codeWord (u k w : Nat) : List Bool :=
  if u / 2 ^ k < 32 then rep (u / 2 ^ k) true ++ [false] ++ msbBits k u else rep 32 true ++ msbBits w u

/-- A column's state after u (R310). -/
def colUpdate (c : Nat × Nat) (u : Nat) : Nat × Nat :=
  let a := c.1 + u
  let n := c.2 + 1
  if n = 64 then (a / 2, 32) else (a, n)

/-- Code one row: the code words in order and the columns after it. -/
def codeRow (w : Nat) (prev : List Int) (haveprev : Bool) :
    Nat → Int → List Int → List (Nat × Nat) → List (List Bool) × List (Nat × Nat)
  | _, _, [], cols => ([], cols)
  | j, left, x :: xs, cols =>
    let b := prev.getD j 0
    let c := if j = 0 then 0 else prev.getD (j - 1) 0
    let e := wrapS w (x - predict (decide (j = 0)) haveprev left b c)
    let u := zigzag e
    let col := cols.getD 0 (16, 1)
    let (ws, rest) := codeRow w prev haveprev (j + 1) x xs (cols.drop 1)
    (codeWord u (kparam col.1 col.2 w 0) w :: ws, colUpdate col u :: rest)

/-- Code the rows of a record: the code words of each row. `have_` is the context's, the same for every row (R308). -/
def codeRows (w : Nat) : List Int → Bool → List (List Int) → List (Nat × Nat) →
    List (List (List Bool)) × List (Nat × Nat) × List Int
  | prev, _, [], cols => ([], cols, prev)
  | prev, have_, r :: rs, cols =>
    let (ws, cols) := codeRow w prev have_ 0 0 r cols
    let (ws', cols, last) := codeRows w r have_ rs cols
    (ws :: ws', cols, last)

/-- The n columns of an array of rows one after another: payload order (R188, R308). -/
def byColumn {α : Type} : Nat → List (List α) → List α
  | 0, _ => []
  | n + 1, rows => rows.filterMap List.head? ++ byColumn n (rows.map List.tail)

/-- Payload order of an array whose rows are equally long. -/
def payloadOrder {α : Type} (rows : List (List α)) : List α := byColumn (rows.getD 0 []).length rows

/-- The byte of up to eight bits, from bit 7 down. -/
def bitsByte (l : List Bool) : Byte := byte ((List.range 8).foldl (fun a i => 2 * a + (if l.getD i false then 1 else 0)) 0)

def packBits : Nat → List Bool → List Byte
  | 0, _ => []
  | n + 1, l => bitsByte l :: packBits n (l.drop 8)

/-- A chunk: the word n, then ceil(n / 32) words of code bits (R311). -/
def chunkBytes (l : List Bool) : List Byte := le 4 l.length ++ packBits (4 * ceilDiv l.length 32) l

/-- Cut code words into chunks of at most cap bits; no word spans two. -/
def chunks (cap : Nat) : List Bool → List (List Bool) → List Byte
  | cur, [] => if cur.isEmpty then [] else chunkBytes cur
  | cur, w :: ws => if cap < cur.length + w.length then chunkBytes cur ++ chunks cap w ws else chunks cap (cur ++ w) ws

/-- A context at a restart: columns at (16, 1), no previous row (R310). -/
def PCtx.restarted (c : PCtx) : PCtx := { c with prev := [], have_ := false, cols := [], since := 0, restart := false }

/-- The literal bytes of values, padded to a multiple of 4 (Tables 7-5 and R188). -/
def literal (width : Nat) (rows : List (List Int)) : List Byte :=
  padTo 4 ((payloadOrder rows).flatMap fun v => le width (toU (8 * width) v))

/-! ## Decoding (R314) -/

/-- The code bits of a coded section, chunk after chunk. -/
def unchunk : Nat → List Byte → List Bool
  | 0, _ => []
  | _, [] => []
  | fuel + 1, b =>
    let n := unle (b.take 4)
    let m := 4 * ceilDiv n 32
    (((b.drop 4).take m).flatMap fun x => msbBits 8 x.toNat).take n ++ unchunk fuel (b.drop (4 + m))

/-- n bits as a number, most significant first, and what follows. -/
def readBits : Nat → Nat → List Bool → Nat × List Bool
  | 0, v, l => (v, l)
  | n + 1, v, l => readBits n (2 * v + if l.headD false then 1 else 0) l.tail

/-- One code word with parameter k at width w, after q one bits. -/
def readCode (k w : Nat) : Nat → List Bool → Nat × List Bool
  | 0, l => readBits w 0 l
  | fuel + 1, true :: l => readCode k w fuel l
  | fuel + 1, l =>
    let (v, rest) := readBits k 0 l.tail
    ((31 - fuel) * 2 ^ k + v, rest)

/-- The residue of u (R314). -/
def unzigzag (u : Nat) : Int := if u % 2 = 1 then -((u + 1) / 2 : Nat) else (u / 2 : Nat)

/-- The values of one column from its code words: `left` holds the column before it, `up` and `ul` the neighbours above. -/
def decodeColumn (w : Nat) (first haveprev : Bool) : Nat → List Int → Int → Int → Nat × Nat → List Bool → List Int × List Bool
  | 0, _, _, _, _, l => ([], l)
  | n + 1, left, up, ul, col, l =>
    let a := left.headD 0
    let (u, l) := readCode (kparam col.1 col.2 w 0) w 32 l
    let x := wrapS w (predict first haveprev a up ul + unzigzag u)
    let (xs, l) := decodeColumn w first haveprev n left.tail x a (colUpdate col u) l
    (x :: xs, l)

/-- The columns of a record of n rows, in payload order. -/
def decodeColumns (w n : Nat) (haveprev : Bool) (prev : List Int) (cols : List (Nat × Nat)) :
    Nat → Nat → List Int → List Bool → List Int
  | 0, _, _, _ => []
  | m + 1, j, left, l =>
    let up := prev.getD j 0
    let ul := if j = 0 then 0 else prev.getD (j - 1) 0
    let (xs, l) := decodeColumn w (decide (j = 0)) haveprev n left up ul (cols.getD j (16, 1)) l
    xs ++ decodeColumns w n haveprev prev cols m (j + 1) xs l

/-- The values of a coded section of n rows of m columns in a context, in payload order, as the host decodes them. -/
def decodeValues (w n m : Nat) (c : PCtx) (b : List Byte) : List Int :=
  decodeColumns w n c.have_ c.prev c.cols m 0 [] (unchunk b.length b)

/-- A record as Almond hands it on: header flags, payload, the context after it, and whether its verification failed. -/
structure Coded where
  flags : Nat
  payload : List Byte
  ctx : PCtx
  fellBack : Bool
  deriving DecidableEq, Repr

/-- What Almond makes of a record of a stream (R312 to R314). A coded record that does not decode to its input, or whose code an
uncorrectable error upset, leaves literal, and the next one restarts. -/
def codeRecord (ctx : PCtx) (upset : Bool) (gen refresh chunkExp width : Nat) (head : List Byte) (rows : List (List Int))
    (flags : List Byte) : Coded :=
  let must := ctx.restart || decide (ctx.gen ≠ gen) || decide (refresh ≤ ctx.since)
  let c := if must then ctx.restarted else ctx
  let (ws, cols, last) := codeRows (8 * width) c.prev c.have_ rows c.cols
  let coded := chunks (8 * 2 ^ chunkExp - 32) [] (payloadOrder ws)
  let lit := literal width rows
  let after := { c with prev := last, have_ := true, cols := cols, since := c.since + 1, gen := gen }
  let hist := if must then 4 else 0
  if coded.length < lit.length then
    if !upset && decodeValues (8 * width) rows.length (rows.getD 0 []).length c coded == payloadOrder rows then
      ⟨hist + 1, head ++ coded ++ flags, after, false⟩
    else ⟨hist + 8, head ++ lit ++ flags, { after with restart := true }, true⟩
  else ⟨hist, head ++ lit ++ flags, after, false⟩

/-- The context of a record's first output, new ones waiting for a restart. -/
def State.pctx (s : State) (typ port first : Nat) : PCtx :=
  match s.qu.ctxs.find? fun c => decide (c.typ = typ) && decide (c.port = port) && decide (c.first = first) with
  | some c => c
  | none => ⟨typ, port, first, [], false, [], 0, true, 0⟩

def State.setPctx (s : State) (c : PCtx) : State :=
  { s with qu := { s.qu with ctxs :=
      (s.qu.ctxs.filter fun d => !(decide (d.typ = c.typ) && decide (d.port = c.port) && decide (d.first = c.first))) ++ [c] } }

/-- The contexts of the decimated records of a port, or all contexts, restart (R313). -/
def State.restartCtxs (s : State) (port : Option Nat) : State :=
  { s with qu := { s.qu with ctxs := s.qu.ctxs.map fun c =>
      if port.isNone || (decide (c.typ = 2) && decide (port = some c.port)) then { c with restart := true } else c } }

/-- Offer an acoustic or decimated record on its stream's queue, coded where the stream says so (R299, R312); `gen` is the
sweep of the latest chain reset or change of the stream map before the record (R313). -/
def State.offerStream (s : State) (pl : Plan) (e : Stream) (first sweep stamp width : Nat) (head : List Byte)
    (rows : List (List Int)) (flags : List Byte) (gen : Nat) : State :=
  let olen := (head ++ literal width rows ++ flags).length
  if e.coding = 1 then
    let c := codeRecord (s.pctx e.typ e.port first) s.al.upset gen (pl.qEntry e.queue 0x10 2) (pl.qEntry e.queue 7 1)
      width head rows flags
    let s := if c.fellBack then { s with al := { s.al with upset := false } }.count 84 else s
    let (ok, s) := s.offer e.queue
      { typ := e.typ, flags := c.flags, sweep := sweep, stamp := stamp, olen := olen, payload := c.payload }
    s.setPctx (if ok then c.ctx else { c.ctx with restart := true })
  else
    (s.offer e.queue
      { typ := e.typ, sweep := sweep, stamp := stamp, olen := olen, payload := head ++ literal width rows ++ flags }).2

/-! ## A take (R520) -/

/-- The queue settings a plan gives q0 to q12; an unused queue has capacity 0 and lane mask 0 (R300). Held records stay where
they are; a changed storage fills from its first byte. -/
def Queue.adopt (q : Queue) (pl : Plan) (i : Nat) (base : Option Nat) : Queue :=
  let cap := pl.qEntry i 0 4
  let storage := if cap = 0 then 0 else pl.qEntry i 4 1
  let banks := if cap = 0 ∨ storage ≠ 0 then 0 else pl.qEntry i 8 8
  let region := if storage = 1 then base else none
  { q with
    capKiB := cap, storage := storage, banks := banks, region := region
    cls := if cap = 0 then q.cls else pl.qEntry i 5 1
    chunk := pl.qEntry i 7 1
    refresh := pl.qEntry i 0x10 2
    pos := if q.capKiB = cap ∧ q.storage = storage ∧ q.banks = banks ∧ q.region = region then q.pos else 0 }

/-- Cashew banks that a plan gives to Hazel: schedule entries of instance i and open slots. -/
def Plan.hazelBanks (pl : Plan) : Nat :=
  let sched := (List.range 13).foldl (fun m i =>
    (List.range (pl.schedCount i)).foldl (fun m k => m ||| fld (pl.sec 0x20 i) (16 + 96 * k + 0x18) 8) m) 0
  (List.range (fld (pl.sec 0x21 0) 2 2)).foldl (fun m k => m ||| fld (pl.sec 0x21 0) (16 + 32 * k + 0x18) 8) sched

/-- A record of a queue that stands in a bank of a mask and whose first byte has not been framed, by its place in the queue. -/
def Queue.loses (q : Queue) (mask i : Nat) (r : Rec) : Bool := decide (r.banks &&& mask ≠ 0) && (decide (0 < i) || decide (q.framed = 0))

/-- Discard the records of queue q that stand in banks which go to Hazel and are not yet framed: overrun, refusals, mark (R520). -/
def State.discardUnframed (s : State) (q mask : Nat) : State :=
  let qq := s.queue q
  let left := (qq.recs.zipIdx.filter fun (r, i) => !qq.loses mask i r).map (·.1)
  let n := qq.recs.length - left.length
  if n = 0 then s
  else
    let s := s.setQueue q fun qq => { qq with recs := left, follows := true, latest := (0, 0) }
    (((s.osBit 0x400002 q true).pulse 9).count (36 + q) n).bump (okey (0x4010 + q) 6) n

/-- The queues at a take: capacity, class, storage and lane masks of the new plan; records held in a bank that goes to
Hazel are discarded (R295, R520). `base` is the plan's DRAM queue region. -/
def State.queuesTake (s : State) (base : Option Nat) (pl : Plan) : State :=
  (List.range 13).foldl (fun s q =>
    let lanes := s.og (okey (0x4010 + q) 5)
    let s := s.setQueue q fun qq =>
      let new := qq.adopt pl q base
      if new.capKiB = 0 && !qq.recs.isEmpty then { new with drainLanes := if qq.drainLanes = 0 then lanes else qq.drainLanes }
      else { new with drainLanes := 0 }
    let s := s.discardUnframed q pl.hazelBanks
    let cap := pl.qEntry q 0 4
    ((s.os (okey (0x4010 + q) 2) cap).os (okey (0x4010 + q) 3) (s.queue q).cls).os (okey (0x4010 + q) 5)
      (if cap = 0 then 0 else pl.qEntry q 6 1)) s

/-- Every queue empty, numbering at 0, no credit: entry to Doze discards, entry to Ready starts afresh (R291, R320). -/
def Queue.emptied (q : Queue) : Queue :=
  { q with recs := [], framed := 0, seq := 0, follows := false, frameSeq := 0, drainLanes := 0, latest := (0, 0) }

def State.emptyQueues (s : State) : State :=
  { s with qu := { s.qu with qs := s.qu.qs.map Queue.emptied } }

/-! ## Commands -/

/-- The effect of a write to 0x4000:03 (R292). -/
def overrunClear (mask : Nat) (s : State) : Except Nat State := .ok (s.os 0x400002 (clearBits (s.og 0x400002) mask))

/-- OVERRUN_CLEAR (R292). -/
def execOverrunClear (t c mask : Nat) (s : State) : Host.Outcome State Fault Refusal :=
  .next ((s.at t).hostWrite c 0x4000 3 false (le 2 mask) (overrunClear (mask % 65536)))

/-- STATUS_RECORD (R306): every 100 ms while a long operation runs. Its progress is the share of the stated maximum
that has elapsed (assumption log 13). -/
def execStatusRecord (t : Nat) (s : State) : Host.Outcome State Fault Refusal :=
  let s := s.at t
  match s.ctl.longOp with
  | none => .next s
  | some o =>
    let p := max o.progress (min 99 ((s.now - o.start) / 10000 / max 1 o.maximum))
    let s := { s with ctl := { s.ctl with longOp := some { o with progress := p } } }
    .next (s.os 0x200006 p).statusNow

end Sys2Proof.Machine
end

