-- ==== Sys2Proof/Machine/Dts.lean ====
section
/-! DEFINITION. Raman temperature sensing (09): the pulse schedule, Linseed's accumulation, the decode of a period, and DTS
records. -/

namespace Sys2Proof.Machine

open Sys2Proof

/-! ## Pulse schedule, section 0x0003 (Table 9-3) -/

def Plan.hasDts (pl : Plan) : Bool := pl.hasSec 3 0
/-- DTS slot s_d. -/
def Plan.dtsSlot (pl : Plan) : Nat := fld (pl.sec 3 0) 2 1
/-- Bins per point kd. -/
def Plan.kd (pl : Plan) : Nat := fld (pl.sec 3 0) 3 1
/-- Integration length in sweeps. -/
def Plan.dtsLen (pl : Plan) : Nat := fld (pl.sec 3 0) 4 4
/-- Raman range R_n. -/
def Plan.rn (pl : Plan) : Nat := fld (pl.sec 3 0) 8 4
/-- Pattern length G. -/
def Plan.patLen (pl : Plan) : Nat := fld (pl.sec 3 0) 12 2
/-- Pattern entry of the sweep j sweeps into its period (R197). -/
def Plan.patEntry (pl : Plan) (j : Nat) : Nat := fld (pl.sec 3 0) (16 + j % max 1 pl.patLen) 1
/-- Bin offset φ in ns (R200). -/
def Plan.phi (pl : Plan) : Nat := if pl.dtsSlot * pl.tick % 4 = 2 then 2 else 0

/-- The m-sequence of R115 by its recurrence, the latest bit first. -/
def mseqStep (deg tap : Nat) : Nat → List Nat → List Nat
  | 0, l => l
  | n + 1, l => mseqStep deg tap n (((l.getD (deg - 1 - tap) 0 + l.getD (deg - 1) 0) % 2) :: l)

/-- a[0] to a[m-1] (R115); the single 1 at M = 1. -/
def mseq (m : Nat) : List Nat :=
  if m = 1 then [1]
  else if m = 31 then (mseqStep 5 2 26 (rep 5 1)).reverse
  else (mseqStep 7 3 120 (rep 7 1)).reverse

/-- Bit b of row j of the simplex matrix. -/
def simplexBit (m j b : Nat) : Nat := if m = 1 then 1 else (mseq m).getD ((b + j) % m) 0

/-! ## Accumulation (R199 to R205) -/

def State.setLin (s : State) (f : Linseed → Linseed) : State := { s with lin := f s.lin }

/-- The period whose first sweep has an ordinal. -/
def State.period (s : State) (n : Nat) : Option Period := s.lin.periods.find? fun q => decide (q.ord = n)

def State.setPeriod (s : State) (n : Nat) (f : Period → Period) : State :=
  s.setLin fun l => { l with periods := l.periods.map fun q => if q.ord = n then f q else q }

/-- The period that accumulates. -/
def State.openPeriod (s : State) : Option Period := s.lin.periods.find? fun q => !q.ended

/-- 0x3000:01 of every port (Table 9-4). -/
def State.showDts (s : State) : State :=
  s.ports.foldl (fun s p =>
    let acc := s.lin.periods.any fun q => !q.ended && q.plan.uses p
    let dec := s.lin.periods.any fun q => q.ended && q.todo.contains p
    s.os (pk 0x300001 p) (if acc then (if dec then 2 else 1) else if dec then 3 else 0)) s

/-- A span meets the interval from x to y. -/
def meets (a : Nat) (b : Option Nat) (x y : Nat) : Bool := decide (a ≤ y) && decide (x ≤ b.getD y)

/-- Linseed discards a shot of port p (R204). -/
def State.shotLost (s : State) (pl : Plan) (sh : Shot) (p : Nat) : Bool :=
  let x := sh.e - pl.period
  let y := sh.e + pl.window
  sh.drop || (s.lin.suppressed.any fun t => decide (x ≤ t ∧ t ≤ y)) ||
    ((s.po p).forced.any fun (a, b, k) => decide (k ≠ 0) && meets a b x y) ||
    s.opt.seedSpans.any fun (a, b) => meets a b x y

/-- A Raman sample and its over-range (R193, R205). -/
def ramanSample (w : Nat) : Int := toI 14 (w / 4 % 2 ^ 14)

def ramanOver (v : Int) : Bool := decide (v = 8191) || decide (v = -8192)

/-- Bins 0 to R_n - 1 of a channel of a shot. -/
def shotBins (data : List Nat) (delta rn : Nat) : List Int := (List.range rn).map fun i => ramanSample (data.getD (i + delta) 0)

/-- Add bin lists; an empty list stands for zeros. -/
def addBins (a b : List Int) : List Int := if a.isEmpty then b else if b.isEmpty then a else List.zipWith (· + ·) a b

def orBins (a b : List Bool) : List Bool := if a.isEmpty then b else if b.isEmpty then a else List.zipWith (· || ·) a b

/-- The block that is being filled is complete. -/
def State.closeBlock (s : State) : State :=
  match s.lin.block with
  | none => s
  | some b => s.setLin fun l => { l with block := none, full := l.full ++ [b] }

/-- Add the bins of the accepted ports to the block of their destination (R201). -/
def State.addShot (s : State) (sh : Shot) (ports : List Nat) (bins : List (List Int)) : State :=
  let s := match s.lin.block with
    | some b => if b.period = sh.period ∧ b.dest = sh.dest then s else s.closeBlock
    | none => s
  let b := s.lin.block.getD ⟨sh.period, sh.dest, 0, rep 4 0, rep 8 []⟩
  let b := { b with
    shots := b.shots + 1
    counts := b.counts.zipIdx.map fun (n, p) => if ports.contains p then n + 1 else n
    sums := b.sums.zipIdx.map fun (l, ch) => if ports.contains (ch / 2) then addBins l (bins.getD ch []) else l }
  let s := s.setLin fun l => { l with block := some b }
  if 4096 ≤ b.shots then s.closeBlock else s

/-- A shot whose window has closed: discarded or accumulated, port by port (R204, R205). -/
def State.settleShot (s : State) (sh : Shot) : State :=
  match s.period sh.period with
  | none => s
  | some q =>
    let used := s.usedPorts q.plan
    let lost := used.filter (s.shotLost q.plan sh)
    let ok := used.filter fun p => !lost.contains p
    let s := lost.foldl (fun s p =>
      ((s.bump (pk 0x30000E p)).countAt sh.sweep (28 + p)).setPeriod sh.period fun q =>
        { q with discarded := modAt q.discarded p fun _ => true }) s
    let bins := (List.range 8).map fun ch =>
      if ok.contains (ch / 2) then shotBins (sh.data.getD ch []) (q.delta.getD (ch / 2) 0) q.plan.rn else []
    let ovr := bins.map fun l => l.map ramanOver
    let s := ok.foldl (fun s p =>
      let n := ((ovr.getD (2 * p) []).countP id) + ((ovr.getD (2 * p + 1) []).countP id)
      (s.bump (pk 0x30000D p) n).countAt sh.sweep (32 + p) n) s
    let s := s.setPeriod sh.period fun q => { q with ovr := List.zipWith orBins q.ovr ovr }
    if ok.isEmpty then s else s.addShot sh ok bins

/-- Settle every shot whose window has closed by now. -/
def State.settleShots (s : State) : State :=
  let closed (sh : Shot) : Bool :=
    match s.period sh.period with
    | some q => decide (sh.e + q.plan.window ≤ s.now)
    | none => true
  let due := s.lin.shots.filter closed
  due.foldl State.settleShot (s.setLin fun l => { l with shots := l.shots.filter fun sh => !closed sh })

/-- A DTS firing (R195, R201, R204): its shot waits for its window to close; with another destination it ends the block. -/
def State.dtsShot (s : State) (f : Flight) (slot e : Nat) (raman : List (List Nat)) : State :=
  match s.openPeriod with
  | none => s
  | some q =>
    let busy := s.lin.periods.any fun o => o.ended && decide (o.group = q.group)
    let drop := busy || s.lin.discardNext || f.suppressed.contains slot
    let dest := if f.kinds.getD slot 0 = 2 then q.plan.dtsM else f.rows.getD slot 0
    let s := match s.lin.block with
      | some b => if b.period = q.ord ∧ b.dest = dest then s else s.closeBlock
      | none => s
    s.setLin fun l => { l with shots := l.shots ++ [⟨q.ord, f.index, e, dest, raman, drop⟩], discardNext := false }

/-- A period ends at a boundary, where the next sweep has or would have an ordinal (R199): short if before its length; the object
values of R210 are taken. -/
def State.endPeriod (s : State) (ord now : Nat) : State :=
  match s.openPeriod with
  | none => s
  | some q =>
    let vals := (List.range 4).map fun p => [3, 4, 5, 6, 7, 8, 9, 0xC].map fun i => s.og (pk (0x300000 + i) p)
    let s := s.setPeriod q.ord fun q =>
      { q with ended := true, sweeps := ord - q.ord, stop := now, vals := vals, todo := s.usedPorts q.plan }
    s.showDts

/-- A period begins at the boundary of a sweep (R199). -/
def State.beginPeriod (s : State) (f : Flight) : State :=
  if f.plan.hasDts = false then s
  else
    let group := match s.lin.periods.reverse with | q :: _ => 1 - q.group | [] => 0
    let m := f.plan.dtsM
    let q : Period :=
      { ord := f.ord, first := f.index, sweeps := 0, group := group, plan := f.plan, stamp := f.stamp, start := f.start, stop := 0
        ended := false, sets := rep (m + 1) (rep 8 []), shots := rep (m + 1) (rep 4 0), ovr := rep 8 [], memErr := rep 8 []
        delta := (List.range 4).map fun p => s.og (pk 0x300002 p), discarded := rep 4 false, changed := rep 4 false
        vals := [], todo := [] }
    (s.setLin fun l => { l with periods := l.periods ++ [q] }).showDts

/-- An RTD gave a valid conversion, which completed at an instant (R209); conversions before every period still to decode go. -/
def State.dtsTemp (s : State) (at_ rtd : Nat) (mk : Int) : State :=
  let since := (s.lin.periods.map (·.start)).foldl min s.now
  s.setLin fun l => { l with temps := (l.temps.filter fun x => decide (since ≤ x.1)) ++ [(at_, rtd, mk)] }

/-- A loss of a live domain discards the period in progress and everything of the periods before (R199). -/
def State.dtsDrop (s : State) : State :=
  (s.setLin fun l => { l with shots := [], block := none, full := [], periods := [], discardNext := false, suppressed := []
                              temps := [] }).showDts

/-- Add one block into its set (R202). -/
def State.addBlock (s : State) (b : LBlock) : State :=
  s.setPeriod b.period fun q =>
    { q with
      sets := modAt q.sets b.dest fun chs => List.zipWith addBins chs b.sums
      shots := modAt q.shots b.dest fun ns => List.zipWith (· + ·) ns b.counts }

/-- The last shot of an ended period has settled. -/
def State.periodDone (s : State) (q : Period) : Bool :=
  q.ended && !(s.lin.shots.any fun sh => decide (sh.period = q.ord)) &&
    !(s.sw.flights.any fun f => decide (q.ord ≤ f.ord ∧ f.ord < q.ord + q.sweeps))

/-- A stall kept a completed block from its add (R203): the add comes first, and the DTS firing whose bins wait for it is discarded
for every port, the one in flight or else the next. -/
def State.stallShot (s : State) : State :=
  s.setLin fun l => match l.shots.reverse with
    | sh :: r => { l with shots := r.reverse ++ [{ sh with drop := true }] }
    | [] => { l with discardNext := true }

/-- LINSEED_BLOCK_ADD (R201 to R203): the oldest completed block goes into its DRAM set; `stalled` tells that a stall kept it past
the bins of the next DTS firing. -/
def execLinseedBlockAdd (t : Nat) (stalled : Bool) (corrected : Nat) (s : State) : Host.Outcome State Fault Refusal :=
  let s := ((s.at t).dramFixed corrected).settleShots
  let ovr := match s.lin.block with
    | some b => (match s.period b.period with | some q => s.periodDone q | none => true)
    | none => false
  let s := if ovr then s.closeBlock else s
  match s.lin.full with
  | [] => .next s
  | b :: r =>
    let s := (s.setLin fun l => { l with full := r }).addBlock b
    .next (if stalled then s.stallShot else s)

/-! ## Decoding (R206 to R209) -/

/-- x[i] from the row sums and the background of one bin (R206). -/
def decodeBin (m : Nat) (a : List Nat) (rows : List (Int × Nat)) (ad : Int) (nd : Nat) : Int :=
  let md := rdiv (ad * 2 ^ 16) nd
  let sum := (List.zip a rows).foldl (fun acc (b, r) =>
    let mj := rdiv (r.1 * 2 ^ 16) r.2
    if b = 1 then acc + mj else acc - mj) (-md)
  satS 32 (rdiv (2 * sum) (m + 1))

/-- The decoded bins of a channel. -/
def Period.bins (q : Period) (ch : Nat) : List Int :=
  let m := q.plan.dtsM
  let a := mseq m
  let n (j : Nat) : Nat := (q.shots.getD j []).getD (ch / 2) 0
  let set (j : Nat) : List Int := (q.sets.getD j []).getD ch []
  (List.range q.plan.rn).map fun i =>
    decodeBin m a ((List.range m).map fun j => ((set j).getD i 0, n j)) ((set m).getD i 0) (n m)

/-- The points of a channel: the mean of kd bins (R206). -/
def points (kd : Nat) (x : List Int) : List Int :=
  (List.range (x.length / kd)).map fun q => rdiv (sumI ((x.drop (q * kd)).take kd)) kd

/-- The period is incomplete for a port: some count is 0. -/
def Period.incomplete (q : Period) (p : Nat) : Bool := q.shots.any fun l => decide (l.getD p 0 = 0)

/-- Differential loss to a point's centre (R208). -/
def zt (dal : Int) (kd q : Nat) : Int := rhe (dal * (2 * q * kd + kd - 1 : Nat)) 9

/-- The temperature of a point: t in mK, no signal, no temperature (R208). -/
def dtsTemperature (xas xst lnc z gamma : Int) : Int × Bool × Bool :=
  if xas ≤ 0 ∨ xst ≤ 0 then (0, true, false)
  else
    let dd := lnc - (lnfix xas.toNat - lnfix xst.toNat) - z
    let t := if 0 < dd then rdiv (gamma * 2 ^ 24) dd else 0
    if dd ≤ 0 ∨ 8388607 < t then (0, false, true) else (t, false, false)

/-- The mean of the valid conversions of the selected RTDs in a period (R209). -/
def refTemp (temps : List (Nat × Nat × Int)) (mask start stop : Nat) : Option Int :=
  let l := (temps.filter fun x => bit mask x.2.1 && decide (start ≤ x.1 ∧ x.1 < stop)).map fun x => x.2.2
  if l.isEmpty then none else some (rdiv (sumI l) l.length)

/-- One decoded point: flags and temperature, and the two signals. -/
structure DPoint where
  word : Nat
  xas : Int
  xst : Int
  memErr : Bool
  deriving DecidableEq, Repr

/-- What the decode of a port yields: lnc, t_ref, stale, the points. -/
structure DDecode where
  lnc : Int
  tref : Int
  stale : Bool
  pts : List DPoint
  deriving DecidableEq, Repr

/-- A bin of some span has its bit set. -/
def anyBit (l : List Bool) (first n : Nat) : Bool := ((l.drop first).take n).any id

/-- lnc is an INTEGER32 (Table 9-4): a sum beyond that range, for which the spec states no result, is the free value. -/
def fitLnc (v : Int) (free : Nat) : Int := if satS 32 v = v then v else toI 32 free

/-- Decode a port (R206 to R209); `lastLnc` is the last lnc used, `free` stands for an lnc beyond INTEGER32. -/
def Period.decode (q : Period) (p : Nat) (temps : List (Nat × Nat × Int)) (lastLnc : Int) (free : Nat) : DDecode :=
  let v := q.vals.getD p []
  let kd := q.plan.kd
  let first := v.getD 0 0
  let last := v.getD 1 0
  let gamma : Int := v.getD 3 0
  let dal := toI 32 (v.getD 4 0)
  let as_ := points kd (q.bins (2 * p))
  let st := points kd (q.bins (2 * p + 1))
  let ovr (i : Nat) : Bool := anyBit (q.ovr.getD (2 * p) []) (i * kd) kd || anyBit (q.ovr.getD (2 * p + 1) []) (i * kd) kd
  let err (i : Nat) : Bool := anyBit (q.memErr.getD (2 * p) []) (i * kd) kd || anyBit (q.memErr.getD (2 * p + 1) []) (i * kd) kd
  let xa (i : Nat) : Int := as_.getD i 0
  let xs (i : Nat) : Int := st.getD i 0
  let coil (i : Nat) : Bool :=
    decide (first ≤ i * kd ∧ i * kd + kd ≤ last + 1) && !ovr i && decide (0 < xa i) && decide (0 < xs i)
  let all := List.range (q.plan.rn / kd)
  let coils := all.filter coil
  let sumLr := sumI (coils.map fun i => lnfix (xa i).toNat - lnfix (xs i).toNat + zt dal kd i)
  let (lnc, tref, stale) : Int × Int × Bool :=
    if v.getD 5 0 = 1 then (toI 32 (v.getD 6 0), 0, false)
    else
      match refTemp temps (v.getD 2 0) q.start q.stop with
      | some t => if coils.isEmpty || decide (t ≤ 0) then (lastLnc, 0, true)
                  else (fitLnc (rdiv (gamma * 2 ^ 24) t + rdiv sumLr coils.length) free, t, false)
      | none => (lastLnc, 0, true)
  ⟨lnc, tref, stale, all.map fun i =>
    let (t, nosig, notemp) := dtsTemperature (xa i) (xs i) lnc (zt dal kd i) gamma
    ⟨toU 24 t * 256 + (if err i then 16 else 0) + (if coil i then 8 else 0) + (if notemp then 4 else 0) +
      (if nosig then 2 else 0) + (if ovr i then 1 else 0), xa i, xs i, err i⟩⟩

/-! ## Records (R211 to R213) -/

/-- The payload head (Table 9-5). -/
def dtsHead (q : Period) (p content first count flags : Nat) (lnc tref : Int) : List Byte :=
  let m := q.plan.dtsM
  [byte p, byte content, byte m, byte q.plan.kd] ++ le 4 first ++ le 2 count ++ le 2 flags ++ le 4 q.plan.ident ++
    le 8 q.first ++ le 4 q.sweeps ++ [byte q.plan.phi, byte (q.delta.getD p 0)] ++ le 2 0 ++
    le 4 (sumN ((q.shots.take m).map fun l => l.getD p 0)) ++ le 4 ((q.shots.getD m []).getD p 0) ++ le 4 (toU 32 lnc) ++
    le 4 (toU 32 tref)

def DPoint.bytes (d : DPoint) (content : Nat) : List Byte :=
  le 4 d.word ++ if content = 1 then le 4 (toU 32 d.xas) ++ le 4 (toU 32 d.xst) else []

/-- Record flags (Table 9-7). -/
def Period.flags (q : Period) (p : Nat) (memErr stale incomplete : Bool) : Nat :=
  (if (q.vals.getD p []).getD 5 0 = 1 then 64 else 0) + (if memErr then 32 else 0) + (if q.discarded.getD p false then 16 else 0) +
    (if q.changed.getD p false then 8 else 0) + (if stale then 4 else 0) + (if incomplete then 2 else 0) +
    (if q.sweeps < q.plan.dtsLen then 1 else 0)

/-- DTS_DECODE (R206 to R214): a port of the oldest ended period, once its shots have settled and been added. -/
def execDtsDecode (t port : Nat) (s : State) : Host.Outcome State Fault Refusal :=
  let s := (s.at t).settleShots
  match s.lin.periods with
  | [] => .next s
  | q :: _ =>
    let waiting := s.lin.full.any (fun b => decide (b.period = q.ord)) ||
      (match s.lin.block with | some b => decide (b.period = q.ord) | none => false)
    if s.periodDone q = true ∧ waiting = false ∧ q.todo.contains port = true then
      let inc := q.incomplete port
      let d := if inc then ⟨s.ogI 32 (pk 0x30000A port), 0, false, []⟩
               else q.decode port s.lin.temps (s.ogI 32 (pk 0x30000A port)) (s.draw (2 ^ 32)).1
      let content := (q.vals.getD port []).getD 7 0
      let flags := q.flags port (d.pts.any (·.memErr)) d.stale inc
      let send (s : State) (first : Nat) (part : List DPoint) : State :=
        match q.plan.queueOf 3 port with
        | none => s
        | some k =>
          let payload := dtsHead q port content first part.length flags d.lnc d.tref ++
            part.flatMap fun x => x.bytes content
          (s.offer k { typ := 3, sweep := q.first, stamp := q.stamp, olen := payload.length, payload := payload }).2
      let s := if inc then send s 0 []
        else (List.range (ceilDiv d.pts.length 8192)).foldl (fun s i => send s (8192 * i) ((d.pts.drop (8192 * i)).take 8192)) s
      let s := if inc then s
        else ((((s.draw (2 ^ 32)).2.osI 32 (pk 0x30000A port) d.lnc).osI 32 (pk 0x30000B port) d.tref).os (pk 0x30000F port) q.first)
      let s := s.setPeriod q.ord fun q => { q with todo := q.todo.filter (· ≠ port) }
      let s := s.setLin fun l => { l with periods := l.periods.filter fun q => !(q.ended && q.todo.isEmpty) }
      .next s.showDts
    else .next s

end Sys2Proof.Machine
end

