-- ==== Sys2Proof/Machine/Image.lean ====
section
/-! DEFINITION. The flash images (22): boot control (R450), image headers and their check (R448, R449) with SHA-256 and ECDSA
on the curve P-256 as their standards define them (PRESUMED, assumption log 20), and the kernel directory (R519). -/

namespace Sys2Proof.Machine

open Sys2Proof

def within (lo hi n : Nat) : Bool := decide (lo ≤ n) && decide (n ≤ hi)

/-- Every one of n bytes at an offset is zero. -/
def zeros (b : List Byte) (off n : Nat) : Bool := fld b off n == 0

/-! ## SHA-256

Its constants are the leading 32 fraction bits of roots of the first primes: square roots of eight for the start, cube roots
of 64 for the rounds. They are computed here from that definition. -/

/-- The largest r below 2^n with r^k at most v, found bit by bit above a start. -/
def rootFrom (k v : Nat) : Nat → Nat → Nat
  | 0, r => r
  | n + 1, r => rootFrom k v n (if (r + 2 ^ n) ^ k ≤ v then r + 2 ^ n else r)

/-- The primes below 312, of which there are 64. -/
def smallPrimes : List Nat := (List.range 312).filter fun n => decide (2 ≤ n) && (List.range n).all fun d => decide (d < 2) || n % d != 0

/-- The leading 32 fraction bits of the k-th root of p. -/
def rootWord (k p : Nat) : BitVec 32 := BitVec.ofNat 32 (rootFrom k (p * 2 ^ (32 * k)) 40 0)

def roundWords : List (BitVec 32) := smallPrimes.map (rootWord 3)

def startWords : List (BitVec 32) := (smallPrimes.take 8).map (rootWord 2)

/-- Big-endian number of bytes. -/
def unbe (l : List Byte) : Nat := l.foldl (fun a b => 256 * a + b.toNat) 0

/-- n big-endian bytes of v. -/
def be (n v : Nat) : List Byte := (le n v).reverse

/-- Extend the message schedule, newest word first. -/
def shaSchedule : Nat → List (BitVec 32) → List (BitVec 32)
  | 0, w => w
  | n + 1, w =>
    let mixed (i a b c : Nat) : BitVec 32 := (w.getD i 0).rotateRight a ^^^ (w.getD i 0).rotateRight b ^^^ (w.getD i 0 >>> c)
    shaSchedule n ((mixed 1 17 19 10 + w.getD 6 0 + mixed 14 7 18 3 + w.getD 15 0) :: w)

/-- XOR of three rotations of a word. -/
def rot3 (x : BitVec 32) (i j k : Nat) : BitVec 32 := x.rotateRight i ^^^ x.rotateRight j ^^^ x.rotateRight k

/-- One round on the eight working words, with the sum of its constant and its schedule word. -/
def shaRound (v : List (BitVec 32)) (kw : BitVec 32) : List (BitVec 32) :=
  let x (i : Nat) : BitVec 32 := v.getD i 0
  let choose := (x 4 &&& x 5) ^^^ (~~~ (x 4) &&& x 6)
  let majority := (x 0 &&& (x 1 ||| x 2)) ||| (x 1 &&& x 2)
  let t := x 7 + rot3 (x 4) 6 11 25 + choose + kw
  (t + rot3 (x 0) 2 13 22 + majority) :: (v.take 3 ++ (x 3 + t) :: (v.drop 4).take 3)

/-- One 64-byte block. -/
def shaBlock (v : List (BitVec 32)) (b : List Byte) : List (BitVec 32) :=
  let first := ((List.range 16).map fun i => BitVec.ofNat 32 (unbe (sliceB b (4 * i) 4))).reverse
  let words := List.zipWith (· + ·) roundWords (shaSchedule 48 first).reverse
  List.zipWith (· + ·) v (words.foldl shaRound v)

def shaBlocks : Nat → List (BitVec 32) → List Byte → List (BitVec 32)
  | 0, v, _ => v
  | n + 1, v, l => shaBlocks n (shaBlock v (l.take 64)) (l.drop 64)

/-- SHA-256 of a byte string. -/
def sha256 (m : List Byte) : List Byte :=
  let n := ceilDiv (m.length + 9) 64
  let l := m ++ [0x80] ++ rep (64 * n - m.length - 9) 0 ++ be 8 (8 * m.length)
  (shaBlocks n startWords l).flatMap fun x => be 4 x.toNat

/-! ## P-256 -/

def p256p : Nat := 0xffffffff00000001000000000000000000000000ffffffffffffffffffffffff
def p256n : Nat := 0xffffffff00000000ffffffffffffffffbce6faada7179e84f3b9cac2fc632551
def p256b : Nat := 0x5ac635d8aa3a93e7b3ebbd55769886bc651d06b0cc53b0f63bce3c3e27d2604b
def p256g : Nat × Nat :=
  (0x6b17d1f2e12c4247f8bce6e563a440f277037d812deb33a0f4a13945d898c296,
   0x4fe342e2fe1a7f9b8ee7eb4a7c0f9e162bce33576b315ececbb6406837bf51f5)

/-- a^e modulo m over the lowest `fuel` bits of e. -/
def powMod (m : Nat) : Nat → Nat → Nat → Nat
  | 0, _, _ => 1
  | fuel + 1, a, e => (if e % 2 = 1 then a else 1) * powMod m fuel (a * a % m) (e / 2) % m

/-- Inverse modulo a 256-bit prime. -/
def invMod (m a : Nat) : Nat := powMod m 256 (a % m) (m - 2)

/-- Sum of two points of the curve, none for the point at infinity. -/
def ecAdd : Option (Nat × Nat) → Option (Nat × Nat) → Option (Nat × Nat)
  | none, q => q
  | p, none => p
  | some (x1, y1), some (x2, y2) =>
    let m := p256p
    if x1 = x2 ∧ (y1 + y2) % m = 0 then none
    else
      let l := if x1 = x2 then (3 * x1 * x1 + m - 3) * invMod m (2 * y1) % m else (y2 + m - y1) * invMod m (x2 + m - x1) % m
      let x3 := (l * l + 2 * m - x1 - x2) % m
      some (x3, (l * (x1 + m - x3) + m - y1) % m)

/-- k times a point over the lowest `fuel` bits of k. -/
def ecMul : Nat → Nat → Option (Nat × Nat) → Option (Nat × Nat)
  | 0, _, _ => none
  | fuel + 1, k, p => ecAdd (if k % 2 = 1 then p else none) (ecMul fuel (k / 2) (ecAdd p p))

/-- Verification of a signature (r, s) over a digest under a public key. -/
def ecdsaOk (digest key sig : List Byte) : Bool :=
  let n := p256n
  let x := unbe (key.take 32)
  let y := unbe (key.drop 32)
  let r := unbe (sig.take 32)
  let s := unbe (sig.drop 32)
  let w := invMod n s
  let u1 := unbe digest * w % n
  let u2 := r * w % n
  decide (x < p256p) && decide (y < p256p) && y * y % p256p == (x * x * x + (p256p - 3) * x + p256b) % p256p &&
    within 1 (n - 1) r && within 1 (n - 1) s &&
    match ecAdd (ecMul 256 u1 (some p256g)) (ecMul 256 u2 (some (x, y))) with
    | some (x1, _) => x1 % n == r
    | none => false

/-! ## Areas and boot control (R446, R450) -/

/-- The area of a kind (false Walnut, true data path) in a slot, as an index 0 to 3. -/
def areaIx (data : Bool) (slot : Nat) : Nat := (if data then 2 else 0) + slot % 2

def State.area (s : State) (i : Nat) : List Byte :=
  match i with | 0 => s.up.walnutA | 1 => s.up.walnutB | 2 => s.up.dataA | _ => s.up.dataB

/-- The bytes of an area change; it no longer holds the image stored at manufacture. -/
def State.setArea (s : State) (i : Nat) (b : List Byte) : State :=
  let u := { s.up with factory := s.up.factory.filter (· ≠ i) }
  { s with up := match i with
      | 0 => { u with walnutA := b } | 1 => { u with walnutB := b } | 2 => { u with dataA := b } | _ => { u with dataB := b } }

/-- The record in force: the newer of two sequence numbers that wrap (R450). -/
def State.bootControl (s : State) : BootControl :=
  match s.up.boot0, s.up.boot1 with
  | some a, some b => if (a.number + 2 ^ 32 - b.number) % 2 ^ 32 < 2 ^ 31 then a else b
  | some a, none => a
  | none, some b => b
  | none, none => ⟨0, 0, 0, 0xFF, 0xFF, 0⟩

/-- Write a new record into the sector that does not hold the newest one. -/
def State.writeBoot (s : State) (f : BootControl → BootControl) : State :=
  let cur := s.bootControl
  let new := { f cur with number := (cur.number + 1) % 2 ^ 32 }
  if s.up.boot0 = some cur then { s with up := { s.up with boot1 := some new } }
  else { s with up := { s.up with boot0 := some new } }

/-- The record as its sector holds it (R450). -/
def BootControl.bytes (b : BootControl) : List Byte :=
  let l := le 4 b.number ++ [byte b.walnutSlot, byte b.dataSlot, byte b.walnutTrial, byte b.dataTrial, byte b.settingsArea] ++ rep 19 0
  l ++ le 4 (crc32c l)

def BootControl.slot (b : BootControl) (data : Bool) : Nat := if data then b.dataSlot else b.walnutSlot

def BootControl.trial (b : BootControl) (data : Bool) : Nat := if data then b.dataTrial else b.walnutTrial

def BootControl.set (b : BootControl) (data : Bool) (slot trial : Nat) : BootControl :=
  if data then { b with dataSlot := slot, dataTrial := trial } else { b with walnutSlot := slot, walnutTrial := trial }

/-- A kind is in trial: its boots are counted and not confirmed. -/
def State.inTrial (s : State) (data : Bool) : Bool := s.bootControl.trial data != 0xFF

def areaSize (data : Bool) : Nat := if data then 12 * mib else 4 * mib

/-! ## Images (R448, R449) -/

/-- n bytes of the header of the image in an area; of an image stored at manufacture the spec gives no value. -/
def State.imgField (s : State) (i off n : Nat) : Nat :=
  if s.up.factory.contains i then Config.factoryField i off % 256 ^ n else fld (s.area i) off n

/-- The body of an image. -/
def imgBody (b : List Byte) : List Byte := (b.drop 512).take (fld b 8 4)

/-- Header format of Table 22-2. -/
def headerOk (data : Bool) (b : List Byte) : Bool :=
  let n := fld b 8 4
  fld b 0 4 == 0x474D4948 && fld b 4 1 == (if data then 2 else 1) && fld b 5 1 == 1 && zeros b 6 2 && n % 16 == 0 &&
    decide (512 + n ≤ areaSize data) && decide (fld b 0x10 2 ≤ 63) &&
    (if data then zeros b 0x12 2 && zeros b 0x16 2 && zeros b 0x18 2 && within 1 256 (fld b 0x1A 2)
     else fld b 0x12 2 != 0 && zeros b 0x1A 2) &&
    zeros b 0x1C 4 && zeros b 0xC0 320

/-- Digest, key and signature (R449). -/
def sealOk (b keyHash : List Byte) : Bool :=
  decide (512 + fld b 8 4 ≤ b.length) && sha256 (imgBody b) == sliceB b 0x20 32 &&
    sha256 (sliceB b 0x40 64) == keyHash && ecdsaOk (sha256 (b.take 128)) (sliceB b 0x40 64) (sliceB b 0x80 64)

/-- The anti-rollback counter of a kind. -/
def State.rollback (s : State) (data : Bool) : Nat := if data then s.board.dataCounter else s.board.walnutCounter

/-- The security version of the image in an area. -/
def State.imgSecurity (s : State) (i : Nat) : Nat := s.imgField i 0x10 2 % 64

/-- The image in an area passes R449. -/
def State.areaOk (s : State) (data : Bool) (i : Nat) : Bool :=
  (s.up.factory.contains i || (headerOk data (s.area i) && sealOk (s.area i) s.board.keyHash)) &&
    decide (s.rollback data ≤ s.imgSecurity i)

/-- The area of the active image of a kind. -/
def State.activeArea (s : State) (data : Bool) : Nat := areaIx data (s.bootControl.slot data)

/-- 0x5800:10 and :11: versions of the active and the other image, 0 when invalid. -/
def State.imgVersions (s : State) (data : Bool) : Nat :=
  let v := fun i => if s.areaOk data i then s.imgField i 0x0C 4 else 0
  let a := s.bootControl.slot data
  v (areaIx data a) * 2 ^ 32 + v (areaIx data (a + 1))

/-! ## The kernel directory (R519) -/

/-- The directory bytes of an image whose header names its count. -/
def kernelBytes (b : List Byte) : List Byte := sliceB b 512 (16 * fld b 0x1A 2)

/-- An entry of the directory of an image stored at manufacture, its fields kept in range. -/
def factoryEntry (i : Nat) : List Byte :=
  let x := Config.factoryKernel i
  le 2 (x % 1536) ++ [byte (x / 1536 % 6)] ++ rep 5 0 ++ le 8 (x / 9216)

/-- The kernel directory of the active data-path image, 0x4100:06. -/
def State.kernelBytes (s : State) : List Byte :=
  let i := s.activeArea true
  if s.up.factory.contains i then (List.range (1 + Config.factoryKernels % 256)).flatMap factoryEntry
  else Sys2Proof.Machine.kernelBytes (s.area i)

/-- The kernel directory as (entry bundle, role) by identifier. -/
abbrev KernelDir := List (Nat × Nat)

def dirOfBytes (b : List Byte) : KernelDir := (List.range (b.length / 16)).map fun i => (fld b (16 * i) 2, fld b (16 * i + 2) 1)

def State.kernelDir (s : State) : KernelDir := dirOfBytes s.kernelBytes

end Sys2Proof.Machine
end

