-- ==== Sys2Proof/Machine/Das.lean ====
section
/-! DEFINITION. The acoustic processing chain (07): tick numbering and channel state, steps 1 to 6, the quality flag byte,
and the acoustic segment record. -/

namespace Sys2Proof.Machine

open Sys2Proof

/-- wrap24 (07). -/
def wrap24 (v : Int) : Int := wrapS 24 v

/-! ## Step 1: combining (R157) -/

/-- The phase change d and whether it fades, from the elements of tick t and the state of tick u. -/
def combine (phx phy : Int) (ax ay : Nat) (px py : Int) (qx qy : Nat) (thr : Nat) : Int × Bool :=
  let dx := wrap24 (phx - px)
  let dy := wrap24 (phy - py)
  let wy : Nat := ay * qy
  let w : Nat := ax * qx + wy
  (if w = 0 then 0 else wrap24 (dx + rdiv (wy * wrap24 (dy - dx)) w), decide (w < thr))

/-! ## Step 2: unwrapping (R158, R159) -/

/-- The elements of one channel at tick t as the steps take them. -/
structure ChanIn where
  phx : Int
  phy : Int
  ax : Nat
  ay : Nat
  taint : Bool
  ampSat : Bool
  deriving DecidableEq, Repr

/-- Store the elements of tick t in the record; valid is set. -/
def ChanState.store (cs : ChanState) (i : ChanIn) (t : Nat) : ChanState :=
  { cs with xph := i.phx, yph := i.phy, taint := i.taint, valid := true, xa := i.ax, ya := i.ay, tick := t }

/-- The references after a known slot pair: they learn on clean ticks of different slots only. -/
def ChanState.learn (cs : ChanState) (u sl : Nat) (dd : Int) (ho : Nat) (clean : Bool) : ChanState :=
  if u ≠ sl ∧ clean = true then
    let adj := rhe dd ho
    if sl ≠ 0 then { cs with b := modAt cs.b sl fun v => wrap24 (v + adj) }
    else { cs with b := modAt cs.b u fun v => wrap24 (v - adj) }
  else cs

/-- First sight of a slot pair fills the missing reference. -/
def ChanState.firstSight (cs : ChanState) (u sl : Nat) (d : Int) : ChanState :=
  if cs.init.getD u false then
    { cs with b := modAt cs.b sl fun _ => wrap24 (cs.b.getD u 0 + d), init := modAt cs.init sl fun _ => true }
  else if cs.init.getD sl false then
    { cs with b := modAt cs.b u fun _ => wrap24 (cs.b.getD sl 0 - d), init := modAt cs.init u fun _ => true }
  else cs

/-- Steps 1 and 2 of one channel at valid tick t (tick number), slot sl, with predecessor u: its work and its record. -/
def chanStep (slots t : Nat) (u : Option Nat) (pr : PortParams) (i : ChanIn) (cs : ChanState) : ChanWork × ChanState :=
  let sl := t % slots
  let known := cs.valid && decide (u = some cs.tick) && decide ((t + 2 ^ 32 - cs.tick) % 2 ^ 32 ≤ slots)
  if known = false then
    (⟨0, true, false, false, i.taint || (cs.valid && decide (u = some cs.tick) && cs.taint), i.ampSat⟩, cs.store i t)
  else
    let us := cs.tick % slots
    let (d, fade) := combine i.phx i.phy i.ax i.ay cs.xph cs.yph cs.xa cs.ya pr.fade
    if cs.init.getD us false && cs.init.getD sl false then
      let dd := wrap24 (d - wrap24 (cs.b.getD sl 0 - cs.b.getD us 0))
      let amb := decide ((pr.lim : Int) < dd) || decide (dd < -(pr.lim : Int))
      (⟨dd, false, fade, amb, i.taint || cs.taint, i.ampSat⟩,
        (cs.learn us sl dd pr.ho (!i.taint && !cs.taint && !fade)).store i t)
    else
      (⟨0, true, fade, false, i.taint || cs.taint, i.ampSat⟩, (cs.firstSight us sl d).store i t)

/-! ## Steps 3 to 6 (R160 to R163) -/

/-- Step 4: the drift state after gauge difference r, and e (R161). -/
def drift (format h : Nat) (r hs : Int) : Int × Int :=
  if format = 0 then
    let hs := hs + rhe (256 * r - hs) h
    (hs, 256 * r - hs)
  else
    let hs := satS 56 (hs + 256 * r - rhe hs h)
    (hs, hs)

/-- Step 6: the value and whether its saturation acted (R163). -/
def formatValue (width os : Nat) (e : Int) : Int × Bool :=
  let v := rhe e (8 + os)
  let w := satS (8 * width) v
  (w, decide (w ≠ v))

/-- The quality flag byte of a valid tick (Table 7-4). -/
def qualityFlags (a b : ChanWork) (satv : Bool) : Nat :=
  (if a.restart || b.restart then 128 else 0) + (if satv then 16 else 0) + (if a.ampSat || b.ampSat then 8 else 0) +
    (if a.amb || b.amb then 4 else 0) + (if a.fade || b.fade then 2 else 0) + (if a.taint || b.taint then 1 else 0)

/-- The output of a no-firing tick: the unchanged state, flag bit 5, and bit 4 where its saturation acts (R163). -/
def noFiringOut (format width os : Nat) (hs : Int) : Int × Nat :=
  if format = 0 then (0, 32)
  else
    let (v, sat) := formatValue width os hs
    (v, if sat then 48 else 32)

/-! ## Ticks and channel records of a port -/

/-- A cleared channel record (R156): b[0] = 0 with init[0] = 1. -/
def ChanState.cleared (era slots : Nat) : ChanState :=
  { era := era, xph := 0, yph := 0, taint := false, valid := false, xa := 0, ya := 0, tick := 0, hs := 0, b := rep slots 0
    init := true :: rep (slots - 1) false }

def State.pdas (s : State) (p : Nat) : PortDas := s.das.ports.getD p PortDas.blank

def State.setPdas (s : State) (p : Nat) (f : PortDas → PortDas) : State :=
  { s with das := { s.das with ports := modAt s.das.ports p f } }

/-- The tick number (R153). -/
def tickNo (slots sweep slot : Nat) : Nat := (slots * sweep + slot) % 2 ^ 32

/-- The era a sweep belongs to (R156), by its ordinal. -/
def PortDas.era (pd : PortDas) (ord : Nat) : Era := (pd.eras.find? fun e => decide (e.ord ≤ ord)).getD ⟨0, 0, none⟩

/-- The latest sweep up to this one at which the coding contexts of the port's acoustic records restart (R313), by ordinal. -/
def PortDas.genOf (pd : PortDas) (ord : Nat) : Nat :=
  max (pd.era ord).ord ((pd.maps.find? fun m => decide (m ≤ ord)).getD 0)

/-- The record of channel c as a tick of a sweep finds it: cleared just before the first tick after a reset (R156). -/
def PortDas.record (pd : PortDas) (c ord slots : Nat) : ChanState :=
  let e := (pd.era ord).ord
  let cs := pd.chans.getD c (ChanState.cleared e slots)
  if cs.era = e then cs else ChanState.cleared e slots

/-- Put a record, growing the list as needed. -/
def PortDas.put (pd : PortDas) (c : Nat) (cs : ChanState) : PortDas :=
  if c < pd.chans.length then { pd with chans := pd.chans.set c cs }
  else { pd with chans := pd.chans ++ rep (c - pd.chans.length) (ChanState.cleared cs.era cs.b.length) ++ [cs] }

def TickWork.isAt (w : TickWork) (p n sl : Nat) : Bool := decide (w.port = p) && decide (w.ord = n) && decide (w.slot = sl)

/-- The tick of a slot of the sweep with an ordinal. -/
def State.tick? (s : State) (p n sl : Nat) : Option TickWork := s.das.ticks.find? fun w => w.isAt p n sl

def State.setTick (s : State) (p n sl : Nat) (f : TickWork → TickWork) : State :=
  { s with das := { s.das with ticks := s.das.ticks.map fun w => if w.isAt p n sl then f w else w } }

/-- Ticks of the port before a slot of the sweep with an ordinal, among the sweeps in flight. -/
def State.ticksBefore (s : State) (p n sl : Nat) : List TickWork :=
  s.das.ticks.filter fun w => decide (w.port = p) && (decide (w.ord < n) || (decide (w.ord = n) && decide (w.slot < sl)))

/-- The latest valid tick before a tick in its era, among the sweeps in flight. -/
def State.lastValid (s : State) (p n sl : Nat) : Option TickWork :=
  let era := ((s.pdas p).era n).ord
  ((s.ticksBefore p n sl).filter fun w => w.valid && decide (era ≤ w.ord)).getLast?

/-- The predecessor of a tick (R153): the latest valid tick before it since the chain reset, among the firings in
flight, else among the completed sweeps. -/
def State.predecessor (s : State) (p n sl slots : Nat) : Option Nat :=
  match s.lastValid p n sl with
  | some w => some (tickNo slots w.sweep w.slot)
  | none => ((s.pdas p).era n).prev

/-- The first input of a tick's work: what Chestnut delivered for a firing (R231). -/
def State.elementsOf (s : State) (p n slot : Nat) : Option FiringOut :=
  s.ch.outs.find? fun o => decide (o.port = p) && decide (o.ord = n) && decide (o.slot = slot)

/-- The channel input of channel c from a firing's channel elements (R151). -/
def FiringOut.chan (o : FiringOut) (c : Nat) : Option ChanIn :=
  match o.cx[c]?, o.cy[c]? with
  | some x, some y => some ⟨x.ph, y.ph, x.amp, y.amp, bit x.flags 0 || bit y.flags 0, bit x.flags 2 || bit y.flags 2⟩
  | _, _ => none

/-- No-firing ticks of the port up to a tick take their output o from the state not yet changed (R163), each from the record of its
own era. -/
def State.fillNoFiring (s : State) (p n sl o : Nat) : State :=
  let pd := s.pdas p
  let fill (w : TickWork) : TickWork :=
    match s.sw.flights.find? fun f => decide (f.ord = w.ord) with
    | some f =>
      let v := noFiringOut (f.plan.format p) (f.plan.width p) (f.param p).os (pd.record o f.ord f.plan.slots).hs
      { w with outs := modAt w.outs o fun _ => some v }
    | none => w
  let before (w : TickWork) : Bool := decide (w.ord < n) || (decide (w.ord = n) && decide (w.slot ≤ sl))
  let step (w : TickWork) : TickWork :=
    if w.port = p ∧ w.valid = false ∧ before w = true ∧ w.outs.getD o none = none then fill w else w
  { s with das := { s.das with ticks := s.das.ticks.map step } }

/-- The record of channel c is ready for a tick: one of an older era is cleared, once the no-firing ticks before the tick have
taken their outputs from it (R156, R163). -/
def State.freshen (s : State) (f : Flight) (p sl c : Nat) : State :=
  let cs := (s.pdas p).record c f.ord f.plan.slots
  if (s.pdas p).chans[c]? = some cs then s else (s.fillNoFiring p f.ord sl c).setPdas p fun pd => pd.put c cs

/-- Index c lies in a range with this role. -/
def inRange (l : List (Nat × Nat × Nat)) (role c : Nat) : Bool :=
  l.any fun r => decide (r.1 = role) && decide (r.2.1 ≤ c) && decide (c < r.2.1 + r.2.2)

/-- Steps 1 and 2 for one channel of a valid tick, once (R155); a no-firing tick runs no step (R163). -/
def State.chanItem (s : State) (f : Flight) (p sl c : Nat) : State :=
  match (s.elementsOf p f.ord sl).bind (fun o => o.chan c), s.tick? p f.ord sl with
  | some i, some w =>
    if w.valid = false ∨ (w.chans.getD c none).isSome = true ∨ inRange w.lost 1 c = true then s
    else
      let slots := f.plan.slots
      let s := s.freshen f p sl c
      let (work, cs) := chanStep slots (tickNo slots f.index sl) (s.predecessor p f.ord sl slots) (f.param p) i
        ((s.pdas p).record c f.ord slots)
      (s.setPdas p fun pd => pd.put c cs).setTick p f.ord sl fun tw => { tw with chans := modAt tw.chans c fun _ => some work }
  | _, _ => s

/-- Steps 3 to 6 for one output of a valid tick, once; its two channels must be done. Where its stored state was read with an
error it carries the restart flag (R339). -/
def State.outItem (s : State) (f : Flight) (p sl o : Nat) (bad : Bool) : State :=
  let pl := f.plan
  match s.tick? p f.ord sl with
  | none => s
  | some w =>
    match w.outs.getD o none, w.chans.getD o none, w.chans.getD (o + pl.gauge p) none with
    | none, some a, some b =>
      if inRange w.lost 2 o then s
      else
      let s := (s.freshen f p sl o).fillNoFiring p f.ord sl o
      let cs := (s.pdas p).record o f.ord pl.slots
      let (hs, e) := drift (pl.format p) (f.param p).h (b.dd - a.dd) cs.hs
      let (v, sat) := formatValue (pl.width p) (f.param p).os e
      (s.setPdas p fun pd => pd.put o { cs with hs := hs }).setTick p f.ord sl fun tw =>
        { tw with outs := modAt tw.outs o fun _ => some (v, qualityFlags a b sat ||| if bad then 128 else 0) }
    | _, _, _ => s

/-- The outputs of a tick whose output work has ended and whose channels are done by now (R160): a channel can be done by another
engine after the output item that needs it ended. -/
def State.endedOuts (s : State) (f : Flight) (p sl : Nat) : State :=
  match s.tick? p f.ord sl with
  | none => s
  | some w => w.ended.foldl (fun s (a, n, bad) =>
      ((List.range n).map (a + ·)).foldl (fun s o => s.outItem f p sl o (bad.contains o)) s) s

/-! ## Engine loss (R166, R167) -/

/-- Roles 1 and 2 of a schedule of a plan for a port, with first index and count, on the engines that pass a test. -/
def State.roleRanges (s : State) (pl : Plan) (sched p : Nat) (on : Nat → Bool) : List (Nat × Nat × Nat) :=
  (List.range (pl.schedCount sched)).filterMap fun k =>
    let en := pl.entry sched k
    let role := (s.kernelDir.getD (en 4 2) (0, 0)).2
    if (role = 1 ∨ role = 2) ∧ en 1 1 = 0 ∧ en 2 1 = p ∧ on (en 0 1) = true then some (role, en 8 4, en 0xC 4) else none

/-- Engine e has halted (R234). -/
def State.halted (s : State) (e : Nat) : Bool := (s.hz.engines.getD e Engine.idle).halted

/-- The elements of channel c of a firing have reached the engines by an instant: its last sample and the code after it (R165). -/
def Flight.arrived (f : Flight) (p slot c now : Nat) : Bool :=
  decide (f.start + slot * f.plan.tick + 2 * (f.plan.perChan p * (c + 1) + f.plan.nc) ≤ now)

/-- Of a range of channels or outputs, the leading part whose elements have arrived by an instant. -/
def Flight.arrivedPart (f : Flight) (w : TickWork) (now : Nat) (r : Nat × Nat × Nat) : Nat × Nat × Nat :=
  let extra := if r.1 = 2 then f.plan.gauge w.port else 0
  (r.1, r.2.1, (List.range r.2.2).countP fun i => f.arrived w.port w.slot (r.2.1 + i + extra) now)

/-- The work of a tick that a failed engine lost by now: what is marked, and what the schedule in force gives to a halted engine. -/
def State.lostWork (s : State) (f : Flight) (w : TickWork) : List (Nat × Nat × Nat) :=
  w.lost ++ (s.roleRanges f.plan f.sched w.port s.halted).map (f.arrivedPart w s.now)

/-- Output o of a tick that is not done depends on lost work: a channel of it that is not done, or the output itself. -/
def State.outLost (s : State) (f : Flight) (w : TickWork) (o : Nat) : Bool :=
  let l := s.lostWork f w
  let chan (c : Nat) : Bool := (w.chans.getD c none).isNone && inRange l 1 c
  chan o || chan (o + f.plan.gauge w.port) || inRange l 2 o

/-- Some entry of the schedule works on the channels of output o and some entry on the output itself. -/
def State.covered (s : State) (f : Flight) (p o : Nat) : Bool :=
  let l := s.roleRanges f.plan f.sched p fun _ => true
  inRange l 1 o && inRange l 1 (o + f.plan.gauge p) && inRange l 2 o

/-- An output of a tick is settled: done, lost, or without any entry that would work on it; one of a no-firing tick once every
valid tick before it is. -/
def State.settled (s : State) (f : Flight) (w : TickWork) (o : Nat) : Bool :=
  let own (f : Flight) (w : TickWork) : Bool := (w.outs.getD o none).isSome || s.outLost f w o || !s.covered f w.port o
  if w.valid then own f w
  else (w.outs.getD o none).isSome || ((s.ticksBefore w.port w.ord w.slot).filter (·.valid)).all fun u =>
    match s.sw.flights.find? fun g => decide (g.ord = u.ord) with
    | some g => own g u
    | none => true

/-- A schedule of the same plan takes over: what its failed engines have lost by now is marked on the ticks in flight, because the
schedule in force no longer names those engines (R166, R167). -/
def State.markLost (s : State) (f : Flight) : State :=
  { s with das := { s.das with ticks := s.das.ticks.map fun (w : TickWork) =>
    if w.ord = f.ord then
      { w with lost := w.lost ++ (s.roleRanges f.plan f.sched w.port s.halted).map (f.arrivedPart w s.now) }
    else w } }

/-- A channel's own flags at a tick when its work is lost: from the elements of the tick, and the taint of the tick before it. -/
def State.bareFlags (s : State) (f : Flight) (w : TickWork) (c : Nat) : Nat :=
  let now := (s.elementsOf w.port w.ord w.slot).bind (·.chan c)
  let u := s.lastValid w.port w.ord w.slot
  let before := match u.bind fun u => (s.elementsOf w.port u.ord u.slot).bind (·.chan c) with
    | some i => i.taint
    | none =>
      let cs := (s.pdas w.port).record c w.ord f.plan.slots
      cs.valid && cs.taint && decide (s.predecessor w.port w.ord w.slot f.plan.slots = some cs.tick)
  (if now.any (·.ampSat) then 8 else 0) + (if now.any (·.taint) || before then 1 else 0)

/-- The flags of one channel at a tick (Table 7-4), from its work where that is done. -/
def State.chanFlags (s : State) (f : Flight) (w : TickWork) (c : Nat) : Nat :=
  match w.chans.getD c none with
  | some a => qualityFlags a a false
  | none => s.bareFlags f w c

/-- The value and flags of output o of a tick as its record carries them: a lost output has value 0, bit 6 and the bits its channels
earn by themselves (R162, R166); one of a no-firing tick shows the unchanged state; for one that no entry works on the spec
states nothing, so its value is free and it carries its channels' bits. -/
def State.outValue (s : State) (f : Flight) (w : TickWork) (o : Nat) : Int × Nat :=
  match w.outs.getD o none with
  | some v => v
  | none =>
    if w.valid then
      let flags := s.chanFlags f w o ||| s.chanFlags f w (o + f.plan.gauge w.port)
      if s.outLost f w o then (0, flags ||| 64)
      else (toI (8 * f.plan.width w.port) (Config.unworked (tickNo f.plan.slots w.sweep w.slot) w.port o), flags)
    else noFiringOut (f.plan.format w.port) (f.plan.width w.port) (f.param w.port).os
      ((s.pdas w.port).record o f.ord f.plan.slots).hs

/-! ## Records (R164 to R166, Tables 7-5 and 7-6) -/

/-- The tick of a slot lies fewer than 2^h ticks after the chain reset (Table 7-6 bit 2). -/
def Flight.settling (f : Flight) (era : Era) (p slot : Nat) : Bool :=
  decide ((tickNo f.plan.slots f.index slot + 2 ^ 32 - tickNo f.plan.slots era.sweep 0) % 2 ^ 32 < 2 ^ (f.param p).h)

/-- Record flags of a segment (Table 7-6). -/
def State.dasFlags (s : State) (f : Flight) (w : TickWork) (lost : Bool) : Nat :=
  let era := (s.pdas w.port).era f.ord
  (if decide (era.ord = f.ord) && decide (w.slot = 0) then 32 else 0) + (if f.taken then 16 else 0) + (if lost then 8 else 0) +
    (if f.settling era w.port w.slot then 4 else 0) + (if w.valid then 0 else 2) + (if f.late then 1 else 0)

/-- The head of an acoustic record (Table 7-5). -/
def dasHead (f : Flight) (p slot first : Nat) (outs : List (Int × Nat)) (flags : Nat) : List Byte :=
  let pl := f.plan
  let pr := f.param p
  [byte p, byte slot, byte (pl.format p), byte (pl.width p)] ++ le 4 first ++ le 2 outs.length ++
    [byte (pl.flagMode p), byte pr.os] ++ le 2 (pl.perChan p) ++ le 2 (pl.gauge p) ++ [byte pr.h, byte pr.ho] ++ le 2 flags ++
    le 4 pl.ident ++ le 4 (outs.countP fun v => decide (v.2 ≠ 0)) ++ le 4 (outs.foldl (fun a v => a ||| v.2) 0)

/-- The outputs a segment that begins at `first` holds: up to the segment length, within its stream (R164, R299). -/
def segRange (pl : Plan) (e : Stream) (p first : Nat) : List Nat :=
  (List.range (min (pl.segLen p) (e.first + e.count - first))).map (first + ·)

/-- A sweep in flight by index with the tick of one of its slots. -/
def State.tickOf (s : State) (p sweep slot : Nat) : Option (Flight × TickWork) :=
  (s.flight sweep).bind fun f => (s.tick? p f.ord slot).map fun w => (f, w)

/-- SEGMENT_EMIT (R164, R165): the segment of a tick that begins at an output goes to the queue of its stream, literal
or coded, once every output of it is settled; its header carries the sweep's index and stamp (R120). -/
def execSegmentEmit (t port sweep slot first : Nat) (s : State) : Host.Outcome State Fault Refusal :=
  let s := s.at t
  match s.tickOf port sweep slot with
  | some (f, w) =>
    match f.plan.streamOf 1 port first with
    | none => .next s
    | some e =>
      if (first - e.first) % max 1 (f.plan.segLen port) ≠ 0 ∨ (segRange f.plan e port first).all (s.settled f w) = false then
        .next s
      else
        let outs := (segRange f.plan e port first).map (s.outValue f w)
        let flags := s.dasFlags f w (outs.any fun v => bit v.2 6)
        let fb := if f.plan.flagMode port = 0 then padTo 4 (outs.map fun v => byte v.2) else []
        let s := if (outs.any fun v => bit v.2 6) = true then s.cause 0 else s
        .next (s.offerStream f.plan e first sweep f.stamp (f.plan.width port) (dasHead f port slot first outs flags)
          [outs.map (·.1)] fb ((s.pdas port).genOf f.ord))
  | none => .next s

/-! ## Ticks begin at their firing; counts at the completion of the sweep (R152, R170) -/

/-- The ticks of a slot firing on every used port. -/
def State.openTicks (s : State) (f : Flight) (slot : Nat) : State :=
  let valid := decide (f.kinds.getD slot 0 = 0) && !f.suppressed.contains slot
  let new := (s.usedPorts f.plan).map fun p =>
    (⟨p, f.index, f.ord, slot, valid, rep (f.plan.chans p) none, rep (f.plan.outs p) none, [], []⟩ : TickWork)
  let s := { s with das := { s.das with ticks := s.das.ticks ++ new } }
  (s.usedPorts f.plan).foldl (fun s p =>
    s.os (pk 0x2C000A p) (if f.settling ((s.pdas p).era f.ord) p slot then 1 else 2)) s

/-- The ordinal of the oldest sweep in flight, or of the one that begins. -/
def State.oldestOrd (s : State) : Nat := match s.sw.flights with | f :: _ => f.ord | [] => s.sw.ord

/-- Of eras or takes, newest first and named by an ordinal, those that the sweep with an ordinal and later ones belong to. -/
def keepFrom {α : Type} (name : α → Nat) (oldest : Nat) : List α → List α
  | [] => []
  | e :: r => if name e ≤ oldest then [e] else e :: keepFrom name oldest r

/-- A chain reset of port p at the boundary of a sweep (R156). -/
def State.chainReset (s : State) (p sweep : Nat) : State :=
  s.setPdas p fun pd => { pd with eras := keepFrom Era.ord s.oldestOrd (⟨sweep, s.sw.ord, none⟩ :: pd.eras) }

/-- A take that changes the stream map or enters Sensing, at the boundary of the sweep that begins (R313). -/
def State.mapChange (s : State) : State :=
  (List.range 4).foldl (fun s p => s.setPdas p fun pd => { pd with maps := keepFrom id s.oldestOrd (s.sw.ord :: pd.maps) }) s

/-- A take resets the chain of a port when it starts to use it or when S, bands, k, N, g or the format differ (R156). -/
def chainDiffers (old : Option Plan) (pl : Plan) (p : Nat) : Bool :=
  match old with
  | none => true
  | some o =>
    !o.uses p || decide (o.slots ≠ pl.slots) || decide ((List.range pl.slots).map o.band ≠ (List.range pl.slots).map pl.band) ||
      decide (o.perChan p ≠ pl.perChan p) || decide (o.chans p ≠ pl.chans p) || decide (o.gauge p ≠ pl.gauge p) ||
      decide (o.format p ≠ pl.format p)

/-- Completion of a sweep (R14): its ticks count (R170) and leave Hazel. -/
def State.dasComplete (s : State) (f : Flight) : State :=
  let mine := s.das.ticks.filter fun w => decide (w.ord = f.ord)
  let s := mine.foldl (fun s w =>
    let outs := (List.range w.outs.length).map (s.outValue f w)
    let n (b : Nat) : Nat := outs.countP fun v => bit v.2 b
    let s := ((s.countAt f.index (8 + w.port) (n 1)).countAt f.index (12 + w.port) (n 2)).countAt f.index (20 + w.port) (n 6)
    let s := s.countAt f.index (16 + w.port) (w.chans.countP fun c => match c with | some c => c.restart | none => false)
    if w.valid then
      s.setPdas w.port fun pd => { pd with eras := pd.eras.map fun e =>
        if e.ord = (pd.era f.ord).ord then { e with prev := some (tickNo f.plan.slots f.index w.slot) } else e }
    else s) s
  { s with
    das := { s.das with ticks := s.das.ticks.filter fun w => decide (w.ord ≠ f.ord) }
    ch := { s.ch with outs := s.ch.outs.filter fun o => decide (o.ord ≠ f.ord) } }

end Sys2Proof.Machine
end

