-- ==== Sys2Proof/Machine/Regions.lean ====
section
/-! DEFINITION. DRAM by address (15): the regions of R345, what a plan needs of them, and the corner buffers of R174. -/

namespace Sys2Proof.Machine

open Sys2Proof

def State.setMem (s : State) (f : Memory → Memory) : State := { s with mem := f s.mem }

/-! ## Regions (R345) -/

/-- DRAM capacity in bytes after the ECC reserve. -/
def State.dramBytes (s : State) : Nat := s.og 0x420002 * mib

/-- The lowest address from which `size` bytes lie free of the regions of a list (assumption log 17). -/
def firstFit (size top : Nat) : Nat → List Region → Option Nat
  | at_, [] => if at_ + size ≤ top then some at_ else none
  | at_, r :: rs => if at_ + size ≤ r.base then some at_ else firstFit size top (max at_ (r.base + r.size)) rs

/-- Insert a region by ascending base. -/
def insertRegion (x : Region) : List Region → List Region
  | [] => [x]
  | r :: rs => if x.base ≤ r.base then x :: r :: rs else r :: insertRegion x rs

/-- Give a region back. -/
def State.unreserve (s : State) (k : RegionKind) : State :=
  { s with mem := { s.mem with regions := s.mem.regions.filter fun r => decide (r.kind ≠ k) } }

/-- A held record stands in the DRAM queue region with a base (R520). -/
def State.drainsRegion (s : State) (base : Nat) : Bool := s.qu.qs.any fun q => q.recs.any fun r => decide (r.region = some base)

/-- A DRAM queue region of a rung that held records have not left stays reserved under a kind of its own. -/
def State.keepDrained (s : State) (rung : Nat) : State :=
  s.setMem fun m => { m with regions := m.regions.map fun r =>
    if r.kind = RegionKind.queues rung ∧ s.drainsRegion r.base = true then { r with kind := .drained r.base } else r }

/-- Reserve `size` bytes for a kind, in place of what it held; none when they do not fit. -/
def State.reserve (s : State) (k : RegionKind) (size : Nat) : Option State :=
  let s := s.unreserve k
  if size = 0 then some s
  else match firstFit size s.dramBytes 0 s.mem.regions with
    | some b => some { s with mem := { s.mem with regions := insertRegion ⟨k, b, size⟩ s.mem.regions } }
    | none => none

/-- The base of a rung's DRAM queue region, none where it has none. -/
def State.queueBase (s : State) (rung : Nat) : Option Nat := (s.mem.regions.find? fun r => decide (r.kind = .queues rung)).map (·.base)

/-- The base of a kind's region. -/
def State.regionBase (s : State) (k : RegionKind) : Nat :=
  match s.mem.regions.find? fun r => decide (r.kind = k) with
  | some r => r.base
  | none => 0

/-! ## What a plan needs (R174, R293, R345) -/

/-- Bytes of a plan's queues in DRAM: each has its capacity. -/
def Plan.queueBytes (pl : Plan) : Nat :=
  sumN ((List.range 13).map fun q => if pl.qEntry q 4 1 = 1 then pl.qEntry q 0 4 * 1024 else 0)

/-- Corner depth K of a plan (R174, R176). -/
def Plan.cornerDepth (pl : Plan) : Nat := fld (pl.sec 0x30 0) 0x0E 2

/-- Bytes of one half of a port's corner buffer: a value plane of 4·K and a flag plane of K bytes per output. -/
def Plan.cornerHalf (pl : Plan) (p : Nat) : Nat := 5 * pl.cornerDepth * (pl.decimList p).length

/-- Bytes of a plan's queue regions and corner buffers, two halves for each port with decimated outputs. -/
def Plan.queueRegion (pl : Plan) : Nat := pl.queueBytes + sumN ((List.range 4).map fun p => 2 * pl.cornerHalf p)

/-- Where a port's corner buffer stands: after the queues and the buffers of lower ports (assumption log 17). -/
def State.cornerBase (s : State) (rung : Nat) (pl : Plan) (p : Nat) : Nat :=
  s.regionBase (.queues rung) + pl.queueBytes + sumN ((List.range p).map fun q => 2 * pl.cornerHalf q)

/-- The interface that holds a byte address: with both fitted, bit G of the address selects it (R344). -/
def State.ifaceOf (s : State) (a : Nat) : Nat := if bits (s.og 0x420001) 1 0 = 3 ∧ bit a (s.og 0x420007) = true then 1 else 0

/-- A request for n bytes from an address on: the interfaces it meets leave self-refresh (R352). A span of more than one grain meets
both. -/
def State.touch (s : State) (a n : Nat) : State :=
  let hit (i : Nat) : Bool := decide (0 < n) &&
    (decide (s.ifaceOf a = i) || decide (s.ifaceOf (a + n - 1) = i) ||
      (decide (2 ^ s.og 0x420007 < n) && decide (bits (s.og 0x420001) 1 0 = 3)))
  s.setMem fun m => { m with
    selfRefresh := m.selfRefresh.zipIdx.map fun (x, i) => x && !hit i
    used := m.used.zipIdx.map fun (x, i) => if hit i then s.now else x }

/-- Bytes of DRAM. -/
def State.dramRead (s : State) (a n : Nat) : List Byte := memRead s.mem.dram a n

def State.dramWrite (s : State) (a : Nat) (b : List Byte) : State :=
  (s.touch a b.length).setMem fun m => { m with dram := memWrite m.dram a b }

/-! ## The corner buffer (R174) -/

/-- Value and flag address of the q-th output of the list, at input index i, in a corner buffer. -/
def Plan.cornerAt (pl : Plan) (p base i q : Nat) : Nat × Nat :=
  let k := pl.cornerDepth
  let half := base + i / max 1 k % 2 * pl.cornerHalf p
  (half + 4 * (k * q + i % max 1 k), half + 4 * k * (pl.decimList p).length + k * q + i % max 1 k)

/-- Put the values and flags of one tick into a corner buffer. -/
def State.cornerWrite (s : State) (pl : Plan) (p base i : Nat) (vals : List (Int × Nat)) : State :=
  vals.zipIdx.foldl (fun s (v, q) =>
    (s.dramWrite (pl.cornerAt p base i q).1 (le 4 (toU 32 v.1))).dramWrite (pl.cornerAt p base i q).2 [byte v.2]) s

/-- The values and flags of one tick, as its corner buffer holds them. -/
def State.cornerRead (s : State) (pl : Plan) (p base i : Nat) : List (Int × Nat) :=
  (List.range (pl.decimList p).length).map fun q =>
    (toI 32 (unle (s.dramRead (pl.cornerAt p base i q).1 4)), unle (s.dramRead (pl.cornerAt p base i q).2 1))

end Sys2Proof.Machine
end

