-- ==== Sys2Proof/Machine/Shadow.lean ====
section
/-! DEFINITION. Shadowed writes and the stage set (R59, R60): acceptance. The transfer at a boundary stands in
Machine/Boundary.lean. -/

namespace Sys2Proof.Machine

open Sys2Proof

/-- Accept a shadowed write: into the open stage set, which holds 64 at most, or pending by itself. -/
def shadow (idx sub : Nat) (b : List Byte) (s : State) : Except Nat State :=
  match s.lad.stage with
  | some l =>
    require (decide (l.length < 64)) 0x08000020 <|
      .ok { s with lad := { s.lad with stage := some (l ++ [⟨idx, sub, b⟩]) } }
  | none => .ok { s with lad := { s.lad with pend := s.lad.pend ++ [⟨s.now, false, [⟨idx, sub, b⟩]⟩] } }

/-- The index of the first boundary that begins a sweep 2 µs or more after instant a: the coming one, or the one after it. -/
def State.transferIndex (s : State) (a : Nat) : Nat :=
  let (b, k) := s.comingSweep
  if a + 2000 ≤ b then k else (k + 1) % 2 ^ 64

/-- 0x2400:0D: the index at which the oldest pending unit transfers; all ones for none. Outside Sensing, with no entry under
way, it is the held sweep index as it stands. A write accepted within the last 2 µs before the first boundary of an entry waits
for the second one (DEDUCED from the 2 µs of R59, assumption log 72). -/
def State.nextTransfer (s : State) : Nat :=
  match s.lad.pend with
  | [] => 0xFFFFFFFFFFFFFFFF
  | u :: _ => if s.pw.power = .sensing ∨ s.pw.entry.isSome = true then s.transferIndex u.accepted else s.og 0x220013

/-- 0x2400:0C: the state of the stage set and its write count; of several applied sets that wait, the newest (DESIGN CHOICE,
assumption log 73). -/
def State.stageWord (s : State) : Nat :=
  match s.lad.stage with
  | some l => 1 + 256 * l.length
  | none =>
    match (s.lad.pend.filter (·.staged)).reverse with
    | u :: _ => 2 + 256 * u.writes.length
    | [] => 0

/-- The effect of a write to 0x2400:0B. -/
def stageSet (v : Nat) (s : State) : Except Nat State :=
  match v, s.lad.stage with
  | 1, none => .ok { s with lad := { s.lad with stage := some [] } }
  | 2, some l => .ok { s with lad := { s.lad with stage := none, pend := s.lad.pend ++ [⟨s.now, true, l⟩] } }
  | 3, some _ => .ok { s with lad := { s.lad with stage := none } }
  | _, _ => .error 0x08000020

/-- STAGE_OPEN (R60). -/
def execStageOpen (t c : Nat) (s : State) : Host.Outcome State Fault Refusal :=
  .next ((s.at t).hostWrite c 0x2400 0xB false (le 1 1) (stageSet 1))

/-- STAGE_APPLY (R60). -/
def execStageApply (t c : Nat) (s : State) : Host.Outcome State Fault Refusal :=
  .next ((s.at t).hostWrite c 0x2400 0xB false (le 1 2) (stageSet 2))

/-- STAGE_DISCARD (R60). -/
def execStageDiscard (t c : Nat) (s : State) : Host.Outcome State Fault Refusal :=
  .next ((s.at t).hostWrite c 0x2400 0xB false (le 1 3) (stageSet 3))

end Sys2Proof.Machine
end

