-- ==== Sys2Proof/Machine/Poppy.lean ====
section
/-! DEFINITION. The Poppy decimation chain (08): stage arithmetic, banks and cross-fades, the boxcar, synchronising
resets, settling and decimated records. -/

namespace Sys2Proof.Machine

open Sys2Proof

/-! ## Coefficient set sections (Table 8-1) -/

abbrev PSec := List Byte

def PSec.typ (b : PSec) : Nat := fld b 3 1
/-- Decimation D. -/
def PSec.dec (b : PSec) : Nat := fld b 4 1
/-- Order nc. -/
def PSec.order (b : PSec) : Nat := fld b 5 1
/-- Taps T. -/
def PSec.taps (b : PSec) : Nat := fld b 6 2
/-- Coefficient words C (R176). -/
def PSec.words (b : PSec) : Nat := if PSec.typ b = 1 then 0 else if PSec.typ b = 2 then (PSec.taps b + 5) / 4 else PSec.taps b
/-- The window of a stage in stage inputs (Table 8-2). -/
def PSec.window (b : PSec) : Nat := if PSec.typ b = 1 then PSec.order b * (PSec.dec b - 1) + 1 else PSec.taps b

/-- Signed words of a byte list from an offset. -/
def wordsAt (b : List Byte) (off n : Nat) : List Int := (List.range n).map fun k => fldI b (off + 4 * k) 4

/-- The stage as its section defines it. -/
def PSec.stage (b : PSec) : PStage :=
  let c := PSec.words b
  { bank0 := (fld b 8 1, wordsAt b 0x10 c), bank1 := (fld b 9 1, wordsAt b (0x10 + 4 * c) c), active := fld b 0xC 1
    fading := false, pos := 0, target := fld b 0xC 1, len := 0, fadeLen := fld b 0xA 2, want := none }

/-- What a plan gives Poppy for port p: its stages by section instance (R176), and the port's decimation list. -/
def Plan.poppy (pl : Plan) (p : Nat) : PConf :=
  ⟨((List.range 6).filter (pl.hasSec 0x30)).map (pl.sec 0x30), pl.decimList p⟩

/-- Q_j of every stage (R173), and D_tot as the last of them. -/
def cumDec : Nat → List PSec → List Nat
  | _, [] => []
  | q, b :: r => let q := q * PSec.dec b; q :: cumDec q r

def PConf.dtot (c : PConf) : Nat := (cumDec 1 c.secs).getLastD 1

/-- The chain span in input ticks (R187). -/
def PConf.span (c : PConf) : Nat :=
  match c.secs with
  | [] => 0
  | b :: r => PSec.window b + sumN ((r.zip (cumDec 1 c.secs)).map fun x => (PSec.window x.1 - 1) * x.2)

def PHist.zero : PHist := ⟨rep 5 0, rep 5 0, [], []⟩

def PConf.fresh (c : PConf) : List POut := c.list.map fun _ => ⟨c.secs.map fun _ => PHist.zero, 0, 0⟩

/-! ## Stage arithmetic (R178 to R180) -/

/-- The integrators of a CIC stage. -/
def integrate : List Int → Int → List Int
  | [], _ => []
  | a :: r, x => let a := wrapS 64 (a + x); a :: integrate r a

/-- The combs of a CIC stage. -/
def combs : List Int → Int → List Int × Int
  | [], c => ([], c)
  | d :: r, c => let (r', y) := combs r (wrapS 64 (c - d)); (c :: r', y)

/-- The T taps of a halfband stage from its stored words (R179). -/
def halfband (t : Nat) (a : List Int) : List Int :=
  let q := (t - 3) / 4
  (List.range t).map fun i =>
    if i = 2 * q + 1 then a.getD (q + 1) 0
    else if i % 2 = 1 then 0
    else a.getD (min i (t - 1 - i) / 2) 0

/-- The taps of a stage's bank. -/
def PSec.tapList (b : PSec) (words : List Int) : List Int :=
  if PSec.typ b = 2 then halfband (PSec.taps b) words else words

def PStage.bank (st : PStage) (v : Nat) : Nat × List Int := if v = 0 then st.bank0 else st.bank1

/-- sat32 of a rounded shift, and whether it acted. -/
def sat32r (v : Int) (sh : Nat) : Int × Bool := let r := rhe v sh; (satS 32 r, decide (satS 32 r ≠ r))

/-- The output of one bank from the updated history: `c` is the comb output of a CIC stage. -/
def bankOut (b : PSec) (bank : Nat × List Int) (c : Int) (xs : List Int) : Int × Bool :=
  if PSec.typ b = 1 then sat32r c bank.1
  else sat32r (sumI (List.zipWith (· * ·) (PSec.tapList b bank.2) xs)) bank.1

/-- What a stage does at an output instant: one bank, or a fade at position f of n (R182). -/
inductive PMode where
  | plain (bank : Nat × List Int)
  | fade (src tgt : Nat × List Int) (f n : Nat)
  deriving DecidableEq, Repr

/-- One input of a stage; at an output instant its output value and flags, and whether sat32 acted. -/
def stageStep (b : PSec) (m : Option PMode) (h : PHist) (x : Int) (fl : Nat) : PHist × Option (Int × Nat × Bool) :=
  let acc := if PSec.typ b = 1 then integrate (h.acc.take (PSec.order b)) x else h.acc
  let xs := (x :: h.xs).take (PSec.window b)
  let fs := (fl :: h.fs).take (PSec.window b)
  match m with
  | none => ({ h with acc := acc, xs := xs, fs := fs }, none)
  | some m =>
    let (dly, c) := if PSec.typ b = 1 then combs (h.dly.take (PSec.order b)) (acc.getLastD 0) else (h.dly, 0)
    let flags := fs.foldl (· ||| ·) 0
    let (y, sat) := match m with
      | .plain k => bankOut b k c xs
      | .fade src tgt f n =>
        let (ya, sa) := bankOut b src c xs
        let (yb, sb) := bankOut b tgt c xs
        (ya + rdiv ((yb - ya) * f) n, sa || sb)
    (⟨acc, dly, xs, fs⟩, some (y, if sat then flags ||| 16 else flags, sat))

/-- A value through the chain: the histories, the final output when every stage gave one, the saturated stages. -/
def runChain : List (PSec × Option PMode × PHist) → Int → Nat → List PHist × Option (Int × Nat) × Nat
  | [], x, fl => ([], some (x, fl), 0)
  | (b, m, h) :: r, x, fl =>
    match stageStep b m h x fl with
    | (h', none) => (h' :: r.map (·.2.2), none, 0)
    | (h', some (y, f, sat)) =>
      let (hs, o, n) := runChain r y f
      (h' :: hs, o, n + (if sat then 1 else 0))

/-! ## Banks and fades (R181 to R184) -/

/-- A waiting bank select takes effect at an output instant: it starts, reverses or ignores (R181, R183). -/
def PStage.begin (st : PStage) : PStage :=
  match st.want with
  | none => st
  | some v =>
    let st := { st with want := none }
    if st.fading then
      if v = st.target then st else { st with pos := st.len - st.pos, target := v }
    else if v = st.active then st
    else if st.fadeLen = 0 then { st with active := v, target := v }
    else { st with fading := true, pos := 0, target := v, len := st.fadeLen }

/-- The output instant of a stage: its mode, the stage after it, and whether a fade completed. -/
def PStage.instant (st : PStage) : PMode × PStage × Bool :=
  let st := st.begin
  if st.fading then
    let f := st.pos + 1
    let m := PMode.fade (st.bank (1 - st.target)) (st.bank st.target) f st.len
    if st.len ≤ f then (m, { st with active := st.target, fading := false, pos := 0 }, true)
    else (m, { st with pos := f }, false)
  else (.plain (st.bank st.active), st, false)

/-- A reset ends a running fade: the target bank becomes active (R186). -/
def PStage.reset (st : PStage) : PStage :=
  if st.fading then { st with active := st.target, fading := false, pos := 0 } else st

/-- Load the inactive bank: shift word, then coefficients (Table 8-3). -/
def PStage.load (st : PStage) (b : List Byte) : PStage :=
  let k := (fld b 0 4, wordsAt b 4 (b.length / 4 - 1))
  if st.active = 0 then { st with bank1 := k } else { st with bank0 := k }

/-- Bank state and fade position objects. -/
def PStage.shown (st : PStage) : Nat × Nat := if st.fading && decide (0 < st.pos) then (2, st.pos) else (st.active, 0)

/-- A change reaches the first input of its sweep. -/
def PortPop.apply (pp : PortPop) (e : PChange) : PortPop :=
  match e.what with
  | .reset => { pp with outs := pp.conf.fresh, stages := pp.stages.map PStage.reset, resetAt := e.at_, mark := true }
  | .conf c => { pp with conf := c, stages := c.secs.map PSec.stage, outs := c.fresh, resetAt := e.at_, mark := true }
  | .select j v => { pp with stages := modAt pp.stages j fun st => { st with want := some v } }
  | .load j b => { pp with stages := modAt pp.stages j fun st => st.load b }
  | .fadeLen j n => { pp with stages := modAt pp.stages j fun st => { st with fadeLen := n } }
  | .mode v => { pp with modeNext := decide (v = 1) }
  | .take _ => pp
  | .map => { pp with mark := true }

/-! ## One tick -/

/-- The final outputs of one input index (R173): value and flags by output, settling, from a fade, the sweep and stamp
of its last input. -/
structure PFinal where
  m : Nat
  row : List (Int × Nat)
  settling : Bool
  cross : Bool
  /-- The first after a reset or a change of the stream map. -/
  restart : Bool
  tick : PTick
  deriving DecidableEq, Repr

/-- Final output m is settling (R187). -/
def PortPop.settling (pp : PortPop) (m : Nat) : Bool :=
  let d := pp.conf.dtot
  if pp.boxcar then decide (m * d < pp.resetAt ∧ pp.resetAt < m * d + d)
  else decide (m * d + d < pp.resetAt + pp.conf.span)

/-- One output's value through the chain and the boxcar. -/
def POut.feed (o : POut) (secs : List PSec) (modes : List (Option PMode)) (start : Bool) (x : Int) (fl : Nat) :
    POut × Option (Int × Nat) × Nat :=
  let (hs, y, n) := runChain (List.zip secs (List.zip modes o.stages)) x fl
  let o := if start then { o with box := 0, boxFlags := 0 } else o
  (⟨hs, o.box + x, o.boxFlags ||| fl⟩, y, n)

/-- A final output in boxcar mode (R185). -/
def POut.boxOut (o : POut) (d : Nat) : Int × Nat :=
  let r := rdiv o.box d
  (satS 32 r, if satS 32 r = r then o.boxFlags else o.boxFlags ||| 16)

/-- What one tick does: the port after it, the final outputs if any, saturated stage outputs, completed fades. -/
structure PStep where
  port : PortPop
  final : Option PFinal
  sats : Nat
  fades : Nat
  deriving DecidableEq, Repr

/-- One tick of a port, with its values and flags as read. -/
def PortPop.tick (pp : PortPop) (k : PTick) (vals : List (Int × Nat)) : PStep :=
  let due := pp.todo.filter fun e => decide (e.ord ≤ k.ord)
  let pp := due.foldl PortPop.apply { pp with todo := pp.todo.filter fun e => decide (k.ord < e.ord) }
  let d := pp.conf.dtot
  let start := decide (k.index % d = 0)
  let pp := if start then { pp with boxcar := pp.modeNext } else pp
  let steps : List (Option PMode × PStage × Bool) := (List.zip pp.stages (cumDec 1 pp.conf.secs)).map fun (st, q) =>
    if (k.index + 1) % q = 0 then let (m, st', c) := st.instant; (some m, st', c) else (none, st, false)
  let modes := steps.map (·.1)
  let fed := (List.zip pp.outs vals).map fun (o, v) => o.feed pp.conf.secs modes start v.1 v.2
  let pp' : PortPop := { pp with stages := steps.map (·.2.1), outs := fed.map (·.1) }
  let fade := modes.any fun m => match m with | some (.fade ..) => true | _ => false
  let fin : Option PFinal :=
    if (k.index + 1) % d = 0 then
      some ⟨k.index / d, fed.map fun x => if pp.boxcar then x.1.boxOut d else x.2.1.getD (0, 0), pp.settling (k.index / d),
        !pp.boxcar && fade, pp.mark, k⟩
    else none
  ⟨{ pp' with mark := pp.mark && fin.isNone }, fin, sumN (fed.map (·.2.2)), steps.countP (·.2.2)⟩

/-! ## A block and its records (R174, R188, R189) -/

def State.ppop (s : State) (p : Nat) : PortPop := s.pop.ports.getD p ⟨⟨[], []⟩, [], [], false, false, 0, false, [], []⟩

def State.setPpop (s : State) (p : Nat) (f : PortPop → PortPop) : State :=
  { s with pop := { s.pop with ports := modAt s.pop.ports p f } }

/-- A plan decimates outputs of port p. -/
def Plan.decimates (pl : Plan) (p : Nat) : Bool := pl.uses p && !(pl.decimList p).isEmpty

/-- Ticks of port p wait for Poppy, or a sweep in flight will bring some. -/
def State.popBusy (s : State) (p : Nat) : Bool :=
  !(s.ppop p).ticks.isEmpty || s.sw.flights.any fun f => f.plan.decimates p

/-- Poppy works for port p: ticks of it wait or are to come. -/
def State.popLive (s : State) (p : Nat) : Bool :=
  s.popBusy p || (match s.planNow with | some pl => pl.decimates p | none => false)

/-- Changes of a port for which no tick is to come act now. -/
def State.popSettle (s : State) (p : Nat) : State :=
  if s.popLive p then s else s.setPpop p fun pp => pp.todo.foldl PortPop.apply { pp with todo := [] }

/-- The lowest port with decimated outputs shows the stages and counts their fades, since the stages are the device's. -/
def State.poppyLeader (s : State) : Nat := (s.ports.find? fun p => !(s.ppop p).conf.list.isEmpty).getD 0

/-- The values and flags of a tick as Poppy reads them: bit 0 marks an error in the read (R356). -/
def State.tickVals (s : State) (p : Nat) (k : PTick) : List (Int × Nat) :=
  (s.cornerRead k.plan p k.base k.index).zipIdx.map fun (v, q) => if k.errs.contains q then (v.1, v.2 ||| 1) else v

/-- The counts of R189 for the ticks of one sweep, which its completion gives to the frame that holds the sweep: settling outputs,
saturated stage outputs, completed fades. The ticks before them come first, as Poppy will take them. -/
def State.popCounts (s : State) (p ord : Nat) : Nat × Nat × Nat :=
  let pp := s.ppop p
  (pp.ticks.foldl (fun (st : PortPop × Nat × Nat × Nat) k =>
    let r := st.1.tick k (s.tickVals p k)
    let (a, b, c) := st.2
    (r.port, if k.ord = ord then
      (a + (match r.final with | some f => if f.settling then f.row.length else 0 | none => 0), b + r.sats, c + r.fades)
    else st.2)) (pp, 0, 0, 0)).2

/-- Finals of a block gathered under one configuration. -/
structure PGroup where
  conf : PConf
  boxcar : Bool
  rows : List PFinal
  deriving DecidableEq, Repr

/-- Add a final output to the groups: a change of configuration opens a new one. -/
def addFinal (gs : List PGroup) (c : PConf) (box : Bool) (f : PFinal) : List PGroup :=
  match gs.reverse with
  | g :: r => if g.conf = c then r.reverse ++ [{ g with boxcar := box, rows := g.rows ++ [f] }] else gs ++ [⟨c, box, [f]⟩]
  | [] => [⟨c, box, [f]⟩]

/-- Run the ticks of a block through a port's chain. 0x3400:01 shows the latest final output while the device decimates in Sensing,
and 0 at other times (DESIGN CHOICE, assumption log 86). -/
def State.runTicks (s : State) (p : Nat) : List PTick → List PGroup → State × List PGroup
  | [], gs => (s, gs)
  | k :: r, gs =>
    let x := (s.ppop p).tick k (s.tickVals p k)
    let s := s.setPpop p fun _ => x.port
    match x.final with
    | none => s.runTicks p r gs
    | some f =>
      let shown := s.lad.inForce.any fun pl => s.ports.any pl.decimates
      let s := if shown then s.os 0x340001 (if f.settling then 1 else 2) else s
      s.runTicks p r (addFinal gs x.port.conf x.port.boxcar f)

/-- Record flags of Table 8-6 that the block's changes set. -/
def eventFlags (es : List PChange) : Nat :=
  es.foldl (fun a e => a ||| match e.what with | .reset => 32 | .conf _ => 32 | .take late => if late then 17 else 16 | _ => 0) 0

/-- The leading final outputs of a group that are settling. -/
def PGroup.settling (g : PGroup) : Nat := (g.rows.takeWhile (·.settling)).length

/-- The payload head (Table 8-5). -/
def poppyHead (p ident : Nat) (pl : Plan) (g : PGroup) (first count : Nat) (flags : Nat) : List Byte :=
  [byte p, byte (if g.boxcar then 1 else 0), byte (pl.format p), byte (pl.flagMode p)] ++ le 4 first ++ le 2 count ++
    le 2 g.rows.length ++ le 4 g.conf.dtot ++ le 8 ((g.rows.head?.map (·.m)).getD 0) ++ le 4 ident ++ le 2 flags ++
    le 2 g.settling

/-- The segments of a decimation list: at most 8 192 outputs of one stream entry, from a position of the list on. -/
def poppySegs (es : List Stream) : List (Stream × Nat × Nat × Nat) :=
  (es.foldl (fun (st : Nat × List (Stream × Nat × Nat × Nat)) e =>
    (st.1 + e.count, st.2 ++ (List.range (ceilDiv e.count 8192)).map fun i =>
      (e, st.1 + 8192 * i, e.first + 8192 * i, min 8192 (e.count - 8192 * i)))) (0, [])).2

/-- Offer the records of a group, under the plan that governs its last final output; `ident` is that of the plan that
governs the block's last input. -/
def State.offerGroup (s : State) (p ident ev : Nat) (g : PGroup) : State :=
  match g.rows, g.rows.reverse with
  | f0 :: _, f1 :: _ =>
    let pl := f1.tick.plan
    let es := pl.streams.filter fun e => decide (e.typ = 2) && decide (e.port = p)
    let s := if g.rows.any (·.restart) then s.restartCtxs (some p) else s
    (poppySegs es).foldl (fun s (e, pos, first, n) =>
      let part := g.rows.map fun f => (f.row.drop pos).take n
      let all := part.flatten
      let flags := ev ||| (if g.rows.any (·.cross) then 64 else 0) ||| (if all.any fun v => bit v.2 6 then 8 else 0) |||
        (if 0 < g.settling then 4 else 0) ||| (if all.any fun v => bit v.2 5 then 2 else 0)
      let fb := if pl.flagMode p = 0 then padTo 4 ((payloadOrder part).map fun v => byte v.2) else []
      s.offerStream pl e first f0.tick.sweep f0.tick.stamp 4 (poppyHead p ident pl g first n flags)
        (part.map fun r => r.map (·.1)) fb 0) s
  | _, _ => s

/-- Show the stages of the leading port (Table 8-3); a stage the plan has not reads 0. -/
def State.showPoppy (s : State) : State :=
  let pp := s.ppop s.poppyLeader
  (List.range 6).foldl (fun s j =>
    let (st, pos) := (pp.stages[j]?.map PStage.shown).getD (0, 0)
    (s.os (0x340012 + 0x10 * j) st).os (0x340013 + 0x10 * j) pos) s

/-! ## The Flax plan channels (R358, R367) -/

/-- The key of an object of a plan channel: channel 2p writes the corner buffer of port p, channel 2p + 1 reads it. -/
def planKey (p : Nat) (read : Bool) (sub : Nat) : Nat := okey (0x4310 + 2 * p + if read then 1 else 0) sub

/-- A plan channel moves n bytes; its descriptor, one for each block, begins or ends with them (R174, R367). -/
def State.planMove (s : State) (p : Nat) (read begins ends : Bool) (n : Nat) : State :=
  let moved := (if begins then 0 else s.og (planKey p read 5)) + n
  (s.os (planKey p read 5) (moved % 2 ^ 64)).os (planKey p read 1) (if ends then 4 else 3)

/-- A plan channel is built anew: waiting where the plan decimates outputs of the port, idle elsewhere. Where in DRAM its
descriptors stand is not stated. -/
def State.planBuild (s : State) (pl : Plan) (p : Nat) (read : Bool) : State :=
  if (s.portOn p && pl.decimates p) = true then
    let (a, s) := s.draw (max 1 (s.og 0x420002 * 16384))
    ((s.os (planKey p read 4) (64 * a)).os (planKey p read 5) 0).os (planKey p read 1) 1
  else s.os (planKey p read 1) 0

/-- Both plan channels of every port. -/
def State.planChannels (s : State) (pl : Plan) : State :=
  (List.range 4).foldl (fun s p => (s.planBuild pl p false).planBuild pl p true) s

/-- The ticks of the block that the first waiting tick begins, and the ticks after it: a tick of another block, of another corner
depth, or with an index that does not rise (R13, R413) belongs to a later one. -/
def splitBlock : List PTick → List PTick × List PTick
  | [] => ([], [])
  | [k] => ([k], [])
  | k :: k' :: r =>
    let d := k.plan.cornerDepth
    if k'.plan.cornerDepth = d ∧ k'.index / max 1 d = k.index / max 1 d ∧ k.index < k'.index then
      let (a, b) := splitBlock (k' :: r)
      (k :: a, b)
    else ([k], k' :: r)

/-- No tick can join a block any more: it has its last input, a later block has begun, or the port decimates no more (R186). -/
def State.blockOver (s : State) (p : Nat) (mine rest : List PTick) : Bool :=
  match mine.getLast? with
  | none => false
  | some k => decide ((k.index + 1) % max 1 k.plan.cornerDepth = 0) || !rest.isEmpty ||
      !((s.sw.flights.any fun f => f.plan.decimates p) || (match s.planNow with | some pl => pl.decimates p | none => false))

/-- The changes that fall within a block: those its ticks reach, and, in a block that a take broke off, those of the sweep that did. -/
def PortPop.within (pp : PortPop) (mine rest : List PTick) : List PChange :=
  match mine.getLast? with
  | none => []
  | some k =>
    let upTo := if (k.index + 1) % max 1 k.plan.cornerDepth = 0 then k.ord else ((rest.head?.map (·.ord)).getD (k.ord + 1))
    pp.todo.filter fun e => decide (e.ord ≤ max k.ord upTo)

/-- POPPY_BLOCK (R174 to R189): block b of a port, whose ticks stand in the corner buffer, goes through the chain and its records
are offered. -/
def execPoppyBlock (t port block corrected : Nat) (s : State) : Host.Outcome State Fault Refusal :=
  let s := (s.at t).dramFixed corrected
  let (mine, rest) := splitBlock (s.ppop port).ticks
  match mine with
  | [] => .next s
  | k :: _ =>
    if k.index / max 1 k.plan.cornerDepth = block ∧ s.blockOver port mine rest = true then
      let events := (s.ppop port).within mine rest
      let s := s.setPpop port fun pp => { pp with ticks := rest }
      let s := s.planMove port true true true (5 * sumN (mine.map fun k => (k.plan.decimList port).length))
      let (s, gs) := s.runTicks port mine []
      let ident := (mine.getLast?.map fun k => k.plan.ident).getD 0
      let s := gs.foldl (fun s g => s.offerGroup port ident (eventFlags events) g) s
      .next (s.popSettle port).showPoppy
    else .next s

/-- The ticks of a completed sweep of one port enter its corner buffer, by the channel that writes it (R172 to R174, R358), and
what Poppy will make of them counts (R189). -/
def State.cornerPort (s : State) (f : Flight) (p : Nat) : State :=
  let list := f.plan.decimList p
  let mine := s.das.ticks.filter fun w => decide (w.port = p) && decide (w.ord = f.ord)
  let k := max 1 f.plan.cornerDepth
  let first := f.plan.slots * f.index
  let s := s.planMove p false (decide (first % k = 0)) (decide ((first + f.plan.slots) % k = 0)) (5 * mine.length * list.length)
  let base := s.cornerBase f.rung f.plan p
  let s := mine.foldl (fun s w => s.cornerWrite f.plan p base (first + w.slot) (list.map (s.outValue f w))) s
  let new := mine.map fun w => (⟨first + w.slot, f.index, f.ord, f.stamp, f.plan, base, []⟩ : PTick)
  let s := s.setPpop p fun pp => { pp with ticks := pp.ticks ++ new }
  let (settling, sats, fades) := s.popCounts p f.ord
  let s := (s.countAt f.index 78 settling).countAt f.index 79 sats
  if p = s.poppyLeader then s.countAt f.index 80 fades else s

/-- The ticks of a completed sweep enter the corner buffers. -/
def State.cornerTurn (s : State) (f : Flight) : State :=
  (s.ports.filter f.plan.decimates).foldl (fun s p => s.cornerPort f p) s

/-! ## Changes at a boundary (R181 to R186) -/

/-- A change acts on a port from the first input of the sweep that begins; where the port has no ticks to come it acts at once. -/
def State.poppyEvent (s : State) (p at_ : Nat) (e : PEvent) : State :=
  (s.setPpop p fun pp => { pp with todo := pp.todo ++ [⟨s.sw.ord, at_, e⟩] }).popSettle p

/-- For every port. -/
def State.poppyAll (s : State) (at_ : Nat) (e : PEvent) : State := s.ports.foldl (fun s p => s.poppyEvent p at_ e) s

/-- A take (Table 8-4): a plan whose Poppy sections or decimation list differ replaces the chain of every port; an entry
to Sensing resets every port and restarts every coding context; a chain reset of a port resets that port. Fade lengths and initial
banks of a new chain go into their objects; a plan that decimates nothing leaves Poppy idle. -/
def State.poppyTake (s : State) (old : Option Plan) (pl : Plan) (index : Nat) (entry late : Bool) (chain : List Nat) : State :=
  let at_ := pl.slots * index
  let differs := (List.range 4).any fun p => decide (old.map (fun o => o.poppy p) ≠ some (pl.poppy p)) ||
    (s.portOn p && decide ((s.ppop p).conf ≠ pl.poppy p) && (s.ppop p).todo.isEmpty)
  let s := s.poppyAll at_ (.take late)
  let s := if (old.map fun o => o.sec 0x50 0) = some (pl.sec 0x50 0) then s else s.poppyAll at_ .map
  let s := if entry then s.restartCtxs none else s
  let s := if entry || differs then s.planChannels pl else s
  let s := if s.ports.any pl.decimates then s else s.os 0x340001 0
  if differs then
    let s := s.ports.foldl (fun s p => s.poppyEvent p at_ (.conf (pl.poppy p))) s
    let secs := (pl.poppy 0).secs
    ((List.range secs.length).foldl (fun s j =>
      (s.os (0x340010 + 0x10 * j) (fld (secs.getD j []) 0xC 1)).os (0x340011 + 0x10 * j) (fld (secs.getD j []) 0xA 2)) s).showPoppy
  else if entry then s.poppyAll at_ .reset
  else chain.foldl (fun s p => s.poppyEvent p at_ .reset) s

/-- The transfer of a shadowed write to the Poppy family at the boundary of a sweep. -/
def State.poppyTransfer (s : State) (sub : Nat) (b : List Byte) (at_ : Nat) : State :=
  let v := unle b
  let j := (sub - 0x10) / 0x10
  if sub = 2 then s.poppyAll at_ .reset
  else if sub = 3 then (s.os 0x340003 v).poppyAll at_ (.mode v)
  else if sub % 16 = 0 then (s.os (0x340000 + sub) v).poppyAll at_ (.select j v)
  else if sub % 16 = 1 then (s.os (0x340000 + sub) v).poppyAll at_ (.fadeLen j v)
  else s.poppyAll at_ (.load j b)

/-! ## Commands -/

/-- A bank select of stage j is pending: not yet transferred, or transferred and not yet at its first output. -/
def State.selectPending (s : State) (j : Nat) : Bool :=
  (s.lad.pend.any fun u => u.writes.any fun w => decide (w.index = 0x3400 ∧ w.sub = 0x10 + 0x10 * j)) ||
    (s.ports.filter s.popLive).any fun p =>
      ((s.ppop p).todo.any fun e => match e.what with | .select k _ => decide (k = j) | _ => false) ||
        (match (s.ppop p).stages[j]? with | some st => st.want.isSome | none => false)

/-- The checks of an inactive-bank load (R184), then its acceptance as a shadowed write. -/
def bankLoad (j : Nat) (b : List Byte) (s : State) : Except Nat State :=
  match s.planNow.bind fun pl => (pl.poppy 0).secs[j]? with
  | none => .error 0x08000020
  | some sec =>
    require (!(decide (PSec.typ sec = 1) && decide (4 < b.length))) 0x08000020 <|
    require (decide (b.length = 4 + 4 * PSec.words sec)) 0x06070010 <|
    require (decide (fld b 0 4 ≤ 63) &&
      (wordsAt b 4 (PSec.words sec)).all fun w => decide (-8388608 ≤ w ∧ w ≤ 8388607)) 0x06090030 <|
    require (!(s.selectPending j) && !(s.pop.ports.any fun pp =>
      match pp.stages[j]? with | some st => st.fading | none => false)) 0x08000020 <|
    shadow 0x3400 (0x14 + 0x10 * j) b s

/-- INACTIVE_BANK_LOAD (R184). -/
def execInactiveBankLoad (t c stage : Nat) (data : List Byte) (s : State) : Host.Outcome State Fault Refusal :=
  .next ((s.at t).hostWrite c 0x3400 (0x14 + 0x10 * stage) true data (bankLoad stage data))

/-- POPPY_RESET_WRITE (R186). -/
def execPoppyResetWrite (t c : Nat) (s : State) : Host.Outcome State Fault Refusal :=
  .next ((s.at t).hostWrite c 0x3400 2 false (le 1 1) (shadow 0x3400 2 (le 1 1)))

/-- POPPY_MODE_WRITE (R185). -/
def execPoppyModeWrite (t c mode : Nat) (s : State) : Host.Outcome State Fault Refusal :=
  .next ((s.at t).hostWrite c 0x3400 3 false (le 1 mode) (shadow 0x3400 3 (le 1 mode)))

end Sys2Proof.Machine
end

