-- ==== Sys2Proof/Machine/Memory.lean ====
section
/-! DEFINITION. Cashew ownership and the DRAM controller (15): regions, usable bandwidth, bank owners, scrub, refresh. -/

namespace Sys2Proof.Machine

open Sys2Proof

/-- The fixed regions (R345, R498). -/
def State.reserveFixed (s : State) : State :=
  let put (s : State) (k : RegionKind) (n : Nat) : State := (s.reserve k (n * mib)).getD s
  put (put (put s .plans 128) .walnut 64) .install 8

/-- Bytes of the DTS region (R202). -/
def Plan.dtsRegion (pl : Plan) : Nat :=
  if pl.hasDts then 2 * (pl.dtsM + 1) * pl.rn * 2 * ((List.range 4).filter pl.uses).length * 4 else 0

/-- Reserve what prepare of a switch to a rung needs (R345); a region that the same stream map in force already has stays, and one
that an old plan's records have not left is kept beside it (R520). -/
def State.reservePlan (s : State) (rung : Nat) (pl : Plan) : Option State :=
  let dts := max pl.dtsRegion (sumN ((s.mem.regions.filter fun r => decide (r.kind = .dts)).map (·.size)))
  let same := decide ((s.lad.inForce.map (·.sec 0x50 0)) = some (pl.sec 0x50 0)) && decide (s.og 0x240001 = rung) &&
    s.mem.regions.any fun r => decide (r.kind = .queues rung) && decide (r.size = pl.queueRegion)
  match if same then some s else (s.keepDrained rung).reserve (.queues rung) pl.queueRegion with
  | some s => s.reserve .dts dts
  | none => none

/-- What an entry to Sensing must reserve beside the plan's own regions: the burst region (R143, R345). -/
def State.reserveEntry (s : State) (rung : Nat) (pl : Plan) : Option State :=
  match s.reservePlan rung pl with
  | some s => s.reserve .burst (s.og 0x40300A * mib)
  | none => none

/-- The regions of a plan could fit beside the fixed regions (R345, Table 3-8 code 0x09). -/
def State.couldFit (s : State) (pl : Plan) : Bool :=
  decide (200 * mib + pl.queueRegion + pl.dtsRegion ≤ s.dramBytes)

/-! ## Usable bandwidth (R346, R350, R354) -/

/-- U for a number of interfaces, rate, refresh mode and ECC. -/
def usable (n rate mode ecc : Nat) : Nat :=
  n * 4 * rate * (if mode = 0 then 78 else 74) * (if ecc = 1 then 7 else 8) / 800

def State.usableIn (s : State) (mode : Nat) : Nat :=
  usable (if bits (s.og 0x420001) 1 0 = 3 then 2 else bits (s.og 0x420001) 0 0) (s.og 0x420003) mode (s.og 0x420004)

/-- 0x4200:06. -/
def State.showUsable (s : State) : State := s.os 0x420006 (s.usableIn (s.og 0x420009))

/-- A plan's proof total stays within 70 % of U and its real-time demands within Table 15-4 (R50, R354). -/
def State.demandOk (s : State) (pl : Plan) (mode : Nat) : Bool :=
  let b := pl.sec 0x61 0
  decide (fld b 0x20 4 * 10 ≤ s.usableIn mode * 7) &&
    decide (fld b 0x18 4 ≤ if mode = 0 then 187245 else 33351) &&
    decide (fld b 0x0C 4 ≤ if mode = 0 then 93622 else 16675) &&
    decide (fld b 0x10 4 ≤ if mode = 0 then 46811 else 8337)

/-! ## Bank owners (R333 to R335) -/

/-- Cashew banks that a plan gives to schedule entries, all instances. -/
def Plan.schedBanks (pl : Plan) : Nat :=
  (List.range 13).foldl (fun m i =>
    (List.range (pl.schedCount i)).foldl (fun m k => m ||| fld (pl.sec 0x20 i) (16 + 96 * k + 0x18) 8) m) 0

/-- Cashew banks that a plan gives to queues. -/
def Plan.queueBanks (pl : Plan) : Nat :=
  (List.range 13).foldl (fun m q => if pl.qEntry q 0 4 = 0 ∨ pl.qEntry q 4 1 ≠ 0 then m else m ||| pl.qEntry q 8 8) 0

/-- The owner code a plan gives a bank, 0 for none. -/
def Plan.bankCode (pl : Plan) (b : Nat) : Nat :=
  if bit pl.schedBanks b then 1 else if bit pl.hazelBanks b then 2 else if bit pl.queueBanks b then 3 else 0

/-- A queue's records still stand in bank b. -/
def State.drains (s : State) (b : Nat) : Bool := s.qu.qs.any fun q => q.recs.any fun r => bit r.banks b

/-- The owner of bank b after a take of a plan, or once its old records have left (R335). -/
def State.nextOwner (s : State) (pl : Plan) (b : Nat) : Nat :=
  let old := s.og (okey 0x4201 (b + 1))
  if s.drains b then 3
  else if pl.bankCode b ≠ 0 then pl.bankCode b
  else if old = 4 then 4 else 0

/-- Put the owners of all banks into their objects. -/
def State.ownBanks (s : State) (pl : Plan) : State :=
  (List.range 48).foldl (fun s b => s.os (okey 0x4201 (b + 1)) (s.nextOwner pl b)) s

/-- Banks whose old records have all left take their new code. -/
def State.releaseBanks (s : State) : State :=
  match s.planNow with
  | some pl =>
    (List.range 48).foldl (fun s b =>
      if s.og (okey 0x4201 (b + 1)) = 3 then s.os (okey 0x4201 (b + 1)) (s.nextOwner pl b) else s) s
  | none => s

/-- DRAM queue regions of rungs other than the active one and of old plans that hold no records are given back (R520). -/
def State.releaseRegions (s : State) : State :=
  let used (r : Nat) : Bool := decide (s.og 0x240001 = r) || decide ((s.lad.switch.map (·.rung)) = some r)
  let gone (x : Region) : Bool := !s.drainsRegion x.base && (match x.kind with | .queues r => !used r | .drained _ => true | _ => false)
  s.setMem fun m => { m with regions := m.regions.filter fun x => !gone x }

/-- Bank b serves its present owner: no hand-over runs (R334). -/
def State.bankReady (s : State) (b : Nat) : Bool := !s.mem.handover.any fun h => decide (h.1 = b) && decide (s.now < h.2)

/-- The effect of a write to 0x4201:01 + b (R333, R334): done at most 50 ns later. -/
def bankOwner (b v : Nat) (s : State) : Except Nat State :=
  let old := s.og (okey 0x4201 (b + 1))
  let names (pl : Option Plan) : Bool := match pl with | some pl => decide (pl.bankCode b ≠ 0) | none => false
  let waiting := s.lad.switch.bind fun w => s.rung w.rung
  require (decide (v = 0 ∨ v = 4)) 0x06090030 <|
    require (decide (old = 0 ∨ old = 4) && !names s.activePlan && !names waiting) 0x08000020 <|
      let s := s.os (okey 0x4201 (b + 1)) v
      .ok { s with mem := { s.mem with
        handover := (s.mem.handover.filter fun h => decide (s.now < h.2) && decide (h.1 ≠ b)) ++ [(b, s.now + 50)] } }

/-- BANK_OWNER_WRITE (R333). -/
def execBankOwnerWrite (t c bank owner : Nat) (s : State) : Host.Outcome State Fault Refusal :=
  .next ((s.at t).hostWrite c 0x4201 (bank + 1) false (le 1 owner) (bankOwner bank (owner % 256)))

/-! ## Cashew events -/

/-- BUSY_STROBE (R336, R337): counted, marked, no data changes. -/
def execBusyStrobe (t bank : Nat) (s : State) : Host.Outcome State Fault Refusal :=
  let s := s.at t
  if bank < 48 ∧ s.coreLive = true then .next (((s.bump 0x420012).count 55).osBit 0x420013 bank true) else .next s

/-- CASHEW_SCRUB (R338, R339): a single-bit error is corrected and written back; an uncorrectable dword is left. -/
def execCashewScrub (t bank dword : Nat) (error : EccError) (s : State) : Host.Outcome State Fault Refusal :=
  let s := s.at t
  if bank < 48 ∧ dword < 65536 ∧ s.coreLive = true then
    match error with
    | .none => .next s
    | .single => .next (s.bump 0x420014).eccFix
    | .double => .next (s.bump 0x420015).eccLost
  else .next s

/-! ## Refresh and scrub -/

/-- Interface i is fitted and its domain live. -/
def State.ifaceLive (s : State) (i : Nat) : Bool := s.pw.dramLive && bit (bits (s.og 0x420001) 1 0) i && decide (i < 2)

/-- REFRESH (R350, R351): in HY36-compatible mode up to eight all-bank refreshes are postponed while requests wait, then
made up in one burst of nine. A waiting request ends self-refresh. -/
def execRefresh (t iface : Nat) (waiting : Bool) (s : State) : Host.Outcome State Fault Refusal :=
  let s := s.at t
  if s.ifaceLive iface = true then
    let n := s.mem.postponed.getD iface 0
    let s := s.setMem fun m => { m with
      selfRefresh := modAt m.selfRefresh iface fun x => x && !waiting
      used := modAt m.used iface fun x => if waiting then s.now else x }
    let n := if s.og 0x420009 = 1 ∧ waiting = true ∧ n < 8 then n + 1 else 0
    .next (s.setMem fun m => { m with postponed := modAt m.postponed iface fun _ => n })
  else .next s

/-- A real-time requester is enabled by the active plan: its field of the bandwidth proof is not 0 (R352, R354). -/
def State.realTimeOn (s : State) : Bool :=
  match s.activePlan with
  | some pl => decide (fld (pl.sec 0x61 0) 0x0C 4 ≠ 0 ∨ fld (pl.sec 0x61 0) 0x10 4 ≠ 0 ∨ fld (pl.sec 0x61 0) 0x18 4 ≠ 0)
  | none => false

/-- SELF_REFRESH_ENTRY (R352): after the idle time of 0x4200:0B without a request. -/
def execSelfRefreshEntry (t iface : Nat) (s : State) : Host.Outcome State Fault Refusal :=
  let s := s.at t
  if s.ifaceLive iface = true ∧ s.og 0x42000B ≠ 0 ∧ s.realTimeOn = false ∧
      s.mem.used.getD iface 0 + 1000 * s.og 0x42000B ≤ s.now then
    .next (s.setMem fun m => { m with
      selfRefresh := modAt m.selfRefresh iface fun _ => true, postponed := modAt m.postponed iface fun _ => 0 })
  else .next s

/-- The effect of a write to 0x4200:09 (R351). -/
def refreshMode (v : Nat) (s : State) : Except Nat State :=
  let ok := (List.range 16).all fun r => match s.rung r with | some pl => s.demandOk pl 1 | none => true
  require (decide (v ≠ 1) || ok) 0x08000020 <|
    .ok ((s.os 0x420009 v).setMem fun m => { m with postponed := [0, 0] }).showUsable

/-- REFRESH_MODE_WRITE (R351). -/
def execRefreshModeWrite (t c mode : Nat) (s : State) : Host.Outcome State Fault Refusal :=
  .next ((s.at t).hostWrite c 0x4200 9 false (le 1 mode) (refreshMode (mode % 256)))

/-- The effect of a write to 0x4200:0D (R357). -/
def fullScrub (s : State) : Except Nat State :=
  require (decide (s.og 0x420004 = 1)) 0x08000020 (.ok (s.startLong 4 28000 0 []))

/-- FULL_SCRUB (R357). -/
def execFullScrub (t c : Nat) (s : State) : Host.Outcome State Fault Refusal :=
  .next ((s.at t).hostWrite c 0x4200 0xD false (le 1 1) fullScrub)

/-! ## Training (R341 to R343) -/

/-- The first of two where a fit field is 0, else the fit. -/
def fitField (written found : Nat) : Nat := if written = 0 then found else written

/-- The data rates of R341. -/
def dramRates : List Nat := [3200, 4267, 5500, 6400, 7500, 8533]

/-- What training finds for the DRAM fit: interfaces, ranks, capacity units, rate; none when it fails on an interface. -/
def trainDram (fit : Nat) (f : DramFit) : Except Nat (Nat × Nat × Nat × Nat) :=
  let ifs := fitField (bits fit 1 0) f.ifaces
  let ranks := fitField (bits fit 5 4) f.ranks
  let units := fitField (bits fit 15 8) f.units
  let best := (f.rates.filter fun r => dramRates.contains r).foldl max 0
  let rate := fitField (bits fit 31 16) best
  if ifs ≠ f.ifaces ∨ (ifs ≠ 1 ∧ ifs ≠ 3) then .error (if bit f.ifaces 0 then 1 else 0)
  else if ranks ≠ f.ranks ∨ ranks = 0 ∨ 2 < ranks ∨ units ≠ f.units ∨ units = 0 ∨ 32 < units ∨ f.rates.contains rate = false then .error 0
  else .ok (ifs, ranks, units, rate)

/-- The reports of a training that passed (R341, R343). -/
def State.showDram (s : State) (x : Nat × Nat × Nat × Nat) : State :=
  let (ifs, ranks, units, rate) := x
  let total := units * 512 * (if ifs = 3 then 2 else 1)
  let s := (s.os 0x420001 (ifs + 16 * ranks)).os 0x420002 (if s.og 0x420004 = 1 then total / 8 * 7 else total)
  (s.os 0x420003 rate).showUsable

/-- DRAM contents are lost (R502): memory, regions, plans on the ladder, shadows of install. -/
def State.dramLost (s : State) : State :=
  { s with
    pw := { s.pw with dramLive := false }
    mem := { s.mem with dram := [], regions := [], postponed := [0, 0], selfRefresh := [false, false] }
    lad := { s.lad with rungs := rep 16 none, reloading := [] } }

end Sys2Proof.Machine
end

