-- ==== Sys2Proof/Machine/Flax.lean ====
section
/-! DEFINITION. Flax (16): addresses, descriptors, bursts, arbitration and pacing, errors. The plan channels move the corner
turn of Poppy; their bursts are part of the block that Poppy filters, so only host channels move bytes here (assumption
log 18). -/

namespace Sys2Proof.Machine

open Sys2Proof

/-! ## Addresses (R359) -/

/-- The memory and the offset of a span of n bytes: Cashew or DRAM; none outside. -/
def State.span (s : State) (a n : Nat) : Option (Bool × Nat) :=
  if a < 2 ^ 63 then (if a + n ≤ s.dramBytes then some (false, a) else none)
  else if a - 2 ^ 63 + n ≤ 48 * 0x80000 then some (true, a - 2 ^ 63) else none

/-- A fixed or plan-sized region, which no host channel may write. -/
def RegionKind.guarded : RegionKind → Bool
  | .plans => true | .walnut => true | .install => true | .queues _ => true | .drained _ => true | .dts => true
  | .capture => false | .frame => false | .burst => false

/-- Why a host channel may not access n bytes at an address: 3 outside, 4 a device region, 5 a bank not owned by Flax;
0 when it may. -/
def State.spanFault (s : State) (a n : Nat) (write : Bool) : Nat :=
  match s.span a n with
  | none => 3
  | some (false, o) =>
    if write && s.mem.regions.any fun r => r.kind.guarded && decide (o < r.base + r.size) && decide (r.base < o + n) then 4 else 0
  | some (true, o) =>
    if (List.range 48).all fun b =>
      decide ((b + 1) * 0x80000 ≤ o) || decide (o + n ≤ b * 0x80000) || decide (s.og (okey 0x4201 (b + 1)) = 4) then 0 else 5

/-- Some bank of a span is being handed over, so the access waits (R334). -/
def State.spanWaits (s : State) (a n : Nat) : Bool :=
  match s.span a n with
  | some (true, o) =>
    (List.range 48).any fun b => decide (o < (b + 1) * 0x80000) && decide (b * 0x80000 < o + n) && !s.bankReady b
  | _ => false

/-! ## The byte funnel (R363) -/

/-- The access at an address with n bytes of its run to go: the largest of 1, 2, 4 or 8 bytes that is aligned and fits. -/
def accessSize (a n : Nat) : Nat :=
  if a % 8 = 0 ∧ 8 ≤ n then 8 else if a % 4 = 0 ∧ 4 ≤ n then 4 else if a % 2 = 0 ∧ 2 ≤ n then 2 else 1

/-- The aligned accesses of a run of n bytes: address and size. -/
def funnel : Nat → Nat → Nat → List (Nat × Nat)
  | 0, _, _ => []
  | fuel + 1, a, n => if n = 0 then [] else (a, accessSize a n) :: funnel fuel (a + accessSize a n) (n - accessSize a n)

/-- n bytes at a Flax address. -/
def State.busRead (s : State) (a n : Nat) : List Byte :=
  (funnel n a n).flatMap fun (a, n) => if a < 2 ^ 63 then s.dramRead a n else memRead s.mem.cashew (a - 2 ^ 63) n

/-- A read wakes the interface it meets. -/
def State.busTouch (s : State) (a n : Nat) : State := if a < 2 ^ 63 then s.touch a n else s

/-- Store bytes at a Flax address. -/
def State.busWrite (s : State) (a : Nat) (b : List Byte) : State :=
  (funnel b.length a b.length).foldl (fun s x =>
    let part := (b.drop (x.1 - a)).take x.2
    if x.1 < 2 ^ 63 then s.dramWrite x.1 part else s.setMem fun m => { m with cashew := memWrite m.cashew (x.1 - 2 ^ 63) part }) s

/-! ## Descriptors (Tables 16-1 and 16-2) -/

def FlaxChan.fieldOf (f : FlaxChan) (off n : Nat) : Nat := fld f.desc off n
def FlaxChan.control (f : FlaxChan) : Nat := f.fieldOf 0x18 4
/-- 0 copy, 1 fill, 2 compare. -/
def FlaxChan.op (f : FlaxChan) : Nat := bits f.control 31 30
/-- Element size in bytes. -/
def FlaxChan.esize (f : FlaxChan) : Nat := 2 ^ bits f.control 29 28
def FlaxChan.source (f : FlaxChan) : Nat := bits f.control 25 21
def FlaxChan.n0 (f : FlaxChan) : Nat := f.fieldOf 0x20 2
def FlaxChan.n1 (f : FlaxChan) : Nat := f.fieldOf 0x22 2
def FlaxChan.n2 (f : FlaxChan) : Nat := f.fieldOf 0x24 2
/-- Elements of the descriptor. -/
def FlaxChan.total (f : FlaxChan) : Nat := f.n0 * f.n1 * f.n2

/-- Code 2 of Table 16-4. Sources 17 to 24 are for plan channels only. -/
def FlaxChan.illegal (f : FlaxChan) : Bool :=
  decide (f.op = 3) || decide (f.total = 0) || decide (17 ≤ f.source) || decide (bits f.control 18 0 ≠ 0) ||
    decide (f.fieldOf 0x1C 4 ≠ 0) || decide (f.fieldOf 0x26 2 ≠ 0)

/-- Source address of element i in loop order, exact (R361). -/
def FlaxChan.sa (f : FlaxChan) (i : Nat) : Int :=
  (f.fieldOf 8 8 : Int) + (i % f.n0 : Nat) * fldI f.desc 0x28 4 + (i / f.n0 % f.n1 : Nat) * fldI f.desc 0x2C 4 +
    (i / f.n0 / f.n1 : Nat) * fldI f.desc 0x30 4

/-- Destination address of element i. -/
def FlaxChan.da (f : FlaxChan) (i : Nat) : Int :=
  (f.fieldOf 0x10 8 : Int) + (i % f.n0 : Nat) * fldI f.desc 0x34 4 + (i / f.n0 % f.n1 : Nat) * fldI f.desc 0x38 4 +
    (i / f.n0 / f.n1 : Nat) * fldI f.desc 0x3C 4

/-- An inner pass ends after element i and the next pass does not follow on at its end (R364). -/
def FlaxChan.passEnds (f : FlaxChan) (i : Nat) : Bool :=
  decide ((i + 1) % f.n0 = 0) &&
    !((decide (f.op = 1) || decide (f.sa (i + 1) = f.sa i + f.esize)) && decide (f.da (i + 1) = f.da i + f.esize))

/-- Elements of the burst that begins at element i: at most 256 bytes, to the end of a pass that is not contiguous with the
next one, or of the descriptor. -/
def FlaxChan.burstLen (f : FlaxChan) : Nat → Nat → Nat
  | 0, _ => 0
  | room + 1, i => if f.total ≤ i then 0 else if f.passEnds i then 1 else 1 + f.burstLen room (i + 1)

/-! ## Channels -/

def flk (ch sub : Nat) : Nat := okey (0x4310 + ch) sub

def State.fchan (s : State) (ch : Nat) : FlaxChan := s.fx.chans.getD ch ⟨[], false, 0, false, false, false⟩

def State.setChan (s : State) (ch : Nat) (f : FlaxChan → FlaxChan) : State :=
  { s with fx := { s.fx with chans := modAt s.fx.chans ch f } }

/-- Waiting, Running or Paused. -/
def State.chanBusy (s : State) (ch : Nat) : Bool := decide (1 ≤ s.og (flk ch 1) ∧ s.og (flk ch 1) ≤ 3)

/-- A channel leaves Flax in a state. -/
def State.chanEnd (s : State) (ch code : Nat) : State :=
  let s := (s.os (flk ch 1) code).setChan ch fun f => { f with loaded := false, stop := false, ran := false, asserted := false }
  if s.og 0x430001 = ch then s.os 0x430001 0xFF else s

/-- A fault ends a chain (R368). -/
def State.chanFault (s : State) (ch code at_ : Nat) : State :=
  (((s.os (flk ch 6) code).os (flk ch 7) at_)).chanEnd ch 5

/-- A change to Doze stops every channel (R358). -/
def State.flaxStop (s : State) : State := (List.range 16).foldl (fun s ch => s.chanEnd ch 0) s

/-- The effect of a start (R366). -/
def flaxStart (ch : Nat) (s : State) : Except Nat State :=
  let a := s.og (flk ch 2)
  require (decide (a % 64 = 0)) 0x06090030 <|
    require (decide (8 ≤ ch) && !s.chanBusy ch) 0x08000020 <|
      let s := ((((s.os (flk ch 1) 1).os (flk ch 4) a).os (flk ch 5) 0).os (flk ch 6) 0).os (flk ch 7) 0
      let s := (s.os (flk ch 8) 0xFFFFFFFFFFFFFFFF).os (flk ch 9) 0
      .ok (s.setChan ch fun _ => ⟨[], false, 0, false, false, false⟩)

/-- FLAX_START (R366, R358). -/
def execFlaxStart (t c ch : Nat) (s : State) : Host.Outcome State Fault Refusal :=
  .next ((s.at t).hostWrite c (0x4310 + ch) 3 false (le 1 1) (flaxStart ch))

/-- The effect of a stop: a running channel stops at its next burst boundary, a waiting or paused one at once. -/
def flaxHalt (ch : Nat) (s : State) : Except Nat State :=
  require (decide (8 ≤ ch)) 0x08000020 <|
    if s.og (flk ch 1) = 2 then .ok (s.setChan ch fun f => { f with stop := true })
    else if s.chanBusy ch then .ok (s.chanEnd ch 0)
    else .ok s

/-- FLAX_STOP (R366). -/
def execFlaxStop (t c ch : Nat) (s : State) : Host.Outcome State Fault Refusal :=
  .next ((s.at t).hostWrite c (0x4310 + ch) 3 false (le 1 2) (flaxHalt ch))

/-! ## Arbitration and pacing (R364, R365) -/

/-- Read the descriptor at the current address of a channel that starts one, with the faults of Table 16-4. -/
def State.loadDesc (s : State) (ch : Nat) : State :=
  let a := s.og (flk ch 4)
  if (s.fchan ch).loaded then s
  else if a % 64 ≠ 0 ∨ s.spanFault a 64 false = 3 then s.chanFault ch 1 a
  else if s.spanFault a 64 false = 5 then s.chanFault ch 5 a
  else
    let s := s.busTouch a 64
    let s := s.setChan ch fun f => { f with desc := s.busRead a 64, loaded := true, elem := 0 }
    if (s.fchan ch).illegal then s.chanFault ch 2 a else s

/-- The pacing request of a channel, examined at a burst boundary. -/
def State.request (s : State) (ch : Nat) : Bool :=
  let f := s.fchan ch
  let level := (s.queue (f.source - 1)).held
  let h := s.og (flk ch 0xA)
  let w := s.og (flk ch 0xB)
  if f.loaded = false ∨ f.source = 0 then true
  else if bit f.control 26 = false then (if h ≤ level then true else if level ≤ w then false else f.asserted)
  else if level ≤ w then true else if h ≤ level then false else f.asserted

/-- Examine every busy host channel: stops, descriptors to be read, pacing requests. -/
def State.examine (s : State) : State :=
  ((List.range 16).filter fun ch => decide (8 ≤ ch)).foldl (fun s ch =>
    if s.chanBusy ch = false then s
    else if (s.fchan ch).stop then s.chanEnd ch 0
    else
      let s := s.loadDesc ch
      if s.chanBusy ch then s.setChan ch fun f => { f with asserted := s.request ch } else s) s

/-- A busy host channel whose request is asserted. -/
def State.chanReady (s : State) (ch : Nat) : Bool := decide (8 ≤ ch) && s.chanBusy ch && (s.fchan ch).asserted

/-- The channel that holds Flax after a boundary: the running one while it is ready, else the lowest ready one. -/
def State.granted (s : State) : Option Nat :=
  let r := s.og 0x430001
  if r < 16 ∧ s.chanReady r = true then some r else (List.range 16).find? s.chanReady

/-- Grant Flax and show the states (R367). -/
def State.grant (s : State) : State :=
  let g := s.granted
  let s := s.os 0x430001 (g.getD 0xFF)
  ((List.range 16).filter fun ch => decide (8 ≤ ch) && s.chanBusy ch).foldl (fun s ch =>
    if g = some ch then (s.os (flk ch 1) 2).setChan ch fun f => { f with ran := true }
    else s.os (flk ch 1) (if (s.fchan ch).ran then 3 else 1)) s

/-! ## Bursts (R361, R362, R364, R368) -/

/-- The fault of element i: its code and the faulting address. -/
def State.elemFault (s : State) (f : FlaxChan) (i : Nat) : Nat × Nat :=
  let one (a : Int) (write : Bool) : Nat := if a < 0 ∨ 2 ^ 64 ≤ a then 3 else s.spanFault a.toNat f.esize write
  let addr (a : Int) : Nat := toU 64 a
  let src := if f.op = 1 then 0 else one (f.sa i) false
  let dst := one (f.da i) (decide (f.op ≠ 2))
  if src ≠ 0 then (src, addr (f.sa i)) else (dst, addr (f.da i))

/-- One element: copy, fill or compare; `noise` is what an uncorrectable error put into the bytes read. -/
def State.moveElem (s : State) (ch i noise : Nat) : State :=
  let f := s.fchan ch
  let n := f.esize
  let d := (f.da i).toNat
  let s := if f.op = 1 then s else s.busTouch (f.sa i).toNat n
  let v := le n (unle (s.busRead (f.sa i).toNat n) ^^^ noise)
  let s :=
    if f.op = 0 then s.busWrite d v
    else if f.op = 1 then s.busWrite d (le n (f.fieldOf 8 8))
    else if v = s.busRead d n then s
    else
      let s := if s.og (flk ch 9) = 0 then s.os (flk ch 8) i else s
      s.bump (flk ch 9)
  (s.os (flk ch 5) ((s.og (flk ch 5) + n) % 2 ^ 64)).setChan ch fun f => { f with elem := i + 1 }

/-- Count an uncorrectable error met in a read at an address (R339, R356). -/
def State.readLost (s : State) (a : Nat) : State :=
  if a < 2 ^ 63 then ((s.eccLost.bump 0x42000F).os 0x420010 a).pulse 12 else s.eccLost.bump 0x420015

/-- Single-bit errors that reads at an address corrected (R338, R343). -/
def State.readFixed (s : State) (a n : Nat) : State :=
  if a < 2 ^ 63 then s.dramFixed n else (s.bump 0x420014 n).count 53 n

/-- An uncorrectable error shows in a read at an address: in Cashew, or in DRAM with inline ECC on (R343). -/
def State.detects (s : State) (a : Nat) : Bool := decide (2 ^ 63 ≤ a) || decide (s.og 0x420004 = 1)

/-- The elements of a burst from i on; `bad` is the element whose read meets an uncorrectable error. -/
def State.moveBurst (s : State) (ch : Nat) (bad : Option Nat) : Nat → Nat → State
  | 0, _ => s
  | n + 1, i =>
    let f := s.fchan ch
    let (code, at_) := s.elemFault f i
    if code ≠ 0 then s.chanFault ch code at_
    else if bad = some i ∧ f.op ≠ 1 then
      let (noise, s) := s.draw (2 ^ (8 * f.esize))
      ((s.readLost (f.sa i).toNat).moveElem ch i noise).moveBurst ch bad n (i + 1)
    else (s.moveElem ch i 0).moveBurst ch bad n (i + 1)

/-- FLAX_BURST (R364 to R368): at a burst boundary Flax examines the channels, grants one, and that channel moves a burst.
With an uncorrectable error the burst completes with the data as read and the chain ends with code 6. `corrected` is how
many single-bit errors its reads corrected. -/
def execFlaxBurst (t : Nat) (memError : Option Nat) (corrected : Nat) (s : State) : Host.Outcome State Fault Refusal :=
  let s := s.at t
  if s.pw.power = .ready ∨ s.pw.power = .sensing then
    let s := s.examine.grant
    match s.granted with
    | none => .next s
    | some ch =>
      let f := s.fchan ch
      let n := f.burstLen (256 / f.esize) f.elem
      let waits := (List.range n).any fun k =>
        s.spanWaits (f.da (f.elem + k)).toNat f.esize || (decide (f.op ≠ 1) && s.spanWaits (f.sa (f.elem + k)).toNat f.esize)
      if waits then .next s
      else
        let bad := match memError with
          | some k => if k < n ∧ f.op ≠ 1 ∧ s.detects (f.sa (f.elem + k)).toNat = true then some (f.elem + k) else none
          | none => none
        let s := (if f.op ≠ 1 then s.readFixed (f.sa f.elem).toNat corrected else s).moveBurst ch bad n f.elem
        match bad with
        | some i => .next (if s.og (flk ch 1) = 5 then s else s.chanFault ch 6 (f.sa i).toNat)
        | none => .next s
  else .next s

/-- DESCRIPTOR_COMPLETE (R360, R362): the running channel, its last element moved, reads its next field again. -/
def execDescriptorComplete (t : Nat) (s : State) : Host.Outcome State Fault Refusal :=
  let s := s.at t
  let ch := s.og 0x430001
  let f := s.fchan ch
  if ch < 16 ∧ f.loaded = true ∧ f.total ≤ f.elem then
    let s := s.busTouch (s.og (flk ch 4)) 8
    let next := unle (s.busRead (s.og (flk ch 4)) 8)
    if bit f.control 27 = true ∧ f.op = 2 ∧ s.og (flk ch 9) ≠ 0 then .next (s.chanEnd ch 4)
    else if next = 0 then .next (s.chanEnd ch 4)
    else if next % 64 ≠ 0 ∨ s.spanFault next 64 false = 3 then .next (s.chanFault ch 1 next)
    else .next ((s.os (flk ch 4) next).setChan ch fun f => { f with loaded := false, elem := 0 })
  else .next s

end Sys2Proof.Machine
end

