-- ==== Sys2Proof/Machine/Almond.lean ====
section
/-! DEFINITION. The dictionary mode of Almond (16): blocks, tokens, jobs, stopping, state images. Which tokens Almond
chooses is no part of the format; the choice is an opaque function of the window and the input (R370). -/

namespace Sys2Proof.Machine

open Sys2Proof

/-! ## Tokens (Table 16-7) -/

def literalToken (b : List Byte) : List Byte := byte (b.length - 1) :: b

/-- A match of length n (4 to 65 535) at distance d (1 to 65 536). -/
def matchToken (n d : Nat) : List Byte :=
  if n ≤ 130 then byte (0x80 + n - 4) :: le 2 (d - 1) else 0xFF :: (le 2 (n - 131) ++ le 2 (d - 1))

/-- How many bytes of `rest` a copy from distance d yields, one at a time: `win` is the output so far, newest first. -/
def matchLen (d : Nat) : Nat → List Byte → List Byte → Nat
  | 0, _, _ => 0
  | _ + 1, _, [] => 0
  | fuel + 1, win, b :: rest => if d ≤ win.length ∧ win.getD (d - 1) 0 = b then 1 + matchLen d fuel (b :: win) rest else 0

/-- Keep the newest 65 536 bytes. -/
def keepWin (l : List Byte) : List Byte := l.take 65536

/-- The tokens of the bytes `rest` with the window `win` (newest first): each unit's bytes and the input bytes it stands
for. `key` numbers the choices. -/
def tokens (key : Nat) : Nat → List Byte → List Byte → List (List Byte × Nat)
  | 0, _, _ => []
  | _ + 1, _, [] => []
  | fuel + 1, win, b :: rest =>
    let r := b :: rest
    let d := 1 + Config.almondPick (key + 3 * fuel) % 65536
    let m := matchLen d (min 65535 r.length) win r
    if 4 ≤ m then
      let n := 4 + Config.almondPick (key + 3 * fuel + 1) % (m - 3)
      (matchToken n d, n) :: tokens key fuel (keepWin ((r.take n).reverse ++ win)) (r.drop n)
    else
      let n := 1 + Config.almondPick (key + 3 * fuel + 2) % min 128 r.length
      (literalToken (r.take n), n) :: tokens key fuel (keepWin ((r.take n).reverse ++ win)) (r.drop n)

/-- A block's units: head, tokens, check word (R369). -/
def blockUnits (restart : Bool) (win input : List Byte) : List (List Byte × Nat) :=
  let key := unle (win ++ [1] ++ input ++ [1]) * 2 ^ 32
  ([1, if restart then 1 else 0, 0, 0] ++ le 4 input.length, 0) :: tokens key input.length win input ++ [(le 4 (crc32c input), 0)]

/-! ## The job descriptor (Table 16-8) -/

/-- Stop mode (R374): Doze, recovery mode, or the test flag. -/
def State.stopMode (s : State) (j : Job) : Bool :=
  decide (s.pw.power = .doze) || decide (s.og 0x500001 = 1) || bit j.flags 1

/-- The descriptor's faults in Table 16-9 that show at the start: address 3, field 4. -/
def State.jobFault (s : State) (d : List Byte) (at_ : Nat) : Nat :=
  let kind := fld d 0 1
  let n := fld d 4 4
  if s.spanFault at_ 32 false ≠ 0 then 3
  else if kind = 0 ∨ 3 < kind ∨ 4 ≤ fld d 1 1 ∨ fld d 0x18 8 ≠ 0 then 4
  else if kind = 1 then
    if fld d 2 2 = 0 ∨ 256 < fld d 2 2 ∨ 0x1000000 < n then 4
    else if s.spanFault (fld d 8 8) n false ≠ 0 ∨ s.spanFault (fld d 0x10 8) (16 * fld d 2 2) true ≠ 0 then 3
    else 0
  else if s.spanFault (fld d 8 8) 131136 (decide (kind = 2)) ≠ 0 then 3
  else 0

/-- The job that a descriptor starts. -/
def State.makeJob (s : State) (at_ : Nat) : Job :=
  let d := s.busRead at_ 32
  let fail := s.jobFault d at_
  let kind := if fail = 3 ∧ s.spanFault at_ 32 false ≠ 0 then 0 else fld d 0 1
  let restart := bit (fld d 1 1) 0 || s.al.restart
  let win := if restart then [] else s.al.window
  let input := if fail = 0 ∧ kind = 1 then s.busRead (fld d 8 8) (fld d 4 4) else []
  { kind := kind, flags := fld d 1 1, input := input, fail := fail, image := fld d 8 8
    units := if fail = 0 ∧ kind = 1 then blockUnits restart win input else []
    after := keepWin (input.reverse ++ win), afterPos := s.al.pos + input.length
    listAt := fld d 0x10 8, listLeft := fld d 2 2, entryAt := 0, bufAt := 0, bufCap := 0, bufUsed := 0, consumed := 0
    produced := 0, buffers := 0 }

def State.setAl (s : State) (f : Almond → Almond) : State := { s with al := f s.al }

/-- The effect of a start (R372). -/
def jobStart (s : State) : Except Nat State :=
  require (decide (s.og 0x440003 ≠ 1 ∧ s.og 0x440003 ≠ 2)) 0x08000020 <|
    let j := s.makeJob (s.og 0x440001)
    let s := s.setAl fun a => { a with job := some j }
    let s := if j.kind = 1 ∧ j.fail = 0 then s.setAl fun a => { a with restart := false } else s
    .ok ((((s.os 0x440003 1).os 0x440004 0).os 0x440005 0).os 0x440006 0 |>.os 0x440007 0)

/-- JOB_START (R372). -/
def execJobStart (t c : Nat) (s : State) : Host.Outcome State Fault Refusal :=
  .next ((s.at t).hostWrite c 0x4400 2 false (le 1 1) jobStart)

/-- The effect of a resume (R374): a new list. -/
def jobResume (s : State) : Except Nat State :=
  match s.al.job with
  | some j =>
    require (decide (s.og 0x440003 = 2)) 0x08000020 <|
      .ok (((s.setAl fun a => { a with job := some { j with listAt := s.og 0x440008, listLeft := s.og 0x440009, bufCap := 0 } }).os
        0x440003 1).os 0x440004 0)
  | none => .error 0x08000020

/-- JOB_RESUME (R374). -/
def execJobResume (t c : Nat) (s : State) : Host.Outcome State Fault Refusal :=
  .next ((s.at t).hostWrite c 0x4400 2 false (le 1 2) jobResume)

/-- The effect of an abandon: the next compress job restarts history. A write with no job has nothing to abandon. -/
def jobAbandon (s : State) : Except Nat State :=
  if s.al.job.isSome then .ok ((s.setAl fun a => { a with job := none, restart := true }).os 0x440003 0) else .ok s

/-- JOB_ABANDON (R374). -/
def execJobAbandon (t c : Nat) (s : State) : Host.Outcome State Fault Refusal :=
  .next ((s.at t).hostWrite c 0x4400 2 false (le 1 3) jobAbandon)

/-! ## Filling the buffers (R373, R374) -/

/-- Close the current buffer: zeros to its end where it was full, its valid length into its entry. -/
def State.closeBuf (s : State) (j : Job) (pad : Bool) : State :=
  if j.bufCap = 0 then s
  else
    let s := if pad then s.busWrite (j.bufAt + j.bufUsed) (rep (j.bufCap - j.bufUsed) 0) else s
    s.busWrite (j.entryAt + 12) (le 4 j.bufUsed)

/-- Open the next buffer of the list: the job with it, or the fault of its entry. -/
def State.openBuf (s : State) (j : Job) : Except Nat Job :=
  if s.spanFault j.listAt 16 true ≠ 0 then .error 3
  else
    let e := s.busRead j.listAt 16
    let cap := fld e 8 4
    if cap < 16 ∨ 0x1000000 < cap then .error 4
    else if s.spanFault (fld e 0 8) cap true ≠ 0 then .error 3
    else .ok { j with entryAt := j.listAt, listAt := j.listAt + 16, listLeft := j.listLeft - 1, bufAt := fld e 0 8, bufCap := cap
                      bufUsed := 0, buffers := j.buffers + 1 }

/-- How a job's output run ends: done, out of list, buffer full in stop mode, or a fault of an entry. -/
inductive JobEnd where
  | done | listOut | full | fault (code : Nat)
  deriving DecidableEq, Repr

/-- Write units until they are out or no buffer takes the next one. -/
def State.fillBufs (s : State) (stop : Bool) : Nat → Job → State × Job × JobEnd
  | 0, j => (s, j, .listOut)
  | fuel + 1, j =>
    match j.units with
    | [] => (s.closeBuf j false, j, .done)
    | (b, n) :: rest =>
      if j.bufCap ≠ 0 ∧ j.bufUsed + b.length ≤ j.bufCap then
        (s.busWrite (j.bufAt + j.bufUsed) b).fillBufs stop fuel
          { j with units := rest, bufUsed := j.bufUsed + b.length, consumed := j.consumed + n, produced := j.produced + b.length }
      else
        let s := s.closeBuf j true
        if stop && decide (j.bufCap ≠ 0) then (s, { j with bufCap := 0 }, .full)
        else if j.listLeft = 0 then (s, { j with bufCap := 0 }, .listOut)
        else match s.openBuf j with
          | .error code => (s, { j with bufCap := 0 }, .fault code)
          | .ok j => s.fillBufs stop fuel j

/-- Steps that a run needs at most: a unit each and a buffer each. -/
def Job.fuel (j : Job) : Nat := j.units.length + j.listLeft + 2

/-! ## State images (R375) -/

/-- The 64 KiB ring of the window: index i holds the latest byte put at a position congruent to i; what no byte of the
window fills is not stated. -/
def State.ring (s : State) : List Byte :=
  (List.range 65536).map fun i =>
    let back := (s.al.pos + 65535 - i) % 65536
    if back < s.al.window.length then s.al.window.getD back 0 else byte (Config.almondTable (s.free * 131072 + i))

/-- The state image: its match tables are not described by the spec. -/
def State.stateImage (s : State) : List Byte :=
  let body := s.ring ++ (List.range 65536).map fun i => byte (Config.almondTable (s.free * 131072 + 65536 + i))
  le 4 0x54444C41 ++ le 4 s.al.window.length ++ le 4 (s.al.pos % 2 ^ 32) ++ le 4 (crc32c body) ++ rep 48 0 ++ body

/-- Load a state image that passes its check. -/
def loadImage (b : List Byte) : Option (List Byte × Nat) :=
  let fill := fld b 4 4
  let pos := fld b 8 4
  if fld b 0 4 = 0x54444C41 ∧ fill ≤ 65536 ∧ fld b 12 4 = crc32c (b.drop 64) then
    some ((List.range fill).map fun k => b.getD (64 + (pos + 65535 - k) % 65536) 0, pos)
  else none

/-! ## JOB_DONE -/

/-- Write a job's result, counts and state. -/
def State.jobReport (s : State) (j : Job) (state result : Nat) : State :=
  ((((s.os 0x440003 state).os 0x440004 result).os 0x440005 j.consumed).os 0x440006 j.produced).os 0x440007 (j.buffers % 65536)

/-- A compress job's run to its end or to a stop (R373, R374, R376). A read error cuts the units after those already made. -/
def State.compressRun (s : State) (j : Job) (readError : Bool) : State :=
  let (cut, s) := if readError then s.draw (j.units.length + 1) else (0, s)
  let made := if readError then cut else j.units.length
  let lost := j.units.drop made
  let run := { j with units := j.units.take made }
  let (s, j, e) := s.fillBufs (s.stopMode j) run.fuel run
  let j := { j with units := j.units ++ lost }
  let drop (s : State) : State := s.setAl fun a => { a with job := none, restart := true }
  match e with
  | .done =>
    if readError then (drop s).jobReport j 4 5
    else (s.setAl fun a => { a with job := none, window := j.after, pos := j.afterPos }).jobReport j 3 0
  | .listOut => (s.setAl fun a => { a with job := some j }).jobReport j 2 1
  | .full => (s.setAl fun a => { a with job := some j }).jobReport j 2 2
  | .fault code => (drop s).jobReport j 4 code

/-- Literal runs of at most 128 bytes for the bytes of a discarded token. -/
def literalRuns : Nat → List Byte → List (List Byte × Nat)
  | 0, _ => []
  | _, [] => []
  | fuel + 1, b => (literalToken (b.take 128), min 128 b.length) :: literalRuns fuel (b.drop 128)

/-- A unit is a match token. -/
def isMatch (u : List Byte × Nat) : Bool := decide (4 ≤ u.2) && decide (0x80 ≤ (u.1.headD 0).toNat)

/-- The units after k match tokens failed their check and left as literal runs (R371); which ones is free. `input` are the original
bytes from the first unit on. -/
def fallBack (key : Nat) : Nat → List (List Byte × Nat) → List Byte → List (List Byte × Nat)
  | _, [], _ => []
  | 0, us, _ => us
  | k + 1, u :: us, input =>
    if isMatch u && (decide (us.countP isMatch ≤ k) || bit (Config.freeNat (key + us.length)) 0) then
      literalRuns u.2 (input.take u.2) ++ fallBack key k us (input.drop u.2)
    else u :: fallBack key (k + 1) us (input.drop u.2)

/-- JOB_DONE (R371 to R376); `fallbacks` tokens failed their check and left as literal runs. -/
def execJobDone (t : Nat) (readError : Bool) (corrected fallbacks : Nat) (s : State) : Host.Outcome State Fault Refusal :=
  let s := s.at t
  match s.al.job, s.og 0x440003 with
  | some j, 1 =>
    let fell := if j.kind = 1 then min fallbacks (j.units.countP isMatch) else 0
    let s := (s.readFixed j.image corrected).bump 0x44000A fell
    let j := { j with units := fallBack s.free fell j.units (j.input.drop j.consumed) }
    let s := if fell = 0 then s else { s with free := s.free + j.units.length + 1 }
    if j.fail ≠ 0 then .next ((s.setAl fun a => { a with job := none }).jobReport j 4 j.fail)
    else if j.kind = 1 then .next (s.compressRun j readError)
    else if j.kind = 2 then
      let s := (s.busWrite j.image s.stateImage)
      .next (({ s with free := s.free + 1 }.setAl fun a => { a with job := none }).jobReport j 3 0)
    else if readError then .next ((s.setAl fun a => { a with job := none, window := [], restart := true }).jobReport j 4 5)
    else match loadImage (s.busRead j.image 131136) with
      | some (w, p) => .next ((s.setAl fun a => { a with job := none, window := w, pos := p, restart := false }).jobReport j 3 0)
      | none => .next ((s.setAl fun a => { a with job := none, window := [], restart := true }).jobReport j 4 6)
  | _, _ => .next s

end Sys2Proof.Machine
end

