-- ==== Sys2Proof/Machine/Bursts.lean ====
section
/-! DEFINITION. What leaves Chestnut for one firing (R128 to R142, R151), and raw bursts (R143 to R147). -/

namespace Sys2Proof.Machine

open Sys2Proof

/-- The containers of one instant of a port, clamped where the port's flag is forced at it (R79, R82, R125). -/
def State.samplesAt (s : State) (port : Nat) (q : Quad) (t : Int) : Samples :=
  quadSamples q (inForced (s.opt.ports.getD port PortOptics.blank).forced t)

/-! ## Configuration and request (R143, R144) -/

/-- Bytes per instant and port of a source, and its rate per port in MB/s (Table 6-8). -/
def burstUnit (source : Nat) : Nat := if source = 0 then 6 else if source = 1 then 8 else 32

def burstRate (source : Nat) : Nat := if source = 0 then 3000 else 4000

/-- The ports that a mask names, ascending, and how many. -/
def maskPorts (mask : Nat) : List Nat := (List.range 4).filter (bit mask)

def popPorts (mask : Nat) : Nat := (maskPorts mask).length

/-- State object of a burst: 0x4030:09 for sources 0 and 1, :0C for source 2; what it captured: :0B and :0D. -/
def burstKey (src2 : Bool) : Nat := if src2 then 0x40300C else 0x403009

def burstCount (src2 : Bool) : Nat := if src2 then 0x40300D else 0x40300B

/-- Bytes a source 0 or 1 burst needs under a plan. -/
def burstBytes (period sweeps source mask : Nat) : Nat := period * sweeps / 2 * burstUnit source * popPorts mask

/-- The index of the first sweep whose boundary falls 2 µs or more from now. -/
def State.nextSweep2us (s : State) : Nat :=
  let (x, k) := s.comingSweep
  if s.now + 2000 ≤ x then k else (k + 1) % 2 ^ 64

/-- Change the burst of one kind. -/
def State.setBurst (s : State) (src2 : Bool) (b : Option Burst) : State :=
  { s with ch := if src2 then { s.ch with burst2 := b } else { s.ch with burst01 := b } }

/-- The outstanding burst of one kind. -/
def State.burst (s : State) (src2 : Bool) : Option Burst := if src2 then s.ch.burst2 else s.ch.burst01

/-- The burst that the configuration objects describe, from sweep `start` on, its data to stand from `base` on in DRAM. -/
def State.burstSetup (s : State) (start base : Nat) : Burst :=
  { source := s.og 0x403002, mask := s.og 0x403001, start := start, sweeps := s.og 0x403004, slot := s.og 0x403005
    n0 := s.og 0x403006, count := s.og 0x403007, begun := false, begins := 0, stop := none, got := false, data := [], base := base
    captured := 0, truncated := false, noFiring := false, abandoned := false, stamp := 0, variant := 0, planP := 0, planL := 0
    planS := 0, sent := 0, headSent := false, endedAt := 0, bad := false }

/-- The effect of a burst request (R144). What a kind has captured reads 0 from its request to the end of its capture (DESIGN
CHOICE, assumption log 83). -/
def burstRequest (s : State) : Except Nat State :=
  let mask := s.og 0x403001
  let source := s.og 0x403002
  let want := s.og 0x403003
  let src2 := decide (source = 2)
  require (decide (mask &&& s.portMask = mask) && (!src2 || decide (popPorts mask = 1)) &&
      decide (s.og 0x403006 + s.og 0x403007 ≤ 392000)) 0x06090030 <|
    match s.pw.power, s.lad.inForce with
    | .sensing, some pl =>
      require ((s.burst src2).isNone && (decide (want = 0) || decide (s.nextSweep2us ≤ want)) &&
          (src2 || (decide (burstBytes pl.period (s.og 0x403004) source mask ≤ s.og 0x40300A * 2 ^ 20) &&
            decide (burstRate source * popPorts mask ≤ pl.rawDemand)))) 0x08000020 <|
        let b := s.burstSetup (if want = 0 then s.nextSweep2us else want) (s.regionBase .burst)
        .ok (((s.os (burstKey src2) 1).os (burstCount src2) 0).setBurst src2 (some b))
    | _, _ => .error 0x08000020

/-! ## Capture (R145, R146) -/

/-- The boundary of a burst's start sweep: its capture begins under that sweep's plan. A firing on a slot that the plan has not, a
DTS firing, and a port that the plan does not use capture nothing. -/
def Burst.begin (b : Burst) (f : Flight) : Burst :=
  if b.start = f.index ∧ b.begun = false then
    { b with begun := true, begins := f.start, stamp := f.stamp, variant := f.index % max 1 f.plan.variants
             planP := f.plan.period / 16, planL := f.plan.codeLen, planS := f.plan.slots
             noFiring := decide (b.source = 2) && (decide (f.plan.slots ≤ b.slot) || decide (f.kinds.getD b.slot 0 ≠ 0) ||
               !(maskPorts b.mask).all f.plan.uses) }
  else b

/-- One kind of burst at the boundary of a new sweep. -/
def State.burstStarts (s : State) (f : Flight) (src2 : Bool) : State :=
  match s.burst src2 with
  | none => s
  | some b =>
    let b' := b.begin f
    let s := if b'.begun ∧ s.og (burstKey src2) = 1 then s.os (burstKey src2) 2 else s
    s.setBurst src2 (some b')

/-- Bursts at the boundary of a new sweep. -/
def State.burstBoundary (s : State) (f : Flight) : State := (s.burstStarts f false).burstStarts f true

/-- A source 2 burst takes its outputs from the firing it names. -/
def Burst.take2 (b : Burst) (o : FiringOut) : Burst :=
  if b.source = 2 ∧ b.begun = true ∧ b.got = false ∧ bit b.mask o.port ∧ b.start = o.sweep ∧ b.slot = o.slot then
    let xs := (o.x.drop b.n0).take b.count
    let ys := (o.y.drop b.n0).take b.count
    { b with got := true, data := (xs.zip ys).flatMap fun (x, y) => x.bytes ++ y.bytes, captured := xs.length }
  else b

/-- The container of a sample (Table 6-3, R126). -/
def container (v : Int) : Nat := toU 12 v * 16 + (if overRange v then 1 else 0)

/-- What one port gives a burst at one instant (Table 6-10). -/
def Samples.packed (m : Samples) (source : Nat) : List Byte :=
  if source = 0 then le 6 (toU 12 m.xi + 2 ^ 12 * toU 12 m.xq + 2 ^ 24 * toU 12 m.yi + 2 ^ 36 * toU 12 m.yq)
  else le 2 (container m.xi) ++ le 2 (container m.xq) ++ le 2 (container m.yi) ++ le 2 (container m.yq)

/-- The data of source 0 and 1 instants, sample i of them at the start boundary + 2i ns, the named ports ascending. -/
def State.burstData (s : State) (b : Burst) (raw : List (List Quad)) : List Byte :=
  raw.zipIdx.flatMap fun (quads, i) =>
    ((maskPorts b.mask).zip quads).flatMap fun (p, q) => (s.samplesAt p q ((b.begins : Int) + 2 * i)).packed b.source

/-- Instants of a whole source 0 or 1 burst: the sweep count times the P of its start sweep's plan (DEDUCED: R145 does not say whose
P counts after a switch, Table 6-9 names that one), as far as the region of the burst holds them (assumption log 84). -/
def State.burstTotal (s : State) (b : Burst) : Nat :=
  min (8 * b.planP * b.sweeps) (s.og 0x40300A * 2 ^ 20 / max 1 (burstUnit b.source * popPorts b.mask))

/-- The capture of one kind ends now (R146): it stands in line for its readout, after captures that ended before; a tie goes to
source 2. -/
def State.captureEnds (s : State) (src2 : Bool) (b : Burst) : State :=
  let b := { b with endedAt := s.now }
  let tie := src2 && (match s.ch.burst01 with
    | some o => decide (o.endedAt = s.now) && !o.headSent && s.ch.order.contains false
    | none => false)
  let s := ((s.os (burstKey src2) 3).os (burstCount src2) b.captured).setBurst src2 (some b)
  { s with ch := { s.ch with order := if tie then src2 :: s.ch.order else s.ch.order ++ [src2] } }

/-- The end of Sensing stops a burst early (R94, R146): one whose start sweep has not begun ends truncated with nothing captured; a
source 0 or 1 burst in capture takes no instant from here on. A source 2 burst whose sweep is in flight completes. -/
def State.burstStops (s : State) (src2 : Bool) : State :=
  match s.burst src2 with
  | none => s
  | some b =>
    if b.begun = false then s.captureEnds src2 { b with truncated := true }
    else if src2 = false ∧ s.og 0x403009 = 2 then s.setBurst false (some { b with stop := some (b.stop.getD s.now) })
    else s

/-- The end of Sensing for bursts of both kinds. -/
def State.burstsStop (s : State) : State := (s.burstStops false).burstStops true

/-- CHESTNUT_OUTPUT (R128 to R142, R151): the containers of one firing from sample -N_c on. A DTS firing has a window whose
over-range samples count (R118, R142) and yields no output (R140); a port that does not fire has no window. -/
def execChestnutOutput (t port sweep slot : Nat) (conts : List Quad) (s : State) : Host.Outcome State Fault Refusal :=
  let s := s.at t
  match s.flight sweep with
  | none => .next s
  | some f =>
    if s.portOn port = true ∧ f.plan.uses port = true ∧ slot < f.fired then
      let e0 : Int := f.start + slot * f.plan.tick
      let smp := conts.zipIdx.map fun (q, i) => s.samplesAt port q (e0 + 2 * ((i : Int) - f.plan.nc))
      if f.kinds.getD slot 0 = 0 then
        let (out, ovr, taint) := chestnut f port slot smp
        let s := (((s.bump (pk 0x2C0004 port) ovr).countAt sweep port ovr)).countAt sweep (4 + port) taint
        .next { s with ch := { s.ch with outs := s.ch.outs ++ [out], burst2 := s.ch.burst2.map (·.take2 out) } }
      else
        let ovr := ((smp.drop f.plan.nc).take f.plan.nw).countP Samples.ovr
        .next ((s.bump (pk 0x2C0004 port) ovr).countAt sweep port ovr)
    else .next s

/-- The capture of a source 0 or 1 burst ends with `n` instants. -/
def State.endCapture01 (s : State) (b : Burst) (n : Nat) (data : List (List Quad)) : State :=
  let bytes := s.burstData b (data.take n)
  let s := s.dramWrite b.base bytes
  s.captureEnds false { b with captured := n, truncated := decide (n < 8 * b.planP * b.sweeps) }

/-- BURST_CAPTURE_END (R145, R146): the capture of one kind ends. Sources 0 and 1 captured every instant from the start boundary
on, `data` being what the converters gave; it ends early at the end of Sensing, or where a DRAM stall let only `captured` instants
be written. A source 2 burst ends once its firing has left Chestnut, or at once where no such firing exists. -/
def execBurstCaptureEnd (t : Nat) (src2 truncated : Bool) (data : List (List Quad)) (captured : Nat) (s : State) :
    Host.Outcome State Fault Refusal :=
  let s := s.at t
  match s.burst src2 with
  | none => .next s
  | some b =>
    if s.og (burstKey src2) ≠ 2 then .next s
    else if src2 then (if b.got ∨ b.noFiring then .next (s.captureEnds true b) else .next s)
    else
      let upTo := min s.now (b.stop.getD s.now)
      let seen := min (s.burstTotal b) ((upTo - b.begins + 1) / 2)
      let stalled := truncated || b.truncated
      let n := if stalled then min captured seen else seen
      if (stalled ∨ b.stop.isSome ∨ seen = s.burstTotal b) ∧ n ≤ data.length then .next (s.endCapture01 b n data) else .next s

/-! ## Readout (R146, R147) -/

/-- The 32-byte head of a burst (Table 6-9). P, L, S and the variant are 0 where no start sweep began, and the status of a burst
abandoned before its head left is 2 (DESIGN CHOICE, assumption log 85). -/
def Burst.head (b : Burst) : List Byte :=
  let src2 := decide (b.source = 2)
  le 8 b.start ++ le 4 b.captured ++
    [byte b.source, byte b.mask, byte (if src2 then b.slot else 0xFF),
      byte (if b.abandoned then 2 else if b.noFiring then 3 else if b.truncated then 1 else 0)] ++
    le 4 (if src2 then b.n0 else 0) ++ le 4 b.planP ++ le 2 b.planL ++ [byte b.planS, byte b.variant] ++ le 4 0

/-- Bytes of a burst's data. -/
def Burst.size (b : Burst) : Nat :=
  if b.source = 2 then b.data.length else b.captured * burstUnit b.source * popPorts b.mask

/-- Bytes of a burst's data from where it has been sent: from the capture RAM, or from DRAM. -/
def State.burstPart (s : State) (b : Burst) (n : Nat) : List Byte :=
  if b.source = 2 then (b.data.drop b.sent).take n else s.dramRead (b.base + b.sent) n

/-- The payload of the burst's next data record, at most 65 536 bytes of data (R147, Table 13-3). -/
def State.burstPayload (s : State) (b : Burst) : List Byte × State :=
  let part := s.burstPart b (min 65536 (b.size - b.sent))
  let (data, s) := if b.headSent = true ∧ b.bad = true then s.garble part else (part, s)
  ((if b.headSent then le 8 b.sent else b.head) ++ data, s)

/-- The readout of the first burst in order is over. -/
def State.endReadout (s : State) (src2 : Bool) (b : Burst) : State :=
  let s := (s.os (burstKey src2) (if b.truncated then 5 else 4)).setBurst src2 none
  { s with ch := { s.ch with order := s.ch.order.drop 1 } }

/-- Abandon the outstanding burst of one kind: it captures and sends no more. One whose head has not left yet leaves its head alone,
with status 2 (DESIGN CHOICE, assumption log 85). -/
def State.abandon (s : State) (src2 : Bool) : State :=
  match s.burst src2 with
  | none => s
  | some b =>
    let s := (s.os (burstKey src2) 6).setBurst src2 none
    if b.headSent then s
    else { s with ch := { s.ch with gone := s.ch.gone ++ [{ b with abandoned := true, data := [], captured := 0 }] } }

/-- The effect of writing 2 to 0x4030:08 (R144). -/
def burstAbandon (s : State) : Except Nat State :=
  let s := (s.abandon false).abandon true
  .ok { s with ch := { s.ch with order := [] } }

/-- BURST_REQUEST (R144). -/
def execBurstRequest (t c : Nat) (s : State) : Host.Outcome State Fault Refusal :=
  .next ((s.at t).hostWrite c 0x4030 8 false (le 1 1) burstRequest)

/-- BURST_ABANDON (R144). -/
def execBurstAbandon (t c : Nat) (s : State) : Host.Outcome State Fault Refusal :=
  .next ((s.at t).hostWrite c 0x4030 8 false (le 1 2) burstAbandon)

/-- Offer one record of a burst to queue q, which has room for it. -/
def State.burstRecord (s : State) (q : Nat) (b : Burst) (payload : List Byte) : State :=
  (s.offer q { typ := if b.headSent then 6 else 5, sweep := b.start, stamp := b.stamp, olen := payload.length, payload := payload }).2

/-- BURST_READOUT (R146, R147, R294): a waiting source, so a record is offered only when it fits. Without a stream entry
for bursts no record is produced and the readout ends (R300). -/
def execBurstReadout (t : Nat) (s : State) : Host.Outcome State Fault Refusal :=
  let s := s.at t
  let queue := s.activePlan.bind fun pl => pl.queueOf 5 0
  match s.ch.gone, s.ch.order with
  | b :: rest, _ =>
    let drop (s : State) : State := { s with ch := { s.ch with gone := rest } }
    match queue with
    | none => .next (drop s)
    | some q => if s.queuesLive && s.fits q b.head.length then .next (drop (s.burstRecord q b b.head)) else .next s
  | [], [] => .next s
  | [], src2 :: _ =>
    match s.burst src2, queue with
    | none, _ => .next { s with ch := { s.ch with order := s.ch.order.drop 1 } }
    | some b, none => .next (s.endReadout src2 b)
    | some b, some q =>
      let (payload, s') := s.burstPayload b
      if s.queuesLive && s.fits q payload.length then
        let s := s'.burstRecord q b payload
        let b' := { b with sent := min b.size (b.sent + 65536), headSent := true, bad := false }
        .next (if b'.size ≤ b'.sent then s.endReadout src2 b' else s.setBurst src2 (some b'))
      else .next s

end Sys2Proof.Machine
end

