-- ==== Sys2Proof/Machine/Capture.lean ====
section
/-! DEFINITION. Capture buffers (12): configuration, states, clock instants, entries, the rate ladder and the readout. -/

namespace Sys2Proof.Machine

open Sys2Proof

/-! ## Objects and configuration (Table 12-1, R266, R267) -/

/-- Key of an object of buffer c. -/
def ck (c sub : Nat) : Nat := okey (0x3900 + c) sub

def State.cap (s : State) (c : Nat) : Capture :=
  s.caps.getD c Capture.blank

def State.setCap (s : State) (c : Nat) (f : Capture → Capture) : State := { s with caps := modAt s.caps c f }

/-- State code of a buffer (Table 12-2). -/
def State.capState (s : State) (c : Nat) : Nat := s.og (ck c 1)

/-- Group of watch slot m in a groups word; 0xFF for none. -/
def slotGroup (word m : Nat) : Nat := word / 256 ^ m % 256

/-- Watch groups of a groups word. -/
def watchCount (word : Nat) : Nat := (List.range 4).countP fun m => decide (slotGroup word m ≠ 0xFF)

/-- Entry size in bytes (R266). -/
def entrySize (mode groups zones : Nat) : Nat := if mode = 1 then 24 else 16 + 4 * (watchCount groups + zones)

/-- The slots are filled from slot 0 without a gap with groups 0 to 9, one at least; transitions name no zone (R266). -/
def configOk (mode groups zones : Nat) : Bool :=
  let n := watchCount groups
  decide (1 ≤ n) && ((List.range 4).all fun m =>
    if m < n then decide (slotGroup groups m ≤ 9) else decide (slotGroup groups m = 0xFF)) &&
    (decide (mode ≠ 1) || decide (zones = 0))

/-- Bytes of the capture region a buffer takes, its pending length counting where larger (R267). -/
def State.capBytes (s : State) (c : Nat) : Nat :=
  max (s.og (ck c 0xE)) ((s.cap c).heldLen.getD 0) * entrySize (s.og (ck c 3)) (s.og (ck c 7)) (s.og (ck c 0xD))

/-- The eight buffers fit the region (R267). -/
def State.capsFit (s : State) : Bool := decide (sumN ((List.range 8).map s.capBytes) ≤ s.og 0x390801 * 2 ^ 20)

/-- The rate ladder section of a buffer in the active plan: step count, window budget, hold. -/
def State.ladderSec (s : State) (c : Nat) : Option (Nat × Nat × Nat) :=
  match s.planNow with
  | none => none
  | some pl => if pl.hasSec 0x41 c then some (fld (pl.sec 0x41 c) 3 1, fld (pl.sec 0x41 c) 4 4, fld (pl.sec 0x41 c) 8 2) else none

/-- G & mask of watch slot m at the latest evaluation instant. -/
def State.watch (s : State) (c m : Nat) : Nat := s.ses.g.getD (slotGroup (s.og (ck c 7)) m) 0 &&& s.og (ck c (8 + m))

/-! ## Entries (R276 to R280) -/

/-- The step in force. -/
def State.capStep (s : State) (c : Nat) : Nat := s.og (ck c 0x15)

/-- The instant Post ends: Reading begins, the capture is counted (R273). -/
def State.endPost (s : State) (c flag : Nat) : State :=
  let s := s.bump (ck c 0x16)
  let n := s.og (ck c 0x16)
  (s.os (ck c 1) 3).setCap c fun k => { k with flags := k.flags ||| flag, sent := 0, number := n }

/-- Store an entry in the ring: in Filling the oldest entry beyond length − post count is overwritten, and its slot's base
takes its value. -/
def State.storeEntry (s : State) (c : Nat) (bytes : List Byte) (slot : Nat) : State :=
  let post := decide (s.capState c = 2)
  let room := s.og (ck c 0xE) - s.og (ck c 0x10)
  let trans := decide (s.og (ck c 3) = 1)
  let s := s.setCap c fun k =>
    let all := k.entries ++ [(bytes, slot, post)]
    let ovr := if post then [] else all.take (all.length - room)
    { k with
      entries := if post then all else all.drop (all.length - room)
      bases := if trans then ovr.foldl (fun b x => modAt b x.2.1 fun _ => fld x.1 8 4) k.bases else k.bases
      gap := false, winBytes := k.winBytes + bytes.length
      postStored := if post then k.postStored + 1 else k.postStored }
  if post && decide (s.og (ck c 0x10) ≤ (s.cap c).postStored) then s.endPost c 0 else s

/-- Attempt one entry (R280): stored whole within the window's budget, else dropped. True when stored. -/
def State.attempt (s : State) (c budget : Nat) (bytes : Bool → List Byte) (slot : Nat) : Bool × State :=
  let k := s.cap c
  let b := bytes k.gap
  if k.winBytes + b.length ≤ budget then (true, s.storeEntry c b slot)
  else
    (false, ((s.bump (ck c 0x14)).count 83).setCap c fun k =>
      { k with gap := true, winDrop := true, dropped := k.dropped + 1 })

/-- A sample entry (Table 12-3). -/
def State.sampleEntry (s : State) (c tick : Nat) (gap : Bool) : List Byte :=
  let n := watchCount (s.og (ck c 7))
  let z0 := s.og (ck c 0xC)
  let zs := (List.range (s.og (ck c 0xD))).map fun i => s.ses.zones.getD (z0 + i) Zone.fresh
  le 8 s.devNs ++ [byte (s.capStep c), byte ((if zs.any (·.stale) then 2 else 0) + (if gap then 1 else 0))] ++ le 2 0 ++
    le 4 tick ++ (List.range n).flatMap (fun m => le 4 (s.watch c m)) ++ zs.flatMap fun z => le 4 z.e

/-- A transitions entry of a slot (Table 12-4). -/
def State.transEntry (s : State) (c m v ref : Nat) (gap : Bool) : List Byte :=
  le 8 s.devNs ++ le 4 v ++ le 4 (v ^^^ ref) ++ [byte m, byte (s.capStep c), byte (if gap then 1 else 0)] ++ rep 5 0

/-- A used clock instant of a buffer in Filling or Post (R276). -/
def State.useInstant (s : State) (c budget tick : Nat) : State :=
  if s.og (ck c 3) = 0 then (s.attempt c budget (s.sampleEntry c tick) 0).2
  else
    (List.range (watchCount (s.og (ck c 7)))).foldl (fun s m =>
      let v := s.watch c m
      let ref := (s.cap c).refs.getD m 0
      if v = ref ∨ ¬(s.capState c = 1 ∨ s.capState c = 2) then s
      else
        let (ok, s) := s.attempt c budget (s.transEntry c m v ref) m
        if ok then s.setCap c fun k => { k with refs := modAt k.refs m fun _ => v } else s) s

/-- A clock instant of a buffer (R275): number n is used when 2^step divides it. -/
def State.clockInstant (s : State) (c tick : Nat) : State :=
  match s.ladderSec c with
  | none => s
  | some (_, budget, _) =>
    let k := s.cap c
    let used := decide (k.clockNo % 2 ^ s.capStep c = 0)
    let s := s.setCap c fun k => { k with clockNo := k.clockNo + 1 }
    if used then s.useInstant c budget tick else s

/-- The step after a window (R280): a drop steps down the rate, `hold` quiet windows step it up. -/
def nextStep (steps hold step quiet : Nat) (drop calm : Bool) : Nat × Nat :=
  if drop then if step < steps then (step + 1, 0) else (step, 0)
  else if calm then if hold ≤ quiet + 1 ∧ 0 < step then (step - 1, 0) else (step, quiet + 1)
  else (step, 0)

/-- The rate window in progress has run by now: the step changes and the next window begins (R280). -/
def State.rollWindow (s : State) (c : Nat) : State :=
  let k := s.cap c
  match s.ladderSec c with
  | none => s
  | some (steps, budget, hold) =>
    if k.winStart + 65536 ≤ s.now then
      let (step, quiet) := nextStep steps hold (s.capStep c) k.quiet k.winDrop (decide (4 * k.winBytes ≤ budget))
      (s.os (ck c 0x15) step).setCap c fun k =>
        { k with winStart := k.winStart + 65536, winBytes := 0, winDrop := false, quiet := quiet
                 lowStep := min k.lowStep step, highStep := max k.highStep step }
    else s

/-- Every rate window that has run by now. -/
def State.rollWindows (s : State) (c : Nat) : State :=
  (List.range ((s.now - (s.cap c).winStart) / 65536)).foldl (fun s _ => s.rollWindow c) s

/-- The post time limit of a buffer has passed since its trigger by instant t (R273). -/
def State.postOver (s : State) (c t : Nat) : Bool :=
  let lim := s.og (ck c 0x11)
  decide (s.capState c = 2) && decide (lim ≠ 0) && decide ((s.cap c).trigAt + 1000 * lim ≤ t)

/-- The buffer at an evaluation instant t: a Post whose time limit passed before t is over; then a clock instant of its own
divider, or the clock-0 instants of this instant. -/
def State.captureInstant (s : State) (c t : Nat) : State :=
  let s := if s.postOver c (t - 1) then s.endPost c 8 else s
  if s.capState c = 1 ∨ s.capState c = 2 then
    let s := s.rollWindows c
    let f := (s.cap c).f
    if f < t then
      if s.og (ck c 4) = 1 then
        if (t - f) / 4 % max 1 (s.og (ck c 6)) = 0 then s.clockInstant c 0 else s
      else
        (s.ses.clock0.filter fun x => decide (x.1 = s.og (ck c 5))).foldl (fun s x => s.clockInstant c x.2) s
    else s
  else s

/-! ## States (R269 to R274) -/

/-- The held value of a length, post count or post time limit is gone (R271). -/
def State.unhold (s : State) (c sub : Nat) : State :=
  let s := if sub = 0xE then s.os (ck c 0xF) 0 else s
  s.setCap c fun k =>
    { k with heldLen := if sub = 0xE then none else k.heldLen, heldPost := if sub = 0x10 then none else k.heldPost
             heldLimit := if sub = 0x11 then none else k.heldLimit }

/-- Held values apply (R271). -/
def State.applyHeld (s : State) (c : Nat) : State :=
  let k := s.cap c
  let take (s : State) (sub : Nat) (held : Option Nat) : State :=
    match held with
    | some v => (s.os (ck c sub) v).unhold c sub
    | none => s
  take (take (take s 0xE k.heldLen) 0x10 k.heldPost) 0x11 k.heldLimit

/-- Entry into Filling at f (R270). -/
def State.fillCapture (s : State) (c f : Nat) : State :=
  let s := s.applyHeld c
  let base := (List.range 4).map fun m => if m < watchCount (s.og (ck c 7)) then s.watch c m else 0
  let s := (s.os (ck c 1) 1).os (ck c 0x15) 0
  s.setCap c fun k =>
    { k with
      rearmAt := none, f := f, clockNo := 0, entries := [], bases := base, refs := base, gap := false
      winStart := f, winBytes := 0, winDrop := false, quiet := 0, lowStep := 0, highStep := 0, dropped := 0
      trigger := [], preCount := 0, postStored := 0, flags := 0, sent := 0 }

/-- The payload of the next record of a capture (Table 12-6) with record flags beside those of its Post, and the state after its
entries were read; entries read with an uncorrectable error leave as read, which is free. -/
def State.capturePayload (s : State) (c extra : Nat) : List Byte × State :=
  let k := s.cap c
  let part := (k.entries.drop k.sent).take 2048
  let flags := k.flags ||| (if 0 < k.dropped then 4 else 0) ||| (if 0 < k.highStep then 2 else 0) ||| extra
  let trans := decide (s.og (ck c 3) = 1)
  let raw := part.flatMap (·.1)
  let (data, s) := if bit flags 6 then s.garble raw else (raw, s)
  ([byte c, byte (s.og (ck c 3)), byte flags, byte (watchCount (s.og (ck c 7)))] ++ le 4 k.number ++ le 4 k.sent ++
    le 2 part.length ++ le 2 (entrySize (s.og (ck c 3)) (s.og (ck c 7)) (s.og (ck c 0xD))) ++ le 4 k.preCount ++
    le 4 k.postStored ++ le 4 k.dropped ++ [byte k.lowStep, byte k.highStep] ++ le 2 0 ++ sliceB k.trigger 0 32 ++
    (List.range 4).flatMap (fun m => le 4 (if trans then k.bases.getD m 0 else 0)) ++ data, s)

/-- The buffer becomes Idle and loses its content; an arm that has not acted stays, and so does a last record. -/
def State.idleCapture (s : State) (c : Nat) : State :=
  (s.os (ck c 1) 0).setCap c fun k =>
    { k with disarmAt := none, rearmAt := none, entries := [], postStored := 0, preCount := 0, flags := 0, sent := 0 }

/-- An accepted disarm acts at the first evaluation instant after it (R269). -/
def Capture.disarmDue (k : Capture) (t : Nat) : Bool := match k.disarmAt with | some a => decide (a < t) | none => false

/-- A disarm takes effect (R269, R271, R284): in Reading the record in progress completes, with flag 5. -/
def State.disarmCapture (s : State) (c : Nat) : State :=
  let s := if s.capState c = 3 then
      let (p, s) := s.capturePayload c 32
      s.setCap c fun k => { k with last := some (p, k.trigSweep, k.trigStamp) }
    else s
  (s.applyHeld c).idleCapture c

/-- A trigger descriptor reaches a buffer at t (R272). -/
def State.captureTrigger (s : State) (c t : Nat) (desc : List Byte) : State :=
  let st := s.capState c
  if st = 1 then
    let k := s.cap c
    let pre := k.entries.length
    let short := decide (pre < s.og (ck c 0xE) - s.og (ck c 0x10))
    (s.os (ck c 1) 2).setCap c fun k =>
      { k with trigger := desc, trigAt := t, trigSweep := s.sw.lastIndex, trigStamp := s.sw.lastStamp, preCount := pre
               flags := if short then 1 else 0 }
  else if st = 2 ∨ st = 3 ∨ st = 4 then (s.bump (ck c 0x13)).countAt s.sw.lastIndex (56 + c)
  else s

/-- A loss of the Core or DRAM domain leaves every buffer Idle (R283). -/
def State.capturesLost (s : State) : State :=
  (List.range 8).foldl (fun s c => ((s.idleCapture c).applyHeld c).setCap c fun k => { k with arms := [], last := none }) s

/-- The stop boundary truncates a buffer in Post on clock 0 (R283). -/
def State.capturesStop (s : State) : State :=
  (List.range 8).foldl (fun s c => if s.capState c = 2 ∧ s.og (ck c 4) = 0 then s.endPost c 16 else s) s

/-- A plan take (R281): a changed ladder restarts at step 0, a missing one truncates Post and idles Filling and Rearming. -/
def State.capturesTake (s : State) (old : Option Plan) (pl : Plan) (t : Nat) : State :=
  (List.range 8).foldl (fun s c =>
    if pl.hasSec 0x41 c = false then
      if s.capState c = 2 then s.endPost c 16
      else if s.capState c = 1 ∨ s.capState c = 4 then s.idleCapture c
      else s
    else if old.map (fun o => o.sec 0x41 c) = some (pl.sec 0x41 c) then s
    else
      (s.os (ck c 0x15) 0).setCap c fun k =>
        { k with winStart := t, winBytes := 0, winDrop := false, quiet := 0, lowStep := 0 }) s

/-! ## Commands -/

/-- Arms are judged at acceptance (R269). -/
def captureArm (c : Nat) (s : State) : Except Nat State :=
  require ((decide (s.capState c = 0) || decide (s.capState c = 5)) && s.queuesLive && decide (s.og (ck c 0xE) ≠ 0) &&
      (s.ladderSec c).isSome) 0x08000020 <|
    .ok (s.setCap c fun k => { k with arms := k.arms ++ [s.now] })

/-- CAPTURE_ARM (R269): takes effect at FILLING_ENTRY. -/
def execCaptureArm (t c buf : Nat) (s : State) : Host.Outcome State Fault Refusal :=
  .next ((s.at t).hostWrite c (0x3900 + buf) 2 false (le 1 1) (captureArm buf))

/-- The effect of a disarm: it acts at the first evaluation instant after acceptance. -/
def captureDisarm (c : Nat) (s : State) : Except Nat State :=
  .ok (s.setCap c fun k => { k with disarmAt := some s.now })

/-- CAPTURE_DISARM (R269). -/
def execCaptureDisarm (t c buf : Nat) (s : State) : Host.Outcome State Fault Refusal :=
  .next ((s.at t).hostWrite c (0x3900 + buf) 2 false (le 1 2) (captureDisarm buf))

/-- The effect of a length, post-count or post-time-limit write (R267, R271). -/
def captureLength (c sub v : Nat) (s : State) : Except Nat State :=
  let k := s.cap c
  let len := if sub = 0xE then v else k.heldLen.getD (s.og (ck c 0xE))
  let post := if sub = 0x10 then v else k.heldPost.getD (s.og (ck c 0x10))
  let now := decide (s.capState c = 0) || decide (s.capState c = 5)
  let held (k : Capture) : Capture :=
    if sub = 0xE then { k with heldLen := some v } else if sub = 0x10 then { k with heldPost := some v }
    else { k with heldLimit := some v }
  let s' := if now then (s.os (ck c sub) v).unhold c sub
    else if sub = 0xE then (s.os (ck c 0xF) v).setCap c held
    else s.setCap c held
  require ((decide (sub ≠ 0xE) || s'.capsFit) &&
      (decide (sub = 0x11) || (decide (sub = 0xE) && decide (len = 0)) || decide (post ≤ len))) 0x06090030 <|
    .ok (if now then s'.idleCapture c else s')

/-- CAPTURE_LENGTH_WRITE (R271): objects :0E length, :10 post count, :11 post time limit. -/
def execCaptureLengthWrite (t c buf sub value : Nat) (s : State) : Host.Outcome State Fault Refusal :=
  .next ((s.at t).hostWrite c (0x3900 + buf) sub false (le 4 value) fun s =>
    if sub = 0xE ∨ sub = 0x10 ∨ sub = 0x11 then captureLength buf sub (value % 2 ^ 32) s else .error 0x06090011)

/-- The effect of a write to a configuration object :03 to :0D (R266 to R268). -/
def captureConfig (c sub v : Nat) (s : State) : Except Nat State :=
  let s' := s.os (ck c sub) v
  require (configOk (s'.og (ck c 3)) (s'.og (ck c 7)) (s'.og (ck c 0xD)) && s'.capsFit) 0x06090030 <|
    require (decide (s.capState c = 0) || decide (s.capState c = 5)) 0x08000020 (.ok s')

/-- RATE_WINDOW_END (R280): the window of 65.536 µs has run. -/
def execRateWindowEnd (t buf : Nat) (s : State) : Host.Outcome State Fault Refusal :=
  let s := s.at t
  .next (if s.capState buf = 1 ∨ s.capState buf = 2 then s.rollWindow buf else s)

/-- POST_TIME_LIMIT (R273): Post ends when its time limit has passed. -/
def execPostTimeLimit (t buf : Nat) (s : State) : Host.Outcome State Fault Refusal :=
  let s := s.at t
  .next (if s.postOver buf s.now then s.endPost buf 8 else s)

/-- The readout of a capture is over (R274). -/
def State.endReading (s : State) (c : Nat) : State :=
  if s.og (ck c 0x12) = 1 then (s.os (ck c 1) 4).setCap c fun k => { k with rearmAt := some s.now }
  else s.os (ck c 1) 5

/-- A record of a capture waits to be written: the last one of a readout that a disarm ended, or the next one of a readout. -/
def State.captureWaits (s : State) (c : Nat) : Bool := (s.cap c).last.isSome || decide (s.capState c = 3)

/-- A record of a capture goes to queue q with its payload and its sweep's index and stamp (R282). -/
def State.captureRecord (s : State) (q : Nat) (p : List Byte) (sweep stamp : Nat) : State :=
  (s.offer q { typ := 4, sweep := sweep, stamp := stamp, olen := p.length, payload := p }).2

/-- The last record of a readout that a disarm ended enters queue q when that has room (R284). -/
def State.writeLast (s : State) (c q : Nat) (r : List Byte × Nat × Nat) : State :=
  if s.queuesLive && s.fits q r.1.length then
    (s.setCap c fun k => { k with last := none }).captureRecord q r.1 r.2.1 r.2.2
  else s

/-- The next record of a readout enters queue q when that has room for the whole of it (R282); `extra` are its own flags. -/
def State.writeNext (s : State) (c q extra : Nat) : State :=
  let k := s.cap c
  let (p, s') := s.capturePayload c extra
  if s.queuesLive && s.fits q p.length then
    let sent := min k.entries.length (k.sent + 2048)
    let s := (s'.captureRecord q p k.trigSweep k.trigStamp).setCap c fun k => { k with sent := sent, flags := clearBits k.flags 64 }
    if k.entries.length ≤ sent then s.endReading c else s
  else s

/-- CAPTURE_RECORD_WRITE (R282, R284): a waiting source writes one record while its queue has room for the whole of it.
Without a capture stream no record is produced and the readout ends (R300). An error is seen with inline ECC on alone (R343). -/
def execCaptureRecordWrite (t buf : Nat) (memError : Bool) (s : State) : Host.Outcome State Fault Refusal :=
  let s := s.at t
  .next (match (s.cap buf).last, s.planNow.bind fun pl => pl.queueOf 4 0 with
    | some r, some q => s.writeLast buf q r
    | some _, none => s.setCap buf fun k => { k with last := none }
    | none, q =>
      if s.capState buf = 3 then
        match q with
        | none => s.endReading buf
        | some q => s.writeNext buf q (if memError && decide (s.og 0x420004 = 1) then 64 else 0)
      else s)

end Sys2Proof.Machine
end

