-- ==== Sys2Proof/Machine/Sesame.lean ====
section
/-! DEFINITION. Sesame (11): line groups, zone detectors, trigger sequences and their triggers. -/

namespace Sys2Proof.Machine

open Sys2Proof

/-! ## Zone map, section 0x0011 (Table 11-3) -/

/-- The zone map of a plan. -/
def Plan.zoneMap (pl : Plan) : List Byte := pl.sec 0x11 0
def Plan.zones (pl : Plan) : Nat := fld pl.zoneMap 2 2
/-- n bytes of zone entry z at an offset. -/
def Plan.zone (pl : Plan) (z off n : Nat) : Nat := fld pl.zoneMap (16 + 32 * z + off) n
def Plan.zoneOn (pl : Plan) (z : Nat) : Bool := decide (z < pl.zones) && decide (pl.zone z 1 1 = 1)
def Plan.zonePort (pl : Plan) (z : Nat) : Nat := pl.zone z 0 1
def Plan.zoneFirst (pl : Plan) (z : Nat) : Nat := pl.zone z 4 4
def Plan.zoneLast (pl : Plan) (z : Nat) : Nat := pl.zone z 8 4

def State.zone (s : State) (z : Nat) : Zone := s.ses.zones.getD z Zone.fresh

def State.setZone (s : State) (z : Nat) (f : Zone → Zone) : State :=
  { s with ses := { s.ses with zones := modAt s.ses.zones z f } }

/-! ## Detectors (R246 to R249) -/

/-- The filter and power sum over the outputs of a zone: histories, sum, count. -/
def detect (b0 a1 a2 : Int) (fsh : Nat) :
    List (Int × Int × Int × Int) → List (Int × Nat) → List (Int × Int × Int × Int) × Int × Nat
  | h :: hs, v :: vs =>
    let (x1, x2, y1, y2) := h
    let x := v.1
    let y := satS 32 (rhe (b0 * (x - x2) - a1 * y1 - a2 * y2) 14)
    let (r, sum, cnt) := detect b0 a1 a2 fsh hs vs
    let h' := (x, x1, y, y1)
    if v.2 &&& 0xE1 ≠ 0 then (h' :: r, sum, cnt)
    else
      let ys := satS 24 (rhe y fsh)
      (h' :: r, sum + ys * ys, cnt + 1)
  | hs, _ => (hs, 0, 0)

/-- Energy and line after a tick with a sum over cnt outputs. -/
def energyLine (we on off e : Nat) (line : Bool) (sum : Int) (cnt : Nat) : Nat × Bool :=
  if cnt = 0 then (e, line)
  else
    let pw := min (rdiv sum cnt) 0xFFFFFFFF
    let e' := ((e : Int) + rhe (pw - e) we).toNat
    (e', if on ≤ e' then true else if e' < off then false else line)

/-- The update instant U of a zone for the tick of a slot (R248): the first evaluation instant, on the grid of the sweep's
boundary, at or after the bound. -/
def Flight.update (f : Flight) (z slot : Nat) : Nat :=
  let pl := f.plan
  let p := pl.zonePort z
  let d := slot * pl.tick + 2 * (pl.perChan p * (pl.zoneLast z + pl.gauge p + 1) + pl.nc) + 50000
  f.start + 4 * ceilDiv d 4

/-- The update of a zone for the tick of a slot, with a result. -/
def Flight.owed (f : Flight) (z slot : Nat) (r : Option (Bool × Bool × Nat)) : Owed :=
  ⟨f.index, slot, tickNo f.plan.slots f.index slot, f.update z slot, r, false⟩

/-- The update is that of a slot of a sweep. -/
def Owed.isAt (o : Owed) (sweep slot : Nat) : Bool := decide (o.sweep = sweep) && decide (o.slot = slot)

/-- A detector on a valid tick of its port: the result waits for its update instant, unless that has passed (R248). -/
def State.detectZone (s : State) (f : Flight) (w : TickWork) (z : Nat) : State :=
  let pl := f.plan
  let p := pl.zonePort z
  let first := pl.zoneFirst z
  let n := pl.zoneLast z + 1 - first
  let era := ((s.pdas p).era f.ord).ord
  let zn := s.zone z
  let zn := if zn.era = era ∧ zn.hist.length = n then zn
    else { zn with era := era, eRun := 0, lineRun := false, hist := rep n (0, 0, 0, 0) }
  let outs := (List.range n).map fun i => s.outValue f w (first + i)
  let (hist, sum, cnt) := detect (toI 16 (pl.zone z 0xC 2)) (toI 16 (pl.zone z 0xE 2)) (toI 16 (pl.zone z 0x10 2))
    (pl.zone z 2 1) zn.hist outs
  let (on, off) := f.thresholds.getD z (0, 0)
  let (e, line) := energyLine (pl.zone z 3 1) on off zn.eRun zn.lineRun sum cnt
  s.setZone z fun _ =>
    { zn with eRun := e, lineRun := line, hist := hist
              waiting := if f.update z w.slot < s.now then zn.waiting
                else zn.waiting ++ [f.owed z w.slot (some (line, decide (cnt = 0), e))] }

/-- The zone whose update is the latest of its port's enabled zones for a tick. -/
def Plan.lastZone (pl : Plan) (p : Nat) : Option Nat :=
  ((List.range pl.zones).filter fun z => pl.zoneOn z && decide (pl.zonePort z = p)).foldl (fun best z =>
    match best with
    | none => some z
    | some b => if pl.zoneLast b < pl.zoneLast z then some z else some b) none

/-- The zone map of a plan is the one in force: ticks of another plan update no zone (R249). -/
def State.zonesOf (s : State) (pl : Plan) : Bool := decide (s.planNow.map (·.zoneMap) = some pl.zoneMap)

/-- A sweep completes before the update instant of a tick whose detector has no result: the zone still owes the update. -/
def State.oweUpdates (s : State) (f : Flight) : State :=
  let pl := f.plan
  let ticks := s.das.ticks.filter fun w => s.zonesOf pl && w.valid && decide (w.ord = f.ord)
  ((List.range pl.zones).filter fun z => pl.zoneOn z).foldl (fun s z =>
    ticks.foldl (fun s (w : TickWork) =>
      if w.port = pl.zonePort z ∧ s.now < f.update z w.slot ∧ (s.zone z).waiting.all (fun x => !x.isAt f.index w.slot) = true then
        s.setZone z fun zn => { zn with waiting := zn.waiting ++ [f.owed z w.slot none] }
      else s) s) s

/-- The counter of an update by its result: 76 for a blind tick, 77 for a stale update (Table 13-7). -/
def updateCounter : Option (Bool × Bool × Nat) → Option Nat
  | none => some 77
  | some (_, true, _) => some 76
  | some (_, false, _) => none

/-- An update counts in the frame of its tick's sweep (R265). -/
def State.countUpdate (s : State) (sweep : Nat) (r : Option (Bool × Bool × Nat)) : State :=
  match updateCounter r with
  | some i => s.countAt sweep i
  | none => s

/-- At the latch of a frame the updates that zones still owe to its sweeps count: what each will be is decided by then. -/
def State.countOwed (s : State) (fr : Frame) : State :=
  let due (o : Owed) : Bool := !o.counted && fr.holds o.sweep
  let s := (s.ses.zones.flatMap fun z => z.waiting.filter due).foldl (fun s o => s.countUpdate o.sweep o.result) s
  { s with ses := { s.ses with zones := s.ses.zones.map fun z =>
      { z with waiting := z.waiting.map fun o => if due o then { o with counted := true } else o } } }

/-- A zone takes the result of its tick at the update instant; without one it is stale. Lines are 0 outside Sensing. -/
def State.updateZone (s : State) (zone : Nat) (o : Owed) : State :=
  let s := if o.counted then s else s.countUpdate o.sweep o.result
  let rest (z : Zone) : List Owed := z.waiting.filter fun x => !x.isAt o.sweep o.slot
  match o.result with
  | some (line, blind, e) =>
    let on := decide (s.pw.power = .sensing)
    let s := s.setZone zone fun z =>
      { z with line := line && on, e := e, stale := false, blind := blind, lastTick := o.tick, waiting := rest z }
    { s with ses := { s.ses with zoneTick := some o.tick } }
  | none => s.setZone zone fun z => { z with stale := true, waiting := rest z }

/-- The update a zone owes to the tick of a slot of a sweep by now: one that waits, or one of a valid tick in flight whose
detector has not ended. -/
def State.owedAt (s : State) (zone sweep slot : Nat) : Option Owed :=
  match (s.zone zone).waiting.find? fun o => o.isAt sweep slot with
  | some o => if o.due ≤ s.now then some o else none
  | none =>
    match s.flight sweep with
    | none => none
    | some f =>
      let valid := match s.tick? (f.plan.zonePort zone) f.ord slot with | some w => w.valid | none => false
      if valid && f.plan.zoneOn zone && s.zonesOf f.plan && decide (f.update zone slot ≤ s.now) then
        some (f.owed zone slot none) else none

/-- ZONE_UPDATE (R248, R249): at U the line takes the detector's result; without one the zone is stale. Ticks of a plan whose
zone map differs from the plan in force update nothing. U can fall after the sweep's completion. The latest update of a tick
among the zones of its port is a clock-0 instant, in Sensing (R275). -/
def execZoneUpdate (t zone sweep slot : Nat) (s : State) : Host.Outcome State Fault Refusal :=
  let s := s.at t
  match s.owedAt zone sweep slot, s.planNow with
  | some o, some pl =>
    let p := pl.zonePort zone
    let s := if pl.lastZone p = some zone ∧ s.pw.power = .sensing then
        { s with ses := { s.ses with clock0 := s.ses.clock0 ++ [(p, o.tick)] } } else s
    .next (s.updateZone zone o)
  | _, _ => .next s

/-- Thresholds of the zone map go into their objects at each take (Table 11-10). -/
def State.loadThresholds (s : State) (pl : Plan) : State :=
  (List.range pl.zones).foldl (fun s z =>
    (s.os (okey (0x3A00 + z) 3) (pl.zone z 0x14 4)).os (okey (0x3A00 + z) 4) (pl.zone z 0x18 4)) s

/-- A take whose zone map differs resets every zone and clears its stale flag (R249). -/
def State.zonesTake (s : State) (old : Option Plan) (pl : Plan) : State :=
  let s := if old.map (·.zoneMap) = some pl.zoneMap then s
    else { s with ses := { s.ses with zones := s.ses.zones.map fun z => { Zone.fresh with lastTick := z.lastTick } } }
  s.loadThresholds pl

/-- Zone lines are 0 outside Sensing (R244). -/
def State.zonesStop (s : State) : State :=
  { s with ses := { s.ses with zones := s.ses.zones.map fun z => { z with line := false }, clock0 := [] } }

/-! ## Thresholds (R247) -/

/-- The value a threshold will hold once every pending or staged transfer has applied. -/
def State.comingValue (s : State) (idx sub : Nat) : Nat :=
  let ws := s.lad.pend.flatMap (·.writes) ++ s.lad.stage.getD []
  match (ws.filter fun w => decide (w.index = idx ∧ w.sub = sub)).reverse with
  | w :: _ => unle w.bytes
  | [] => s.og (okey idx sub)

/-- Accept a threshold write (R247): judged against the other threshold's coming value. -/
def zoneThreshold (z : Nat) (off : Bool) (v : Nat) (s : State) : Except Nat State :=
  let idx := 0x3A00 + z
  let ok := if off then decide (v ≤ s.comingValue idx 3) else decide (s.comingValue idx 4 ≤ v)
  require ok 0x06090030 (shadow idx (if off then 4 else 3) (le 4 v) s)

/-- Transfer of a threshold at a boundary: dropped when it would leave off above on (R247). -/
def State.thresholdTransfer (s : State) (idx sub v : Nat) : State :=
  let ok := if sub = 4 then decide (v ≤ s.og (okey idx 3)) else decide (s.og (okey idx 4) ≤ v)
  if ok then s.os (okey idx sub) v else s

/-- ZONE_THRESHOLD_WRITE (R247). -/
def execZoneThresholdWrite (t c zone : Nat) (off : Bool) (value : Nat) (s : State) : Host.Outcome State Fault Refusal :=
  .next ((s.at t).hostWrite c (0x3A00 + zone) (if off then 4 else 3) false (le 4 value) (zoneThreshold zone off (value % 2 ^ 32)))

/-! ## Line groups (R243, R244, Table 11-2) -/

/-- Zone lines of a group. -/
def State.zoneGroup (s : State) (g : Nat) : Nat :=
  if s.pw.power = .sensing then
    (List.range 32).foldl (fun v i => if (s.zone (32 * g + i)).line then v + 2 ^ i else v) 0
  else 0

/-- The level lines IS0 to IS15. -/
def State.levelLines (s : State) : Nat :=
  let b (c : Bool) (i : Nat) : Nat := if c then 2 ^ i else 0
  let bias := s.ports.any fun p => (s.po p).firing && (s.po p).anyLoop 5
  b s.opt.seedLow 0 + b (s.opt.ports.any (·.tripped)) 1 + b bias 2 + b (s.og 0x410002 ≠ 0) 8 +
    b (s.og 0x400005 % 2 ^ s.lanesBonded ≠ 2 ^ s.lanesBonded - 1 ∨ s.og 0x404801 % 2 = 0 ∨ s.og 0x404901 % 2 = 0) 10 +
    b (decide (s.og 0x4C0005 = 4) || decide (s.og 0x4C0006 = 4)) 11 + b (s.og 0x380001 = 1) 14 +
    b (s.ses.zones.any (·.stale)) 15

/-- Probe lines that Sunflower owns, or whose owner is changing, read 0 (R244, R512). -/
def State.probeMask (s : State) : Nat :=
  if s.og 0x3C0001 = 1 ∨ s.now < s.ses.ownerUntil then 0xF0000000 else 0xFFFFFFFF

/-- The sample that forms G(t): the latest taken at or before t − 8 ns; before any is that old, the first since Sesame started. -/
def State.pinsAt (s : State) (t : Nat) : Nat × Nat :=
  match (s.ses.pins.filter fun x => decide (x.1 + 8 ≤ t)).reverse with
  | x :: _ => x.2
  | [] => (s.ses.pins.head?.map (·.2)).getD (0, 0)

/-- Trigger-bus lines the device drives at this instant (R261). -/
def ownDrive (tb : List Nat) : Nat :=
  tb.zipIdx.foldl (fun v (left, b) => if 1 ≤ left ∧ left ≤ 16 then v + 2 ^ b else v) 0

/-- Trigger-bus lines as the upstream and the downstream side deliver them; a side that is not aligned reads 0 (R414). -/
def State.busUp (s : State) : Nat := if s.og 0x4C0005 = 3 then s.ses.tbIn % 256 else 0
def State.busDown (s : State) : Nat := if s.og 0x4C0006 = 3 then s.ses.tbIn / 256 % 256 else 0

/-- The lines the device transmits on a side: its own drive and what the other side delivers (R414). -/
def State.busOut (s : State) (down : Bool) : Nat := ownDrive s.ses.tb ||| (if down then s.busUp else s.busDown)

/-- The ten groups at instant t (Table 11-1). -/
def State.groups (s : State) (t : Nat) : List Nat :=
  let (prb, trig) := s.pinsAt t
  let pol := s.og 0x380005
  let is := s.levelLines ||| s.ses.pulses
  let g9 := (s.busUp ||| s.busDown ||| ownDrive s.ses.tb) + 2 ^ 8 * (is % 65536) + 2 ^ 24 * ((trig ^^^ pol) % 4) +
    2 ^ 26 * (s.ses.trigPulse % 16) + 2 ^ 31
  (List.range 8).map s.zoneGroup ++ [prb &&& s.probeMask, g9]

/-! ## Sequence programs (Tables 11-4 to 11-7) -/

/-- The program of sequence i in the plan in hand. -/
def State.program (s : State) (i : Nat) : Option (List Byte) :=
  match s.planNow with
  | none => none
  | some pl => if pl.hasSec 0x40 i then some (pl.sec 0x40 i) else none

/-- n bytes of level l of a program at an offset. -/
def lvl (b : List Byte) (l off n : Nat) : Nat := fld b (16 + 80 * l + off) n

/-- n bytes of term j of level l. -/
def term (b : List Byte) (l j off n : Nat) : Nat := lvl b l (16 + 16 * j + off) n

/-- A term's condition (R253). -/
def termTrue (mode m v g prev : Nat) : Bool :=
  match mode with
  | 1 => decide ((g ^^^ v) &&& m = 0)
  | 2 => decide ((g ^^^ v ^^^ 0xFFFFFFFF) &&& m ≠ 0)
  | 3 => decide (g &&& (prev ^^^ 0xFFFFFFFF) &&& m ≠ 0)
  | 4 => decide ((g ^^^ 0xFFFFFFFF) &&& prev &&& m ≠ 0)
  | 5 => decide ((g ^^^ prev) &&& m ≠ 0)
  | 6 => decide ((g ^^^ v) &&& m ≠ 0)
  | _ => false

/-- Term j of level l holds at this instant. -/
def holds (b : List Byte) (l : Nat) (g prev : List Nat) (j : Nat) : Bool :=
  let k := term b l j 0 1
  termTrue (term b l j 1 1) (term b l j 4 4) (term b l j 8 4) (g.getD k 0) (prev.getD k 0)

/-- Sequence in level l, entered `ahead` instants from now (R255). -/
def Seq.enter (q : Seq) (b : List Byte) (l ahead : Nat) : Seq :=
  { q with level := l, counter := 0, open_ := decide (lvl b l 4 1 ≠ 2)
           timer := if lvl b l 4 1 = 0 then none else some (lvl b l 0 4 + ahead) }

/-- The auto timer's load in instants, none when off (R258). -/
def autoLoad (b : List Byte) : Option Nat := if fld b 8 4 = 0 then none else some (250 * fld b 8 4)

/-- What one instant decides for a sequence (R254, R259): the sequence after it, the recorded cause with its level and
winning term, and the absorbed causes. -/
structure Verdict where
  seq : Seq
  cause : Option Nat
  level : Nat
  absorbed : Nat
  deriving DecidableEq, Repr

/-- One instant of a running sequence whose timers are counted to it; `forces` host forces fall on it. -/
def Seq.judge (q : Seq) (b : List Byte) (g prev : List Nat) (forces : Nat) : Verdict :=
  let l := q.level
  let mode := lvl b l 4 1
  let expires := decide (q.timer = some 0)
  let autoDue := decide (q.auto = some 0)
  let q := { q with timer := if expires then none else q.timer
                    auto := if autoDue then none else q.auto, open_ := q.open_ || expires }
  let true_ := (List.range 4).map fun j => q.open_ && holds b l g prev j
  let counted (j : Nat) : Bool := decide (term b l j 0xC 1 = 1)
  let bump := (List.range 4).any fun j => counted j && true_.getD j false
  let target := lvl b l 8 2
  let q := { q with counter := if bump then min target (q.counter + 1) else q.counter }
  let winner := (List.range 4).find? fun j => true_.getD j false && (!counted j || decide (q.counter = target))
  let timerWins := winner.isNone && decide (mode = 1) && expires
  let action := match winner with | some j => term b l j 2 1 | none => if timerWins then lvl b l 5 1 else 0
  let goal := match winner with | some j => term b l j 3 1 | none => lvl b l 6 1
  let causes : List Nat :=
    (match winner with | some j => if action = 4 then [j] else [] | none => if timerWins && decide (action = 4) then [4] else []) ++
      rep forces 5 ++ (if autoDue then [6] else [])
  match causes with
  | [] =>
    let q := match action with
      | 1 => q.enter b (l + 1) 1
      | 2 => q.enter b goal 1
      | 3 => q.enter b 0 1
      | _ => q
    ⟨q, none, l, 0⟩
  | c :: rest =>
    let lostTimer := winner.isSome && decide (action = 4) && decide (mode = 1) && expires && decide (lvl b l 5 1 = 4)
    let lostWinner := (winner.isSome || timerWins) && decide (action ≠ 4)
    let absorbed := rest.length + (if lostTimer then 1 else 0) + (if lostWinner then 1 else 0)
    let q := { q with number := (q.number + 1) % 2 ^ 32 }
    let q := if fld b 4 1 = 1 then { q.enter b 0 1 with auto := autoLoad b }
      else { q with state := 2, timer := none, auto := none }
    ⟨q, some c, l, absorbed⟩

/-! ## Triggers (R261 to R263) -/

/-- The stamp of the edge a single-pin term saw: the latest edge 8 to 12 ns before t. The TDC stamps rising edges, so a falling
level has none (R263). -/
def State.edgeStamp (s : State) (mode group mask t : Nat) : Option (Nat × Bool) :=
  if (mode = 3 ∨ mode = 5) ∧ group = 9 ∧ (mask = 2 ^ 24 ∨ mask = 2 ^ 25) ∧ s.ses.g.getD 9 0 &&& mask ≠ 0 then
    ((s.ses.stamps.getD (if mask = 2 ^ 24 then 0 else 1) []).find? fun x => decide (x.1 + 8 ≤ t ∧ t < x.1 + 12)).map (·.2.2)
  else none

/-- The trigger descriptor (Table 11-9). -/
def State.descriptor (s : State) (i t : Nat) (b : List Byte) (v : Verdict) (cause : Nat) : List Byte :=
  let grp := if cause < 4 then some (term b v.level cause 0 1) else none
  let stamp := if cause < 4 then s.edgeStamp (term b v.level cause 1 1) (term b v.level cause 0 1) (term b v.level cause 4 4) t
    else none
  let (time, fine) : Nat × Nat := match stamp with
    | some (st, coarse) => (st, if coarse then 4 else 1)
    | none => (65536 * s.devNs, 0)
  let stale := match grp with
    | some k => decide (k < 8) && (List.range 32).any fun z => (s.zone (32 * k + z)).stale
    | none => false
  le 8 (time / 65536) ++ le 2 (time % 65536) ++
    [byte i, byte cause, byte v.level, byte (fine + (if 0 < v.absorbed then 2 else 0) + (if stale then 8 else 0))] ++ le 2 0 ++
    le 8 s.sw.lastIndex ++ le 4 v.seq.number ++ le 4 (s.ses.zoneTick.getD 0xFFFFFFFF)

/-- A trigger of sequence i at t (R261, R265). -/
def State.trigger (s : State) (i t : Nat) (b : List Byte) (v : Verdict) (cause : Nat) : State :=
  let d := s.descriptor i t b v cause
  let drive := fld b 5 1
  let s := { s with ses := { s.ses with
    trigPulse := setBit s.ses.trigPulse i
    tb := s.ses.tb.zipIdx.map fun (left, k) => if bit drive k then 17 else left } }
  let s := (List.range 8).foldl (fun s c => if bit (fld b 6 1) c then s.captureTrigger c t d else s) s
  let s := if fld b 7 1 = 1 then s.event 0x0008 2 d else s
  let s := ((s.ds (okey (0x3810 + i) 7) d).bump (okey (0x3810 + i) 5)).count (64 + i)
  let s := if 5 ≤ cause then (s.bump (okey (0x3810 + i) 6)).count (68 + i) else s
  if 0 < v.absorbed then (s.bump (okey (0x3810 + i) 8) v.absorbed).count (72 + i) v.absorbed else s

def State.seq (s : State) (i : Nat) : Seq := s.ses.seqs.getD i Seq.idle

def State.setSeq (s : State) (i : Nat) (f : Seq → Seq) : State := { s with ses := { s.ses with seqs := modAt s.ses.seqs i f } }

/-- An accepted arm or disarm acts, judged again (R256): an arm of a running or unprogrammed sequence has no effect. -/
def State.actOne (s : State) (i : Nat) (arm : Bool) : State :=
  if arm then
    match s.program i with
    | none => s
    | some b =>
      if (s.seq i).state = 1 then s
      else
        (s.setSeq i fun q => { ({ q with state := 1, number := 0 } : Seq).enter b 0 0 with auto := autoLoad b }).os
          (okey (0x3810 + i) 9) s.devNs
  else s.setSeq i fun q => { q with state := 0, level := 0, timer := none, auto := none, counter := 0 }

/-- The arms and disarms of a sequence accepted at least 1 µs before instant t act, oldest first. -/
def State.armAct (s : State) (i t : Nat) : State :=
  let due := (s.seq i).acts.filter fun x => decide (x.1 + 1000 ≤ t)
  due.foldl (fun s x => s.actOne i x.2) (s.setSeq i fun q => { q with acts := q.acts.filter fun x => decide (t < x.1 + 1000) })

/-- A sequence at instant t: nothing unless it runs; the forces due are used up either way (R260). -/
def State.seqInstant (s : State) (i t : Nat) (g prev : List Nat) : State :=
  let q := s.seq i
  let due := q.forces.countP fun a => decide (a + 1000 ≤ t)
  let s := s.setSeq i fun q => { q with forces := q.forces.filter fun a => decide (t < a + 1000) }
  match s.program i with
  | none => s
  | some b =>
    if q.state = 1 then
      let v := (s.seq i).judge b g prev due
      let s := s.setSeq i fun _ => v.seq
      match v.cause with
      | some c => s.trigger i t b v c
      | none => s
    else s

/-- Evaluation instants from the latest one to t; the first since Sesame started or resumed is one on. -/
def State.elapsed (s : State) (t : Nat) : Nat := max (if s.ses.fresh then 1 else 0) ((t - s.ses.at_) / 4)

/-- Level timers, auto timers and bus drives counted on to instant t (R242, R255, R258, R261). -/
def State.clockTo (s : State) (t : Nat) : State :=
  let n := s.elapsed t
  { s with ses := { s.ses with
    seqs := s.ses.seqs.map fun q => { q with timer := q.timer.map (· - n), auto := q.auto.map (· - n) }
    tb := s.ses.tb.map (· - n), at_ := if s.ses.fresh then t else s.ses.at_ + 4 * n } }

/-! ## Commands -/

/-- Of the pin samples, the one in force 8 ns ago and those after it. -/
def keepPins (t : Nat) (l : List (Nat × Nat × Nat)) : List (Nat × Nat × Nat) :=
  let old := l.filter fun x => decide (x.1 + 8 ≤ t)
  old.drop (old.length - 1) ++ l.filter fun x => decide (t < x.1 + 8)

/-- The groups formed at instant t; the pulses due are used up. -/
def State.formLines (s : State) (t : Nat) : State :=
  let g := s.groups t
  { s with ses := { s.ses with
    g := g, prev := if s.ses.fresh then g else s.ses.g, fresh := false, pulses := 0, trigPulse := 0 } }

/-- The latest evaluation instant at or before t, evaluated unless it has been (R242 to R263, R276): timers and drives count on to
it, the groups form, accepted arms, disarms and forces act, every running sequence evaluates, and the captures take their
clock instants. -/
def State.evaluate (s : State) (t : Nat) : State :=
  if s.ses.running = false ∨ s.elapsed t = 0 then s
  else
    let s := s.clockTo t
    let u := s.ses.at_
    let w := s.formLines u
    let s := (List.range 4).foldl (fun s i => (s.armAct i u).seqInstant i u w.ses.g w.ses.prev) w
    let s := (List.range 8).foldl (fun s c => if (s.cap c).disarmDue u then s.disarmCapture c else s) s
    let s := (List.range 8).foldl (fun s c => s.captureInstant c u) s
    { s with ses := { s.ses with clock0 := [] } }

/-- The pin levels sampled at a fabric clock edge, and the trigger-bus lines as delivered. -/
def State.samplePins (s : State) (t prb trig tb : Nat) : State :=
  { s with ses := { s.ses with pins := keepPins t s.ses.pins ++ [(t, prb % 2 ^ 32, trig % 4)], tbIn := tb % 65536 } }

/-- EVALUATION_INSTANT (R242 to R261, R276): the pins are sampled and the instant is evaluated. `prb`, `trig` are the pin levels
at this edge, `tb` the bus lines as delivered: bits 7 to 0 by the upstream side, bits 15 to 8 by the downstream side. -/
def execEvaluationInstant (t prb trig tb : Nat) (s : State) : Host.Outcome State Fault Refusal :=
  let s := s.at t
  .next (if s.ses.running = false then s else (s.samplePins s.now prb trig tb).evaluate s.now)

/-- A timer has run out by instant t. -/
def State.ranOut (s : State) (timer : Option Nat) (t : Nat) : Bool :=
  match timer with
  | some k => decide (k ≤ s.elapsed t)
  | none => false

/-- LEVEL_TIMER_EXPIRY (R254, R255): the level timer of a sequence has run out at instant t, which is evaluated. -/
def execLevelTimerExpiry (t seq : Nat) (s : State) : Host.Outcome State Fault Refusal :=
  let s := s.at t
  .next (if s.ranOut (s.seq seq).timer s.now then s.evaluate s.now else s)

/-- AUTO_TIMER_EXPIRY (R258): the auto timer of a running sequence has run out at instant t, which is evaluated. -/
def execAutoTimerExpiry (t seq : Nat) (s : State) : Host.Outcome State Fault Refusal :=
  let s := s.at t
  .next (if s.ranOut (s.seq seq).auto s.now then s.evaluate s.now else s)

/-- The effect of writing 1 to 0x3810 + i : 03 (R256). -/
def seqArm (i : Nat) (s : State) : Except Nat State :=
  require (decide ((s.seq i).state ≠ 1) && (s.program i).isSome && s.queuesLive) 0x08000020 <|
    .ok (s.setSeq i fun q => { q with acts := q.acts ++ [(s.now, true)] })

/-- SEQUENCE_ARM (R256): judged at acceptance. -/
def execSequenceArm (t c seq : Nat) (s : State) : Host.Outcome State Fault Refusal :=
  .next ((s.at t).hostWrite c (0x3810 + seq) 3 false (le 1 1) (seqArm seq))

/-- The effect of writing 2 to 0x3810 + i : 03. -/
def seqDisarm (i : Nat) (s : State) : Except Nat State := .ok (s.setSeq i fun q => { q with acts := q.acts ++ [(s.now, false)] })

/-- SEQUENCE_DISARM (R256). -/
def execSequenceDisarm (t c seq : Nat) (s : State) : Host.Outcome State Fault Refusal :=
  .next ((s.at t).hostWrite c (0x3810 + seq) 3 false (le 1 2) (seqDisarm seq))

/-- SEQUENCE_ARM_ACT (R256): the first evaluation instant at least 1 µs after acceptance. -/
def execSequenceArmAct (t seq : Nat) (s : State) : Host.Outcome State Fault Refusal :=
  let s := s.at t
  .next (if (s.seq seq).acts.any fun x => decide (x.1 + 1000 ≤ s.now) then s.evaluate s.now else s)

/-- The effect of writing 1 to 0x3810 + i : 04 (R258). -/
def seqForce (i : Nat) (s : State) : Except Nat State :=
  require (decide ((s.seq i).state = 1)) 0x08000020 <| .ok (s.setSeq i fun q => { q with forces := q.forces ++ [s.now] })

/-- FORCE (R258). -/
def execForce (t c seq : Nat) (s : State) : Host.Outcome State Fault Refusal :=
  .next ((s.at t).hostWrite c (0x3810 + seq) 4 false (le 1 1) (seqForce seq))

/-- FORCE_ACT (R258, R260): the force triggers, or finds the sequence no longer running. -/
def execForceAct (t seq : Nat) (s : State) : Host.Outcome State Fault Refusal :=
  let s := s.at t
  .next (if (s.seq seq).forces.any fun a => decide (a + 1000 ≤ s.now) then s.evaluate s.now else s)

/-- HOST_LINE (Table 11-10): 0x3800:01 drives IS14 from the first instant after acceptance. -/
def execHostLine (t c level : Nat) (s : State) : Host.Outcome State Fault Refusal :=
  .next ((s.at t).hostWrite c 0x3800 1 false (le 1 level) fun s => .ok (s.os 0x380001 (level % 256)))

/-- The next 4 ns sampling edge at or after now (R244). -/
def State.samplingEdge (s : State) : Nat := s.now + (4 - (s.now - s.ses.at_) % 4) % 4

/-- The device time of the sampling edge that captures an edge now: the coarse stamp (R250). -/
def State.coarseStamp (s : State) : Nat := (s.at s.samplingEdge).tb.t

/-- The TDC stamps an edge of a TRIG_IN pin (R250); one that follows the previous by less than 8 ns, or that met no calibrated
interpolator (R384), gets a coarse stamp, the device time of the sampling edge that captured it. -/
def State.pinEdge (s : State) (pin stamp : Nat) (uncalibrated : Bool) : Nat × State :=
  let close := match s.ses.stamps.getD pin [] with
    | x :: _ => decide (s.now ≤ x.1 + 8) && decide (stamp < x.2.1 + 8 * 65536)
    | [] => false
  let coarse := uncalibrated || close
  let shown := if coarse then s.coarseStamp else stamp
  (shown, { s with ses := { s.ses with stamps := modAt s.ses.stamps pin fun l => (s.now, stamp, shown, coarse) :: l.take 3 } })

/-- At a take a sequence whose program differs enters Idle; one that ran or had triggered posts event 0x0007 (R264). -/
def State.seqTake (s : State) (old : Option Plan) (pl : Plan) : State :=
  (List.range 4).foldl (fun s i =>
    let o := old.map fun o => (o.hasSec 0x40 i, o.sec 0x40 i)
    if o = some (pl.hasSec 0x40 i, pl.sec 0x40 i) then s
    else
      let ran := decide ((s.seq i).state ≠ 0)
      let s := s.setSeq i fun q => { q with state := 0, level := 0, timer := none, auto := none, counter := 0 }
      if ran then s.event 0x0007 4 [byte i] else s) s

/-- Sesame stops with Ready left for Doze (R242). -/
def State.sesameStop (s : State) : State := { s with ses := { s.ses with running := false } }

/-- Sesame starts or resumes with Ready (R242, R253); trigger counts restart (Table 11-10). -/
def State.sesameStart (s : State) : State :=
  let s := { s with ses := { s.ses with running := true, fresh := true, at_ := s.now, pulses := 0, trigPulse := 0, pins := [] } }
  (List.range 4).foldl (fun s i => s.os (okey (0x3810 + i) 5) 0) s

/-! ## Captures begin (R269, R274) -/

/-- FILLING_ENTRY (R269, R270): the first evaluation instant at least 1 µs after the oldest waiting arm's acceptance, which is
evaluated; the arm is judged again. -/
def execFillingEntry (t buf : Nat) (s : State) : Host.Outcome State Fault Refusal :=
  let s := s.at t
  match (s.cap buf).arms with
  | [] => .next s
  | a :: r =>
    if s.ses.running = true ∧ a + 1000 ≤ s.now then
      let s := (s.setCap buf fun k => { k with arms := r }).evaluate s.now
      if (s.capState buf = 0 ∨ s.capState buf = 5) ∧ s.og (ck buf 0xE) ≠ 0 ∧ (s.ladderSec buf).isSome = true then
        .next (s.fillCapture buf s.ses.at_)
      else .next s
    else .next s

/-- CAPTURE_REARM (R274): the first evaluation instant at least 1 µs after the last record, which is evaluated. -/
def execCaptureRearm (t buf : Nat) (s : State) : Host.Outcome State Fault Refusal :=
  let s := s.at t
  .next (match (s.cap buf).rearmAt with
    | some a =>
      if s.capState buf = 4 ∧ s.ses.running = true ∧ a + 1000 ≤ s.now then
        let s := s.evaluate s.now
        s.fillCapture buf s.ses.at_
      else s
    | none => s)

end Sys2Proof.Machine
end

