-- ==== Sys2Proof/Machine/Sunflower.lean ====
section
/-! DEFINITION. The Sunflower waterfall port (12, R285 to R289). -/

namespace Sys2Proof.Machine

open Sys2Proof

/-- Active pixels H and active lines V. -/
def State.sunH (s : State) : Nat := s.og 0x3C0005 % 65536
def State.sunV (s : State) : Nat := s.og 0x3C0006 % 65536

/-- Row pitch in bytes (R287). -/
def State.sunPitch (s : State) : Nat := 64 * ceilDiv (s.sunH * (s.og 0x3C0003 / 8)) 64

/-- The region of a kind. -/
def State.region (s : State) (k : RegionKind) : Option Region := s.mem.regions.find? fun r => decide (r.kind = k)

/-- The 24 data-pin levels of a pixel: red, green, blue (R287). -/
def pixelPins (format w : Nat) : Nat :=
  if format = 16 then
    let r := w / 2048 % 32
    let g := w / 32 % 64
    let b := w % 32
    ((r * 8 ||| r / 4) * 65536) + ((g * 4 ||| g / 16) * 256) + (b * 8 ||| b / 4)
  else w % 2 ^ 24

/-- The pins of the H pixels of a ring row, three bytes each. -/
def State.sunRow (s : State) (base row : Nat) : List Byte :=
  let n := s.og 0x3C0003 / 8
  (List.range s.sunH).flatMap fun i =>
    le 3 (pixelPins (s.og 0x3C0003) (unle (memRead s.mem.dram (base + row * s.sunPitch + i * n) n)))

/-! ## Scan-out (R285, R288, R289) -/

/-- One timing field of the horizontal or the vertical object: 0 active, 1 front porch, 2 sync, 3 back porch (Table 12-10). -/
def State.sunTime (s : State) (sub i : Nat) : Nat := s.og (okey 0x3C00 sub) / 65536 ^ i % 65536

/-- Pixels of a line and lines of a frame, blanking included. -/
def State.sunTotal (s : State) (sub : Nat) : Nat := sumN ((List.range 4).map (s.sunTime sub))

/-- The pixel clock's period in ns, 250 MHz through the divider. -/
def State.pixelNs (s : State) : Nat := 4 * s.og 0x3C0004

def State.lineNs (s : State) : Nat := s.sunTotal 5 * s.pixelNs

/-- Pixels or lines before the active ones: a line and a frame begin with the sync and its back porch (assumption log 88). -/
def State.sunLead (s : State) (sub : Nat) : Nat := s.sunTime sub 2 + s.sunTime sub 3

/-- The instant at which the first pixel of active line y appears. -/
def State.lineStart (s : State) (y : Nat) : Nat :=
  s.sun.since + (s.sunLead 6 + y) * s.lineNs + s.sunLead 5 * s.pixelNs

/-- Sunflower drives its pins: it owns them and the device is in Ready or Sensing (R285). -/
def State.sunDrives (s : State) : Bool := decide (s.og 0x3C0001 = 1) && s.queuesLive

/-- The pixels of active line y, three bytes each: the ring row of R288; 0 from where a row not read in time cut the line. -/
def State.sunLine (s : State) (y : Nat) : List Byte :=
  let whole := match s.region .frame with
    | some r => s.sunRow r.base ((s.sun.latched + s.sunV - y % s.sunV) % s.sunV)
    | none => rep (3 * s.sunH) 0
  match s.sun.cut with
  | some (l, k) => if l = y then whole.take (3 * k) ++ rep (3 * (s.sunH - k)) 0 else whole
  | none => whole

/-- The active lines that have ended by now appear on the pins (R288). -/
def State.sunScan (s : State) : State :=
  if s.sun.scanning then
    (List.range (s.sunV - s.sun.shown)).foldl (fun s _ =>
      let y := s.sun.shown
      if s.lineStart y + s.sunH * s.pixelNs ≤ s.now then
        let s := if s.sunDrives then s.emit (.row (s.sunLine y)) else s
        { s with sun := { s.sun with shown := y + 1 } }
      else s) s
  else s

/-- The levels of PRB0 to PRB27 as Sunflower drives them now, bit i for PRB i (Table 12-9); none where it drives nothing. They
change on the falling edge of the pixel clock at polarity 0; while nothing is scanned every pin is inactive (R285, R289). -/
def State.sunPins (s : State) : Option Nat :=
  if s.sunDrives = false then none
  else
    let pol := s.og 0x3C0007
    let level (on : Bool) (p pin : Nat) : Nat := if on != bit pol p then 2 ^ pin else 0
    if s.sun.scanning = false then some (level false 0 25 + level false 1 26 + level false 2 27)
    else
      let d := s.now - s.sun.since
      let line := d / max 1 s.lineNs
      let x := d % max 1 s.lineNs / max 1 s.pixelNs
      let high := decide (2 * (d % max 1 s.pixelNs) ≥ s.pixelNs)
      let y := line - s.sunLead 6
      let px := x - s.sunLead 5
      let on := decide (s.sunLead 6 ≤ line ∧ y < s.sunV ∧ s.sunLead 5 ≤ x ∧ px < s.sunH)
      some ((if on then unle (((s.sunLine y).drop (3 * px)).take 3) else 0) + level high 3 24 +
        level (decide (x < s.sunTime 5 2)) 0 25 + level (decide (line < s.sunTime 6 2)) 1 26 + level on 2 27)

/-- A waterfall kernel writes the next row of the frame, one of `count` rows from `first` on (Table 10-17). What it draws is
not stated, so the row's bytes are free; without a frame region that holds the row nothing is written. -/
def State.waterfall (s : State) (first count : Nat) : State :=
  let s := s.sunScan
  let w := s.og 0x3C0009
  let row := if first ≤ w ∧ w < first + count then first + (w + 1 - first) % count else first
  match s.region .frame with
  | none => s
  | some r =>
    if r.size < (row + 1) * s.sunPitch then s
    else
      let n := s.sunH * (s.og 0x3C0003 / 8)
      let (v, s) := s.draw (256 ^ n)
      { s.os 0x3C0009 (row % 65536) with mem := { s.mem with dram := memWrite s.mem.dram (r.base + row * s.sunPitch) (le n v) } }

/-! ## Commands -/

/-- The effect of an owner write (R285, R512): the lines read 0 until the change completes, within 1 µs. -/
def ownerWrite (v : Nat) (s : State) : Except Nat State :=
  let s' := s.sunScan.os 0x3C0001 v
  .ok (if v = s.og 0x3C0001 then s' else { s' with ses := { s'.ses with ownerUntil := s.now + 1000 } })

/-- OWNER_WRITE (R285). -/
def execOwnerWrite (t c owner : Nat) (s : State) : Host.Outcome State Fault Refusal :=
  .next ((s.at t).hostWrite c 0x3C00 1 false (le 1 owner) (ownerWrite (owner % 256)))

/-- The effect of an enable write (R286). -/
def sunflowerEnable (v : Nat) (s : State) : Except Nat State :=
  if v = 1 then
    require (decide (s.og 0x3C0001 = 1) && decide (s.sunV * s.sunPitch ≤ s.og 0x3C0008 * 2 ^ 20) && s.queuesLive) 0x08000020 <|
      .ok { s.os 0x3C0002 1 with sun := { s.sun with startWanted := !s.sun.scanning, stopWanted := false } }
  else .ok { s.os 0x3C0002 0 with sun := { s.sun with stopWanted := s.sun.scanning, startWanted := false } }

/-- SUNFLOWER_ENABLE (R286). -/
def execSunflowerEnable (t c : Nat) (s : State) : Host.Outcome State Fault Refusal :=
  .next ((s.at t).hostWrite c 0x3C00 2 false (le 1 1) (sunflowerEnable 1))

/-- SUNFLOWER_DISABLE (R286): scanning stops at the end of the frame in progress. -/
def execSunflowerDisable (t c : Nat) (s : State) : Host.Outcome State Fault Refusal :=
  .next ((s.at t).hostWrite c 0x3C00 2 false (le 1 0) (sunflowerEnable 0))

/-- The frame in progress has lasted its lines. -/
def State.frameOver (s : State) : Bool := decide (s.sun.since + s.sunTotal 6 * s.lineNs ≤ s.now)

/-- VERTICAL_SYNC (R286 to R288): a frame ends and, unless scanning stops, the next begins with the newest row latched; its
lines show the ring from that row backwards. -/
def execVerticalSync (t : Nat) (s : State) : Host.Outcome State Fault Refusal :=
  let s := s.at t
  .next (if s.sun.scanning && !s.frameOver || !(s.sun.scanning || s.sun.startWanted) then s
    else
      let s := if s.sun.scanning then s.sunScan.bump 0x3C000A else s
      if s.sun.stopWanted then { s with sun := { s.sun with scanning := false, stopWanted := false } }
      else
        { s with sun := { s.sun with scanning := true, startWanted := false, latched := s.og 0x3C0009, since := s.now, shown := 0
                                     cut := none } })

/-- UNDERRUN (R289): the rest of the line is 0 from now on and the timing holds. -/
def execUnderrun (t line : Nat) (s : State) : Host.Outcome State Fault Refusal :=
  let s := s.at t
  .next (if s.sun.scanning then
      let s := ((s.sunScan.bump 0x3C000B).count 85).emit (.underrun line)
      { s with sun := { s.sun with cut := some (line, ceilDiv (s.now - s.lineStart line) (max 1 s.pixelNs)) } }
    else s)

end Sys2Proof.Machine
end

