-- ==== Sys2Proof/Machine/Roles.lean ====
section
/-! DEFINITION. What a library work item makes of the state by the role of its kernel (Table 10-17). A library kernel's program
is not in the spec, so its role's effect comes about as a whole when its item executes END (assumption log 46): a failed engine
completes no work (R166). -/

namespace Sys2Proof.Machine

open Sys2Proof

/-! ## Channel records in Cashew (R154, Table 7-3) -/

/-- The bytes of a channel state record (Table 7-3). -/
def ChanState.bytes (cs : ChanState) : List Byte :=
  le 4 (toU 24 cs.xph * 256 + (if cs.taint then 2 else 0) + (if cs.valid then 1 else 0)) ++ le 4 (toU 24 cs.yph * 256) ++
    le 2 cs.xa ++ le 2 cs.ya ++ le 4 cs.tick ++ le 8 (toU 64 cs.hs) ++
    (cs.b.zip cs.init).flatMap fun (b, i) => le 4 (toU 24 b * 256 + if i then 1 else 0)

/-- Banks of a mask, ascending. -/
def bankList (mask : Nat) : List Nat := (List.range 48).filter (bit mask)

/-- Where in the banks of an item the record of a channel stands, as an offset into Cashew: the schedule assigns the banks, and the
place inside them is the kernel's own, which the spec does not state (assumption log 81). -/
def recordPlace (mask port c size : Nat) : Option Nat :=
  let l := bankList mask
  let x := Config.recordPlace port c
  l[x % max 1 l.length]?.map fun b => b * 0x80000 + x / max 1 l.length % (0x80000 - size + 1)

/-- The record of a channel goes into Cashew as it stands. -/
def State.storeRecord (s : State) (it : Item) (c : Nat) : State :=
  match (s.pdas it.port).chans[c]? with
  | none => s
  | some cs =>
    let b := cs.bytes
    match recordPlace it.banks it.port c b.length with
    | none => s
    | some a => { s with mem := { s.mem with cashew := memWrite s.mem.cashew a b } }

/-! ## Roles 1 to 3 -/

/-- Counts of memory errors that library items met in channel or output state (R339). -/
def State.itemErrors (s : State) (n : Nat) : State := (s.count 54 n).bump 0x420015 n

/-- The channel restarts under R158 because its stored state was read with an error (R339). -/
def State.forgetChan (s : State) (f : Flight) (p sl c : Nat) : State :=
  (s.freshen f p sl c).setPdas p fun pd => pd.put c { pd.record c f.ord f.plan.slots with valid := false }

/-- Steps 1 and 2 of a range of channels of a tick, then the outputs that waited for them (R157 to R163). -/
def State.roleChans (s : State) (f : Flight) (it : Item) (range : List Nat) : State :=
  let s := range.foldl (fun s c =>
    (if it.invalid.contains c then s.forgetChan f it.port it.slot c else s).chanItem f it.port it.slot c) s
  s.endedOuts f it.port it.slot

/-- Steps 3 to 6 of a range of outputs of a tick: those whose channels are done by now, and the others once they are (R160). -/
def State.roleOuts (s : State) (f : Flight) (it : Item) : State :=
  (s.setTick it.port f.ord it.slot fun w => { w with ended := w.ended ++ [(it.first, it.count, it.invalid)] }).endedOuts f
    it.port it.slot

/-- The detectors of a range of zones on a tick (R246). -/
def State.roleZones (s : State) (f : Flight) (it : Item) (range : List Nat) : State :=
  if s.zonesOf f.plan = false then s
  else
    (range.filter fun z => f.plan.zoneOn z && decide (f.plan.zonePort z = it.port ∨ it.port = 0xFF)).foldl (fun s z =>
      match s.tick? (f.plan.zonePort z) f.ord it.slot with
      | some w => if w.valid = true then s.detectZone f w z else s
      | none => s) s

/-- A library item has executed END: the effect of its role. -/
def State.libraryEnd (s : State) (it : Item) : State :=
  let range := (List.range it.count).map (it.first + ·)
  if it.role = 5 then s.waterfall it.first it.count
  else
    match s.sw.flights.find? fun f => decide (f.ord = it.ord) with
    | none => s
    | some f =>
      if it.role = 1 ∨ it.role = 2 then
        let s := s.itemErrors (range.countP fun c => it.invalid.contains c)
        let s := if it.role = 1 then s.roleChans f it range else s.roleOuts f it
        range.foldl (fun s c => s.storeRecord it c) s
      else if it.role = 3 then s.roleZones f it range
      else s

end Sys2Proof.Machine
end

