-- ==== Sys2Proof/Machine/Hazel.lean ====
section
/-! DEFINITION. The Hazel engines (10): contexts, the data address map, faults, the start and the end of work items, and the
bookkeeping of a bundle. One command stands for one slot of the current bundle of the context that runs; the slots of a
bundle come in the order MAC, load/store 0, load/store 1, address, control, and the control slot ends the bundle
(assumption log 14). -/

namespace Sys2Proof.Machine

open Sys2Proof

/-! ## Engines and contexts (R216) -/

def State.engine (s : State) (e : Nat) : Engine := s.hz.engines.getD e Engine.idle

def State.setEngine (s : State) (e : Nat) (f : Engine → Engine) : State :=
  { s with hz := { s.hz with engines := modAt s.hz.engines e f } }

/-- Which context runs: the library context while a library item runs, once a user bundle under way has ended, else the user
context (R232). -/
def Engine.running (g : Engine) : Option Bool :=
  if g.halted then none
  else if g.mid && g.userItem.isSome then some true
  else if g.item.isSome then some false
  else if g.userItem.isSome then some true
  else none

def Engine.ctx (g : Engine) (user : Bool) : Ctx := if user then g.user else g.lib

def Engine.setCtx (g : Engine) (user : Bool) (c : Ctx) : Engine := if user then { g with user := c } else { g with lib := c }

def Engine.current (g : Engine) (user : Bool) : Option Item := if user then g.userItem else g.item

/-- The bundles a context may fetch (R217). -/
def inProgram (user : Bool) (b : Nat) : Bool := if user then decide (1536 ≤ b ∧ b < 2048) else decide (b < 1536)

/-! ## Data memory (R218, Table 10-2) -/

/-- Key of a local address of a context: the user parameter area stands beside the library's. -/
def localKey (e : Nat) (user : Bool) (a : Nat) : Nat :=
  e * 0x20000 + (if user && decide (0xFFC0 ≤ a) then a + 0x10000 else a)

/-- Table 10-2 gives a local address to a context. -/
def localOk (user : Bool) (a : Nat) : Bool :=
  decide (a < 0x10000) && (if user then decide (0xC000 ≤ a) else decide (a < 0xC000) || decide (0xFFC0 ≤ a))

/-- A Cashew address lies in a bank that the work item's mask names. -/
def cashewOk (banks a : Nat) : Bool :=
  decide (0x100000 ≤ a) && decide ((a - 0x100000) / 0x80000 < 48) && bit banks ((a - 0x100000) / 0x80000)

/-- An access of n bytes at an address is allowed and aligned (R218). -/
def accessOk (user : Bool) (banks a n : Nat) : Bool := decide (a % n = 0) && (localOk user a || cashewOk banks a)

/-- The byte at an address of a context. -/
def State.hzByte (s : State) (e : Nat) (user : Bool) (a : Nat) : Byte :=
  if a < 0x10000 then Memory.get s.hz.local_ (localKey e user a) else Memory.get s.mem.cashew (a - 0x100000)

def State.hzPutByte (s : State) (e : Nat) (user : Bool) (a : Nat) (b : Byte) : State :=
  if a < 0x10000 then { s with hz := { s.hz with local_ := Memory.put s.hz.local_ (localKey e user a) b } }
  else { s with mem := { s.mem with cashew := Memory.put s.mem.cashew (a - 0x100000) b } }

/-- n bytes from an address of a context, as a number. -/
def State.hzRead (s : State) (e : Nat) (user : Bool) (a n : Nat) : Nat :=
  unle ((List.range n).map fun i => s.hzByte e user (a + i))

def State.hzWrite (s : State) (e : Nat) (user : Bool) (a : Nat) (b : List Byte) : State :=
  b.zipIdx.foldl (fun s (x, i) => s.hzPutByte e user (a + i) x) s

/-- Parameter word w of a context's parameter area. -/
def State.paramWord (s : State) (e : Nat) (user : Bool) (w : Nat) : Nat := s.hzRead e user (0xFFC0 + 4 * w) 4

/-! ## Items start and end (R231, R232, R238) -/

/-- The context at the start of an item: pred and sat cleared; the user context wholly zero (Table 10-1). -/
def Ctx.start (c : Ctx) (user : Bool) (bundle : Nat) : Ctx :=
  let r := if user then Regs.zero else { c.regs with pred := rep 8 false, sat := 0 }
  { regs := r, issue := r, pc := bundle, loops := [], cycle := 0, stall := 0, ready := [], writes := [], stores := [], banks := [] }

/-- An item starts on its engine: its parameter words are in the parameter area. -/
def State.startItem (s : State) (e : Nat) (it : Item) : State :=
  let s := s.hzWrite e it.user 0xFFC0 it.params
  s.setEngine e fun g =>
    let g := g.setCtx it.user ((g.ctx it.user).start it.user it.bundle)
    if it.user then { g with userItem := some it } else { g with item := some it }

/-- The released item that runs next: earliest checkpoint instant, then lower entry number (R232). -/
def nextItem (l : List Item) : Option Item :=
  l.foldl (fun best it => match best with
    | none => some it
    | some b => if it.due < b.due ∨ (it.due = b.due ∧ it.entry < b.entry) then some it else best) none

/-- The engine takes its next library item, if one is released. -/
def State.dispatch (s : State) (e : Nat) : State :=
  match nextItem ((s.engine e).released.filter fun it => !it.user) with
  | none => s
  | some it =>
    (s.setEngine e fun g => { g with released := g.released.erase it }).startItem e it

/-- The user item of the engine is over: the next released one starts, unless the engine has halted. -/
def State.leaveUser (s : State) (e : Nat) : State :=
  let s := s.setEngine e fun g => { g with userItem := none, mid := false }
  if (s.engine e).halted then s
  else
    match nextItem ((s.engine e).released.filter fun it => it.user) with
    | none => s
    | some it =>
      (s.setEngine e fun g => { g with released := g.released.erase it }).startItem e it

/-- The work of a discarded library item is lost to its tick (R166). -/
def State.loseItem (s : State) (it : Item) : State :=
  if it.role = 1 ∨ it.role = 2 then
    s.setTick it.port it.ord it.slot fun w => { w with lost := w.lost ++ [(it.role, it.first, it.count)] }
  else s

/-- The engine halts at a missed checkpoint (R234): its library items are discarded and the miss waits for the boundary. -/
def State.halt (s : State) (e cause kernel : Nat) : State :=
  let g := s.engine e
  let s := (g.item.toList ++ g.released.filter fun it => !it.user).foldl State.loseItem s
  s.setEngine e fun g => { g with
    halted := true, mid := false, report := some (cause, kernel), item := none, released := g.released.filter fun it => it.user }

/-- A user item is aborted, running or released (R240): fault bit, event, count; its slot is disabled at the next boundary. -/
def State.abortUser (s : State) (e : Nat) (it : Item) (cause : Nat) : State :=
  let s := if (s.engine e).userItem = some it then s.leaveUser e
    else s.setEngine e fun g => { g with released := g.released.erase it }
  let s := s.osBit 0x410013 it.entry true
  let s := { s with hz := { s.hz with dropSlots := s.hz.dropSlots ++ [it.entry] } }
  let s := if it.slot = 0xFF then s.count 81 else s.countAt it.sweep 81
  s.event 0x0005 5 [byte it.entry, byte e, byte cause]

/-- The user item that runs or is next to run is aborted. -/
def State.userFault (s : State) (e cause : Nat) : State :=
  match (s.engine e).userItem with
  | none => s
  | some it => s.abortUser e it cause

/-- The kernel that an engine's miss names (R234): the library item that runs, 0xFFFF without one. -/
def Engine.kernel (g : Engine) : Nat := (g.item.map (·.kernel)).getD 0xFFFF

/-- An uncorrectable error strikes the memory of an engine, running or idle (R220, R234, R240): the user region or user data abort
the user item, anything else halts the engine. -/
def State.memoryFault (s : State) (e : Nat) (user : Bool) : State :=
  if user then s.userFault e 5 else if (s.engine e).halted then s else s.halt e 5 (s.engine e).kernel

/-- The running context of an engine raises a fault of Table 10-11. -/
def State.hzFault (s : State) (e cause : Nat) : State :=
  let g := s.engine e
  match g.running with
  | none => s
  | some true => s.userFault e cause
  | some false => s.halt e cause g.kernel

/-! ## One slot of a bundle (R221, R222, R226) -/

def Regs.dv (r : Regs) (n : Nat) : List Int := (r.d.getD n (rep 8 0)).map BitVec.toInt

def Regs.av (r : Regs) (n : Nat) : List Int := (r.a.getD n (rep 8 0)).map BitVec.toInt

def Regs.pv (r : Regs) (k : Nat) : Nat := (r.p.getD k 0).toNat

def Regs.mv (r : Regs) (k : Nat) : BitVec 32 := r.m.getD k 0

/-- The bundle waits for the registers a slot reads; `acc` reads as MAC, MSU or ACCD does (Table 10-8). -/
def Ctx.wait (c : Ctx) (acc : Bool) (ids : List RegId) : Ctx :=
  { c with stall := ids.foldl (fun n id =>
      match c.ready.find? fun r => decide (r.1 = id) with
      | some (_, a, o) => max n (if acc then a else o)
      | none => n) c.stall }

/-- A register is written with its two latencies. -/
def Ctx.note (c : Ctx) (id : RegId) (accLat lat : Nat) : Ctx := { c with writes := c.writes ++ [(id, accLat, lat)] }

def Ctx.setRegs (c : Ctx) (f : Regs → Regs) : Ctx := { c with regs := f c.regs }

def Ctx.putD (c : Ctx) (n lat : Nat) (v : List Int) : Ctx :=
  (c.setRegs fun r => { r with d := modAt r.d n fun _ => v.map (BitVec.ofInt 24) }).note (.d n) lat lat

def Ctx.putA (c : Ctx) (n accLat lat : Nat) (v : List Int) : Ctx :=
  (c.setRegs fun r => { r with a := modAt r.a n fun _ => v.map (BitVec.ofInt 56) }).note (.a n) accLat lat

/-- Set the sticky bit of every lane in which a saturation acted. -/
def Ctx.satLanes (c : Ctx) (acted : List Bool) : Ctx :=
  c.setRegs fun r => { r with sat := acted.zipIdx.foldl (fun v (x, i) => if x then v ||| (1#8 <<< i) else v) r.sat }

/-- Run a slot operation on the context that runs. An operation that answers a cause faults. -/
def State.slotOp (s : State) (e : Nat) (f : Bool → Nat → Ctx → Except Nat Ctx) : State :=
  let g := s.engine e
  match g.running with
  | none => s
  | some user =>
    match f user ((g.current user).map (·.banks) |>.getD 0) (g.ctx user) with
    | .error cause => s.hzFault e cause
    | .ok c => s.setEngine e fun g => { g.setCtx user c with mid := user }

/-! ## The end of a bundle (R219, R222, R226 to R229) -/

/-- Cycles a bundle stalls for its local word banks: the most distinct words of one bank, less one. -/
def bankStall (words : List Nat) : Nat :=
  let w := words.eraseDups
  (List.range 16).foldl (fun m b => max m (w.countP fun x => decide (x % 16 = b))) 1 - 1

/-- The next bundle after bundle b of straight code, and the loop levels left open, innermost first (R227). -/
def afterBundle (b : Nat) : List LoopLevel → Nat × List LoopLevel
  | [] => (b + 1, [])
  | l :: r =>
    if b = l.last then
      if 1 < l.left then (l.first, { l with left := l.left - 1 } :: r) else afterBundle b r
    else (b + 1, l :: r)

/-- A jump keeps the outer levels whose bodies hold its target: a level that it leaves closes with every level inside it. -/
def keepLevels (target : Nat) : List LoopLevel → List LoopLevel
  | [] => []
  | l :: r =>
    let r' := keepLevels target r
    if r'.length = r.length ∧ l.first ≤ target ∧ target ≤ l.last then l :: r' else r'

/-- Commit a bundle: stores in order, results ready after their latencies, cycles. -/
def State.commitBundle (s : State) (e : Nat) (user : Bool) (pc : Nat) (loops : List LoopLevel) (extra : Nat) : State :=
  let c := (s.engine e).ctx user
  let issued := max c.cycle c.stall
  let s := c.stores.foldl (fun s (a, b) => s.hzPutByte e user a b) s
  let fresh := c.writes.map fun (id, a, o) => (id, issued + a, issued + o)
  let old := c.ready.filter fun r => !(fresh.any fun f => decide (f.1 = r.1))
  let c := { c with
    issue := c.regs, pc := pc, loops := loops, cycle := issued + 1 + bankStall c.banks + extra, stall := 0
    ready := old ++ fresh.reverse, writes := [], stores := [], banks := [] }
  s.setEngine e fun g => { g.setCtx user c with mid := false }

/-- A byte of the program memory of an engine (R217): the library of the active data-path image below bundle 1 536, the same on
every engine and 0 before its first load; the user region as loaded. -/
def State.progByte (s : State) (e a : Nat) : Byte :=
  if a < 8 * 1536 then
    if s.pw.library then Config.libraryByte (s.imgField (s.activeArea true) 0x0C 4) a else 0
  else Memory.get s.hz.prog (e * 0x4000 + a)

/-- A bundle in program memory (R221). -/
def State.bundle (s : State) (e b : Nat) : Nat := unle ((List.range 8).map fun i => s.progByte e (8 * b + i))

/-- Control operation field of a bundle in program memory (Table 10-3). -/
def State.controlOp (s : State) (e b : Nat) : Nat := bits (s.bundle e b) 63 61

/-- The bundle goes on to `pc`: outside the program region the bundle is illegal; a user item over its budget faults. -/
def State.goOn (s : State) (e : Nat) (user : Bool) (pc : Nat) (loops : List LoopLevel) (extra : Nat) : State :=
  if inProgram user pc = false then s.hzFault e 2
  else
    let s := s.commitBundle e user pc loops extra
    let g := s.engine e
    match user, g.userItem with
    | true, some it => if it.budget < g.user.cycle then s.userFault e 6 else s
    | _, _ => s

/-- A control operation other than NOP and CHK at the end bundle of an open body makes the loop illegal (R228). -/
def Ctx.atEnd (c : Ctx) : Bool := c.loops.any fun l => decide (l.last = c.pc)

/-- Run a control slot that is NOP or CHK. -/
def State.ctlPlain (s : State) (e : Nat) : State :=
  let g := s.engine e
  match g.running with
  | none => s
  | some user =>
    let (pc, loops) := afterBundle (g.ctx user).pc (g.ctx user).loops
    s.goOn e user pc loops 0

/-- A jump of the control slot, taken or not. -/
def State.ctlJump (s : State) (e target : Nat) (reads : List RegId) (taken : Ctx → Bool) : State :=
  let g := s.engine e
  match g.running with
  | none => s
  | some user =>
    let c := (g.ctx user).wait false reads
    let s := s.setEngine e fun g => g.setCtx user c
    if c.atEnd then s.hzFault e 3
    else if taken c then s.goOn e user target (keepLevels target c.loops) 2
    else
      let (pc, loops) := afterBundle c.pc c.loops
      s.goOn e user pc loops 0

/-- LOOP (R227, R228): E is the end bundle. -/
def State.ctlLoop (s : State) (e last : Nat) : State :=
  let g := s.engine e
  match g.running with
  | none => s
  | some user =>
    let lvl := (g.ctx user).loops.length
    let c := (g.ctx user).wait false [.lc lvl]
    let s := s.setEngine e fun g => g.setCtx user c
    let outer := match c.loops with | l :: _ => decide (l.last < last) | [] => false
    if c.atEnd ∨ last ≤ c.pc ∨ inProgram user last = false ∨ outer = true ∨ 4 ≤ lvl ∨
        ¬(s.controlOp e last = 0 ∨ s.controlOp e last = 5) then s.hzFault e 3
    else
      let n := (c.issue.lc.getD lvl 0).toNat
      if n = 0 then
        let (pc, loops) := afterBundle last c.loops
        s.goOn e user pc loops 0
      else s.goOn e user (c.pc + 1) (⟨c.pc + 1, last, n⟩ :: c.loops) 0

/-- A user item ends (R239, R240): its outbox becomes a record, or its word 15 is invalid. -/
def State.endUser (s : State) (e : Nat) (it : Item) : State :=
  let n := s.paramWord e true 15
  if n = 0 then s.leaveUser e
  else if 4096 < n ∨ n % 4 ≠ 0 then s.userFault e 8
  else
    let payload := (List.range n).map fun i => s.hzByte e true (0xE000 + i)
    let s := s.leaveUser e
    (s.offer it.queue { typ := 7, sweep := it.sweep, stamp := it.stamp, olen := n, payload := payload }).2

/-- END (R229, R232, R239): every slot of the bundle completes, then the item is over. -/
def State.ctlEnd (s : State) (e : Nat) : State :=
  let g := s.engine e
  match g.running with
  | none => s
  | some user =>
    let c := g.ctx user
    if c.atEnd then s.hzFault e 3
    else
      let s := s.commitBundle e user c.pc [] 0
      match user, g.userItem with
      | true, some it =>
        if it.budget < ((s.engine e).user.cycle) then s.userFault e 6 else s.endUser e it
      | _, _ =>
        match g.item with
        | some it => ((s.setEngine e fun g => { g with item := none }).libraryEnd it).dispatch e
        | none => s

/-! ## Checkpoints, budgets, illegal bundles (R234, R240) -/

/-- CHECKPOINT_INSTANT (R234): the checkpoint instant of a library item passes before its END. -/
def execCheckpointInstant (t engine item : Nat) (s : State) : Host.Outcome State Fault Refusal :=
  let s := s.at t
  let g := s.engine engine
  if g.halted then .next s
  else
    match nextItem ((g.item.toList ++ g.released).filter fun i => !i.user && decide (i.entry = item) && decide (i.due ≤ s.now)) with
    | none => .next s
    | some i => .next (s.halt engine 1 i.kernel)

/-- BUDGET_EXHAUSTED (R240): the running user item has used more cycles of execution and stall than its budget. -/
def execBudgetExhausted (t engine : Nat) (s : State) : Host.Outcome State Fault Refusal :=
  .next ((s.at t).userFault engine 6)

/-- USER_ITEM_CHECKPOINT (R240): the checkpoint instant of a user item passes before its END, whether it runs or is
still released. -/
def execUserItemCheckpoint (t engine : Nat) (s : State) : Host.Outcome State Fault Refusal :=
  let s := s.at t
  let g := s.engine engine
  match nextItem ((g.userItem.toList ++ g.released.filter fun i => i.user).filter fun i => decide (i.due ≤ s.now)) with
  | none => .next s
  | some it => .next (s.abortUser engine it 7)

end Sys2Proof.Machine
end

