-- ==== Sys2Proof/Machine/HazelOps.lean ====
section
/-! DEFINITION. The meanings of the Hazel operations (Tables 10-4 to 10-7), one per operation, over the shared slot and
bundle operations of Machine/Hazel.lean. -/

namespace Sys2Proof.Machine

open Sys2Proof

/-! ## Control slot (Table 10-4) -/

/-- NOP: the bundle ends. -/
def execHzNop (e : Nat) (s : State) : Host.Outcome State Fault Refusal := .next (s.ctlPlain e)

/-- LOOP (R227, R228). -/
def execHzLoop (e last : Nat) (s : State) : Host.Outcome State Fault Refusal := .next (s.ctlLoop e last)

/-- JMP (R229). -/
def execHzJmp (e target : Nat) (s : State) : Host.Outcome State Fault Refusal :=
  .next (s.ctlJump e target [] fun _ => true)

/-- BRA: jump when pred is 1 in any lane. -/
def execHzBra (e target : Nat) (s : State) : Host.Outcome State Fault Refusal :=
  .next (s.ctlJump e target [.pred] fun c => c.issue.pred.any id)

/-- BRN: jump when pred is 0 in every lane. -/
def execHzBrn (e target : Nat) (s : State) : Host.Outcome State Fault Refusal :=
  .next (s.ctlJump e target [.pred] fun c => c.issue.pred.all (!·))

/-- CHK: the progress marker of the engine, 0x4100:50 + e (R234). -/
def execHzChk (e marker : Nat) (s : State) : Host.Outcome State Fault Refusal :=
  if (s.engine e).running.isSome then .next ((s.os (okey 0x4100 (0x50 + e)) (marker % 256)).ctlPlain e) else .next s

/-- END (R229, R239). -/
def execHzEnd (e t : Nat) (s : State) : Host.Outcome State Fault Refusal := .next ((s.at t).ctlEnd e)

/-- ILLEGAL_BUNDLE (R228, R234, R240): an illegal operation, or an illegal loop. -/
def execHzIllegalBundle (e t : Nat) (loop : Bool) (s : State) : Host.Outcome State Fault Refusal :=
  .next ((s.at t).hzFault e (if loop then 3 else 2))

/-! ## Address slot (Table 10-5, R222): the post-modified registers of this bundle are already in place -/

/-- p_k after the post-modifications of this bundle, plus a value. -/
def Ctx.addP (c : Ctx) (k : Nat) (v : BitVec 32) (lat : Nat) : Ctx :=
  (c.setRegs fun r => { r with p := modAt r.p k (· + v) }).note (.p k) lat lat

/-- ADDR_NOP. -/
def execHzAddrNop (e : Nat) (s : State) : Host.Outcome State Fault Refusal :=
  .next (s.slotOp e fun _ _ c => .ok c)

/-- PADD: p_k + m_k modulo 2^32. -/
def execHzPadd (e k : Nat) (s : State) : Host.Outcome State Fault Refusal :=
  .next (s.slotOp e fun _ _ c => .ok ((c.wait false [.p k, .m k]).addP k (c.issue.mv k) 1))

/-- PLDP: p_k from parameter word imm4. -/
def execHzPldp (e k imm : Nat) (s : State) : Host.Outcome State Fault Refusal :=
  .next (s.slotOp e fun user _ c =>
    let w := s.paramWord e user imm
    .ok ((c.setRegs fun r => { r with p := modAt r.p k fun _ => BitVec.ofNat 32 w }).note (.p k) 1 1))

/-- PLDM: m_k from parameter word imm4. -/
def execHzPldm (e k imm : Nat) (s : State) : Host.Outcome State Fault Refusal :=
  .next (s.slotOp e fun user _ c =>
    let w := s.paramWord e user imm
    .ok ((c.setRegs fun r => { r with m := modAt r.m k fun _ => BitVec.ofNat 32 w }).note (.m k) 1 1))

/-- PLDL: lc of k mod 4 from bits [15:0] of parameter word imm4. -/
def execHzPldl (e k imm : Nat) (s : State) : Host.Outcome State Fault Refusal :=
  .next (s.slotOp e fun user _ c =>
    let w := s.paramWord e user imm
    .ok ((c.setRegs fun r => { r with lc := modAt r.lc (k % 4) fun _ => BitVec.ofNat 16 w }).note (.lc (k % 4)) 1 1))

/-- PLDZ: z of k mod 2 from bits [15:0] of parameter word imm4. -/
def execHzPldz (e k imm : Nat) (s : State) : Host.Outcome State Fault Refusal :=
  .next (s.slotOp e fun user _ c =>
    let w := s.paramWord e user imm
    .ok ((c.setRegs fun r => { r with z := modAt r.z (k % 2) fun _ => BitVec.ofNat 16 w }).note (.z (k % 2)) 1 1))

/-- PADDI: p_k + 4 × imm4, imm4 signed. -/
def execHzPaddi (e k imm : Nat) (s : State) : Host.Outcome State Fault Refusal :=
  .next (s.slotOp e fun _ _ c => .ok ((c.wait false [.p k]).addP k (BitVec.ofInt 32 (4 * toI 4 imm)) 1))

/-- PSETS: ss from bits [5:0] of parameter word imm4; k must be 0. -/
def execHzPsets (e k imm : Nat) (s : State) : Host.Outcome State Fault Refusal :=
  .next (s.slotOp e fun user _ c =>
    if k ≠ 0 then .error 2
    else
      let w := s.paramWord e user imm
      .ok ((c.setRegs fun r => { r with ss := BitVec.ofNat 6 w }).note .ss 1 1))

/-! ## Load/store slots (Table 10-6, R218, R219, R223) -/

/-- The lane addresses of a vector access of natural size n. -/
def Ctx.laneAddrs (c : Ctx) (o : LsOp) (n : Nat) : List Nat :=
  let z := (c.issue.z.getD (if o.slot1 then 1 else 0) 0).toNat
  (List.range 8).map fun i => (c.issue.pv o.k + i * (if z = 0 then n else z)) % 2 ^ 32

/-- Registers an access of either kind reads for its addresses. -/
def addrRegs (o : LsOp) (scalar : Bool) : List RegId :=
  [.p o.k] ++ (if scalar then [] else [.z (if o.slot1 then 1 else 0)]) ++ (if o.post then [.m o.k] else [])

/-- Post-modification (R222). -/
def Ctx.post (c : Ctx) (o : LsOp) : Ctx := if o.post then c.addP o.k (c.issue.mv o.k) 1 else c

/-- The local words an access touches (R219). -/
def Ctx.touch (c : Ctx) (addrs : List Nat) (n : Nat) : Ctx :=
  { c with banks := c.banks ++ (addrs.filter (· < 0x10000)).flatMap fun a => if 4 < n then [a / 4, a / 4 + 1] else [a / 4] }

/-- A store that waits for a port of its Cashew bank holds its bundle that long (R332). -/
def Ctx.hold (c : Ctx) (cashew : Bool) (waits : Nat) : Ctx := if cashew then { c with stall := max c.stall c.cycle + waits } else c

/-- What a fetch error does to a load (R220, R339): none lets it pass; an uncorrectable word of a library item's Cashew
bank is read as it stands. -/
def loadFault (o : LsOp) (user : Bool) (addrs : List Nat) : Bool :=
  decide (o.ecc = .double) && (user || addrs.any (· < 0x10000))

/-- Count the ECC events of a load; Cashew's also in 0x4200:14 and 0x4200:15 (R338, R339). -/
def State.loadEcc (s : State) (e : Nat) (o : LsOp) (scalar : Bool) (n : Nat) : State :=
  let g := s.engine e
  let cashew (user : Bool) : Bool :=
    let c := g.ctx user
    (if scalar then [c.issue.pv o.k] else c.laneAddrs o n).all (0x10000 ≤ ·)
  match g.running, o.ecc with
  | some user, .double => if cashew user then s.eccLost.bump 0x420015 else s.eccLost
  | some user, .single => if cashew user then s.eccFix.bump 0x420014 else s.eccFix
  | _, _ => s

/-- A load: the natural size, scalar or not, and what each lane's bytes become. -/
def State.load (s : State) (e : Nat) (o : LsOp) (n : Nat) (scalar : Bool) (acc : Bool) (f : Nat → Int) : State :=
  let s := s.loadEcc e o scalar n
  s.slotOp e fun user banks c =>
    let addrs := if scalar then [c.issue.pv o.k] else c.laneAddrs o n
    if acc && decide (2 ≤ o.reg) then .error 2
    else if addrs.all (fun a => accessOk user banks a n) = false then .error 4
    else if loadFault o user addrs then .error 5
    else
      let vals := addrs.map fun a => f (s.hzRead e user a n)
      let lanes := if scalar then rep 8 (vals.getD 0 0) else vals
      let lat := if addrs.any (0x10000 ≤ ·) then 10 + o.waits else 2
      let c := ((c.wait false (addrRegs o scalar)).touch addrs n).post o
      .ok (if acc then c.putA o.reg (max 3 lat) (max 3 lat) lanes else c.putD o.reg lat lanes)

/-- A store: the access size, scalar or not, whether the register is an accumulator, the registers read, the bytes each
lane puts, and the lanes in which a saturation acted (which 0x4100:05 counts, R224). -/
def State.store (s : State) (e : Nat) (o : LsOp) (n : Nat) (scalar acc : Bool) (reads : List RegId)
    (f : Regs → Nat → List Byte × Bool) : State :=
  let g := s.engine e
  match g.running with
  | none => s
  | some user =>
    let c := g.ctx user
    let banks := (g.current user).map (·.banks) |>.getD 0
    let addrs := if scalar then [c.issue.pv o.k] else c.laneAddrs o n
    let ok := addrs.all fun a => accessOk user banks a n
    let out : List (List Byte × Bool) := (List.range addrs.length).map (f c.issue)
    let sats := if ok && !(acc && decide (2 ≤ o.reg)) then out.countP (·.2) else 0
    (s.bump 0x410005 sats).slotOp e fun _ _ c =>
      if acc && decide (2 ≤ o.reg) then .error 2
      else if ok = false then .error 4
      else
        let sat := out.map fun x => x.2
        let st := (List.zip addrs out).flatMap fun (a, (b : List Byte × Bool)) => b.1.zipIdx.map fun (x, i) => (a + i, x)
        let c := (((c.wait false (addrRegs o scalar ++ reads)).hold (addrs.any (0x10000 ≤ ·)) o.waits).touch addrs n).post o
        let c : Ctx := { c with stores := c.stores ++ st }
        .ok (c.satLanes sat)

/-- LDST_NOP, in either load/store slot. -/
def execHzLdstNop (e : Nat) (_ls : Bool) (s : State) : Host.Outcome State Fault Refusal :=
  .next (s.slotOp e fun _ _ c => .ok c)

/-- LDW: bits [31:8] of each lane's word. -/
def execHzLdw (e : Nat) (o : LsOp) (s : State) : Host.Outcome State Fault Refusal :=
  .next (s.load e o 4 false false fun w => toI 24 (w / 256))

/-- LDB: bits [7:0] of each lane's word, zero-extended. -/
def execHzLdb (e : Nat) (o : LsOp) (s : State) : Host.Outcome State Fault Refusal :=
  .next (s.load e o 4 false false fun w => ((w % 256 : Nat) : Int))

/-- LDH: each lane's half, zero-extended. -/
def execHzLdh (e : Nat) (o : LsOp) (s : State) : Host.Outcome State Fault Refusal :=
  .next (s.load e o 2 false false fun w => (w : Int))

/-- LDHS: each lane's half, sign-extended. -/
def execHzLdhs (e : Nat) (o : LsOp) (s : State) : Host.Outcome State Fault Refusal :=
  .next (s.load e o 2 false false fun w => toI 16 w)

/-- LDS: bits [31:8] of the word at p_k to every lane. -/
def execHzLds (e : Nat) (o : LsOp) (s : State) : Host.Outcome State Fault Refusal :=
  .next (s.load e o 4 true false fun w => toI 24 (w / 256))

/-- LDA: bits [55:0] of each lane's dword into an accumulator. -/
def execHzLda (e : Nat) (o : LsOp) (s : State) : Host.Outcome State Fault Refusal :=
  .next (s.load e o 8 false true fun w => toI 56 w)

/-- A lane of a d register. -/
def Regs.lane (r : Regs) (n i : Nat) : Int := (r.dv n).getD i 0

def Regs.alane (r : Regs) (n i : Nat) : Int := (r.av n).getD i 0

/-- STW: d × 256 as a word. -/
def execHzStw (e : Nat) (o : LsOp) (s : State) : Host.Outcome State Fault Refusal :=
  .next (s.store e o 4 false false [.d o.reg] fun r i => (le 4 (toU 24 (r.lane o.reg i) * 256), false))

/-- STB: byte 0 of the word only. -/
def execHzStb (e : Nat) (o : LsOp) (s : State) : Host.Outcome State Fault Refusal :=
  .next (s.store e o 4 false false [.d o.reg] fun r i => (le 1 (toU 8 (r.lane o.reg i)), false))

/-- STH: sat16 of d as a half. -/
def execHzSth (e : Nat) (o : LsOp) (s : State) : Host.Outcome State Fault Refusal :=
  .next (s.store e o 2 false false [.d o.reg] fun r i =>
    let v := r.lane o.reg i
    (le 2 (toU 16 (satS 16 v)), decide (satS 16 v ≠ v)))

/-- STBP: d[7:0] as a byte. -/
def execHzStbp (e : Nat) (o : LsOp) (s : State) : Host.Outcome State Fault Refusal :=
  .next (s.store e o 1 false false [.d o.reg] fun r i => (le 1 (toU 8 (r.lane o.reg i)), false))

/-- STS: lane 0 of d, sign-extended to 32 bits, at p_k. -/
def execHzSts (e : Nat) (o : LsOp) (s : State) : Host.Outcome State Fault Refusal :=
  .next (s.store e o 4 true false [.d o.reg] fun r _ => (le 4 (toU 32 (r.lane o.reg 0)), false))

/-- STA: sat24(rhe(a, ss)) × 256. -/
def execHzSta (e : Nat) (o : LsOp) (s : State) : Host.Outcome State Fault Refusal :=
  .next (s.store e o 4 false true [.a o.reg, .ss] fun r i =>
    let v := rhe (r.alane o.reg i) r.ss.toNat
    (le 4 (toU 24 (satS 24 v) * 256), decide (satS 24 v ≠ v)))

/-- STAW: sat32(rhe(a, ss)). -/
def execHzStaw (e : Nat) (o : LsOp) (s : State) : Host.Outcome State Fault Refusal :=
  .next (s.store e o 4 false true [.a o.reg, .ss] fun r i =>
    let v := rhe (r.alane o.reg i) r.ss.toNat
    (le 4 (toU 32 (satS 32 v)), decide (satS 32 v ≠ v)))

/-- STAQ: the accumulator as a dword, exact. -/
def execHzStaq (e : Nat) (o : LsOp) (s : State) : Host.Outcome State Fault Refusal :=
  .next (s.store e o 8 false true [.a o.reg] fun r i => (le 8 (toU 64 (r.alane o.reg i)), false))

/-! ## MAC slot (Table 10-7, R225) -/

/-- n = mod × 16 + B. -/
def countN (o : MacOp) : Nat := o.mod * 16 + o.b

/-- The operand lanes of MAC, MSU and MPY under mod. -/
def factors (o : MacOp) (r : Regs) : List (Int × Int) :=
  let u (v : Int) : Int := v % 2 ^ 24
  let a := r.dv o.a
  let b := r.dv o.b
  match o.mod with
  | 0 => List.zip a b
  | 1 => List.zip a (b.map u)
  | 2 => List.zip (a.map u) (b.map u)
  | _ => a.map fun x => (x, b.getD 0 0)

/-- A lane-wise saturation: values and where it acted. -/
def satAll (w : Nat) (v : List Int) : List Int × List Bool := (v.map (satS w), v.map fun x => decide (satS w x ≠ x))

/-- Write an accumulator with saturation to 56 bits. -/
def Ctx.satA (c : Ctx) (n accLat : Nat) (v : List Int) : Ctx :=
  let (x, f) := satAll 56 v
  (c.putA n accLat 3 x).satLanes f

/-- Write a d register with saturation to 24 bits. -/
def Ctx.satD (c : Ctx) (n : Nat) (v : List Int) : Ctx :=
  let (x, f) := satAll 24 v
  (c.putD n 1 x).satLanes f

/-- A multiply-accumulate form: what the accumulator becomes from its value and the product. -/
def State.macForm (s : State) (e : Nat) (o : MacOp) (f : Int → Int → Int) : State :=
  s.slotOp e fun _ _ c =>
    let v := (List.zip (c.issue.av o.acc) (factors o c.issue)).map fun (a, x, y) => f a (x * y)
    .ok (((c.wait true [.a o.acc]).wait false [.d o.a, .d o.b]).satA o.acc 1 v)

/-- An operation that replaces an accumulator by a function of itself and other lanes. -/
def State.accForm (s : State) (e : Nat) (o : MacOp) (legal : Bool) (reads : List RegId) (f : Regs → List Int) : State :=
  s.slotOp e fun _ _ c => if legal then .ok ((c.wait false reads).satA o.acc 3 (f c.issue)) else .error 2

/-- A d-register operation on registers A and B: the acc bit must be 0 (R225). `reads` are the registers it reads. -/
def State.dForm (s : State) (e : Nat) (o : MacOp) (reads : List RegId) (f : Int → Int → Int) (sat : Bool) : State :=
  s.slotOp e fun _ _ c =>
    if o.acc ≠ 0 then .error 2
    else
      let v := List.zipWith f (c.issue.dv o.a) (c.issue.dv o.b)
      let c := c.wait false reads
      .ok (if sat then c.satD o.a v else c.putD o.a 1 v)

/-- MAC_NOP. -/
def execHzMacNop (e : Nat) (s : State) : Host.Outcome State Fault Refusal := .next (s.slotOp e fun _ _ c => .ok c)

/-- MAC: a ← sat56(a + A × B). -/
def execHzMac (e : Nat) (o : MacOp) (s : State) : Host.Outcome State Fault Refusal := .next (s.macForm e o fun a p => a + p)

/-- MSU: a ← sat56(a − A × B). -/
def execHzMsu (e : Nat) (o : MacOp) (s : State) : Host.Outcome State Fault Refusal := .next (s.macForm e o fun a p => a - p)

/-- MPY: a ← A × B. -/
def execHzMpy (e : Nat) (o : MacOp) (s : State) : Host.Outcome State Fault Refusal :=
  .next (s.accForm e o true [.d o.a, .d o.b] fun r => (factors o r).map fun x => x.1 * x.2)

/-- CLR: a ← 0. -/
def execHzClr (e : Nat) (o : MacOp) (s : State) : Host.Outcome State Fault Refusal :=
  .next (s.accForm e o true [] fun _ => rep 8 0)

/-- ACCD: a ← sat56(a + A). -/
def execHzAccd (e : Nat) (o : MacOp) (s : State) : Host.Outcome State Fault Refusal :=
  .next (s.slotOp e fun _ _ c =>
    .ok (((c.wait true [.a o.acc]).wait false [.d o.a]).satA o.acc 1
      (List.zipWith (· + ·) (c.issue.av o.acc) (c.issue.dv o.a))))

/-- SETA: a ← A, sign-extended. -/
def execHzSeta (e : Nat) (o : MacOp) (s : State) : Host.Outcome State Fault Refusal :=
  .next (s.accForm e o true [.d o.a] fun r => r.dv o.a)

/-- RSA: a ← rhe(a, n). -/
def execHzRsa (e : Nat) (o : MacOp) (s : State) : Host.Outcome State Fault Refusal :=
  .next (s.accForm e o (decide (countN o ≤ 63)) [.a o.acc] fun r => (r.av o.acc).map fun x => rhe x (countN o))

/-- LSA: a ← sat56(a × 2^n). -/
def execHzLsa (e : Nat) (o : MacOp) (s : State) : Host.Outcome State Fault Refusal :=
  .next (s.accForm e o (decide (countN o ≤ 63)) [.a o.acc] fun r => (r.av o.acc).map fun x => x * 2 ^ countN o)

/-- DIVR: a ← rdiv(a, a′) when a′ > 0, else 0. -/
def execHzDivr (e : Nat) (o : MacOp) (s : State) : Host.Outcome State Fault Refusal :=
  .next (s.slotOp e fun _ _ c =>
    let v := List.zipWith (fun x y => if 0 < y then rdiv x y else 0) (c.issue.av o.acc) (c.issue.av (1 - o.acc))
    .ok ((c.wait false [.a 0, .a 1]).putA o.acc 28 28 v))

/-- EXT: dA ← sat24(rhe(a, ss)); the acc bit names the accumulator (DEDUCED, assumption log 15), and mod must be 0 (R225). -/
def execHzExt (e : Nat) (o : MacOp) (s : State) : Host.Outcome State Fault Refusal :=
  .next (s.slotOp e fun _ _ c =>
    if o.mod ≠ 0 then .error 2
    else .ok ((c.wait false [.a o.acc, .ss]).satD o.a ((c.issue.av o.acc).map fun x => rhe x c.issue.ss.toNat)))

/-- ADD: wrap24(dA + dB). -/
def execHzAdd (e : Nat) (o : MacOp) (s : State) : Host.Outcome State Fault Refusal :=
  .next (s.dForm e o [.d o.a, .d o.b] (fun x y => x + y) false)

/-- SUB: wrap24(dA − dB). -/
def execHzSub (e : Nat) (o : MacOp) (s : State) : Host.Outcome State Fault Refusal :=
  .next (s.dForm e o [.d o.a, .d o.b] (fun x y => x - y) false)

/-- ADDS: sat24(dA + dB). -/
def execHzAdds (e : Nat) (o : MacOp) (s : State) : Host.Outcome State Fault Refusal :=
  .next (s.dForm e o [.d o.a, .d o.b] (fun x y => x + y) true)

/-- SUBS: sat24(dA − dB). -/
def execHzSubs (e : Nat) (o : MacOp) (s : State) : Host.Outcome State Fault Refusal :=
  .next (s.dForm e o [.d o.a, .d o.b] (fun x y => x - y) true)

/-- MIN. -/
def execHzMin (e : Nat) (o : MacOp) (s : State) : Host.Outcome State Fault Refusal :=
  .next (s.dForm e o [.d o.a, .d o.b] (fun x y => min x y) false)

/-- MAX. -/
def execHzMax (e : Nat) (o : MacOp) (s : State) : Host.Outcome State Fault Refusal :=
  .next (s.dForm e o [.d o.a, .d o.b] (fun x y => max x y) false)

/-- A bitwise operation on two lanes. -/
def lane24 (f : BitVec 24 → BitVec 24 → BitVec 24) (x y : Int) : Int := (f (BitVec.ofInt 24 x) (BitVec.ofInt 24 y)).toInt

/-- AND. -/
def execHzAnd (e : Nat) (o : MacOp) (s : State) : Host.Outcome State Fault Refusal :=
  .next (s.dForm e o [.d o.a, .d o.b] (lane24 fun x y => x &&& y) false)

/-- OR. -/
def execHzOr (e : Nat) (o : MacOp) (s : State) : Host.Outcome State Fault Refusal :=
  .next (s.dForm e o [.d o.a, .d o.b] (lane24 fun x y => x ||| y) false)

/-- XOR. -/
def execHzXor (e : Nat) (o : MacOp) (s : State) : Host.Outcome State Fault Refusal :=
  .next (s.dForm e o [.d o.a, .d o.b] (lane24 fun x y => x ^^^ y) false)

/-- A d-register operation with the count n in place of B. -/
def State.shiftForm (s : State) (e : Nat) (o : MacOp) (f : Int → Int) : State :=
  s.slotOp e fun _ _ c =>
    if o.acc ≠ 0 ∨ 23 < countN o then .error 2 else .ok ((c.wait false [.d o.a]).putD o.a 1 ((c.issue.dv o.a).map f))

/-- RSD: rhe(dA, n), n = 0 to 23. -/
def execHzRsd (e : Nat) (o : MacOp) (s : State) : Host.Outcome State Fault Refusal :=
  .next (s.shiftForm e o fun x => rhe x (countN o))

/-- LSD: wrap24(dA × 2^n), n = 0 to 23. -/
def execHzLsd (e : Nat) (o : MacOp) (s : State) : Host.Outcome State Fault Refusal :=
  .next (s.shiftForm e o fun x => x * 2 ^ countN o)

/-- A compare: pred per lane. -/
def State.compareForm (s : State) (e : Nat) (o : MacOp) (f : Int → Int → Bool) : State :=
  s.slotOp e fun _ _ c =>
    if o.acc ≠ 0 then .error 2
    else
      let v := List.zipWith f (c.issue.dv o.a) (c.issue.dv o.b)
      .ok (((c.wait false [.d o.a, .d o.b]).setRegs fun r => { r with pred := v }).note .pred 1 1)

/-- CGT: pred ← (dA > dB). -/
def execHzCgt (e : Nat) (o : MacOp) (s : State) : Host.Outcome State Fault Refusal :=
  .next (s.compareForm e o fun x y => decide (y < x))

/-- CEQ: pred ← (dA == dB). -/
def execHzCeq (e : Nat) (o : MacOp) (s : State) : Host.Outcome State Fault Refusal :=
  .next (s.compareForm e o fun x y => decide (x = y))

/-- SEL: dA ← pred ? dB : dA. -/
def execHzSel (e : Nat) (o : MacOp) (s : State) : Host.Outcome State Fault Refusal :=
  .next (s.slotOp e fun _ _ c =>
    if o.acc ≠ 0 then .error 2
    else
      let v := (List.zip c.issue.pred (List.zip (c.issue.dv o.a) (c.issue.dv o.b))).map fun (p, x, y) => if p then y else x
      .ok ((c.wait false [.pred, .d o.a, .d o.b]).putD o.a 1 v))

/-- MOV: dA ← dB. -/
def execHzMov (e : Nat) (o : MacOp) (s : State) : Host.Outcome State Fault Refusal :=
  .next (s.dForm e o [.d o.b] (fun _ y => y) false)

/-- The lane that lane i takes under a permutation. -/
def permLane (mod i : Nat) : Nat :=
  match mod with | 0 => i ^^^ 1 | 1 => i ^^^ 2 | 2 => i ^^^ 4 | _ => 0

/-- PRM: dA ← dB with lanes permuted. -/
def execHzPrm (e : Nat) (o : MacOp) (s : State) : Host.Outcome State Fault Refusal :=
  .next (s.slotOp e fun _ _ c =>
    if o.acc ≠ 0 then .error 2
    else
      let b := c.issue.dv o.b
      .ok ((c.wait false [.d o.b]).putD o.a 1 ((List.range 8).map fun i => b.getD (permLane o.mod i) 0)))

/-- ABS: dA ← sat24(|dA|); mod must be 0. -/
def execHzAbs (e : Nat) (o : MacOp) (s : State) : Host.Outcome State Fault Refusal :=
  .next (s.slotOp e fun _ _ c =>
    if o.acc ≠ 0 ∨ o.mod ≠ 0 then .error 2
    else .ok ((c.wait false [.d o.a]).satD o.a ((c.issue.dv o.a).map fun x => if x < 0 then -x else x)))

end Sys2Proof.Machine
end

