-- ==== Sys2Proof/Machine/Items.lean ====
section
/-! DEFINITION. Work items (10, R230 to R241): their release. What a library item makes of the state comes about at its END
(Machine/Roles.lean); user programs run bundle by bundle. -/

namespace Sys2Proof.Machine

open Sys2Proof

/-- An item is released to its engine (R231, R232): it starts at once when nothing of its context runs there. -/
def State.releaseItem (s : State) (e : Nat) (it : Item) : State :=
  let g := s.engine e
  if (if it.user then g.userItem else g.item).isSome || g.halted then s.setEngine e fun g => { g with released := g.released ++ [it] }
  else s.startItem e it

/-- The reference instant of an event of a sweep (Table 10-10), none while the event has not occurred: E of a slot that has fired,
the boundary, the completion of the last sweep of an ended DTS period, the latch of the sweep's frame. -/
def State.reference (s : State) (f : Flight) (event slot : Nat) : Option Nat :=
  let flies := s.sw.flights.any fun g => decide (g.ord = f.ord)
  let done := s.sw.past.filter fun p => decide (p.1.ord = f.ord)
  match event with
  | 0 => if flies && decide (slot < f.fired) then some (f.start + slot * f.plan.tick) else none
  | 1 => if flies then some f.start else none
  | 2 => if s.lin.periods.any fun q => q.ended && decide (q.ord + q.sweeps = f.ord + 1) then done.map (·.2.1) else none
  | _ => (done.filter fun p => p.2.2).map (·.2.1)

/-- What SECDED found in the program and parameter words of a library item (R220), judged at its release: a single-bit error is
corrected and counted, another halts the engine. -/
def State.libraryEcc (s : State) (e : Nat) (ecc : EccError) : State :=
  match ecc with
  | .none => s
  | .single => s.eccFix
  | .double => s.eccLost.memoryFault e false

/-- The same of a user item: another error aborts it, and the engine does not fail (R240). -/
def State.userEcc (s : State) (e : Nat) (it : Item) (ecc : EccError) : State :=
  match ecc with
  | .none => s
  | .single => s.eccFix
  | .double => s.eccLost.abortUser e it 5

/-- A library item of entry k (R230 to R233). A failed engine runs none (R234). -/
def State.releaseLibrary (s : State) (f : Flight) (k slot : Nat) (ecc : EccError) (invalid : List Nat) : State :=
  let pl := f.plan
  let en := pl.entry f.sched k
  let e := en 0 1
  let p := en 2 1
  if pl.schedCount f.sched ≤ k ∨ (s.engine e).halted = true then s
  else if en 1 1 = 0 ∧ p < 4 ∧ (s.elementsOf p f.ord slot).isNone = true then s
  else
    match s.reference f (en 1 1) slot with
    | none => s
    | some at_ =>
      let it : Item :=
        { user := false, entry := k, kernel := en 4 2, role := (s.kernelDir.getD (en 4 2) (0, 0)).2, port := p
          sweep := f.index, ord := f.ord, slot := if en 1 1 = 0 then slot else 0xFF, stamp := f.stamp
          due := at_ + en 0x10 4, bundle := en 6 2, banks := en 0x18 8, first := en 8 4, count := en 0xC 4
          budget := 0, queue := 0, params := sliceB (pl.sec 0x20 f.sched) (16 + 96 * k + 0x20) 64, invalid := invalid }
      (s.releaseItem e it).libraryEcc e ecc

/-- The 8 bytes of a channel element (Table 7-2). -/
def Elem.chanBytes (x : Elem) : List Byte := le 4 (toU 24 x.ph * 256 + x.flags) ++ le 2 x.amp ++ le 2 x.index

/-- The inbox that the tick of a user item fills (R238), none while it is not complete. -/
def State.tickInbox (s : State) (f : Flight) (n slot : Nat) : Option (List Byte) :=
  let en := f.plan.slotEntry n
  let range := (List.range (en 8 2)).map (en 4 4 + ·)
  if en 2 1 = 1 then
    (s.elementsOf (en 3 1) f.ord slot).map fun o => range.flatMap fun c =>
      match o.cx[c]?, o.cy[c]? with
      | some x, some y => x.chanBytes ++ y.chanBytes
      | _, _ => rep 16 0
  else
    ((s.tick? (en 3 1) f.ord slot).filter fun w => range.all (s.settled f w)).map fun w => range.flatMap fun o =>
      let v := s.outValue f w o
      le 4 (toU 24 (satS 24 v.1) * 256 + v.2)

/-- The inbox of a user item (R238). Which tick fills the inbox of an item that no tick releases is not stated, so its bytes are
free (assumption log 82). -/
def State.inbox (s : State) (f : Flight) (n slot : Nat) : Option (List Byte) × State :=
  let en := f.plan.slotEntry n
  if en 2 1 = 0 then (some [], s)
  else if en 1 1 = 0 then (s.tickInbox f n slot, s)
  else
    let size := (if en 2 1 = 1 then 16 else 4) * en 8 2
    let (v, s) := s.draw (256 ^ size)
    (some (le size v), s)

/-- The user items of slot n on an engine that have not executed END. -/
def Engine.unfinished (g : Engine) (n : Nat) : Bool :=
  (g.userItem.toList ++ g.released.filter fun i => i.user).any fun i => decide (i.entry = n)

/-- A user item of open slot n (R238, R241): skipped while the slot's previous item has not ended, on a failed engine too, where
a released item waits until its checkpoint instant aborts it. -/
def State.releaseUser (s : State) (f : Flight) (n slot : Nat) (ecc : EccError) : State :=
  let pl := f.plan
  let en := pl.slotEntry n
  let e := en 0 1
  if pl.openSlots ≤ n ∨ bit (s.og 0x410012) n = false then s
  else
    match s.reference f (en 1 1) slot with
    | none => s
    | some at_ =>
      if (s.engine e).unfinished n then (if en 1 1 = 0 then s.countAt f.index 82 else s.count 82).bump 0x410014
      else
        match s.inbox f n slot with
        | (none, s) => s
        | (some b, s) =>
          let sl := if en 1 1 = 0 then slot else 0xFF
          let it : Item :=
            { user := true, entry := n, kernel := 0xFFFF, role := 0, port := en 3 1, sweep := f.index, ord := f.ord, slot := sl
              stamp := f.stamp, due := at_ + en 0x10 4, bundle := 1536, banks := en 0x18 8, first := en 4 4
              count := en 8 2, budget := en 0xC 4, queue := en 0xA 2
              params := s.dg (okey 0x4100 (0x20 + n)) ++ le 4 f.index ++ le 4 (sl * 256 + n) ++ le 4 (en 8 2) ++ le 4 0
              invalid := [] }
          ((s.hzWrite e true 0xC000 b).releaseItem e it).userEcc e it ecc

/-- WORK_ITEM_RELEASE (R231, R232, R238): item `item` of the schedule in force for a sweep, or of the open-slot table. -/
def execWorkItemRelease (t : Nat) (user : Bool) (item sweep slot : Nat) (ecc : EccError) (invalid : List Nat) (s : State) :
    Host.Outcome State Fault Refusal :=
  let s := s.at t
  match (s.flight sweep).orElse fun _ => (s.sw.past.filter fun p => decide (p.1.index = sweep)).map (·.1) with
  | none => .next s
  | some f => .next (if user then s.releaseUser f item slot ecc else s.releaseLibrary f item slot ecc invalid)

/-! ## User programs (R236) -/

/-- An open slot is enabled on an engine, or its enable is pending. -/
def State.slotsUse (s : State) (e : Nat) : Bool :=
  match s.activePlan with
  | none => false
  | some pl =>
    (List.range pl.openSlots).any fun n =>
      decide (pl.slotEntry n 0 1 = e) && (bit (s.og 0x410012) n ||
        (s.lad.pend.any fun u => u.writes.any fun w => decide (w.index = 0x4100 ∧ w.sub = 0x12) && bit (unle w.bytes) n))

/-- The effect of a program load. -/
def userProgram (data : List Byte) (s : State) : Except Nat State :=
  let e := s.og 0x410010
  require (!(s.engine e).halted && !s.slotsUse e) 0x08000020 <|
    .ok { s with hz := { s.hz with prog := memWrite s.hz.prog (e * 0x4000 + 8 * 1536) data } }

/-- USER_PROGRAM (R236). -/
def execUserProgram (t c : Nat) (data : List Byte) (s : State) : Host.Outcome State Fault Refusal :=
  .next ((s.at t).hostWrite c 0x4100 0x11 true data (userProgram data))

end Sys2Proof.Machine
end

