-- ==== Sys2Proof/Machine/Link.lean ====
section
/-! DEFINITION. What the device puts on its links: Pecan frames (R318) and Darug messages (R407), and the fault injection
that may touch them (R488 to R490, R493). -/

namespace Sys2Proof.Machine

open Sys2Proof

/-! ## Formats -/

/-- The frame start field (Table 14-3). -/
def LaneFrame.field (f : LaneFrame) : Nat :=
  f.kind * 2 ^ 54 + f.queue * 2 ^ 50 + f.lseq % 65536 * 2 ^ 34 + f.qseq % 65536 * 2 ^ 18 + f.valid * 2 ^ 9 + f.first

/-- A frame on its lane: 7 field bytes, 500 payload bytes, the CRC-32C over both (R318). -/
def LaneFrame.bytes (f : LaneFrame) : List Byte :=
  let b := le 7 f.field ++ sliceB f.payload 0 500
  b ++ le 4 (crc32c b)

/-- A 66-bit block (R317): sync header (1 data, 2 control) and 64 bits. -/
structure Block where
  sync : Nat
  bits : Nat
  deriving DecidableEq, Repr

/-- A control block: its type in the first byte, then its field. -/
def controlBlock (typ field : Nat) : Block := ⟨2, typ + 256 * (field % 2 ^ 56)⟩

/-- The idle block of a lane (Table 14-2). -/
def idleBlock (lane node : Nat) : Block := controlBlock 0x1E (lane % 16 * 2 ^ 48 + node % 256 * 2 ^ 40)

def trainingBlock : Block := controlBlock 0x2D 0

/-- Bytes as data blocks of eight bytes each. -/
def dataBlocks : Nat → List Byte → List Block
  | 0, _ => []
  | n + 1, b => ⟨1, unle (b.take 8)⟩ :: dataBlocks n (b.drop 8)

/-- The 64 blocks of a frame as its lane sends them: frame start, then 63 data blocks (R318). -/
def frameBlocks (b : List Byte) : List Block := controlBlock 0xF0 (unle (b.take 7)) :: dataBlocks 63 (b.drop 7)

/-- A block that a receiver counts as valid (R317). -/
def Block.valid (b : Block) : Bool :=
  decide (b.sync = 1) || (decide (b.sync = 2) && [0x1E, 0x2D, 0xF0].contains (b.bits % 256))

/-- n bits of a word through the scrambler 1 + x^39 + x^58, lowest first; `h` holds the 58 bits sent last, the latest in bit 0. -/
def scrambleBits : Nat → Nat → Nat → Nat → Nat × Nat
  | 0, _, _, h => (0, h)
  | n + 1, w, i, h =>
    let o := (if bit w i then 1 else 0) + (if bit h 38 then 1 else 0) + (if bit h 57 then 1 else 0)
    let (r, h') := scrambleBits n w (i + 1) ((2 * h + o % 2) % 2 ^ 58)
    (o % 2 * 2 ^ i + r, h')

/-- Blocks as they stand on the lane: the sync headers are not scrambled (R317). -/
def scramble : Nat → List Block → List Block
  | _, [] => []
  | h, b :: l => let (w, h) := scrambleBits 64 b.bits 0 h; ⟨b.sync, w⟩ :: scramble h l

/-- Bit 0 of the byte at an offset inverted. -/
def flipBit (b : List Byte) (off : Nat) : List Byte := b.modify off fun x => x ^^^ 1

/-- The character in place B of a pair (R406). -/
inductive CharB where
  | idle
  | marker
  | start
  | stop
  | data (b : Byte)
  deriving DecidableEq, Repr

/-- A message as it stands in the B places, and the pairs of 8 ns with the trigger-bus lines of each in place A (R406). -/
def messageChars (b : List Byte) : List CharB := .start :: b.map .data ++ [.stop]
def charPairs (lines : List Byte) (bs : List CharB) : List (Byte × CharB) := lines.zip bs

/-- A side locks after 64 commas; it loses lock on 8 violations among the last 256 characters (R406). Newest first. -/
def gainsLock (seen : List CharB) : Bool := decide (64 ≤ seen.length) && (seen.take 64).all fun b => b == .idle
def losesLock (violations : List Bool) : Bool := decide (8 ≤ ((violations.take 256).filter id).length)

/-- A Darug message with its CRC (R407). -/
def messageBytes (typ src dst : Nat) (payload : List Byte) : List Byte :=
  let b := [byte typ, byte src, byte dst, byte payload.length] ++ payload
  b ++ le 4 (crc32c b)

/-! ## Selection of candidates (R490) -/

/-- One step of the 32-bit xorshift generator. -/
def xorshift (x : Nat) : Nat :=
  let x := (x ^^^ x * 2 ^ 13) % 2 ^ 32
  let x := x ^^^ x / 2 ^ 17
  (x ^^^ x * 2 ^ 5) % 2 ^ 32

/-- A side passes messages: locked or aligned (Table 19-4). -/
def State.sideUp (s : State) (down : Bool) : Bool :=
  let v := s.og (if down then 0x4C0006 else 0x4C0005)
  decide (v = 2 ∨ v = 3)

/-- The message INJECT of the head (R493). -/
def injectBytes (s : State) (on link action : Nat) : List Byte :=
  messageBytes 0x30 (s.og 0x4C0001) 0xFF [byte on, byte link, byte action]

/-- The head tells the chain that injection on a Darug side starts or stops; this message is sent past injection. -/
def State.injectTell (s : State) (on : Bool) : State :=
  let link := s.og 0x5E0003
  if s.pw.sensedHead = true ∧ 2 ≤ link ∧ s.sideUp true = true then
    s.emit (.message true (if on then injectBytes s 1 link (s.og 0x5E0004) else injectBytes s 0 0 0))
  else s

/-- A candidate of a link: the action that hits it, if any (R488, R490). -/
def State.candidate (s : State) (link : Nat) : Option Nat × State :=
  if s.og 0x5E0002 = 2 ∧ s.og 0x5E0003 = link then
    if s.og 0x5E0005 = 1 then
      (some (s.og 0x5E0004), (((s.bump 0x5E0008).os 0x5E0002 1).injectTell false))
    else
      let x := xorshift s.inj.x
      let s := { s with inj := { s.inj with x := x } }
      if x < s.og 0x5E0006 then (some (s.og 0x5E0004), s.bump 0x5E0008) else (none, s)
  else (none, s)

/-! ## Sending -/

/-- Put a frame on its lane. -/
def State.putFrame (s : State) (lane : Nat) (f : LaneFrame) : State := s.emit (.frame lane f.bytes)

/-- Everything held on the transmit side and on the Darug sides goes out in its place (R487, R489); `due` says which. -/
def State.releaseHeld (s : State) (due : Nat → Bool) : State :=
  let s := (s.inj.heldTx.filter fun h => due h.2.2).foldl (fun s h => s.putFrame h.1 h.2.1) s
  let s := (s.inj.heldMsg.filter fun h => due h.2.2).foldl (fun s h => s.emit (.message h.1 h.2.1)) s
  { s with inj := { s.inj with
    heldTx := s.inj.heldTx.filter fun h => !due h.2.2
    heldMsg := s.inj.heldMsg.filter fun h => !due h.2.2 } }

/-- Held frames and messages whose 10 µs are over have gone out alone (R489). -/
def State.releaseDue (s : State) : State := s.releaseHeld fun d => decide (d ≤ s.now)

/-- Send a new data frame (Table 25-1, R489). -/
def State.sendData (s : State) (lane : Nat) (f : LaneFrame) : State :=
  let s := s.releaseDue
  match s.inj.heldTx.find? fun h => decide (h.1 = lane) with
  | some (_, g, _) =>
    let s := (s.putFrame lane f).putFrame lane g
    { s with inj := { s.inj with heldTx := s.inj.heldTx.filter fun h => decide (h.1 ≠ lane) } }
  | none =>
    match s.candidate 0 with
    | (some 1, s) => s
    | (some 2, s) => s.emit (.frame lane (flipBit f.bytes 7))
    | (some 3, s) => { s with inj := { s.inj with heldTx := s.inj.heldTx ++ [(lane, f, s.now + 10000)] } }
    | (_, s) => s.putFrame lane f

/-- Put message bytes on a side that passes messages, through fault injection (Table 25-1). -/
def State.sendBytes (s : State) (down : Bool) (b : List Byte) : State :=
  let s := s.releaseDue
  if s.sideUp down = false then s
  else
    match s.inj.heldMsg.find? fun h => decide (h.1 = down) with
    | some (_, g, _) =>
      let s := (s.emit (.message down b)).emit (.message down g)
      { s with inj := { s.inj with heldMsg := s.inj.heldMsg.filter fun h => decide (h.1 ≠ down) } }
    | none =>
      match s.candidate (if down then 3 else 2) with
      | (some 1, s) => s
      | (some 2, s) => s.emit (.message down (flipBit b 1))
      | (some 3, s) => { s with inj := { s.inj with heldMsg := s.inj.heldMsg ++ [(down, b, s.now + 10000)] } }
      | (_, s) => s.emit (.message down b)

/-- Originate a message. -/
def State.sendMsg (s : State) (down : Bool) (typ dst : Nat) (payload : List Byte) : State :=
  s.sendBytes down (messageBytes typ (s.og 0x4C0001) dst payload)

/-- Relay a message of another device (R407). -/
def State.relay (s : State) (down : Bool) (typ src dst : Nat) (payload : List Byte) : State :=
  s.sendBytes down (messageBytes typ src dst payload)

end Sys2Proof.Machine
end

