-- ==== Sys2Proof/Machine/TimeBase.lean ====
section
/-! DEFINITION. Device time, the PPS discipline, the TDC and interval mode (17). -/

namespace Sys2Proof.Machine

open Sys2Proof

/-! ## The TDC (R383 to R386) -/

/-- A calibration pair (a, b) in bounds (R385). -/
def pairOk (a b : Int) : Bool := decide (14 ≤ b ∧ b ≤ 18 ∧ 8 ≤ a ∧ a ≤ 24)

/-- A channel falls back on its factory pair: counted and marked (R385). -/
def State.tdcFall (s : State) (ch : Nat) : State := (s.bump 0x220011).osBit 0x220010 ch true

/-- The stamp in T units of an edge with code c whose next clock edge has device time tn, with the pair (a, b) (R386). -/
def tdcStamp (tn : Nat) (c a b : Int) : Nat := toU 80 ((rhe tn 12 - rdiv (16 * (c - a)) b) * 4096)

/-- The interpolator that captures the next edge of a channel is calibrated: the edge before the latest, its last capture, lies
8 ns back; within those 8 ns the command says so (R383, R384). -/
def State.interpReady (s : State) (ch : Nat) (said : Bool) : Bool :=
  said || match s.tb.caps.getD ch [] with
    | _ :: last :: _ => decide (last + 9 ≤ s.now)
    | _ => true

/-- A capture on a channel. -/
def State.capture (s : State) (ch at_ : Nat) : State :=
  { s with tb := { s.tb with caps := modAt s.tb.caps ch fun l => at_ :: l.take 1 } }

/-- An edge on a TDC channel: its stamp, whether that is coarse, and the channel after its calibration codes c1, c2. An edge that
meets no calibrated interpolator has the coarse stamp (R384). -/
def State.tdcEdge (s : State) (ch code c1 c2 : Nat) (calibrated : Bool) : Nat × Bool × State :=
  let ok := s.interpReady ch calibrated
  let s := s.capture ch s.now
  if ok = false then (s.coarseStamp, true, s)
  else
    let a : Int := 2 * c1 - c2
    let b : Int := c2 - c1
    if pairOk a b then (tdcStamp s.tb.t (code % 64 : Nat) a b, false, s.osBit 0x220010 ch false)
    else
      let (a, b) := s.tb.factory.getD ch (16, 16)
      (tdcStamp s.tb.t (code % 64 : Nat) a b, false, s.tdcFall ch)

/-- TDC_FALLBACK (R385): a calibration out of bounds. -/
def execTdcFallback (t ch : Nat) (s : State) : Host.Outcome State Fault Refusal :=
  let s := s.at t
  if s.tb.running = true ∧ ch < 6 then .next (s.tdcFall ch) else .next s

/-! ## Interval mode (R387) -/

/-- An edge of a source (1 PPS_IN, 2 TRIG_IN0, 3 TRIG_IN1) with its stamp. -/
def State.intervalEdge (s : State) (src stamp : Nat) : State :=
  let st := s.og 0x221005
  if st = 1 then
    if src = s.og 0x221001 then { s.os 0x221005 2 with tb := { s.tb with intStart := stamp, intAt := s.now } } else s
  else if st = 2 ∧ src = s.og 0x221002 ∧ s.tb.intStart ≤ stamp ∧ s.now < s.tb.intAt + 1000 * s.og 0x221006 then
    let n := s.og 0x221007
    let s := (s.os (0x221010 + n) ((stamp - s.tb.intStart) % 2 ^ 64)).os 0x221007 (n + 1)
    if n + 1 = s.og 0x221003 then s.os 0x221005 3 else s
  else s

/-- The effect of an arm. -/
def intervalArm (s : State) : Except Nat State :=
  require (decide (s.og 0x221005 ≠ 1 ∧ s.og 0x221005 ≠ 2) && decide (s.pw.power = .ready ∨ s.pw.power = .sensing)) 0x08000020 <|
    .ok ((List.range 8).foldl (fun s i => s.os (0x221010 + i) 0) ((s.os 0x221005 1).os 0x221007 0))

/-- INTERVAL_ARM (R387). -/
def execIntervalArm (t c : Nat) (s : State) : Host.Outcome State Fault Refusal :=
  .next ((s.at t).hostWrite c 0x2210 4 false (le 1 1) intervalArm)

/-- The effect of a disarm: an armed or started measurement becomes idle. -/
def intervalDisarm (s : State) : Except Nat State :=
  if s.og 0x221005 = 1 ∨ s.og 0x221005 = 2 then .ok (s.os 0x221005 0) else .ok s

/-- INTERVAL_DISARM (R387). -/
def execIntervalDisarm (t c : Nat) (s : State) : Host.Outcome State Fault Refusal :=
  .next ((s.at t).hostWrite c 0x2210 4 false (le 1 2) intervalDisarm)

/-- INTERVAL_TIMEOUT (R387). -/
def execIntervalTimeout (t : Nat) (s : State) : Host.Outcome State Fault Refusal :=
  let s := s.at t
  if s.og 0x221005 = 2 ∧ s.tb.intAt + 1000 * s.og 0x221006 ≤ s.now then .next (s.os 0x221005 4) else .next s

/-- TRIG_IN_EDGE (R250, R383): an edge of a pin, after inversion; t is the clock edge that follows it. -/
def execTrigInEdge (t pin code c1 c2 : Nat) (calibrated : Bool) (s : State) : Host.Outcome State Fault Refusal :=
  let s := s.at t
  if s.tb.running = true ∧ pin < 2 then
    let (raw, uncal, s) := s.tdcEdge (2 + pin) code c1 c2 calibrated
    let (stamp, s) := s.pinEdge pin raw uncal
    .next (s.intervalEdge (2 + pin) stamp)
  else .next s

/-! ## Setting device time (R379, R382) -/

def State.setTb (s : State) (f : TimeBase → TimeBase) : State := { s with tb := f s.tb }

/-- Move T by d: the stamp of the last accepted edge moves along, so that the window of R380 measures elapsed time. -/
def State.moveT (s : State) (d : Int) : State :=
  s.setTb fun b => { b with t := toU 80 (b.t + d), lastEdge := b.lastEdge.map fun e => (toU 80 (e.1 + d), e.2) }

/-- Set T by a host write: the accumulator of R377 clears, the next edge updates no frequency (R381), and the edges that lock
the discipline are counted anew (Table 17-1). -/
def State.setT (s : State) (t : Nat) : State :=
  (s.moveT ((t : Int) - s.tb.t)).setTb fun b => { b with acc := 0, moved := true, good := 0 }

/-- A chain member takes its time from the head (R412). -/
def memberRefuses (s : State) (k : Except Nat State) : Except Nat State := require s.pw.sensedHead 0x08000021 k

/-- The effect of a write to 0x2200:01. -/
def deviceTime (ns : Nat) (s : State) : Except Nat State :=
  memberRefuses s (.ok (((s.setT (ns * 65536)).setTb fun b => { b with ppsArm := none }).os 0x220003 2))

/-- DEVICE_TIME_WRITE (R379). -/
def execDeviceTimeWrite (t c ns : Nat) (s : State) : Host.Outcome State Fault Refusal :=
  .next ((s.at t).hostWrite c 0x2200 1 false (le 8 ns) (deviceTime (ns % 2 ^ 64)))

/-- The effect of a write to 0x2200:02. -/
def timeAtPps (ns : Nat) (s : State) : Except Nat State :=
  memberRefuses s (.ok (s.setTb fun b => { b with ppsArm := some ns }))

/-- TIME_AT_NEXT_PPS (R379). -/
def execTimeAtNextPps (t c ns : Nat) (s : State) : Host.Outcome State Fault Refusal :=
  .next ((s.at t).hostWrite c 0x2200 2 false (le 8 ns) (timeAtPps (ns % 2 ^ 64)))

/-- The effect of a write to 0x2200:05 (R382, R412). -/
def rateCorrection (r : Int) (s : State) : Except Nat State :=
  memberRefuses s (require (decide (s.og 0x220004 = 0)) 0x08000020 (.ok (s.osI 32 0x220005 r)))

/-- RATE_CORRECTION_WRITE (R382). -/
def execRateCorrectionWrite (t c : Nat) (r : Int) (s : State) : Host.Outcome State Fault Refusal :=
  .next ((s.at t).hostWrite c 0x2200 5 false (le 4 (toU 32 r)) (rateCorrection (toI 32 (toU 32 r))))

/-! ## The PPS discipline (R380, R381, Table 17-1) -/

/-- The window check of R380 on stamps. -/
def State.inWindow (s : State) (stamp : Nat) : Bool :=
  match s.tb.lastEdge with
  | some (p, _) =>
    let d : Int := (stamp : Int) - p - 1000000000 * 65536
    decide (-(s.og 0x220009 * 65536 : Nat) ≤ d ∧ d ≤ (s.og 0x220009 * 65536 : Nat))
  | none => false

/-- Acquisition: no edge accepted for 2.5 s, or four rejected in a row. -/
def State.acquires (s : State) : Bool :=
  decide (4 ≤ s.tb.rejected) || match s.tb.lastEdge with | some (_, at_) => decide (at_ + 2500000000 ≤ s.now) | none => true

/-- The time state after an accepted edge in mode 1 or 2. -/
def stateOnEdge (st mode : Nat) : Nat :=
  if st = 2 ∨ st = 5 ∨ (st = 1 ∧ mode = 2) then 3 else st

/-- PPS_EDGE (R380): stamped on channel 1; accepted or rejected at a head; interval mode sees it everywhere. -/
def execPpsEdge (t code c1 c2 : Nat) (calibrated : Bool) (s : State) : Host.Outcome State Fault Refusal :=
  let s := s.at t
  if s.tb.running = false then .next s
  else
    let (stamp, _, s) := s.tdcEdge 1 code c1 c2 calibrated
    let s := s.intervalEdge 1 stamp
    if s.pw.sensedHead = false then .next s
    else
      let win := s.inWindow stamp
      if s.og 0x220004 ≠ 0 ∧ (win || s.acquires) = true then
        let s := s.setTb fun b => { b with
          lastEdge := some (stamp, s.now), rejected := 0, edge := some (stamp, s.now + 1001)
          fvalid := b.fvalid && win && !b.moved, moved := false }
        .next (((s.bump 0x22000E).pulse 13).os 0x220003 (stateOnEdge (s.og 0x220003) (s.og 0x220004)))
      else .next ((s.bump 0x22000F).setTb fun b => { b with rejected := b.rejected + 1 })

/-- Clamp r to 200 ppm. -/
def clampR (r : Int) : Int := max (-51200000) (min 51200000 r)

/-- One core clock cycle after 1 µs: R381 for an edge with stamp te. -/
def State.discipline (s : State) (te : Int) : State :=
  let sec := rdiv te (1000000000 * 65536) * (1000000000 * 65536)
  let perr := te - sec
  let mode := s.og 0x220004
  let old := s.tb.fvalid
  let r0 := s.ogI 32 0x220005
  let rf := if old = true ∧ 1 ≤ mode then r0 - rhe (te - s.tb.tePrev - 1000000000 * 65536) (8 + s.og 0x220007) else r0
  let limit : Int := (s.og 0x22000A % 65536 * 65536 : Nat)
  let big := decide (limit < perr) || decide (perr < -limit)
  let good := if -(100 * 65536 : Int) ≤ perr ∧ perr ≤ 100 * 65536 then s.tb.good + 1 else 0
  let st := s.og 0x220003
  let far := decide (1000 * 65536 < perr) || decide (perr < -(1000 * 65536))
  let s := s.osI 32 0x220006 (satS 32 (rhe perr 12))
  let (s, r, valid) :=
    match s.tb.ppsArm with
    | some v =>
      let s := ((s.moveT ((v * 65536 : Nat) - te)).setTb fun b => { b with acc := 0, ppsArm := none, good := 0 }).os 0x220003
        (if st < 3 then 3 else st)
      (s, r0, false)
    | none =>
      let s := (s.setTb fun b => { b with good := good }).os 0x220003
        (if st = 3 ∧ 8 ≤ good then 4 else if st = 4 ∧ far = true then 3 else st)
      if mode = 2 then
        if big = true then
          let a := s.og 0x22000A
          ((s.moveT (-perr)).os 0x22000A (a % 65536 + (a / 65536 + 1) % 65536 * 65536), rf, false)
        else (s, rf - rhe perr (8 + s.og 0x220008), true)
      else (s, rf, true)
  (s.osI 32 0x220005 (clampR r)).setTb fun b => { b with tePrev := toU 80 te, fvalid := valid, edge := none }

/-- PPS_PROCESS (R381). -/
def execPpsProcess (t : Nat) (s : State) : Host.Outcome State Fault Refusal :=
  let s := s.at t
  match s.tb.edge with
  | some (te, due) => .next (if due ≤ s.now then s.discipline te else s)
  | none => .next s

/-- PPS_LOSS (Table 17-1): no accepted edge for 2.5 s from state 3 or 4. -/
def execPpsLoss (t : Nat) (s : State) : Host.Outcome State Fault Refusal :=
  let s := s.at t
  let st := s.og 0x220003
  match s.tb.lastEdge with
  | some (_, at_) =>
    if s.pw.sensedHead = true ∧ (st = 3 ∨ st = 4) ∧ at_ + 2500000000 ≤ s.now then
      .next ((s.os 0x220003 5).setTb fun b => { b with good := 0 })
    else .next s
  | none => .next s

/-! ## The core clock (R378) -/

/-- The core clock stops: T goes on by the Shell. -/
def State.clockStop (s : State) : State :=
  s.setTb fun b => { b with running := false, edge := none, lastEdge := none, fvalid := false, moved := false, rejected := 0, good := 0 }

/-- The core clock starts again after a Shell carry: a time that is set is coarse. -/
def State.clockStart (s : State) : State :=
  let s := if s.og 0x220003 = 0 then s else s.os 0x220003 1
  s.setTb fun b => { b with running := true, acc := 0 }

end Sys2Proof.Machine
end

