-- ==== Sys2Proof/Machine/Darug.lean ====
section
/-! DEFINITION. The Darug link (19): sides, enumeration, skew measurement, time over the chain, realignment. The payload layouts
that Table 19-3 leaves open are in assumption log 19. -/

namespace Sys2Proof.Machine

open Sys2Proof

def State.setDr (s : State) (f : Darug → Darug) : State := { s with dr := f s.dr }

def State.position (s : State) : Nat := s.og 0x4C0001

def State.isHead (s : State) : Bool := s.pw.sensedHead

/-- The key of a side's state object. -/
def sideKey (down : Bool) : Nat := if down then 0x4C0006 else 0x4C0005

/-- Sides run in Ready and Sensing (R406). -/
def State.linkLive (s : State) : Bool := decide (s.pw.power = .ready ∨ s.pw.power = .sensing)

/-- DRG_REFO carries the reference in Ready and Sensing and is low in the other states (R404). -/
def State.refoDriven (s : State) : Bool := s.linkLive

/-! ## Position and node-ID (R408, R409) -/

/-- The node-ID: the override in force, else strap plus 16 × position; 0 when no position is set, but the strap alone in recovery
mode (R456). -/
def State.nodeOf (s : State) (pos : Nat) : Nat :=
  if s.dr.override_ ≠ 0 then s.dr.override_
  else if pos = 0xFF then (if s.og 0x500001 = 1 then s.board.nodeStrap else 0) else s.board.nodeStrap + 16 * pos

/-- Take a position: kept in Shell retention RAM; a node-ID that was not known yet is announced by a boot-up message. -/
def State.takePosition (s : State) (pos : Nat) : State :=
  let old := s.ctl.nodeId
  let id := s.nodeOf pos
  let s := (s.os 0x4C0001 pos).os 0x4C0002 id
  let s := { s with ctl := { s.ctl with nodeId := id } }
  let s := s.setDr fun d => { d with position := pos, enumAt := some s.now }
  if old = 0 ∧ id ≠ 0 ∧ s.pw.nmtStopped = false then s.emit (.bootUp id) else s

/-- ENUM (R408): sender position plus 1; position 8 is taken by none, and that device keeps its downstream side off. -/
def execEnum (t sender : Nat) (s : State) : Host.Outcome State Fault Refusal :=
  let s := s.at t
  if s.isHead = true ∨ s.linkLive = false then .next s
  else if 7 ≤ sender then .next ((s.takePosition 0xFF).os 0x4C0006 0)
  else .next ((s.takePosition (sender + 1)).sendMsg true 0x01 (sender + 2) [byte (sender + 1)])

/-- ENUM_TIMEOUT (R408): 20 ms without a downstream lock the device is the last of the chain. -/
def execEnumTimeout (t : Nat) (s : State) : Host.Outcome State Fault Refusal :=
  let s := s.at t
  match s.dr.enumAt with
  | some a =>
    if a + 20000000 ≤ s.now ∧ s.linkLive = true then
      let s := s.setDr fun d => { d with enumAt := none }
      if s.sideUp true = true ∨ s.position = 0xFF then .next s
      else if s.isHead then .next (s.os 0x4C0010 1)
      else .next (s.sendMsg false 0x02 0 [byte s.position])
    else .next s
  | none => .next s

/-- ENUM_END (R408): the head writes the chain length; a member relays (R407). -/
def execEnumEnd (t position : Nat) (s : State) : Host.Outcome State Fault Refusal :=
  let s := s.at t
  if s.isHead then .next (s.os 0x4C0010 (position % 8 + 1)) else .next (s.relay false 0x02 position 0 [byte position])

/-! ## Sides (R406, R416) -/

/-- SIDE_LOCK (R406, R408): locked; a downstream lock sends ENUM. A device without a position keeps its downstream side off. -/
def execSideLock (t : Nat) (down : Bool) (s : State) : Host.Outcome State Fault Refusal :=
  let s := s.at t
  if s.linkLive = false ∨ (down = true ∧ s.position = 0xFF) ∨ (down = false ∧ s.isHead = true) then .next s
  else
    let s := s.os (sideKey down) 2
    if down then .next (s.sendMsg true 0x01 (s.position + 1) [byte s.position])
    else .next ((s.os 0x4C0007 1).setDr fun d => { d with offsets := [], steps := 0 })

/-- SIDE_FAULT (R406, R416): eight violations, lock lost after a lock; the side retrains at once. -/
def execSideFault (t : Nat) (down : Bool) (s : State) : Host.Outcome State Fault Refusal :=
  let s := s.at t
  if s.sideUp down = false then .next s
  else
    let s := ((s.os (sideKey down) 4).bump 0x4C000C 8).bump 0x4C000D
    if down then .next s
    else .next ((s.os 0x4C0007 4).setDr fun d => { d with inject := false, headBoundary := none })

/-- MESSAGE_CRC_ERROR (R407): dropped and counted. -/
def execMessageCrcError (t : Nat) (down : Bool) (s : State) : Host.Outcome State Fault Refusal :=
  let s := s.at t
  if s.sideUp down = true then .next (s.bump 0x4C000E) else .next s

/-! ## Skew (R410) -/

/-- MARKER (R410): every 1 ms downstream, stamped at its departure on channel 5. -/
def execMarker (t code c1 c2 : Nat) (s : State) : Host.Outcome State Fault Refusal :=
  let s := s.at t
  if s.sideUp true = true ∧ s.linkLive = true then
    let (stamp, _, s) := s.tdcEdge 5 code c1 c2 true
    .next ((s.setDr fun d => { d with markerAt := stamp }).emit (.marker true))
  else .next s

/-- MARKER_ARRIVAL (R410): arrival a and echo departure e on channel 4; the turnaround leaves in TURN, bins of 62.5 ps. -/
def execMarkerArrival (t arrive depart : Nat) (s : State) : Host.Outcome State Fault Refusal :=
  let s := s.at t
  if s.isHead = false ∧ s.sideUp false = true then
    let s := (s.capture 4 s.now).setDr fun d => { d with arrive := arrive, depart := depart }
    let s := s.emit (.marker false)
    .next (s.sendMsg false 0x04 (s.position - 1) (le 4 ((depart - arrive) / 4096)))
  else .next s

/-- The one-way delay in ps from t_s, the turnaround in bins and the echo's arrival. -/
def oneWay (ts bins back : Nat) : Nat := (rdiv (((back - ts : Nat) - (bins * 4096 : Nat) : Int) * 1000) (2 * 65536)).toNat

/-- TURN (R410): the delay of the hop, and SYNC to the member. -/
def execTurn (t bins back : Nat) (s : State) : Host.Outcome State Fault Refusal :=
  let s := s.at t
  if s.sideUp true = false then .next s
  else
    let d := oneWay s.dr.markerAt bins back
    let s := s.capture 5 s.now
    let s := ((s.os 0x4C0009 (d % 2 ^ 32)).os 0x4C0006 3)
    .next (s.sendMsg true 0x03 (s.position + 1)
      (le 8 s.dr.markerAt ++ le 4 d ++ le 4 (s.og 0x220005) ++ [byte (s.og 0x220003)]))

/-! ## Time over the chain (R411, R412) -/

/-- The offset of one exchange in units of 2^-16 ns: a - (t_s + δ). -/
def hopOffset (arrive ts delay : Nat) : Int := wrapS 64 ((arrive : Int) - ts) - rdiv (delay * 65536) 1000

/-- Correct the mean offset: whole nanoseconds step T, the residue becomes phase steps. -/
def State.correct (s : State) : State :=
  let l := s.dr.offsets
  let off := rdiv (sumI l) (max 1 l.length)
  let ns := Int.tdiv off 65536
  let s := s.osI 32 0x4C000A (satS 32 (rdiv (off * 1000) 65536))
  let s := if ns = 0 then s else s.moveT (-(ns * 65536))
  let left := off - ns * 65536
  s.setDr fun d => { d with offsets := d.offsets.map fun x => x - ns * 65536, steps := rdiv left 1024 }

/-- The upstream side is aligned once the mean offset is within 100 ps. -/
def State.showAlign (s : State) : State :=
  let l := s.dr.offsets
  let off := rdiv (sumI l) (max 1 l.length)
  if l.isEmpty = false ∧ -6553 ≤ off ∧ off ≤ 6553 ∧ s.sideUp false = true then
    let s := s.os 0x4C0005 3
    if s.og 0x4C0007 = 1 then s.os 0x4C0007 2 else s
  else s

/-- SYNC (R411, R412): a member takes delay, rate and time state, and corrects its offset. -/
def execSync (t ts delay : Nat) (rate : Int) (state : Nat) (s : State) : Host.Outcome State Fault Refusal :=
  let s := s.at t
  if s.isHead = true ∨ s.sideUp false = false then .next s
  else
    let off := hopOffset s.dr.arrive ts delay
    let s := ((s.os 0x4C0008 (delay % 2 ^ 32)).osI 32 0x220005 rate).os 0x220003 (state % 256)
    let s := s.setDr fun d => { d with lastSync := s.now, stepFrom := s.now
                                       offsets := (d.offsets ++ [off]).drop (d.offsets.length + 1 - 64) }
    .next s.correct.showAlign

/-- PHASE_STEP (R411): one step of 15.625 ps, at most one per µs. It moves device time and the sweep timer together, so T as a
count of core clock cycles stands. -/
def execPhaseStep (t : Nat) (s : State) : Host.Outcome State Fault Refusal :=
  let s := s.at t
  if s.dr.steps = 0 ∨ s.now < s.dr.stepFrom + 1000 then .next s
  else
    let one : Int := if 0 < s.dr.steps then 1 else -1
    let s := s.setDr fun d => { d with steps := d.steps - one, stepFrom := s.now
                                       offsets := d.offsets.map fun x => x - one * 1024 }
    .next s.showAlign

/-- SYNC_LOSS (R412). -/
def execSyncLoss (t : Nat) (s : State) : Host.Outcome State Fault Refusal :=
  let s := s.at t
  if s.isHead = false ∧ s.linkLive = true ∧ s.dr.lastSync + 2500000000 ≤ s.now then .next (s.os 0x220003 5) else .next s

/-! ## The sweep grid (R413) -/

/-- The head's boundary on this member's clock: its index, the instant of its start as the member's sweep timer can meet it (R121),
and P in ns. -/
def State.headGrid (s : State) (index stamp period : Nat) : Nat × Nat × Nat :=
  let d := wrapS 64 ((stamp : Int) - s.tb.t)
  (index, adcEdge (s.now + rdiv d 65536).toNat, 16 * period)

/-- The head's first boundary after instant x: its instant and index. -/
def headNext (g : Nat × Nat × Nat) (x : Nat) : Nat × Nat :=
  let (index, start, p) := g
  let k := (x - start) / max 1 p + 1
  if x < start then (start, index) else (start + k * p, index + k)

/-- BOUNDARY (R413): a member in Sensing compares its grid and index with the head's and realigns where they differ. -/
def execBoundary (t index stamp period : Nat) (s : State) : Host.Outcome State Fault Refusal :=
  let s := s.at t
  if s.isHead = true ∨ s.sideUp false = false then .next s
  else
    let s := s.relay true 0x05 0 0xFF (le 8 index ++ le 8 stamp ++ le 4 period)
    let s := s.setDr fun d => { d with headBoundary := some (index, stamp, period, s.now) }
    match s.pw.power, s.lad.inForce with
    | .sensing, some pl =>
      if pl.period ≠ 16 * period then .next (s.os 0x4C0007 3)
      else
        let d := wrapS 64 ((s.sw.lastStamp : Int) - stamp)
        let s := if s.og 0x4C0007 = 3 then s.os 0x4C0007 1 else s
        if s.sw.lastIndex = index ∧ -65536 ≤ d ∧ d ≤ 65536 then .next s
        else
          let g := headNext (s.headGrid index stamp period) s.sw.next
          let s := if s.sw.realign.isNone then s.bump 0x4C000B else s
          .next { s with sw := { s.sw with realign := some g } }
    | _, _ => .next (if s.og 0x4C0007 = 3 then s.os 0x4C0007 1 else s)

/-- The head announces its boundary to all (R413). -/
def State.sendBoundary (s : State) : State :=
  if s.isHead then
    s.sendMsg true 0x05 0xFF (le 8 s.sw.lastIndex ++ le 8 s.sw.lastStamp ++
      le 4 (match s.lad.inForce with | some pl => pl.period / 16 | none => 0))
  else s

/-! ## Injection over the chain (R493), reference (R405) -/

/-- INJECT (R493): a member applies R492 for cause 11 from a start to the stop. -/
def execInject (t on link action : Nat) (s : State) : Host.Outcome State Fault Refusal :=
  let s := s.at t
  if s.isHead = true ∨ s.sideUp false = false then .next s
  else
    let s := s.relay true 0x30 0 0xFF [byte on, byte link, byte action]
    .next (s.setDr fun d => { d with inject := decide (on ≠ 0) })

/-- DRG_REFI_LOSS (R405): the member holds its PLL. -/
def execDrgRefiLoss (t : Nat) (s : State) : Host.Outcome State Fault Refusal :=
  let s := s.at t
  if s.isHead = true ∨ s.coreLive = false then .next s
  else .next (s.setDr fun d => { d with refLost := some (d.refLost.getD s.now) })

/-- The sides begin at an entry to Ready: no partner; a head's enumeration starts (R408). -/
def State.darugStart (s : State) : State :=
  let s := ((s.os 0x4C0005 0).os 0x4C0006 0).os 0x4C0007 (if s.isHead then 0 else 1)
  s.setDr fun d => { d with
    enumAt := if s.isHead then some s.now else d.enumAt, offsets := [], steps := 0, lastSync := s.now, headBoundary := none
    inject := false }

/-- The sides stop with the Ready domain. -/
def State.darugStop (s : State) : State :=
  ((s.os 0x4C0005 0).os 0x4C0006 0).setDr fun d => { d with enumAt := none, inject := false, headBoundary := none, steps := 0 }

end Sys2Proof.Machine
end

