-- ==== Sys2Proof/Machine/PlanCheck.lean ====
section
/-! DEFINITION. The install checks of Table 3-8 (R49) and the layout rules of the chapters they lead to (R43 to R47, R50,
R99 to R101, R149, R177, R198, R230, R235, R245, R252, R279, R298 to R300, R522). A check is a Bool that is true when the
plan passes it. -/

namespace Sys2Proof.Machine

open Sys2Proof

/-! ## Parsing (Tables 3-1 and 3-2) -/

/-- The image in the install buffer, with the length that its header states (03); the buffer holds 8 MiB. -/
def State.installImage (s : State) : List Byte :=
  let a := s.regionBase .install
  s.dramRead a (min (8 * mib) (unle (s.dramRead (a + 8) 4)))

/-! ## Codes 0x01 to 0x04 -/

def frameOk (img : List Byte) : Bool :=
  let n := img.length
  within 128 8388608 n && n % 16 == 0 && fld img 0 4 == 0x4E414C50 && fld img 6 2 == 64 && fld img 8 4 == n &&
    zeros img 0x17 1 && zeros img 0x1E 2 && zeros img 0x3C 4 && decide (fld img 0x0E 1 < 16) &&
    (fld img 0x16 1 == 4 || fld img 0x16 1 == 8) && decide (fld img 0x0F 1 ≤ 50) && fld img 0x10 4 != 0 &&
    within 1 64 (fld img 0x36 2) && fld img 0x38 4 % 16 == 0 &&
    decide (fld img 0x38 4 + 16 * fld img 0x36 2 ≤ n - 4)

def checksumOk (img : List Byte) : Bool := crc32c (img.take (img.length - 4)) == fld img (img.length - 4) 4

/-! ## Code 0x05: the directory (R43, R44) -/

/-- Sections stand in directory order, each at a multiple of 16, from `end_` on and before the directory. -/
def dirOrder (dirOff : Nat) : Nat → List DirEntry → Bool
  | _, [] => true
  | end_, d :: r => d.off % 16 == 0 && decide (end_ ≤ d.off) && decide (d.off + d.len ≤ dirOff) &&
      dirOrder dirOff (d.off + d.len) r

/-- The number of instances of each known section type (Table 3-3), 0 for an unknown type. -/
def instances (typ slots : Nat) : Nat :=
  match typ with
  | 0x01 => 1 | 0x02 => slots | 0x03 => 1 | 0x10 => 4 | 0x11 => 1 | 0x20 => 13 | 0x21 => 1 | 0x30 => 6 | 0x40 => 4
  | 0x41 => 8 | 0x50 => 1 | 0x60 => 1 | 0x61 => 1 | 0x70 => 4 | _ => 0

def directoryOk (img : List Byte) : Bool :=
  let ds := dirEntries img
  let keys := ds.map fun d => d.typ * 65536 + d.inst
  dirOrder (fld img 0x38 4) 64 ds && (keys.eraseDups.length == keys.length) &&
    ds.all fun d => crc32c ((img.drop d.off).take d.len) == d.check &&
      (decide (0x8000 ≤ d.typ) || decide (d.inst < instances d.typ (fld img 0x16 1)))

/-- The sections of a type. -/
def Plan.ofType (pl : Plan) (t : Nat) : List Section := pl.secs.filter fun x => x.typ == t

/-- Required sections (Table 3-3, R522). A map is required for each enabled port in use; a disabled one is code 0x07. -/
def requiredOk (pl : Plan) (ports : Nat) : Bool :=
  pl.hasSec 1 0 && (List.range pl.slots).all (pl.hasSec 2) && (pl.share == 0 || pl.hasSec 3 0) &&
    (List.range ports).all (fun p => !pl.uses p || pl.hasSec 0x10 p) && (List.range 13).all (pl.hasSec 0x20) &&
    pl.hasSec 0x50 0 && pl.hasSec 0x60 0 && pl.hasSec 0x61 0

/-! ## Sweep timing and code tables (R96, R98 to R101) -/

/-- Band centre in kHz (Tables 5-1 and 5-2). -/
def bandCentre (slots b : Nat) : Int := if slots = 8 then -218750 + 62500 * b else -187500 + 125000 * b

def timingOk (pl : Plan) (ports : Nat) : Bool :=
  let b := pl.sec 1 0
  let S := pl.slots
  let M := pl.dtsM
  let T := pl.tmplLen
  let slot := fun s => 0x20 + 8 * s
  fld b 0 2 == 1 && fld b 2 1 == S && [1, 2, 4, 8, 16].contains pl.variants && fld b 4 4 == pl.hdr 0x18 4 &&
    fld b 8 2 == pl.hdr 0x1C 2 && within 16 256 pl.codeLen && pl.codeLen % 8 == 0 && [0, 1, 31, 127].contains M &&
    (if M = 0 then T == 0 else within 10 26 T && T % 2 == 0) && fld b 0x10 1 == pl.useMask && zeros b 0x11 15 &&
    ((M == 0) == (pl.share == 0)) && b.length == 96 + 8 * S + 4 * S * T &&
    ((List.range S).all fun k => (List.range S).any fun s => pl.band s == k) &&
    ((List.range S).all fun s =>
      zeros b (slot s + 1) 3 && decide (fldI b (slot s + 4) 4 = bandCentre S (pl.band s))) &&
    ((List.range ports).all fun p => zeros b (pl.portEntry p + 10) 2 &&
      (pl.uses p || (pl.roundTrip p == 0 && pl.fibreLen p == 0))) &&
    decide ((max (pl.codeLen * pl.chip + 16) (if M = 0 then 0 else 10 * M + 16) + 16) * S ≤ pl.period)

def codeTableOk (pl : Plan) (s : Nat) : Bool :=
  let b := pl.sec 2 s
  let stride := 2 * pl.codeLen + 4 * pl.waveLen
  fld b 0 2 == 1 && fld b 2 1 == s && fld b 3 1 == pl.variants && fld b 4 2 == pl.codeLen && fld b 6 2 == pl.waveLen &&
    fld b 8 4 == stride && zeros b 12 4 && b.length == 16 + pl.variants * stride

/-! ## DTS pulse schedule (R196 to R198) -/

/-- How many of the first n sweeps of a period a pattern predicate holds for. -/
def patCount (pat : List Byte) (f : Byte → Bool) (n : Nat) : Nat :=
  let g := max 1 pat.length
  n / g * pat.countP f + (pat.take (n % g)).countP f

def pulseOk (pl : Plan) : Bool :=
  if pl.hasDts = false then true
  else
    let b := pl.sec 3 0
    let G := pl.patLen
    let pat := (b.drop 16).take G
    let firings := patCount pat (fun x => decide (x ≠ 0)) pl.dtsLen
    let dark := patCount pat (fun x => decide (x = 2)) pl.dtsLen
    fld b 0 2 == 1 && decide (pl.dtsSlot < pl.slots) && within 1 16 pl.kd && decide (1 ≤ pl.dtsLen) &&
      within 1 196000 pl.rn && within 1 4096 G && zeros b 14 2 && b.length == 16 + 16 * ceilDiv G 16 &&
      ((b.drop (16 + G)).all fun x => decide (x = 0)) && (pat.all fun x => decide (x ≤ 2)) && pat.contains 1 &&
      pat.contains 2 && decide (4 * pl.rn ≤ pl.window) &&
      decide ((pl.share : Int) = rdiv (100 * pat.countP fun x => decide (x ≠ 0)) (G * pl.slots)) &&
      decide (2000000000 ≤ pl.dtsLen * pl.period) && pl.dtsM != 0 && firings % pl.dtsM == 0 &&
      decide (firings ≤ 262144 * pl.dtsM) && decide (dark ≤ 262144)

/-! ## Channel maps and zones (R149, R245) -/

def channelMapOk (pl : Plan) (p : Nat) : Bool :=
  let b := pl.sec 0x10 p
  let c := pl.cmap p
  b.length == 32 && c 0 2 == 1 && c 2 1 == p && decide (pl.format p ≤ 1) && within 2 131072 (pl.chans p) &&
    within 1 40 (pl.perChan p) && within 1 100 (pl.gauge p) && within 4 20 (c 0x0C 1) && within 4 16 (c 0x0D 1) &&
    (pl.width p == 2 || pl.width p == 4) && decide (c 0x0F 1 ≤ 16) && within 256 8192 (pl.segLen p) &&
    pl.segLen p % 256 == 0 && decide (pl.flagMode p ≤ 1) && zeros b 0x17 1 && within 0x200000 0x7FFFFF (c 0x18 4) &&
    zeros b 0x1C 4 && decide (pl.chans p * pl.perChan p ≤ pl.nw) && decide (pl.gauge p < pl.chans p) && pl.uses p

/-- A section or zone names a port that exists and is disabled. -/
def disabled (ports p : Nat) : Bool := decide (p < 4) && decide (ports ≤ p)

def zoneOk (pl : Plan) (ports z : Nat) : Bool :=
  let p := pl.zonePort z
  if disabled ports p then true
  else
    decide (p < ports) && decide (pl.zone z 1 1 ≤ 1) && decide (pl.zone z 2 1 ≤ 31) && decide (pl.zone z 3 1 ≤ 16) &&
      decide (pl.zoneFirst z ≤ pl.zoneLast z) && pl.uses p && pl.hasSec 0x10 p && decide (pl.zoneLast z < pl.outs p) &&
      decide (pl.zoneLast z - pl.zoneFirst z ≤ 8191) && pl.zone z 0x12 2 == 0 &&
      decide (pl.zone z 0x18 4 ≤ pl.zone z 0x14 4) && pl.zone z 0x1C 4 == 0

def zoneMapOk (pl : Plan) (ports : Nat) : Bool :=
  let b := pl.zoneMap
  !pl.hasSec 0x11 0 ||
    (fld b 0 2 == 1 && decide (pl.zones ≤ 256) && zeros b 4 12 && b.length == 16 + 32 * pl.zones &&
      (List.range pl.zones).all (zoneOk pl ports))

/-! ## Hazel schedules and open slots (R45, R230, R235) -/

def entryOk (pl : Plan) (kd : KernelDir) (i k : Nat) : Bool :=
  let e := pl.entry i k
  decide (e 0 1 ≤ 11) && decide (e 1 1 ≤ 3) && (decide (e 2 1 ≤ 3) || e 2 1 == 0xFF) && e 3 1 == 0 &&
    decide (e 6 2 < 1536) && (kd[e 4 2]?.map (·.1)) == some (e 6 2) && within 1 131072 (e 12 4) && e 16 4 != 0 &&
    decide (e 0x18 8 < 2 ^ 48)

/-- The engines of the entries of schedule i as a mask. -/
def Plan.entryEngines (pl : Plan) (i : Nat) : Nat :=
  (List.range (pl.schedCount i)).foldl (fun m k => m ||| 2 ^ (pl.entry i k 0 1)) 0

def scheduleOk (pl : Plan) (kd : KernelDir) (i : Nat) : Bool :=
  let b := pl.sec 0x20 i
  fld b 0 2 == 1 && fld b 2 2 == (if i = 0 then 0xFFFF else i - 1) && decide (pl.schedMask i < 4096) &&
    within 1 4096 (pl.schedCount i) && zeros b 12 4 && b.length == 16 + 96 * pl.schedCount i &&
    (List.range (pl.schedCount i)).all (entryOk pl kd i) && pl.entryEngines i == pl.schedMask i

def openSlotOk (pl : Plan) (ports n : Nat) : Bool :=
  let e := pl.slotEntry n
  decide (e 0 1 ≤ 11) && decide (e 1 1 ≤ 3) && decide (e 2 1 ≤ 2) &&
    (if e 2 1 = 0 ∧ e 1 1 ≠ 0 then e 3 1 == 0xFF else decide (e 3 1 < ports)) &&
    (if e 2 1 = 0 then e 8 2 == 0 else within 1 512 (e 8 2)) && decide (e 10 2 ≤ 15) && within 1 0xFFFFFF (e 12 4) &&
    e 0x14 4 == 0 && decide (e 0x18 8 < 2 ^ 48) && (e 0x18 8 &&& pl.schedBanks) == 0

def openSlotsOk (pl : Plan) (ports : Nat) : Bool :=
  let b := pl.sec 0x21 0
  !pl.hasSec 0x21 0 ||
    (fld b 0 2 == 1 && decide (pl.openSlots ≤ 16) && zeros b 4 12 && b.length == 16 + 32 * pl.openSlots &&
      (List.range pl.openSlots).all (openSlotOk pl ports))

/-! ## Poppy (R176, R177) -/

def poppyOk (pl : Plan) : Bool :=
  let ss := pl.ofType 0x30
  let stageOk := fun (j : Nat) =>
    let b := pl.sec 0x30 j
    let c := PSec.words b
    let t := PSec.taps b
    let d := PSec.dec b
    fld b 0 2 == 1 && fld b 2 1 == j &&
      (match PSec.typ b with
        | 1 => within 2 64 d && within 1 5 (PSec.order b) && t == 0
        | 2 => d == 2 && PSec.order b == 0 && within 7 127 t && t % 4 == 3
        | 3 => within 1 16 d && PSec.order b == 0 && within 1 256 t
        | _ => false) &&
      decide (fld b 8 1 ≤ 63) && decide (fld b 9 1 ≤ 63) && decide (fld b 0xA 2 ≤ 4096) && decide (fld b 0xC 1 ≤ 1) &&
      zeros b 0xD 1 &&
      (if j = 0 then [16, 32, 64, 128, 256, 512, 1024].contains (fld b 0xE 2) else zeros b 0xE 2) &&
      b.length == 16 + 8 * c &&
      (wordsAt b 16 (2 * c)).all fun w => decide (-8388608 ≤ w) && decide (w ≤ 8388607)
  (List.range ss.length).all (pl.hasSec 0x30) && (List.range ss.length).all stageOk &&
    (!(pl.streams.any fun e => e.typ == 2) || pl.hasSec 0x30 0) &&
    decide ((ss.map fun x => PSec.dec x.bytes).foldl (· * ·) 1 ≤ 65536)

/-! ## Sesame programs and rate ladders (R251, R252, R279) -/

/-- An action with its target is sound at level l of n levels. -/
def actionOk (n l a target : Nat) : Bool := !(a == 2 && decide (n ≤ target)) && !(a == 1 && l + 1 == n)

/-- A term is sound (Table 11-6); an unused term may name no action. -/
def termOk (b : List Byte) (n l j : Nat) : Bool :=
  let f := term b l j
  decide (f 0 1 ≤ 9) && decide (f 1 1 ≤ 6) && decide (f 12 1 ≤ 1) && f 13 3 == 0 && decide (f 2 1 ≤ 4) &&
    actionOk n l (f 2 1) (f 3 1) && (if f 1 1 = 0 then f 12 1 == 0 else f 2 1 != 0 && f 4 4 != 0)

/-- A level is sound (Table 11-5); without a timer its action is not used. -/
def levelOk (b : List Byte) (n l : Nat) : Bool :=
  let f := lvl b l
  let terms := List.range 4
  let counted := terms.any fun j => term b l j 1 1 != 0 && term b l j 12 1 == 1
  decide (f 4 1 ≤ 2) && decide (f 5 1 ≤ 4) && f 7 1 == 0 && f 10 6 == 0 && ((f 4 1 == 0) == (f 0 4 == 0)) &&
    !(f 4 1 == 1 && f 5 1 == 0) && actionOk n l (f 5 1) (f 6 1) &&
    terms.all (termOk b n l) && ((f 8 2 != 0) == counted) && (f 4 1 != 0 || terms.any fun j => term b l j 1 1 != 0)

def programOk (pl : Plan) (x : Section) : Bool :=
  let b := x.bytes
  let n := fld b 3 1
  b.length == 656 && fld b 0 2 == 1 && fld b 2 1 == x.inst && within 1 8 n && decide (fld b 4 1 ≤ 1) &&
    decide (fld b 7 1 ≤ 1) && zeros b 12 4 && (List.range n).all (levelOk b n) && zeros b (16 + 80 * n) (80 * (8 - n)) &&
    (List.range 8).all fun c => !bit (fld b 6 1) c || pl.hasSec 0x41 c

def programsOk (pl : Plan) : Bool :=
  let ps := pl.ofType 0x40
  ps.all (programOk pl) &&
    (List.range 8).all fun c => decide (ps.countP (fun x => bit (fld x.bytes 6 1) c) ≤ 1)

def ladderOk (x : Section) : Bool :=
  let b := x.bytes
  b.length == 16 && fld b 0 2 == 1 && fld b 2 1 == x.inst && decide (fld b 3 1 ≤ 8) && within 16 0x1000000 (fld b 4 4) &&
    fld b 8 2 != 0 && zeros b 10 6

/-! ## Stream map (R298 to R300) -/

/-- The largest record a stream entry can place on its queue, its header included (R300). -/
def Plan.largest (pl : Plan) (e : Stream) : Nat :=
  let p := e.port
  let flags := fun n => if pl.flagMode p = 0 then 4 * ceilDiv n 4 else 0
  match e.typ with
  | 1 => let n := min (pl.segLen p) e.count; 72 + 4 * ceilDiv (n * pl.width p) 4 + flags n
  | 2 => let n := min 8192 e.count * ceilDiv pl.cornerDepth (max 1 (pl.poppy p).dtot); 72 + 4 * n + flags n
  | 3 => 98392
  | 4 => 327800
  | 7 => 4136
  | _ => 65608

def queueOk (pl : Plan) (q : Nat) : Bool :=
  let e := pl.qEntry q
  e 0x12 14 == 0 &&
    (e 0 4 == 0 ||
      (within 64 1048576 (e 0 4) && decide (e 4 1 ≤ 1) && within 2 7 (e 5 1) && within 8 16 (e 7 1) &&
        decide (e 8 8 < 2 ^ 48) && (e 4 1 == 0 || e 8 8 == 0) && e 0x10 2 != 0 &&
        (e 8 8 &&& (pl.schedBanks ||| (List.range pl.openSlots).foldl (fun m n => m ||| pl.slotEntry n 0x18 8) 0)) == 0))

/-- Queue q is one of q0 to q12 and used. -/
def Plan.usedQueue (pl : Plan) (q : Nat) : Bool := decide (q ≤ 12) && pl.qEntry q 0 4 != 0

/-- A stream entry is sound (R299, R300). A channel map of a disabled port is judged by code 0x07 alone (R38), so neither the
bound nor the largest record of a stream is taken from it. -/
def streamOk (pl : Plan) (ports i : Nat) (e : Stream) : Bool :=
  zeros (pl.sec 0x50 0) (432 + 16 * i + 12) 4 && within 1 7 e.typ && pl.usedQueue e.queue && decide (e.coding ≤ 1) &&
    (if e.typ ≤ 2 then
      within 1 131072 e.count && decide (e.port ≤ 3) && (e.typ == 2 || pl.qEntry e.queue 4 1 == 0) &&
        pl.hasSec 0x10 e.port && (disabled ports e.port || decide (e.first + e.count ≤ pl.outs e.port))
    else
      e.coding == 0 && e.first == 0 && e.count == 0 &&
        (if e.typ = 4 ∨ e.typ = 5 ∨ e.typ = 7 then e.port == 0xFF else decide (e.port ≤ 3))) &&
    ((decide (e.typ ≤ 2) && disabled ports e.port) || decide (2 * pl.largest e ≤ 1024 * pl.qEntry e.queue 0 4))

/-- Two entries of a map that may not stand together. -/
def streamsClash (a b : Stream) : Bool :=
  a.typ == b.typ &&
    (if a.typ ≤ 2 then a.port == b.port && decide (a.first < b.first + b.count) && decide (b.first < a.first + a.count)
     else if a.typ = 3 then a.port == b.port
     else a.typ == 4 || a.typ == 5)

def noClash : List Stream → Bool
  | [] => true
  | a :: r => !(r.any (streamsClash a)) && noClash r

def streamMapOk (pl : Plan) (ports : Nat) : Bool :=
  let b := pl.sec 0x50 0
  let n := fld b 2 2
  fld b 0 2 == 1 && within 1 256 n && zeros b 4 12 && b.length == 432 + 16 * n && (List.range 13).all (queueOk pl) &&
    (pl.streams.zipIdx.all fun x => streamOk pl ports x.2 x.1) && noClash pl.streams &&
    (List.range pl.openSlots).all fun k =>
      pl.usedQueue (pl.slotEntry k 10 2) && decide (2 * 4136 ≤ 1024 * pl.qEntry (pl.slotEntry k 10 2) 0 4)

/-! ## Port parameter values (R47) -/

/-- The entries of a parameter section: index, subindex, size, value. -/
def paramList (b : List Byte) : List (Nat × Nat × Nat × Nat) :=
  (List.range (b.length / 8)).map fun i => (fld b (8 * i) 2, fld b (8 * i + 2) 1, fld b (8 * i + 3) 1, fld b (8 * i + 4) 4)

def paramOk (p : Nat) (e : Nat × Nat × Nat × Nat) : Bool :=
  let (idx, sub, size, v) := e
  [0x2800 + 0x100 * p, 0x2C00 + 0x100 * p, 0x3000 + 0x100 * p].contains idx && sub != 0 &&
    match objRow idx sub with
    | none => false
    | some o =>
      (o.acc == .rw || o.acc == .wo) && o.ty.size == size && decide (o.lo ≤ valueOf o.ty (le size v)) && decide (valueOf o.ty (le size v) ≤ o.hi)

/-! ## Codes 0x05 to 0x09 -/

/-- Code 0x05: every section follows its chapter. Sections that name a disabled port are judged by code 0x07 alone (R38). -/
def sectionsOk (pl : Plan) (ports : Nat) (kd : KernelDir) : Bool :=
  requiredOk pl ports && timingOk pl ports && (List.range pl.slots).all (codeTableOk pl) && pulseOk pl &&
    (List.range ports).all (fun p => !pl.hasSec 0x10 p || channelMapOk pl p) && zoneMapOk pl ports &&
    (List.range 13).all (scheduleOk pl kd) && openSlotsOk pl ports && poppyOk pl && programsOk pl &&
    (pl.ofType 0x41).all ladderOk && streamMapOk pl ports && (pl.sec 0x60 0).length == 16 &&
    fld (pl.sec 0x60 0) 0 4 == pl.energy && (pl.sec 0x61 0).length == 40 &&
    (pl.ofType 0x70).all fun x => disabled ports x.inst || x.bytes.length % 8 == 0

/-- Code 0x06. -/
def excludedOk (pl : Plan) (ports : Nat) : Bool :=
  ((List.range 12).all fun e => !bit (pl.schedMask (e + 1)) e) &&
    (pl.ofType 0x70).all fun x => disabled ports x.inst || (paramList x.bytes).all (paramOk x.inst)

/-- Code 0x07 (R38, R300): what the variant does not allow. -/
def variantOk (pl : Plan) (ports : Nat) (combined : Bool) (cap lanes : Nat) : Bool :=
  decide (pl.useMask < 2 ^ ports) && (combined || pl.share == 0) && decide (pl.period ≤ cap) &&
    ((List.range 4).all fun p => !disabled ports p ||
      (!pl.hasSec 0x10 p && !pl.hasSec 0x70 p && zeros (pl.sec 1 0) (pl.portEntry p) 16)) &&
    ((List.range pl.zones).all fun z => !disabled ports (pl.zonePort z)) &&
    (List.range 13).all fun q => !pl.usedQueue q || decide (pl.qEntry q 6 1 < 2 ^ lanes)

/-- Code 0x08 (R7, R10, R20, R172). The rates of R20 are those the plan declares and those its channel maps give: N channels at
S / P each. -/
def ceilingOk (pl : Plan) : Bool :=
  let used := (List.range 4).filter pl.uses
  let rt := (used.map pl.roundTrip).foldl max 0
  let load := fun p => pl.chans p * pl.slots
  within 1250 50000 (pl.hdr 0x18 4) && within 1 400 (pl.hdr 0x1C 2) && decide (rt + 6400 ≤ pl.period) &&
    (used.isEmpty || pl.hdr 0x1C 2 == ceilDiv rt 2000) && decide (pl.hdr 0x20 4 ≤ 1600000) &&
    ((List.range 4).all fun p => decide (pl.portRate p ≤ 400000) && (!pl.hasSec 0x10 p || decide (5 * load p ≤ 2 * pl.period))) &&
    decide (5 * sumN ((List.range 4).map fun p => if pl.hasSec 0x10 p then load p else 0) ≤ 8 * pl.period) &&
    decide (5 * pl.slots * sumN ((List.range 4).map fun p => (pl.decimList p).length) ≤ 4 * pl.period)

/-- The proof fields agree (R50). -/
def proofOk (pl : Plan) : Bool :=
  let f := fld (pl.sec 0x61 0)
  let total := f 0x20 4
  total == sumN ((List.range 6).map fun i => f (8 + 4 * i) 4) && f 0 4 != 0 &&
    decide ((f 0x24 2 : Int) = rdiv (10000 * total) (f 0 4)) && decide (f 0x24 2 ≤ 7000) && dramRates.contains (f 4 2) &&
    (f 6 1 == 1 || f 6 1 == 2) && decide (f 7 1 ≤ 1) && pl.hdr 0x30 4 == total && pl.hdr 0x34 2 == f 0x24 2

/-! ## Codes 0x0A to 0x0C -/

/-- Code 0x0A (R52): energy never falls with rung number once the plan stands on the rung; rungs whose kept plan is still to
be reloaded are occupied (DEDUCED, assumption log 71). -/
def State.energyOk (s : State) (pl : Plan) (rung : Nat) : Bool :=
  (List.range 16).all fun r =>
    match s.planOn r with
    | none => true
    | some o => r == rung || (if r < rung then decide (o.energy ≤ pl.energy) else decide (pl.energy ≤ o.energy))

/-- Code 0x0B (R49, R521): the rung may be replaced. The active rung is occupied while its kept plan is still to be reloaded
(R499; DEDUCED, assumption log 71). -/
def State.rungFree (s : State) (rung : Nat) : Bool :=
  !(s.og 0x240001 == rung && s.occupied rung) &&
    match s.lad.switch with | some w => w.rung != rung | none => true

/-- Code 0x0C (R51): room in the flash plan store for an image on a rung. -/
def State.storeRoom (s : State) (rung len : Nat) : Bool :=
  decide (sumN ((s.lad.store.filter fun e => e.status == 0x7F && e.rung != rung).map (·.image.length)) + len ≤
    64 * mib - 65536)

/-- The checks of a plan image's content, in table order up to 0x09; the code of the first that fails, 0 when none does. -/
def State.checkContent (s : State) (kd : KernelDir) (img : List Byte) : Nat :=
  let ports := s.pw.sensedPorts
  let pl := parsePlan img
  if frameOk img = false then 1
  else if checksumOk img = false then 2
  else if fld img 5 1 ≠ 1 then 3
  else if fld img 0x0C 2 ≠ 0x48 then 4
  else if directoryOk img = false ∨ sectionsOk pl ports kd = false then 5
  else if excludedOk pl ports = false then 6
  else if variantOk pl ports s.pw.sensedCombined s.periodCap s.lanesBonded = false then 7
  else if ceilingOk pl = false then 8
  else if proofOk pl = false ∨ s.demandOk pl (s.og 0x420009) = false ∨ s.couldFit pl = false then 9
  else 0

/-- `checkImage` (R49): the result code of Table 3-8 for an image on a rung. -/
def State.checkImage (s : State) (kd : KernelDir) (img : List Byte) (rung : Nat) (keep : Bool) : Nat :=
  let c := s.checkContent kd img
  if c ≠ 0 then c
  else if s.energyOk (parsePlan img) rung = false then 0xA
  else if s.rungFree rung = false then 0xB
  else if keep && !s.storeRoom rung img.length then 0xC
  else 0

end Sys2Proof.Machine
end

