-- ==== Sys2Proof/Machine/Ladder.lean ====
section
/-! DEFINITION. Installing and removing plans (R48 to R51), requesting and preparing switches (R56, R58), shadowed writes
without a row of their own (R59), and the cascade commit (R61 to R64). The take stands in Machine/Boundary.lean. -/

namespace Sys2Proof.Machine

open Sys2Proof

def State.setLad (s : State) (f : Ladder → Ladder) : State := { s with lad := f s.lad }

/-! ## The plan store and the rungs (R51, R52, R429, R447) -/

/-- A failed engine exists. -/
def State.anyFailed (s : State) : Bool := s.og 0x410002 != 0

/-- The planned power of a plan before any measurement (R429). -/
def State.planPower (s : State) (pl : Plan) : Nat :=
  (if s.anyFailed then pl.lossEnergy else pl.energy) + s.og 0x21000C

/-- Set the planned power of a rung, UNSIGNED32. -/
def State.setPower (s : State) (r : Nat) : State :=
  match s.rung r with
  | some pl => s.os (okey 0x2101 (r + 1)) (s.planPower pl % 2 ^ 32)
  | none => s.os (okey 0x2101 (r + 1)) 0

/-- A plan becomes the active plan outside a take (R521): the queues follow its stream map. -/
def State.planActive (s : State) (pl : Plan) : State := (s.queuesTake (s.queueBase (s.og 0x240001)) pl).showRungs

/-- Put a plan on a rung. -/
def State.putRung (s : State) (r : Nat) (pl : Plan) (kept : Bool) : State :=
  let fresh := s.activePlan.isNone
  let s := s.setLad fun l => { l with rungs := l.rungs.set r (some ⟨pl, kept⟩), reloading := l.reloading.filter (· ≠ r) }
  let s := s.setPower r
  if fresh && s.og 0x240001 == r then s.planActive pl else s.showRungs

/-- Supersede the kept entry of a rung. -/
def State.supersede (s : State) (r : Nat) : State :=
  s.setLad fun l => { l with store := l.store.map fun e => if e.rung == r && e.status == 0x7F then { e with status := 0 } else e }

/-- Bytes an entry takes in the store: its head and image, from a 4 KiB boundary. -/
def StoreEntry.space (e : StoreEntry) : Nat := 4096 * ceilDiv (64 + e.image.length) 4096

/-- Write a kept plan after the last entry, the live entries copied to the start of the store first where that space is too
small; then the former entry of the rung is superseded. -/
def State.keepPlan (s : State) (r : Nat) (img : List Byte) : State :=
  let e := StoreEntry.make r img
  let full := decide (64 * mib < sumN (s.lad.store.map StoreEntry.space) + e.space)
  let s := if full then s.setLad fun l => { l with store := l.store.filter fun x => x.status == 0x7F } else s
  (s.supersede r).setLad fun l => { l with store := l.store ++ [e] }

/-- The end of an install (R49, R51): the checks run on the image taken at acceptance. A flash failure leaves the ladder
unchanged; the spec gives it no code, so its code is free. -/
def State.endInstall (s : State) (arg : Nat) (img : List Byte) (flashFailed : Bool) : Nat × State :=
  let rung := arg % 16
  let keep := decide (256 ≤ arg)
  let code := s.checkImage s.kernelDir img rung keep
  let (code, s) := if code = 0 ∧ keep = true ∧ flashFailed = true then let (d, s) := s.draw 255; (d + 1, s) else (code, s)
  let s := s.os 0x240009 code
  if code ≠ 0 then (code, s)
  else
    let s := if keep then s.keepPlan rung img else s.supersede rung
    (0, s.putRung rung (parsePlan img) keep)

/-- The effect of an install command (R48): in Ready and Sensing, a long operation on the buffer as it stands. -/
def planInstall (v : Nat) (s : State) : Except Nat State :=
  require (decide (s.pw.power = .ready ∨ s.pw.power = .sensing)) 0x08000022
    (.ok (s.startLong 1 (if 256 ≤ v then 40000 else 1500) v s.installImage))

/-- PLAN_INSTALL (R48, R49). -/
def execPlanInstall (t c rung : Nat) (s : State) : Host.Outcome State Fault Refusal :=
  .next ((s.at t).hostWrite c 0x2400 8 false (le 2 (rung % 16)) (planInstall (rung % 16)))

/-- PLAN_INSTALL_KEEP (R48, R51). -/
def execPlanInstallKeep (t c rung : Nat) (s : State) : Host.Outcome State Fault Refusal :=
  .next ((s.at t).hostWrite c 0x2400 8 false (le 2 (256 + rung % 16)) (planInstall (256 + rung % 16)))

/-- The effect of removing a rung (R51). -/
def removeRung (r : Nat) (s : State) : Except Nat State :=
  require (s.rungFree r) 0x08000020 <|
    .ok (((s.supersede r).setLad fun l => { l with rungs := l.rungs.set r none, reloading := l.reloading.filter (· ≠ r) })
      |>.setPower r |>.showRungs)

/-- REMOVE_RUNG (R51). -/
def execRemoveRung (t c rung : Nat) (s : State) : Host.Outcome State Fault Refusal :=
  .next ((s.at t).hostWrite c 0x2400 0xF false (le 1 rung) (removeRung (rung % 256)))

/-! ## Messages of the chain (Table 19-3) -/

/-- A message of the cascade commit to all members. -/
def State.tellChain (s : State) (typ : Nat) (payload : List Byte) : State := s.sendMsg true typ 0xFF payload

/-- A message to the head. -/
def State.tellHead (s : State) (typ : Nat) (payload : List Byte) : State := s.sendMsg false typ 0 payload

/-- Devices of the chain as the head knows them. -/
def State.chainLen (s : State) : Nat := max 1 (s.og 0x4C0010)

/-- An outcome reaches the head, or is the head's own (R64): recorded, and the mismatch window once every member runs the
target plan. A member whose prepare failed keeps that outcome when it reports that it was cancelled. -/
def State.chainOutcome (s : State) (pos code index : Nat) : State :=
  match s.lad.chain with
  | none => s
  | some c =>
    let s := if pos < 8 ∧ ¬(code = 4 ∧ s.og (okey 0x2403 (pos + 1)) = 3) then s.os (okey 0x2403 (pos + 1)) code else s
    let d := index - c.commit.getD index
    let runs := decide (code = 1 ∨ code = 2 ∨ code = 6)
    let c := if runs then { c with missing := c.missing.filter (· ≠ pos), window := max c.window d } else c
    let s := s.setLad fun l => { l with chain := some c }
    if c.commit.isSome && !c.closed && c.missing.isEmpty then s.os 0x240012 c.window else s

/-- The device reports its own outcome of the chain switch with a tag. -/
def State.report (s : State) (tag code index : Nat) : State :=
  if s.isHead then s.chainOutcome 0 code index else s.tellHead 0x16 (le 2 tag ++ [byte code] ++ le 8 index)

/-- The mismatch window while some member is not known to run the target plan, at the boundary of sweep n (R64). After a
cancelled commit it counts once some member is known to have switched all the same (DEDUCED, assumption log 75). -/
def State.countMismatch (s : State) (n : Nat) : State :=
  match s.lad.chain with
  | some c =>
    match c.commit with
    | some k =>
      let some_ := !c.ovr || decide (c.missing.length < s.chainLen)
      if some_ && !c.closed && !c.missing.isEmpty && decide (k ≤ n) then s.os 0x240012 ((n - k + 1) % 2 ^ 32) else s
    | none => s
  | none => s

/-! ## Requesting and dropping switches (R56, R58) -/

/-- No switch is pending any more; ports brought up for it go dark again. -/
def State.dropSwitch (s : State) : State :=
  match s.lad.switch with
  | none => s
  | some w =>
    let s := w.bringUp.foldl (fun s p => s.setPort p PortOptics.powerDown) s
    ((s.os 0x240002 0xFF).setLad fun l => { l with switch := none }).showOptics.releaseRegions

/-- The head cancels a chain switch (R61, R62). Its own prepared state goes; `own` is its outcome. -/
def State.cancelChain (s : State) (own : Nat) : State :=
  match s.lad.chain with
  | none => s
  | some c =>
    let s := (s.tellChain 0x14 (le 2 c.tag)).setLad fun l => { l with chain := some { c with ovr := true } }
    let mine := (s.lad.switch.bind (·.chain)) = some c.tag
    let switched := match s.lad.member with | some m => m.switched | none => false
    if mine then (s.dropSwitch.setLad fun l => { l with member := none }).chainOutcome 0 own 0
    else if switched then s.chainOutcome 0 6 (s.og 0x240005)
    else s.chainOutcome 0 own 0

/-- The instant of the boundary with index C, none when it has passed or no sweep runs. -/
def State.boundaryOf (s : State) (c : Nat) : Option Nat :=
  match s.pw.power, s.lad.inForce with
  | .sensing, some pl => if s.sw.lastIndex < c then some (s.sw.next + (c - s.sw.lastIndex - 1) * pl.period) else none
  | _, _ => none

/-- FAIL of a position reaches the head (R62). -/
def State.failFrom (s : State) (pos tag : Nat) : State :=
  match s.lad.chain with
  | none => s
  | some c =>
    if c.tag ≠ tag ∨ c.ovr then s
    else
      match c.commit with
      | none => s.cancelChain 4
      | some k =>
        let early : Bool := match s.boundaryOf k with | some x => decide (s.now + 100000 ≤ x) | none => decide (s.pw.power ≠ .sensing)
        if early then (s.cancelChain 4).chainOutcome pos 4 0 else s.chainOutcome pos 7 0

/-- A NAK of a position at the head. -/
def State.nakFrom (s : State) (pos tag : Nat) : State :=
  match s.lad.chain with
  | none => s
  | some c =>
    if c.tag ≠ tag ∨ c.ovr then s
    else if pos = 0 then s.cancelChain 3
    else (s.cancelChain 4).chainOutcome pos 3 0

/-- The device loses its chain switch before its take: after its ACK it sends FAIL (R62), before it NAK (R61). -/
def State.loseChain (s : State) (tag : Nat) : State :=
  match s.lad.member with
  | some m =>
    if m.tag = tag ∧ m.switched = false then
      let s := s.setLad fun l => { l with member := none }
      match m.acked, s.isHead with
      | true, true => s.failFrom 0 tag
      | true, false => s.tellHead 0x15 (le 2 tag)
      | false, true => s.nakFrom 0 tag
      | false, false => s.tellHead 0x12 (le 2 tag)
    else s
  | none => s

/-- A new request of the host ends a chain switch and closes its mismatch window (R64). -/
def State.endMismatch (s : State) : State :=
  s.setLad fun l => { l with chain := l.chain.map fun c => { c with ovr := true, closed := true } }

/-- Ports the plan of a rung uses and the plan in force leaves dark. -/
def State.darkPorts (s : State) (pl : Plan) : List Nat :=
  (s.usedPorts pl).filter fun p => match s.lad.inForce with | some o => !o.uses p | none => true

/-- A pending switch to an occupied rung, in place of any before it; in Sensing its prepare begins at once. -/
def State.askSwitch (s : State) (rung : Nat) (chain : Option Nat) : State :=
  let s := match s.lad.switch with
    | some w =>
      let s := (s.bump 0x24000E).dropSwitch
      match w.chain with | some tag => s.loseChain tag | none => s
    | none => s
  let dark := match s.pw.power, s.rung rung with
    | .sensing, some pl => s.darkPorts pl
    | _, _ => []
  let s := if dark.isEmpty then s else s.bringUp dark (s.now + acquireTime false)
  (s.os 0x240002 rung).setLad fun l => { l with switch := some ⟨rung, s.now, false, false, 0, dark, chain, none⟩ }

/-- The rung holds a plan that is not still being reloaded. -/
def State.rungReady (s : State) (r : Nat) : Bool := (s.rung r).isSome && !s.lad.reloading.contains r

/-- The effect of a write to 0x2400:03 (R53, R58, R61); a rung above the derate limit raises flag 2 (R443). -/
def requestedRung (r : Nat) (s : State) : Except Nat State :=
  require (s.og 0x240004 != 2) 0x08000021 <| require (s.rungReady r) 0x08000020 <|
    let s := (s.os 0x240003 r).osBit 0x500013 2 (decide (s.og 0x500031 < r))
    .ok (if s.og 0x240001 = r ∧ s.lad.switch.isNone then s else s.askSwitch r none).endMismatch

/-- REQUESTED_RUNG (R58). -/
def execRequestedRung (t c rung : Nat) (s : State) : Host.Outcome State Fault Refusal :=
  .next ((s.at t).hostWrite c 0x2400 3 false (le 1 rung) (requestedRung (rung % 256)))

/-! ## Prepare (R56, R58, R93, R108) -/

/-- Sections 0x0001 and 0x0002 of a plan go into the Husk half that is not active (R108). -/
def State.loadHalf (s : State) (pl : Plan) : State :=
  let secs := pl.secs.filter fun x => x.typ == 1 || x.typ == 2
  { s with sw := if s.sw.activeHalf1 then { s.sw with half0 := secs } else { s.sw with half1 := secs } }

/-- A prepared switch of the chain with a tag learns its commit index. -/
def Switch.commitAt (w : Switch) (tag k : Nat) : Switch :=
  if w.chain = some tag ∧ w.prepared = true then { w with commit := some k } else w

/-- All ACKs are in: COMMIT with the index of the first boundary 500 µs or more from now, or the held index outside
Sensing (R61). -/
def State.commitChain (s : State) (c : ChainHead) : State :=
  let k := match s.pw.power, s.lad.inForce with
    | .sensing, some pl => s.sw.lastIndex + 1 + ceilDiv (s.now + 500000 - s.sw.next) (max 1 pl.period)
    | _, _ => s.og 0x220013
  let s := (s.tellChain 0x13 (le 2 c.tag ++ le 8 k)).os 0x240011 k |>.os 0x240012 0
  s.setLad fun l => { l with
    chain := some { c with commit := some k, missing := List.range s.chainLen }
    switch := l.switch.map (Switch.commitAt · c.tag k) }

/-- An ACK of a position at the head. -/
def State.ackFrom (s : State) (pos tag : Nat) : State :=
  match s.lad.chain with
  | none => s
  | some c =>
    if c.tag ≠ tag ∨ c.ovr = true ∨ c.commit.isSome = true ∨ c.acks.contains pos = true then s
    else
      let c := { c with acks := c.acks ++ [pos] }
      let s := s.setLad fun l => { l with chain := some c }
      if (List.range s.chainLen).all c.acks.contains then s.commitChain c else s

/-- A prepare failed (R58): the switch drops and 0x2400:09 reads 0x05; in a chain the device answers NAK. -/
def State.failPrepare (s : State) : State :=
  match s.lad.switch with
  | none => s
  | some w =>
    let s := s.dropSwitch.os 0x240009 5
    match w.chain with
    | none => s
    | some tag =>
      let s := s.setLad fun l => { l with member := none }
      if s.isHead then s.nakFrom 0 tag else s.tellHead 0x12 (le 2 tag)

/-- A prepare ended well: the take waits for its boundary; in a chain the device answers ACK. -/
def State.donePrepare (s : State) (w : Switch) (pl : Plan) : State :=
  let s := (s.loadHalf pl).setLad fun l => { l with switch := some { w with prepared := true, readyAt := s.now } }
  match w.chain with
  | none => s
  | some tag =>
    let s := s.setLad fun l => { l with member := l.member.map fun m => { m with acked := true, ackAt := s.now } }
    if s.isHead then s.ackFrom 0 tag else s.tellHead 0x11 (le 2 tag)

/-- COLD_ENTRY_SEED_CHECK (R91, R93): at 1.0 ms of a cold entry or of a bring-up within prepare, a seed below +9.0 dBm abandons
the entry or fails the switch. -/
def execColdEntrySeedCheck (t : Nat) (dbm : Int) (s : State) : Host.Outcome State Fault Refusal :=
  let s := s.at t
  let shown := { s with opt := { s.opt with seedDbm := dbm } }.osI 16 0x28000B dbm
  match s.pw.entry, s.lad.switch with
  | some e, _ =>
    if e.warm ∨ e.seedChecked then .next s
    else if dbm < 900 then .next shown.abandonEntry
    else .next { shown with pw := { shown.pw with entry := some { e with seedChecked := true } } }
  | none, some w =>
    if w.bringUp.isEmpty ∨ w.seedOk ∨ w.prepared ∨ s.now < w.startAt + 1000000 then .next s
    else if dbm < 900 then .next shown.failPrepare
    else .next (shown.setLad fun l => { l with switch := some { w with seedOk := true } })
  | none, none => .next s

/-- The seed check of a bring-up fails (R93): a reading at or after 1.0 ms, the first, falls short. -/
def Switch.seedFails (w : Switch) (dbm : Int) (now : Nat) : Bool :=
  !w.bringUp.isEmpty && !w.seedOk && decide (dbm < 900) && decide (w.startAt + 1000000 ≤ now)

/-- A bring-up within prepare takes the first 110 ms of Table 4-9 (R93). -/
def Switch.comingUp (w : Switch) (now : Nat) : Bool := !w.bringUp.isEmpty && decide (now < w.startAt + 110000000)

/-- PREPARE_END (R56, R58, R93, R345): prepare ends, well unless an uncorrectable error met it, its regions do not fit, or the
seed check of a port it brings up fails (`seedDbm` is the reading at 1.0 ms where COLD_ENTRY_SEED_CHECK did not bring it). With
a port to bring up it does not end well before 110 ms. A switch that waits for an entry is prepared during the entry, unless a
chain asks for it. -/
def execPrepareEnd (t : Nat) (ok : Bool) (seedDbm : Int) (s : State) : Host.Outcome State Fault Refusal :=
  let s := s.at t
  match s.lad.switch with
  | none => .next s
  | some w =>
    if w.prepared = true ∨ (s.pw.power ≠ .sensing ∧ w.chain.isNone = true) then .next s
    else
      match s.rung w.rung with
      | none => .next s.failPrepare
      | some pl =>
        if ok = false ∨ w.seedFails seedDbm s.now = true then .next s.failPrepare
        else if w.comingUp s.now then .next s
        else
          match (w.bringUp.foldl State.expirePort s).showOptics.reservePlan w.rung pl with
          | none => .next s.failPrepare
          | some s => .next (s.donePrepare w pl)

/-! ## Shadowed writes (R59, R237) -/

/-- The state rules of a shadowed object that has no row of its own: an open slot can be enabled only where the active plan's
table holds it (R237). -/
def shadowed (idx sub : Nat) (b : List Byte) (s : State) : Except Nat State :=
  let slots := match s.activePlan with | some pl => pl.openSlots | none => 0
  if idx = 0x4100 ∧ sub = 0x12 ∧ 2 ^ slots ≤ unle b then .error 0x06090030 else shadow idx sub b s

/-- The object is shadowed (R59): judged by its row of the dictionary. -/
def isShadowed (idx sub : Nat) : Bool := match objRow idx sub with | some o => o.sh | none => false

/-- SHADOWED_WRITE (R59, R60): a write to a shadowed object. -/
def execShadowedWrite (t c index sub : Nat) (data : List Byte) (s : State) : Host.Outcome State Fault Refusal :=
  if isShadowed index sub = false then .next (s.at t)
  else
    let seg := match objRow index sub with | some o => o.ty.size == 0 | none => false
    .next ((s.at t).hostWrite c index sub seg data
      (if 0x3A00 ≤ index ∧ index < 0x3B00 then zoneThreshold (index - 0x3A00) (sub == 4) (unle data)
       else if index = 0x3400 ∧ sub % 16 = 4 then bankLoad (sub / 16 - 1) data
       else shadowed index sub data))

/-! ## Cascade commit (R61 to R64) -/

/-- The effect of a write to 0x2400:10. It acts in every ladder mode, though the table of R53 names cascade commits under mode 2 only
(DESIGN CHOICE, assumption log 76). -/
def chainSwitch (r : Nat) (s : State) : Except Nat State :=
  require s.isHead 0x08000021 <| require (s.rungReady r) 0x08000020 <|
    let tag := (s.og 0x240013 + 1) % 65536
    let s := s.askSwitch r (some tag)
    let s := (List.range 8).foldl (fun s p => s.os (okey 0x2403 (p + 1)) 0) (s.os 0x240013 tag)
    let s := s.setLad fun l => { l with
      chain := some ⟨r, tag, s.now, [], none, false, false, [], 0⟩
      member := some ⟨r, tag, false, 0, false⟩ }
    .ok (s.tellChain 0x10 ([byte r] ++ le 2 tag))

/-- CHAIN_SWITCH (R61). -/
def execChainSwitch (t c rung : Nat) (s : State) : Host.Outcome State Fault Refusal :=
  .next ((s.at t).hostWrite c 0x2400 0x10 false (le 1 rung) (chainSwitch (rung % 256)))

/-- PREPARE (R61): a member prepares the rung, or answers NAK where it cannot; in every ladder mode (DESIGN CHOICE, assumption
log 76). -/
def execPrepare (t rung tag : Nat) (s : State) : Host.Outcome State Fault Refusal :=
  let s := s.at t
  if s.isHead = true ∨ s.sideUp false = false then .next s
  else
    let s := (s.relay true 0x10 0 0xFF ([byte rung] ++ le 2 tag)).os 0x240013 (tag % 65536)
    if s.rungReady rung = false then .next (s.tellHead 0x12 (le 2 tag))
    else
      let s := s.askSwitch rung (some tag)
      .next (s.setLad fun l => { l with member := some ⟨rung, tag, false, 0, false⟩ })

/-- A message to the head passes through a member; at the head its effect comes about. -/
def State.toHead (s : State) (typ src : Nat) (payload : List Byte) (effect : State → State) : State :=
  if s.sideUp true = false then s
  else if s.isHead then effect s
  else s.relay false typ src 0 payload

/-- ACK (R61). -/
def execAck (t src tag : Nat) (s : State) : Host.Outcome State Fault Refusal :=
  .next ((s.at t).toHead 0x11 src (le 2 tag) fun s => s.ackFrom src tag)

/-- NAK (R61). -/
def execNak (t src tag : Nat) (s : State) : Host.Outcome State Fault Refusal :=
  .next ((s.at t).toHead 0x12 src (le 2 tag) fun s => s.nakFrom src tag)

/-- ACK_TIMEOUT (R61): 150 ms without all ACKs. -/
def execAckTimeout (t : Nat) (s : State) : Host.Outcome State Fault Refusal :=
  let s := s.at t
  match s.lad.chain with
  | none => .next s
  | some c =>
    if c.ovr = true ∨ c.commit.isSome = true ∨ s.now < c.sentAt + 150000000 then .next s
    else
      let late := (List.range s.chainLen).filter fun p => !c.acks.contains p
      .next (late.foldl (fun s p => s.chainOutcome p 3 0) (s.cancelChain (if c.acks.contains 0 then 4 else 3)))

/-- COMMIT (R61, R63): a member takes at C, or at its next boundary when C has passed; without prepared state it ignores it. -/
def execCommit (t tag index : Nat) (s : State) : Host.Outcome State Fault Refusal :=
  let s := s.at t
  if s.isHead = true ∨ s.sideUp false = false then .next s
  else
    let s := s.relay true 0x13 0 0xFF (le 2 tag ++ le 8 index)
    .next (s.setLad fun l => { l with switch := l.switch.map (Switch.commitAt · tag index) })

/-- CANCEL (R63): the prepared state goes, unless the member has switched. -/
def execCancel (t tag : Nat) (s : State) : Host.Outcome State Fault Refusal :=
  let s := s.at t
  if s.isHead = true ∨ s.sideUp false = false then .next s
  else
    let s := s.relay true 0x14 0 0xFF (le 2 tag)
    match s.lad.member with
    | none => .next s
    | some m =>
      if m.tag ≠ tag then .next s
      else if m.switched then .next (s.report tag 6 (s.og 0x240005))
      else
        let s := if (s.lad.switch.bind (·.chain)) = some tag then s.dropSwitch else s
        .next ((s.setLad fun l => { l with member := none }).report tag 4 0)

/-- FAIL (R62). -/
def execFail (t src tag : Nat) (s : State) : Host.Outcome State Fault Refusal :=
  .next ((s.at t).toHead 0x15 src (le 2 tag) fun s => s.failFrom src tag)

/-- OUTCOME (R64). -/
def execOutcome (t src tag outcome index : Nat) (s : State) : Host.Outcome State Fault Refusal :=
  .next ((s.at t).toHead 0x16 src (le 2 tag ++ [byte outcome] ++ le 8 index) fun s =>
    if (s.lad.chain.map (·.tag)) = some tag then s.chainOutcome src outcome index else s)

/-- COMMIT_LOST_TIMEOUT (R63): 250 ms after its ACK with neither COMMIT nor CANCEL a member discards its prepared state. -/
def execCommitLostTimeout (t : Nat) (s : State) : Host.Outcome State Fault Refusal :=
  let s := s.at t
  match s.lad.member, s.lad.switch with
  | some m, some w =>
    if m.acked && !m.switched && decide (w.chain = some m.tag) && w.commit.isNone && !s.isHead &&
        decide (m.ackAt + 250000000 ≤ s.now) then
      .next ((s.dropSwitch.setLad fun l => { l with member := none }).report m.tag 5 0)
    else .next s
  | _, _ => .next s

end Sys2Proof.Machine
end

