-- ==== Sys2Proof/Machine/Lanes.lean ====
section
/-! DEFINITION. The Pecan host lanes (14) and the transmit scheduler (R295, R301): frames, credits, replay, lock, electrical
idle, adaptation. The processing of received frames stands here as effects; their commands, which fault injection may
touch, stand in Machine/RxFrames.lean. -/

namespace Sys2Proof.Machine

open Sys2Proof

def State.tx (s : State) (n : Nat) : TxLane := s.ln.tx.getD n (TxLane.blank 0)

def State.setTx (s : State) (n : Nat) (f : TxLane → TxLane) : State :=
  { s with ln := { s.ln with tx := modAt s.ln.tx n f } }

def State.setRx (s : State) (m : Nat) (f : RxLane → RxLane) : State :=
  { s with ln := { s.ln with rx := modAt s.ln.rx m f } }

/-- Key of an object of transmit lane n. -/
def tk (n sub : Nat) : Nat := okey (0x4040 + n) sub
/-- Key of an object of receive lane m. -/
def rk (m sub : Nat) : Nat := okey (0x4048 + m) sub

/-! ## The transmit scheduler (R295, R301, R319, R320) -/

/-- The lanes that serve a queue: its mask, or that of its old plan while it drains (R520); q13 to q15 use every bonded lane. -/
def State.queueLanes (s : State) (q : Nat) : Nat :=
  if 13 ≤ q then 2 ^ s.lanesBonded - 1
  else if (s.queue q).drainLanes ≠ 0 then (s.queue q).drainLanes
  else s.og (okey (0x4010 + q) 5)

/-- The queue has credit for its next frame (R320). -/
def State.hasCredit (s : State) (q : Nat) : Bool :=
  let d := (s.ln.credit.getD q 0 + 65536 - (s.queue q).frameSeq % 65536) % 65536
  decide (1 ≤ d ∧ d ≤ 32768)

/-- Queue q can be served on a lane. -/
def State.servable (s : State) (lane q : Nat) : Bool :=
  !(s.queue q).recs.isEmpty && bit (s.queueLanes q) lane && s.hasCredit q

/-- The queue a lane serves next: the lowest class, and within it the next in ascending order after the one served last. -/
def State.pickQueue (s : State) (lane : Nat) : Option Nat :=
  let cand := (List.range 16).filter (s.servable lane)
  let cls (q : Nat) : Nat := (s.queue q).cls
  match cand.foldl (fun m q => match m with | none => some (cls q) | some c => some (min c (cls q))) none with
  | none => none
  | some c =>
    let mine := cand.filter fun q => decide (cls q = c)
    let turn := s.qu.turn.getD c 0
    match mine.find? fun q => decide (turn ≤ q) with
    | some q => some q
    | none => mine.head?

/-- Insert a record behind those of its priority or higher. -/
def insertPrio (r : Rec) : List Rec → List Rec
  | [] => [r]
  | x :: xs => if x.prio ≤ r.prio then x :: insertPrio r xs else r :: x :: xs

/-- The order in which q15 presents its records: a begun record first, then by priority, then by arrival (R301). -/
def Queue.present (q : Queue) (events : Bool) : List Rec :=
  if events then
    let head := if q.framed = 0 then [] else q.recs.take 1
    head ++ (q.recs.drop head.length).foldl (fun l r => insertPrio r l) []
  else q.recs

/-- Fill a payload from records: bytes taken, records left with the bytes of the first already framed, and the offset at
which the first record header begins. -/
def fillFrame : Nat → Nat → List Rec → List Byte → Nat → List Byte × List Rec × Nat × Nat
  | 0, framed, rs, acc, off => (acc, rs, framed, off)
  | _ + 1, _, [], acc, off => (acc, [], 0, off)
  | fuel + 1, framed, r :: rs, acc, off =>
    let room := 500 - acc.length
    if room = 0 then (acc, r :: rs, framed, off)
    else
      let off := if framed = 0 ∧ off = 511 then acc.length else off
      let b := r.bytes.drop framed
      if b.length ≤ room then fillFrame fuel 0 rs (acc ++ b) off
      else (acc ++ b.take room, r :: rs, framed + room, off)

/-- The next data frame of queue q on a lane, and the state with the frame taken from the queue. -/
def State.nextFrame (s : State) (lane q : Nat) : LaneFrame × State :=
  let qq := s.queue q
  let recs := qq.present (decide (q = 15))
  let (payload, left, framed, off) := fillFrame (recs.length + 1) qq.framed recs [] 511
  let f : LaneFrame := ⟨0, q, (s.tx lane).lseq, qq.frameSeq, payload.length, off, payload⟩
  let gone := recs.take (recs.length - left.length)
  let s := s.setQueue q fun qq =>
    { qq with recs := left, framed := framed, frameSeq := (qq.frameSeq + 1) % 65536
              drainLanes := if left.isEmpty then 0 else qq.drainLanes }
  let s := { s with qu := { s.qu with turn := modAt s.qu.turn qq.cls fun _ => (q + 1) % 16 } }
  (f, if gone.any fun r => decide (clearBits r.banks qq.banks ≠ 0 ∨ r.region ≠ qq.region) then s.releaseBanks.releaseRegions else s)

/-- A data frame enters the lane's replay buffer of 1 024 and goes out (R323). -/
def State.sendNew (s : State) (lane : Nat) (f : LaneFrame) : State :=
  let s := s.setTx lane fun l =>
    { l with lseq := (l.lseq + 1) % 65536, replay := (l.replay ++ [f]).drop (l.replay.length + 1 - 1024), lastSent := s.now
             wake := none }
  (s.bump (tk lane 2)).sendData lane f

/-- A lane can send a frame: it is up, bonded, and not in electrical idle nor still sending the 128 training and 8 idle blocks that
end it, 348.16 ns at least (R321, R327). -/
def State.canSend (s : State) (lane : Nat) : Bool :=
  let l := s.tx lane
  l.up && !l.idle && decide (lane < s.lanesBonded) && (match l.wake with | some w => decide (w + 349 ≤ s.now) | none => true)

/-- DATA_FRAME (R319 to R324): at a frame boundary of a lane that is up, a resend that is due, else the next frame of a
queue with credit. -/
def execDataFrame (t lane : Nat) (s : State) : Host.Outcome State Fault Refusal :=
  let s := s.at t
  let l := s.tx lane
  if s.canSend lane = false then .next s
  else
    match l.resend.find? fun r => decide (r.2 ≤ s.now) with
    | some r =>
      let s := s.setTx lane fun l => { l with resend := l.resend.erase r, lastSent := s.now, wake := none }
      .next (((s.bump (tk lane 3)).count 52).putFrame lane r.1)
    | none =>
      match s.pickQueue lane with
      | none => .next s
      | some q =>
        let (f, s) := s.nextFrame lane q
        .next (s.sendNew lane f)

/-! ## Device control frames (Table 14-5) -/

def State.controlPayload (s : State) : List Byte :=
  let misses := sumN ((List.range 8).map fun n => s.og (tk n 4))
  le 2 (s.ln.dlCredit.getD 0 0) ++ le 2 (s.ln.dlCredit.getD 1 0) ++ le 4 (s.ln.dlAccepted.getD 0 0) ++
    le 4 (s.ln.dlAccepted.getD 1 0) ++ le 4 s.ln.dlRejected ++ [byte (s.og (rk 0 2)), byte (s.og (rk 1 2)),
      byte (s.ln.rx.zipIdx.foldl (fun v (r, i) => if r.locked then v + 2 ^ i else v) 0), 0] ++ le 4 misses ++
    [byte s.ln.missLane, 0] ++ le 2 s.ln.missSeq

/-- DEVICE_CONTROL_FRAME (R322): an up lane sends one; it uses no credit and is never injected. -/
def execDeviceControlFrame (t lane : Nat) (s : State) : Host.Outcome State Fault Refusal :=
  let s := s.at t
  let l := s.tx lane
  if s.canSend lane = false then .next s
  else
    let p := s.controlPayload
    let f : LaneFrame := ⟨1, 0, l.lseq, 0, p.length, 511, p⟩
    let s := s.setTx lane fun l =>
      { l with lseq := (l.lseq + 1) % 65536, lastSent := s.now, due := false, control := s.now, wake := none }
    .next ((s.bump (tk lane 2)).putFrame lane f)

/-! ## Effects of received frames -/

/-- A download count or a replay miss changed: every up lane owes a control frame at once (R322). -/
def State.oweControl (s : State) : State :=
  { s with ln := { s.ln with tx := s.ln.tx.map fun l => if l.up then { l with due := true } else l } }

/-- A download frame is rejected (R330). -/
def State.rejectDownload (s : State) : State :=
  ({ s with ln := { s.ln with dlRejected := (s.ln.dlRejected + 1) % 2 ^ 32 } }).oweControl

/-- A frame arrived whole (Table 14-6). -/
def State.received (s : State) (m : Nat) : State := s.bump (rk m 5)

/-- Credit words (R320): bit 31 valid, [15:0] the new limit. -/
def State.creditFrame (s : State) (words : List Nat) : State :=
  let limit (old q : Nat) : Nat := if bit (words.getD q 0) 31 then words.getD q 0 % 65536 else old
  { s with ln := { s.ln with credit := s.ln.credit.zipIdx.map fun x => limit x.1 x.2 } }

/-- The lane a resend of a frame of lane n goes out on (R323). -/
def State.resendLane (s : State) (n q : Nat) : Nat :=
  let ups := (List.range s.lanesBonded).filter fun i => (s.tx i).up
  if (s.tx n).up then n
  else match ups.find? fun i => bit (s.queueLanes q) i with
    | some i => i
    | none => ups.headD n

/-- A replay miss charges P to cause 3 of the service ledger (Table 21-6): the sweep in progress bears the cause, and each
further miss in it charges P once more. -/
def State.chargeMiss (s : State) : State :=
  if s.mg.causes.contains 3 = false then { s with mg := { s.mg with causes := s.mg.causes ++ [3] } }
  else if s.og 0x5E0002 = 2 ∨ s.mg.intended = false then s
  else
    match s.lad.inForce with
    | none => s
    | some pl => { s with mg := { s.mg with ledger := modAt s.mg.ledger 3 (· + pl.period) } }

/-- One named frame of a replay request: resent, or a replay miss (R324). -/
def State.replayOne (s : State) (n seq : Nat) : State :=
  match ((s.tx n).replay.filter fun f => decide (f.lseq = seq)).reverse with
  | f :: _ => s.setTx (s.resendLane n f.queue) fun l => { l with resend := l.resend ++ [(f, s.now + 200)] }
  | [] =>
    let s := if n < 8 then s.bump (tk n 4) else s
    let s := if s.pw.power = .sensing then s.chargeMiss else s
    ({ s with ln := { s.ln with missLane := n, missSeq := seq } }).oweControl

/-- A replay request: entries of lane, count, first sequence; overlapping ranges are sent once. -/
def State.replayFrame (s : State) (entries : List (Nat × Nat × Nat)) : State :=
  let named := (entries.flatMap fun (n, count, first) => (List.range count).map fun k => (n, (first + k) % 65536)).eraseDups
  named.foldl (fun s x => s.replayOne x.1 x.2) s

/-- Resends that wait on a lane that is not up move to the lane that serves them now (R323). -/
def State.moveResends (s : State) : State :=
  (List.range 8).foldl (fun s n =>
    if (s.tx n).up || !((List.range s.lanesBonded).any fun i => (s.tx i).up) then s
    else
      let wait := (s.tx n).resend
      let s := s.setTx n fun l => { l with resend := [] }
      wait.foldl (fun s x => s.setTx (s.resendLane n x.1.queue) fun l => { l with resend := l.resend ++ [x] }) s) s

/-- The state of a transmit lane (Table 14-6): its exit from electrical idle shows for the 848.16 ns it takes at most. -/
def State.laneCode (s : State) (n : Nat) : Nat :=
  let l := s.tx n
  if s.lanesBonded ≤ n ∨ s.pw.serial = false then 0
  else if l.idle then 3
  else if (match l.wake with | some w => decide (s.now < w + 849) | none => false) = true then 4
  else if l.up then 2
  else 1

/-- The block a transmit lane sends between frames: none while it is off or in electrical idle (R318, R327). -/
def State.laneBlock (s : State) (n : Nat) : Option Block :=
  match s.laneCode n with
  | 0 => none
  | 3 => none
  | 4 => some trainingBlock
  | _ => some (idleBlock n s.ctl.nodeId)

/-- The lanes that the host's lock mask shows come up once a receive lane is locked (R325). -/
def State.upLanes (s : State) : State :=
  if s.ln.rx.any (·.locked) then
    (List.range s.lanesBonded).foldl (fun s n => s.setTx n fun l =>
      if bit (s.og 0x400005) n && !l.up then { l with up := true, control := s.now } else l) s
  else s

/-- A host status (R325): a lane comes up when the mask shows it and a receive lane is locked, and goes down when cleared. -/
def State.hostStatusFrame (s : State) (mask : Nat) : State :=
  let s := s.os 0x400005 (mask % 256)
  let s := (List.range s.lanesBonded).foldl (fun s n => s.setTx n fun l =>
    if bit mask n then l else { l with up := false, idle := false, wake := none }) s
  s.upLanes.moveResends

/-! ## Lock, electrical idle, adaptation -/

/-- BLOCK_LOCK (R325): a receive lane locks; the lanes that the host has locked come up with it. -/
def execBlockLock (t lane : Nat) (s : State) : Host.Outcome State Fault Refusal :=
  let s := s.at t
  if s.pw.serial = true ∧ lane < 2 then
    .next ((s.setRx lane fun r => { r with locked := true }).osBit (rk lane 1) 0 true).upLanes.moveResends
  else .next s

/-- LOCK_LOSS (R325, R326). -/
def execLockLoss (t lane : Nat) (s : State) : Host.Outcome State Fault Refusal :=
  let s := s.at t
  if lane < 2 ∧ (s.ln.rx.getD lane ⟨false, false, []⟩).locked = true then
    .next (((s.setRx lane fun r => { r with locked := false }).osBit (rk lane 1) 0 false).bump (rk lane 7))
  else .next s

/-- The lane has nothing to send and no replay pending: no frame of a queue, no control frame due at once or since 100 µs (R322). -/
def State.laneQuiet (s : State) (lane : Nat) : Bool :=
  let l := s.tx lane
  l.resend.isEmpty && (s.pickQueue lane).isNone && !l.due && decide (s.now < l.control + 100000)

/-- ELECTRICAL_IDLE_ENTRY (R327): after the delay D of 0x4000:04, unless D is 0. -/
def execElectricalIdleEntry (t lane : Nat) (s : State) : Host.Outcome State Fault Refusal :=
  let s := s.at t
  let d := s.og 0x400004
  if lane < s.lanesBonded ∧ (s.tx lane).up = true ∧ (s.tx lane).idle = false ∧ d ≠ 0 ∧ s.laneQuiet lane = true ∧
      (s.tx lane).lastSent + 1000 * d ≤ s.now then
    .next (s.setTx lane fun l => { l with idle := true })
  else .next s

/-- A lane leaves electrical idle: its transmitter turns on and trains (R327). -/
def State.wakeLane (s : State) (lane : Nat) : State :=
  if (s.tx lane).idle then s.setTx lane fun l => { l with idle := false, lastSent := s.now, wake := some s.now } else s

/-- ELECTRICAL_IDLE_EXIT (R327): a frame or a replay became due, or the delay is 0. -/
def execElectricalIdleExit (t lane : Nat) (s : State) : Host.Outcome State Fault Refusal :=
  let s := s.at t
  .next (if s.laneQuiet lane = false ∨ s.og 0x400004 = 0 then s.wakeLane lane else s)

/-- The effect of a write to 0x4000:04: with delay 0 every lane is active (R327). -/
def idleDelay (v : Nat) (s : State) : Except Nat State :=
  let s := s.os 0x400004 v
  .ok (if v = 0 then (List.range 8).foldl State.wakeLane s else s)

/-- ADAPTATION (R328): settings move in mode 0 only; the figure of merit always updates, and below 64 the lane is weak. -/
def execAdaptation (t lane ctle : Nat) (dfe : List Int) (fom : Nat) (s : State) : Host.Outcome State Fault Refusal :=
  let s := s.at t
  if s.pw.serial = true ∧ lane < 2 then
    let s := if s.og (rk lane 4) = 0 then (s.os (rk lane 3) (ctle % 16)).setRx lane fun r => { r with dfe := dfe, training := true }
      else s
    let s := s.osBit (rk lane 1) 1 (s.ln.rx.getD lane ⟨false, false, []⟩).training
    .next ((s.os (rk lane 2) (fom % 256)).osBit (rk lane 1) 2 (decide (fom % 256 < 64)))
  else .next s

/-- The serial domain powers up at an entry to Ready (R325): no lane up, no lock, no credit, numbering at 0 (R320). Download
limits start half way into the window of 32 768 (assumption log 16). -/
def State.lanesStart (s : State) : State :=
  let s := { s with
    pw := { s.pw with serial := true }
    ln := { s.ln with
      tx := rep 8 (TxLane.blank s.now), rx := rep 2 ⟨false, false, [0, 0, 0, 0, 0]⟩, credit := rep 16 0
      dlCredit := [16384, 16384], dlAccepted := [0, 0], dlRejected := 0 } }
  (s.os (rk 0 1) 0).os (rk 1 1) 0 |>.os 0x400005 0

/-- The serial domain powers down. -/
def State.lanesStop (s : State) : State :=
  let s := { s with
    pw := { s.pw with serial := false }
    ln := { s.ln with tx := rep 8 (TxLane.blank 0), rx := rep 2 ⟨false, false, [0, 0, 0, 0, 0]⟩, credit := rep 16 0 } }
  (s.os (rk 0 1) 0).os (rk 1 1) 0 |>.os 0x400005 0

end Sys2Proof.Machine
end

