-- ==== Sys2Proof/Machine/Pip.lean ====
section
/-! DEFINITION. Pip, the housekeeping converter (18), with the rail check (R438) and the per-pass energy count of the Pod
(R424) that each converter 0 pass feeds. -/

namespace Sys2Proof.Machine

open Sys2Proof

def State.setPip (s : State) (f : Pip → Pip) : State := { s with pip := f s.pip }

/-- The states of both converters (Table 18-7). -/
def State.showPip (s : State) : State :=
  let p := s.pip
  (s.os 0x480001 (if p.run0 then (if p.pend0 then 2 else 1) else 0)).os 0x480002
    (if p.paused1 then 3 else if p.run1 then (if p.pend1 then 2 else 1) else 0)

/-! ## The Pod's count of a pass (R424) -/

/-- Add a pass at VIN voltage v (µV) and current i (µA) to the energy account. -/
def State.podAdd (s : State) (v : Int) (i : Nat) : State :=
  let (since, sum, n) := s.pod.minute
  { s with pod := { s.pod with
      lastVin := v, lastAmp := i, fj := s.pod.fj + v * i, secondSum := s.pod.secondSum + v * i
      secondPasses := s.pod.secondPasses + 1, minute := (since, sum + v * i, n + 1) } }

/-- A pass that is stale or overruns repeats the last good one. -/
def State.podRepeat (s : State) : State := s.podAdd s.pod.lastVin s.pod.lastAmp

/-- VIN in µV from the code of input 18. -/
def vinUv (cv : Int) : Int := rdiv (cv * 20000000) 32768

/-- VIN current in µA from the code of input 17 and the shunt in µΩ. -/
def vinUa (ci rsh : Int) : Int := max 0 (rdiv (rdiv (ci * 50000000) 32768 * 1000) rsh)

/-- A good pass. -/
def State.podPass (s : State) (cv ci : Int) : State :=
  s.podAdd (vinUv cv) (vinUa ci (s.og 0x210012)).toNat

/-! ## Rails (R438, Table 21-2) -/

/-- The rails: index in the code list, divider, window in µV. -/
def State.rails (s : State) : List (Nat × Nat × Int × Int) :=
  let avs : Int := 1000 * s.og 0x500030
  [(12, 1, avs - 25000, avs + 25000), (13, 2, 1140000, 1260000), (14, 2, 1710000, 1890000), (15, 1, 855000, 945000),
   (16, 1, 997500, 1102500), (11, 4, 1800000, 3600000), (10, 16, 1000 * s.og 0x500015, 1000 * s.og 0x500016)]

/-- One rail after a pass: outside on 1 ms of consecutive passes, which is two, sets its bit, sends the EMCY and logs. -/
def State.railCheck (s : State) (codes : List Int) (i : Nat) : State :=
  match s.rails[i]? with
  | none => s
  | some (at_, div, lo, hi) =>
    let uv := codes.getD at_ 0 * (1250000 * div : Nat)
    let out := (decide (uv < lo * 32768) || decide (hi * 32768 < uv)) && (decide (i ≠ 2) || s.pw.photonic)
    let run := if out then s.mg.railRun.getD i 0 + 1 else 0
    let s := { s with mg := { s.mg with railRun := modAt s.mg.railRun i fun _ => run } }
    if run = 2 then
      let mv := rdiv (codes.getD at_ 0 * (1250 * div : Nat)) 32768
      let s := (s.osBit 0x500014 i true).emcy 0x3100 i (toU 32 mv)
      s.log 0x0021 2 0 (byte i :: le 2 (toU 16 mv))
    else s

/-! ## Optical monitors (Table 4-7) -/

/-- Convert the monitors of a good pass: seed, local oscillators, return averages; no light where the domain is off. -/
def State.monitors (s : State) (powers : List Int) : State :=
  let rd (i : Nat) : Int := if s.pw.photonic then powers.getD i (-9999) else -9999
  let s := s.osI 16 0x28000B (rd 0)
  s.ports.foldl (fun s p =>
    let s := s.osI 16 (pk 0x28000A p) (rd (1 + p))
    { s with opt := { s.opt with ports := modAt s.opt.ports p fun (po : PortOptics) =>
        { po with retSum := po.retSum + rd (5 + p), retCount := po.retCount + 1 } } }) s

/-! ## Triggers (R390, R394) -/

/-- Converter 1 runs in Ready and Sensing only. -/
def State.conv1Live (s : State) : Bool := decide (s.pw.power = .ready ∨ s.pw.power = .sensing)

/-- Which RTDs are off: type 0 or excitation 0. -/
def State.rtdOff (s : State) (r : Nat) : Bool := decide (s.og (okey (0x4820 + r) 1) = 0 ∨ s.og (okey (0x4820 + r) 3) = 0)

/-- A pass of converter 1 starts. -/
def State.start1 (s : State) : State :=
  (s.setPip fun p => { p with run1 := true, since1 := s.now, restarted := [], off := [], kept := [] }).showPip

/-- A trigger of converter 1: starts, waits, or is discarded. -/
def State.trigger1 (s : State) : State :=
  if s.conv1Live = false then s
  else if s.pip.run1 || s.pip.paused1 then
    if s.pip.pend1 then s.bump 0x48000C else (s.setPip fun p => { p with pend1 := true }).showPip
  else s.start1

/-- CONVERTER_0_PASS (R390, R394): the same one-deep rule; an overrun repeats the last good VIN reading. -/
def execConverter0Pass (t : Nat) (s : State) : Host.Outcome State Fault Refusal :=
  let s := s.at t
  if s.coreLive = false then .next s
  else if s.pip.run0 = false then .next (s.setPip fun p => { p with run0 := true, since0 := s.now }).showPip
  else if s.pip.pend0 = false then .next (s.setPip fun p => { p with pend0 := true }).showPip
  else
    let s := s.bump 0x480011
    .next (if s.ctl.restarting = true then s else s.podRepeat)

/-- CONVERTER_1_PASS (R394). -/
def execConverter1Pass (t c : Nat) (s : State) : Host.Outcome State Fault Refusal :=
  .next ((s.at t).hostWrite c 0x4800 7 false (le 1 1) fun s => .ok s.trigger1)

/-- CONVERTER_1_TIMER (R394). -/
def execConverter1Timer (t : Nat) (s : State) : Host.Outcome State Fault Refusal :=
  let s := s.at t
  if s.og 0x480005 = 1 ∧ s.pip.nextTimer ≤ s.now ∧ s.conv1Live = true then
    .next ((s.setPip fun p => { p with nextTimer := s.now + 1000 * s.og 0x480006 }).trigger1)
  else .next s

/-! ## Blanking (R395) -/

/-- BLANK_IN is asserted, by the polarity of 0x4800:09. -/
def State.blankIn (s : State) : Bool := s.pip.blank != bit (s.og 0x480009) 0

/-- The level of BLANK_IN or its polarity may have changed: a span begins or ends. -/
def State.blankEdge (s : State) : State :=
  let l := s.pip.blanks.filter fun x => match x.2 with | some b => decide (s.pipSince ≤ b) | none => true
  let open_ := l.any fun x => x.2.isNone
  s.setPip fun p => { p with blanks :=
    if s.blankIn && !open_ then l ++ [(s.now, none)]
    else if !s.blankIn && open_ then l.map fun x => (x.1, some (x.2.getD s.now)) else l }

/-- The mask as an instant finds it, and the changes since. -/
def keepMasks (since : Nat) : List (Nat × Nat) → List (Nat × Nat)
  | [] => []
  | m :: r => if m.1 ≤ since then [m] else m :: keepMasks since r

/-- The effect of a write to 0x4800:08. -/
def blankMask (v : Nat) (s : State) : Except Nat State :=
  .ok ((s.os 0x480008 v).setPip fun p => { p with masks := keepMasks s.pipSince ((s.now, v) :: p.masks) })

/-- BLANK_IN (R395): the pin takes a level. -/
def execBlankIn (t : Nat) (level : Bool) (s : State) : Host.Outcome State Fault Refusal :=
  .next ((s.at t).setPip fun p => { p with blank := level }).blankEdge

/-- Three intervals, each up to but not including its end, have an instant in common. -/
def meet3 (a b c : Nat × Nat) : Bool := decide (max a.1 (max b.1 c.1) < min a.2 (min b.2 c.2))

/-- The blank mask over time, newest first: from, to, value. -/
def maskSpans : Nat → List (Nat × Nat) → List (Nat × Nat × Nat)
  | _, [] => []
  | upTo, m :: r => (m.1, upTo, m.2) :: maskSpans m.1 r

/-- Blanking is true at some instant of an interval that has passed: BLANK_IN under mask bit 0, or the probe-emission window (R112)
under mask bit 1. -/
def State.blanked (s : State) (x : Nat × Nat) : Bool :=
  (maskSpans (s.now + 1) s.pip.masks).any fun (a, b, v) =>
    (bit v 0 && s.pip.blanks.any fun z => meet3 x (a, b) (z.1, z.2.getD (s.now + 1))) ||
      (bit v 1 && s.pip.emits.any fun z => meet3 x (a, b) (z.1, z.2 + 1))

/-- What blanking made of the sampling intervals begun for a result: retakes, and whether some sample was taken in spite of it
after 64 retakes in a row. -/
def State.retakes (s : State) (tries : List (Nat × Nat)) : Nat × Bool :=
  (tries.foldl (fun (st : Nat × Nat × Bool) x =>
    let (row, n, forced) := st
    if row = 64 then (0, n, true)
    else if s.blanked (x.1, x.1 + x.2) then (row + 1, n + 1, forced)
    else (0, n, forced)) (0, 0, false)).2

/-! ## RTD settings and the reference (R391, R399) -/

/-- The running pass measures RTD r. -/
def State.measures (s : State) (r : Nat) : Bool :=
  s.pip.run1 && (List.range (s.og 0x480010)).any fun e =>
    decide (bits (s.og (0x480020 + e)) 7 0 = 1) && decide (bits (s.og (0x480020 + e)) 15 8 = r)

/-- The effect of a write to an RTD's type, wiring or excitation. `phase`: the entry has not begun, is in progress, or is
done. -/
def rtdSetting (r sub v phase : Nat) (s : State) : Except Nat State :=
  let k := okey (0x4820 + r)
  let old := (r, s.og (k 1), s.og (k 2), s.og (k 3))
  let s := s.os (k sub) v
  if s.measures r = false then .ok s
  else if phase = 1 then
    if s.rtdOff r then .ok (s.setPip fun p => { p with off := p.off ++ [r] })
    else .ok ((s.bump 0x48000E).setPip fun p => { p with restarted := p.restarted ++ [r] })
  else if phase = 2 then .ok (s.setPip fun p => { p with kept := p.kept ++ [old] })
  else .ok s

/-- RTD_SETTING_WRITE (R399). -/
def execRtdSettingWrite (t c rtd sub value phase : Nat) (s : State) : Host.Outcome State Fault Refusal :=
  .next ((s.at t).hostWrite c (0x4820 + rtd) sub false (le 1 value) fun s =>
    if 1 ≤ sub ∧ sub ≤ 3 then rtdSetting rtd sub (value % 256) phase s else .error 0x06090011)

/-- Switch converter 1 to the reference its object names (R391). -/
def State.switchRef (s : State) : State :=
  let v := s.og 0x480003
  if s.pip.ref = v then s
  else s.setPip fun p => { p with ref := v, settle1 := s.now + if v = 0 then 500000 else 50000 }

/-- The effect of a write to 0x4800:03: at once when converter 1 is idle, else at the end of the pass. -/
def reference1 (v : Nat) (s : State) : Except Nat State :=
  let s := s.os 0x480003 v
  .ok (if s.pip.run1 then s else s.switchRef)

/-- CONVERTER_1_REFERENCE (R391). -/
def execConverter1Reference (t c value : Nat) (s : State) : Host.Outcome State Fault Refusal :=
  .next ((s.at t).hostWrite c 0x4800 3 false (le 1 value) (reference1 (value % 256)))

/-! ## RTD arithmetic (R396, R397) -/

/-- A mean in units of 2^-8 LSB. -/
def meanOf (l : List Int) (n : Nat) : Int := rdiv (256 * sumI l) n

/-- The lead resistance and the resistance in mΩ. -/
def rtdRes (mz ms ml g : Int) (wiring : Nat) : Int × Int :=
  (rdiv ((ml - mz) * g) (2 ^ 32), rdiv ((if wiring = 4 then ms - mz else ms - ml) * g) (2 ^ 32))

/-- 10^27 times the IEC 60751 ratio res / R0 at x mK above 0 °C. -/
def rtdCurve (x : Int) : Int :=
  10 ^ 27 + 39083 * 10 ^ 17 * x - 5775 * 10 ^ 11 * x * x -
    (if x < 0 then 4183 * (x - 100000) * x * x * x else 0)

/-- The largest x from lo up, below lo + 2^n, whose curve is at most y. -/
def rtdSearch (y : Int) : Nat → Int → Int
  | 0, lo => lo
  | n + 1, lo => if rtdCurve (lo + 2 ^ n) ≤ y then rtdSearch y n (lo + 2 ^ n) else rtdSearch y n lo

/-- The temperatures in mK (kelvin scale) within 1 mK of the exact inverse; empty outside the span of R397. -/
def rtdTemps (typ : Nat) (res : Int) : List Int :=
  let r0 : Int := if typ = 1 then 100000 else 1000000
  let y := res * 10 ^ 27 / r0
  if res ≤ 0 ∨ res * 10 ^ 27 < rtdCurve (-200000) * r0 ∨ rtdCurve 850000 * r0 < res * 10 ^ 27 then []
  else
    let x := rtdSearch y 21 (-200000)
    [x - 1, x, x + 1, x + 2].filterMap fun x =>
      if rtdCurve (x - 1) * r0 ≤ res * 10 ^ 27 ∧ res * 10 ^ 27 ≤ rtdCurve (x + 1) * r0 then some (x + 273150) else none

/-- The temperature the device writes: one of those within 1 mK, which of them is not stated. -/
def rtdTemp (typ : Nat) (res : Int) : Option Int :=
  (rtdTemps typ res)[Config.rtdPick typ res.toNat % (rtdTemps typ res).length]?

/-- The first 28 bytes of a record (R402). -/
def CalRec.bytes (c : CalRec) : List Byte :=
  le 4 0x4C414352 ++ [byte c.rtd, byte c.level, byte c.gain, 0] ++ le 4 (toU 32 c.g) ++ le 4 c.rcal ++ le 4 c.residual ++ le 8 c.time

/-- A record's check is correct. -/
def CalRec.ok (c : CalRec) : Bool := c.check == crc32 c.bytes

/-- A record is that of an RTD, level and gain. -/
def CalRec.isOf (c : CalRec) (r level gain : Nat) : Bool :=
  decide (c.rtd = r) && decide (c.level = level) && decide (c.gain = gain)

/-- Write a record with its check to a fresh slot; it reads back correctly, so the older ones of its combination are marked. -/
def State.storeCal (s : State) (c : CalRec) : State :=
  s.setPip fun p => { p with records :=
    (p.records.map fun o => if o.isOf c.rtd c.level c.gain then { o with superseded := true } else o) ++
      [{ c with check := crc32 c.bytes }] }

/-- The factory constant of an RTD, level and gain; the design value where the factory block fails its check (R402, R496). -/
def State.rtdFactory (s : State) (r level gain : Nat) : Nat :=
  if s.up.badFactory then Config.designValue 2 (64 * r + 8 * level + gain) else Config.rtdFactory r level gain

/-- The constant g of an RTD, level and gain, by the newest record whose check is correct, and whether it is calibrated (R402). -/
def State.rtdG (s : State) (r level gain : Nat) : Int × Bool :=
  match (s.pip.records.filter fun (c : CalRec) => c.isOf r level gain && c.ok).reverse with
  | c :: _ => (c.g, true)
  | [] => (s.rtdFactory r level gain, false)

/-! ## Results (R393, R398, Tables 18-4 and 18-5) -/

def codesOver (l : List Int) : Bool := l.any fun c => decide (c = 32767 ∨ c = -32768)

/-- The result flags but bits 0 and 4: settling, break, restart, uncalibrated, source off, over-range, blank forced. -/
def resultFlags (settling broken restart uncal off ovr forced : Bool) : Nat :=
  (if settling then 2 else 0) + (if broken then 4 else 0) + (if restart then 8 else 0) + (if uncal then 32 else 0) +
    (if off then 64 else 0) + (if ovr then 128 else 0) + (if forced then 256 else 0)

/-- The user result of entry e (Table 18-4). -/
def userResult (v v2 : Nat) (flags pass time : Nat) : List Byte := le 4 v ++ le 4 v2 ++ le 2 flags ++ le 2 0 ++ le 4 pass ++ le 8 time

/-- An UNSIGNED32 in mΩ; a number outside that range is not stated, so it is free. -/
def State.ohms (s : State) (v : Int) : Nat × State :=
  if 0 ≤ v ∧ v < 2 ^ 32 then (v.toNat, s) else s.draw (2 ^ 32)

/-- Device ns at an instant of the pass that ends now: T runs back at the rate in force. -/
def State.devBack (s : State) (t : Nat) : Nat :=
  let n := s.now - t
  ((s.tb.t : Int) - n * 65536 - n * s.ogI 32 0x220005 * 256 / 1000000000).toNat / 65536

/-- Put a user result with its completion time. -/
def State.putResult (s : State) (e v v2 flags time : Nat) : State :=
  s.ds (0x480030 + e) (userResult v v2 flags s.pip.passes time)

/-- A plain input (kind 0). Inputs 8 to 16 are off with the photonic domain. -/
def State.plainEntry (s : State) (e w : Nat) (rd : EntryReading) (forced : Bool) : State :=
  let off := decide (8 ≤ bits w 15 8 ∧ bits w 15 8 ≤ 16) && !s.pw.photonic
  let fl := resultFlags (decide (rd.first < s.pip.settle1)) false false false off (codesOver rd.sense && !off) forced
  let v := if off then 0 else rhe (sumI rd.sense) (bits w 39 36)
  s.putResult e (toU 32 v) 0 (fl + if fl &&& 0xD6 = 0 then 1 else 0) (s.devBack rd.last)

/-- The settings under which entry e of RTD r ran. -/
def State.rtdSet (s : State) (r : Nat) : Nat × Nat × Nat :=
  match s.pip.kept.find? fun x => decide (x.1 = r) with
  | some x => x.2
  | none => (s.og (okey (0x4820 + r) 1), s.og (okey (0x4820 + r) 2), s.og (okey (0x4820 + r) 3))

/-- An RTD entry (kind 1). -/
def State.rtdEntry (s : State) (e w : Nat) (rd : EntryReading) (forced : Bool) : State :=
  let settling := decide (rd.first < s.pip.settle1)
  let time := s.devBack rd.last
  let r := bits w 15 8
  let n := bits w 47 40 + 1
  let gain := bits w 35 33
  let k := okey (0x4820 + r)
  let (typ, wiring, exc) := s.rtdSet r
  let restart := s.pip.restarted.contains r
  let write (s : State) (res temp lead fl : Nat) : State :=
    let s := (((s.os (k 5) res).os (k 6) temp).os (k 7) lead).os (k 8) fl
    (s.os (k 9) time).putResult e res temp fl time
  if typ = 0 ∨ exc = 0 ∨ s.pip.off.contains r = true then
    write s 0 0 0 (resultFlags false false restart false true false forced)
  else if rd.broken then
    write (s.bump (k 0xA)) 0 0 0 (resultFlags settling true restart false false false forced)
  else
    let (g, cal) := s.rtdG r exc gain
    let (lead, res) := rtdRes (meanOf rd.zero n) (meanOf rd.sense n) (meanOf rd.lead n) g wiring
    let ovr := codesOver rd.zero || codesOver rd.sense || codesOver rd.lead
    let temp := rtdTemp typ res
    let fl := resultFlags settling false restart (!cal) false ovr forced
    let ok := decide (fl &&& 0xD6 = 0) && temp.isSome
    let (leadU, s) := s.ohms lead
    let (resU, s) := s.ohms res
    write s resU (toU 32 (temp.getD 0)) leadU (fl + if ok then 1 else 0)

/-- The results of the entries of a pass of converter 1, from entry e on. -/
def State.entries (s : State) : List EntryReading → Nat → State
  | [], _ => s
  | rd :: rest, e =>
    if s.og 0x480010 ≤ e then s
    else
      let w := s.og (0x480020 + e)
      let (n, forced) := s.retakes rd.tries
      let s := s.bump 0x48000D n
      let s := if bits w 7 0 = 1 then s.rtdEntry e w rd forced else s.plainEntry e w rd forced
      s.entries rest (e + 1)

/-! ## Cross-check and pass end (R400) -/

/-- The reference of converter 1 in µV. -/
def State.ref1Uv (s : State) : Nat := if s.pip.ref = 1 then s.og 0x480004 else if s.pip.ref = 2 then 1200000 else 1250000

/-- The mean of the codes of input 31 in µV. -/
def crossUv (codes : List Int) (ref : Nat) : Int := rdiv (sumI codes * ref) (16 * 32768)

/-- Set flag 4 and clear flag 0 of every result of converter 1's latest pass; none of them is valid for the reference then. -/
def State.failResults (s : State) : State :=
  let s := s.setLin fun l => { l with temps := l.temps.filter fun x => decide (x.1 < s.pip.latest1) }
  let mark (f : Nat) : Nat := clearBits (setBit f 4) 1
  (List.range (s.og 0x480010)).foldl (fun s e =>
    let w := s.og (0x480020 + e)
    let b := s.dg (0x480030 + e)
    let s := s.ds (0x480030 + e) (patch b 8 (le 2 (mark (fld b 8 2))))
    if bits w 7 0 = 1 then
      let k := okey (0x4820 + bits w 15 8) 8
      s.os k (mark (s.og k))
    else s) s

/-- Compare the latest values of both converters at the end of a pass; true when the comparison fails. -/
def State.crossCheck (s : State) : Bool × State :=
  match s.pip.cross0, s.pip.cross1 with
  | some a, some b =>
    let d := a - b
    if (s.og 0x48000A : Int) < d ∨ d < -(s.og 0x48000A : Int) then
      let s := (s.bump 0x48000B).failResults
      let s := if s.pip.failed then s else s.emcy 0x5040 0 (toU 32 d)
      (true, s.setPip fun p => { p with failed := true })
    else (false, s.setPip fun p => { p with failed := false })
  | _, _ => (false, s)

/-- The end of a converter 0 pass: the conversion of its codes waits while Walnut restarts (Table 21-1). -/
def State.end0 (s : State) (rd : PassReading) : State :=
  let (bad, s) := (s.setPip fun p => { p with cross0 := some (crossUv rd.cross 1250000) }).crossCheck
  let s :=
    if s.ctl.restarting then (if bad then s else s.monitors rd.powers)
    else
      let s := if bad then s.podRepeat else (s.monitors rd.powers).podPass (rd.codes.getD 10 0) (rd.codes.getD 9 0)
      (List.range 7).foldl (fun s i => s.railCheck rd.codes i) s
  (s.setPip fun p => { p with run0 := p.pend0, since0 := s.now, pend0 := false }).showPip

/-- Valid RTD conversions of a pass, each with the instant it completed, go to the temperature chain (R209, R400). -/
def State.validTemps (s : State) (entries : List EntryReading) : State :=
  (List.range (s.og 0x480010)).foldl (fun s e =>
    let w := s.og (0x480020 + e)
    let b := s.dg (0x480030 + e)
    match entries[e]? with
    | some rd => if bits w 7 0 = 1 ∧ bit (fld b 8 2) 0 = true then s.dtsTemp rd.last (bits w 15 8) (fldI b 4 4) else s
    | none => s) s

/-- The end of a converter 1 pass. -/
def State.end1 (s : State) (rd : PassReading) : State :=
  let s := s.setPip fun p => { p with passes := (p.passes + 1) % 2 ^ 32, latest1 := p.since1 }
  let s := s.entries rd.entries 0
  let (bad, s) := (s.setPip fun p => { p with cross1 := some (crossUv rd.cross s.ref1Uv) }).crossCheck
  let s := if bad then s else s.validTemps rd.entries
  let pend := s.pip.pend1
  let s := (s.setPip fun p => { p with run1 := false, pend1 := false }).switchRef
  (if pend then s.start1 else s).showPip

/-- PASS_END (R395, R400): every retake of the pass counts. -/
def execPassEnd (t conv : Nat) (reading : PassReading) (s : State) : Host.Outcome State Fault Refusal :=
  let s := s.at t
  let counted := s.bump 0x48000D (s.retakes reading.tries).1
  if conv = 0 then .next (if s.pip.run0 then counted.end0 reading else s)
  else .next (if s.pip.run1 = true ∧ s.pip.paused1 = false then counted.end1 reading else s)

/-- Doze discards the pass of converter 1 (R390). -/
def State.pipDoze (s : State) : State := (s.setPip fun p => { p with run1 := false, pend1 := false }).showPip

/-- An entry to Ready: passes count from it, the timer starts. -/
def State.pipReady (s : State) : State := s.setPip fun p => { p with passes := 0, nextTimer := s.now + 1000 * s.og 0x480006 }

/-! ## Calibration (R401, R402) -/

/-- The effect of a calibration start. -/
def calStart (s : State) : Except Nat State :=
  .ok ((s.setPip fun p => { p with paused1 := true }).showPip.startLong 2 30000 0 [])

/-- CALIBRATION_START (R401). -/
def execCalibrationStart (t c : Nat) (s : State) : Host.Outcome State Fault Refusal :=
  .next ((s.at t).hostWrite c 0x4830 6 false (le 1 1) calStart)

/-- The residual in ppm: the tolerance plus the largest deviation, rounded up. -/
def residual (tol rcal : Nat) (g : Int) (dr : List Int) : Nat :=
  let dev := dr.foldl (fun m d => max m (rdiv (d * g) (2 ^ 32) - rcal).natAbs) 0
  tol + ceilDiv (dev * 1000000) (max 1 rcal)

/-- The end of a calibration run: the result code of Table 18-6. -/
def State.endCalibration (s : State) (o : LongOutcome) : Nat × State :=
  let r := s.og 0x483003
  let level := s.og 0x483004
  let gain := s.og 0x483005
  let rcal := s.og 0x483001
  let mean := rdiv (sumI o.firstDr) 16
  let g := if mean = 0 then 0 else if 0 < mean then rdiv ((rcal * 2 ^ 32 : Nat)) mean else -rdiv ((rcal * 2 ^ 32 : Nat)) (-mean)
  let f : Int := s.rtdFactory r level gain
  let res := residual (s.og 0x483002) rcal g o.secondDr
  let code :=
    if o.broken then 2 else if f < 20 * (g - f) ∨ f < 20 * (f - g) then 1 else if 500 < res then 3
    else if o.flashFailed then 4 else 0
  let s := s.os 0x483007 code
  let s := if code = 2 ∨ code = 1 then s else s.os 0x483008 (res % 2 ^ 32)
  let s :=
    if code = 0 then
      (s.storeCal ⟨r, level, gain, g, rcal, res, s.devNs, 0, false⟩).os
        (0x483010 + 8 * r + level - 1) res
    else s
  let pend := s.pip.pend1
  let run := s.pip.run1
  let s := s.setPip fun p => { p with paused1 := false, pend1 := if run then p.pend1 else false }
  (code, (if pend && !run then s.start1 else s).showPip)

end Sys2Proof.Machine
end

