-- ==== Sys2Proof/Machine/Move.lean ====
section
/-! DEFINITION. How the device moves between its live power states (R94, R420, R462 to R467, R498, R521), and the service
ledger that every end of Sensing charges (R444, R445, R492). The commands that start and end these moves stand in
Machine/Power.lean, Machine/Boundary.lean and the files of what causes them. -/

namespace Sys2Proof.Machine

open Sys2Proof

def State.setPw (s : State) (f : Power → Power) : State := { s with pw := f s.pw }

def State.setMg (s : State) (f : Manage → Manage) : State := { s with mg := f s.mg }

/-! ## Availability (R444, R445, R492) -/

/-- The ledger charges nothing to a cause while injection excludes it (R492, R493). -/
def State.excluded (s : State) (c : Nat) : Bool :=
  (s.og 0x5E0002 == 2 && (c == 3 || c == 11 || c == 12)) || (s.dr.inject && c == 11)

/-- Time of intended service of n ns that bears the causes of a list. -/
def State.account (s : State) (n : Nat) (causes : List Nat) : State :=
  let kept := causes.filter fun c => !s.excluded c
  let s := s.setMg fun m => { m with ledger := kept.foldl (fun l c => modAt l c (· + n)) m.ledger }
  if (causes.any s.excluded || kept.any fun c => decide (8 ≤ c)) = true then s
  else
    s.setMg fun m => { m with inSpec := m.inSpec + n, outage := if kept.isEmpty then m.outage else m.outage + n }

/-- The outage intervals of causes that have ended are logged with their length in µs (Table 21-4, R445); those of a list go
on by n ns. -/
def State.outages (s : State) (n : Nat) (causes : List Nat) : State :=
  let ended := s.mg.openOut.filter fun x => !causes.contains x.1
  let s := ended.foldl (fun s x => s.log 0x0040 3 0 ([byte x.1] ++ le 8 (x.2 / 1000))) s
  s.setMg fun m => { m with openOut := causes.map fun c =>
    (c, n + match m.openOut.find? fun x => decide (x.1 = c) with | some x => x.2 | none => 0) }

/-- Intended time outside Sensing up to now counts by its cause (R444). -/
def State.settleIdle (s : State) : State :=
  let n := s.now - s.mg.since
  let s := s.setMg fun m => { m with since := s.now }
  if s.mg.intended = false ∨ s.pw.power = .sensing then s
  else
    let causes := match s.mg.charge with | some c => [c] | none => []
    (s.account n causes).outages n causes

/-- Intended time begins: a command to enter Sensing was accepted (R444). -/
def State.intend (s : State) : State := s.settleIdle.setMg fun m => { m with intended := true }

/-- A host command ended the intended time (R444). -/
def State.unintend (s : State) : State :=
  (s.settleIdle.outages 0 []).setMg fun m => { m with intended := false, charge := none }

/-- Time outside Sensing is charged to a cause until Sensing resumes (Table 21-6). -/
def State.chargeTo (s : State) (c : Nat) : State := s.settleIdle.setMg fun m => { m with charge := some c }

/-! ## Entering Sensing (R91, R92, R466, R521) -/

/-- What prevents an entry to Sensing, by the detail of EMCY 0x6300 (R466, Table 23-6), else the entry begun: its regions
reserved, the used ports coming up, the first boundary 120 ms from now when cold and 5 ms when warm, brought back to the
converter clock's latest edge. -/
def State.beginEntry (s : State) : Except Nat State :=
  if s.pw.library = false then .error 1
  else match s.takeRung with
    | none => .error 2
    | some r => match s.rung r with
      | none => .error 2
      | some pl => match s.reserveEntry r pl with
        | none => .error 3
        | some s' =>
          let warm := s'.pw.photonic
          let s := if warm then s' else s'.photonicOn
          let s := s.bringUp (s.usedPorts pl) (s.now + acquireTime warm)
          let first := adcEdge (s.now + if warm then 5000000 else 120000000)
          let s := s.setPw fun w => { w with
            goal := some .sensing, enterWanted := false
            entry := some ⟨warm, s.now, first, warm, false⟩ }
          .ok ({ s with sw := { s.sw with next := first, choice := none } }.loadHalf pl)

/-- The entry is judged away from a write: a cause stops the device in Ready with EMCY 0x6300 (R466). -/
def State.judgeEntry (s : State) : State :=
  match s.beginEntry with
  | .ok s' => s'
  | .error d => (s.emcy 0x6300 d 0).transitionDone

/-! ## Ready (R291, R325, R358, R390, R406, R420, R498) -/

/-- Counts that begin at each entry to Ready: refusals of the queues and captures of the buffers (Tables 13-12 and 12-1). -/
def State.readyCounts (s : State) : State :=
  let s := (List.range 16).foldl (fun s q => s.os (okey (0x4010 + q) 6) 0) s
  (List.range 8).foldl (fun s c => s.os (ck c 0x16) 0) s

/-- Doze or a first power-up is left: every block of Ready starts. -/
def State.enterReady (s : State) : State :=
  let s := { s.readyCounts with pw := { s.pw with nmtStopped := false } }
  let s := s.clockStart.emptyQueues.lanesStart.darugStart.sesameStart.pipReady
  let s := (s.setMem fun m => { m with selfRefresh := [false, false], postponed := [0, 0], used := [s.now, s.now] }).os 0x420012 0
  let s := { s with sun := { s.sun with startWanted := decide (s.og 0x3C0002 = 1), stopWanted := false, scanning := false } }
  let s := if s.mg.storeSets then
      (s.setMg fun m => { m with storeSets := false }).storeSets
        (s.opt.ports.map fun (po : PortOptics) => po.loops.map (·.setPoint))
    else s
  s.enterPower .ready

/-- Ready is left for Doze, within 1 ms (Table 20-3): the photonic and serial domains power down, queues empty, Sesame, Flax
and converter 1 stop, the Shell carries time. -/
def State.toDoze (s : State) : State :=
  let s := s.sunScan
  let s := if s.pw.photonic then s.photonicOff else s
  let s := s.emptyQueues.lanesStop.darugStop.sesameStop.flaxStop.pipDoze.clockStop
  let s := { s with sun := { s.sun with scanning := false, startWanted := false, stopWanted := false } }
  let s := s.setMem fun m => { m with selfRefresh := m.selfRefresh.map fun _ => s.pw.dramLive }
  s.enterPower .doze

/-- In Ready with nothing left to wait for: go on to the goal of the transition. -/
def State.onward (s : State) : State :=
  match s.pw.goal with
  | some .ready => s.transitionDone
  | some .doze => s.toDoze.transitionDone
  | some .dormant => s.toDoze.setPw fun w => { w with woken := false }
  | some .sensing => s.judgeEntry
  | none => s

/-! ## Ending Sensing (R94, R463 to R467) -/

/-- Move down to a state: Sensing stops at its next boundary, an entry at its first one (R467), Ready goes on at once, and in
Doze the preparation of Dormant begins (R423) or a move upwards ends. -/
def State.moveDown (s : State) (p : PowerState) : State :=
  match s.pw.power with
  | .sensing => s.setPw fun w => { w with stopWanted := true, goal := some p }
  | .ready =>
    match s.pw.entry with
    | some e => s.setPw fun w => { w with entry := some { e with stop := true }, goal := some p }
    | none =>
      let s := s.setPw fun w => { w with goal := some p, enterWanted := false }
      if s.pw.shutting then s else s.onward
  | .doze =>
    let s := s.setPw fun w => { w with goal := some p, enterWanted := false }
    match p with
    | .dormant => s.setPw fun w => { w with woken := false }
    | .ready => s
    | _ => ({ s with dr := { s.dr with waiting := false } }).transitionDone
  | .dormant => s

/-- A host command that ends Sensing (R465): managed operation ends with the transition (R428), intended time at once. -/
def State.hostEnds (s : State) : State :=
  let s := s.unintend
  if s.pw.power = .sensing ∧ s.og 0x210002 = 1 then s.setPw fun w => { w with managedClear := true } else s

/-- Move up out of Doze towards a state (R464): a member first waits for its reference (R404). -/
def State.leaveDoze (s : State) (p : PowerState) : State :=
  let s := s.setPw fun w => { w with goal := some p }
  if s.dr.refLost.isSome = true ∧ s.isHead = false then
    { s with dr := { s.dr with waiting := true, refLost := some s.now } }
  else s

end Sys2Proof.Machine
end

