-- ==== Sys2Proof/Machine/Energy.lean ====
section
/-! DEFINITION. The Pod account (R424 to R427), the projection and the choice of a rung or a duty cycle (R428 to R434). -/

namespace Sys2Proof.Machine

open Sys2Proof

def State.setPod (s : State) (f : Pod → Pod) : State := { s with pod := f s.pod }

/-! ## The balance (R424 to R427) -/

/-- One hour in ns. -/
def hourNs : Nat := 3600000000000

/-- Time of day in ns: device time plus the day offset. -/
def timeOfDay (ns off : Nat) : Nat := (ns + off * 1000000000) % (24 * hourNs)

/-- The income of an hour of day from the schedule 0x2100:06, in µW. -/
def incomeOf (schedule : List Byte) (h : Nat) : Nat := fld schedule (4 * h) 4

/-- The balance takes a value; one outside INTEGER64 is not stated, so it is free. -/
def State.putBalance (s : State) (b : Int) : State :=
  if -(2 ^ 63) ≤ b ∧ b < 2 ^ 63 then s.setPod fun p => { p with balance := b }
  else
    let (v, s) := s.draw (2 ^ 64)
    s.setPod fun p => { p with balance := toI 64 v }

/-- Credit less debit under the cap. -/
def State.post (s : State) (credit debit : Int) : State :=
  s.putBalance (min (s.og 0x210004 : Int) (s.pod.balance + credit - debit))

/-- Shell ticks of an interval of n ticks that fall into each hour of day, from a time of day on (R425). -/
def hourTicks (tod n : Nat) : List Nat :=
  let perHour := 3600 * 32768
  let full := n / (24 * perHour)
  let r := n % (24 * perHour)
  let first := min r ((hourNs - tod % hourNs) * 32768 / 1000000000)
  (List.range 25).foldl
    (fun l i => modAt l ((tod / hourNs + i) % 24) (· + (if i = 0 then first else min perHour (r - first - (i - 1) * perHour))))
    (rep 24 (full * perHour))

/-- What a Dormant interval of n ticks credits and debits (R425): schedule, source, modelled draw, time of day at its
start. -/
def dormantPost (schedule : List Byte) (source draw tod n : Nat) : Int × Int :=
  let ticks := hourTicks tod n
  let credit := sumI ((List.range 24).map fun h => rdiv (incomeOf schedule h * ticks.getD h 0) 32768)
  (if source = 0 then credit else 0, rdiv (draw * n) 32768)

/-! ## Projection (R430) -/

/-- The steps from a time of day over `hours` hours: hour of day and length in ns. -/
def projectionSteps (tod hours : Nat) : List (Nat × Nat) :=
  let e := hourNs - tod % hourNs
  (tod / hourNs % 24, e) ::
    ((List.range (hours - 1)).map fun i => ((tod / hourNs + 1 + i) % 24, hourNs)) ++
      [((tod / hourNs + hours) % 24, hourNs - e)]

/-- One step of a projection at draw d µW; the balance is in units of 10^-9 µJ. -/
def stepBalance (income : Nat → Nat) (cap d b : Int) (x : Nat × Nat) : Int :=
  min (cap * 1000000000) (b + ((income x.1 : Int) - d) * x.2)

/-- Every step of a projection ends at the floor or above. -/
def projectOk (income : Nat → Nat) (cap floor d : Int) : Int → List (Nat × Nat) → Bool
  | _, [] => true
  | b, x :: r =>
    let b' := stepBalance income cap d b x
    decide (floor * 1000000000 ≤ b') && projectOk income cap floor d b' r

/-- The income by hour that Pod reckons with: none with source 1. -/
def State.podIncome (s : State) (h : Nat) : Nat := if s.og 0x210009 = 0 then incomeOf (s.dg 0x210006) h else 0

def State.podTod (s : State) : Nat := timeOfDay s.devNs (s.og 0x210007)

/-- `ok(D)` (R430). -/
def State.drawOk (s : State) (d : Int) : Bool :=
  decide ((s.og 0x210005 : Int) ≤ s.pod.balance) &&
    projectOk s.podIncome (s.og 0x210004) (s.og 0x210005) d (s.pod.balance * 1000000000)
      (projectionSteps s.podTod (s.og 0x21000A))

/-! ## Choice (R429, R431) -/

/-- A rung Walnut may choose: runnable and at or below the derate limit (R429, R443). -/
def State.canRun (s : State) (r : Nat) : Bool :=
  decide (r ≤ s.og 0x500031) &&
    match s.planOn r with
    | some pl => (pl.pickSchedule (s.og 0x410002)).isSome
    | none => false

/-- Planned power of a rung in µW: its figure 0x2101 (R429). -/
def State.power (s : State) (r : Nat) : Nat := s.og (okey 0x2101 (r + 1))

/-- Entry energy of a rung: warm when held warm. -/
def State.entryEnergy (s : State) (r : Nat) : Nat :=
  match s.planOn r with
  | some pl => if s.og 0x210011 = 1 then pl.warmEnergy else pl.coldEnergy
  | none => 0

/-- What R431 returns. -/
inductive Chosen where
  | continuous (r : Nat)
  | duty (r a : Nat)
  | nothing
  deriving DecidableEq, Repr

/-- The lowest runnable rung. -/
def State.lowestRun (s : State) : Option Nat := (List.range 16).find? s.canRun

/-- The off-time of a cycle is long enough for Dormant (R431). -/
def State.sleepsDormant (s : State) (a : Nat) : Bool := decide (1000 * s.og 0x210010 ≤ 1000 * s.og 0x21000B - a)

/-- The draw of a duty cycle on a rung with on-time a ms. -/
def State.dutyDraw (s : State) (r a : Nat) : Int :=
  let tm := 1000 * s.og 0x21000B
  let pd := if s.sleepsDormant a then s.og 0x21000D else s.og 0x21001D
  rdiv ((1000 * (s.og 0x21000F + s.entryEnergy r) + s.power r * a + pd * (tm - a) : Nat) : Int) tm

/-- The on-time of share m of 64. -/
def State.onTime (s : State) (m : Nat) : Nat := (rdiv ((1000 * s.og 0x21000B * m : Nat) : Int) 64).toNat

/-- `choose` (R431). -/
def State.choose (s : State) : Chosen :=
  match ((List.range 16).reverse).find? fun r => s.canRun r && s.drawOk (s.power r) with
  | some r => .continuous r
  | none =>
    match s.lowestRun with
    | none => .nothing
    | some r =>
      if s.og 0x210002 = 1 ∧ s.og 0x21000B ≠ 0 then
        match ((List.range 63).map (63 - ·)).find? fun m => s.drawOk (s.dutyDraw r (s.onTime m)) with
        | some m => .duty r (s.onTime m)
        | none => .nothing
      else .nothing

/-! ## Acting on a choice (R432 to R434) -/

/-- The first whole minute, within `fuel` minutes, at which a Dormant-only projection reaches a target: its distance in ns. -/
def findMinute (income : Nat → Nat) (cap d target : Int) : Nat → Int → Nat → Nat → Option Nat
  | 0, _, _, _ => none
  | fuel + 1, b, tod, far =>
    let n := 60000000000 - tod % 60000000000
    let b := stepBalance income cap d b (tod / hourNs % 24, n)
    if target ≤ b then some (far + n) else findMinute income cap d target fuel b (tod + n) (far + n)

/-- The wake instant of R433 in device ns. -/
def State.sleepUntil (s : State) : Nat :=
  let need : Int := match s.lowestRun with
    | some r =>
      64 * ((s.og 0x210005 : Int) + s.og 0x21000F + s.entryEnergy r) + ((s.power r * s.og 0x21000B : Nat) : Int)
    | none => 64 * ((s.og 0x210005 : Int) + s.og 0x21000F)
  -- the target in units of 10^-9 µJ
  let target := -((-(need * 1000000000)) / 64)
  let h := s.og 0x21000A
  match findMinute s.podIncome (s.og 0x210004) (s.og 0x21000D) target (60 * h) (s.pod.balance * 1000000000) s.podTod 0 with
  | some n => s.devNs + n
  | none => s.devNs + h * hourNs

/-- Sleep as in R433: end Sensing, enter Dormant with the wake time of R433. -/
def State.podSleep (s : State) : State :=
  if s.pw.goal = some .dormant then s
  else
    let s := (s.os 0x210017 s.sleepUntil).setPod fun p => { p with cycle := none }
    (if s.og 0x210002 = 1 ∧ s.pod.exhausted = false then s.unintend else s.settleIdle).moveDown .dormant

/-- Request a rung of Walnut's own choice as a switch (R431, R58). -/
def State.ownSwitch (s : State) (r : Nat) : State :=
  match s.lad.switch with
  | some w => if w.rung = r then s else s.askSwitch r none
  | none => if s.og 0x240001 = r then s else s.askSwitch r none

/-- Managed operation enters Sensing (R428). -/
def State.managedEnter (s : State) : State :=
  if s.inTransition ∨ s.ctl.longOp.isSome then s
  else
    match s.pw.power with
    | .ready => s.intend.judgeEntry
    | .doze => s.intend.leaveDoze .sensing
    | _ => s

/-- A duty cycle in progress: its w0 plus the cycle period has not come (R432). -/
def State.inCycle (s : State) : Bool :=
  match s.pod.cycle with
  | some (w0, _, _) => decide (s.now < w0 + 1000000000 * s.og 0x21000B)
  | none => false

/-- Pod chooses and acts (R431 to R433). -/
def State.applyChoice (s : State) : State :=
  let managed := decide (s.og 0x210002 = 1)
  match s.choose with
  | .continuous r =>
    let s := ((s.os 0x210015 r).os 0x210016 0).os 0x210017 0
    let s := (s.setPod fun p => { p with cycle := none }).ownSwitch r
    if managed then s.managedEnter else s
  | .duty r a =>
    let s := (s.os 0x210015 r).ownSwitch r
    if s.inCycle then s
    else
      let w0 := s.pod.wokeAt.getD s.now
      let s := (s.os 0x210016 a).os 0x210017 (s.devNs - (s.now - w0) + 1000000000 * s.og 0x21000B)
      (s.setPod fun p => { p with cycle := some (w0, a, none) }).managedEnter
  | .nothing =>
    if managed then s.podSleep
    else match s.lowestRun with
      | some r => (s.os 0x210015 r).ownSwitch r
      | none => s

/-- Walnut re-chooses where Pod acts and the ladder mode is automatic (R428). -/
def State.rechoose (s : State) : State :=
  if s.og 0x210001 = 1 ∧ s.og 0x240004 = 1 ∧ s.ctl.restarting = false ∧ s.coreLive = true ∧ s.mg.critical = false then s.applyChoice
  else s

/-- The balance in mJ as the argument of an EMCY, saturated to 32 bits. -/
def balanceArg (b : Int) : Nat := toU 32 (satS 32 (rdiv b 1000))

/-- Crossings of the floor and exhaustion after a change of the balance (R434): flags 1 and 2, one EMCY each, the sleep of
R433. -/
def State.podJudge (s : State) : State :=
  let act := decide (s.og 0x210001 = 1)
  let below := act && decide (s.pod.balance < s.og 0x210005)
  let out := act && decide (s.pod.balance ≤ 0)
  let wasBelow := s.pod.floorCrossed
  let wasOut := s.pod.exhausted
  let s := ((s.osBit 0x210014 2 below).osBit 0x210014 1 out).setPod fun p => { p with floorCrossed := below, exhausted := out }
  let s := if below && !wasBelow then s.emcy 0xFF11 0 (balanceArg s.pod.balance) else s
  let s := if out && !wasOut then (s.emcy 0xFF10 0 (balanceArg s.pod.balance)).chargeTo 9 else s
  if out || (below && decide (s.og 0x210002 = 1)) then s.podSleep
  else if below != wasBelow then s.rechoose
  else s

/-! ## Commands -/

/-- The mean in µW of passes that sum to so many pW. -/
def meanPower (sum : Int) (n : Nat) : Nat := min (2 ^ 32 - 1) (rdiv sum ((n * 1000000 : Nat) : Int)).toNat

/-- The debit and credit of one second (R424). -/
def State.podTick (s : State) : State :=
  let debit := s.pod.fj / 1000000000
  let credit := if s.og 0x210009 = 0 then incomeOf (s.dg 0x210006) (s.podTod / hourNs) else 0
  let mean :=
    if s.pod.secondPasses = 0 then s.og 0x210013
    else meanPower s.pod.secondSum s.pod.secondPasses
  let s := s.os 0x210013 mean
  let s := if s.pw.power = .doze then s.os 0x21001D mean else s
  let s := s.setPod fun p => { p with fj := p.fj % 1000000000, secondSum := 0, secondPasses := 0 }
  s.post credit debit

/-- POD_SECOND (R424). -/
def execPodSecond (t : Nat) (s : State) : Host.Outcome State Fault Refusal :=
  let s := s.at t
  if s.coreLive = true ∧ s.ctl.restarting = false then .next s.podTick.podJudge else .next s

/-- The effect of a write to 0x2100:08 (R424). -/
def incomeCredit (uj : Nat) (s : State) : Except Nat State := .ok (s.post uj 0).podJudge.rechoose

/-- INCOME_CREDIT (R424). -/
def execIncomeCredit (t c uj : Nat) (s : State) : Host.Outcome State Fault Refusal :=
  .next ((s.at t).hostWrite c 0x2100 8 false (le 8 uj) (incomeCredit (uj % 2 ^ 64)))

/-- The effect of a write to 0x2100:03 (R426). -/
def balanceWrite (uj : Int) (s : State) : Except Nat State :=
  .ok (((s.putBalance uj).osBit 0x210014 3 false).setPod fun p => { p with unknown := false }).podJudge.rechoose

/-- BALANCE_WRITE (R426). -/
def execBalanceWrite (t c : Nat) (uj : Int) (s : State) : Host.Outcome State Fault Refusal :=
  .next ((s.at t).hostWrite c 0x2100 3 false (le 8 (toU 64 uj)) (balanceWrite (toI 64 (toU 64 uj))))

/-- The effect of a write to 0x2100:02 (R428). -/
def managedOperation (v : Nat) (s : State) : Except Nat State :=
  require (decide (v = 0 ∨ s.og 0x240004 = 1)) 0x08000020 <|
    .ok ((s.os 0x210002 v).osBit 0x210014 0 (decide (v = 1))).rechoose

/-- MANAGED_OPERATION (R428). -/
def execManagedOperation (t c : Nat) (s : State) : Host.Outcome State Fault Refusal :=
  .next ((s.at t).hostWrite c 0x2100 2 false (le 1 1) (managedOperation 1))

/-- The effect of a write to hold warm (R420). -/
def holdWarm (v : Nat) (s : State) : Except Nat State :=
  let s := s.os 0x210011 v
  if s.pw.power = .ready ∧ s.pw.entry = none ∧ s.inTransition = false then
    if v = 1 ∧ s.pw.photonic = false then .ok s.warmUp.rechoose
    else if v = 0 ∧ s.pw.photonic = true then .ok s.photonicOff.rechoose
    else .ok s.rechoose
  else .ok s.rechoose

/-- HOLD_WARM_ON (R420). -/
def execHoldWarmOn (t c : Nat) (s : State) : Host.Outcome State Fault Refusal :=
  .next ((s.at t).hostWrite c 0x2100 0x11 false (le 1 1) (holdWarm 1))

/-- HOLD_WARM_OFF (R420). -/
def execHoldWarmOff (t c : Nat) (s : State) : Host.Outcome State Fault Refusal :=
  .next ((s.at t).hostWrite c 0x2100 0x11 false (le 1 0) (holdWarm 0))

/-- RUNG_CHOICE (R431): every 60 s, and at the wake of a cycle that sleeps in Doze. -/
def execRungChoice (t : Nat) (s : State) : Host.Outcome State Fault Refusal := .next (s.at t).rechoose

/-- ENERGY_REFINE (R429): a whole minute of Sensing on the active rung is over; its measured mean is that of its converter passes, and
`mean`, in µW, where none of them was counted. -/
def execEnergyRefine (t mean : Nat) (s : State) : Host.Outcome State Fault Refusal :=
  let s := s.at t
  let (since, sum, n) := s.pod.minute
  if s.pw.power = .sensing ∧ s.ctl.restarting = false ∧ since + 60000000000 ≤ s.now then
    let r := s.og 0x240001
    let p : Int := s.power r
    let m : Int := if n = 0 then mean else meanPower sum n
    .next ((s.os (okey 0x2101 (r + 1)) (toU 32 (p + rhe (m - p) 4))).setPod fun q => { q with minute := (since + 60000000000, 0, 0) })
  else .next s

/-- ON_TIME_END (R432): the on-time of a duty cycle, counted from its first boundary, is over. -/
def execOnTimeEnd (t : Nat) (s : State) : Host.Outcome State Fault Refusal :=
  let s := s.at t
  match s.pod.cycle with
  | some (_, a, some first) =>
    if s.pw.power = .sensing ∧ s.pw.stopWanted = false ∧ first + 1000000 * a ≤ s.now then
      .next (s.unintend.moveDown (if s.sleepsDormant a then .dormant else .doze))
    else .next s
  | _ => .next s

end Sys2Proof.Machine
end

