-- ==== Sys2Proof/Machine/Download.lean ====
section
/-! DEFINITION. Downloads: the plan install buffer and the image download (R48, R329, R330, R451, R452). -/

namespace Sys2Proof.Machine

open Sys2Proof

def State.setUp (s : State) (f : Update → Update) : State := { s with up := f s.up }

/-- Recovery mode (R456). -/
def State.recovery (s : State) : Bool := s.og 0x500001 == 1

/-- The kind of the download in hand is the data path. -/
def State.kindData (s : State) : Bool := s.up.kind == 2 && !s.recovery

/-- The area a download goes into: the inactive one of its kind; in recovery mode the Walnut area of slot A. -/
def State.targetArea (s : State) : Nat :=
  if s.recovery then 0 else areaIx s.kindData (s.bootControl.slot s.kindData + 1)

/-- The image download takes bytes: it is open, or a close found segments wrong (R452). -/
def State.downloadOpen (s : State) : Bool := s.og 0x580005 == 1 || s.og 0x580005 == 3

/-- A segment of 64 KiB of flash bytes erased. -/
def eraseSegment (b : List Byte) (k : Nat) : List Byte :=
  b.zipIdx.map fun x => if x.2 / 65536 = k then 0xFF else x.1

/-- Program bytes from an offset: an erased byte takes the new value, a byte that already holds it stays; what another byte
becomes is not stated (`noise`). -/
def programBytes (b : List Byte) (off : Nat) (data noise : List Byte) : List Byte :=
  let b := b ++ rep (off + data.length - b.length) 0xFF
  let old := sliceB b off data.length
  patch b off ((List.range data.length).map fun i =>
    let o := old.getD i 0xFF
    let n := data.getD i 0
    if o = 0xFF ∨ o = n then n else noise.getD i 0)

/-- Program image bytes; each segment is erased before its first byte (R451). -/
def State.programImage (s : State) (off : Nat) (data : List Byte) : State :=
  if data.isEmpty then s
  else
    let segs := (List.range ((off + data.length - 1) / 65536 + 1)).filter fun k => decide (off / 65536 ≤ k)
    let new := segs.filter fun k => !s.up.erased.contains k
    let b := new.foldl eraseSegment (s.area s.targetArea)
    let (seed, s) := s.draw (256 ^ data.length)
    let s := s.setArea s.targetArea (programBytes b off data (le data.length seed))
    s.setUp fun u => { u with erased := u.erased ++ new }

/-- A download frame, its target and bytes (R329, R330): rejected and counted without credit, beyond the target, for the
buffer while an install runs, for the image while its download is not open. A frame with credit moves the limit on by one
(assumption log 16). -/
def State.downloadFrame (s : State) (target seq off : Nat) (data : List Byte) : State :=
  let room := (s.ln.dlCredit.getD target 0 + 65536 - seq % 65536) % 65536
  let installing := match s.ctl.longOp with | some o => o.code == 1 | none => false
  let credit := decide (target ≤ 1) && decide (1 ≤ room ∧ room ≤ 32768)
  let fine := credit && decide (data.length ≤ 492) &&
    (if target = 0 then
      s.pw.dramLive && !s.recovery && !installing && decide (off + data.length ≤ 8 * mib)
     else s.downloadOpen && decide (off + data.length ≤ s.up.length))
  let s := if credit then { s with ln := { s.ln with dlCredit := modAt s.ln.dlCredit target fun v => (v + 1) % 65536 } } else s
  if fine = false then s.rejectDownload
  else
    let s := ({ s with ln := { s.ln with dlAccepted := modAt s.ln.dlAccepted target fun v => (v + 1) % 2 ^ 32 } }).oweControl
    if target = 0 then s.dramWrite (s.regionBase .install + off) data else s.programImage off data

/-- The effect of opening a download (R451): kind, length, within the area, and checks are those of this moment. -/
def downloadOpen (s : State) : Except Nat State :=
  require (decide (s.og 0x580005 = 0 ∨ s.og 0x580005 = 2) && (s.recovery || (!s.inTrial false && !s.inTrial true))) 0x08000020 <|
    let words := s.dg 0x580004
    .ok (((s.os 0x580005 1).ds 0x580006 (rep 32 0)).setUp fun u => { u with
      kind := s.og 0x580001
      length := min (s.og 0x580003) (areaSize (s.og 0x580001 == 2 && !s.recovery))
      checks := (List.range (words.length / 4)).map fun i => fld words (4 * i) 4
      erased := [], prepared := none })

/-- DOWNLOAD_OPEN (R451). -/
def execDownloadOpen (t c : Nat) (s : State) : Host.Outcome State Fault Refusal :=
  .next ((s.at t).hostWrite c 0x5800 2 false (le 1 1) downloadOpen)

/-- The effect of a close: the read-back begins and ends within 1 s (R452). -/
def downloadClose (s : State) : Except Nat State :=
  require s.downloadOpen 0x08000020 <| .ok (s.os 0x580005 4)

/-- DOWNLOAD_CLOSE (R452). -/
def execDownloadClose (t c : Nat) (s : State) : Host.Outcome State Fault Refusal :=
  .next ((s.at t).hostWrite c 0x5800 2 false (le 1 2) downloadClose)

/-- The effect of an abandon. -/
def downloadAbandon (s : State) : Except Nat State :=
  .ok ((s.os 0x580005 0).setUp fun u => { u with checks := [], erased := [], prepared := none })

/-- DOWNLOAD_ABANDON (R452). -/
def execDownloadAbandon (t c : Nat) (s : State) : Host.Outcome State Fault Refusal :=
  .next ((s.at t).hostWrite c 0x5800 2 false (le 1 3) downloadAbandon)

/-- The effect of image bytes over CAN FD at the offset of 0x5800:07 (R451). -/
def canFdData (data : List Byte) (s : State) : Except Nat State :=
  require s.downloadOpen 0x08000020 <|
    require (decide (s.og 0x580007 + data.length ≤ s.up.length)) 0x06090030 <| .ok (s.programImage (s.og 0x580007) data)

/-- CAN_FD_DATA (R451). -/
def execCanFdData (t c : Nat) (data : List Byte) (s : State) : Host.Outcome State Fault Refusal :=
  .next ((s.at t).hostWrite c 0x5800 8 true data (canFdData data))

/-- The bytes of a segment of an image of length n; flash that nothing has programmed reads erased. -/
def segmentBytes (b : List Byte) (n k : Nat) : List Byte :=
  ((b ++ rep (n - b.length) 0xFF).take n |>.drop (65536 * k)).take 65536

/-- DOWNLOAD_VERIFY_END (R452): every segment is read back and compared with its CRC-32C. -/
def execDownloadVerifyEnd (t : Nat) (s : State) : Host.Outcome State Fault Refusal :=
  let s := s.at t
  if s.og 0x580005 ≠ 4 then .next s
  else
    let n := s.up.length
    let b := s.area s.targetArea
    let bad := (List.range (ceilDiv n 65536)).filter fun k => !(s.up.checks[k]? == some (crc32c (segmentBytes b n k)))
    let mask := bad.foldl (fun v k => setBit v k) 0
    let s := (s.os 0x580005 (if bad.isEmpty then 2 else 3)).ds 0x580006 (le 32 mask)
    .next ((s.os 0x58000C (if bad.isEmpty then 0 else 1)).setUp fun u => { u with erased := u.erased.filter fun k => !bad.contains k })

end Sys2Proof.Machine
end

