-- ==== Sys2Proof/Machine/RxFrames.lean ====
section
/-! DEFINITION. What the host sends on the receive lanes (R320, R323, R325, R326, R330), and the injection that may touch it
(Table 25-1, R489). -/

namespace Sys2Proof.Machine

open Sys2Proof

/-- A host frame on receive lane m has its effect; one that fails its CRC or carries an unknown kind is dropped and counted
(R326), and counts as rejected where it came as a download frame (R330). -/
def State.rxProcess (s : State) (m : Nat) (f : RxFrame) : State :=
  match f with
  | .credit words => (s.received m).creditFrame words
  | .replay entries => (s.received m).replayFrame entries
  | .status mask => (s.received m).hostStatusFrame mask
  | .download target seq off data => (s.received m).downloadFrame target seq off data
  | .bad download => if download then (s.bump (rk m 6)).rejectDownload else s.bump (rk m 6)

/-- The frame as it arrives with a failing CRC. -/
def RxFrame.corrupt : RxFrame → RxFrame
  | .download _ _ _ _ => .bad true
  | .bad d => .bad d
  | _ => .bad false

/-- Held receive frames whose deadline a predicate names are processed (R487, R489). -/
def State.releaseRx (s : State) (due : Nat → Bool) : State :=
  let out := s.inj.heldRx.filter fun h => due h.2.2
  let s := { s with inj := { s.inj with heldRx := s.inj.heldRx.filter fun h => !due h.2.2 } }
  out.foldl (fun s h => s.rxProcess h.1 h.2.1) s

/-- A host frame arrives on a locked receive lane: a partner of a held frame passes and the held one follows; else it is a
candidate of injection on link 1 (R488, R489). -/
def State.rxFrame (s : State) (m : Nat) (f : RxFrame) : State :=
  let s := s.releaseRx fun d => decide (d ≤ s.now)
  if s.pw.serial = false ∨ 2 ≤ m ∨ (s.ln.rx.getD m ⟨false, false, []⟩).locked = false then s
  else
    match s.inj.heldRx.find? fun h => decide (h.1 = m) with
    | some (_, g, _) =>
      let s := (s.rxProcess m f).rxProcess m g
      { s with inj := { s.inj with heldRx := s.inj.heldRx.filter fun h => decide (h.1 ≠ m) } }
    | none =>
      match s.candidate 1 with
      | (some 1, s) => s
      | (some 2, s) => s.rxProcess m f.corrupt
      | (some 3, s) => { s with inj := { s.inj with heldRx := s.inj.heldRx ++ [(m, f, s.now + 10000)] } }
      | (_, s) => s.rxProcess m f

/-- CREDIT (R320). -/
def execCredit (t lane : Nat) (words : List Nat) (s : State) : Host.Outcome State Fault Refusal :=
  .next ((s.at t).rxFrame lane (.credit words))

/-- REPLAY_REQUEST (R323, R324). -/
def execReplayRequest (t lane : Nat) (entries : List (Nat × Nat × Nat)) (s : State) : Host.Outcome State Fault Refusal :=
  .next ((s.at t).rxFrame lane (.replay entries))

/-- HOST_STATUS (R325). -/
def execHostStatus (t lane mask : Nat) (s : State) : Host.Outcome State Fault Refusal :=
  .next ((s.at t).rxFrame lane (.status mask))

/-- DOWNLOAD (R329, R330). -/
def execDownload (t lane target seq offset : Nat) (data : List Byte) (s : State) : Host.Outcome State Fault Refusal :=
  .next ((s.at t).rxFrame lane (.download target seq offset data))

/-- HOST_FRAME_DROP (R326): a frame that fails its CRC or carries an unknown kind. -/
def execHostFrameDrop (t : Nat) (lane : Dropped) (s : State) : Host.Outcome State Fault Refusal :=
  .next ((s.at t).rxFrame lane.lane (.bad lane.download))

end Sys2Proof.Machine
end

