-- ==== Sys2Proof/Machine/Inject.lean ====
section
/-! DEFINITION. Control of fault injection (R484 to R490, R493). What injection does to a frame or a message stands in
Machine/Link.lean and Machine/RxFrames.lean. -/

namespace Sys2Proof.Machine

open Sys2Proof

/-- Injection returns to state 0 (R487): held frames take their place, the defaults return, the count stays. -/
def State.injectLock (s : State) : State :=
  let s := if s.og 0x5E0002 = 2 then s.injectTell false else s
  let s := (s.releaseHeld fun _ => true).releaseRx fun _ => true
  ((((s.os 0x5E0002 0).os 0x5E0003 0).os 0x5E0004 1).os 0x5E0005 0).os 0x5E0006 0

/-- The effect of a write to 0x5E00:01 (R485). -/
def unlock (v : Nat) (s : State) : Except Nat State :=
  require (decide (v = 0xC4A5)) 0x06090030 <| .ok (if s.og 0x5E0002 = 0 then s.os 0x5E0002 1 else s)

/-- UNLOCK (R485). -/
def execUnlock (t c : Nat) (s : State) : Host.Outcome State Fault Refusal :=
  .next ((s.at t).hostWrite c 0x5E00 1 false (le 2 0xC4A5) (unlock 0xC4A5))

/-- The effect of a start (R486, R490). -/
def injectionStart (s : State) : Except Nat State :=
  require (decide (s.og 0x5E0002 = 1)) 0x08000020 <|
    .ok ({ s.os 0x5E0002 2 with inj := { s.inj with x := 0x2545F491 } }.injectTell true)

/-- INJECTION_START (R486). -/
def execInjectionStart (t c : Nat) (s : State) : Host.Outcome State Fault Refusal :=
  .next ((s.at t).hostWrite c 0x5E00 7 false (le 1 1) injectionStart)

/-- The effect of a stop (R486); a stop in state 1 has none, and in state 0 it is refused (R484). -/
def injectionStop (s : State) : Except Nat State :=
  require (decide (s.og 0x5E0002 ≠ 0)) 0x08000020 <|
    .ok (if s.og 0x5E0002 = 2 then (s.os 0x5E0002 1).injectTell false else s)

/-- INJECTION_STOP (R486). -/
def execInjectionStop (t c : Nat) (s : State) : Host.Outcome State Fault Refusal :=
  .next ((s.at t).hostWrite c 0x5E00 7 false (le 1 2) injectionStop)

/-- REORDER_HOLD_TIMEOUT (R489): 10 µs without a partner a held frame goes out alone. -/
def execReorderHoldTimeout (t : Nat) (s : State) : Host.Outcome State Fault Refusal :=
  let s := s.at t
  .next (s.releaseDue.releaseRx fun d => decide (d ≤ s.now))

end Sys2Proof.Machine
end

