-- ==== Sys2Proof/Machine/Manage.lean ====
section
/-! DEFINITION. Walnut's supervision: restarts (R435, R436, R455), die temperatures (R437), the log (R439, R440), the Acorn
monitors and margin actions (R441 to R443, R508), the ledger's reset (R445). -/

namespace Sys2Proof.Machine

open Sys2Proof

/-! ## Choosing an image at a boot (R455, R457, R459) -/

/-- The settings area in use: the confirmed one, or the other during a Walnut trial (R457). -/
def State.settingsArea (s : State) : Nat :=
  let b := s.bootControl
  if s.inTrial false then (b.settingsArea + 1) % 2 else b.settingsArea % 2

/-- The stored objects of a settings area. -/
def State.settings (s : State) (area : Nat) : List (Nat × Nat) := if area = 0 then s.pw.settings0 else s.pw.settings1

def State.putSettings (s : State) (area : Nat) (l : List (Nat × Nat)) : State :=
  s.setPw fun w => if area = 0 then { w with settings0 := l } else { w with settings1 := l }

/-- Store an object in the settings area in use. -/
def State.storeSetting (s : State) (k v : Nat) : State :=
  s.putSettings s.settingsArea (sput (fun _ => 0) (s.settings s.settingsArea) k (v + 1))

/-- The stored value of an object, its value as stored at manufacture where none was written since. -/
def State.stored (s : State) (k : Nat) : Nat :=
  match sget (fun _ => 0) (s.settings s.settingsArea) k with
  | 0 => odflt k
  | n + 1 => n

/-- Boot of a kind (R455): a trial is counted first, and at its first boot a Walnut trial takes a copy of the confirmed
settings area (R457); an image that fails its check, or a trial beyond three boots, falls back to the other slot. A trial
whose confirmation raised the counter beyond the other slot's image is confirmed (R459). -/
def State.bootKind (s : State) (data : Bool) : Bool × State :=
  let b := s.bootControl
  let slot := b.slot data
  let this := areaIx data slot
  let other := areaIx data (slot + 1)
  let half := b.trial data != 0xFF && s.areaOk data this && decide (s.imgSecurity other < s.rollback data)
  if half then
    (true, s.writeBoot fun b =>
      let b := b.set data slot 0xFF
      if data then b else { b with settingsArea := (b.settingsArea + 1) % 2 })
  else
    let count := min 0xFE (b.trial data + 1)
    let s := if b.trial data = 0xFF then s else
        let s := s.writeBoot fun b => b.set data slot count
        if data = false ∧ count = 1 then s.putSettings ((b.settingsArea + 1) % 2) (s.settings (b.settingsArea % 2)) else s
    let good := s.areaOk data this && (b.trial data == 0xFF || decide (count ≤ 3))
    if good then (true, s)
    else if s.areaOk data other then
      (true, (s.writeBoot fun b => b.set data ((slot + 1) % 2) 0xFF).os 0x58000C 10)
    else (s.areaOk data this, s)

/-- ROM boots a Walnut image, or recovery mode begins; where it resumes, its image failed its check (R455, R456). -/
def State.bootWalnut (s : State) : State :=
  let again := s.recovery
  let (ok, s) := s.bootKind false
  if ok then s.os 0x500001 0
  else
    let s := s.os 0x500001 1
    if again then s.os 0x58000C 6 else s

/-- The data-path library is loaded from the active image, or is absent (R455). -/
def State.loadLibrary (s : State) : State :=
  let (ok, s) := s.bootKind true
  s.setPw fun w => { w with library := ok }

/-! ## Walnut restart (R436) -/

/-- The session ends: no client, no transfer, the open stage set is gone (R468). -/
def State.endSession (s : State) : State :=
  { s.os 0x200009 0 with
    ctl := { s.ctl with transfer := none, lease := 0 }
    lad := { s.lad with stage := none } }

/-- A long operation ends with its failure result, one the spec gives no code: free and not 0. -/
def State.failLong (s : State) : State :=
  match s.ctl.longOp with
  | none => s
  | some o =>
    let (d, s) := s.draw 255
    let code := d + 1
    let s :=
      if o.code = 1 then s.os 0x240009 code
      else if o.code = 2 then
        (s.os 0x483007 code).setPip fun p => { p with paused1 := false, pend1 := if p.run1 then p.pend1 else false }
      else if o.code = 3 then (s.endBiasSearch o.arg [] false).2
      else if o.code = 5 then s.os 0x58000C code
      else s
    (s.endLong code).showPip

/-- A prepare that runs in Sensing, or for a chain. -/
def State.preparing (s : State) : Bool :=
  match s.lad.switch with
  | some w => !w.prepared && (decide (s.pw.power = .sensing) || w.chain.isSome)
  | none => false

/-- Walnut stops running, for a cause of 0x5000:03. -/
def State.restartWalnut (s : State) (cause : Nat) : State :=
  if s.coreLive = false ∨ s.ctl.restarting = true then s
  else
    let s := s.failLong.endSession
    let s := if s.preparing then s.failPrepare else s
    let s := s.injectLock.os 0x500003 cause
    { s with ctl := { s.ctl with restarting := true, restartAt := s.now } }

/-- WATCHDOG (R436). -/
def execWatchdog (t : Nat) (s : State) : Host.Outcome State Fault Refusal := .next ((s.at t).restartWalnut 1)

/-- RESTART_WALNUT (R436). -/
def execRestartWalnut (t c : Nat) (s : State) : Host.Outcome State Fault Refusal :=
  .next ((s.at t).hostWrite c 0x5000 5 false (le 1 1) fun s => .ok (s.restartWalnut 2))

/-- WALNUT_EXCEPTION (R436). -/
def execWalnutException (t : Nat) (s : State) : Host.Outcome State Fault Refusal := .next ((s.at t).restartWalnut 4)

/-- The node-ID after a restart into or out of recovery mode (R456). -/
def State.bootNode (s : State) : State :=
  let id := s.nodeOf s.position
  { s.os 0x4C0002 id with ctl := { s.ctl with nodeId := id } }

/-- Walnut runs again: ROM has chosen its image; Pod is posted for the interval at the last measured power; EMCY, log, count. -/
def State.walnutBack (s : State) : State :=
  let n := s.now - s.ctl.restartAt
  let s := ({ s with ctl := { s.ctl with restarting := false } }).bootWalnut.bootNode
  let income := s.podIncome (s.podTod / hourNs)
  let s := s.post (rdiv ((income * n : Nat) : Int) 1000000000) (rdiv ((s.og 0x210013 * n : Nat) : Int) 1000000000)
  let s := s.emcy 0x6100 (s.og 0x500003) (s.og 0x500002)
  let s := (s.log 0x0001 1 0 [byte (s.og 0x500003)]).bump 0x500002
  let s := if s.recovery ∧ s.pw.power ≠ .doze then s.moveDown .ready
    else if s.recovery then s.lanesStart else s
  s.podJudge

/-- WALNUT_RESTART_DONE (R436). -/
def execWalnutRestartDone (t : Nat) (s : State) : Host.Outcome State Fault Refusal :=
  let s := s.at t
  if s.ctl.restarting = true ∧ s.coreLive = true then .next s.walnutBack else .next s

/-! ## Temperature (R437) -/

/-- The hottest sensor and its reading. -/
def hottest (temps : List Int) : Nat × Int :=
  temps.zipIdx.foldl (fun (b : Nat × Int) x => if b.2 < x.1 then (x.2, x.1) else b) (0, temps.headD 0)

/-- Warning level: flag 0 of 0x5000:13. -/
def State.warnTemp (s : State) (temps : List Int) : State :=
  let th := s.ogI 16 0x500011
  let hot := hottest temps
  if th ≤ hot.2 then
    if bit (s.og 0x500013) 0 then s
    else
      ((s.osBit 0x500013 0 true).emcy 0x4200 hot.1 (toU 32 hot.2)).log 0x0020 2 0 ([byte hot.1] ++ le 2 (toU 16 hot.2))
  else if hot.2 ≤ th - 500 then s.osBit 0x500013 0 false
  else s

/-- Critical level: Sensing ends and the device enters Doze; ten seconds below 115 °C open the way out again. -/
def State.criticalTemp (s : State) (temps : List Int) : State :=
  let hot := hottest temps
  if 12500 ≤ hot.2 then
    let first := !s.mg.critical
    let s := (s.osBit 0x500013 1 true).setMg fun m => { m with critical := true, coolSince := none }
    if first then
      let s := (s.emcy 0x4210 hot.1 (toU 32 hot.2)).log 0x0020 0 0 ([byte hot.1] ++ le 2 (toU 16 hot.2))
      if s.pw.power = .doze then s else (s.chargeTo 10).moveDown .doze
    else s
  else if hot.2 < 11500 then
    s.setMg fun m => { m with coolSince := if m.critical then some (m.coolSince.getD s.now) else none }
  else s.setMg fun m => { m with coolSince := none }

/-- A host command may leave Doze: no critical temperature, or ten cool seconds since (R437). -/
def State.mayLeaveDoze (s : State) : Bool :=
  !s.mg.critical || match s.mg.coolSince with | some x => decide (x + 10000000000 ≤ s.now) | none => false

/-- TEMPERATURE_READING (R437). -/
def execTemperatureReading (t : Nat) (temps : List Int) (s : State) : Host.Outcome State Fault Refusal :=
  let s := s.at t
  if s.coreLive = false ∨ s.ctl.restarting = true ∨ temps.length ≠ 8 then .next s
  else
    let s := temps.zipIdx.foldl (fun (s : State) x => s.osI 16 (0x500008 + x.2) x.1) s
    let s := s.osI 16 0x500010 (hottest temps).2
    .next ((s.warnTemp temps).criticalTemp temps)

/-! ## Log (R439, R440) -/

/-- A log entry's check is right (Table 21-3). -/
def logOk (e : List Byte) : Bool := fld e 0x1C 4 == crc32 (e.take 0x1C)

/-- LOG_ENTRY (R439): the oldest buffered entry goes to the ring, and to q13 when its severity is within the limit. -/
def execLogEntry (t : Nat) (s : State) : Host.Outcome State Fault Refusal :=
  let s := s.at t
  match s.mg.buffer with
  | [] => .next s
  | e :: rest =>
    if s.coreLive = false ∨ s.ctl.restarting = true then .next s
    else
      let s := s.setMg fun m => { m with
        buffer := rest, ring := (if 262144 ≤ m.ring.length then m.ring.drop 128 else m.ring) ++ [e] }
      if fld e 0x0E 1 ≤ s.og 0x540005 then
        .next (s.offer 13 { typ := 0x0A, sweep := s.sw.lastIndex, stamp := s.sw.lastStamp, olen := 32, payload := e }).2
      else .next s

/-- The effect of a write to 0x5400:03 (R440). -/
def logSelect (number : Nat) (s : State) : Except Nat State :=
  match s.mg.ring.find? fun e => decide (fld e 0 4 = number) with
  | some e => .ok ((s.os 0x540003 number).ds 0x540004 e)
  | none => .error 0x06090030

/-- LOG_SELECT (R440). -/
def execLogSelect (t c number : Nat) (s : State) : Host.Outcome State Fault Refusal :=
  .next ((s.at t).hostWrite c 0x5400 3 false (le 4 number) (logSelect (number % 2 ^ 32)))

/-! ## Acorn (R441 to R443) -/

/-- The limit of a monitor in its unit × 1000 (Table 21-5). -/
def acornLimit (i : Nat) : Int := [5000, 64000, 500000, 20000, 1000, 191000, 1000, 20000].getD i 1

def dayNs : Nat := 86400000000000

/-- The projection in 0.1 year: margin remaining over the least-squares drift of the readings (ns, value), 0xFFFF where it is
unknown (R441). A year is 365 days. -/
def projection (rem : Int) (up : Bool) (readings : List (Nat × Int)) : Nat :=
  match readings with
  | [] => 0xFFFF
  | (t0, _) :: _ =>
    let xs : List (Int × Int) := readings.map fun (t, v) => ((t - t0 : Nat), v)
    let n : Int := xs.length
    let sx := sumI (xs.map (·.1))
    let sy := sumI (xs.map (·.2))
    let num := n * sumI (xs.map fun x => x.1 * x.2) - sx * sy
    let den := n * sumI (xs.map fun x => x.1 * x.1) - sx * sx
    let drift := if up then num else -num
    let span := (readings.getLastD (t0, 0)).1 - t0
    if span < 7 * dayNs ∨ den ≤ 0 ∨ drift ≤ 0 then 0xFFFF
    else
      let p := rdiv (10 * max 0 rem * den) (drift * ((365 * dayNs : Nat) : Int))
      if 65534 < p then 0xFFFF else p.toNat

/-- Value, margin and projection of a monitor from its readings (R441). -/
def State.showMonitor (s : State) (i : Nat) : State :=
  let a := s.mg.monitors.getD i ⟨0, [], 0⟩
  let base := Config.acornBaseline i
  let limit := acornLimit i
  let rem := limit - ((a.value - base).natAbs : Int)
  let margin := (max 0 (rdiv (10000 * rem) limit)).toNat
  let s := s.osI 32 (okey (0x5010 + i) 1) a.value
  (s.os (okey (0x5010 + i) 2) (margin % 65536)).os (okey (0x5010 + i) 3) (projection rem (decide (base ≤ a.value)) a.readings)

/-- A margin action of monitor i is noted: its instant and a log entry; the action code is not stated. -/
def State.marginAction (s : State) (i new : Nat) : State :=
  let (code, s) := s.draw 256
  (s.os (okey (0x5010 + i) 4) s.devNs).log 0x0030 3 0 ([byte i, byte code] ++ le 4 new)

/-- The actions of monitors 2 to 6 in act mode. When a reading calls for one is not stated, nor is the new value. -/
def State.acornAct (s : State) (i : Nat) : State :=
  if s.og 0x500032 = 0 ∨ i < 2 ∨ 6 < i then s
  else
    let (act, s) := s.draw 2
    if act = 0 then s
    else
      let (v, s) := s.draw (2 ^ 32)
      let s := if i = 3 then s.setMg fun m => { m with storeSets := true }
        else if i = 6 then s.os 0x42000A (2 ^ (v % 3)) else s
      s.marginAction i v

/-- ACORN_MEASUREMENT (R441): value, margin and projection; the warning of 0x5000:33 when it is passed. -/
def execAcornMeasurement (t monitor : Nat) (value : Int) (s : State) : Host.Outcome State Fault Refusal :=
  let s := s.at t
  if 8 ≤ monitor ∨ s.coreLive = false ∨ s.ctl.restarting = true then .next s
  else
    let s := s.setMg fun m => { m with monitors := modAt m.monitors monitor fun a =>
      { a with value := value, readings := (a.readings ++ [(s.devNs, value)]).filter fun r => decide (s.devNs ≤ r.1 + 90 * dayNs) } }
    let old := s.og (okey (0x5010 + monitor) 3)
    let s := s.showMonitor monitor
    let new := s.og (okey (0x5010 + monitor) 3)
    let th := s.og 0x500033
    let s := if new < th ∧ th ≤ old then s.log 0x0031 2 0 [byte monitor] else s
    .next (s.acornAct monitor)

/-- The VDD_CORE set point takes a step that the PMIC acknowledged (R442). -/
def State.setAvs (s : State) (mv : Nat) : State :=
  let s := (s.os 0x500030 mv).setMg fun m => { m with
    avsRetry := none, monitors := modAt m.monitors 0 fun a => { a with acted := a.value } }
  (s.emit (.pmbus s.ctl.pmic mv)).marginAction 0 mv

/-- AVS_STEP (R442, R508): 5 mV up when monitor 0 has slowed by more than 1.0 % since the last step, or down on slack; at
least 10 ms apart, within 680 to 860 mV. -/
def execAvsStep (t : Nat) (up acked : Bool) (s : State) : Host.Outcome State Fault Refusal :=
  let s := s.at t
  let a := s.mg.monitors.getD 0 ⟨0, [], 0⟩
  let mv := if up then s.og 0x500030 + 5 else s.og 0x500030 - 5
  if s.og 0x500032 = 1 ∧ s.coreLive = true ∧ s.ctl.restarting = false ∧ s.mg.avsRetry = none ∧ s.mg.avsLast + 10000000 ≤ s.now ∧
      680 ≤ mv ∧ mv ≤ 860 ∧ (up = false ∨ a.acted + 1000 < a.value) then
    let s := s.setMg fun m => { m with avsLast := s.now }
    .next (if acked then s.setAvs mv else s.setMg fun m => { m with avsRetry := some mv })
  else .next s

/-- PMBUS_RETRY (R508): one retry after 10 ms; its failure is logged and the set point stays. -/
def execPmbusRetry (t : Nat) (acked : Bool) (s : State) : Host.Outcome State Fault Refusal :=
  let s := s.at t
  match s.mg.avsRetry with
  | some mv =>
    if s.now < s.mg.avsLast + 10000000 then .next s
    else if acked then .next (s.setAvs mv)
    else .next ((s.setMg fun m => { m with avsRetry := none, avsLast := s.now }).log 0x0021 2 0 ([0] ++ le 2 (s.og 0x500030)))
  | none => .next s

/-- PLAN_DERATING (R443): at 860 mV with a margin of monitor 0 below 10 %, the limit moves to the next lower occupied rung. -/
def execPlanDerating (t : Nat) (s : State) : Host.Outcome State Fault Refusal :=
  let s := s.at t
  if s.og 0x500032 = 1 ∧ s.og 0x500030 = 860 ∧ s.og 0x501002 < 1000 ∧ s.coreLive = true ∧ s.ctl.restarting = false then
    match ((List.range (s.og 0x500031)).reverse).find? fun r => (s.rung r).isSome with
    | some r =>
      let s := s.os 0x500031 r
      let s := s.setLad fun l => { l with derateDue := decide (r < s.og 0x240001) }
      .next (s.marginAction 0 r)
    | none => .next s
  else .next s

/-- The effect of a write to 0x5000:23 (R445). -/
def ledgerReset (s : State) : Except Nat State :=
  .ok (s.settleIdle.setMg fun m => { m with inSpec := 0, outage := 0, ledger := rep 16 0, openOut := [] })

/-- LEDGER_RESET (R445). -/
def execLedgerReset (t c : Nat) (s : State) : Host.Outcome State Fault Refusal :=
  .next ((s.at t).hostWrite c 0x5000 0x23 false (le 1 1) ledgerReset)

end Sys2Proof.Machine
end

