-- ==== Sys2Proof/Machine/Update.lean ====
section
/-! DEFINITION. Preparation, activation and confirmation of an image (R453, R454, R457, R458). -/

namespace Sys2Proof.Machine

open Sys2Proof

/-! ## The chain grant (R453) -/

/-- The device stands in a chain of two or more. -/
def State.inChain (s : State) : Bool := !s.isHead || decide (2 ≤ s.chainLen)

/-- The update grant is this device's to use. -/
def State.granted? (s : State) : Bool :=
  if s.inChain = false then true
  else if s.isHead then s.dr.grant == none || s.dr.grant == some 0
  else s.dr.grant == some s.position

/-- The grant goes back to the head. -/
def State.returnGrant (s : State) : State :=
  if s.inChain = false then s
  else if s.isHead then s.setDr fun d => { d with grant := none }
  else (s.setDr fun d => { d with grant := none }).tellHead 0x20 [byte s.position, 0]

/-- UPDATE (R453): at the head a member asks for the grant or returns it, and the head answers all; at a member the head's
answer names a position. -/
def execUpdate (t src give : Nat) (s : State) : Host.Outcome State Fault Refusal :=
  let s := s.at t
  if s.isHead then
    if s.sideUp true = false then .next s
    else if give = 0 then .next (if s.dr.grant = some src then s.setDr fun d => { d with grant := none } else s)
    else if s.dr.grant = none ∨ s.dr.grant = some src then
      .next ((s.setDr fun d => { d with grant := some src }).tellChain 0x20 [byte src, 1])
    else .next (s.tellChain 0x20 [byte src, 0])
  else if s.sideUp false = false then .next s
  else
    let s := s.relay true 0x20 0 0xFF [byte src, byte give]
    .next (if src = s.position then s.setDr fun d => { d with grant := if give = 0 then none else some src } else s)

/-! ## Preparation (R453) -/

/-- The effect of a preparation start: a member asks the head for the grant. -/
def imagePrepare (s : State) : Except Nat State :=
  require (decide (s.og 0x580005 = 2)) 0x08000020 <|
    let s := if s.isHead then s else s.tellHead 0x20 [byte s.position, 1]
    .ok (s.startLong 5 10000 (s.og 0x580001) (s.area s.targetArea))

/-- IMAGE_PREPARE (R453). -/
def execImagePrepare (t c : Nat) (s : State) : Host.Outcome State Fault Refusal :=
  .next ((s.at t).hostWrite c 0x5800 9 false (le 1 1) imagePrepare)

/-- The new image and the running image of the other kind accept each other (R453). -/
def State.levelsFit (s : State) (data : Bool) (b : List Byte) : Bool :=
  if data then
    let w := s.activeArea false
    within (s.imgField w 0x14 2) (s.imgField w 0x16 2) (fld b 0x14 2)
  else within (fld b 0x14 2) (fld b 0x16 2) (s.imgField (s.activeArea true) 0x14 2)

/-- Every resident plan runs with a kernel directory (R230). -/
def State.plansFit (s : State) (kd : KernelDir) : Bool :=
  (List.range 16).all fun r => match s.planOn r with
    | some pl => (List.range 13).all fun i => (List.range (pl.schedCount i)).all fun k => entryOk pl kd i k
    | none => true

/-- The result of a preparation (Table 22-3). The link levels of the neighbours are not carried by any message the spec
gives, so whether they differ by at most 1 is free. -/
def State.prepareResult (s : State) (kind : Nat) (b : List Byte) (flashFailed : Bool) : Nat × State :=
  let data := decide (kind = 2)
  let k := fld b 4 1
  let (near, s) := if s.inChain && !data then s.draw 2 else (1, s)
  let code :=
    if (k ≠ 1 ∧ k ≠ 2) ∨ headerOk (k == 2) b = false then 2
    else if k ≠ kind ∨ s.up.kind ≠ kind then 3
    else if s.levelsFit data b = false ∨ near = 0 then 4
    else if data = true ∧ s.plansFit (dirOfBytes (Sys2Proof.Machine.kernelBytes b)) = false then 5
    else if sealOk b s.board.keyHash = false then 6
    else if fld b 0x10 2 < s.rollback data then 7
    else if s.granted? = false then 8
    else if flashFailed then 11
    else 0
  (code, s)

/-- The end of a preparation. -/
def State.endPrepare (s : State) (kind : Nat) (b : List Byte) (flashFailed : Bool) : Nat × State :=
  let (code, s) := s.prepareResult kind b flashFailed
  let s := s.os 0x58000C code
  if code = 0 then (0, s.setUp fun u => { u with prepared := some kind }) else (code, s.returnGrant)

/-! ## Activation (R454) -/

/-- A data-path image takes effect: a pause in Sensing, at once in Ready, at the next entry to Ready from Doze. -/
def State.takeImage (s : State) : State :=
  match s.pw.power with
  | .sensing =>
    (s.setPw fun w => { w with stopWanted := true, goal := some .sensing }).setUp fun u => { u with pausing := true }
  | .ready => s.loadLibrary
  | _ => s.setUp fun u => { u with pausing := true }

/-- The effect of an activation. -/
def activate (s : State) : Except Nat State :=
  let data := s.kindData
  require (if s.recovery then s.og 0x580005 == 2 else s.up.prepared.isSome) 0x08000020 <|
    let slot := if s.recovery then 0 else (s.bootControl.slot data + 1) % 2
    let trial := if s.recovery then 0xFF else 0
    let s := (s.writeBoot fun b => b.set data slot trial).os 0x580005 0
    let s := s.setUp fun u => { u with prepared := none, confirmBy := some (s.now + 1000000000 * s.og 0x58000D) }
    let s := if s.isHead ∧ s.inChain then s.setDr fun d => { d with grant := some 0 } else s
    .ok (if data then s.takeImage else s.restartWalnut 3)

/-- ACTIVATE (R454). -/
def execActivate (t c : Nat) (s : State) : Host.Outcome State Fault Refusal :=
  .next ((s.at t).hostWrite c 0x5800 0xA false (le 1 1) activate)

/-- ACTIVATION_LOAD_END (R454): in the pause the library is loaded from staging and the warm entry begins. -/
def execActivationLoadEnd (t : Nat) (s : State) : Host.Outcome State Fault Refusal :=
  let s := s.at t
  if s.up.pausing = true ∧ s.pw.power = .ready ∧ s.pw.shutting = true ∧ s.sw.flights.isEmpty = true then
    let s := (s.setUp fun u => { u with pausing := false }).setPw fun w => { w with shutting := false }
    .next s.loadLibrary.holdLoops.onward
  else .next s

/-! ## Confirmation (R458) -/

/-- The kind in trial: data path unless Walnut is. -/
def State.trialData (s : State) : Bool := !s.inTrial false

/-- The effect of a confirmation: the counter, boot control, the former settings area, the chain grant, in this order. -/
def confirm (s : State) : Except Nat State :=
  require (s.inTrial false || s.inTrial true) 0x08000020 <|
    let data := s.trialData
    let sec := s.imgSecurity (s.activeArea data)
    let s := { s with board := if data then { s.board with dataCounter := max s.board.dataCounter sec }
      else { s.board with walnutCounter := max s.board.walnutCounter sec } }
    let former := s.bootControl.settingsArea % 2
    let s := s.writeBoot fun b =>
      let b := b.set data (b.slot data) 0xFF
      if data then b else { b with settingsArea := (b.settingsArea + 1) % 2 }
    let s := if data then s else s.putSettings former []
    .ok (s.returnGrant.setUp fun u => { u with confirmBy := none })

/-- CONFIRM (R458). -/
def execConfirm (t c : Nat) (s : State) : Host.Outcome State Fault Refusal :=
  .next ((s.at t).hostWrite c 0x5800 0xB false (le 1 1) confirm)

/-- CONFIRM_TIMEOUT (R458): the trial reverts to the other slot. -/
def execConfirmTimeout (t : Nat) (s : State) : Host.Outcome State Fault Refusal :=
  let s := s.at t
  match s.up.confirmBy with
  | some d =>
    if s.now < d ∨ s.coreLive = false ∨ (s.inTrial false || s.inTrial true) = false then .next s
    else
      let data := s.trialData
      let s := s.writeBoot fun b => b.set data ((b.slot data + 1) % 2) 0xFF
      let s := ((s.os 0x58000C 9).returnGrant).setUp fun u => { u with confirmBy := none }
      .next (if data then s.takeImage else s.restartWalnut 3)
  | none => .next s

end Sys2Proof.Machine
end

