-- ==== Sys2Proof/Machine/Power.lean ====
section
/-! DEFINITION. The Shell island, power-up, reset and the moves between the power states that commands start (R417 to R423,
R425, R427, R462 to R467, R494 to R503). -/

namespace Sys2Proof.Machine

open Sys2Proof

/-! ## Retention RAM (Table 20-1, R417, R497) -/

/-- Table 20-1 from the state: balance, time, position, managed operation, wake cause, Shell count, wake time, and the held
sweep index in the working state. -/
def State.retentionBytes (s : State) : List Byte :=
  let b := le 8 (toU 64 s.pod.balance) ++ le 8 (s.tb.t / 65536) ++ le 2 (s.tb.t % 65536) ++
    [byte s.dr.position, byte (s.og 0x210002)] ++ le 2 (s.og 0x210018) ++ le 2 0 ++ le 8 s.pw.shellCount ++
    le 8 s.pw.wakeTime ++ le 8 (s.og 0x220013) ++ rep 200 0
  le 4 0x52544E53 ++ le 4 (crc32c b) ++ b

/-- Walnut writes retention RAM, which VBAT holds. -/
def State.retain (s : State) : State :=
  if s.pw.vbat then s.setPw fun w => { w with retention := s.retentionBytes } else s

/-- Magic and check word of retention RAM are right (R417). -/
def retentionOk (b : List Byte) : Bool := fld b 0 4 == 0x52544E53 && fld b 4 4 == crc32c (sliceB b 8 248)

/-- RETENTION_WRITE (R497). -/
def execRetentionWrite (t : Nat) (s : State) : Host.Outcome State Fault Refusal :=
  let s := s.at t
  if s.coreLive = true ∧ s.ctl.restarting = false then .next s.retain else .next s

/-! ## The Core domain goes down (Table 26-2, R503) -/

/-- The number of the next log entry: entries are numbered since manufacture. -/
def Manage.nextNumber (m : Manage) : Nat :=
  match m.ring.getLast? with
  | some e => (fld e 0 4 + 1) % 2 ^ 32
  | none => 0

/-- Everything but the Shell, the flash, the fuses and what has left the device goes. -/
def State.coreDown (s : State) : State :=
  { s with
    pw := s.pw.blank, ctl := Control.blank, mg := s.mg.blank s.mg.nextNumber, lad := Ladder.blank s.lad.store
    sw := Sweep.blank s.sw.latency s.sw.rxLatency, opt := Optics.blank s.opt.stored s.opt.check, ch := ⟨[], none, none, [], []⟩, das := Das.blank
    pop := Poppy.blank, lin := Linseed.blank, hz := Hazel.blank, ses := Sesame.blank, caps := rep 8 Capture.blank
    sun := Sunflower.blank, qu := Queues.blank, ln := Lanes.blank, mem := Memory.blank, fx := Flax.blank
    al := Almond.blank, tb := s.tb.blank, pip := Pip.afresh s.pip.records, dr := Darug.blank s.dr.position
    pod := Pod.blank s.pod.balance, up := s.up.blank, inj := Inject.blank }

/-! ## The wake set (R501) -/

/-- The objects of the wake set in list order. The balance, the wake cause and managed operation stand in retention RAM, and the
objects of the settings area are there already (R481), so they are not in it. -/
def State.wakeKeys (s : State) : List Nat :=
  let power := [1, 4, 5, 6, 7, 9, 0xA, 0xB, 0xC, 0xD, 0xF, 0x10, 0x11, 0x12, 0x19, 0x1A].map (0x210000 + ·)
  let port (p : Nat) : List Nat :=
    ([2, 3, 4].map (pk 0x280000 p + ·)) ++ ([3, 5, 6, 7, 8, 9].map (pk 0x2C0000 p + ·)) ++
      (if s.pw.sensedCombined then [2, 3, 4, 5, 6, 7, 8, 9, 0xC].map (pk 0x300000 p + ·) else [])
  [0x240001, 0x101500, 0x101700] ++ power ++ [4, 7, 8, 9, 0xA, 0x12].map (0x220000 + ·) ++ [0x240003, 0x240004] ++
    s.ports.flatMap port ++ [4, 0x11, 0x15, 0x16, 0x32, 0x33].map (0x500000 + ·) ++ [0x540005]

/-- The wake set as it stands. -/
def State.wakeValues (s : State) : List (Nat × Nat) :=
  s.wakeKeys.map fun k => (k, if k = 0x210006 then unle (s.dg k) else s.og k)

/-- One value of the wake set is written back: shadowed ones wait for the first boundary. -/
def State.restore (s : State) (x : Nat × Nat) : State :=
  let idx := x.1 / 256
  let sub := x.1 % 256
  if x.1 = 0x210006 then s.ds x.1 (le 96 x.2)
  else if isShadowed idx sub then
    let n := match objRow idx sub with | some o => o.ty.size | none => 1
    match shadow idx sub (le n x.2) s with | .ok s' => s' | .error _ => s
  else if x.1 = 0x22000A then s.os x.1 (x.2 % 65536)
  else s.os x.1 x.2

/-! ## Boot (Table 26-1, R495 to R499, R503) -/

/-- Objects take their defaults, those of the settings area their stored values (R481); the Shell keeps the wake cause. -/
def State.bootObjects (s : State) : State :=
  let s := ({ s with objects := [], domains := [] }).os 0x210018 (s.og 0x210018)
  let s := [0x20000A, 0x21001B, 0x21001C, 0x420005, 0x420008, 0x420016, 0x4C0003].foldl (fun s k => s.os k (s.stored k)) s
  let s := ((s.os 0x420004 (s.og 0x420005)).os 0x420007 (s.og 0x420008)).setMem fun m => { m with fit := s.og 0x420016 }
  let s := { s with ctl := { s.ctl with rate := s.og 0x20000A, pmic := s.og 0x21001B } }
  let s := s.board.columns.zipIdx.foldl (fun (s : State) x => s.os (0x420201 + x.2) x.1) s
  s.pip.records.foldl (fun s r => if r.ok then s.os (0x483010 + 8 * r.rtd + r.level - 1) r.residual else s) s

/-- A record of the calibration area is left out, and logged. -/
def State.recordLost (s : State) : State := s.log 0x0050 2 0 []

/-- Walnut loads the calibration area (R496): the design value stands in for a factory record whose check fails, and an RTD record
with a wrong check is ignored (R402). -/
def State.loadCalibration (s : State) : State :=
  let lat (k : Nat) : List Nat := (List.range 4).map fun p => Config.designValue 0 (4 * k + p) % 61
  let s := if s.up.badFactory then
      ({ s with sw := { s.sw with latency := lat 0, rxLatency := lat 1 }, tb := { s.tb with factory := rep 6 (16, 16) } }).recordLost
    else s
  let s := if s.opt.check = biasCheck s.opt.stored then s else
      ({ s with opt := { s.opt with stored := (List.range 4).map fun p => (List.range 4).map fun i =>
          ((Config.designValue 1 (4 * p + i) % 2 ^ 32 : Nat) : Int) } }).recordLost
  let s := (List.range 8).foldl (fun (s : State) i =>
    if (s.mg.monitors.getD i ⟨0, [], 0⟩).readings.isEmpty then s else s.showMonitor i) s
  (s.pip.records.filter fun r => !r.ok).foldl (fun s _ => s.recordLost) s

/-- A plan store entry whose checks fail is ignored and logged (R447); the spec gives it no code. -/
def State.loadStore (s : State) : State :=
  (s.lad.store.filter fun e => e.status == 0x7F && !e.ok).foldl (fun s _ => let (c, s) := s.draw 65536; s.log c 2 0 []) s

/-- Log entries in flash whose check fails are ignored (R440). -/
def State.loadLog (s : State) : State := s.setMg fun m => { m with ring := m.ring.filter logOk }

/-- Time, the held sweep index, position and balance as retention RAM has them, or as VBAT loss leaves them (R378, R408, R409,
R417, R427, R497). -/
def State.bootRetention (s : State) (ok : Bool) : State :=
  let r := s.pw.retention
  let ticks := (s.pw.shellCount + 2 ^ 48 - fld r 0x20 8 % 2 ^ 48) % 2 ^ 48
  let t := if ok then ((fld r 0x10 8 * 65536 + fld r 0x18 2) + 2000000000 * ticks) % 2 ^ 80 else 0
  let s := { s with tb := { s.tb with t := t } }
  let s := (s.os 0x220003 (if ok then 1 else 0)).os 0x220013 (if ok then fld r 0x30 8 else 0)
  let pos := if s.isHead then 0 else if ok then s.dr.position else 0xFF
  let s := s.setDr fun d => { d with
    position := if ok then d.position else 0xFF, override_ := s.og 0x4C0003
    refLost := if s.isHead then none else some s.now }
  let id := s.nodeOf pos
  let s := { (s.os 0x4C0001 pos).os 0x4C0002 id with ctl := { s.ctl with nodeId := id } }
  if ok then s.setPod fun p => { p with balance := fldI r 8 8 }
  else (s.setPod fun p => { p with balance := s.ogI 64 0x21001C, unknown := true }).osBit 0x210014 3 true

/-- The value of the wake set for an object, its default where it has none. -/
def State.wakeValue (s : State) (k : Nat) : Nat :=
  match s.pw.wakeSet.find? fun x => decide (x.1 = k) with | some x => x.2 | none => odflt k

/-- The Dormant interval is posted to Pod with the values in force before it (R425). -/
def State.bootPost (s : State) : State :=
  let r := s.pw.retention
  let n := (s.pw.shellCount + 2 ^ 48 - fld r 0x20 8 % 2 ^ 48) % 2 ^ 48
  let (credit, debit) := dormantPost (le 96 (s.wakeValue 0x210006)) (s.wakeValue 0x210009) (s.wakeValue 0x21000D)
    (timeOfDay (fld r 0x10 8) (s.wakeValue 0x210007)) n
  let s := s.os 0x210004 (s.wakeValue 0x210004)
  s.post credit debit

/-- The rung a boot makes active: the lowest that a kept plan will stand on (R499). -/
def State.lowestKept (s : State) : Nat := ((List.range 16).find? fun r => (s.storeLive r).isSome).getD 0

/-- The planned power of each kept plan (R429). -/
def State.keptPower (s : State) : State :=
  (List.range 16).foldl (fun s r => match s.planOn r with
    | some pl => s.os (okey 0x2101 (r + 1)) (s.planPower pl % 2 ^ 32)
    | none => s) s

/-- From the release of the internal reset to Doze. -/
def State.boot (s : State) : State :=
  let woke := s.pw.fromDormant
  let s := s.setPw fun w => { w with
    inReset := false, sensedPorts := s.board.ports, sensedCombined := s.board.combined, sensedKm80 := s.board.km80
    sensedHead := s.board.headStrap, fromDormant := false }
  let ok := retentionOk s.pw.retention
  let s := s.bootObjects.bootWalnut
  let s := s.bootRetention ok
  let s := (if ok && woke then s.bootPost else s).loadCalibration.loadLog.loadStore
  let s := s.os 0x240001 s.lowestKept
  let s := if ok && woke then s.pw.wakeSet.foldl State.restore s else s
  let managed := ok && woke && fld s.pw.retention 0x1B 1 % 2 == 1
  let s := if managed then (s.os 0x210002 1).osBit 0x210014 0 true else s
  let s := s.keptPower
  let s := if s.inTrial false || s.inTrial true then
      s.setUp fun u => { u with confirmBy := some (s.now + 1000000000 * s.og 0x58000D) } else s
  let s := (s.enterPower .doze).setPip fun p => { p with settle0 := s.now + 500000, settle1 := s.now + 500000 }
  let s := if s.recovery then s.lanesStart else s
  let s := if s.ctl.nodeId = 0 then s else s.emit (.bootUp s.ctl.nodeId)
  if woke then (s.setPod fun p => { p with wokeAt := some s.pw.wokeAt }).rechoose.setPod fun p => { p with wokeAt := none } else s

/-! ## Shell, PWR_EN and resets -/

/-- VBAT_POWER_UP (R494): the Shell starts, latches wake cause bit 9 and raises PWR_EN. -/
def execVbatPowerUp (t : Nat) (s : State) : Host.Outcome State Fault Refusal :=
  let s := s.at t
  if s.pw.vbat then .next s
  else
    .next ((s.setPw fun w => { w with
      vbat := true, crystal := false, shellCount := 0, shellRem := 0, pwrEn := true, lowHold := false, armed := false
      woken := false, wakeTime := 0, fromDormant := false }).os 0x210018 512)

/-- CRYSTAL_START (R494): the wake timer counts from now. -/
def execCrystalStart (t : Nat) (s : State) : Host.Outcome State Fault Refusal :=
  let s := s.at t
  .next (if s.pw.vbat then s.setPw fun w => { w with crystal := true } else s)

/-- VBAT_LOSS (R417): the Shell stops; retention RAM, with the position, and the wake timer are lost. -/
def execVbatLoss (t : Nat) (s : State) : Host.Outcome State Fault Refusal :=
  let s := s.at t
  let s := s.setPw fun w => { w with
    vbat := false, crystal := false, shellCount := 0, shellRem := 0, armed := false, woken := false, wakeTime := 0
    retention := rep 256 0 }
  .next ((s.setDr fun d => { d with position := 0xFF }).os 0x210018 0)

/-- CORE_POWER_UP (R495): PWR_EN has risen, so a Core power-up begins; PG_IN rises and the internal reset is released 1 ms
later. -/
def execCorePowerUp (t : Nat) (s : State) : Host.Outcome State Fault Refusal :=
  let s := s.at t
  if s.pw.pwrEn = true ∧ s.pw.power = .dormant ∧ s.pw.inReset = false then
    .next (s.setPw fun w => { w with inReset := true, pgIn := true, releaseAt := s.now + 1000000 })
  else .next s

/-- INTERNAL_RESET_RELEASE (R495). -/
def execInternalResetRelease (t : Nat) (s : State) : Host.Outcome State Fault Refusal :=
  let s := s.at t
  if s.pw.inReset = true ∧ s.pw.pgIn = true ∧ s.pw.releaseAt ≤ s.now then .next s.boot else .next s

/-- PWR_EN goes low and stays low for 20 ms at least (R422). -/
def State.dropPower (s : State) : State :=
  s.injectLock.coreDown.setPw fun w => { w with
    pwrEn := false, lowHold := true, lowUntil := s.now + 20000000, armed := true, woken := false, armCount := w.shellCount }

/-- PG_IN_FALL (R422, R24): loss of a live domain. -/
def execPgInFall (t : Nat) (s : State) : Host.Outcome State Fault Refusal :=
  let s := s.at t
  if s.pw.pgIn = true ∧ (s.coreLive = true ∨ s.pw.inReset = true) then
    .next (s.dropPower.setPw fun w => { w with pgIn := false, wakeTime := fld w.retention 0x28 8 % 2 ^ 48 })
  else .next s

/-- A Core reset: Core state is lost, the rails and the Shell stay, the internal reset is released 1 ms from now (R502). -/
def State.coreReset (s : State) : State :=
  s.injectLock.coreDown.setPw fun w => { w with inReset := true, pgIn := true, releaseAt := s.now + 1000000, fromDormant := false }

/-- RESET_L (R502): a low of `low` ns that ends now. Below 100 ns it is ignored; from 100 ns to 1 µs either outcome is allowed. -/
def execResetL (t low : Nat) (s : State) : Host.Outcome State Fault Refusal :=
  let s := s.at t
  let acts := decide (1000 ≤ low) || (decide (100 ≤ low) && Config.shortResetActs low)
  if s.pw.pwrEn = true ∧ s.pw.pgIn = true ∧ acts = true then .next s.coreReset else .next s

/-- A wake cause is latched; in Dormant it raises PWR_EN once R422 allows, and before the drop of PWR_EN it cancels the
Dormant entry (R423). -/
def State.wake (s : State) (bits : Nat) : State :=
  let s := s.os 0x210018 (s.og 0x210018 ||| bits)
  if s.pw.armed = true ∧ s.pw.pwrEn = false then
    let s := if s.pw.woken then s else s.setPw fun w => { w with wokeAt := s.now }
    if s.pw.lowHold then s.setPw fun w => { w with woken := true }
    else s.setPw fun w => { w with pwrEn := true, armed := false, woken := false, fromDormant := true }
  else if s.pw.goal = some .dormant then s.setPw fun w => { w with woken := true }
  else s

/-- WAKE_PIN (R418): `pins` are the levels the pins have held for 100 µs. -/
def execWakePin (t pins : Nat) (s : State) : Host.Outcome State Fault Refusal :=
  let s := s.at t
  let active := ((pins % 256) ^^^ s.og 0x21001A) &&& s.og 0x210019
  if s.pw.vbat = true ∧ active ≠ 0 then .next (s.wake active) else .next s

/-- The count has equalled the stored wake time since the Shell was armed; both are 48 bits wide and wrap. -/
def Power.timerDue (w : Power) : Bool :=
  decide (w.wakeTime ≠ 0) &&
    decide ((w.wakeTime + 2 ^ 48 - w.armCount) % 2 ^ 48 ≤ (w.shellCount + 2 ^ 48 - w.armCount) % 2 ^ 48)

/-- WAKE_TIMER (R418): the count has reached the stored wake time. -/
def execWakeTimer (t : Nat) (s : State) : Host.Outcome State Fault Refusal :=
  let s := s.at t
  if s.pw.vbat = true ∧ s.pw.armed = true ∧ s.pw.timerDue = true then .next (s.wake 256)
  else .next s

/-- PWR_EN_HOLD_END (R422): a wake cause latched meanwhile raises PWR_EN. -/
def execPwrEnHoldEnd (t : Nat) (s : State) : Host.Outcome State Fault Refusal :=
  let s := s.at t
  if s.pw.lowHold = true ∧ s.pw.lowUntil ≤ s.now then
    let s := s.setPw fun w => { w with lowHold := false }
    .next (if s.pw.woken then s.setPw fun w => { w with pwrEn := true, armed := false, woken := false, fromDormant := true } else s)
  else .next s

/-- The wake time for a Dormant entry in Shell counts, 0 for none: Pod's next wake (R432, R433). None when it lies in the
past. -/
def State.wakeCount (s : State) : Option Nat :=
  let next := s.og 0x210017
  if s.og 0x210001 = 1 ∧ next ≠ 0 ∧ (s.og 0x210002 = 1 ∨ s.pod.exhausted = true) then
    if next ≤ s.devNs then none
    else some ((s.pw.shellCount + ceilDiv ((next - s.devNs) * 32768) 1000000000) % 2 ^ 48)
  else some 0

/-- DORMANT_ENTRY (R423, R501): Walnut waits for a long operation, writes the wake set and retention RAM, arms the Shell and
drops PWR_EN; a wake cause latched meanwhile or a wake time in the past leaves the device in Doze. -/
def execDormantEntry (t : Nat) (s : State) : Host.Outcome State Fault Refusal :=
  let s := s.at t
  if s.pw.goal ≠ some .dormant ∨ s.pw.power ≠ .doze ∨ s.ctl.longOp.isSome = true ∨ s.ctl.restarting = true then .next s
  else
    match s.wakeCount with
    | none => .next s.transitionDone
    | some w =>
      if s.pw.woken then .next s.transitionDone
      else
        let s := s.setPw fun x => { x with wakeTime := w, wakeSet := s.wakeValues }
        .next s.retain.dropPower

/-! ## Commands of the host (R463 to R467) -/

/-- A host command leaves Doze: cool enough after a critical temperature (R437), which it ends. -/
def State.hostLeaves (s : State) (p : PowerState) : State := (s.setMg fun m => { m with critical := false, coolSince := none }).leaveDoze p

/-- The effect of a write to 0x2000:04. -/
def powerCommand (v : Nat) (s : State) : Except Nat State :=
  match v, s.pw.power with
  | 0, _ => .ok (s.hostEnds.moveDown .dormant)
  | 1, _ => .ok (s.hostEnds.moveDown .doze)
  | 2, .doze => require s.mayLeaveDoze 0x08000020 (.ok (s.hostLeaves .ready))
  | 2, .sensing => .ok (s.hostEnds.moveDown .ready)
  | 2, _ => .ok s
  | 3, .doze => require s.mayLeaveDoze 0x08000020 (.ok (s.intend.hostLeaves .sensing))
  | 3, .ready => match s.intend.beginEntry with
    | .ok s' => .ok s'
    | .error _ => .error 0x08000020
  | _, _ => .ok s

/-- POWER_COMMAND_DORMANT (R464). -/
def execPowerCommandDormant (t c : Nat) (s : State) : Host.Outcome State Fault Refusal :=
  .next ((s.at t).hostWrite c 0x2000 4 false (le 1 0) (powerCommand 0))

/-- POWER_COMMAND_DOZE (R464). -/
def execPowerCommandDoze (t c : Nat) (s : State) : Host.Outcome State Fault Refusal :=
  .next ((s.at t).hostWrite c 0x2000 4 false (le 1 1) (powerCommand 1))

/-- POWER_COMMAND_READY (R464). -/
def execPowerCommandReady (t c : Nat) (s : State) : Host.Outcome State Fault Refusal :=
  .next ((s.at t).hostWrite c 0x2000 4 false (le 1 2) (powerCommand 2))

/-- POWER_COMMAND_SENSING (R464, R466). -/
def execPowerCommandSensing (t c : Nat) (s : State) : Host.Outcome State Fault Refusal :=
  .next ((s.at t).hostWrite c 0x2000 4 false (le 1 3) (powerCommand 3))

/-- An NMT command to a node-ID reaches the device: 0 is every node (R463, R409). -/
def State.nmtFor (s : State) (node : Nat) : Bool :=
  s.coreLive && !s.ctl.restarting && (node == 0 || node == s.ctl.nodeId)

/-- An NMT command but reset node is obeyed: no long operation runs (R474). -/
def State.nmtOk (s : State) (node : Nat) : Bool := s.nmtFor node && s.ctl.longOp.isNone

/-- START_REMOTE_NODE (R463, R466). -/
def execStartRemoteNode (t node : Nat) (s : State) : Host.Outcome State Fault Refusal :=
  let s := s.at t
  if s.nmtOk node = false ∨ s.recovery = true then .next s
  else
    let s := s.setPw fun w => { w with nmtStopWanted := false }
    match s.pw.power with
    | .doze => if s.mayLeaveDoze then .next (s.intend.hostLeaves .sensing) else .next s
    | .ready =>
      if s.pw.entry.isSome then .next s
      else if s.inTransition then .next (s.intend.setPw fun w => { w with goal := some .sensing })
      else .next s.intend.judgeEntry
    | _ => .next s

/-- STOP_REMOTE_NODE (R463). -/
def execStopRemoteNode (t node : Nat) (s : State) : Host.Outcome State Fault Refusal :=
  let s := s.at t
  if s.nmtOk node = false then .next s
  else .next ((s.hostEnds.setPw fun w => { w with nmtStopWanted := true }).moveDown .doze)

/-- ENTER_PRE_OPERATIONAL (R463). -/
def execEnterPreOperational (t node : Nat) (s : State) : Host.Outcome State Fault Refusal :=
  let s := s.at t
  if s.nmtOk node = false ∨ s.recovery = true then .next s
  else
    let s := s.setPw fun w => { w with nmtStopWanted := false }
    match s.pw.power with
    | .doze => if s.mayLeaveDoze then .next (s.hostLeaves .ready) else .next s
    | .sensing => .next (s.hostEnds.moveDown .ready)
    | .ready => if s.inTransition then .next (s.hostEnds.moveDown .ready) else .next s
    | .dormant => .next s

/-- RESET_NODE (R502): obeyed during a long operation too (R474). -/
def execResetNode (t node : Nat) (s : State) : Host.Outcome State Fault Refusal :=
  let s := s.at t
  if s.nmtFor node then .next s.coreReset else .next s

/-- RESET_COMMUNICATION (R463, R487). -/
def execResetCommunication (t node : Nat) (s : State) : Host.Outcome State Fault Refusal :=
  let s := s.at t
  if s.nmtOk node = false then .next s
  else
    let s := s.endSession.injectLock
    .next (if s.ctl.nodeId = 0 then s else s.emit (.bootUp s.ctl.nodeId))

/-! ## Doze to Ready (R341, R404, R420, R466, R498) -/

/-- The first entry to Ready after a Core power-up or reset: DRAM is empty, Cashew is zeroed (R500), the fixed regions are
reserved, kept plans are to be reloaded. -/
def State.firstReady (s : State) : State :=
  let s := (s.setPw fun w => { w with readyDone := true, dramLive := true, library := false }).setMem fun m =>
    { m with cashew := [], dram := [], regions := [] }
  s.reserveFixed.setLad fun l => { l with reloading := (List.range 16).filter fun r => (s.storeLive r).isSome }

/-- Hold the photonic domain warm where 0x2100:11 asks for it (R420). -/
def State.warmIfHeld (s : State) : State :=
  if s.og 0x210011 = 1 ∧ s.pw.power = .ready ∧ s.pw.entry.isNone = true then s.warmUp else s

/-- DOZE_TO_READY_DONE (R341, R498): `fit` is what the DRAM answers. A training failure leaves the device in Doze with an EMCY. -/
def execDozeToReadyDone (t : Nat) (fit : DramFit) (s : State) : Host.Outcome State Fault Refusal :=
  let s := s.at t
  if s.pw.power ≠ .doze ∨ (s.pw.goal ≠ some .ready ∧ s.pw.goal ≠ some .sensing) ∨ s.dr.waiting = true ∨ s.recovery = true then .next s
  else
    match trainDram s.mem.fit fit with
    | .error i => .next ((s.emcy 0x5050 i 0).transitionDone)
    | .ok x =>
      let first := !s.pw.readyDone
      let s := s.showDram x
      let s := (if first then s.firstReady else s).enterReady
      let s := if !first && s.up.pausing then (s.setUp fun u => { u with pausing := false }).loadLibrary else s
      if s.pw.goal = some .sensing then
        if first then .next (s.setPw fun w => { w with enterWanted := true }) else .next s.judgeEntry
      else .next s.transitionDone.warmIfHeld

/-- The judgement of an entry that waits for plans (R466). -/
def State.judgeWaiting (s : State) : State :=
  if s.pw.enterWanted = false then s
  else
    let want := match s.lad.switch with
      | some w => if w.chain.isNone then w.rung else s.og 0x240001
      | none => s.og 0x240001
    if s.runnable want = true ∨ s.lad.reloading.isEmpty = true ∨ s.pw.library = false then s.judgeEntry else s

/-- A kept plan stands on its rung again. -/
def State.reloadRung (s : State) (r : Nat) : State :=
  match s.lad.reloading.contains r, s.storeLive r with
  | true, some e => s.putRung r (parsePlan e.image) true
  | _, _ => s

/-- ACTIVE_PLAN_RELOAD (R498, R455): the library and the plan of the active rung. -/
def execActivePlanReload (t : Nat) (s : State) : Host.Outcome State Fault Refusal :=
  let s := s.at t
  if s.pw.power ≠ .ready ∨ s.pw.library = true then .next s
  else
    let s := (s.setUp fun u => { u with pausing := false }).loadLibrary
    let s := if s.pw.library then s else s.emcy 0x6300 1 0
    let s := s.reloadRung (s.og 0x240001)
    let s := if s.inTransition then s else s.warmIfHeld
    .next s.judgeWaiting

/-- KEPT_PLAN_RELOAD (R498). -/
def execKeptPlanReload (t rung : Nat) (s : State) : Host.Outcome State Fault Refusal :=
  let s := s.at t
  if s.pw.readyDone = true then .next (s.reloadRung rung).judgeWaiting else .next s

/-! ## The end of a stop (R94), the reference (R404, R405) -/

/-- STOP_SHUTDOWN (R94): the last sweep has completed. In the pause of an activation the photonic domain stays and the device waits
for its load (R454). -/
def execStopShutdown (t : Nat) (s : State) : Host.Outcome State Fault Refusal :=
  let s := s.at t
  if s.pw.shutting = true ∧ s.sw.flights.isEmpty = true ∧ s.pw.power = .ready then
    let s := s.endFiring
    if s.up.pausing then .next s.holdLoops
    else
      let s := s.setPw fun w => { w with shutting := false }
      .next (if s.og 0x210011 = 1 then s.holdLoops else s.photonicOff).onward
  else .next s

/-- REFERENCE_TIMEOUT (R404, R405): 10 ms without the reference. -/
def execReferenceTimeout (t : Nat) (s : State) : Host.Outcome State Fault Refusal :=
  let s := s.at t
  match s.dr.refLost with
  | none => .next s
  | some x =>
    if s.now < x + 10000000 ∨ s.isHead = true ∨ s.coreLive = false then .next s
    else if s.dr.waiting then
      .next (((s.setDr fun d => { d with waiting := false }).emcy 0x8110 s.position 0).transitionDone)
    else if s.pw.power = .doze ∨ s.pw.goal = some .doze then .next s
    else
      let s := s.emcy 0x8110 s.position 0
      .next ((if s.pw.power = .sensing then s.chargeTo 11 else s).moveDown .doze)

/-- DRG_REFI_RETURN (R404, R405): Sensing goes on and alignment is measured anew; a wait to leave Doze is over. -/
def execDrgRefiReturn (t : Nat) (s : State) : Host.Outcome State Fault Refusal :=
  let s := s.at t
  if s.isHead then .next s
  else
    let s := s.setDr fun d => { d with refLost := none, waiting := false, offsets := [], steps := 0 }
    let s := if s.og 0x4C0005 = 3 then s.os 0x4C0005 2 else s
    .next (if s.og 0x4C0007 = 2 then s.os 0x4C0007 1 else s)

end Sys2Proof.Machine
end

