-- ==== Sys2Proof/Machine/Sweep.lean ====
section
/-! DEFINITION. The firings of a sweep (05), its completion (R14) and the latch of a statistics frame (R15 to R18, R304). -/

namespace Sys2Proof.Machine

open Sys2Proof

/-! ## Waveforms (R102 to R107, R117) -/

/-- `husk_scale` (R106). -/
def huskScale (x : Int) (g : Nat) : Int := rhe (x * g) 15

/-- Sample k of the word waveform of a slot before saturation and scaling (R117). -/
def wordSample (pl : Plan) (slot row k : Nat) : Int × Int :=
  let m := pl.dtsM
  let t := pl.tmplLen
  let off : Int := 8 - ((t : Int) - 10) / 2
  (List.range m).foldl (fun acc (b : Nat) =>
    let i := (k : Int) - off - 10 * b
    if simplexBit m row b = 1 ∧ 0 ≤ i ∧ i < t then
      let x := pl.tmpl slot i.toNat
      (acc.1 + x.1, acc.2 + x.2)
    else acc) (0, 0)

/-- The samples Husk plays for a firing: code, word, or nothing for a dark firing. -/
def huskWave (pl : Plan) (slot variant kind row atten : Nat) : List (Int × Int) :=
  let g := gainRom atten
  if kind = 0 then
    (List.range pl.waveLen).map fun k =>
      let x := pl.waveSample slot variant k
      (huskScale x.1 g, huskScale x.2 g)
  else if kind = 1 then
    (List.range (10 * pl.dtsM + 16)).map fun k =>
      let x := wordSample pl slot row k
      (huskScale (satS 14 x.1) g, huskScale (satS 14 x.2) g)
  else []

/-- The tables in the active half of Husk memory (R108), read as a plan. -/
def State.husk (s : State) (pl : Plan) : Plan := { pl with secs := if s.sw.activeHalf1 then s.sw.half1 else s.sw.half0 }

/-! ## Firings -/

/-- Change the sweep in flight with an ordinal. -/
def State.setFlight (s : State) (n : Nat) (f : Flight → Flight) : State :=
  { s with sw := { s.sw with flights := s.sw.flights.map fun x => if x.ord = n then f x else x } }

/-- The sweep in flight with an ordinal. -/
def State.flightAt (s : State) (n : Nat) : Option Flight := s.sw.flights.find? fun f => decide (f.ord = n)

/-- The probe DACs play no waveform: they output 0 (R107, R109). -/
def State.playNothing (s : State) : State :=
  { s with sw := { s.sw with waves := s.sw.waves.map fun w => (w.1, []) } }

/-- An uncorrectable error in a fetched word suppresses the firing on every used port (R109). -/
def State.suppress (s : State) (f : Flight) (slot : Nat) : State :=
  let s := s.setFlight f.ord fun x => { x with suppressed := x.suppressed ++ [slot] }
  let s := (s.usedPorts f.plan).foldl (fun s p => (s.bump (pk 0x28000D p)).countAt f.index (24 + p)) s.eccLost
  (({ s with lin := { s.lin with suppressed := s.lin.suppressed ++ [s.now] } }).playNothing).cause 4

/-- The I and Q values on the probe DACs of a port at instant t: the waveform while it plays, else 0 (R102, R107). -/
def State.dacAt (s : State) (p t : Nat) : Int × Int :=
  let (start, w) := s.sw.waves.getD p (0, [])
  if start ≤ t then w.getD (t - start) (0, 0) else (0, 0)

/-- The waveform goes to the DACs of every enabled port, sample 0 at E − 8 ns (R102, R107); a port whose gate opens emits light. -/
def State.playWave (s : State) (f : Flight) (slot : Nat) : State :=
  let kind := f.kinds.getD slot 0
  let hp := s.husk f.plan
  let wave (p : Nat) : List (Int × Int) := huskWave hp slot (f.index % max 1 f.plan.variants) kind (f.rows.getD slot 0) (f.param p).atten
  let start := f.start + slot * f.plan.tick - 8
  let waves := s.sw.waves.zipIdx.map fun (w, p) => if s.portOn p then (start, wave p) else w
  let s := { s with sw := { s.sw with waves := waves } }
  let s : State := if decide (kind = 2) || (s.usedPorts f.plan).isEmpty then s else s.noteEmission start (f.plan.gateLen (kind = 1))
  (s.usedPorts f.plan).foldl (fun s p =>
    s.setPort p fun po => { po with lit := po.lit || (decide (kind ≠ 2) && s.gateReady p) }) s

/-- Slot s of the sweep in progress fires (R9, R109, R110): `corrected` and `bad` are what SECDED found in its words. -/
def State.fireSlot (s : State) (f : Flight) (slot corrected : Nat) (bad : Bool) : State :=
  let s := (s.count 53 corrected).setFlight f.ord fun x => { x with fired := slot + 1 }
  let s := if bad then s.suppress f slot else s.playWave f slot
  match s.flightAt f.ord with
  | some f => (s.openTicks f slot).pulse 4
  | none => s

/-- The sweep in progress: the latest one, while Sensing runs. -/
def State.inProgress (s : State) : Option Flight :=
  if s.pw.power = .sensing ∧ s.pw.shutting = false then s.sw.flights.reverse.head? else none

/-- SLOT_FIRING (R9, R109, R118): the next slot of the sweep in progress fires at its instant, and a DTS firing's Raman
return is accumulated. Slot 0 fired at the boundary, so its command only brings that return. -/
def execSlotFiring (slot corrected : Nat) (bad : Bool) (raman : List (List Nat)) (s : State) :
    Host.Outcome State Fault Refusal :=
  match s.inProgress with
  | none => .next s
  | some f =>
    let e := f.start + slot * f.plan.tick
    if slot = f.fired ∧ slot < f.plan.slots then
      let s := ((s.at e).settleShots).fireSlot f slot corrected bad
      .next (match s.flightAt f.ord with
        | some f => if f.kinds.getD slot 0 ≠ 0 then s.dtsShot f slot e raman else s
        | none => s)
    else if slot = 0 ∧ f.fired = 1 ∧ f.kinds.getD 0 0 ≠ 0 ∧ (s.lin.shots.any fun x => decide (x.e = e)) = false then
      .next (s.dtsShot f 0 e raman)
    else .next s

/-! ## Statistics frames (R15 to R18, R304) -/

/-- The default frame length (R16). -/
def defaultFrame (period : Nat) : Nat := (rdiv 1000000000 period).toNat

/-- The length a frame that begins now takes (R16, R484). -/
def State.frameLength (s : State) (pl : Plan) : Nat :=
  if s.og 0x5F0003 = 0 then max 1 (defaultFrame pl.period) else s.og 0x5F0003

/-- The statistics payload (Table 13-8). -/
def Frame.payload (f : Frame) (time : Nat) : List Byte :=
  le 8 f.number ++ le 8 f.first ++ le 4 f.sweeps ++ le 2 86 ++ le 2 0 ++ le 8 time ++ f.counters.flatMap (le 4)

/-- Optical monitors at a latch (Table 4-7). A probe peak is a measurement, so it is free. -/
def State.latchOptics (s : State) (p : Nat) : State :=
  let po := s.po p
  let (v, s) := if po.lit then s.draw 65536 else (toU 16 (-9999), s)
  let s := s.os (pk 0x280009 p) v
  let s := if po.retCount = 0 then s else s.osI 16 (pk 0x280008 p) (rdiv po.retSum po.retCount)
  s.setPort p fun po => { po with lit := false, retSum := 0, retCount := 0 }

/-- The latch of a frame (R18, R304): the snapshot, the statistics record, its pulse line. -/
def State.latchFrame (s : State) (fr : Frame) : State :=
  let s := s.countOwed fr
  let fr := (s.sw.frames.find? fun x => decide (x.number = fr.number)).getD fr
  let pay := fr.payload s.devNs
  let s := { s with sw := { s.sw with frames := s.sw.frames.filter fun x => decide (x.number ≠ fr.number) } }
  let s := (s.os 0x5F0001 fr.number).ds 0x5F0002 pay
  let s := fr.counters.zipIdx.foldl (fun s (v, i) => s.os (0x5F0010 + i) v) s
  let s := s.ports.foldl State.latchOptics s
  ((s.offer 14 { typ := 8, sweep := fr.first, stamp := fr.stamp, olen := pay.length, payload := pay }).2).pulse 5

/-- A new frame begins at the boundary of sweep n (R15); counts gathered while no frame was open enter it. -/
def State.beginFrame (s : State) (pl : Plan) (n : Nat) : State :=
  let len := s.frameLength pl
  let fr : Frame := ⟨s.sw.nextFrame, n, s.sw.lastStamp, 0, 0, [], len, false, s.sw.early, s.sw.earlyRefused⟩
  ({ s with sw := { s.sw with frames := s.sw.frames ++ [fr], nextFrame := s.sw.nextFrame + 1, early := noCounters
                              earlyRefused := [] } }).os 0x5F0004 len

/-- The runs of a frame with one more index. -/
def addIndex (n : Nat) (runs : List (Nat × Nat)) : List (Nat × Nat) :=
  match runs.reverse with
  | (a, k) :: r => if a + k = n then r.reverse ++ [(a, k + 1)] else runs ++ [(n, 1)]
  | [] => [(n, 1)]

/-- The sweep of a boundary, with index n and the ordinal at hand, joins its frame; a frame that has its length is closed. -/
def State.joinFrame (s : State) (pl : Plan) (n : Nat) : State :=
  let s := match s.sw.frames.reverse with
    | f :: _ => if f.closed then s.beginFrame pl n else s
    | [] => s.beginFrame pl n
  match s.sw.frames.reverse with
  | [] => s
  | f :: r =>
    let f := { f with
      sweeps := f.sweeps + 1, last := s.sw.ord, runs := addIndex n f.runs, closed := decide (f.length ≤ f.sweeps + 1) }
    { s with sw := { s.sw with frames := r.reverse ++ [f] } }

/-- A stop of Sensing ends the frame in progress (R18); it latches at once where its last sweep has completed already. -/
def State.closeFrame (s : State) : State :=
  let s := { s with sw := { s.sw with frames := s.sw.frames.map fun (f : Frame) => { f with closed := true } } }
  match s.sw.frames.find? fun fr => !(s.sw.flights.any fun f => decide (f.ord = fr.last)) with
  | none => s
  | some fr =>
    let s := { s with sw := { s.sw with past := s.sw.past.map fun (p : Flight × Nat × Bool) => if p.1.ord = fr.last then (p.1, s.now, true) else p } }
    s.latchFrame fr

/-! ## Completion (R14) -/

/-- Spans that no window of a sweep in flight or to come can meet any more are forgotten: a shot asks for the P before it and its
window (R204), P is 800 µs at most (R7), and a burst asks for every instant of its capture. -/
def State.pruneSpans (s : State) : State :=
  let starts := s.sw.flights.map (·.start) ++ s.lin.shots.map (·.e) ++ s.ch.burst01.toList.map (·.begins)
  let before := starts.foldl min s.now - 800000
  let old (x : Nat × Option Nat × Nat) : Bool := match x.2.1 with | some b => decide (b < before) | none => false
  let gone (x : Nat × Option Nat) : Bool := match x.2 with | some b => decide (b < before) | none => false
  { s with
    opt := { s.opt with
      seedSpans := s.opt.seedSpans.filter fun x => !gone x
      ports := s.opt.ports.map fun (po : PortOptics) => { po with forced := po.forced.filter fun x => !old x } }
    lin := { s.lin with suppressed := s.lin.suppressed.filter fun t => decide (before ≤ t) } }

/-- The last window of a sweep has closed. -/
def Flight.ovr (f : Flight) (now : Nat) : Bool :=
  decide (f.plan.slots ≤ f.fired) && decide (f.start + (f.plan.slots - 1) * f.plan.tick + f.plan.window ≤ now)

/-- Work of a sweep is still in the Hazel pipeline (R14): a library item of it is released or runs, or an output of one of its
ticks is not settled. -/
def State.inHazel (s : State) (f : Flight) : Bool :=
  (s.hz.engines.any fun g => (g.item.toList ++ g.released).any fun i => !i.user && decide (i.ord = f.ord)) ||
    s.das.ticks.any fun w => decide (w.ord = f.ord) && !(List.range w.outs.length).all (s.settled f w)

/-- A sweep completes: its ticks enter the corner buffer and count, its frame latches with its last sweep. -/
def State.complete (s : State) (f : Flight) : State :=
  let s := (((s.settleShots).oweUpdates f).cornerTurn f).dasComplete f
  let s := { s with sw := { s.sw with flights := s.sw.flights.filter fun x => decide (x.ord ≠ f.ord) } }
  let s := s.ports.foldl State.popSettle s.pruneSpans
  let latch := s.sw.frames.find? fun fr => fr.closed && decide (fr.last = f.ord)
  let s := { s with sw := { s.sw with past := some (f, s.now, latch.isSome) } }
  match latch with
  | none => s
  | some fr => s.latchFrame fr

/-- SWEEP_COMPLETION (R14): the oldest sweep in flight completes once its last window has closed and its last channel has left
Hazel. -/
def execSweepCompletion (t : Nat) (s : State) : Host.Outcome State Fault Refusal :=
  let s := s.at t
  match s.sw.flights with
  | [] => .next s
  | f :: _ => if f.ovr s.now = true ∧ s.inHazel f = false then .next (s.complete f) else .next s

end Sys2Proof.Machine
end

