-- ==== Sys2Proof/Machine/Boundary.lean ====
section
/-! DEFINITION. The sweep boundary (R9 to R13) and everything that acts at one: takes and health steps (R54 to R58, R521),
shadow transfers (R59), chain switches (R61 to R64), statistics frames and integration periods (R15, R19), the stop of
Sensing (R94, R467) and a member's realign (R413); and the choices Husk fixes 2 µs before it (R110). -/

namespace Sys2Proof.Machine

open Sys2Proof

/-! ## Failed engines (R234) -/

/-- An engine's missed checkpoint goes into the mask, its cause and the count at the boundary after it. -/
def State.failEngine (s : State) (e : Nat) : State :=
  match (s.engine e).report with
  | none => s
  | some (cause, _) =>
    let s := s.setEngine e fun g => { g with report := none }
    ((s.osBit 0x410002 e true).os (okey 0x4100 (0x40 + e)) cause).bump 0x410004

/-- The misses that wait: engine, cause and kernel identifier. -/
def State.misses (s : State) : List (Nat × Nat × Nat) :=
  (List.range 12).filterMap fun e => (s.engine e).report.map fun (cause, kernel) => (e, cause, kernel)

/-- The new failed engines change each rung's power; a prepared chain switch whose rung can run no more is lost (R62). -/
def State.failEngines (s : State) : State :=
  let before := s.og 0x410002
  let s := (List.range 12).foldl State.failEngine s
  if s.og 0x410002 = before then s
  else
    let s := (List.range 16).foldl (fun s r => s.setPower r) s
    match s.lad.switch with
    | some w =>
      match w.chain with
      | some tag => if s.runnable w.rung then s else s.dropSwitch.loseChain tag
      | none => s
    | none => s

/-- Each miss is reported at the boundary of sweep n: event, EMCY and log. -/
def State.postEngines (s : State) (n : Nat) (l : List (Nat × Nat × Nat)) : State :=
  l.foldl (fun s (e, cause, kernel) =>
    let s := s.event 0x0004 0 ([byte e, byte cause, byte (s.og (okey 0x4100 (0x50 + e))), 0] ++ le 2 kernel ++ le 2 0 ++ le 8 n)
    (s.emcy 0x6200 e n).log 0x0010 1 0 [byte e, byte cause]) s

/-! ## Accounting (R444, Table 21-6) -/

/-- The conditions a sweep bears as they stand: seed low, trip, bias fault, no transmit lane up. -/
def State.standing (s : State) (pl : Plan) : List Nat :=
  let used := s.usedPorts pl
  (if s.opt.seedLow || used.any fun p => (s.po p).tripped then [8] else []) ++
    (if used.any fun p => (s.po p).firing && (s.po p).biasClosed then [2] else []) ++
    (if s.ln.tx.any (·.up) then [] else [12])

/-- The sweep in progress ends at a boundary: its P is charged. -/
def State.chargeSweep (s : State) : State :=
  match s.inProgress with
  | none => s
  | some f =>
    let s := (s.standing f.plan).foldl State.cause s
    let causes := s.mg.causes
    let s := if s.mg.intended then (s.account f.plan.period causes).outages f.plan.period causes else s
    s.setMg fun m => { m with causes := [], since := s.now }

/-! ## Shadow transfers (R57, R59) -/

/-- Re-arm of a tripped port (R83): its samples are forced no more. -/
def State.rearm (s : State) (p : Nat) : State :=
  s.setPort p fun po =>
    { po with tripped := false, forced := po.forced.map fun (a, b, k) => (a, if k = 1 then some (b.getD s.now) else b, k) }

/-- The transfer of open-slot enables (R237): those of the plan's slots; a new enable zeroes the user scratch of its engine
and clears its fault bit. -/
def State.enableSlots (s : State) (pl : Plan) (v : Nat) : State :=
  let v := v % 2 ^ pl.openSlots
  let old := s.og 0x410012
  let new := (List.range pl.openSlots).filter fun n => bit v n && !bit old n
  let s := new.foldl (fun s n =>
    (s.osBit 0x410013 n false).hzWrite (pl.slotEntry n 0 1) true 0xF000 (rep 4032 0)) s
  s.os 0x410012 v

/-- One shadowed write reaches its object at the boundary of sweep n under a plan. -/
def State.transfer (s : State) (pl : Plan) (n : Nat) (w : ShadowWrite) : State :=
  if w.index = 0x3400 then s.poppyTransfer w.sub w.bytes (pl.slots * n)
  else if 0x3A00 ≤ w.index ∧ w.index < 0x3B00 then s.thresholdTransfer w.index w.sub (unle w.bytes)
  else if w.index = 0x4100 ∧ w.sub = 0x12 then s.enableSlots pl (unle w.bytes)
  else if w.index = 0x4100 then s.ds (okey w.index w.sub) w.bytes
  else if 0x2800 ≤ w.index ∧ w.index < 0x2C00 ∧ w.sub = 6 then s.rearm ((w.index - 0x2800) / 0x100)
  else s.os (okey w.index w.sub) (unle w.bytes)

/-- Every unit accepted 2 µs or more before the boundary transfers, in order; the ports whose attenuation did are answered. -/
def State.transfers (s : State) (pl : Plan) (n : Nat) : List Nat × State :=
  let due := s.lad.pend.filter fun u => decide (u.accepted + 2000 ≤ s.sw.next)
  let writes := due.flatMap (·.writes)
  let s := s.setLad fun l => { l with pend := l.pend.filter fun u => !decide (u.accepted + 2000 ≤ s.sw.next) }
  let s := writes.foldl (fun s w => s.transfer pl n w) s
  ((List.range 4).filter fun p => writes.any fun w => decide (w.index = 0x2800 + 0x100 * p ∧ w.sub = 2), s)

/-! ## Takes (R56, R57, R521) -/

/-- The plan's figures and parameters of a port go into its objects (R57, R98, R150). -/
def State.takePort (s : State) (pl : Plan) (n p : Nat) : State :=
  let map := pl.sec 0x10 p
  let s := (s.os (pk 0x2C0001 p) (pl.fibreLen p)).os (pk 0x2C0002 p) (pl.groupIndex p)
  let s :=
    if pl.uses p then
      let s := ((s.os (pk 0x2C0005 p) (fld map 0xC 1)).os (pk 0x2C0006 p) (fld map 0xD 1)).os (pk 0x2C0007 p) (fld map 0xF 1)
      let s := (s.os (pk 0x2C0008 p) (fld map 0x10 4)).os (pk 0x2C0009 p) (fld map 0x18 4)
      ((s.os (pk 0x2C000B p) (pl.chans p)).os (pk 0x2C000C p) (pl.gauge p)).os (pk 0x2C000D p) (pl.perChan p)
    else s
  (paramList (pl.sec 0x70 p)).foldl (fun s (idx, sub, size, v) => s.transfer pl n ⟨idx, sub, le size v⟩) s

/-- Open slots keep their enable only where the new plan's entry is the old one (R237). -/
def State.slotsTake (s : State) (old : Option Plan) (pl : Plan) : State :=
  (List.range 16).foldl (fun s n =>
    let entry (q : Plan) : List Byte := if n < q.openSlots then sliceB (q.sec 0x21 0) (16 + 32 * n) 32 else []
    if bit (s.og 0x410012) n = false ∨ (n < pl.openSlots ∧ old.map entry = some (entry pl)) then s
    else (s.osBit 0x410012 n false).event 0x0006 5 [byte n]) s

/-- The ports under a plan that takes: those it uses fire, those the plan before it used go dark once the sweeps in flight
complete (R39). -/
def State.portsTake (s : State) (before : Option Plan) (pl : Plan) : State :=
  s.ports.foldl (fun s p =>
    if pl.uses p then s.setPort p fun po => { po with firing := po.live, starting := false, darkAfter := none }
    else if before.any (·.uses p) then
      (s.setPort p fun po => { po with firing := false, darkAfter := some (s.sw.ord - 1) }).os (pk 0x2C000A p) 0
    else s) s

/-- A plan takes rung r at the boundary of sweep n (R56, R57, R521); `entry` at the first boundary of an entry to Sensing. -/
def State.take (s : State) (r : Nat) (pl : Plan) (n : Nat) (entry late : Bool) : State :=
  let old := s.activePlan
  let oldRung := s.og 0x240001
  let before := s.lad.inForce
  let sched := (pl.pickSchedule (s.og 0x410002)).getD 0
  let chain := (s.usedPorts pl).filter fun p => entry || chainDiffers old pl p
  let s := s.loadHalf pl
  let s := { s with sw := { s.sw with activeHalf1 := !s.sw.activeHalf1, dtsCount := 0 } }
  let s := s.setLad fun l => { l with inForce := some pl, sched := sched }
  let s := ((((s.os 0x240005 n).os 0x240001 r).os 0x240007 sched).os 0x410003 (pl.hdr 0x28 4)).showRungs
  let s := if entry = false ∧ oldRung = r then s else { s with pod := { s.pod with minute := (s.sw.last, 0, 0) } }
  let s := (s.event 0x0001 3 ([byte (if old.isSome then oldRung else 0xFF), byte r, 0, 0] ++ le 4 pl.ident ++ le 8 n)).pulse 7
  let s := if oldRung = r ∧ old.isSome = true then s else s.log 0x0011 3 0 [byte (if old.isSome then oldRung else 0xFF), byte r]
  let s := (s.queuesTake (s.queueBase r) pl).ownBanks pl |>.releaseRegions
  let s := ((s.zonesTake old pl).capturesTake old pl s.now).seqTake old pl
  let s := (s.slotsTake old pl).portsTake before pl
  let s := chain.foldl (fun s p => s.chainReset p n) s
  let s := if entry ∨ (old.map fun o => o.sec 0x50 0) ≠ some (pl.sec 0x50 0) then s.mapChange else s
  let s := s.poppyTake old pl n entry late chain
  s.ports.foldl (fun s p => s.takePort pl n p) s

/-- The pending switch has taken (R58, R63, R64): a chain switch is reported, late or not, or as failed where a lower rung took
in its place (R55). -/
def State.tookSwitch (s : State) (w : Switch) (n : Nat) (late : Bool) : State :=
  let s := (s.os 0x240002 0xFF).setLad fun l => { l with switch := none }
  match w.chain with
  | none => s
  | some tag =>
    if s.og 0x240001 ≠ w.rung then (s.setLad fun l => { l with member := none }).report tag 7 n
    else
    let s := s.setLad fun l => { l with member := l.member.map fun m => { m with switched := true } }
    (if late then s.os 0x240014 n else s).report tag (if late then 2 else 1) n

/-! ## The sweep that begins -/

/-- The parameters of a port that a boundary fixes (R136, R150). -/
def State.portParams (s : State) (atten : Option Nat) (p : Nat) : PortParams :=
  ⟨atten.getD (s.og (pk 0x280002 p)), s.og (pk 0x280003 p), s.og (pk 0x2C0003 p), s.og (pk 0x2C0005 p), s.og (pk 0x2C0006 p),
    s.og (pk 0x2C0007 p), s.og (pk 0x2C0008 p), s.og (pk 0x2C0009 p)⟩

/-- Gates of ports with a loop in Fault close from this boundary, and open again once no loop is (R88). -/
def State.judgeBias (s : State) : State :=
  let s := s.ports.foldl (fun s p =>
    s.setPort p fun po =>
      let fault := po.firing && po.anyLoop 5
      { po with
        biasClosed := fault
        forced :=
          if fault && !po.biasClosed then po.forced ++ [(s.now, none, 2)]
          else if !fault && po.biasClosed then po.forced.map fun (a, b, k) => (a, if k = 2 then some (b.getD s.now) else b, k)
          else po.forced }) s
  s.showOptics

/-- The kind and row of each slot's firing in the sweep that begins (R113, R116, R197). -/
def State.dtsChoice (s : State) (pl : Plan) : List Nat × List Nat × Nat :=
  if pl.hasDts = false then (rep pl.slots 0, rep pl.slots 0, s.sw.dtsCount)
  else
    let j := match s.openPeriod with | some q => s.sw.ord - q.ord | none => 0
    let kind := pl.patEntry j
    let c := s.sw.dtsCount
    (modAt (rep pl.slots 0) pl.dtsSlot fun _ => kind,
      modAt (rep pl.slots 0) pl.dtsSlot fun _ => if kind = 0 then 0 else c % max 1 pl.dtsM, if kind = 0 then c else c + 1)

/-- The stamp of a boundary (R119): a multiple of 62.5 ps within 0.5 ns of the device time; which one is not stated. -/
def State.stampNow (s : State) : Nat × State :=
  let low := ceilDiv (s.tb.t - 32768) 4096
  let (k, s) := s.draw ((s.tb.t + 32768) / 4096 - low + 1)
  ((low + k) * 4096, s)

/-- A boundary that begins sweep n under a plan: what happens at it carries its index and stamp (R302) and counts in the frame that
the boundary begins, where it begins one (R17). -/
def State.openBoundary (s : State) (pl : Plan) (n : Nat) : State :=
  let (stamp, s) := s.stampNow
  ({ s with sw := { s.sw with last := s.sw.next, lastIndex := n, lastStamp := stamp, ord := s.sw.ord + 1 } }).joinFrame pl n

/-- The integration periods at a boundary (R199, R116): one ends with its length or at a take, and the next begins. -/
def State.periodsAt (s : State) (f : Flight) (taken : Bool) : State :=
  let ovr : Bool := match s.openPeriod with
    | some q => taken || decide (q.ord + q.plan.dtsLen ≤ f.ord)
    | none => true
  if ovr = false then s
  else
    let s := if s.openPeriod.isSome then (s.endPeriod f.ord s.sw.last).pulse 6 else s
    ({ s with sw := { s.sw with dtsCount := 0 } }).beginPeriod f

/-- A sweep with index n begins under a plan at the boundary that has been reached (R9, R110). -/
def State.beginSweep (s : State) (r : Nat) (pl : Plan) (n : Nat) (taken late : Bool) : State :=
  let b := s.sw.next
  let (changed, s) := s.transfers pl n
  let s := s.judgeBias
  let fixed := s.sw.choice.filter fun c => decide (c.index = n)
  let f : Flight :=
    { index := n, ord := s.sw.ord, start := b, stamp := s.sw.lastStamp, plan := pl, rung := r, sched := s.lad.sched, taken := taken, late := late
      params := (List.range 4).map fun p => s.portParams (fixed.bind fun c => c.atten[p]?) p
      thresholds := (List.range pl.zones).map fun z => (s.og (okey (0x3A00 + z) 3), s.og (okey (0x3A00 + z) 4))
      kinds := [], rows := [], suppressed := [], fired := 0 }
  let s := { s with sw := { s.sw with next := b + pl.period, choice := none } }
  let s := s.periodsAt f taken
  let (kinds, rows, c) := s.dtsChoice pl
  let f := { f with kinds := kinds, rows := rows }
  let s := changed.foldl (fun s p =>
    match s.openPeriod with
    | some q => if q.ord = f.ord then s else s.setPeriod q.ord fun q => { q with changed := modAt q.changed p fun _ => true }
    | none => s) s
  let s := { s with sw := { s.sw with dtsCount := c, flights := s.sw.flights ++ [f] } }
  let s := (s.os 0x220013 ((n + 1) % 2 ^ 64)).burstBoundary f
  let s := (s.standing pl).foldl State.cause s
  let s := match s.pod.cycle with
    | some (w, a, none) => s.setPod fun p => { p with cycle := some (w, a, some b) }
    | _ => s
  let s := (s.countMismatch n).sendBoundary.pulse 3
  (s.fireSlot f 0 0 ((fixed.map (·.bad)).getD false)).releaseBanks

/-! ## The stop (R94, R467) -/

/-- The boundary at which Sensing stops: nothing fires, the frame and the integration period end. -/
def State.stopSensing (s : State) : State :=
  let s := if s.openPeriod.isSome then (s.endPeriod (s.sw.ord + 1) s.now).pulse 6 else s
  let s := s.closeFrame.capturesStop.zonesStop
  let s := s.ports.foldl (fun s p => s.os (pk 0x2C000A p) 0) s.playNothing.burstsStop
  let s := (s.os 0x340001 0).setLad fun l => { l with inForce := none }
  let s := { s with sw := { s.sw with choice := none, realign := none } }
  let s := (s.setPw fun w => { w with stopWanted := false, shutting := true, entry := none }).showOptics
  s.enterPower .ready

/-- The stop boundary: the last sweep is charged; the pause of an activation charges its cause from here (Table 21-6). -/
def State.stopBoundary (s : State) : State :=
  let s := s.chargeSweep.stopSensing
  if s.up.pausing then s.chargeTo 1 else s

/-- No rung can run (R55): the boundary becomes a stop boundary, with its EMCY and charge. -/
def State.healthStop (s : State) : State :=
  let s := (s.emcy 0x6210 0 (s.og 0x410002)).stopSensing.chargeTo 0
  s.setPw fun w => { w with goal := some .ready }

/-! ## A member's grid (R413) -/

/-- The head runs Sensing as far as its messages tell: a BOUNDARY came within two of its sweep periods. -/
def State.headSensing (s : State) : Bool :=
  match s.dr.headBoundary with
  | some (_, _, p, at_) => decide (s.now ≤ at_ + 32 * p)
  | none => false

/-- Where a member's first sweep begins: the head's first boundary from now on and its index, none where the member keeps its
own grid. -/
def State.firstGrid (s : State) (pl : Plan) : Option (Nat × Nat) :=
  match s.dr.headBoundary with
  | some (index, stamp, period, _) =>
    if s.isHead = true ∨ s.headSensing = false ∨ pl.period ≠ 16 * period then none
    else some (headNext (s.headGrid index stamp period) (s.sw.next - 1))
  | none => none

/-- The next boundary is held to an instant, where the sweep takes an index. -/
def State.hold (s : State) (x k : Nat) : State := { s with sw := { s.sw with next := x, realign := some (x, k), choice := none } }

/-! ## The boundary -/

/-- What a boundary takes: a rung with its switch, when the switch is the reason. -/
inductive Target where
  /-- The plan in force goes on, with this schedule. -/
  | keep (sched : Nat)
  | switchTo (r : Nat) (w : Option Switch)
  | stop

/-- The pending switch takes at this boundary (R56, R61, R63). -/
def Switch.due (w : Switch) (boundary n : Nat) : Bool :=
  w.prepared && decide (w.readyAt + 2000 ≤ boundary) &&
    (w.chain.isNone || (match w.commit with | some c => decide (c ≤ n) | none => false))

/-- A switch of a chain is late when its take falls at an index other than C (R63). -/
def Switch.lateAt (w : Switch) (n : Nat) : Bool := w.chain.isSome && decide (w.commit ≠ some n)

/-- What the boundary of sweep n takes (R54, R55, R443). -/
def State.target (s : State) (n : Nat) : Target :=
  let a := s.og 0x240001
  match s.lad.switch.filter fun w => w.due s.sw.next n with
  | some w => (match s.stepDown w.rung with | some r => .switchTo r (some w) | none => .stop)
  | none =>
    match s.activePlan.bind fun pl => pl.pickSchedule (s.og 0x410002) with
    | none => (match s.stepDown a with | some r => .switchTo r none | none => .stop)
    | some i =>
      if s.lad.derateDue = true ∧ s.og 0x500031 < a then
        match s.stepDown (s.og 0x500031) with
        | some r => .switchTo r none
        | none => .keep i
      else .keep i

/-- A schedule of the same plan takes over all Hazel work, that of earlier sweeps included (R167, R233); what failed engines lost
under the old one stays lost (R166). -/
def State.setSchedule (s : State) (pl : Plan) (i : Nat) : State :=
  if s.lad.sched = i then s
  else
    let s := ((s.sw.flights.filter fun f => decide (f.plan = pl)).foldl State.markLost (s.os 0x240007 i)).setLad fun l => { l with sched := i }
    { s with sw := { s.sw with flights := s.sw.flights.map fun (f : Flight) => if f.plan = pl then { f with sched := i } else f } }

/-- Open slots that faulted lose their enable (R240). -/
def State.dropFaulted (s : State) : State :=
  let s := s.hz.dropSlots.foldl (fun s n => s.osBit 0x410012 n false) s
  { s with hz := { s.hz with dropSlots := [] } }

/-- A boundary in Sensing that is not held and at which the host stops nothing; `l` are the engine misses it reports. -/
def State.sweepOn (s : State) (n : Nat) (l : List (Nat × Nat × Nat)) : State :=
  match s.target n, s.lad.inForce with
  | .stop, _ => (s.postEngines n l).healthStop
  | .switchTo r w, _ =>
    match s.rung r with
    | none => s.postEngines n l
    | some pl =>
      let s := (s.openBoundary pl n).postEngines n l
      let s := if w.isSome then s else (s.reservePlan r pl).getD s
      let late := (w.map fun w => w.lateAt n).getD false
      let s := (s.setLad fun l => { l with derateDue := false }).take r pl n false late
      (match w with | some w => s.tookSwitch w n late | none => s).beginSweep r pl n true late
  | .keep i, some pl =>
    (((s.openBoundary pl n).postEngines n l).setSchedule pl i).beginSweep (s.og 0x240001) pl n false false
  | .keep _, none => s.postEngines n l

/-- The index of the sweep that the coming boundary begins (R13, R413). -/
def State.comingIndex (s : State) : Nat :=
  match s.sw.realign with
  | some (x, k) => if s.sw.next = x then k else (s.sw.lastIndex + 1) % 2 ^ 64
  | none => if s.pw.entry.isSome then s.og 0x220013 else (s.sw.lastIndex + 1) % 2 ^ 64

/-- A boundary in Sensing. -/
def State.runBoundary (s : State) : State :=
  let s := s.dropFaulted
  let n := s.comingIndex
  let l := s.misses
  let s := s.failEngines
  if s.pw.stopWanted then (s.postEngines n l).stopBoundary
  else
    match s.sw.realign with
    | some (x, k) =>
      if s.sw.next < x then (((s.postEngines n l).chargeSweep.hold x k).cause 11)
      else
        let s := s.chargeSweep
        ({ s with sw := { s.sw with realign := none } }).sweepOn n l
    | none => s.chargeSweep.sweepOn n l

/-- The first boundary of an entry to Sensing (R91, R92, R521): the take, and the first sweep. -/
def State.enterSensing (s : State) (r : Nat) (pl : Plan) (n : Nat) (l : List (Nat × Nat × Nat)) : State :=
  let w := s.lad.switch.filter fun w => w.chain.isNone || w.commit.isSome
  let late := (w.map fun w => w.lateAt n).getD false
  let s := s.settleIdle.setMg fun m => { m with charge := none, causes := [] }
  let s := { s with
    sw := { s.sw with nextFrame := 0, frames := [], realign := none }
    ses := { s.ses with zoneTick := none } }
  let s := s.ports.foldl (fun s p => ((s.os (pk 0x2C0004 p) 0).os (pk 0x30000D p) 0).os (pk 0x30000E p) 0) (s.os 0x42000C 0)
  let s := (s.openBoundary pl n).postEngines n l
  let s := (s.setPw fun w => { w with entry := none }).take r pl n true late
  let s := s.enterPower .sensing
  let s := match w with | some w => s.tookSwitch w n late | none => s
  let s := s.beginSweep r pl n true late
  (s.ports.foldl (fun s p => s.os (pk 0x30000A p) (s.og (pk 0x300009 p))) s).transitionDone

/-- The boundary that an entry to Sensing ends in; one that a stop command met ends it there without a firing (R467). -/
def State.entryBoundary (s : State) (e : Entry) : State :=
  let s := s.dropFaulted
  let l := s.misses
  let s := s.failEngines
  let stopped := s.postEngines s.comingIndex l
  if e.stop then stopped.stopSensing
  else
    match s.takeRung with
    | none => stopped.healthStop
    | some r =>
      match s.rung r with
      | none => stopped.healthStop
      | some pl =>
        match s.sw.realign, s.firstGrid pl with
        | none, some (x, k) => if x ≤ s.sw.next then s.enterSensing r pl k l else stopped.hold x k
        | _, _ => s.enterSensing r pl s.comingIndex l

/-- What the next boundary does, once its instant is reached. -/
def State.atBoundary (s : State) : State :=
  match s.pw.entry with
  | some e => if s.pw.power = .ready then s.entryBoundary e else s
  | none => if s.pw.power = .sensing ∧ s.pw.shutting = false then s.runBoundary else s

/-- A boundary lies ahead: Sensing runs, or an entry leads to it. -/
def State.boundaryAhead (s : State) : Bool :=
  (decide (s.pw.power = .sensing) && !s.pw.shutting) || (decide (s.pw.power = .ready) && s.pw.entry.isSome)

/-- SWEEP_BOUNDARY (R9). -/
def execSweepBoundary (s : State) : Host.Outcome State Fault Refusal :=
  if s.boundaryAhead then .next (s.at s.sw.next).atBoundary else .next s

/-- What a sweep that begins takes from Husk's choices 2 µs before it, and the ports whose gates open for its slot 0 (R73). -/
def State.choiceFor (s : State) (f : Flight) (bad : Bool) : Choice :=
  let kind := f.kinds.getD 0 0
  let opens (p : Nat) : Bool := !bad && decide (kind ≠ 2) && s.gateReady p
  ⟨f.index, f.params.map (·.atten), bad, (s.usedPorts f.plan).filter opens, f.plan.gateLen (kind = 1)⟩

/-- CHOICE_FIX (R109, R110): 2 µs before the boundary Husk fixes what governs the sweep it begins, as that boundary will find
it, and fetches the waveform of slot 0. -/
def execChoiceFix (corrected : Nat) (bad : Bool) (s : State) : Host.Outcome State Fault Refusal :=
  if s.boundaryAhead = false then .next s
  else
    let s := (s.at (s.sw.next - 2000)).count 53 corrected
    let s' := (s.at s.sw.next).atBoundary
    match s'.sw.flights.reverse with
    | f :: _ =>
      if f.start = s.sw.next then .next { s with sw := { s.sw with choice := some (s'.choiceFor f bad) } } else .next s
    | [] => .next s

end Sys2Proof.Machine
end

