-- ==== Sys2Proof/Machine/Bundle.lean ====
section
/-! DEFINITION. The bundle encoding of Hazel (R221, Tables 10-3 to 10-7): the slot commands that a dword of program memory spells. -/

namespace Sys2Proof.Machine

open Sys2Proof

/-- The control slot, bits [63:50]: op 6 is illegal. An END ends its item at an instant, which the bundle does not hold. -/
def controlSlot (e t w : Nat) : Option Instr :=
  let x := bits w 60 50
  match bits w 63 61 with
  | 0 => some (.hzNop e)
  | 1 => some (.hzLoop e x)
  | 2 => some (.hzJmp e x)
  | 3 => some (.hzBra e x)
  | 4 => some (.hzBrn e x)
  | 5 => some (.hzChk e (x % 256))
  | 7 => some (.hzEnd e t)
  | _ => none

/-- The address slot, bits [49:40]. -/
def addressSlot (e w : Nat) : Instr :=
  let k := bits w 46 44
  let imm := bits w 43 40
  match bits w 49 47 with
  | 0 => .hzAddrNop e
  | 1 => .hzPadd e k
  | 2 => .hzPldp e k imm
  | 3 => .hzPldm e k imm
  | 4 => .hzPldl e k imm
  | 5 => .hzPldz e k imm
  | 6 => .hzPaddi e k imm
  | _ => .hzPsets e k imm

/-- A load/store slot, 12 bits: op 7 is illegal. What its access meets in memory the bundle does not hold. -/
def ldstSlot (e : Nat) (slot1 : Bool) (w : Nat) : Option Instr :=
  let o : LsOp := ⟨slot1, bits w 7 4, bits w 3 1, bit w 0, .none, 0⟩
  match bits w 11 8 with
  | 0 => some (.hzLdstNop e slot1)
  | 1 => some (.hzLdw e o)
  | 2 => some (.hzLdb e o)
  | 3 => some (.hzLdh e o)
  | 4 => some (.hzLdhs e o)
  | 5 => some (.hzLds e o)
  | 6 => some (.hzLda e o)
  | 8 => some (.hzStw e o)
  | 9 => some (.hzStb e o)
  | 10 => some (.hzSth e o)
  | 11 => some (.hzStbp e o)
  | 12 => some (.hzSts e o)
  | 13 => some (.hzSta e o)
  | 14 => some (.hzStaw e o)
  | 15 => some (.hzStaq e o)
  | _ => none

/-- The MAC slot, bits [15:0]: ops 0x1C to 0x1F are illegal. -/
def macSlot (e w : Nat) : Option Instr :=
  let o : MacOp := ⟨bits w 10 10, bits w 9 6, bits w 5 2, bits w 1 0⟩
  match bits w 15 11 with
  | 0 => some (.hzMacNop e)
  | 1 => some (.hzMac e o)
  | 2 => some (.hzMsu e o)
  | 3 => some (.hzMpy e o)
  | 4 => some (.hzClr e o)
  | 5 => some (.hzAccd e o)
  | 6 => some (.hzSeta e o)
  | 7 => some (.hzRsa e o)
  | 8 => some (.hzLsa e o)
  | 9 => some (.hzDivr e o)
  | 10 => some (.hzExt e o)
  | 11 => some (.hzAdd e o)
  | 12 => some (.hzSub e o)
  | 13 => some (.hzAdds e o)
  | 14 => some (.hzSubs e o)
  | 15 => some (.hzMin e o)
  | 16 => some (.hzMax e o)
  | 17 => some (.hzAnd e o)
  | 18 => some (.hzOr e o)
  | 19 => some (.hzXor e o)
  | 20 => some (.hzRsd e o)
  | 21 => some (.hzLsd e o)
  | 22 => some (.hzCgt e o)
  | 23 => some (.hzCeq e o)
  | 24 => some (.hzSel e o)
  | 25 => some (.hzMov e o)
  | 26 => some (.hzPrm e o)
  | 27 => some (.hzAbs e o)
  | _ => none

/-- The five slots of a bundle in the order in which they write (R222): MAC, load/store 0, load/store 1, address, control. None
for a bundle with an illegal operation. -/
def bundleSlots (e t w : Nat) : Option (List Instr) :=
  match macSlot e w, ldstSlot e false (bits w 27 16), ldstSlot e true (bits w 39 28), controlSlot e t w with
  | some m, some a, some b, some c => some [m, a, b, addressSlot e w, c]
  | _, _, _, _ => none

/-- The slots of the bundle that the running context of an engine is at, none while nothing runs there or where the bundle is
illegal. -/
def State.slotsAt (s : State) (e t : Nat) : Option (List Instr) :=
  let g := s.engine e
  g.running.bind fun user => bundleSlots e t (s.bundle e (g.ctx user).pc)

end Sys2Proof.Machine
end

