-- ==== Sys2Proof/Machine/MemErrors.lean ====
section
/-! DEFINITION. Errors and stalls of DRAM (R355, R356), and the end of a long operation (R473). -/

namespace Sys2Proof.Machine

open Sys2Proof

/-- An uncorrectable DRAM error in a read at an address (R356): counted, its address kept, IS12 pulsed. -/
def State.dramError (s : State) (addr : Nat) : State :=
  ((s.eccLost.bump 0x42000F).os 0x420010 (addr % 2 ^ 64)).pulse 12

/-- The memory-error bits of a bin in a period (R205): the period in progress, or the oldest that still needs its sums. -/
def State.binError (s : State) (port bin : Nat) (latest : Bool) : State :=
  match (if latest then s.lin.periods.getLast? else s.lin.periods.head?) with
  | none => s
  | some q =>
    let mark (l : List Bool) : List Bool := (if l.isEmpty then rep q.plan.rn false else l).set bin true
    s.setPeriod q.ord fun q => { q with memErr := modAt (modAt q.memErr (2 * port) mark) (2 * port + 1) mark }

/-- A corner-turn read of the value at a position of a tick came back with an error: bit 0 of its flags (R180, R356). -/
def State.tickError (s : State) (port pos tick : Nat) : State :=
  s.setPpop port fun pp => { pp with ticks := pp.ticks.map fun (k : PTick) =>
    if k.index = tick then { k with errs := pos :: k.errs } else k }

/-- A record staged from DRAM leaves as read, and its check stays (R297, R356). -/
def State.stageError (s : State) (q : Nat) : State :=
  match (s.queue q).recs with
  | [] => s
  | r :: rest =>
    let (payload, s) := s.garble r.payload
    s.setQueue q fun qq => { qq with recs := { r with payload := payload } :: rest }

/-- A frame in a replay buffer read with an error: its payload leaves as read. -/
def State.replayError (s : State) (lane seq : Nat) : State :=
  match (s.tx lane).replay.find? fun f => decide (f.lseq = seq) with
  | none => s
  | some f =>
    let (p, s) := s.garble f.payload
    let spoil (x : LaneFrame) : LaneFrame := if x = f then { x with payload := p } else x
    s.setTx lane fun l => { l with replay := l.replay.map spoil, resend := l.resend.map fun x => (spoil x.1, x.2) }

/-- What the reader of a faulty DRAM access makes of it (R356). -/
def State.readerError (s : State) (addr : Nat) : DramReader → State
  | .linseed port bin latest => s.binError port bin latest
  | .linseedSram port bin => s.binError port bin true
  | .hazelSram engine user => s.memoryFault engine user
  | .capture buf => s.setCap buf fun k => { k with flags := k.flags ||| 64 }
  | .poppy port pos tick => s.tickError port pos tick
  | .queue q => s.stageError q
  | .burst => s.setBurst false (s.ch.burst01.map fun b => { b with bad := true })
  | .prepare => (match s.lad.switch with | some w => if w.prepared then s else s.failPrepare | none => s)
  | .flax ch => if s.chanBusy ch then s.chanFault ch 6 addr else s
  | .almond => { s with al := { s.al with upset := s.al.upset || s.al.job.isNone } }
  | .walnut => s
  | .replay lane seq _ => s.replayError lane seq
  | .storage q _ => s.stageError q

/-- An error in an SRAM that is not DRAM: a single-bit one is corrected, another one reaches its reader; Cashew's count in its own
objects too (R338, R339). -/
def State.sramError (s : State) (addr : Nat) (who : DramReader) : State :=
  let cashew := match who with | .storage q _ => decide (q < 13) | _ => false
  if who.single then if cashew then (s.bump 0x420014).eccFix else s.eccFix
  else (if cashew then (s.bump 0x420015).eccLost else s.eccLost).readerError addr who

/-- DRAM_UNCORRECTABLE (R205, R220, R356): an uncorrectable error in a word read from DRAM or from an SRAM; with inline ECC off the
DRAM controller detects none (R343). -/
def execDramUncorrectable (t addr : Nat) (who : DramReader) (s : State) : Host.Outcome State Fault Refusal :=
  let s := s.at t
  .next (if who.dram = false then s.sramError addr who
    else if s.og 0x420004 = 1 then (s.dramError addr).readerError addr who else s)

/-- REAL_TIME_OVERFLOW (R355): a stall beyond its bound filled a requester's buffer. -/
def execRealTimeOverflow (t : Nat) (who : RtRequester) (stall : Nat) (s : State) : Host.Outcome State Fault Refusal :=
  let s := (s.at t).bump 0x420011
  let s := s.os 0x42000C (max (s.og 0x42000C) (stall % 2 ^ 32))
  .next (match who with
    | .burstWriter => { s with ch := { s.ch with burst01 := s.ch.burst01.map fun (b : Burst) => { b with truncated := b.truncated || b.begun } } }
    | .linseed => s.stallShot
    | .sesame buf =>
      ((s.bump (ck buf 0x14)).count 83).setCap buf fun k => { k with gap := true, winDrop := true, dropped := k.dropped + 1 })

/-- What a long operation makes of the state at its end, and its result (Table 23-4). -/
def State.finishLong (s : State) (o : LongOp) (w : LongOutcome) : Nat × State :=
  match o.code with
  | 1 => s.endInstall o.arg o.image w.flashFailed
  | 2 => s.endCalibration w
  | 3 => s.endBiasSearch o.arg w.setPoints (!w.flashFailed)
  | 5 => s.endPrepare o.arg o.image w.flashFailed
  | 4 => (0, s.dramFixed w.corrected)
  | _ => (0, s)

/-- LONG_OPERATION_END (R473, R474). -/
def execLongOperationEnd (t : Nat) (outcome : LongOutcome) (s : State) : Host.Outcome State Fault Refusal :=
  let s := s.at t
  match s.ctl.longOp with
  | none => .next s
  | some o =>
    let (code, s) := s.finishLong o outcome
    .next (s.endLong code)

end Sys2Proof.Machine
end

