-- ==== Sys2Proof/Machine/Usdo.lean ====
section
/-! DEFINITION. The control node (23, 24): what every object reads, what a write to it does, segmented transfers, the
session's lease, heartbeat and EMCY. A write that has a row of its own and the same write brought by USDO_REQUEST or
REGISTER_WRITE have one effect. -/

namespace Sys2Proof.Machine

open Sys2Proof

/-! ## Effects of writes -/

/-- A write with no rule of its own is stored (R471). -/
def storeWrite (idx sub : Nat) (b : List Byte) (s : State) : Except Nat State :=
  match objRow idx sub with
  | some ⟨_, _, .dom _, _, _, _, _, _⟩ => .ok (s.ds (okey idx sub) b)
  | _ => .ok (s.os (okey idx sub) (unle b))

/-- An object whose bits written 1 clear. -/
def clearWrite (k : Nat) (b : List Byte) (s : State) : Except Nat State := .ok (s.os k (clearBits (s.og k) (unle b)))

/-- An object held in the settings area (R481). -/
def settingWrite (k : Nat) (b : List Byte) (s : State) : Except Nat State := .ok ((s.os k (unle b)).storeSetting k (unle b))

/-- What becomes of a write of a region size, given the state in which the region is reserved, none when it does not fit. -/
def regionResult (k : Nat) (r : RegionKind) (v : Nat) (s : State) : Option State → Except Nat State
  | none => .error 0x06090030
  | some s' =>
    let t := (if r = RegionKind.burst then s else s').os k v
    require (decide (r ≠ RegionKind.capture) || t.capsFit) 0x06090030 (.ok t)

/-- A region size in MiB (R345): the region is reserved at acceptance, or at the entry to Sensing for the burst region. -/
def regionWrite (k : Nat) (r : RegionKind) (v : Nat) (s : State) : Except Nat State :=
  regionResult k r v s (s.reserve r (v * mib))

/-- Table 24-3. -/
def writeState (sub : Nat) (b : List Byte) (s : State) : Except Nat State :=
  match sub with
  | 4 => powerCommand (unle b) s
  | 8 => biasSearch (unle b) s
  | 0xA => settingWrite 0x20000A b s
  | _ => storeWrite 0x2000 sub b s

/-- Table 20-6: every write makes Walnut choose anew (R431). -/
def writePower (sub : Nat) (b : List Byte) (s : State) : Except Nat State :=
  let again (r : Except Nat State) : Except Nat State := match r with
    | .ok s => .ok s.rechoose
    | .error a => .error a
  match sub with
  | 2 => managedOperation (unle b) s
  | 3 => balanceWrite (toI 64 (unle b)) s
  | 8 => incomeCredit (unle b) s
  | 0x11 => holdWarm (unle b) s
  | 0x18 => again (clearWrite 0x210018 b s)
  | 0x1B => again (settingWrite 0x21001B b s)
  | 0x1C => again (settingWrite 0x21001C b s)
  | _ => again (storeWrite 0x2100 sub b s)

/-- Tables 17-4 and 24-4. -/
def writeTime (idx sub : Nat) (b : List Byte) (s : State) : Except Nat State :=
  let plain := storeWrite idx sub b s
  if idx = 0x2200 then
    match sub with
    | 1 => deviceTime (unle b) s
    | 2 => timeAtPps (unle b) s
    | 5 => rateCorrection (toI 32 (unle b)) s
    | 0xA => .ok (s.os 0x22000A (s.og 0x22000A / 65536 * 65536 + unle b % 65536))
    | _ => if sub = 4 ∨ (7 ≤ sub ∧ sub ≤ 9) then memberRefuses s plain else plain
  else if sub = 4 then (if unle b = 1 then intervalArm s else intervalDisarm s)
  else require (decide (s.og 0x221005 ≠ 1 ∧ s.og 0x221005 ≠ 2)) 0x08000020 plain

/-- Table 24-5. -/
def writePlans (sub : Nat) (b : List Byte) (s : State) : Except Nat State :=
  match sub with
  | 3 => requestedRung (unle b) s
  | 8 => planInstall (unle b) s
  | 0xB => stageSet (unle b) s
  | 0xF => removeRung (unle b) s
  | 0x10 => chainSwitch (unle b) s
  | _ => storeWrite 0x2400 sub b s

/-- A shadowed object (R59): thresholds and bank loads have checks of their own. -/
def writeShadowed (idx sub : Nat) (b : List Byte) (s : State) : Except Nat State :=
  if 0x3A00 ≤ idx ∧ idx < 0x3B00 then zoneThreshold (idx - 0x3A00) (decide (sub = 4)) (unle b) s
  else if idx = 0x3400 ∧ 0x10 ≤ sub ∧ sub % 16 = 4 then bankLoad (sub / 16 - 1) b s
  else shadowed idx sub b s

/-- Table 11-10. -/
def writeSesame (idx sub : Nat) (b : List Byte) (s : State) : Except Nat State :=
  if idx = 0x3800 then storeWrite idx sub b s
  else
    let i := idx - 0x3810
    if sub = 4 then seqForce i s else if unle b = 1 then seqArm i s else seqDisarm i s

/-- Tables 12-1 and 12-10. A clock port names an enabled port (R36). -/
def writeCapture (idx sub : Nat) (b : List Byte) (s : State) : Except Nat State :=
  let v := unle b
  if idx = 0x3908 then regionWrite 0x390801 .capture v s
  else if idx = 0x3C00 then
    match sub with
    | 1 => ownerWrite v s
    | 2 => sunflowerEnable v s
    | 8 => regionWrite 0x3C0008 .frame v s
    | _ => require (decide (s.og 0x3C0002 = 0)) 0x08000020 (storeWrite idx sub b s)
  else
    let c := idx - 0x3900
    if sub = 2 then (if v = 1 then captureArm c s else captureDisarm c s)
    else if sub = 5 ∧ s.portOn v = false then .error 0x06090030
    else if 3 ≤ sub ∧ sub ≤ 0xD then captureConfig c sub v s
    else if sub = 0x12 then storeWrite idx sub b s
    else captureLength c sub v s

/-- Table 24-8. A port mask names enabled ports (R36). -/
def writeHazel (idx sub : Nat) (b : List Byte) (s : State) : Except Nat State :=
  let v := unle b
  if idx = 0x4030 then
    match sub with
    | 1 => require (decide (v &&& s.portMask = v)) 0x06090030 (storeWrite idx sub b s)
    | 8 => if v = 1 then burstRequest s else burstAbandon s
    | 0xA => regionWrite 0x40300A .burst v s
    | _ => storeWrite idx sub b s
  else if sub = 0x11 then userProgram b s
  else storeWrite idx sub b s

/-- A DRAM fit that Table 15-6 allows. -/
def fitOk (v : Nat) : Bool :=
  (bits v 31 16 == 0 || dramRates.contains (bits v 31 16)) && decide (bits v 15 8 ≤ 32) && bits v 7 6 == 0 &&
    decide (bits v 5 4 ≤ 2) && bits v 3 2 == 0 && bits v 1 0 != 2

/-- Tables 15-5, 16-5 and 16-10. Plan channels refuse every write (R358). -/
def writeMemory (idx sub : Nat) (b : List Byte) (s : State) : Except Nat State :=
  let v := unle b
  let plain := storeWrite idx sub b s
  if idx = 0x4200 then
    match sub with
    | 5 => settingWrite 0x420005 b s
    | 8 => settingWrite 0x420008 b s
    | 9 => refreshMode v s
    | 0xD => fullScrub s
    | 0x13 => clearWrite 0x420013 b s
    | 0x16 => require (fitOk v) 0x06090030 (settingWrite 0x420016 b s)
    | _ => plain
  else if idx = 0x4201 then bankOwner (sub - 1) v s
  else if idx = 0x4400 then
    if sub = 2 then (if v = 1 then jobStart s else if v = 2 then jobResume s else jobAbandon s) else plain
  else
    let ch := idx - 0x4310
    if sub = 0xA ∧ v ≤ s.og (flk ch 0xB) ∨ sub = 0xB ∧ s.og (flk ch 0xA) ≤ v then .error 0x06090030
    else if ch < 8 then .error 0x08000020
    else if sub = 3 then (if v = 1 then flaxStart ch s else flaxHalt ch s)
    else plain

/-- Tables 18-3 and 18-7. Where a setting meets the running pass of its RTD is the world's. -/
def writePip (idx sub : Nat) (b : List Byte) (s : State) : Except Nat State :=
  let v := unle b
  let plain := storeWrite idx sub b s
  if idx = 0x4800 then
    if sub = 3 then reference1 v s
    else if sub = 7 then .ok s.trigger1
    else if sub = 8 then blankMask v s
    else if sub = 9 then .ok (s.os 0x480009 v).blankEdge
    else if 0x10 ≤ sub then require (!s.pip.run1 && !s.pip.pend1) 0x08000020 plain
    else plain
  else if idx = 0x4830 then (if sub = 6 then calStart s else plain)
  else if sub ≤ 3 then
    let (phase, s) := s.draw 3
    rtdSetting (idx - 0x4820) sub v phase s
  else plain

/-- Tables 19-5, 21-8 and 22-5. -/
def writeManage (idx sub : Nat) (b : List Byte) (s : State) : Except Nat State :=
  let v := unle b
  let plain := storeWrite idx sub b s
  if idx = 0x4C00 then settingWrite 0x4C0003 b s
  else if idx = 0x5000 then
    if sub = 5 then .ok (s.restartWalnut 2)
    else if sub = 0x14 then clearWrite 0x500014 b s
    else if sub = 0x23 then ledgerReset s
    else plain
  else if idx = 0x5400 then (if sub = 3 then logSelect v s else plain)
  else
    match sub with
    | 2 => if v = 1 then downloadOpen s else if v = 2 then downloadClose s else downloadAbandon s
    | 8 => canFdData b s
    | 9 => imagePrepare s
    | 0xA => activate s
    | 0xB => confirm s
    | _ => plain

/-- Table 24-9 (R484, R486): a setting keeps while injection runs. -/
def writeInject (idx sub : Nat) (b : List Byte) (s : State) : Except Nat State :=
  let plain := storeWrite idx sub b s
  if idx = 0x5F00 then plain
  else if sub = 1 then unlock (unle b) s
  else if sub = 7 then (if unle b = 1 then injectionStart s else injectionStop s)
  else require (decide (s.og 0x5E0002 = 1)) 0x08000020 plain

/-- The effect of an accepted write. -/
def writeEffect (idx sub : Nat) (b : List Byte) (s : State) : Except Nat State :=
  if s.unbondedLane idx then .error 0x08000020
  else if isShadowed idx sub then writeShadowed idx sub b s
  else if idx = 0x2000 then writeState sub b s
  else if idx = 0x2100 then writePower sub b s
  else if 0x2200 ≤ idx ∧ idx < 0x2300 then writeTime idx sub b s
  else if idx = 0x2400 then writePlans sub b s
  else if 0x3800 ≤ idx ∧ idx < 0x3900 then writeSesame idx sub b s
  else if 0x3900 ≤ idx ∧ idx < 0x4000 then writeCapture idx sub b s
  else if idx = 0x4000 ∧ sub = 3 then overrunClear (unle b) s
  else if idx = 0x4000 ∧ sub = 4 then idleDelay (unle b) s
  else if idx = 0x4030 ∨ idx = 0x4100 then writeHazel idx sub b s
  else if 0x4200 ≤ idx ∧ idx < 0x4800 then writeMemory idx sub b s
  else if 0x4800 ≤ idx ∧ idx < 0x4C00 then writePip idx sub b s
  else if 0x4C00 ≤ idx ∧ idx < 0x5E00 then writeManage idx sub b s
  else if 0x5E00 ≤ idx then writeInject idx sub b s
  else storeWrite idx sub b s

/-! ## Reads -/

/-- An ASCII string. -/
def ascii (t : String) : List Byte := t.toList.map fun c => byte c.toNat

/-- The order code HY48-pFkk (00). -/
def State.orderCode (s : State) : List Byte :=
  ascii "HY48-" ++ [byte (48 + s.pw.sensedPorts)] ++ ascii (if s.pw.sensedCombined then "C" else "A") ++
    ascii (if s.pw.sensedKm80 then "80" else "40")

/-- The product code (Table 2-3). -/
def State.productCode (s : State) : Nat :=
  0x480000 + s.pw.sensedPorts * 256 + (if s.pw.sensedCombined then 0xC0 else 0xA0) + (if s.pw.sensedKm80 then 8 else 4)

/-- Full flag of queue q (R292): its free space is below one sixteenth of its capacity. -/
def State.queueFull (s : State) (q : Nat) : Bool :=
  let qq := s.queue q
  decide (16 * (qq.capKiB * 1024 - qq.held) < qq.capKiB * 1024)

/-- Bits of a mask from a predicate on 0 to n - 1. -/
def maskOf (n : Nat) (f : Nat → Bool) : Nat := sumN ((List.range n).map fun i => if f i then 2 ^ i else 0)

/-- A number of the log ring, 0 while it is empty. -/
def entryNumber (e : Option (List Byte)) : Nat := match e with | some b => fld b 0 4 | none => 0

/-- What a numeric object that stands in a block's own state reads; none where the dictionary cell holds it. -/
def State.computed (s : State) (idx sub : Nat) : Option Nat :=
  if idx = 0x1018 ∧ sub = 2 then some s.productCode
  else if idx = 0x1018 ∧ 3 ≤ sub then some (Config.identity sub)
  else if idx = 0x2000 then
    if sub = 2 then some s.portMask else if sub = 3 then some s.pw.power.code else none
  else if idx = 0x2100 ∧ sub = 3 then some (toU 64 s.pod.balance)
  else if idx = 0x2200 then
    if sub = 1 then some s.devNs else if sub = 0xB then some s.sw.lastIndex else none
  else if idx = 0x2400 then
    if sub = 0xC then some s.stageWord else if sub = 0xD then some s.nextTransfer else none
  else if 0x2900 ≤ idx ∧ idx < 0x2C00 ∧ idx % 0x100 = 0 ∧ sub = 0xB then some 0
  else if idx = 0x3800 then
    match sub with
    | 3 => some (s.ses.g.getD 8 0)
    | 4 => some (s.ses.g.getD 9 0)
    | 6 => some ((s.ses.zones.filter fun z => z.stale).length)
    | _ => none
  else if 0x3810 ≤ idx ∧ idx < 0x3814 then
    let q := s.seq (idx - 0x3810)
    if sub = 1 then some q.state else if sub = 2 then some q.level else none
  else if 0x3A00 ≤ idx ∧ idx < 0x3B00 then
    let z := s.zone (idx - 0x3A00)
    match sub with
    | 1 => some (if z.line then 1 else 0)
    | 2 => some z.e
    | 5 => some ((if z.stale then 1 else 0) + (if z.blind then 2 else 0))
    | 6 => some (z.lastTick % 2 ^ 32)
    | _ => none
  else if idx = 0x4000 ∧ sub = 1 then some (maskOf 16 s.queueFull)
  else if 0x4010 ≤ idx ∧ idx < 0x4020 then
    let q := s.queue (idx - 0x4010)
    match sub with
    | 1 => some q.held
    | 2 => some q.capKiB
    | 3 => some q.cls
    | 4 => some q.seq
    | 5 => if idx < 0x401D then none else some (s.queueLanes (idx - 0x4010))
    | _ => none
  else if 0x4040 ≤ idx ∧ idx < 0x4048 ∧ sub = 1 then some (s.laneCode (idx - 0x4040))
  else if idx = 0x4800 ∧ sub = 0xF then
    some ((if s.pip.settle0 ≤ s.now then 1 else 0) + (if s.pip.settle1 ≤ s.now then 2 else 0))
  else if idx = 0x4C00 then
    match sub with
    | 2 => some s.ctl.nodeId
    | 4 => some (if s.pw.sensedHead then 1 else 0)
    | _ => none
  else if idx = 0x5000 then
    match sub with
    | 0x20 => some (s.mg.inSpec / 1000)
    | 0x21 => some (s.mg.outage / 1000)
    | _ => none
  else if idx = 0x5002 then some (s.mg.ledger.getD (sub - 1) 0 / 1000)
  else if idx = 0x5400 then
    if sub = 1 then some (entryNumber s.mg.ring.getLast?) else if sub = 2 then some (entryNumber s.mg.ring.head?) else none
  else if idx = 0x5800 then
    match sub with
    | 0x10 => some (s.imgVersions false)
    | 0x11 => some (s.imgVersions true)
    | 0x12 => some (s.board.walnutCounter + 256 * s.board.dataCounter)
    | 0x13 => some ((if s.inTrial false then 1 else 0) + (if s.inTrial true then 2 else 0))
    | _ => none
  else none

/-- What a DOMAIN or string reads (Tables 24-2, 24-3, 11-10, 24-8). -/
def State.readBytes (s : State) (idx sub : Nat) : List Byte :=
  if idx = 0x1008 then ascii "HY48"
  else if idx = 0x1009 then Config.hardwareVersion
  else if idx = 0x100A then Config.softwareVersion (s.imgVersions false / 2 ^ 32)
  else if idx = 0x2000 then s.orderCode
  else if idx = 0x3800 then le 32 (maskOf 256 fun z => (s.zone z).line)
  else if idx = 0x4100 ∧ sub = 6 then s.kernelBytes
  else s.dg (okey idx sub)

/-- The availability 0x5000:22 in 10^-9, rounded down (R445); without intended time the spec states none. -/
def State.availability (s : State) : Nat × State :=
  if s.mg.inSpec = 0 then s.draw (2 ^ 32) else ((s.mg.inSpec - s.mg.outage) * 1000000000 / s.mg.inSpec, s)

/-- The value a read takes at the instant of its request (R471), and what the read itself changes: 0x1001 clears
(Table 24-2), 0x2200:0B latches its stamp (R120), the ledger objects settle. An absent family and an unbonded lane read
zero (R34, R331). -/
def State.readObject (s : State) (idx sub : Nat) (o : Obj) : List Byte × State :=
  let n := o.ty.size
  if s.absent idx ∨ (s.unbondedLane idx = true ∧ sub ≠ 0) then (rep n 0, s)
  else if n = 0 then (s.readBytes idx sub, s)
  else
    let s := if idx = 0x5000 ∨ idx = 0x5002 then s.settleIdle else s
    if idx = 0x5000 ∧ sub = 0x22 then
      let (a, s) := s.availability
      (le 4 a, s)
    else
      let v := (s.computed idx sub).getD (s.og (okey idx sub))
      let s :=
        if idx = 0x1001 then s.os 0x100100 0
        else if idx = 0x2200 ∧ sub = 0xB then (s.os 0x22000C (s.sw.lastStamp / 65536)).os 0x22000D (s.sw.lastStamp % 65536)
        else s
      (le n v, s)

/-- The abort that meets a read, orders 2 to 6 of Table 23-3; of these only orders 2 and 3 meet an absent family (R34, R480). -/
def State.readAbort (s : State) (idx sub : Nat) (segmented : Bool) : Except Nat Obj :=
  match s.locate idx sub with
  | .error a => .error a
  | .ok o =>
    if s.absent idx then .ok o
    else if o.acc = .wo then .error 0x06010001
    else if segmented != (o.ty.size == 0) then .error 0x05040001
    else .ok o

/-! ## Requests -/

/-- Open a segmented transfer (R469). -/
def State.openTransfer (s : State) (idx sub : Nat) (writing : Bool) (b : List Byte) : State :=
  { s with ctl := { s.ctl with transfer := some ⟨idx, sub, writing, b, s.now + 1000000000⟩ } }

def State.closeTransfer (s : State) : State := { s with ctl := { s.ctl with transfer := none } }

/-- A read request of client c: an expedited answer, or the first segment of a transfer that holds the value. A read of an
absent family completes at once with zero, whatever its kind and whatever transfer is open (R34, R480; for a segmented request
DEDUCED, assumption log 74). -/
def State.hostRead (s : State) (c idx sub : Nat) (segmented : Bool) : State :=
  if s.served = false then s
  else match s.gate c with
    | some a => s.answer c (.abort a)
    | none =>
      let s := s.renew c
      match s.readAbort idx sub segmented with
      | .error a => s.answer c (.abort a)
      | .ok o =>
        if s.absent idx then s.answer c (.value (rep o.ty.size 0))
        else if s.ctl.transfer.isSome then s.answer c (.abort 0x08000020)
        else
          let (b, s) := s.readObject idx sub o
          if segmented then (s.openTransfer idx sub false b).answer c .more else s.answer c (.value b)

/-- The first segment of a write. What depends on the whole of its bytes waits for the last segment. -/
def State.beginWrite (s : State) (c idx sub : Nat) (b : List Byte) : State :=
  if s.served = false then s
  else match s.gate c with
    | some a => s.answer c (.abort a)
    | none =>
      let s := s.renew c
      let late (a : Nat) : Bool := a == 0x06070010 || a == 0x06090030
      match s.writeAbort idx sub true b with
      | some a =>
        if late a then
          if s.ctl.transfer.isSome then s.answer c (.abort 0x08000020)
          else (s.openTransfer idx sub true b).answer c .more
        else s.answer c (.abort a)
      | none =>
        if s.ctl.transfer.isSome then s.answer c (.abort 0x08000020)
        else (s.openTransfer idx sub true b).answer c .more

/-- The abort of a DOMAIN write beyond 4 096 bytes (Table 23-3); a user program has a rule of its own (R236). -/
def overLength (idx sub : Nat) : Nat := if idx = 0x4100 ∧ sub = 0x11 then 0x06070010 else 0x05040005

/-- A further segment of the client's transfer (R469). With none open it is not valid (DESIGN CHOICE, assumption log 22). -/
def State.segment (s : State) (c : Nat) (b : List Byte) (last : Bool) : State :=
  if s.served = false then s
  else match s.gate c with
    | some a => s.answer c (.abort a)
    | none =>
      let s := s.renew c
      match s.ctl.transfer with
      | none => s.answer c (.abort 0x05040001)
      | some x =>
        if x.writing then
          let all := x.bytes ++ b
          if 4096 < all.length then s.closeTransfer.answer c (.abort (overLength x.index x.sub))
          else if last then s.closeTransfer.hostWrite c x.index x.sub true all (writeEffect x.index x.sub all)
          else (s.openTransfer x.index x.sub true all).answer c .more
        else if last then s.closeTransfer.answer c (.value x.bytes)
        else (s.openTransfer x.index x.sub false x.bytes).answer c .more

/-- USDO_REQUEST (R468 to R472). -/
def execUsdoRequest (t c : Nat) (req : UsdoReq) (s : State) : Host.Outcome State Fault Refusal :=
  let s := s.at t
  .next (match req with
    | .read idx sub seg => s.hostRead c idx sub seg
    | .write idx sub false b => s.hostWrite c idx sub false b (writeEffect idx sub b)
    | .write idx sub true b => s.beginWrite c idx sub b
    | .segment b last => s.segment c b last)

/-- LATEST_BOUNDARY_READ (R120). -/
def execLatestBoundaryRead (t c : Nat) (s : State) : Host.Outcome State Fault Refusal :=
  .next ((s.at t).hostRead c 0x2200 0xB false)

/-- SNAPSHOT_READ (R305): its first segment; USDO_REQUEST brings the others. -/
def execSnapshotRead (t c : Nat) (s : State) : Host.Outcome State Fault Refusal :=
  .next ((s.at t).hostRead c 0x5F00 2 true)

/-- The kind of transfer an object takes (R470). -/
def segmentedKind (idx sub : Nat) : Bool := match objRow idx sub with | some o => o.ty.size == 0 | none => false

/-- REGISTER_WRITE (R471): a whole write, expedited or by its last segment as the object's type asks. -/
def execRegisterWrite (t c index sub : Nat) (data : List Byte) (s : State) : Host.Outcome State Fault Refusal :=
  .next ((s.at t).hostWrite c index sub (segmentedKind index sub) data (writeEffect index sub data))

/-- LEASE_LAPSE (R468, R474): the lease does not run during a long operation. -/
def execLeaseLapse (t : Nat) (s : State) : Host.Outcome State Fault Refusal :=
  let s := s.at t
  .next (if s.og 0x200009 ≠ 0 ∧ s.ctl.longOp.isNone = true ∧ s.ctl.lease ≤ s.now then s.endSession else s)

/-- TRANSFER_TIMEOUT (R469). -/
def execTransferTimeout (t : Nat) (s : State) : Host.Outcome State Fault Refusal :=
  let s := s.at t
  match s.ctl.transfer with
  | none => .next s
  | some x =>
    .next (if s.now < x.deadline then s
      else if s.served then s.closeTransfer.answer (s.og 0x200009) (.abort 0x05040000)
      else s.closeTransfer)

/-! ## Heartbeat and EMCY -/

/-- The node sends on the bus: awake, Walnut running, with a node-ID. -/
def State.onBus (s : State) : Bool := s.coreLive && !s.ctl.restarting && decide (s.ctl.nodeId ≠ 0)

/-- The NMT state as CiA 1301 codes it (Tables 23-1 and 23-5). -/
def State.nmtByte (s : State) : Nat :=
  if s.pw.nmtStopped then 4 else if s.pw.power = .sensing then 5 else 0x7F

/-- Progress of the running long operation in percent (assumption log 13). -/
def State.progress (s : State) : Nat :=
  match s.ctl.longOp with
  | none => 0
  | some o => max o.progress (min 99 ((s.now - o.start) / 10000 / max 1 o.maximum))

/-- The heartbeat frame (Table 23-5). -/
def State.heartbeatBytes (s : State) : List Byte :=
  let b (p : Bool) (i : Nat) : Nat := if p then 2 ^ i else 0
  let flags := s.og 0x210014
  [byte s.nmtByte, byte s.pw.power.code, byte (match s.ctl.longOp with | some o => o.code | none => 0), byte s.progress,
    byte (b s.recovery 5 + b (s.inTrial false || s.inTrial true) 4 + b (bit flags 2 || bit flags 1) 3 +
      b s.anyFailed 2 + b (bit flags 0) 1 + b (decide (s.og 0x200009 ≠ 0)) 0),
    byte (s.og 0x240001)] ++ le 2 s.ctl.heartbeats

/-- HEARTBEAT (R475). -/
def execHeartbeat (t : Nat) (s : State) : Host.Outcome State Fault Refusal :=
  let s := s.at t
  .next (if s.onBus = true ∧ s.og 0x101700 ≠ 0 then
    { s.emit (.heartbeat s.heartbeatBytes) with ctl := { s.ctl with heartbeats := (s.ctl.heartbeats + 1) % 65536 } }
  else s)

/-- EMCY (R476): the oldest one that waits leaves, the inhibit time after the one before it. -/
def execEmcy (t : Nat) (s : State) : Host.Outcome State Fault Refusal :=
  let s := s.at t
  match s.ctl.waiting with
  | [] => .next s
  | e :: r =>
    .next (if s.onBus = true ∧ s.pw.nmtStopped = false ∧ s.ctl.emcyFrom ≤ s.now then
      { s.emit (.emcy (le 2 e.code ++ [byte (s.og 0x100100), byte e.detail] ++ le 4 e.argument)) with
        ctl := { s.ctl with waiting := r, emcyFrom := s.now + 100000 * s.og 0x101500 } }
    else s)

end Sys2Proof.Machine
end

