-- ==== Sys2Proof/Machine/Dispatch.lean ====
section
/-! DEFINITION. One arm per command. -/

namespace Sys2Proof.Machine

open Sys2Proof

def exec (i : Instr) (s : State) : Host.Outcome State Fault Refusal :=
  match i with
  | .vbatPowerUp t => Sys2Proof.Machine.execVbatPowerUp t s
  | .crystalStart t => Sys2Proof.Machine.execCrystalStart t s
  | .corePowerUp t => Sys2Proof.Machine.execCorePowerUp t s
  | .internalResetRelease t => Sys2Proof.Machine.execInternalResetRelease t s
  | .pgInFall t => Sys2Proof.Machine.execPgInFall t s
  | .resetL t low => Sys2Proof.Machine.execResetL t low s
  | .wakePin t pins => Sys2Proof.Machine.execWakePin t pins s
  | .wakeTimer t => Sys2Proof.Machine.execWakeTimer t s
  | .pwrEnHoldEnd t => Sys2Proof.Machine.execPwrEnHoldEnd t s
  | .dormantEntry t => Sys2Proof.Machine.execDormantEntry t s
  | .retentionWrite t => Sys2Proof.Machine.execRetentionWrite t s
  | .powerCommandDormant t c => Sys2Proof.Machine.execPowerCommandDormant t c s
  | .powerCommandDoze t c => Sys2Proof.Machine.execPowerCommandDoze t c s
  | .powerCommandReady t c => Sys2Proof.Machine.execPowerCommandReady t c s
  | .powerCommandSensing t c => Sys2Proof.Machine.execPowerCommandSensing t c s
  | .startRemoteNode t node => Sys2Proof.Machine.execStartRemoteNode t node s
  | .stopRemoteNode t node => Sys2Proof.Machine.execStopRemoteNode t node s
  | .enterPreOperational t node => Sys2Proof.Machine.execEnterPreOperational t node s
  | .resetNode t node => Sys2Proof.Machine.execResetNode t node s
  | .resetCommunication t node => Sys2Proof.Machine.execResetCommunication t node s
  | .dozeToReadyDone t fit => Sys2Proof.Machine.execDozeToReadyDone t fit s
  | .activePlanReload t => Sys2Proof.Machine.execActivePlanReload t s
  | .keptPlanReload t rung => Sys2Proof.Machine.execKeptPlanReload t rung s
  | .coldEntrySeedCheck t dbm => Sys2Proof.Machine.execColdEntrySeedCheck t dbm s
  | .acquisitionDeadline t => Sys2Proof.Machine.execAcquisitionDeadline t s
  | .offsetTrim t offsets => Sys2Proof.Machine.execOffsetTrim t offsets s
  | .sweepBoundary => Sys2Proof.Machine.execSweepBoundary s
  | .choiceFix corrected bad => Sys2Proof.Machine.execChoiceFix corrected bad s
  | .slotFiring slot corrected bad raman => Sys2Proof.Machine.execSlotFiring slot corrected bad raman s
  | .inputLimitAssert t port span => Sys2Proof.Machine.execInputLimitAssert t port span s
  | .reflectionTrip t port peak => Sys2Proof.Machine.execReflectionTrip t port peak s
  | .seedLowSet t dbm => Sys2Proof.Machine.execSeedLowSet t dbm s
  | .seedLowClear t dbm => Sys2Proof.Machine.execSeedLowClear t dbm s
  | .biasMeasurement t port loop err setPoint atEnd => Sys2Proof.Machine.execBiasMeasurement t port loop err setPoint atEnd s
  | .measurementTimeout t port loop => Sys2Proof.Machine.execMeasurementTimeout t port loop s
  | .biasSearch t c mask => Sys2Proof.Machine.execBiasSearch t c mask s
  | .darkPortPowerDown t port => Sys2Proof.Machine.execDarkPortPowerDown t port s
  | .stopShutdown t => Sys2Proof.Machine.execStopShutdown t s
  | .holdWarmOn t c => Sys2Proof.Machine.execHoldWarmOn t c s
  | .holdWarmOff t c => Sys2Proof.Machine.execHoldWarmOff t c s
  | .chestnutOutput t port sweep slot conts => Sys2Proof.Machine.execChestnutOutput t port sweep slot conts s
  | .workItemRelease t user item sweep slot ecc invalid => Sys2Proof.Machine.execWorkItemRelease t user item sweep slot ecc invalid s
  | .checkpointInstant t engine item => Sys2Proof.Machine.execCheckpointInstant t engine item s
  | .budgetExhausted t engine => Sys2Proof.Machine.execBudgetExhausted t engine s
  | .sweepCompletion t => Sys2Proof.Machine.execSweepCompletion t s
  | .segmentEmit t port sweep slot first => Sys2Proof.Machine.execSegmentEmit t port sweep slot first s
  | .poppyBlock t port block corrected => Sys2Proof.Machine.execPoppyBlock t port block corrected s
  | .inactiveBankLoad t c stage data => Sys2Proof.Machine.execInactiveBankLoad t c stage data s
  | .poppyResetWrite t c => Sys2Proof.Machine.execPoppyResetWrite t c s
  | .poppyModeWrite t c mode => Sys2Proof.Machine.execPoppyModeWrite t c mode s
  | .linseedBlockAdd t stalled corrected => Sys2Proof.Machine.execLinseedBlockAdd t stalled corrected s
  | .dtsDecode t port => Sys2Proof.Machine.execDtsDecode t port s
  | .evaluationInstant t prb trig tb => Sys2Proof.Machine.execEvaluationInstant t prb trig tb s
  | .levelTimerExpiry t seq => Sys2Proof.Machine.execLevelTimerExpiry t seq s
  | .autoTimerExpiry t seq => Sys2Proof.Machine.execAutoTimerExpiry t seq s
  | .zoneUpdate t zone sweep slot => Sys2Proof.Machine.execZoneUpdate t zone sweep slot s
  | .sequenceArm t c seq => Sys2Proof.Machine.execSequenceArm t c seq s
  | .sequenceDisarm t c seq => Sys2Proof.Machine.execSequenceDisarm t c seq s
  | .sequenceArmAct t seq => Sys2Proof.Machine.execSequenceArmAct t seq s
  | .force t c seq => Sys2Proof.Machine.execForce t c seq s
  | .forceAct t seq => Sys2Proof.Machine.execForceAct t seq s
  | .hostLine t c level => Sys2Proof.Machine.execHostLine t c level s
  | .zoneThresholdWrite t c zone off value => Sys2Proof.Machine.execZoneThresholdWrite t c zone off value s
  | .trigInEdge t pin code c1 c2 calibrated => Sys2Proof.Machine.execTrigInEdge t pin code c1 c2 calibrated s
  | .captureArm t c buf => Sys2Proof.Machine.execCaptureArm t c buf s
  | .captureDisarm t c buf => Sys2Proof.Machine.execCaptureDisarm t c buf s
  | .fillingEntry t buf => Sys2Proof.Machine.execFillingEntry t buf s
  | .captureLengthWrite t c buf sub value => Sys2Proof.Machine.execCaptureLengthWrite t c buf sub value s
  | .rateWindowEnd t buf => Sys2Proof.Machine.execRateWindowEnd t buf s
  | .postTimeLimit t buf => Sys2Proof.Machine.execPostTimeLimit t buf s
  | .captureRecordWrite t buf memError => Sys2Proof.Machine.execCaptureRecordWrite t buf memError s
  | .captureRearm t buf => Sys2Proof.Machine.execCaptureRearm t buf s
  | .ownerWrite t c owner => Sys2Proof.Machine.execOwnerWrite t c owner s
  | .sunflowerEnable t c => Sys2Proof.Machine.execSunflowerEnable t c s
  | .sunflowerDisable t c => Sys2Proof.Machine.execSunflowerDisable t c s
  | .verticalSync t => Sys2Proof.Machine.execVerticalSync t s
  | .underrun t line => Sys2Proof.Machine.execUnderrun t line s
  | .planInstall t c rung => Sys2Proof.Machine.execPlanInstall t c rung s
  | .planInstallKeep t c rung => Sys2Proof.Machine.execPlanInstallKeep t c rung s
  | .removeRung t c rung => Sys2Proof.Machine.execRemoveRung t c rung s
  | .requestedRung t c rung => Sys2Proof.Machine.execRequestedRung t c rung s
  | .prepareEnd t ok seedDbm => Sys2Proof.Machine.execPrepareEnd t ok seedDbm s
  | .stageOpen t c => Sys2Proof.Machine.execStageOpen t c s
  | .stageApply t c => Sys2Proof.Machine.execStageApply t c s
  | .stageDiscard t c => Sys2Proof.Machine.execStageDiscard t c s
  | .shadowedWrite t c index sub data => Sys2Proof.Machine.execShadowedWrite t c index sub data s
  | .chainSwitch t c rung => Sys2Proof.Machine.execChainSwitch t c rung s
  | .prepare t rung tag => Sys2Proof.Machine.execPrepare t rung tag s
  | .ack t src tag => Sys2Proof.Machine.execAck t src tag s
  | .nak t src tag => Sys2Proof.Machine.execNak t src tag s
  | .ackTimeout t => Sys2Proof.Machine.execAckTimeout t s
  | .commit t tag index => Sys2Proof.Machine.execCommit t tag index s
  | .cancel t tag => Sys2Proof.Machine.execCancel t tag s
  | .fail t src tag => Sys2Proof.Machine.execFail t src tag s
  | .outcome t src tag outcome index => Sys2Proof.Machine.execOutcome t src tag outcome index s
  | .commitLostTimeout t => Sys2Proof.Machine.execCommitLostTimeout t s
  | .burstRequest t c => Sys2Proof.Machine.execBurstRequest t c s
  | .burstAbandon t c => Sys2Proof.Machine.execBurstAbandon t c s
  | .burstCaptureEnd t src2 truncated data captured => Sys2Proof.Machine.execBurstCaptureEnd t src2 truncated data captured s
  | .burstReadout t => Sys2Proof.Machine.execBurstReadout t s
  | .userProgram t c data => Sys2Proof.Machine.execUserProgram t c data s
  | .hzNop e => Sys2Proof.Machine.execHzNop e s
  | .hzLoop e last => Sys2Proof.Machine.execHzLoop e last s
  | .hzJmp e target => Sys2Proof.Machine.execHzJmp e target s
  | .hzBra e target => Sys2Proof.Machine.execHzBra e target s
  | .hzBrn e target => Sys2Proof.Machine.execHzBrn e target s
  | .hzChk e marker => Sys2Proof.Machine.execHzChk e marker s
  | .hzEnd e t => Sys2Proof.Machine.execHzEnd e t s
  | .hzIllegalBundle e t loop => Sys2Proof.Machine.execHzIllegalBundle e t loop s
  | .hzAddrNop e => Sys2Proof.Machine.execHzAddrNop e s
  | .hzPadd e k => Sys2Proof.Machine.execHzPadd e k s
  | .hzPldp e k imm => Sys2Proof.Machine.execHzPldp e k imm s
  | .hzPldm e k imm => Sys2Proof.Machine.execHzPldm e k imm s
  | .hzPldl e k imm => Sys2Proof.Machine.execHzPldl e k imm s
  | .hzPldz e k imm => Sys2Proof.Machine.execHzPldz e k imm s
  | .hzPaddi e k imm => Sys2Proof.Machine.execHzPaddi e k imm s
  | .hzPsets e k imm => Sys2Proof.Machine.execHzPsets e k imm s
  | .hzLdstNop e ls => Sys2Proof.Machine.execHzLdstNop e ls s
  | .hzLdw e o => Sys2Proof.Machine.execHzLdw e o s
  | .hzLdb e o => Sys2Proof.Machine.execHzLdb e o s
  | .hzLdh e o => Sys2Proof.Machine.execHzLdh e o s
  | .hzLdhs e o => Sys2Proof.Machine.execHzLdhs e o s
  | .hzLds e o => Sys2Proof.Machine.execHzLds e o s
  | .hzLda e o => Sys2Proof.Machine.execHzLda e o s
  | .hzStw e o => Sys2Proof.Machine.execHzStw e o s
  | .hzStb e o => Sys2Proof.Machine.execHzStb e o s
  | .hzSth e o => Sys2Proof.Machine.execHzSth e o s
  | .hzStbp e o => Sys2Proof.Machine.execHzStbp e o s
  | .hzSts e o => Sys2Proof.Machine.execHzSts e o s
  | .hzSta e o => Sys2Proof.Machine.execHzSta e o s
  | .hzStaw e o => Sys2Proof.Machine.execHzStaw e o s
  | .hzStaq e o => Sys2Proof.Machine.execHzStaq e o s
  | .hzMacNop e => Sys2Proof.Machine.execHzMacNop e s
  | .hzMac e o => Sys2Proof.Machine.execHzMac e o s
  | .hzMsu e o => Sys2Proof.Machine.execHzMsu e o s
  | .hzMpy e o => Sys2Proof.Machine.execHzMpy e o s
  | .hzClr e o => Sys2Proof.Machine.execHzClr e o s
  | .hzAccd e o => Sys2Proof.Machine.execHzAccd e o s
  | .hzSeta e o => Sys2Proof.Machine.execHzSeta e o s
  | .hzRsa e o => Sys2Proof.Machine.execHzRsa e o s
  | .hzLsa e o => Sys2Proof.Machine.execHzLsa e o s
  | .hzDivr e o => Sys2Proof.Machine.execHzDivr e o s
  | .hzExt e o => Sys2Proof.Machine.execHzExt e o s
  | .hzAdd e o => Sys2Proof.Machine.execHzAdd e o s
  | .hzSub e o => Sys2Proof.Machine.execHzSub e o s
  | .hzAdds e o => Sys2Proof.Machine.execHzAdds e o s
  | .hzSubs e o => Sys2Proof.Machine.execHzSubs e o s
  | .hzMin e o => Sys2Proof.Machine.execHzMin e o s
  | .hzMax e o => Sys2Proof.Machine.execHzMax e o s
  | .hzAnd e o => Sys2Proof.Machine.execHzAnd e o s
  | .hzOr e o => Sys2Proof.Machine.execHzOr e o s
  | .hzXor e o => Sys2Proof.Machine.execHzXor e o s
  | .hzRsd e o => Sys2Proof.Machine.execHzRsd e o s
  | .hzLsd e o => Sys2Proof.Machine.execHzLsd e o s
  | .hzCgt e o => Sys2Proof.Machine.execHzCgt e o s
  | .hzCeq e o => Sys2Proof.Machine.execHzCeq e o s
  | .hzSel e o => Sys2Proof.Machine.execHzSel e o s
  | .hzMov e o => Sys2Proof.Machine.execHzMov e o s
  | .hzPrm e o => Sys2Proof.Machine.execHzPrm e o s
  | .hzAbs e o => Sys2Proof.Machine.execHzAbs e o s
  | .overrunClear t c mask => Sys2Proof.Machine.execOverrunClear t c mask s
  | .statusRecord t => Sys2Proof.Machine.execStatusRecord t s
  | .dataFrame t lane => Sys2Proof.Machine.execDataFrame t lane s
  | .deviceControlFrame t lane => Sys2Proof.Machine.execDeviceControlFrame t lane s
  | .credit t lane words => Sys2Proof.Machine.execCredit t lane words s
  | .replayRequest t lane entries => Sys2Proof.Machine.execReplayRequest t lane entries s
  | .hostStatus t lane mask => Sys2Proof.Machine.execHostStatus t lane mask s
  | .download t lane target seq offset data => Sys2Proof.Machine.execDownload t lane target seq offset data s
  | .blockLock t lane => Sys2Proof.Machine.execBlockLock t lane s
  | .lockLoss t lane => Sys2Proof.Machine.execLockLoss t lane s
  | .electricalIdleEntry t lane => Sys2Proof.Machine.execElectricalIdleEntry t lane s
  | .electricalIdleExit t lane => Sys2Proof.Machine.execElectricalIdleExit t lane s
  | .adaptation t lane ctle dfe fom => Sys2Proof.Machine.execAdaptation t lane ctle dfe fom s
  | .bankOwnerWrite t c bank owner => Sys2Proof.Machine.execBankOwnerWrite t c bank owner s
  | .busyStrobe t bank => Sys2Proof.Machine.execBusyStrobe t bank s
  | .cashewScrub t bank dword error => Sys2Proof.Machine.execCashewScrub t bank dword error s
  | .refresh t iface waiting => Sys2Proof.Machine.execRefresh t iface waiting s
  | .selfRefreshEntry t iface => Sys2Proof.Machine.execSelfRefreshEntry t iface s
  | .refreshModeWrite t c mode => Sys2Proof.Machine.execRefreshModeWrite t c mode s
  | .dramUncorrectable t addr who => Sys2Proof.Machine.execDramUncorrectable t addr who s
  | .realTimeOverflow t who stall => Sys2Proof.Machine.execRealTimeOverflow t who stall s
  | .fullScrub t c => Sys2Proof.Machine.execFullScrub t c s
  | .flaxStart t c ch => Sys2Proof.Machine.execFlaxStart t c ch s
  | .flaxStop t c ch => Sys2Proof.Machine.execFlaxStop t c ch s
  | .flaxBurst t memError corrected => Sys2Proof.Machine.execFlaxBurst t memError corrected s
  | .descriptorComplete t => Sys2Proof.Machine.execDescriptorComplete t s
  | .jobStart t c => Sys2Proof.Machine.execJobStart t c s
  | .jobResume t c => Sys2Proof.Machine.execJobResume t c s
  | .jobAbandon t c => Sys2Proof.Machine.execJobAbandon t c s
  | .deviceTimeWrite t c ns => Sys2Proof.Machine.execDeviceTimeWrite t c ns s
  | .timeAtNextPps t c ns => Sys2Proof.Machine.execTimeAtNextPps t c ns s
  | .rateCorrectionWrite t c r => Sys2Proof.Machine.execRateCorrectionWrite t c r s
  | .ppsEdge t code c1 c2 calibrated => Sys2Proof.Machine.execPpsEdge t code c1 c2 calibrated s
  | .ppsProcess t => Sys2Proof.Machine.execPpsProcess t s
  | .ppsLoss t => Sys2Proof.Machine.execPpsLoss t s
  | .intervalArm t c => Sys2Proof.Machine.execIntervalArm t c s
  | .intervalDisarm t c => Sys2Proof.Machine.execIntervalDisarm t c s
  | .intervalTimeout t => Sys2Proof.Machine.execIntervalTimeout t s
  | .tdcFallback t ch => Sys2Proof.Machine.execTdcFallback t ch s
  | .converter0Pass t => Sys2Proof.Machine.execConverter0Pass t s
  | .converter1Pass t c => Sys2Proof.Machine.execConverter1Pass t c s
  | .converter1Timer t => Sys2Proof.Machine.execConverter1Timer t s
  | .passEnd t conv reading => Sys2Proof.Machine.execPassEnd t conv reading s
  | .blankIn t level => Sys2Proof.Machine.execBlankIn t level s
  | .rtdSettingWrite t c rtd sub value phase => Sys2Proof.Machine.execRtdSettingWrite t c rtd sub value phase s
  | .converter1Reference t c value => Sys2Proof.Machine.execConverter1Reference t c value s
  | .calibrationStart t c => Sys2Proof.Machine.execCalibrationStart t c s
  | .longOperationEnd t outcome => Sys2Proof.Machine.execLongOperationEnd t outcome s
  | .enum t sender => Sys2Proof.Machine.execEnum t sender s
  | .enumTimeout t => Sys2Proof.Machine.execEnumTimeout t s
  | .enumEnd t position => Sys2Proof.Machine.execEnumEnd t position s
  | .marker t code c1 c2 => Sys2Proof.Machine.execMarker t code c1 c2 s
  | .markerArrival t arrive depart => Sys2Proof.Machine.execMarkerArrival t arrive depart s
  | .turn t bins back => Sys2Proof.Machine.execTurn t bins back s
  | .sync t ts delay rate state => Sys2Proof.Machine.execSync t ts delay rate state s
  | .phaseStep t => Sys2Proof.Machine.execPhaseStep t s
  | .syncLoss t => Sys2Proof.Machine.execSyncLoss t s
  | .boundary t index stamp period => Sys2Proof.Machine.execBoundary t index stamp period s
  | .update t src give => Sys2Proof.Machine.execUpdate t src give s
  | .inject t on link action => Sys2Proof.Machine.execInject t on link action s
  | .sideLock t down => Sys2Proof.Machine.execSideLock t down s
  | .sideFault t down => Sys2Proof.Machine.execSideFault t down s
  | .drgRefiLoss t => Sys2Proof.Machine.execDrgRefiLoss t s
  | .referenceTimeout t => Sys2Proof.Machine.execReferenceTimeout t s
  | .podSecond t => Sys2Proof.Machine.execPodSecond t s
  | .incomeCredit t c uj => Sys2Proof.Machine.execIncomeCredit t c uj s
  | .balanceWrite t c uj => Sys2Proof.Machine.execBalanceWrite t c uj s
  | .managedOperation t c => Sys2Proof.Machine.execManagedOperation t c s
  | .rungChoice t => Sys2Proof.Machine.execRungChoice t s
  | .energyRefine t mean => Sys2Proof.Machine.execEnergyRefine t mean s
  | .onTimeEnd t => Sys2Proof.Machine.execOnTimeEnd t s
  | .watchdog t => Sys2Proof.Machine.execWatchdog t s
  | .restartWalnut t c => Sys2Proof.Machine.execRestartWalnut t c s
  | .walnutException t => Sys2Proof.Machine.execWalnutException t s
  | .temperatureReading t temps => Sys2Proof.Machine.execTemperatureReading t temps s
  | .logEntry t => Sys2Proof.Machine.execLogEntry t s
  | .logSelect t c number => Sys2Proof.Machine.execLogSelect t c number s
  | .acornMeasurement t monitor value => Sys2Proof.Machine.execAcornMeasurement t monitor value s
  | .avsStep t up acked => Sys2Proof.Machine.execAvsStep t up acked s
  | .planDerating t => Sys2Proof.Machine.execPlanDerating t s
  | .ledgerReset t c => Sys2Proof.Machine.execLedgerReset t c s
  | .downloadOpen t c => Sys2Proof.Machine.execDownloadOpen t c s
  | .downloadClose t c => Sys2Proof.Machine.execDownloadClose t c s
  | .downloadAbandon t c => Sys2Proof.Machine.execDownloadAbandon t c s
  | .canFdData t c data => Sys2Proof.Machine.execCanFdData t c data s
  | .imagePrepare t c => Sys2Proof.Machine.execImagePrepare t c s
  | .activate t c => Sys2Proof.Machine.execActivate t c s
  | .confirm t c => Sys2Proof.Machine.execConfirm t c s
  | .confirmTimeout t => Sys2Proof.Machine.execConfirmTimeout t s
  | .usdoRequest t c req => Sys2Proof.Machine.execUsdoRequest t c req s
  | .latestBoundaryRead t c => Sys2Proof.Machine.execLatestBoundaryRead t c s
  | .snapshotRead t c => Sys2Proof.Machine.execSnapshotRead t c s
  | .registerWrite t c index sub data => Sys2Proof.Machine.execRegisterWrite t c index sub data s
  | .leaseLapse t => Sys2Proof.Machine.execLeaseLapse t s
  | .transferTimeout t => Sys2Proof.Machine.execTransferTimeout t s
  | .heartbeat t => Sys2Proof.Machine.execHeartbeat t s
  | .emcy t => Sys2Proof.Machine.execEmcy t s
  | .unlock t c => Sys2Proof.Machine.execUnlock t c s
  | .injectionStart t c => Sys2Proof.Machine.execInjectionStart t c s
  | .injectionStop t c => Sys2Proof.Machine.execInjectionStop t c s
  | .reorderHoldTimeout t => Sys2Proof.Machine.execReorderHoldTimeout t s
  | .vbatLoss t => Sys2Proof.Machine.execVbatLoss t s
  | .drgRefiReturn t => Sys2Proof.Machine.execDrgRefiReturn t s
  | .messageCrcError t down => Sys2Proof.Machine.execMessageCrcError t down s
  | .hostFrameDrop t lane => Sys2Proof.Machine.execHostFrameDrop t lane s
  | .jobDone t readError corrected fallbacks => Sys2Proof.Machine.execJobDone t readError corrected fallbacks s
  | .downloadVerifyEnd t => Sys2Proof.Machine.execDownloadVerifyEnd t s
  | .activationLoadEnd t => Sys2Proof.Machine.execActivationLoadEnd t s
  | .walnutRestartDone t => Sys2Proof.Machine.execWalnutRestartDone t s
  | .userItemCheckpoint t engine => Sys2Proof.Machine.execUserItemCheckpoint t engine s
  | .pmbusRetry t acked => Sys2Proof.Machine.execPmbusRetry t acked s

end Sys2Proof.Machine
end

