-- ==== Sys2Proof/Safety.lean ====
section
/-! DEFINITION. What every command leaves intact, in the terms the claims use: the sound states, the fuses, and the relation
between the state before a command and the state after it. -/

namespace Sys2Proof.Machine

open Sys2Proof

/-- A sound state. Every sparse table is in canonical form: the object dictionary's values, its DOMAIN values, DRAM, Cashew, and
the Hazel data and program memories. Every unit has as many instances as the spec gives: 16 rungs (R52), 4 ports, 12 engines (chapter
10), 256 zone lines (R245), 4 sequences (chapter 11), 8 captures (R267), 16 queues (chapter 13), 16 Flax channels (R358), 8 transmit
and 2 receive lanes (chapter 14). At most eight EMCYs wait (R476), and the SRAM log buffer holds at most 256 entries (R440). -/
structure State.Sound (s : State) : Prop where
  objects : swf odflt s.objects = true
  domains : swf ddflt s.domains = true
  dram : Memory.wf s.mem.dram = true
  cashew : Memory.wf s.mem.cashew = true
  data : Memory.wf s.hz.local_ = true
  program : Memory.wf s.hz.prog = true
  rungs : s.lad.rungs.length = 16
  optics : s.opt.ports.length = 4
  das : s.das.ports.length = 4
  poppy : s.pop.ports.length = 4
  engines : s.hz.engines.length = 12
  zones : s.ses.zones.length = 256
  seqs : s.ses.seqs.length = 4
  captures : s.caps.length = 8
  queues : s.qu.qs.length = 16
  flax : s.fx.chans.length = 16
  tx : s.ln.tx.length = 8
  rx : s.ln.rx.length = 2
  emcy : s.ctl.waiting.length ≤ 8
  log : s.mg.buffer.length ≤ 256

/-- What no command changes: the variant fuses, the repair fuses, the key hash and the straps (R25, R340, R449, R403, R409). -/
def Board.fixed (b : Board) : Nat × Bool × Bool × List Nat × List Byte × Nat × Bool :=
  (b.ports, b.combined, b.km80, b.columns, b.keyHash, b.nodeStrap, b.headStrap)

/-- The state s is sound, its queue and its fixed fuses and straps are those of r, and its anti-rollback counters are at least
those of r (R449). -/
structure Kept (r s : State) : Prop extends s.Sound where
  pending : s.pending = r.pending
  fixed : s.board.fixed = r.board.fixed
  walnut : r.board.walnutCounter ≤ s.board.walnutCounter
  data_ : r.board.dataCounter ≤ s.board.dataCounter

/-- An effect that may be refused keeps what it must when it is not. -/
def KeptE (r : State) (e : Except Nat State) : Prop := ∀ t, e = .ok t → Kept r t

/-- The same of an effect that may not be there. -/
def KeptP (r : State) (o : Option State) : Prop := ∀ t, o = some t → Kept r t

/-- A command answers a next state, and keeps what it must. -/
def KeptO (r : State) (o : Host.Outcome State Fault Refusal) : Prop := ∃ t, o = .next t ∧ Kept r t

/-- The parts of the state, each a unit of the device: `clock` is what the passing of time moves by itself, the instant reached, the
Shell's count and device time (R377, R378, R418). -/
inductive Part where
  | pending | clock | free | objects | domains | wire | board | pw | ctl | mg | lad | sw | opt | ch | das | pop
  | lin | hz | ses | caps | sun | qu | ln | mem | fx | al | tb | pip | dr | pod | up | inj
  deriving DecidableEq, Repr

/-- The power island and the time base without what time moves by itself. -/
def Power.still (w : Power) : Power := { w with shellCount := 0, shellRem := 0 }

def TimeBase.still (b : TimeBase) : TimeBase := { b with t := 0, acc := 0 }

/-- A part of state s is as it is in state t. -/
def Part.same (s t : State) : Part → Prop
  | .clock => t.now = s.now ∧ t.pw.shellCount = s.pw.shellCount ∧ t.pw.shellRem = s.pw.shellRem ∧ t.tb.t = s.tb.t ∧
      t.tb.acc = s.tb.acc
  | .pw => t.pw.still = s.pw.still
  | .tb => t.tb.still = s.tb.still
  | .pending => t.pending = s.pending
  | .free => t.free = s.free
  | .objects => t.objects = s.objects
  | .domains => t.domains = s.domains
  | .wire => t.wire = s.wire
  | .board => t.board = s.board
  | .ctl => t.ctl = s.ctl
  | .mg => t.mg = s.mg
  | .lad => t.lad = s.lad
  | .sw => t.sw = s.sw
  | .opt => t.opt = s.opt
  | .ch => t.ch = s.ch
  | .das => t.das = s.das
  | .pop => t.pop = s.pop
  | .lin => t.lin = s.lin
  | .hz => t.hz = s.hz
  | .ses => t.ses = s.ses
  | .caps => t.caps = s.caps
  | .sun => t.sun = s.sun
  | .qu => t.qu = s.qu
  | .ln => t.ln = s.ln
  | .mem => t.mem = s.mem
  | .fx => t.fx = s.fx
  | .al => t.al = s.al
  | .pip => t.pip = s.pip
  | .dr => t.dr = s.dr
  | .pod => t.pod = s.pod
  | .up => t.up = s.up
  | .inj => t.inj = s.inj

/-- A write of client c to an object reaches the state rules of that object: the node answers (R468), no long operation runs and no
other client holds the session (R468, R474), the tables let the write pass (Table 23-3), and no segmented transfer is open (R470). -/
structure State.Accepts (s : State) (c idx sub : Nat) (seg : Bool) (b : List Byte) : Prop where
  served : s.served = true
  gate : s.gate c = none
  tables : (s.renew c).writeAbort idx sub seg b = none
  closed : s.ctl.transfer = none

/-- The state in which engine e's context holds c. -/
def State.putCtx (s : State) (e : Nat) (user : Bool) (c : Ctx) : State := s.setEngine e fun g => g.setCtx user c

/-- The state in which a slot of engine e's bundle has left c in its context; a user bundle is in progress from its first slot on
(R232). -/
def State.putSlot (s : State) (e : Nat) (user : Bool) (c : Ctx) : State :=
  s.setEngine e fun g => { g.setCtx user c with mid := user }

/-- A bundle of context c with `extra` cycles beside its own leaves a user item within its cycle budget (R240). -/
def State.InBudget (s : State) (e : Nat) (user : Bool) (c : Ctx) (extra : Nat) : Prop :=
  ∀ it, user = true → (s.engine e).userItem = some it → max c.cycle c.stall + 1 + bankStall c.banks + extra ≤ it.budget

/-- A slot command is one that the bundle under the running context of engine e spells (R221): what its access meets in memory aside, an
engine issues no other. -/
def State.Spelled (s : State) (e t : Nat) (i : Instr) : Prop := ∃ l, s.slotsAt e t = some l ∧ i ∈ l

/-- Receive lane m takes a host frame that fault injection does not touch: the serial domain is powered, the lane is locked, no frame of
the lane is held, none of another is due out, and no injection runs (R325, R488, R489). -/
structure State.Receives (s : State) (m : Nat) : Prop where
  serial : s.pw.serial = true
  two : m < 2
  locked : (s.ln.rx.getD m ⟨false, false, []⟩).locked = true
  alone : (s.inj.heldRx.any fun h => decide (h.1 = m)) = false
  later : (s.inj.heldRx.any fun h => decide (h.2.2 ≤ s.now)) = false
  quiet : s.og 0x5E0002 ≠ 2

end Sys2Proof.Machine

namespace Sys2Proof

open Machine

/-- The parts that a command may change, as the rules of that command and of what comes about inside it (95) name them. Every other
part stands. -/
def Instr.writes : Instr → List Part
  | .vbatPowerUp .. | .wakePin .. | .wakeTimer .. => [.clock, .objects, .pw]
  | .crystalStart .. | .corePowerUp .. | .pwrEnHoldEnd .. | .retentionWrite .. => [.clock, .pw]
  | .internalResetRelease .. =>
    [.clock, .free, .objects, .domains, .wire, .pw, .ctl, .mg, .lad, .sw, .opt, .ses, .sun, .qu, .ln, .mem, .fx, .tb, .pip,
    .dr, .pod, .up, .inj]
  | .pgInFall .. | .resetL .. | .dormantEntry .. | .resetNode .. =>
    [.clock, .free, .objects, .wire, .pw, .ctl, .mg, .lad, .sw, .opt, .ch, .das, .pop, .lin, .hz, .ses, .caps, .sun, .qu,
    .ln, .mem, .fx, .al, .tb, .pip, .dr, .pod, .up, .inj]
  | .powerCommandDormant .. | .powerCommandDoze .. | .powerCommandReady .. | .powerCommandSensing .. | .stopRemoteNode ..
  | .enterPreOperational .. | .stopShutdown .. | .referenceTimeout .. | .onTimeEnd .. | .temperatureReading .. =>
    [.clock, .objects, .wire, .pw, .ctl, .mg, .sw, .opt, .ses, .sun, .qu, .ln, .mem, .fx, .tb, .pip, .dr]
  | .startRemoteNode .. => [.clock, .objects, .pw, .ctl, .mg, .sw, .opt, .mem, .dr]
  | .resetCommunication .. => [.clock, .free, .objects, .wire, .ctl, .mg, .lad, .ln, .mem, .up, .inj]
  | .dozeToReadyDone .. =>
    [.clock, .objects, .pw, .ctl, .mg, .lad, .sw, .opt, .ses, .sun, .qu, .ln, .mem, .tb, .pip, .dr, .up]
  | .activePlanReload .. => [.clock, .objects, .pw, .ctl, .lad, .sw, .opt, .ses, .qu, .mem, .up]
  | .keptPlanReload .. => [.clock, .objects, .pw, .ctl, .lad, .sw, .opt, .ses, .qu, .mem]
  | .coldEntrySeedCheck .. => [.clock, .objects, .wire, .pw, .ctl, .lad, .opt, .mem, .inj]
  | .acquisitionDeadline .. => [.clock, .objects, .pw, .ctl, .opt]
  | .offsetTrim .. => [.clock, .opt]
  | .sweepBoundary .. =>
    [.clock, .free, .objects, .domains, .wire, .pw, .ctl, .mg, .lad, .sw, .opt, .ch, .das, .pop, .lin, .hz, .ses, .caps,
    .qu, .mem, .pip, .pod, .inj]
  | .choiceFix .. => [.clock, .sw]
  | .slotFiring .. => [.clock, .objects, .mg, .sw, .opt, .das, .lin, .ses, .pip]
  | .inputLimitAssert .. | .measurementTimeout .. | .darkPortPowerDown .. => [.clock, .objects, .opt]
  | .reflectionTrip .. => [.clock, .objects, .ctl, .mg, .sw, .opt, .ses, .qu, .pip]
  | .seedLowSet .. => [.clock, .objects, .ctl, .mg, .sw, .opt, .ses, .qu]
  | .seedLowClear .. => [.clock, .objects, .sw, .opt, .ses, .qu]
  | .biasMeasurement .. => [.clock, .objects, .ctl, .opt]
  | .biasSearch .. => [.clock, .objects, .wire, .ctl, .sw, .opt, .ses, .qu]
  | .holdWarmOn .. | .holdWarmOff .. | .managedOperation .. | .rungChoice .. =>
    [.clock, .objects, .wire, .pw, .ctl, .mg, .lad, .sw, .opt, .ses, .sun, .qu, .ln, .mem, .fx, .tb, .pip, .dr, .pod, .inj]
  | .chestnutOutput .. => [.clock, .objects, .sw, .ch]
  | .workItemRelease .. => [.clock, .free, .objects, .sw, .das, .hz, .ses, .qu, .mem]
  | .checkpointInstant .. => [.clock, .das, .hz]
  | .budgetExhausted .. | .userItemCheckpoint .. => [.clock, .objects, .sw, .hz, .ses, .qu, .mem]
  | .sweepCompletion .. => [.clock, .free, .objects, .domains, .sw, .opt, .ch, .das, .pop, .lin, .ses, .qu, .mem]
  | .segmentEmit .. => [.clock, .objects, .mg, .sw, .ses, .qu, .al]
  | .poppyBlock .. => [.clock, .objects, .sw, .pop, .ses, .qu, .al]
  | .inactiveBankLoad .. | .poppyResetWrite .. | .poppyModeWrite .. | .zoneThresholdWrite .. | .removeRung ..
  | .stageOpen .. | .stageApply .. | .stageDiscard .. | .shadowedWrite .. => [.clock, .objects, .wire, .ctl, .lad]
  | .linseedBlockAdd .. => [.clock, .objects, .sw, .lin]
  | .dtsDecode .. => [.clock, .free, .objects, .sw, .lin, .ses, .qu]
  | .evaluationInstant .. | .levelTimerExpiry .. | .autoTimerExpiry .. | .sequenceArmAct .. | .forceAct ..
  | .fillingEntry .. | .captureRearm .. => [.clock, .free, .objects, .domains, .sw, .ses, .caps, .qu]
  | .zoneUpdate .. => [.clock, .sw, .ses]
  | .sequenceArm .. | .sequenceDisarm .. | .force .. => [.clock, .objects, .wire, .ctl, .ses]
  | .hostLine .. | .overrunClear .. | .rateCorrectionWrite .. | .intervalArm .. | .intervalDisarm .. | .downloadClose ..
  | .unlock .. | .injectionStop .. => [.clock, .objects, .wire, .ctl]
  | .trigInEdge .. | .ppsEdge .. => [.clock, .objects, .ses, .tb]
  | .captureArm .. | .captureDisarm .. | .captureLengthWrite .. => [.clock, .objects, .wire, .ctl, .caps]
  | .rateWindowEnd .. | .postTimeLimit .. => [.clock, .objects, .caps]
  | .captureRecordWrite .. => [.clock, .free, .objects, .sw, .ses, .caps, .qu]
  | .ownerWrite .. => [.clock, .objects, .wire, .ctl, .ses, .sun]
  | .sunflowerEnable .. | .sunflowerDisable .. => [.clock, .objects, .wire, .ctl, .sun]
  | .verticalSync .. => [.clock, .objects, .wire, .sun]
  | .underrun .. => [.clock, .objects, .wire, .sw, .sun]
  | .planInstall .. | .planInstallKeep .. | .fullScrub .. => [.clock, .objects, .wire, .ctl, .sw, .ses, .qu]
  | .requestedRung .. | .chainSwitch .. => [.clock, .objects, .wire, .ctl, .lad, .opt, .mem, .inj]
  | .prepareEnd .. => [.clock, .objects, .wire, .ctl, .lad, .sw, .opt, .mem, .inj]
  | .prepare .. | .nak .. | .ackTimeout .. | .cancel .. | .fail .. | .commitLostTimeout .. =>
    [.clock, .objects, .wire, .lad, .opt, .mem, .inj]
  | .ack .. | .commit .. | .outcome .. => [.clock, .objects, .wire, .lad, .inj]
  | .burstRequest .. | .burstAbandon .. => [.clock, .objects, .wire, .ctl, .ch]
  | .burstCaptureEnd .. => [.clock, .objects, .ch, .mem]
  | .burstReadout .. => [.clock, .free, .objects, .sw, .ch, .ses, .qu]
  | .userProgram .. => [.clock, .objects, .wire, .ctl, .hz]
  | .hzNop .. | .hzLoop .. | .hzJmp .. | .hzBra .. | .hzBrn .. | .hzChk .. | .hzAddrNop .. | .hzPadd .. | .hzPldp ..
  | .hzPldm .. | .hzPldl .. | .hzPldz .. | .hzPaddi .. | .hzPsets .. | .hzLdstNop .. | .hzLdw .. | .hzLdb .. | .hzLdh ..
  | .hzLdhs .. | .hzLds .. | .hzLda .. | .hzStw .. | .hzStb .. | .hzSth .. | .hzStbp .. | .hzSts .. | .hzSta ..
  | .hzStaw .. | .hzStaq .. | .hzMacNop .. | .hzMac .. | .hzMsu .. | .hzMpy .. | .hzClr .. | .hzAccd .. | .hzSeta ..
  | .hzRsa .. | .hzLsa .. | .hzDivr .. | .hzExt .. | .hzAdd .. | .hzSub .. | .hzAdds .. | .hzSubs .. | .hzMin ..
  | .hzMax .. | .hzAnd .. | .hzOr .. | .hzXor .. | .hzRsd .. | .hzLsd .. | .hzCgt .. | .hzCeq .. | .hzSel .. | .hzMov ..
  | .hzPrm .. | .hzAbs .. => [.objects, .sw, .das, .hz, .ses, .qu, .mem]
  | .hzEnd .. => [.clock, .free, .objects, .wire, .sw, .das, .hz, .ses, .sun, .qu, .mem]
  | .hzIllegalBundle .. => [.clock, .objects, .sw, .das, .hz, .ses, .qu, .mem]
  | .statusRecord .. => [.clock, .objects, .ctl, .sw, .ses, .qu]
  | .dataFrame .. => [.clock, .objects, .wire, .sw, .qu, .ln, .mem, .inj]
  | .deviceControlFrame .. => [.clock, .objects, .wire, .ln]
  | .credit .. | .replayRequest .. | .hostStatus .. | .download .. | .reorderHoldTimeout .. | .hostFrameDrop .. =>
    [.clock, .free, .objects, .wire, .mg, .ln, .mem, .up, .inj]
  | .blockLock .. | .lockLoss .. | .adaptation .. => [.clock, .objects, .ln]
  | .electricalIdleEntry .. | .electricalIdleExit .. => [.clock, .ln]
  | .bankOwnerWrite .. | .refreshModeWrite .. => [.clock, .objects, .wire, .ctl, .mem]
  | .busyStrobe .. | .cashewScrub .. => [.clock, .objects, .sw]
  | .refresh .. | .selfRefreshEntry .. => [.clock, .mem]
  | .dramUncorrectable .. =>
    [.clock, .free, .objects, .wire, .lad, .sw, .opt, .ch, .das, .pop, .lin, .hz, .ses, .caps, .qu, .ln, .mem, .fx, .al,
    .inj]
  | .realTimeOverflow .. => [.clock, .objects, .sw, .ch, .lin, .caps]
  | .flaxStart .. | .flaxStop .. => [.clock, .objects, .wire, .ctl, .fx]
  | .flaxBurst .. => [.clock, .free, .objects, .sw, .ses, .mem, .fx]
  | .descriptorComplete .. => [.clock, .objects, .mem, .fx]
  | .jobStart .. | .jobResume .. | .jobAbandon .. => [.clock, .objects, .wire, .ctl, .al]
  | .deviceTimeWrite .. | .timeAtNextPps .. => [.clock, .objects, .wire, .ctl, .tb]
  | .ppsProcess .. | .ppsLoss .. => [.clock, .objects, .tb]
  | .intervalTimeout .. | .tdcFallback .. | .syncLoss .. | .messageCrcError .. => [.clock, .objects]
  | .converter0Pass .. => [.clock, .objects, .pip, .pod]
  | .converter1Pass .. | .rtdSettingWrite .. | .converter1Reference .. => [.clock, .objects, .wire, .ctl, .pip]
  | .converter1Timer .. => [.clock, .objects, .pip]
  | .passEnd .. => [.clock, .free, .objects, .domains, .ctl, .mg, .opt, .lin, .pip, .pod]
  | .blankIn .. => [.clock, .pip]
  | .calibrationStart .. => [.clock, .objects, .wire, .ctl, .sw, .ses, .qu, .pip]
  | .longOperationEnd .. => [.clock, .free, .objects, .wire, .ctl, .lad, .sw, .opt, .ses, .qu, .pip, .dr, .up, .inj]
  | .enum .. => [.clock, .objects, .wire, .ctl, .dr, .inj]
  | .enumTimeout .. | .update .. | .inject .. | .sideLock .. => [.clock, .objects, .wire, .dr, .inj]
  | .enumEnd .. => [.clock, .objects, .wire, .inj]
  | .marker .. => [.clock, .objects, .wire, .tb, .dr]
  | .markerArrival .. => [.clock, .objects, .wire, .tb, .dr, .inj]
  | .turn .. => [.clock, .objects, .wire, .tb, .inj]
  | .sync .. => [.clock, .objects, .tb, .dr]
  | .phaseStep .. | .sideFault .. | .drgRefiReturn .. => [.clock, .objects, .dr]
  | .boundary .. => [.clock, .objects, .wire, .sw, .dr, .inj]
  | .drgRefiLoss .. => [.clock, .dr]
  | .podSecond .. | .incomeCredit .. | .balanceWrite .. =>
    [.clock, .free, .objects, .wire, .pw, .ctl, .mg, .lad, .sw, .opt, .ses, .sun, .qu, .ln, .mem, .fx, .tb, .pip, .dr, .pod,
    .inj]
  | .energyRefine .. => [.clock, .objects, .pod]
  | .watchdog .. | .restartWalnut .. | .walnutException .. =>
    [.clock, .free, .objects, .wire, .ctl, .mg, .lad, .sw, .opt, .ses, .qu, .ln, .mem, .pip, .up, .inj]
  | .logEntry .. => [.clock, .objects, .mg, .sw, .ses, .qu]
  | .logSelect .. => [.clock, .objects, .domains, .wire, .ctl]
  | .acornMeasurement .. => [.clock, .free, .objects, .mg]
  | .avsStep .. | .pmbusRetry .. => [.clock, .free, .objects, .wire, .mg]
  | .planDerating .. => [.clock, .free, .objects, .mg, .lad]
  | .ledgerReset .. => [.clock, .objects, .wire, .ctl, .mg]
  | .downloadOpen .. => [.clock, .objects, .domains, .wire, .ctl, .up]
  | .downloadAbandon .. => [.clock, .objects, .wire, .ctl, .up]
  | .canFdData .. => [.clock, .free, .objects, .wire, .ctl, .up]
  | .imagePrepare .. => [.clock, .objects, .wire, .ctl, .sw, .ses, .qu, .inj]
  | .activate .. | .confirmTimeout .. =>
    [.clock, .free, .objects, .wire, .pw, .ctl, .mg, .lad, .sw, .opt, .ses, .qu, .ln, .mem, .pip, .dr, .up, .inj]
  | .confirm .. => [.clock, .objects, .wire, .board, .pw, .ctl, .dr, .up, .inj]
  | .usdoRequest .. | .registerWrite .. =>
    [.clock, .free, .objects, .domains, .wire, .board, .pw, .ctl, .mg, .lad, .sw, .opt, .ch, .hz, .ses, .caps, .sun, .qu,
    .ln, .mem, .fx, .al, .tb, .pip, .dr, .pod, .up, .inj]
  | .latestBoundaryRead .. | .snapshotRead .. => [.clock, .free, .objects, .wire, .ctl, .mg]
  | .leaseLapse .. => [.clock, .objects, .ctl, .lad]
  | .transferTimeout .. | .heartbeat .. | .emcy .. => [.clock, .wire, .ctl]
  | .injectionStart .. => [.clock, .objects, .wire, .ctl, .inj]
  | .vbatLoss .. => [.clock, .objects, .pw, .dr]
  | .jobDone .. => [.clock, .free, .objects, .sw, .mem, .al]
  | .downloadVerifyEnd .. => [.clock, .objects, .domains, .up]
  | .activationLoadEnd .. =>
    [.clock, .objects, .wire, .pw, .ctl, .mg, .sw, .opt, .ses, .sun, .qu, .ln, .mem, .fx, .tb, .pip, .dr, .up]
  | .walnutRestartDone .. =>
    [.clock, .free, .objects, .wire, .pw, .ctl, .mg, .lad, .sw, .opt, .ses, .sun, .qu, .ln, .mem, .fx, .tb, .pip, .dr, .pod,
    .up, .inj]

end Sys2Proof
end

