-- ==== Sys2Proof/Certificates/Slice0/Obligations.lean ====
section
/-! DEFINITION. The statements for the provers. -/

open Sys2Proof Sys2Proof.Machine

/-- Commands are taken first in, first out: with command c at the front of the queue, one step is c's effect on the state with the
queue's rest. -/
def Obligations.StepTakesTheFront : Prop :=
  ∀ (s : State) (c : Instr) (r : List Instr), s.pending = c :: r → step s = exec c { s with pending := r }

/-- On an empty queue the block idles (the model's choice, assumption log 1): a step leaves every part of the state as it is, whatever
instant has passed outside, and a word of the table spells no command, since no row of it gives bits. -/
def Obligations.IdleStep : Prop :=
  (∀ s : State, s.pending = [] → step s = .next s) ∧
  ∀ (s : State) (nbits w : Nat), decodeTableWord nbits w = none ∧ s.withFetchWord nbits w = s

/-- The state right after the first power-up is sound: every sparse table of it is in canonical form, every unit has its number of
instances, and neither the EMCY queue nor the SRAM log buffer is over its bound. -/
def Obligations.ResetIsSound : Prop := State.reset.Sound

/-- What the machine holds right after its first power-up (R378, R426, R427, R485, R494, R495). It is in Doze with VBAT and PWR_EN up and
PG_IN seen; no command waits and no transition runs; wake cause bit 9 is latched, the crystal has not started, device time is 0 and
its state unset; the balance is 0 with the balance-unknown flag; injection is locked. Every other object of the dictionary but the
node-ID and chain position reads its default. That DRAM, Cashew and the Hazel memories read zero is the model's choice (assumption log 4),
and so are the fuses and straps of the board (log 21). -/
def Obligations.ResetValues : Prop :=
  State.reset.pw.power = .doze ∧ State.reset.pw.vbat = true ∧ State.reset.pw.pwrEn = true ∧ State.reset.pw.pgIn = true ∧
  State.reset.pw.goal = none ∧ State.reset.pw.crystal = false ∧ State.reset.pending = [] ∧
  State.reset.og 0x210018 = 0x200 ∧ State.reset.og 0x220003 = 0 ∧ State.reset.tb.t = 0 ∧
  State.reset.pod.balance = 0 ∧ State.reset.og 0x210014 = 8 ∧ State.reset.og 0x5E0002 = 0 ∧
  (∀ k, k ≠ 0x210014 → k ≠ 0x210018 → k ≠ 0x4C0001 → k ≠ 0x4C0002 → State.reset.og k = odflt k) ∧
  ∀ a, Memory.get State.reset.mem.dram a = 0 ∧ Memory.get State.reset.mem.cashew a = 0 ∧
    Memory.get State.reset.hz.local_ a = 0 ∧ Memory.get State.reset.hz.prog a = 0

/-- Every step keeps a sound state sound: whatever command is at the front, the sparse
tables stay canonical, no unit gains or loses an instance, at most eight EMCYs wait and at most 256 log entries stand in SRAM. The
fuses and straps never change (R25, R340, R403, R409, R449), neither anti-rollback counter falls (R449), and the queue loses its front. -/
def Obligations.StepKeepsSound : Prop :=
  ∀ s t : State, s.Sound → step s = .next t →
    t.Sound ∧ t.board.fixed = s.board.fixed ∧ s.board.walnutCounter ≤ t.board.walnutCounter ∧
      s.board.dataCounter ≤ t.board.dataCounter ∧ t.pending = s.pending.tail

/-- No command stops the block: from every sound state every command of the table, with any operands, answers a next state, in which
the queue stands as it was. -/
def Obligations.EveryCommandCompletes : Prop :=
  ∀ (s : State) (c : Instr), s.Sound → ∃ t, exec c s = .next t ∧ t.pending = s.pending

/-- A command changes only the parts of the device that its rules name (chapter 95 lists them). Where a command
answers a next state, every part outside `c.writes` is as it was: the clock, the queue, the object dictionary, the fuses and straps,
each unit's registers, every byte of DRAM, Cashew and the Hazel memories (the parts `mem` and `hz`), and the wire. -/
def Obligations.CommandsChangeOnlyTheirParts : Prop :=
  ∀ (s t : State) (c : Instr), exec c s = .next t → ∀ p : Part, p ∉ c.writes → p.same s t

/-- Who is served (R468, R474). While a long operation runs, or while another client holds the session, every USDO request is answered with
0x0800_0022, reads and segments included, and nothing else changes, so that the lease is not renewed. A served request of the client
that holds the session, or of any client while none does, is answered too; it makes its client the holder and its lease ends 10 s later.
A node that does not answer takes no request at all. -/
def Obligations.SessionGate : Prop :=
  ∀ (s : State) (t c : Nat) (req : UsdoReq),
    (s.served = false → exec (.usdoRequest t c req) s = .next (s.at t)) ∧
    (s.served = true → (s.ctl.longOp.isSome = true ∨ (s.og 0x200009 ≠ 0 ∧ s.og 0x200009 ≠ c)) →
      exec (.usdoRequest t c req) s = .next ((s.at t).answer c (.abort 0x08000022))) ∧
    (s.served = true → s.ctl.longOp = none → (s.og 0x200009 = 0 ∨ s.og 0x200009 = c) → s.Sound →
      ((s.at t).renew c).og 0x200009 = c ∧ ((s.at t).renew c).ctl.lease = max s.now t + 10000000000 ∧
      ∀ idx sub b, req = .write idx sub false b →
        (∀ a, ((s.at t).renew c).writeAbort idx sub false b = some a →
          exec (.usdoRequest t c req) s = .next (((s.at t).renew c).answer c (.abort a))) ∧
        (((s.at t).renew c).writeAbort idx sub false b = none → s.ctl.transfer = none →
          exec (.usdoRequest t c req) s = .next (match writeEffect idx sub b ((s.at t).renew c) with
            | .error a => ((s.at t).renew c).answer c (.abort a)
            | .ok u => u.answer c .done)))

/-- Subindex 0 (R478). Of every index of the dictionary whose table gives subindex 0 no row of its own, subindex 0 is an UNSIGNED8 const
whose value is the highest subindex that the table holds: that one is held, and none above it. A request to an index that no table
holds meets 0x0602_0000, one to a subindex that the table does not hold 0x0609_0011, gaps of a numbered run included. -/
def Obligations.SubindexZero : Prop :=
  (∀ idx f, familyOf idx = some f → rowOf f 0 = none →
    objRow idx 0 = some (cst 0 .u1 (topSub f)) ∧ topSub f < 256 ∧ (objRow idx (topSub f)).isSome = true ∧
      ∀ sub, (objRow idx sub).isSome = true → sub ≤ topSub f) ∧
  (∀ (s : State) idx sub, s.og 0x500001 ≠ 1 → familyOf idx = none → s.locate idx sub = .error 0x06020000) ∧
  ∀ (s : State) idx sub f, s.og 0x500001 ≠ 1 → familyOf idx = some f → rowOf f sub = none → sub ≠ 0 →
    s.locate idx sub = .error 0x06090011

/-- Absent families (R34, R35). Of a family whose port is not fitted, or of DTS without the combined option, a served request that no long
operation and no other client's session turns away is answered so, whatever the value, the access rights of the row and the power state:
a subindex that the table holds, subindex 0 among them, reads zero in all its bytes, in the model whether the
read is expedited or segmented (assumption log 74); a write to it is refused with 0x0800_0020 and
changes nothing but the lease, so that it keeps reading zero; a subindex that the table does not hold meets 0x0609_0011. Recovery mode
(R456), which serves no such object at all, is the one exception. -/
def Obligations.AbsentFamilies : Prop :=
  ∀ (s : State) (t c idx sub : Nat), s.served = true → s.gate c = none → s.og 0x500001 ≠ 1 → s.absent idx = true →
    let w := (s.at t).renew c
    (∀ o, objRow idx sub = some o →
      (∀ b, exec (.registerWrite t c idx sub b) s = .next (w.answer c (.abort 0x08000020))) ∧
      (∀ seg b, exec (.usdoRequest t c (.write idx sub seg b)) s = .next (w.answer c (.abort 0x08000020))) ∧
      0 < o.ty.size ∧
      ∀ seg, exec (.usdoRequest t c (.read idx sub seg)) s = .next (w.answer c (.value (rep o.ty.size 0)))) ∧
    (objRow idx sub = none → ∀ seg b,
      exec (.usdoRequest t c (.write idx sub seg b)) s = .next (w.answer c (.abort 0x06090011)) ∧
      exec (.usdoRequest t c (.read idx sub seg)) s = .next (w.answer c (.abort 0x06090011)))

/-- The byte memories (R332, R359, R218, Table 10-2) hold what was stored last: after a run of bytes is stored at address a, address a + i
reads byte i of it, every address outside the run reads as before, and the memory is in its canonical form again, so that equal
contents are equal data. A cleared span reads zero and every address outside it reads as before. -/
def Obligations.MemoryReadAfterWrite : Prop :=
  (∀ (m : Mem) (a : Nat) (b : List Byte), Memory.wf m = true →
    Memory.wf (memWrite m a b) = true ∧ memRead (memWrite m a b) a b.length = b ∧
      ∀ x, x < a ∨ a + b.length ≤ x → Memory.get (memWrite m a b) x = Memory.get m x) ∧
  ∀ (m : Mem) (a n : Nat), Memory.wf m = true →
    Memory.wf (memClear m a n) = true ∧
      ∀ x, Memory.get (memClear m a n) x = if a ≤ x ∧ x < a + n then 0 else Memory.get m x

/-- Shell commands (R417, R418, R422, R423, R494, R495), each with all it changes beside the passing of time: VBAT_POWER_UP starts
the Shell with wake cause bit 9 and raises PWR_EN; CRYSTAL_START lets the wake timer count; CORE_POWER_UP raises PG_IN and sets the
release of the internal reset 1 ms ahead; WAKE_PIN and WAKE_TIMER add their wake cause and raise PWR_EN in Dormant, or wait for
the end of the 20 ms hold; PWR_EN_HOLD_END ends the hold and serves a cause that waits; VBAT_LOSS clears what VBAT holds. -/
def Obligations.ShellCommandsComplete : Prop :=
  (∀ s t, s.pw.vbat = false → exec (.vbatPowerUp t) s =
    .next (({ s.at t with pw := { (s.at t).pw with
      vbat := true, crystal := false, shellCount := 0, shellRem := 0, pwrEn := true, lowHold := false, armed := false
      woken := false, wakeTime := 0, fromDormant := false } }).os 0x210018 0x200)) ∧
  (∀ s t, s.pw.vbat = true → exec (.crystalStart t) s =
    .next { s.at t with pw := { (s.at t).pw with crystal := true } }) ∧
  (∀ s t, s.pw.pwrEn = true → s.pw.power = .dormant → s.pw.inReset = false → exec (.corePowerUp t) s =
    .next { s.at t with pw := { (s.at t).pw with inReset := true, pgIn := true, releaseAt := max s.now t + 1000000 } }) ∧
  (∀ s t pins, let active := ((pins % 256) ^^^ s.og 0x21001A) &&& s.og 0x210019
    s.pw.vbat = true → active ≠ 0 → s.pw.armed = true → s.pw.pwrEn = false →
    exec (.wakePin t pins) s = .next { (s.at t).os 0x210018 (s.og 0x210018 ||| active) with
      pw := let w := { (s.at t).pw with wokeAt := if s.pw.woken then s.pw.wokeAt else max s.now t }
        if s.pw.lowHold then { w with woken := true } else { w with pwrEn := true, armed := false, woken := false, fromDormant := true } }) ∧
  (∀ s t, s.pw.vbat = true → s.pw.armed = true → s.pw.pwrEn = false → (s.at t).pw.timerDue = true →
    exec (.wakeTimer t) s = .next { (s.at t).os 0x210018 (s.og 0x210018 ||| 0x100) with
      pw := let w := { (s.at t).pw with wokeAt := if s.pw.woken then s.pw.wokeAt else max s.now t }
        if s.pw.lowHold then { w with woken := true } else { w with pwrEn := true, armed := false, woken := false, fromDormant := true } }) ∧
  (∀ s t, s.pw.lowHold = true → s.pw.lowUntil ≤ max s.now t → exec (.pwrEnHoldEnd t) s =
    .next { s.at t with pw := if s.pw.woken then
        { (s.at t).pw with lowHold := false, pwrEn := true, armed := false, woken := false, fromDormant := true }
      else { (s.at t).pw with lowHold := false } }) ∧
  (∀ s t, exec (.vbatLoss t) s =
    .next (({ s.at t with
      pw := { (s.at t).pw with
        vbat := false, crystal := false, shellCount := 0, shellRem := 0, armed := false, woken := false, wakeTime := 0
        retention := rep 256 0 }
      dr := { s.dr with position := 0xFF } }).os 0x210018 0))

/-- Resets and losses (R24, R25, R417, R422, R423, R495, R497, R501, R502). INTERNAL_RESET_RELEASE boots into Doze with the variant
the fuses and the strap give. PG_IN_FALL, RESET_L and RESET_NODE lose the Core domain: the device is in Dormant, no transition and
no long operation goes on, T stands; a PG_IN_FALL also drops PWR_EN for at least 20 ms, the resets hold the internal reset for
1 ms more. DORMANT_ENTRY arms the Shell with its wake time and drops PWR_EN. RETENTION_WRITE writes retention RAM alone. -/
def Obligations.ResetCommandsComplete : Prop :=
  (∀ s t, s.pw.inReset = true → s.pw.pgIn = true → s.pw.releaseAt ≤ max s.now t → s.pw.fromDormant = false →
    ∃ u, exec (.internalResetRelease t) s = .next u ∧ u.pw.power = .doze ∧ u.pw.inReset = false ∧
      u.pw.sensedPorts = s.board.ports ∧ u.pw.sensedCombined = s.board.combined ∧ u.pw.sensedKm80 = s.board.km80 ∧
      u.pw.sensedHead = s.board.headStrap) ∧
  (∀ s t, s.pw.pgIn = true → s.coreLive = true ∨ s.pw.inReset = true →
    let d := (s.at t).injectLock.coreDown
    exec (.pgInFall t) s = .next { d with pw := { d.pw with
      pwrEn := false, lowHold := true, lowUntil := max s.now t + 20000000, armed := true, armCount := d.pw.shellCount
      woken := false, pgIn := false, wakeTime := fld d.pw.retention 0x28 8 % 2 ^ 48 } }) ∧
  (∀ s t low, s.pw.pwrEn = true → s.pw.pgIn = true → 1000 ≤ low →
    let d := (s.at t).injectLock.coreDown
    exec (.resetL t low) s = .next { d with pw := { d.pw with
      inReset := true, pgIn := true, releaseAt := max s.now t + 1000000, fromDormant := false } }) ∧
  (∀ s t node, s.coreLive = true → s.ctl.restarting = false → node = 0 ∨ node = s.ctl.nodeId →
    let d := (s.at t).injectLock.coreDown
    exec (.resetNode t node) s = .next { d with pw := { d.pw with
      inReset := true, pgIn := true, releaseAt := max s.now t + 1000000, fromDormant := false } }) ∧
  (∀ s t w, s.pw.goal = some .dormant → s.pw.power = .doze → s.ctl.longOp = none → s.ctl.restarting = false →
    s.pw.woken = false → (s.at t).wakeCount = some w →
    ∃ u, exec (.dormantEntry t) s = .next u ∧ u.pw.power = .dormant ∧ u.pw.pwrEn = false ∧ u.pw.lowHold = true ∧
      u.pw.lowUntil = max s.now t + 20000000 ∧ u.pw.armed = true ∧ u.pw.woken = false ∧ u.pw.wakeTime = w ∧
      u.pw.goal = none ∧ u.pod.balance = s.pod.balance) ∧
  (∀ s t, s.coreLive = true → s.ctl.restarting = false → s.pw.vbat = true →
    exec (.retentionWrite t) s =
      .next { s.at t with pw := { (s.at t).pw with retention := (s.at t).retentionBytes } }) ∧
  (∀ s : State, s.injectLock.now = s.now ∧ s.injectLock.pw.retention = s.pw.retention ∧ s.injectLock.board = s.board ∧
    s.coreDown.pw.power = .dormant ∧ s.coreDown.pw.goal = none ∧ s.coreDown.pw.entry = none ∧
    s.coreDown.ctl.longOp = none ∧ s.coreDown.ctl.transfer = none ∧ s.coreDown.ctl.waiting = [] ∧
    s.coreDown.mem.dram = [] ∧ s.coreDown.mem.cashew = [] ∧ s.coreDown.sw.flights = [] ∧
    s.coreDown.objects = s.objects ∧ s.coreDown.board = s.board ∧ s.coreDown.tb.t = s.tb.t ∧
    s.coreDown.pw.retention = s.pw.retention ∧ s.coreDown.pw.shellCount = s.pw.shellCount)

/-- Power commands (R464 to R466, R444). Taken in Sensing, Dormant, Doze and Ready each let Sensing stop at its next boundary with
that state as the goal, and intended service ends; Ready and Sensing taken in Doze leave Doze for that goal, and Sensing begins
intended service; Sensing taken in Ready begins the entry that the judgement of R466 lets pass, warm with its first boundary 5 ms
ahead, cold 120 ms, on the next converter edge. -/
def Obligations.PowerCommandsComplete : Prop :=
  (∀ s t c, s.pw.power = .sensing → (s.at t).Accepts c 0x2000 4 false (le 1 0) →
    ∃ u, exec (.powerCommandDormant t c) s = .next u ∧ u.pw.stopWanted = true ∧ u.pw.goal = some .dormant ∧
      u.pw.power = .sensing ∧ u.mg.intended = false ∧ u.wire = s.wire ++ [.answer c .done]) ∧
  (∀ s t c, s.pw.power = .sensing → (s.at t).Accepts c 0x2000 4 false (le 1 1) →
    ∃ u, exec (.powerCommandDoze t c) s = .next u ∧ u.pw.stopWanted = true ∧ u.pw.goal = some .doze ∧
      u.pw.power = .sensing ∧ u.mg.intended = false ∧ u.wire = s.wire ++ [.answer c .done]) ∧
  (∀ s t c, s.pw.power = .sensing → (s.at t).Accepts c 0x2000 4 false (le 1 2) →
    ∃ u, exec (.powerCommandReady t c) s = .next u ∧ u.pw.stopWanted = true ∧ u.pw.goal = some .ready ∧
      u.pw.power = .sensing ∧ u.mg.intended = false ∧ u.wire = s.wire ++ [.answer c .done]) ∧
  (∀ s t c, s.pw.power = .doze → s.mg.critical = false → (s.at t).Accepts c 0x2000 4 false (le 1 2) →
    ∃ u, exec (.powerCommandReady t c) s = .next u ∧ u.pw.goal = some .ready ∧ u.pw.power = .doze ∧
      u.wire = s.wire ++ [.answer c .done]) ∧
  (∀ s t c, s.pw.power = .doze → s.mg.critical = false → (s.at t).Accepts c 0x2000 4 false (le 1 3) →
    ∃ u, exec (.powerCommandSensing t c) s = .next u ∧ u.pw.goal = some .sensing ∧ u.pw.power = .doze ∧
      u.mg.intended = true ∧ u.wire = s.wire ++ [.answer c .done]) ∧
  (∀ s t c v, s.pw.power = .ready → (s.at t).Accepts c 0x2000 4 false (le 1 3) →
    ((s.at t).renew c).intend.beginEntry = .ok v →
    exec (.powerCommandSensing t c) s = .next (v.answer c .done) ∧ v.pw.goal = some .sensing ∧
      v.pw.entry = some ⟨s.pw.photonic, max s.now t,
        adcEdge (max s.now t + if s.pw.photonic then 5000000 else 120000000), s.pw.photonic, false⟩)

/-- NMT commands (R463, R465, R468, R487) that reach the node and are obeyed. Start remote node in Doze leaves it for Sensing; stop
remote node and enter pre-operational in Sensing let it stop at the next boundary, with Doze (and NMT Stopped there) and with Ready
as the goal, and intended service ends; reset communication ends the session, closes a transfer, drops an open stage set and sends
the boot-up message. -/
def Obligations.NmtCommandsComplete : Prop :=
  (∀ s t node, (s.at t).nmtOk node = true → s.og 0x500001 ≠ 1 → s.pw.power = .doze → s.mg.critical = false →
    ∃ u, exec (.startRemoteNode t node) s = .next u ∧ u.pw.goal = some .sensing ∧ u.pw.power = .doze ∧
      u.pw.nmtStopWanted = false ∧ u.mg.intended = true) ∧
  (∀ s t node, (s.at t).nmtOk node = true → s.pw.power = .sensing →
    ∃ u, exec (.stopRemoteNode t node) s = .next u ∧ u.pw.stopWanted = true ∧ u.pw.goal = some .doze ∧
      u.pw.nmtStopWanted = true ∧ u.pw.power = .sensing ∧ u.mg.intended = false) ∧
  (∀ s t node, (s.at t).nmtOk node = true → s.og 0x500001 ≠ 1 → s.pw.power = .sensing →
    ∃ u, exec (.enterPreOperational t node) s = .next u ∧ u.pw.stopWanted = true ∧ u.pw.goal = some .ready ∧
      u.pw.nmtStopWanted = false ∧ u.pw.power = .sensing ∧ u.mg.intended = false) ∧
  (∀ s t node, (s.at t).nmtOk node = true → s.ctl.nodeId ≠ 0 →
    ∃ u, exec (.resetCommunication t node) s = .next u ∧ u.ctl.transfer = none ∧ u.ctl.lease = 0 ∧
      u.lad = { s.lad with stage := none } ∧ u.wire.getLast? = some (.bootUp s.ctl.nodeId))

/-- The way to Ready (R341, R466, R498, R500). DOZE_TO_READY_DONE with a DRAM that trains reaches Ready, where the transition to
Ready ends and the core clock runs on from T; the first time it zeroes Cashew and has every kept plan still to reload; a
DRAM that fails to train leaves the device in Doze with EMCY 0x5050 waiting. ACTIVE_PLAN_RELOAD leaves the library as the check of
its image finds it; each reload puts a kept plan of the flash store on its rung. -/
def Obligations.ReadyCommandsComplete : Prop :=
  (∀ s t fit x, s.pw.power = .doze → s.pw.goal = some .ready → s.dr.waiting = false → s.og 0x500001 ≠ 1 →
    trainDram s.mem.fit fit = .ok x →
    ∃ u, exec (.dozeToReadyDone t fit) s = .next u ∧ u.pw.power = .ready ∧ u.pw.goal = none ∧ u.tb.running = true ∧
      u.tb.t = (s.at t).tb.t ∧
      (s.pw.readyDone = false → u.pw.readyDone = true ∧ u.mem.cashew = [] ∧
        u.lad.reloading = (List.range 16).filter fun r => (s.storeLive r).isSome)) ∧
  (∀ s t fit i, s.pw.power = .doze → s.pw.goal = some .ready ∨ s.pw.goal = some .sensing → s.dr.waiting = false →
    s.og 0x500001 ≠ 1 → trainDram s.mem.fit fit = .error i → s.pw.nmtStopped = false → s.ctl.waiting.length < 8 →
    ∃ u, exec (.dozeToReadyDone t fit) s = .next u ∧ u.pw.power = .doze ∧ u.pw.goal = none ∧
      u.ctl.waiting = s.ctl.waiting ++ [⟨0x5050, i, 0⟩]) ∧
  (∀ s t, s.pw.power = .ready → s.pw.library = false → s.pw.enterWanted = false →
    ∃ u, exec (.activePlanReload t) s = .next u ∧ u.pw.power = .ready ∧
      u.pw.library = (((s.at t).setUp fun x => { x with pausing := false }).bootKind true).1 ∧ u.up.pausing = false) ∧
  (∀ s t r e, s.pw.readyDone = true → s.pw.enterWanted = false → r ∈ s.lad.reloading → r < s.lad.rungs.length →
    s.storeLive r = some e →
    ∃ u, exec (.keptPlanReload t r) s = .next u ∧ u.rung r = some (parsePlan e.image) ∧ r ∉ u.lad.reloading ∧
      ∀ k, k ≠ r → u.rung k = s.rung k)

/-- The optical side of an entry and of a stop (R39, R80, R87, R91, R92, R94). COLD_ENTRY_SEED_CHECK lets the entry go on from
+9.0 dBm up, and below that abandons it with EMCY 0x5010, detail 1. ACQUISITION_DEADLINE puts into Fault every loop that still
acquires when its deadline has come and leaves every other loop's state. OFFSET_TRIM, past the
acquisition limit of an entry, gives each used and live port whose gate is closed what the calibration found.
STOP_SHUTDOWN ends the stop: loops hold where Ready is held warm, else the photonic domain powers down. DARK_PORT_POWER_DOWN takes a
dark port down once no sweep of its old plan is in flight. -/
def Obligations.OpticsEntryCommandsComplete : Prop :=
  (∀ s t dbm e, s.pw.entry = some e → e.warm = false → e.seedChecked = false → 900 ≤ dbm →
    exec (.coldEntrySeedCheck t dbm) s = .next { (s.at t).osI 16 0x28000B dbm with
      opt := { s.opt with seedDbm := dbm }
      pw := { (s.at t).pw with entry := some { e with seedChecked := true } } }) ∧
  (∀ s t dbm e, s.pw.entry = some e → e.warm = false → e.seedChecked = false → dbm < 900 → s.pw.nmtStopped = false →
    s.ctl.waiting.length < 8 →
    ∃ u, exec (.coldEntrySeedCheck t dbm) s = .next u ∧ u.pw.entry = none ∧ u.pw.goal = none ∧ u.pw.power = s.pw.power ∧
      u.ctl.waiting = s.ctl.waiting ++ [⟨0x5010, 1, toU 32 dbm⟩]) ∧
  (∀ s t, s.pw.entry = none → s.opt.ports.length = 4 → s.pw.sensedPorts ≤ 4 →
    ∃ u, exec (.acquisitionDeadline t) s = .next u ∧ ∀ p, p < 4 →
      (u.po p).loops = if p < s.pw.sensedPorts then (s.po p).loops.map (Loop.expire · (max s.now t)) else (s.po p).loops) ∧
  (∀ s t found e pl, s.pw.entry = some e → s.entryPlan = some pl → e.start + acquireTime e.warm ≤ max s.now t →
    s.opt.ports.length = 4 → s.pw.sensedPorts ≤ 4 →
    ∃ u, exec (.offsetTrim t found) s = .next u ∧ ∀ p, p < 4 →
      u.po p = if p ∈ s.usedPorts pl ∧ (s.po p).live = true ∧ s.gateOpenAt p (max s.now t) = false then
          { s.po p with trims := found.getD p (s.po p).trims }
        else s.po p) ∧
  (∀ s t, s.pw.shutting = true → s.sw.flights = [] → s.pw.power = .ready → s.up.pausing = false → s.pw.goal = some .ready →
    ∃ u, exec (.stopShutdown t) s = .next u ∧ u.pw.shutting = false ∧ u.pw.power = .ready ∧ u.pw.goal = none ∧
      (s.og 0x210011 ≠ 1 → u.pw.photonic = false)) ∧
  (∀ s t p n, (s.po p).darkAfter = some n → (∀ f ∈ s.sw.flights, n < f.ord) → p < s.opt.ports.length →
    ∃ u, exec (.darkPortPowerDown t p) s = .next u ∧ u.po p = (s.po p).powerDown ∧ ∀ q, q ≠ p → u.po q = s.po q)

/-- Device time (R377). On every core clock cycle the accumulator takes r × 256, its whole thousands of millions pass to T with the 65 536
units of the cycle, and it stays from 0 to 999 999 999. Over 10^9 cycles T gains 10^9 ns and r × 2^-8 ns. The nanosecond count is T from
bit 16 up, T counts modulo 2^80, and the cycles of the time that passes up to a command are counted one by one. A rate outside
±51 200 000 is refused with 0x0609_0030 by the range of 0x2200:05. When T is set, the accumulator is cleared. -/
def Obligations.DeviceTimeAdvances : Prop :=
  (∀ (t acc n : Nat) (r : Int), t < 2 ^ 80 → acc < 1000000000 → -51200000 ≤ r → r ≤ 51200000 →
    let p := advanceT t acc r n
    advanceT t acc r 0 = (t, acc) ∧ p.2 < 1000000000 ∧
      advanceT t acc r (n + 1) =
        ((((p.1 + 65536 : Nat) : Int) + (p.2 + r * 256) / 1000000000).toNat % 2 ^ 80, ((p.2 + r * 256) % 1000000000).toNat)) ∧
  (∀ (t acc : Nat) (r : Int), acc < 1000000000 → -51200000 ≤ r → r ≤ 51200000 →
    advanceT t acc r 1000000000 = ((t + (65536 * 1000000000 + r * 256)).toNat % 2 ^ 80, acc)) ∧
  (∀ (s : State) t, s.tb.running = true → s.now ≤ t →
    ((s.at t).tb.t, (s.at t).tb.acc) = advanceT s.tb.t s.tb.acc (s.ogI 32 0x220005) (t - s.now)) ∧
  (∀ s : State, s.devNs = s.tb.t / 2 ^ 16) ∧
  (∀ (s : State) t, (s.setT t).tb.acc = 0 ∧ (s.setT t).tb.t = t % 2 ^ 80) ∧
  ∀ (s : State) (r : Int), s.og 0x500001 ≠ 1 → -(2 ^ 31) ≤ r → r < 2 ^ 31 →
    s.writeAbort 0x2200 5 false (le 4 (toU 32 r)) = if -51200000 ≤ r ∧ r ≤ 51200000 then none else some 0x06090030

/-- The time base (R379 to R382, R385, R387, Table 17-1). Setting device time at a head moves T there, clears the accumulator and the
armed time; a time for the next PPS edge is armed; the rate is written in mode 0. A PPS edge within the window of the last one is
accepted with its stamp, counted, pulses IS13 and waits 1 001 ns for PPS_PROCESS, which disciplines the clock by it; 2.5 s without an
edge is a loss. Interval mode arms, disarms and times out; a calibration out of bounds is counted and marks its channel. -/
def Obligations.TimeCommandsComplete : Prop :=
  (∀ s t c ns, (s.at t).Accepts c 0x2200 1 false (le 8 ns) → s.pw.sensedHead = true → ns < 2 ^ 64 →
    let w := (s.at t).renew c
    exec (.deviceTimeWrite t c ns) s = .next ((({ w with tb := { w.tb with
      t := ns * 65536, lastEdge := w.tb.lastEdge.map fun (e : Nat × Nat) => (toU 80 (e.1 + ((ns * 65536 : Nat) - w.tb.t : Int)), e.2)
      acc := 0, moved := true, good := 0, ppsArm := none } }).os 0x220003 2).answer c .done)) ∧
  (∀ s t c ns, (s.at t).Accepts c 0x2200 2 false (le 8 ns) → s.pw.sensedHead = true → ns < 2 ^ 64 →
    let w := (s.at t).renew c
    exec (.timeAtNextPps t c ns) s = .next (({ w with tb := { w.tb with ppsArm := some ns } }).answer c .done)) ∧
  (∀ s t c r, (s.at t).Accepts c 0x2200 5 false (le 4 (toU 32 r)) → s.pw.sensedHead = true →
    let w := (s.at t).renew c
    w.og 0x220004 = 0 → -(2 ^ 31 : Int) ≤ r → r < 2 ^ 31 →
    exec (.rateCorrectionWrite t c r) s = .next ((w.osI 32 0x220005 r).answer c .done)) ∧
  (∀ s t code c1 c2 cal, s.tb.running = true → s.pw.sensedHead = true → s.og 0x220004 ≠ 0 →
    let stamp := ((s.at t).tdcEdge 1 code c1 c2 cal).1
    let w := ((s.at t).tdcEdge 1 code c1 c2 cal).2.2
    w.og 0x221005 = 0 → w.og 0x220004 ≠ 0 → w.inWindow stamp = true →
    exec (.ppsEdge t code c1 c2 cal) s = .next (((({ w with tb := { w.tb with
      lastEdge := some (stamp, w.now), rejected := 0, edge := some (stamp, w.now + 1001)
      fvalid := w.tb.fvalid && !w.tb.moved, moved := false } }.bump 0x22000E).pulse 13).os 0x220003
        (if w.og 0x220003 = 2 ∨ w.og 0x220003 = 5 ∨ (w.og 0x220003 = 1 ∧ w.og 0x220004 = 2) then 3 else w.og 0x220003)))) ∧
  (∀ s t (te due : Nat), s.tb.edge = some (te, due) → due ≤ max s.now t →
    exec (.ppsProcess t) s = .next ((s.at t).discipline te)) ∧
  (∀ s t p a, s.tb.lastEdge = some (p, a) → s.pw.sensedHead = true → s.og 0x220003 = 3 ∨ s.og 0x220003 = 4 →
    a + 2500000000 ≤ max s.now t →
    exec (.ppsLoss t) s = .next (((s.at t).os 0x220003 5).setTb fun b => { b with good := 0 })) ∧
  (∀ s t c, (s.at t).Accepts c 0x2210 4 false (le 1 1) → s.pw.power = .ready ∨ s.pw.power = .sensing →
    let w := (s.at t).renew c
    w.og 0x221005 ≠ 1 → w.og 0x221005 ≠ 2 →
    exec (.intervalArm t c) s = .next (((List.range 8).foldl (fun s i => s.os (0x221010 + i) 0)
      ((w.os 0x221005 1).os 0x221007 0)).answer c .done)) ∧
  (∀ s t c, (s.at t).Accepts c 0x2210 4 false (le 1 2) →
    let w := (s.at t).renew c
    exec (.intervalDisarm t c) s =
      .next ((if w.og 0x221005 = 1 ∨ w.og 0x221005 = 2 then w.os 0x221005 0 else w).answer c .done)) ∧
  (∀ s t, s.og 0x221005 = 2 → s.tb.intAt + 1000 * s.og 0x221006 ≤ max s.now t →
    exec (.intervalTimeout t) s = .next ((s.at t).os 0x221005 4)) ∧
  (∀ s t ch, s.tb.running = true → ch < 6 →
    exec (.tdcFallback t ch) s = .next (((s.at t).bump 0x220011).osBit 0x220010 ch true))

/-- The stamps of the TDC (R385, R386). On every channel, an edge with code c that meets a calibrated interpolator has the stamp
(rhe(T_n, 12) - rdiv(16(c - a), b)) × 2^12 in units of 2^-16 ns, a multiple of 0x1000. The pair a = 2·c1 - c2, b = c2 - c1 serves when
b lies from 14 to 18 and a from 8 to 24, and then clears the channel's bit in 0x2200:10; else the channel's factory pair serves,
0x2200:11 counts, and the bit is set. TRIG_IN_EDGE on pin 0 or 1, channel 2 + pin, 8 ns or more after the pin's last edge, keeps that
stamp as the pin's newest. -/
def Obligations.TdcStamps : Prop :=
  (∀ (s : State) (ch code c1 c2 : Nat), s.Sound → ch < 6 → code < 64 →
    let a : Int := 2 * c1 - c2
    let b : Int := c2 - c1
    let good := 14 ≤ b ∧ b ≤ 18 ∧ 8 ≤ a ∧ a ≤ 24
    let p : Int × Int := if good then (a, b) else s.tb.factory.getD ch (16, 16)
    let stamp := toU 80 ((rhe s.tb.t 12 - rdiv (16 * (code - p.1)) p.2) * 2 ^ 12)
    let u := (s.tdcEdge ch code c1 c2 true).2.2
    (s.tdcEdge ch code c1 c2 true).1 = stamp ∧ stamp % 0x1000 = 0 ∧
      u.og 0x220011 = (if good then s.og 0x220011 else (s.og 0x220011 + 1) % 2 ^ 32) ∧
      u.og 0x220010 = (if good then clearBits (s.og 0x220010) (2 ^ ch) else setBit (s.og 0x220010) ch)) ∧
  ∀ (s : State) (t pin code c1 c2 : Nat), s.tb.running = true → pin < 2 → pin < s.ses.stamps.length →
    let e := (s.at t).tdcEdge (2 + pin) code c1 c2 true
    (∀ x ∈ (s.ses.stamps.getD pin []).head?, x.1 + 8 < max s.now t ∨ x.2.1 + 8 * 65536 ≤ e.1) →
    ∃ u, exec (.trigInEdge t pin code c1 c2 true) s = .next u ∧
      u.ses.stamps.getD pin [] = (max s.now t, e.1, e.1, false) :: (s.ses.stamps.getD pin []).take 3 ∧
      u.og 0x220011 = e.2.2.og 0x220011 ∧ u.og 0x220010 = e.2.2.og 0x220010

/-- The sweep (R9, R10, R14, R91, R94, R110). In Sensing, where nothing stops, takes or is held, SWEEP_BOUNDARY begins a sweep: it has the
next index, starts at the boundary, and the next boundary lies P ahead; at a stop boundary Sensing ends in Ready with the shutdown
ahead; the boundary of an entry that has a rung to run enters Sensing. SLOT_FIRING fires the slot that is due; CHOICE_FIX holds what
the coming boundary will govern; SWEEP_COMPLETION takes the oldest sweep out of flight once its last window has closed and
nothing of it is in Hazel any more. -/
def Obligations.SweepCommandsComplete : Prop :=
  (∀ s i pl, s.pw.power = .sensing → s.pw.shutting = false → s.pw.entry = none → s.pw.stopWanted = false → s.sw.realign = none →
    let w := (s.at s.sw.next).dropFaulted.failEngines.chargeSweep
    let n := (s.at s.sw.next).dropFaulted.comingIndex
    w.target n = .keep i → w.lad.inForce = some pl →
    ∃ u, exec .sweepBoundary s = .next u ∧ u.sw.next = s.sw.next + pl.period ∧ n = (s.sw.lastIndex + 1) % 2 ^ 64 ∧
      ∃ f ∈ u.sw.flights, f.index = n ∧ f.start = s.sw.next ∧ f.plan = pl) ∧
  (∀ s, s.pw.power = .sensing → s.pw.shutting = false → s.pw.entry = none → s.pw.stopWanted = true →
    ∃ u, exec .sweepBoundary s = .next u ∧ u.pw.power = .ready ∧ u.pw.shutting = true ∧ u.pw.stopWanted = false ∧
      u.pw.goal = s.pw.goal) ∧
  (∀ s e r pl, s.pw.power = .ready → s.pw.entry = some e → e.stop = false → s.sw.realign = none →
    let w := (s.at s.sw.next).dropFaulted.failEngines
    w.takeRung = some r → w.rung r = some pl → w.firstGrid pl = none →
    ∃ u, exec .sweepBoundary s = .next u ∧ u.pw.power = .sensing ∧ u.pw.entry = none ∧ u.pw.goal = none) ∧
  (∀ s f slot corrected bad raman, s.inProgress = some f → slot = f.fired → slot < f.plan.slots →
    ∃ u, exec (.slotFiring slot corrected bad raman) s = .next u ∧
      ∃ g ∈ u.sw.flights, g.index = f.index ∧ g.fired = slot + 1) ∧
  (∀ s corrected bad l f, s.boundaryAhead = true →
    ((((s.at (s.sw.next - 2000)).count 53 corrected).at s.sw.next).atBoundary).sw.flights = l ++ [f] → f.start = s.sw.next →
    ∃ u, exec (.choiceFix corrected bad) s = .next u ∧
      u.sw.choice = some (((((s.at (s.sw.next - 2000)).count 53 corrected).at s.sw.next).atBoundary).choiceFor f bad)) ∧
  (∀ s t f l, s.sw.flights = f :: l → f.ovr (max s.now t) = true → (s.at t).inHazel f = false →
    ∃ u, exec (.sweepCompletion t) s = .next u ∧ ∀ x ∈ u.sw.flights, x.ord ≠ f.ord)

/-- What light does (R69, R70, R79, R82). INPUT_LIMIT_ASSERT, for a peak above −15 or −6 dBm by the receiver
gain range, forces its port over-range to 40 ns after its detector lets go, and counts.
REFLECTION_TRIP trips its port alone, with EMCY 0x5020. SEED_LOW_SET makes the condition stand and posts EMCY 0x5010; SEED_LOW_CLEAR
ends it; each keeps the power it was measured at. -/
def Obligations.LightCommandsComplete : Prop :=
  (∀ s t p x, s.portOn p = true → (if s.og (pk 0x280003 p) = 1 then -1500 else -600) < x.peak → exec (.inputLimitAssert t p x) s =
    .next (((s.at t).setPort p fun po => { po with forced := po.forced ++ [(max s.now t, some (max s.now t + x.span + 40), 0)] }).bump (pk 0x28000C p))) ∧
  (∀ s t p peak, s.gateOpenAt p (max s.now t) = true → 10 * s.ogI 16 (pk 0x280004 p) < peak → p < s.opt.ports.length →
    s.pw.nmtStopped = false → s.ctl.waiting.length < 8 →
    ∃ u, exec (.reflectionTrip t p peak) s = .next u ∧ (u.po p).tripped = true ∧ (∀ q, q ≠ p → u.po q = s.po q) ∧
      u.ctl.waiting = s.ctl.waiting ++ [⟨0x5020, p, s.sweepAt (max s.now t) % 2 ^ 32⟩]) ∧
  (∀ s t dbm, s.pw.photonic = true → s.opt.seedLow = false → dbm < 800 → s.pw.nmtStopped = false → s.ctl.waiting.length < 8 →
    ∃ u, exec (.seedLowSet t dbm) s = .next u ∧ u.opt.seedLow = true ∧ u.opt.seedDbm = dbm ∧
      (∀ po ∈ u.opt.ports, po.live = true → ∀ l ∈ po.loops, l.code ≠ 2 ∧ l.code ≠ 3) ∧
      u.ctl.waiting = s.ctl.waiting ++ [⟨0x5010, 0, toU 32 dbm⟩]) ∧
  (∀ s t dbm, s.pw.photonic = true → s.opt.seedLow = true → 900 < dbm →
    ∃ u, exec (.seedLowClear t dbm) s = .next u ∧ u.opt.seedLow = false ∧ u.opt.seedDbm = dbm)

/-- Bias control and hold-warm (R85, R87, R89, R420). BIAS_MEASUREMENT, taken clear of the gate, steps the one loop as Table 4-6 says
and no other. MEASUREMENT_TIMEOUT makes a loop that is Locked for 1 s without a measurement hold. BIAS_SEARCH starts long operation 3
on the named ports. HOLD_WARM_ON powers the photonic domain in a Ready that is cold and HOLD_WARM_OFF takes it down; elsewhere each
sets the object alone. -/
def Obligations.BiasCommandsComplete : Prop :=
  (∀ s t p i err set atEnd, s.portOn p = true → (s.po p).live = true → i < 4 → s.measurable p (max s.now t) = true → p < s.opt.ports.length →
    ∃ u, exec (.biasMeasurement t p i err set atEnd) s = .next u ∧
      (u.po p).loops = modAt (s.po p).loops i (fun l => l.measure (max s.now t) err set atEnd s.opt.seedLow
        (decide (s.pw.power = .ready) && s.pw.entry.isNone) (s.po p).limit) ∧
      ∀ q, q ≠ p → u.po q = s.po q) ∧
  (∀ s t p i, ((s.po p).loops.getD i ⟨0, 0, none, 0, 0⟩).code = 3 →
    ((s.po p).loops.getD i ⟨0, 0, none, 0, 0⟩).lastMeas + 1000000000 ≤ max s.now t → p < s.opt.ports.length →
    ∃ u, exec (.measurementTimeout t p i) s = .next u ∧
      (u.po p).loops = modAt (s.po p).loops i (fun l => { l with code := 4, run := 0, deadline := (s.po p).limit })) ∧
  (∀ s t c mask, (s.at t).Accepts c 0x2000 8 false (le 1 mask) → mask < 256 → mask &&& s.portMask = mask →
    ∃ u, exec (.biasSearch t c mask) s = .next u ∧ u.ctl.longOp = some ⟨3, max s.now t, 20000, 0, mask, []⟩ ∧
      u.wire = s.wire ++ [.answer c .done]) ∧
  (∀ s t c, (s.at t).Accepts c 0x2100 0x11 false (le 1 1) → s.og 0x210001 ≠ 1 → s.pw.power = .ready → s.pw.entry = none →
    s.inTransition = false → s.pw.photonic = false →
    ∃ u, exec (.holdWarmOn t c) s = .next u ∧ u.pw.photonic = true ∧ u.wire = s.wire ++ [.answer c .done]) ∧
  (∀ s t c, (s.at t).Accepts c 0x2100 0x11 false (le 1 0) → s.og 0x210001 ≠ 1 → s.pw.power = .ready → s.pw.entry = none →
    s.inTransition = false → s.pw.photonic = true →
    ∃ u, exec (.holdWarmOff t c) s = .next u ∧ u.pw.photonic = false ∧ u.wire = s.wire ++ [.answer c .done]) ∧
  (∀ s t c, (s.at t).Accepts c 0x2100 0x11 false (le 1 1) → s.og 0x210001 ≠ 1 → s.pw.power ≠ .ready →
    exec (.holdWarmOn t c) s = .next ((((s.at t).renew c).os 0x210011 1).answer c .done)) ∧
  (∀ s t c, (s.at t).Accepts c 0x2100 0x11 false (le 1 0) → s.og 0x210001 ≠ 1 → s.pw.power ≠ .ready →
    exec (.holdWarmOff t c) s = .next ((((s.at t).renew c).os 0x210011 0).answer c .done))

/-- Chestnut and the work items (R118, R128, R140, R142, R164, R231, R232, R234, R238, R240). CHESTNUT_OUTPUT adds the elements of a
code firing and counts the over-range samples of any firing. WORK_ITEM_RELEASE of a library item whose event has occurred starts it on
an idle engine and queues it on a busy one. CHECKPOINT_INSTANT halts the engine of a late library item; its user items stay.
BUDGET_EXHAUSTED takes the running user item off its engine, which starts its next released one; USER_ITEM_CHECKPOINT aborts the late
user item, running or released. Both disable the open slot at the next boundary. SEGMENT_EMIT offers a literal segment of settled
outputs to the queue of its stream. -/
def Obligations.WorkCommandsComplete : Prop :=
  (∀ s t p n (slot : Nat) conts f, s.flight n = some f → s.portOn p = true → f.plan.uses p = true → slot < f.fired →
    let e0 : Int := f.start + slot * f.plan.tick
    let smp := conts.zipIdx.map fun (q, i) => s.samplesAt p q (e0 + 2 * ((i : Int) - f.plan.nc))
    let ovr := ((smp.drop f.plan.nc).take f.plan.nw).countP Samples.ovr
    if f.kinds.getD slot 0 = 0 then
      ∃ u, exec (.chestnutOutput t p n slot conts) s = .next u ∧ u.ch.outs = s.ch.outs ++ [(chestnut f p slot smp).1]
    else exec (.chestnutOutput t p n slot conts) s = .next (((s.at t).bump (pk 0x2C0004 p) ovr).countAt n p ovr)) ∧
  (∀ s t k n slot invalid f instant, s.flight n = some f → k < f.plan.schedCount f.sched →
    let en := f.plan.entry f.sched k
    let e := en 0 1
    e < s.hz.engines.length → (s.engine e).halted = false →
    (en 1 1 = 0 → en 2 1 < 4 → (s.elementsOf (en 2 1) f.ord slot).isSome = true) → s.reference f (en 1 1) slot = some instant →
    ∃ u it, exec (.workItemRelease t false k n slot .none invalid) s = .next u ∧ it.user = false ∧ it.entry = k ∧ it.sweep = n ∧
      it.due = instant + en 0x10 4 ∧
      if (s.engine e).item = none then (u.engine e).item = some it
      else (u.engine e).item = (s.engine e).item ∧ (u.engine e).released = (s.engine e).released ++ [it]) ∧
  (∀ s t e k i, (s.engine e).halted = false → e < s.hz.engines.length →
    nextItem (((s.engine e).item.toList ++ (s.engine e).released).filter fun i =>
      !i.user && decide (i.entry = k) && decide (i.due ≤ max s.now t)) = some i →
    ∃ u, exec (.checkpointInstant t e k) s = .next u ∧ (u.engine e).halted = true ∧
      (u.engine e).report = some (1, i.kernel) ∧ (u.engine e).item = none ∧
      (u.engine e).released = (s.engine e).released.filter fun it => it.user) ∧
  (∀ s t e it, (s.engine e).userItem = some it → e < s.hz.engines.length →
    ∃ u, exec (.budgetExhausted t e) s = .next u ∧ u.hz.dropSlots = s.hz.dropSlots ++ [it.entry] ∧
      (u.engine e).userItem =
        if (s.engine e).halted then none else nextItem ((s.engine e).released.filter fun i => i.user)) ∧
  (∀ s t e it, e < s.hz.engines.length →
    nextItem (((s.engine e).userItem.toList ++ (s.engine e).released.filter fun i => i.user).filter fun i =>
      decide (i.due ≤ max s.now t)) = some it →
    ∃ u, exec (.userItemCheckpoint t e) s = .next u ∧ u.hz.dropSlots = s.hz.dropSlots ++ [it.entry] ∧
      if (s.engine e).userItem = some it then
        (u.engine e).userItem =
          if (s.engine e).halted then none else nextItem ((s.engine e).released.filter fun i => i.user)
      else
        (u.engine e).userItem = (s.engine e).userItem ∧ (u.engine e).released = (s.engine e).released.erase it) ∧
  (∀ s t p n slot first f w e, s.flight n = some f → s.tick? p f.ord slot = some w → f.plan.streamOf 1 p first = some e →
    (first - e.first) % max 1 (f.plan.segLen p) = 0 → (segRange f.plan e p first).all ((s.at t).settled f w) = true → e.coding = 0 →
    let outs := (segRange f.plan e p first).map ((s.at t).outValue f w)
    let lost := outs.any fun v => bit v.2 6
    let body := dasHead f p slot first outs ((s.at t).dasFlags f w lost) ++ literal (f.plan.width p) [outs.map (·.1)] ++
      (if f.plan.flagMode p = 0 then padTo 4 (outs.map fun v => byte v.2) else [])
    exec (.segmentEmit t p n slot first) s = .next ((if lost = true then (s.at t).cause 0 else s.at t).offer e.queue
      { typ := e.typ, sweep := n, stamp := f.stamp, olen := body.length, payload := body }).2)

/-- Shadowed writes and the stage set (R59, R60, R184 to R186, R247). A shadowed write that its rules let pass waits as a unit of its
own, or joins the open stage set, which holds 64 at most; STAGE_OPEN opens an empty set, STAGE_APPLY makes it one waiting unit,
STAGE_DISCARD drops it. POPPY_RESET_WRITE, POPPY_MODE_WRITE, INACTIVE_BANK_LOAD, ZONE_THRESHOLD_WRITE and SHADOWED_WRITE are such
writes, the last for the objects that have no row of their own. -/
def Obligations.ShadowedWritesComplete : Prop :=
  (∀ (w : State) idx sub b, w.lad.stage = none →
    shadow idx sub b w = .ok { w with lad := { w.lad with pend := w.lad.pend ++ [⟨w.now, false, [⟨idx, sub, b⟩]⟩] } }) ∧
  (∀ (w : State) idx sub b l, w.lad.stage = some l → l.length < 64 →
    shadow idx sub b w = .ok { w with lad := { w.lad with stage := some (l ++ [⟨idx, sub, b⟩]) } }) ∧
  (∀ s t c v, (s.at t).Accepts c 0x3400 2 false (le 1 1) → shadow 0x3400 2 (le 1 1) ((s.at t).renew c) = .ok v →
    exec (.poppyResetWrite t c) s = .next (v.answer c .done)) ∧
  (∀ s t c mode v, (s.at t).Accepts c 0x3400 3 false (le 1 mode) → shadow 0x3400 3 (le 1 mode) ((s.at t).renew c) = .ok v →
    exec (.poppyModeWrite t c mode) s = .next (v.answer c .done)) ∧
  (∀ s t c j b sec v, (s.at t).Accepts c 0x3400 (0x14 + 0x10 * j) true b →
    let w := (s.at t).renew c
    (w.planNow.bind fun pl => (pl.poppy 0).secs[j]?) = some sec → PSec.typ sec ≠ 1 ∨ b.length ≤ 4 →
    b.length = 4 + 4 * PSec.words sec → fld b 0 4 ≤ 63 →
    (∀ w ∈ wordsAt b 4 (PSec.words sec), -8388608 ≤ w ∧ w ≤ 8388607) → w.selectPending j = false →
    (∀ pp ∈ s.pop.ports, ∀ st, pp.stages[j]? = some st → st.fading = false) →
    shadow 0x3400 (0x14 + 0x10 * j) b w = .ok v →
    exec (.inactiveBankLoad t c j b) s = .next (v.answer c .done)) ∧
  (∀ s t c z off value v, value < 2 ^ 32 → (s.at t).Accepts c (0x3A00 + z) (if off then 4 else 3) false (le 4 value) →
    (off = true → value ≤ ((s.at t).renew c).comingValue (0x3A00 + z) 3) →
    (off = false → ((s.at t).renew c).comingValue (0x3A00 + z) 4 ≤ value) →
    shadow (0x3A00 + z) (if off then 4 else 3) (le 4 value) ((s.at t).renew c) = .ok v →
    exec (.zoneThresholdWrite t c z off value) s = .next (v.answer c .done)) ∧
  (∀ s t c o idx sub b v, objRow idx sub = some o → o.sh = true → (s.at t).Accepts c idx sub (o.ty.size == 0) b →
    ¬ (0x3A00 ≤ idx ∧ idx < 0x3B00) → ¬ (idx = 0x3400 ∧ sub % 16 = 4) →
    ¬ (idx = 0x4100 ∧ sub = 0x12 ∧ 2 ^ (match ((s.at t).renew c).activePlan with | some pl => pl.openSlots | none => 0) ≤ unle b) →
    shadow idx sub b ((s.at t).renew c) = .ok v →
    exec (.shadowedWrite t c idx sub b) s = .next (v.answer c .done)) ∧
  (∀ s t c, (s.at t).Accepts c 0x2400 0xB false (le 1 1) → s.lad.stage = none → exec (.stageOpen t c) s =
    .next ({ (s.at t).renew c with lad := { s.lad with stage := some [] } }.answer c .done)) ∧
  (∀ s t c l, (s.at t).Accepts c 0x2400 0xB false (le 1 2) → s.lad.stage = some l → exec (.stageApply t c) s =
    .next ({ (s.at t).renew c with
      lad := { s.lad with stage := none, pend := s.lad.pend ++ [(⟨max s.now t, true, l⟩ : ShadowUnit)] } }.answer c .done)) ∧
  (∀ s t c l, (s.at t).Accepts c 0x2400 0xB false (le 1 3) → s.lad.stage = some l → exec (.stageDiscard t c) s =
    .next ({ (s.at t).renew c with lad := { s.lad with stage := none } }.answer c .done))

/-- The blocks of the slow paths (R174, R201 to R214). POPPY_BLOCK puts the ticks of a block that no tick can join any more through the
chain and offers the records of every group it makes; the channel that reads the corner buffer has moved the block. LINSEED_BLOCK_ADD
adds the oldest completed block to its set, and a stalled one discards the DTS firing that waits for it. DTS_DECODE answers a port of
the oldest ended period, which then owes it no more. -/
def Obligations.BlockCommandsComplete : Prop :=
  (∀ s t p block corrected k l rest,
    let w := (s.at t).dramFixed corrected
    splitBlock (w.ppop p).ticks = (k :: l, rest) → k.index / max 1 k.plan.cornerDepth = block →
    w.blockOver p (k :: l) rest = true →
    let events := (w.ppop p).within (k :: l) rest
    let r := ((w.setPpop p fun pp => { pp with ticks := rest }).planMove p true true true
      (5 * sumN ((k :: l).map fun k => (k.plan.decimList p).length))).runTicks p (k :: l) []
    exec (.poppyBlock t p block corrected) s = .next ((r.2.foldl (fun z g =>
      z.offerGroup p (((k :: l).getLast?.map fun k => k.plan.ident).getD 0) (eventFlags events) g) r.1).popSettle p).showPoppy) ∧
  (∀ s t stalled corrected b l,
    let w := ((s.at t).dramFixed corrected).settleShots
    let v := if (w.lin.block.any fun b => (w.period b.period).all w.periodDone) = true then w.closeBlock else w
    v.lin.full = b :: l →
    let u := (v.setLin fun x => { x with full := l }).addBlock b
    exec (.linseedBlockAdd t stalled corrected) s = .next (if stalled = true then u.stallShot else u)) ∧
  (∀ s t p q l,
    let w := (s.at t).settleShots
    w.lin.periods = q :: l → w.periodDone q = true → (∀ b, w.lin.block = some b → b.period ≠ q.ord) →
    (∀ b ∈ w.lin.full, b.period ≠ q.ord) → p ∈ q.todo →
    ∃ u, exec (.dtsDecode t p) s = .next u ∧ ∀ o ∈ u.lin.periods, o.ord = q.ord → p ∉ o.todo)

/-- Sesame at an evaluation instant (R242, R248, R250, R253 to R259, R265). EVALUATION_INSTANT counts the timers on to its instant, forms
the groups, lets the arms due act and each sequence evaluate, then the captures take their clock instants. LEVEL_TIMER_EXPIRY,
AUTO_TIMER_EXPIRY, FORCE_ACT and SEQUENCE_ARM_ACT have their instant evaluated as a whole. A sequence that runs takes what the
judgement of its level gives, all the forces due among its causes; a sequence armed 1 µs before starts at level 0. ZONE_UPDATE gives
the line the detector's result, or makes the zone stale. TRIG_IN_EDGE without a calibrated interpolator shows the coarse stamp, the
device time of the sampling edge that captured it. -/
def Obligations.EvaluationCommandsComplete : Prop :=
  (∀ s t prb trig tb, s.ses.running = true → s.elapsed (max s.now t) ≠ 0 →
    ∃ v : State, (v.ses.running = true ∧ v.ses.seqs = s.ses.seqs ∧ v.ses.pins.getLast? = some (max s.now t, prb % 2 ^ 32, trig % 4) ∧
        v.ses.tbIn = tb % 65536) ∧
      let c := v.clockTo (max s.now t)
      let u := c.ses.at_
      let w := c.formLines u
      let x := (List.range 4).foldl (fun z i => (z.armAct i u).seqInstant i u w.ses.g w.ses.prev) w
      let y := (List.range 8).foldl (fun z k => if (z.cap k).disarmDue u then z.disarmCapture k else z) x
      let z := (List.range 8).foldl (fun z k => z.captureInstant k u) y
      exec (.evaluationInstant t prb trig tb) s = .next { z with ses := { z.ses with clock0 := [] } }) ∧
  (∀ (s : State) t, s.ses.fresh = false →
    (s.clockTo t).ses.at_ = s.ses.at_ + 4 * ((t - s.ses.at_) / 4) ∧
    ∀ i, (s.clockTo t).seq i = { s.seq i with
      timer := (s.seq i).timer.map (· - (t - s.ses.at_) / 4), auto := (s.seq i).auto.map (· - (t - s.ses.at_) / 4) }) ∧
  (∀ s t i k, (s.seq i).timer = some k → k ≤ s.elapsed (max s.now t) → exec (.levelTimerExpiry t i) s = .next ((s.at t).evaluate (max s.now t))) ∧
  (∀ s t i k, (s.seq i).auto = some k → k ≤ s.elapsed (max s.now t) → exec (.autoTimerExpiry t i) s = .next ((s.at t).evaluate (max s.now t))) ∧
  (∀ s t i a, a ∈ (s.seq i).forces → a + 1000 ≤ max s.now t → exec (.forceAct t i) s = .next ((s.at t).evaluate (max s.now t))) ∧
  (∀ s t i a, a ∈ (s.seq i).acts → a.1 + 1000 ≤ max s.now t → exec (.sequenceArmAct t i) s = .next ((s.at t).evaluate (max s.now t))) ∧
  (∀ (s : State) i t g prev b, s.program i = some b → (s.seq i).state = 1 → i < s.ses.seqs.length →
    let q := { s.seq i with forces := (s.seq i).forces.filter fun a => decide (t < a + 1000) }
    let v := q.judge b g prev ((s.seq i).forces.countP fun a => decide (a + 1000 ≤ t))
    s.seqInstant i t g prev = match v.cause with
      | some c => (s.setSeq i fun _ => v.seq).trigger i t b v c
      | none => s.setSeq i fun _ => v.seq) ∧
  (∀ (s : State) t i a b, i < s.ses.seqs.length → (s.seq i).acts = [(a, true)] → a + 1000 ≤ t → (s.seq i).state ≠ 1 →
    s.program i = some b →
    s.armAct i t = ((s.setSeq i fun q => { q with acts := [] }).setSeq i fun q =>
      { ({ q with state := 1, number := 0 } : Seq).enter b 0 0 with auto := autoLoad b }).os (okey (0x3810 + i) 9) s.devNs) ∧
  (∀ s t z n slot o pl line blind e, (s.at t).owedAt z n slot = some o → s.planNow = some pl → z < s.ses.zones.length →
    o.result = some (line, blind, e) →
    ∃ u, exec (.zoneUpdate t z n slot) s = .next u ∧ (u.zone z).line = (line && decide (s.pw.power = .sensing)) ∧
      (u.zone z).e = e ∧ (u.zone z).stale = false ∧ (u.zone z).blind = blind ∧ (u.zone z).lastTick = o.tick ∧
      u.ses.zoneTick = some o.tick) ∧
  (∀ s t z n slot o pl, (s.at t).owedAt z n slot = some o → s.planNow = some pl → z < s.ses.zones.length → o.result = none →
    ∃ u, exec (.zoneUpdate t z n slot) s = .next u ∧ (u.zone z).stale = true ∧ (u.zone z).line = (s.zone z).line ∧
      (u.zone z).e = (s.zone z).e) ∧
  (∀ s t pin code c1 c2 calibrated, s.tb.running = true → pin < 2 → pin < s.ses.stamps.length →
    (s.at t).interpReady (2 + pin) calibrated = false →
    ∃ u, exec (.trigInEdge t pin code c1 c2 calibrated) s = .next u ∧
      u.ses.stamps.getD pin [] =
        (max s.now t, (s.at t).coarseStamp, (s.at t).coarseStamp, true) :: (s.ses.stamps.getD pin []).take 3)

/-- Host writes of Sesame, its captures and Sunflower (R256, R258, R267, R269, R271, R285, R286, Table 11-10). SEQUENCE_ARM and
CAPTURE_ARM, judged at acceptance, and SEQUENCE_DISARM, FORCE and CAPTURE_DISARM wait with the instant they were accepted; HOST_LINE
drives IS14; OWNER_WRITE that changes the owner closes the probe lines for 1 µs; SUNFLOWER_ENABLE and SUNFLOWER_DISABLE wait for the
vertical sync; CAPTURE_LENGTH_WRITE of an idle or done buffer sets the object in place of a held value and empties the buffer, of a
busy one holds the value. -/
def Obligations.SesameWritesComplete : Prop :=
  (∀ s t c i, (s.at t).Accepts c (0x3810 + i) 3 false (le 1 1) → (s.seq i).state ≠ 1 →
    (((s.at t).renew c).program i).isSome = true → s.queuesLive = true →
    exec (.sequenceArm t c i) s =
      .next ((((s.at t).renew c).setSeq i fun q => { q with acts := q.acts ++ [(max s.now t, true)] }).answer c .done)) ∧
  (∀ s t c i, (s.at t).Accepts c (0x3810 + i) 3 false (le 1 2) → exec (.sequenceDisarm t c i) s =
    .next ((((s.at t).renew c).setSeq i fun q => { q with acts := q.acts ++ [(max s.now t, false)] }).answer c .done)) ∧
  (∀ s t c i, (s.at t).Accepts c (0x3810 + i) 4 false (le 1 1) → (s.seq i).state = 1 → exec (.force t c i) s =
    .next ((((s.at t).renew c).setSeq i fun q => { q with forces := q.forces ++ [max s.now t] }).answer c .done)) ∧
  (∀ s t c v, (s.at t).Accepts c 0x3800 1 false (le 1 v) → v < 256 →
    exec (.hostLine t c v) s = .next ((((s.at t).renew c).os 0x380001 v).answer c .done)) ∧
  (∀ s t c v, (s.at t).Accepts c 0x3C00 1 false (le 1 v) → v < 256 → exec (.ownerWrite t c v) s =
    let w := ((s.at t).renew c).sunScan.os 0x3C0001 v
    .next ({ w with ses := if v = s.og 0x3C0001 then s.ses else { s.ses with ownerUntil := max s.now t + 1000 } }.answer c .done)) ∧
  (∀ s t c, (s.at t).Accepts c 0x3C00 2 false (le 1 1) → s.og 0x3C0001 = 1 →
    ((s.at t).renew c).sunV * ((s.at t).renew c).sunPitch ≤ s.og 0x3C0008 * 2 ^ 20 → s.queuesLive = true →
    exec (.sunflowerEnable t c) s = .next ({ ((s.at t).renew c).os 0x3C0002 1 with
      sun := { s.sun with startWanted := !s.sun.scanning, stopWanted := false } }.answer c .done)) ∧
  (∀ s t c, (s.at t).Accepts c 0x3C00 2 false (le 1 0) → exec (.sunflowerDisable t c) s =
    .next ({ ((s.at t).renew c).os 0x3C0002 0 with
      sun := { s.sun with stopWanted := s.sun.scanning, startWanted := false } }.answer c .done)) ∧
  (∀ s t c k, (s.at t).Accepts c (0x3900 + k) 2 false (le 1 1) →
    let w := (s.at t).renew c
    w.capState k = 0 ∨ w.capState k = 5 → s.queuesLive = true → w.og (ck k 0xE) ≠ 0 → (w.ladderSec k).isSome = true →
    exec (.captureArm t c k) s =
      .next ((w.setCap k fun x => { x with arms := x.arms ++ [max s.now t] }).answer c .done)) ∧
  (∀ s t c k, (s.at t).Accepts c (0x3900 + k) 2 false (le 1 2) → exec (.captureDisarm t c k) s =
    .next ((((s.at t).renew c).setCap k fun x => { x with disarmAt := some (max s.now t) }).answer c .done)) ∧
  (∀ s t c k v, v < 2 ^ 32 → (s.at t).Accepts c (0x3900 + k) 0x11 false (le 4 v) →
    let w := (s.at t).renew c
    exec (.captureLengthWrite t c k 0x11 v) s = .next ((if w.capState k = 0 ∨ w.capState k = 5 then
        ((w.os (ck k 0x11) v).unhold k 0x11).idleCapture k
      else w.setCap k fun x => { x with heldLimit := some v }).answer c .done)) ∧
  (∀ s t c k v, v < 2 ^ 32 → (s.at t).Accepts c (0x3900 + k) 0x10 false (le 4 v) →
    let w := (s.at t).renew c
    v ≤ (s.cap k).heldLen.getD (w.og (ck k 0xE)) →
    exec (.captureLengthWrite t c k 0x10 v) s = .next ((if w.capState k = 0 ∨ w.capState k = 5 then
        ((w.os (ck k 0x10) v).unhold k 0x10).idleCapture k
      else w.setCap k fun x => { x with heldPost := some v }).answer c .done)) ∧
  (∀ s t c k v, v < 2 ^ 32 → (s.at t).Accepts c (0x3900 + k) 0xE false (le 4 v) →
    let w := (s.at t).renew c
    let u := if w.capState k = 0 ∨ w.capState k = 5 then (w.os (ck k 0xE) v).unhold k 0xE
      else (w.os (ck k 0xF) v).setCap k fun x => { x with heldLen := some v }
    u.capsFit = true → v = 0 ∨ (s.cap k).heldPost.getD (w.og (ck k 0x10)) ≤ v →
    exec (.captureLengthWrite t c k 0xE v) s =
      .next ((if w.capState k = 0 ∨ w.capState k = 5 then u.idleCapture k else u).answer c .done))

/-- Captures run and Sunflower shows (R269, R273, R274, R280, R282, R284, R286 to R289). FILLING_ENTRY and CAPTURE_REARM have their
instant evaluated and fill a buffer anew; RATE_WINDOW_END begins the next window at the step the ladder gives; POST_TIME_LIMIT ends Post
with flag bit 3; CAPTURE_RECORD_WRITE hands over the next 2048 entries where the queue has room, and the last record of a readout that a
disarm ended; VERTICAL_SYNC at the end of a frame latches the newest row; UNDERRUN counts, and the rest of its line is 0. -/
def Obligations.CaptureCommandsComplete : Prop :=
  (∀ s t k a l, (s.cap k).arms = a :: l → s.ses.running = true → a + 1000 ≤ max s.now t →
    let w := ((s.at t).setCap k fun x => { x with arms := l }).evaluate (max s.now t)
    w.capState k = 0 ∨ w.capState k = 5 → w.og (ck k 0xE) ≠ 0 → (w.ladderSec k).isSome = true →
    exec (.fillingEntry t k) s = .next (w.fillCapture k w.ses.at_)) ∧
  (∀ s t k a, (s.cap k).rearmAt = some a → s.ses.running = true → a + 1000 ≤ max s.now t → s.capState k = 4 →
    let w := (s.at t).evaluate (max s.now t)
    exec (.captureRearm t k) s = .next (w.fillCapture k w.ses.at_)) ∧
  (∀ (s : State) k f, k < s.caps.length → swf odflt s.objects = true → (s.fillCapture k f).capState k = 1 ∧
    ((s.fillCapture k f).cap k).entries = [] ∧ ((s.fillCapture k f).cap k).winBytes = 0 ∧ ((s.fillCapture k f).cap k).f = f) ∧
  (∀ s t k steps budget hold, (s.at t).ladderSec k = some (steps, budget, hold) → s.capState k = 1 ∨ s.capState k = 2 →
    (s.cap k).winStart + 65536 ≤ max s.now t →
    let r := nextStep steps hold (s.capStep k) (s.cap k).quiet (s.cap k).winDrop (decide (4 * (s.cap k).winBytes ≤ budget))
    exec (.rateWindowEnd t k) s = .next (((s.at t).os (ck k 0x15) r.1).setCap k fun x =>
      { x with winStart := x.winStart + 65536, winBytes := 0, winDrop := false, quiet := r.2
               lowStep := min x.lowStep r.1, highStep := max x.highStep r.1 })) ∧
  (∀ s t k, s.capState k = 2 → s.og (ck k 0x11) ≠ 0 → (s.cap k).trigAt + 1000 * s.og (ck k 0x11) ≤ max s.now t →
    let w := (s.at t).bump (ck k 0x16)
    exec (.postTimeLimit t k) s = .next ((w.os (ck k 1) 3).setCap k fun x =>
      { x with flags := x.flags ||| 8, sent := 0, number := w.og (ck k 0x16) })) ∧
  (∀ s t k e q, s.capState k = 3 → (s.cap k).last = none → ((s.at t).planNow.bind fun pl => pl.queueOf 4 0) = some q →
    s.queuesLive = true →
    let r := (s.at t).capturePayload k (if e = true ∧ s.og 0x420004 = 1 then 64 else 0)
    s.fits q r.1.length = true → (s.cap k).sent + 2048 < (s.cap k).entries.length →
    exec (.captureRecordWrite t k e) s = .next ((r.2.accept q
      { typ := 4, sweep := (s.cap k).trigSweep, stamp := (s.cap k).trigStamp, olen := r.1.length, payload := r.1 }).setCap k
        fun x => { x with sent := (s.cap k).sent + 2048, flags := clearBits x.flags 64 })) ∧
  (∀ s t k e q r, (s.cap k).last = some r → ((s.at t).planNow.bind fun pl => pl.queueOf 4 0) = some q → s.queuesLive = true →
    s.fits q r.1.length = true →
    exec (.captureRecordWrite t k e) s = .next (((s.at t).setCap k fun x => { x with last := none }).accept q
      { typ := 4, sweep := r.2.1, stamp := r.2.2, olen := r.1.length, payload := r.1 })) ∧
  (∀ s t, (s.sun.scanning = true ∧ (s.at t).frameOver = true) ∨ (s.sun.scanning = false ∧ s.sun.startWanted = true) →
    s.sun.stopWanted = false →
    ∃ u, exec (.verticalSync t) s = .next u ∧ u.sun.scanning = true ∧ u.sun.startWanted = false ∧ u.sun.latched = s.og 0x3C0009 ∧
      u.sun.since = max s.now t ∧ u.sun.shown = 0) ∧
  (∀ s t line, s.sun.scanning = true →
    let w := (((s.at t).sunScan.bump 0x3C000B).count 85).emit (.underrun line)
    exec (.underrun t line) s = .next { w with
      sun := { w.sun with cut := some (line, ceilDiv (w.now - w.lineStart line) (max 1 w.pixelNs)) } })

/-- The plan ladder (R48, R51, R56, R58, R108). PLAN_INSTALL and PLAN_INSTALL_KEEP start long operation 1 on the image as it stands in
the install buffer; REMOVE_RUNG empties a free rung and no other; REQUESTED_RUNG puts a switch to the rung in place of any before it;
PREPARE_END makes the switch prepared, or drops it with code 0x05 where the prepare failed. -/
def Obligations.LadderCommandsComplete : Prop :=
  (∀ s t c r, (s.at t).Accepts c 0x2400 8 false (le 2 r) → r < 16 → s.pw.power = .ready ∨ s.pw.power = .sensing →
    ∃ u, exec (.planInstall t c r) s = .next u ∧ u.wire = s.wire ++ [.answer c .done] ∧
      u.ctl.longOp = some ⟨1, max s.now t, 1500, 0, r, ((s.at t).renew c).installImage⟩) ∧
  (∀ s t c r, (s.at t).Accepts c 0x2400 8 false (le 2 (256 + r)) → r < 16 → s.pw.power = .ready ∨ s.pw.power = .sensing →
    ∃ u, exec (.planInstallKeep t c r) s = .next u ∧ u.wire = s.wire ++ [.answer c .done] ∧
      u.ctl.longOp = some ⟨1, max s.now t, 40000, 0, 256 + r, ((s.at t).renew c).installImage⟩) ∧
  (∀ s t c r, (s.at t).Accepts c 0x2400 0xF false (le 1 r) → r < 16 → ((s.at t).renew c).rungFree r = true →
    ∃ u, exec (.removeRung t c r) s = .next u ∧ u.rung r = none ∧ (∀ k, k ≠ r → u.rung k = s.rung k) ∧
      u.wire = s.wire ++ [.answer c .done]) ∧
  (∀ s t c r, (s.at t).Accepts c 0x2400 3 false (le 1 r) → r < 16 → s.og 0x240004 ≠ 2 → s.rungReady r = true →
    s.og 0x240001 ≠ r ∨ s.lad.switch.isSome = true →
    ∃ u dark, exec (.requestedRung t c r) s = .next u ∧
      u.lad.switch = some ⟨r, max s.now t, false, false, 0, dark, none, none⟩) ∧
  (∀ s t seed w pl v, s.lad.switch = some w → w.prepared = false → w.chain = none → s.pw.power = .sensing →
    s.rung w.rung = some pl → w.seedFails seed (max s.now t) = false → w.comingUp (max s.now t) = false →
    (w.bringUp.foldl State.expirePort (s.at t)).showOptics.reservePlan w.rung pl = some v →
    ∃ u, exec (.prepareEnd t true seed) s = .next u ∧
      u.lad.switch = some { w with prepared := true, readyAt := max s.now t }) ∧
  (∀ s t ok seed w pl, s.lad.switch = some w → w.prepared = false → w.chain = none → s.pw.power = .sensing →
    s.rung w.rung = some pl → ok = false ∨ w.seedFails seed (max s.now t) = true →
    ∃ u, exec (.prepareEnd t ok seed) s = .next u ∧ u.lad.switch = none ∧ (swf odflt s.objects = true → u.og 0x240009 = 5))

/-- The chain switch at a member (R61 to R64, R407). PREPARE makes the device prepare the rung under its tag; COMMIT gives its prepared
switch the index C; CANCEL takes the prepared state away unless it has switched; 250 ms after its ACK without COMMIT or CANCEL it
discards it. ACK, NAK, FAIL and OUTCOME of another device go on towards the head. -/
def Obligations.ChainMemberCommandsComplete : Prop :=
  (∀ s t r tag, s.isHead = false → s.sideUp false = true → s.rungReady r = true →
    ∃ u dark, exec (.prepare t r tag) s = .next u ∧
      u.lad.switch = some ⟨r, max s.now t, false, false, 0, dark, some tag, none⟩ ∧
      u.lad.member = some ⟨r, tag, false, 0, false⟩) ∧
  (∀ s t tag index, s.isHead = false → s.sideUp false = true →
    ∃ u, exec (.commit t tag index) s = .next u ∧ u.lad.switch = s.lad.switch.map (Switch.commitAt · tag index)) ∧
  (∀ s t tag m, s.isHead = false → s.sideUp false = true → s.lad.member = some m → m.tag = tag → m.switched = false →
    ∃ u, exec (.cancel t tag) s = .next u ∧ u.lad.member = none ∧
      u.lad.switch = if (s.lad.switch.bind (·.chain)) = some tag then none else s.lad.switch) ∧
  (∀ s t m w, s.isHead = false → s.lad.member = some m → s.lad.switch = some w → m.acked = true → m.switched = false →
    w.chain = some m.tag → w.commit = none → m.ackAt + 250000000 ≤ max s.now t →
    ∃ u, exec (.commitLostTimeout t) s = .next u ∧ u.lad.member = none ∧ u.lad.switch = none) ∧
  (∀ s t src tag, s.isHead = false → s.sideUp true = true →
    exec (.ack t src tag) s = .next ((s.at t).relay false 0x11 src 0 (le 2 tag)) ∧
    exec (.nak t src tag) s = .next ((s.at t).relay false 0x12 src 0 (le 2 tag)) ∧
    exec (.fail t src tag) s = .next ((s.at t).relay false 0x15 src 0 (le 2 tag)) ∧
    ∀ code index, exec (.outcome t src tag code index) s =
      .next ((s.at t).relay false 0x16 src 0 (le 2 tag ++ [byte code] ++ le 8 index)))

/-- The chain switch at the head (R61 to R64). CHAIN_SWITCH opens it under the next tag and asks for the head's own switch. An ACK is
kept until the last, with which the switch is committed; a NAK, the end of 150 ms without all ACKs, and a FAIL before the commit
leave it cancelled; an OUTCOME of its tag is recorded. -/
def Obligations.ChainHeadCommandsComplete : Prop :=
  (∀ s t c r, (s.at t).Accepts c 0x2400 0x10 false (le 1 r) → r < 16 → s.isHead = true → s.rungReady r = true →
    let tag := (s.og 0x240013 + 1) % 65536
    ∃ u dark, exec (.chainSwitch t c r) s = .next u ∧
      u.lad.switch = some ⟨r, max s.now t, false, false, 0, dark, some tag, none⟩ ∧
      u.lad.chain = some ⟨r, tag, max s.now t, [], none, false, false, [], 0⟩ ∧
      u.lad.member = some ⟨r, tag, false, 0, false⟩) ∧
  (∀ s t src tag c, s.sideUp true = true → s.isHead = true → s.lad.chain = some c → c.tag = tag → c.ovr = false →
    c.commit = none → src ∉ c.acks →
    ∃ u, exec (.ack t src tag) s = .next u ∧
      if (List.range s.chainLen).all (c.acks ++ [src]).contains = true then ∃ o, u.lad.chain = some o ∧ o.commit.isSome = true
      else u.lad.chain = some { c with acks := c.acks ++ [src] }) ∧
  (∀ s t src tag c, s.sideUp true = true → s.isHead = true → s.lad.chain = some c → c.tag = tag → c.ovr = false →
    c.commit = none → src ≠ 0 →
    ∃ u o, exec (.nak t src tag) s = .next u ∧ u.lad.chain = some o ∧ o.tag = tag ∧ o.ovr = true) ∧
  (∀ s t c, s.lad.chain = some c → c.ovr = false → c.commit = none → c.sentAt + 150000000 ≤ max s.now t →
    ∃ u o, exec (.ackTimeout t) s = .next u ∧ u.lad.chain = some o ∧ o.tag = c.tag ∧ o.ovr = true) ∧
  (∀ s t src tag c, s.sideUp true = true → s.isHead = true → s.lad.chain = some c → c.tag = tag → c.ovr = false →
    c.commit = none →
    ∃ u o, exec (.fail t src tag) s = .next u ∧ u.lad.chain = some o ∧ o.tag = tag ∧ o.ovr = true) ∧
  (∀ s t src tag code index c, s.sideUp true = true → s.isHead = true → s.lad.chain = some c → c.tag = tag →
    exec (.outcome t src tag code index) s = .next ((s.at t).chainOutcome src code index))

/-- Raw bursts and user programs (R144 to R147, R236). BURST_REQUEST in Sensing makes its burst outstanding; BURST_ABANDON leaves none,
and one whose head has not left sends its head with status 2. BURST_CAPTURE_END ends a source 0 or 1 capture once every instant is in,
or early at the end of Sensing or a DRAM stall, and a source 2 capture once its firing has left Chestnut; the burst stands in line for
its readout. BURST_READOUT offers the head, the next 64 KiB or the last part where the queue has room. USER_PROGRAM writes the program
memory of the named engine from bundle 1536 on. -/
def Obligations.BurstCommandsComplete : Prop :=
  (∀ s t c pl, (s.at t).Accepts c 0x4030 8 false (le 1 1) → s.pw.power = .sensing → s.lad.inForce = some pl →
    let w := (s.at t).renew c
    let src2 := decide (w.og 0x403002 = 2)
    let want := w.og 0x403003
    w.og 0x403001 &&& w.portMask = w.og 0x403001 → w.og 0x403006 + w.og 0x403007 ≤ 392000 →
    (src2 = true → popPorts (w.og 0x403001) = 1) → s.burst src2 = none → want = 0 ∨ w.nextSweep2us ≤ want →
    (src2 = false → burstBytes pl.period (w.og 0x403004) (w.og 0x403002) (w.og 0x403001) ≤ w.og 0x40300A * 2 ^ 20 ∧
      burstRate (w.og 0x403002) * popPorts (w.og 0x403001) ≤ pl.rawDemand) →
    ∃ u b, exec (.burstRequest t c) s = .next u ∧ u.burst src2 = some b ∧ u.burst (!src2) = s.burst (!src2) ∧
      b.source = w.og 0x403002 ∧ b.mask = w.og 0x403001 ∧ b.start = (if want = 0 then w.nextSweep2us else want) ∧
      b.sweeps = w.og 0x403004 ∧ b.slot = w.og 0x403005 ∧ b.n0 = w.og 0x403006 ∧ b.count = w.og 0x403007 ∧ b.begun = false) ∧
  (∀ s t c, (s.at t).Accepts c 0x4030 8 false (le 1 2) →
    ∃ u, exec (.burstAbandon t c) s = .next u ∧ u.ch.burst01 = none ∧ u.ch.burst2 = none ∧ u.ch.order = [] ∧
      u.ch.gone = s.ch.gone ++ ((s.ch.burst01.toList ++ s.ch.burst2.toList).filter fun b => !b.headSent).map fun b =>
        { b with abandoned := true, data := [], captured := 0 }) ∧
  (∀ s t trunc data n b, s.ch.burst01 = some b → s.og 0x403009 = 2 →
    let now := max s.now t
    let seen := min (s.burstTotal b) ((min now (b.stop.getD now) - b.begins + 1) / 2)
    let stalled := trunc || b.truncated
    let k := if stalled = true then min n seen else seen
    stalled = true ∨ b.stop.isSome = true ∨ seen = s.burstTotal b → k ≤ data.length →
    ∃ u, exec (.burstCaptureEnd t false trunc data n) s = .next u ∧ u.ch.order = s.ch.order ++ [false] ∧
      u.ch.burst01 = some { b with captured := k, truncated := decide (k < 8 * b.planP * b.sweeps), endedAt := now }) ∧
  (∀ s t trunc data n b, s.ch.burst2 = some b → s.og 0x40300C = 2 → b.got = true ∨ b.noFiring = true →
    ∃ u, exec (.burstCaptureEnd t true trunc data n) s = .next u ∧ u.ch.burst2 = some { b with endedAt := max s.now t } ∧
      (u.ch.order = true :: s.ch.order ∨ u.ch.order = s.ch.order ++ [true])) ∧
  (∀ s t src2 b l q, s.ch.gone = [] → s.ch.order = src2 :: l → s.burst src2 = some b →
    (s.activePlan.bind fun pl => pl.queueOf 5 0) = some q → s.queuesLive = true →
    let r := (s.at t).burstPayload b
    s.fits q r.1.length = true →
    let w := r.2.accept q
      { typ := if b.headSent = true then 6 else 5, sweep := b.start, stamp := b.stamp, olen := r.1.length, payload := r.1 }
    (b.sent + 65536 < b.size → exec (.burstReadout t) s =
      .next (w.setBurst src2 (some { b with sent := b.sent + 65536, headSent := true, bad := false }))) ∧
    (b.size ≤ b.sent + 65536 → ∃ u, exec (.burstReadout t) s = .next u ∧ u.burst src2 = none ∧ u.ch.order = l ∧ u.qu = w.qu)) ∧
  (∀ s t b l q, s.ch.gone = b :: l → (s.activePlan.bind fun pl => pl.queueOf 5 0) = some q → s.queuesLive = true →
    s.fits q b.head.length = true → b.headSent = false →
    ∃ u, exec (.burstReadout t) s = .next u ∧ u.ch.gone = l ∧ u.qu = ((s.at t).accept q
      { typ := 5, sweep := b.start, stamp := b.stamp, olen := b.head.length, payload := b.head }).qu) ∧
  (∀ s t c data, (s.at t).Accepts c 0x4100 0x11 true data →
    let w := (s.at t).renew c
    (s.engine (w.og 0x410010)).halted = false → w.slotsUse (w.og 0x410010) = false →
    exec (.userProgram t c data) s = .next ({ w with
      hz := { s.hz with prog := memWrite s.hz.prog (w.og 0x410010 * 0x4000 + 8 * 1536) data } }.answer c .done))

/-- The control slot of Hazel (R227, R228, R229, R234, R239, Table 10-4). The slot ends its bundle. NOP and CHK go on with the next bundle
of straight code or of the open loop bodies; LOOP opens a level, or skips its body when its count is 0; JMP, BRA and BRN jump,
closing the levels that do not hold the target, or go on; END of a library item ends it with the effect of its role, END of a user item
sends its outbox of the length its parameter word 15 names, or nothing for 0, or is fault 8. An illegal loop is fault 3.
ILLEGAL_BUNDLE takes fault 2 or 3: a library item halts its engine, a user item is aborted. -/
def Obligations.HazelControlComplete : Prop :=
  (∀ s e user, (s.engine e).running = some user →
    let c := (s.engine e).ctx user
    let n := afterBundle c.pc c.loops
    inProgram user n.1 = true → s.InBudget e user c 0 →
    exec (.hzNop e) s = .next (s.commitBundle e user n.1 n.2 0)) ∧
  (∀ s e marker user, (s.engine e).running = some user →
    let c := (s.engine e).ctx user
    let n := afterBundle c.pc c.loops
    inProgram user n.1 = true → s.InBudget e user c 0 →
    exec (.hzChk e marker) s =
      .next ((s.os (okey 0x4100 (0x50 + e)) (marker % 256)).commitBundle e user n.1 n.2 0)) ∧
  (∀ s e last user, (s.engine e).running = some user →
    let c := ((s.engine e).ctx user).wait false [.lc ((s.engine e).ctx user).loops.length]
    let n := (c.issue.lc.getD c.loops.length 0).toNat
    c.atEnd = false → c.pc < last → inProgram user last = true → (∀ l ∈ c.loops.head?, last ≤ l.last) → c.loops.length < 4 →
    s.controlOp e last = 0 ∨ s.controlOp e last = 5 → n ≠ 0 → inProgram user (c.pc + 1) = true → s.InBudget e user c 0 →
    exec (.hzLoop e last) s =
      .next ((s.putCtx e user c).commitBundle e user (c.pc + 1) (⟨c.pc + 1, last, n⟩ :: c.loops) 0)) ∧
  (∀ s e last user, (s.engine e).running = some user →
    let c := ((s.engine e).ctx user).wait false [.lc ((s.engine e).ctx user).loops.length]
    let n := afterBundle last c.loops
    c.atEnd = false → c.pc < last → inProgram user last = true → (∀ l ∈ c.loops.head?, last ≤ l.last) → c.loops.length < 4 →
    s.controlOp e last = 0 ∨ s.controlOp e last = 5 → (c.issue.lc.getD c.loops.length 0).toNat = 0 →
    inProgram user n.1 = true → s.InBudget e user c 0 →
    exec (.hzLoop e last) s = .next ((s.putCtx e user c).commitBundle e user n.1 n.2 0)) ∧
  (∀ s e last user, (s.engine e).running = some user →
    let c := ((s.engine e).ctx user).wait false [.lc ((s.engine e).ctx user).loops.length]
    c.atEnd = true ∨ last ≤ c.pc ∨ inProgram user last = false ∨ (∃ l ∈ c.loops.head?, l.last < last) ∨ 4 ≤ c.loops.length ∨
      (s.controlOp e last ≠ 0 ∧ s.controlOp e last ≠ 5) →
    exec (.hzLoop e last) s = .next ((s.putCtx e user c).hzFault e 3)) ∧
  (∀ s e target user, (s.engine e).running = some user →
    let c := ((s.engine e).ctx user).wait false []
    c.atEnd = false → inProgram user target = true → s.InBudget e user c 2 →
    exec (.hzJmp e target) s = .next ((s.putCtx e user c).commitBundle e user target (keepLevels target c.loops) 2)) ∧
  (∀ s e target user, (s.engine e).running = some user →
    let c := ((s.engine e).ctx user).wait false [.pred]
    let n := if true ∈ c.issue.pred then (target, keepLevels target c.loops, 2) else ((afterBundle c.pc c.loops).1, (afterBundle c.pc c.loops).2, 0)
    c.atEnd = false → inProgram user n.1 = true → s.InBudget e user c n.2.2 →
    exec (.hzBra e target) s = .next ((s.putCtx e user c).commitBundle e user n.1 n.2.1 n.2.2)) ∧
  (∀ s e target user, (s.engine e).running = some user →
    let c := ((s.engine e).ctx user).wait false [.pred]
    let n := if true ∈ c.issue.pred then ((afterBundle c.pc c.loops).1, (afterBundle c.pc c.loops).2, 0) else (target, keepLevels target c.loops, 2)
    c.atEnd = false → inProgram user n.1 = true → s.InBudget e user c n.2.2 →
    exec (.hzBrn e target) s = .next ((s.putCtx e user c).commitBundle e user n.1 n.2.1 n.2.2)) ∧
  (∀ s e t it, (s.engine e).running = some false → (s.engine e).item = some it → ((s.engine e).ctx false).atEnd = false →
    exec (.hzEnd e t) s = .next ((((((s.at t).commitBundle e false ((s.engine e).ctx false).pc [] 0).setEngine e fun g =>
      { g with item := none })).libraryEnd it).dispatch e)) ∧
  (∀ s e t it, (s.engine e).running = some true → (s.engine e).userItem = some it →
    let c := (s.engine e).ctx true
    let w := (s.at t).commitBundle e true c.pc [] 0
    let n := w.paramWord e true 15
    c.atEnd = false → s.InBudget e true c 0 →
    (n = 0 → exec (.hzEnd e t) s = .next (w.leaveUser e)) ∧
    (4096 < n ∨ n % 4 ≠ 0 → exec (.hzEnd e t) s = .next (w.userFault e 8)) ∧
    (0 < n → n ≤ 4096 → n % 4 = 0 → w.queuesLive = true → w.fits it.queue n = true → exec (.hzEnd e t) s = .next ((w.leaveUser e).accept it.queue
      { typ := 7, sweep := it.sweep, stamp := it.stamp, olen := n, payload := (List.range n).map fun i => w.hzByte e true (0xE000 + i) }))) ∧
  (∀ s e t loop it, (s.engine e).running = some false → (s.engine e).item = some it →
    exec (.hzIllegalBundle e t loop) s = .next ((s.at t).halt e (if loop then 3 else 2) it.kernel)) ∧
  (∀ s e t loop, (s.engine e).running = some true →
    exec (.hzIllegalBundle e t loop) s = .next ((s.at t).userFault e (if loop then 3 else 2)))

/-- The address slot of Hazel (R222, Table 10-5), with the post-modifications of the bundle already in place. PADD and PADDI add m_k and
4 × imm4 (signed) to p_k modulo 2^32; PLDP, PLDM, PLDL, PLDZ and PSETS load p_k, m_k, lc of k mod 4, z of k mod 2 and, for k = 0, ss from
parameter word imm4. Nothing else of the context's registers changes. -/
def Obligations.HazelAddressComplete : Prop :=
  ∀ s e user, (s.engine e).running = some user →
    let c := (s.engine e).ctx user
    exec (.hzAddrNop e) s = .next (s.putSlot e user c) ∧
    (∀ k, exec (.hzPadd e k) s = .next (s.putSlot e user
      (((c.wait false [.p k, .m k]).setRegs fun r => { r with p := modAt r.p k (· + c.issue.m.getD k 0) }).note (.p k) 1 1))) ∧
    (∀ k imm, exec (.hzPaddi e k imm) s = .next (s.putSlot e user
      (((c.wait false [.p k]).setRegs fun r => { r with p := modAt r.p k (· + BitVec.ofInt 32 (4 * toI 4 imm)) }).note (.p k) 1 1))) ∧
    (∀ k imm, exec (.hzPldp e k imm) s = .next (s.putSlot e user
      ((c.setRegs fun r => { r with p := modAt r.p k fun _ => BitVec.ofNat 32 (s.paramWord e user imm) }).note (.p k) 1 1))) ∧
    (∀ k imm, exec (.hzPldm e k imm) s = .next (s.putSlot e user
      ((c.setRegs fun r => { r with m := modAt r.m k fun _ => BitVec.ofNat 32 (s.paramWord e user imm) }).note (.m k) 1 1))) ∧
    (∀ k imm, exec (.hzPldl e k imm) s = .next (s.putSlot e user
      ((c.setRegs fun r => { r with lc := modAt r.lc (k % 4) fun _ => BitVec.ofNat 16 (s.paramWord e user imm) }).note (.lc (k % 4)) 1 1))) ∧
    (∀ k imm, exec (.hzPldz e k imm) s = .next (s.putSlot e user
      ((c.setRegs fun r => { r with z := modAt r.z (k % 2) fun _ => BitVec.ofNat 16 (s.paramWord e user imm) }).note (.z (k % 2)) 1 1))) ∧
    (∀ imm, exec (.hzPsets e 0 imm) s = .next (s.putSlot e user
      ((c.setRegs fun r => { r with ss := BitVec.ofNat 6 (s.paramWord e user imm) }).note .ss 1 1))) ∧
    (∀ k imm, k ≠ 0 → exec (.hzPsets e k imm) s = .next (s.hzFault e 2))

/-- The loads of Hazel (R218, R220, R223, R226, R332, Table 10-6). Lane i of a vector load reads the address p_k + i × z modulo 2^32, the
stride z of the slot, or the natural size where z is 0; LDS reads at p_k and gives the value to every lane. Where the address map gives
every address to the context, every address is aligned and no memory fault is found, the register takes the lanes' values: LDW and LDS
bits [31:8] of the word, LDB its low byte, LDH and LDHS the half zero- and sign-extended, LDA bits [55:0] of the dword. A value from
Cashew is ready after 10 cycles and those that its bank made it wait, a local one after 2, an accumulator not before 3. A
post-modification follows. An address that is not the context's or not aligned is fault 4, a memory fault fault 5, an accumulator above
1 fault 2. -/
def Obligations.HazelLoadsComplete : Prop :=
  ∀ s e user, (s.engine e).running = some user →
    let c := (s.engine e).ctx user
    let banks := (((s.engine e).current user).map (·.banks)).getD 0
    (∀ ls, exec (.hzLdstNop e ls) s = .next (s.putSlot e user c)) ∧
    (∀ x ∈ ([(Instr.hzLdw, 4, fun w => toI 24 (w / 256)), (Instr.hzLdb, 4, fun w => ((w % 256 : Nat) : Int)),
        (Instr.hzLdh, 2, fun w => ((w : Nat) : Int)), (Instr.hzLdhs, 2, fun w => toI 16 w)] : List ((Nat → LsOp → Instr) × Nat × (Nat → Int))),
      ∀ o : LsOp,
        let z := (c.issue.z.getD (if o.slot1 then 1 else 0) 0).toNat
        let addrs := (List.range 8).map fun i => ((c.issue.p.getD o.k 0).toNat + i * (if z = 0 then x.2.1 else z)) % 2 ^ 32
        ((∃ a ∈ addrs, accessOk user banks a x.2.1 = false) → exec (x.1 e o) s = .next ((s.loadEcc e o false x.2.1).hzFault e 4)) ∧
        ((∀ a ∈ addrs, accessOk user banks a x.2.1 = true) →
          (loadFault o user addrs = true → exec (x.1 e o) s = .next ((s.loadEcc e o false x.2.1).hzFault e 5)) ∧
          (loadFault o user addrs = false →
        exec (x.1 e o) s = .next ((s.loadEcc e o false x.2.1).putSlot e user
          ((((c.wait false (addrRegs o false)).touch addrs x.2.1).post o).putD o.reg (if ∃ a ∈ addrs, 0x10000 ≤ a then 10 + o.waits else 2)
            (addrs.map fun a => x.2.2 (s.hzRead e user a x.2.1))))))) ∧
    (∀ o : LsOp,
      let a := (c.issue.p.getD o.k 0).toNat
      (accessOk user banks a 4 = false → exec (.hzLds e o) s = .next ((s.loadEcc e o true 4).hzFault e 4)) ∧
      (accessOk user banks a 4 = true →
        (loadFault o user [a] = true → exec (.hzLds e o) s = .next ((s.loadEcc e o true 4).hzFault e 5)) ∧
        (loadFault o user [a] = false →
      exec (.hzLds e o) s = .next ((s.loadEcc e o true 4).putSlot e user
        ((((c.wait false (addrRegs o true)).touch [a] 4).post o).putD o.reg (if 0x10000 ≤ a then 10 + o.waits else 2)
          (rep 8 (toI 24 (s.hzRead e user a 4 / 256)))))))) ∧
    (∀ o : LsOp,
      let z := (c.issue.z.getD (if o.slot1 then 1 else 0) 0).toNat
      let addrs := (List.range 8).map fun i => ((c.issue.p.getD o.k 0).toNat + i * (if z = 0 then 8 else z)) % 2 ^ 32
      (2 ≤ o.reg → exec (.hzLda e o) s = .next ((s.loadEcc e o false 8).hzFault e 2)) ∧
      (o.reg < 2 →
        ((∃ a ∈ addrs, accessOk user banks a 8 = false) → exec (.hzLda e o) s = .next ((s.loadEcc e o false 8).hzFault e 4)) ∧
        ((∀ a ∈ addrs, accessOk user banks a 8 = true) →
          (loadFault o user addrs = true → exec (.hzLda e o) s = .next ((s.loadEcc e o false 8).hzFault e 5)) ∧
          (loadFault o user addrs = false →
            exec (.hzLda e o) s = .next ((s.loadEcc e o false 8).putSlot e user
              (let lat := if ∃ a ∈ addrs, 0x10000 ≤ a then 10 + o.waits else 3
               (((c.wait false (addrRegs o false)).touch addrs 8).post o).putA o.reg lat lat
                (addrs.map fun a => toI 56 (s.hzRead e user a 8))))))))

/-- The stores of Hazel (R218, R222 to R224, Table 10-6). Where the address map gives every address to the context and every address is
aligned, lane i of a vector store puts its bytes at p_k + i × z modulo 2^32 and STS puts lane 0 at p_k. The bytes reach memory when the
bundle ends. STW stores d × 256, STB and STBP the low byte, STH sat16 of d, STA and STAW the accumulator rounded by ss and saturated to 24
and 32 bits, STAQ the whole accumulator. Every saturation that acts sets the lane's sat bit and counts in 0x4100:05. An address that is
not the context's or not aligned is fault 4, an accumulator above 1 fault 2; neither stores or counts. -/
def Obligations.HazelStoresComplete : Prop :=
  ∀ s e user, (s.engine e).running = some user →
    let c := (s.engine e).ctx user
    let banks := (((s.engine e).current user).map (·.banks)).getD 0
    (∀ x ∈ ([(Instr.hzStw, 4, false, fun r n i => (le 4 (toU 24 (r.lane n i) * 256), false)),
        (Instr.hzStb, 4, false, fun r n i => (le 1 (toU 8 (r.lane n i)), false)),
        (Instr.hzSth, 2, false, fun r n i => (le 2 (toU 16 (satS 16 (r.lane n i))), decide (satS 16 (r.lane n i) ≠ r.lane n i))),
        (Instr.hzStbp, 1, false, fun r n i => (le 1 (toU 8 (r.lane n i)), false)),
        (Instr.hzSta, 4, true, fun r n i => (le 4 (toU 24 (satS 24 (rhe (r.alane n i) r.ss.toNat)) * 256),
          decide (satS 24 (rhe (r.alane n i) r.ss.toNat) ≠ rhe (r.alane n i) r.ss.toNat))),
        (Instr.hzStaw, 4, true, fun r n i => (le 4 (toU 32 (satS 32 (rhe (r.alane n i) r.ss.toNat))),
          decide (satS 32 (rhe (r.alane n i) r.ss.toNat) ≠ rhe (r.alane n i) r.ss.toNat))),
        (Instr.hzStaq, 8, true, fun r n i => (le 8 (toU 64 (r.alane n i)), false))] :
        List ((Nat → LsOp → Instr) × Nat × Bool × (Regs → Nat → Nat → List Byte × Bool))),
      ∀ o : LsOp,
        let z := (c.issue.z.getD (if o.slot1 then 1 else 0) 0).toNat
        let addrs := (List.range 8).map fun i => ((c.issue.p.getD o.k 0).toNat + i * (if z = 0 then x.2.1 else z)) % 2 ^ 32
        let out := (List.range 8).map (x.2.2.2 c.issue o.reg)
        (x.2.2.1 = true → 2 ≤ o.reg → exec (x.1 e o) s = .next ((s.bump 0x410005 0).hzFault e 2)) ∧
        ((x.2.2.1 = true → o.reg < 2) → (∃ a ∈ addrs, accessOk user banks a x.2.1 = false) →
          exec (x.1 e o) s = .next ((s.bump 0x410005 0).hzFault e 4)) ∧
        ((x.2.2.1 = true → o.reg < 2) → (∀ a ∈ addrs, accessOk user banks a x.2.1 = true) →
        ∃ w : Ctx, exec (x.1 e o) s = .next ((s.bump 0x410005 (out.countP (·.2))).putSlot e user w) ∧
          w.stores = c.stores ++ (List.zip addrs out).flatMap (fun y => y.2.1.zipIdx.map fun v => (y.1 + v.2, v.1)) ∧
          w.regs = { (c.post o).regs with sat := (c.satLanes (out.map (·.2))).regs.sat })) ∧
    (∀ o : LsOp,
      let a := (c.issue.p.getD o.k 0).toNat
      (accessOk user banks a 4 = false → exec (.hzSts e o) s = .next ((s.bump 0x410005 0).hzFault e 4)) ∧
      (accessOk user banks a 4 = true →
      ∃ w : Ctx, exec (.hzSts e o) s = .next ((s.bump 0x410005 0).putSlot e user w) ∧
        w.stores = c.stores ++ (le 4 (toU 32 (c.issue.lane o.reg 0))).zipIdx.map (fun v => (a + v.2, v.1)) ∧
        w.regs = (c.post o).regs))

/-- Hazel bundles (R218, R221, R222, Tables 10-2, 10-3, 10-14). What a dword of program memory spells: the eleven words of Table 10-14 spell the
slots that the table gives, in the order in which they write, and a word with an illegal operation in some slot spells none. The end of a
bundle: the stores of its slots reach memory there, in order: a byte of the context reads
what the bundle's last store to it put, and every byte that no slot stored to reads as before, in data memory and in Cashew. The local
memories of the other engines stand, no store waits any more, and the next bundle reads the registers that this one wrote. -/
def Obligations.HazelBundleStores : Prop :=
  (∀ e t, let p0 := Instr.hzLdstNop e false; let p1 := Instr.hzLdstNop e true; let m := Instr.hzMacNop e; let n := Instr.hzNop e
    let o := fun (slot1 : Bool) (reg k : Nat) => (⟨slot1, reg, k, false, .none, 0⟩ : LsOp)
    bundleSlots e t 0x0001000000002000 = some [.hzClr e ⟨0, 0, 0, 0⟩, p0, p1, .hzPldp e 0 0, n] ∧
    bundleSlots e t 0x0001810000000000 = some [m, p0, p1, .hzPldm e 0 1, n] ∧
    bundleSlots e t 0x0002020000000000 = some [m, p0, p1, .hzPldl e 0 2, n] ∧
    bundleSlots e t 0x0001130000000000 = some [m, p0, p1, .hzPldp e 1 3, n] ∧
    bundleSlots e t 0x0003840000000000 = some [m, p0, p1, .hzPsets e 0 4, n] ∧
    bundleSlots e t 0x0001250000000000 = some [m, p0, p1, .hzPldp e 2 5, n] ∧
    bundleSlots e t 0x3821370000000000 = some [m, p0, p1, .hzPldp e 3 7, .hzLoop e 1544] ∧
    bundleSlots e t 0x0000000001010000 = some [m, .hzLdw e { o false 0 0 with post := true }, p1, .hzAddrNop e, n] ∧
    bundleSlots e t 0x0000000000000800 = some [.hzMac e ⟨0, 0, 0, 0⟩, p0, p1, .hzAddrNop e, n] ∧
    bundleSlots e t 0x000000514E020000 = some [m, .hzStaw e (o false 0 1), .hzLds e (o true 1 2), .hzAddrNop e, n] ∧
    bundleSlots e t 0xE00000000C160000 = some [m, .hzSts e (o false 1 3), p1, .hzAddrNop e, .hzEnd e t]) ∧
  (∀ e t w, bundleSlots e t w = none ↔
    bits w 63 61 = 6 ∨ bits w 39 36 = 7 ∨ bits w 27 24 = 7 ∨ 0x1C ≤ bits w 15 11) ∧
  ∀ (s : State) e user pc loops extra, s.Sound → e < 12 →
    let c := (s.engine e).ctx user
    (∀ x ∈ c.stores, x.1 < 0x10000 ∨ 0x100000 ≤ x.1) →
    let u := s.commitBundle e user pc loops extra
    (∀ a, a < 0x10000 ∨ 0x100000 ≤ a →
      u.hzByte e user a = ((c.stores.reverse.find? fun x => decide (x.1 = a)).map (·.2)).getD (s.hzByte e user a)) ∧
    (∀ f v a, f ≠ e → f < 12 → a < 0x10000 → u.hzByte f v a = s.hzByte f v a) ∧
    ((u.engine e).ctx user).stores = [] ∧ ((u.engine e).ctx user).issue = c.regs ∧ ((u.engine e).ctx user).pc = pc ∧
    ((u.engine e).ctx user).loops = loops

/-- The accumulator operations of Hazel's MAC slot (R225, Table 10-7). MAC and MSU add and subtract the exact products to and from the
accumulator, MPY replaces it by the products, CLR by 0, ACCD adds dA, SETA takes dA; mod makes both factors signed, B unsigned, both
unsigned, or B the lane of its B field. Each lane saturates to 56 bits and sets its sat bit where that acted. RSA and LSA shift by
n = mod × 16 + B, DIVR divides by the other accumulator where that is positive and gives 0 elsewhere, EXT puts sat24 of the accumulator
rounded by ss into dA. A count above 63, and EXT with mod other than 0, is illegal. -/
def Obligations.HazelAccumulatorsComplete : Prop :=
  ∀ s e user, (s.engine e).running = some user →
    let c := (s.engine e).ctx user
    let r := c.issue
    exec (.hzMacNop e) s = .next (s.putSlot e user c) ∧
    ∀ o : MacOp,
      let n := o.mod * 16 + o.b
      let uns (v : Int) : Int := v % 2 ^ 24
      let x := if o.mod = 2 then (r.dv o.a).map uns else r.dv o.a
      let y := if o.mod = 0 then r.dv o.b else if o.mod = 1 ∨ o.mod = 2 then (r.dv o.b).map uns
        else (r.dv o.a).map fun _ => (r.dv o.b).getD 0 0
      let prod := List.zipWith (· * ·) x y
      let sat (lat : Nat) (c : Ctx) (v : List Int) : Ctx :=
        (c.putA o.acc lat 3 (v.map (satS 56))).satLanes (v.map fun a => decide (satS 56 a ≠ a))
      exec (.hzMac e o) s = .next (s.putSlot e user
        (sat 1 ((c.wait true [.a o.acc]).wait false [.d o.a, .d o.b]) (List.zipWith (· + ·) (r.av o.acc) prod))) ∧
      exec (.hzMsu e o) s = .next (s.putSlot e user
        (sat 1 ((c.wait true [.a o.acc]).wait false [.d o.a, .d o.b]) (List.zipWith (· - ·) (r.av o.acc) prod))) ∧
      exec (.hzMpy e o) s = .next (s.putSlot e user (sat 3 (c.wait false [.d o.a, .d o.b]) prod)) ∧
      exec (.hzClr e o) s = .next (s.putSlot e user (sat 3 (c.wait false []) (rep 8 0))) ∧
      exec (.hzAccd e o) s = .next (s.putSlot e user
        (sat 1 ((c.wait true [.a o.acc]).wait false [.d o.a]) (List.zipWith (· + ·) (r.av o.acc) (r.dv o.a)))) ∧
      exec (.hzSeta e o) s = .next (s.putSlot e user (sat 3 (c.wait false [.d o.a]) (r.dv o.a))) ∧
      (n ≤ 63 → exec (.hzRsa e o) s = .next (s.putSlot e user (sat 3 (c.wait false [.a o.acc]) ((r.av o.acc).map fun a => rhe a n)))) ∧
      (n ≤ 63 → exec (.hzLsa e o) s = .next (s.putSlot e user (sat 3 (c.wait false [.a o.acc]) ((r.av o.acc).map fun a => a * 2 ^ n)))) ∧
      exec (.hzDivr e o) s = .next (s.putSlot e user ((c.wait false [.a 0, .a 1]).putA o.acc 28 28
        (List.zipWith (fun a b => if 0 < b then rdiv a b else 0) (r.av o.acc) (r.av (1 - o.acc))))) ∧
      (63 < n → exec (.hzRsa e o) s = .next (s.hzFault e 2) ∧ exec (.hzLsa e o) s = .next (s.hzFault e 2)) ∧
      (o.mod ≠ 0 → exec (.hzExt e o) s = .next (s.hzFault e 2)) ∧
      (o.mod = 0 → exec (.hzExt e o) s = .next (s.putSlot e user
        (let v := (r.av o.acc).map fun a => rhe a r.ss.toNat
         ((c.wait false [.a o.acc, .ss]).putD o.a 1 (v.map (satS 24))).satLanes (v.map fun a => decide (satS 24 a ≠ a)))))

/-- The d-register operations of Hazel's MAC slot (R225, R226, Table 10-7): the two-operand operations write dA lane by lane, wrapped
to 24 bits or, for ADDS, SUBS and ABS, saturated with the lane's sat bit; RSD and LSD shift by n = mod × 16 + B up to 23; CGT and CEQ write
pred; SEL takes dB in the lanes where pred is 1; PRM permutes the lanes of dB. Each waits for the
registers it reads, MOV for dB alone. With acc bit 1, with a count above 23 or with mod other than 0 for ABS it is illegal. -/
def Obligations.HazelRegistersComplete : Prop :=
  ∀ s e user, (s.engine e).running = some user →
    let c := (s.engine e).ctx user
    let r := c.issue
    (∀ o : MacOp, o.acc ≠ 0 → ∀ i ∈ [Instr.hzAdd e o, .hzSub e o, .hzAdds e o, .hzSubs e o, .hzMin e o, .hzMax e o, .hzAnd e o, .hzOr e o,
        .hzXor e o, .hzRsd e o, .hzLsd e o, .hzCgt e o, .hzCeq e o, .hzSel e o, .hzMov e o, .hzPrm e o, .hzAbs e o],
      exec i s = .next (s.hzFault e 2)) ∧
    ∀ o : MacOp, o.acc = 0 →
      let n := o.mod * 16 + o.b
      let c2 := c.wait false [.d o.a, .d o.b]
      let sat (c : Ctx) (v : List Int) : Ctx := (c.putD o.a 1 (v.map (satS 24))).satLanes (v.map fun a => decide (satS 24 a ≠ a))
      (∀ x ∈ ([(Instr.hzAdd, fun x y => x + y), (Instr.hzSub, fun x y => x - y), (Instr.hzMin, fun x y => min x y), (Instr.hzMax, fun x y => max x y),
          (Instr.hzAnd, fun x y => (BitVec.ofInt 24 x &&& BitVec.ofInt 24 y).toInt), (Instr.hzOr, fun x y => (BitVec.ofInt 24 x ||| BitVec.ofInt 24 y).toInt),
          (Instr.hzXor, fun x y => (BitVec.ofInt 24 x ^^^ BitVec.ofInt 24 y).toInt)] :
          List ((Nat → MacOp → Instr) × (Int → Int → Int))),
        exec (x.1 e o) s = .next (s.putSlot e user (c2.putD o.a 1 (List.zipWith x.2 (r.dv o.a) (r.dv o.b))))) ∧
      exec (.hzMov e o) s = .next (s.putSlot e user ((c.wait false [.d o.b]).putD o.a 1
        (List.zipWith (fun _ y => y) (r.dv o.a) (r.dv o.b)))) ∧
      exec (.hzAdds e o) s = .next (s.putSlot e user (sat c2 (List.zipWith (· + ·) (r.dv o.a) (r.dv o.b)))) ∧
      exec (.hzSubs e o) s = .next (s.putSlot e user (sat c2 (List.zipWith (· - ·) (r.dv o.a) (r.dv o.b)))) ∧
      (n ≤ 23 → exec (.hzRsd e o) s = .next (s.putSlot e user ((c.wait false [.d o.a]).putD o.a 1 ((r.dv o.a).map fun x => rhe x n)))) ∧
      (n ≤ 23 → exec (.hzLsd e o) s = .next (s.putSlot e user ((c.wait false [.d o.a]).putD o.a 1 ((r.dv o.a).map fun x => x * 2 ^ n)))) ∧
      exec (.hzCgt e o) s = .next (s.putSlot e user ((c2.setRegs fun q =>
        { q with pred := List.zipWith (fun x y => decide (y < x)) (r.dv o.a) (r.dv o.b) }).note .pred 1 1)) ∧
      exec (.hzCeq e o) s = .next (s.putSlot e user ((c2.setRegs fun q =>
        { q with pred := List.zipWith (fun x y => decide (x = y)) (r.dv o.a) (r.dv o.b) }).note .pred 1 1)) ∧
      exec (.hzSel e o) s = .next (s.putSlot e user ((c.wait false [.pred, .d o.a, .d o.b]).putD o.a 1
        (List.zipWith (fun p (x : Int × Int) => if p then x.2 else x.1) r.pred (List.zip (r.dv o.a) (r.dv o.b))))) ∧
      exec (.hzPrm e o) s = .next (s.putSlot e user ((c.wait false [.d o.b]).putD o.a 1 ((List.range 8).map fun i =>
        (r.dv o.b).getD (if o.mod = 0 then i ^^^ 1 else if o.mod = 1 then i ^^^ 2 else if o.mod = 2 then i ^^^ 4 else 0) 0))) ∧
      (23 < n → exec (.hzRsd e o) s = .next (s.hzFault e 2) ∧ exec (.hzLsd e o) s = .next (s.hzFault e 2)) ∧
      (o.mod ≠ 0 → exec (.hzAbs e o) s = .next (s.hzFault e 2)) ∧
      (o.mod = 0 → exec (.hzAbs e o) s = .next (s.putSlot e user
        (sat (c.wait false [.d o.a]) ((r.dv o.a).map fun x => if x < 0 then -x else x))))

/-- The transmit lanes and the receive lanes' lock (R319 to R328). DATA_FRAME on a lane that can send puts a due resend on its
lane and counts it, else it takes the next frame of the queue that the scheduler picks and keeps it in the lane's replay buffer of
1 024 frames. DEVICE_CONTROL_FRAME sends the control payload, takes a sequence number, and settles what was due. A lane with nothing
to send, no replay and no control frame due enters electrical idle after 1 µs × 0x4000:04; it leaves it, training first, once
something is due or the delay is 0. BLOCK_LOCK sets the lock, brings up the lanes that the host's mask shows
and moves waiting resends to them; LOCK_LOSS clears the lock and counts the loss. ADAPTATION moves the settings in mode 0 only and
always updates the figure of merit; below 64 the lane is weak. -/
def Obligations.LaneCommandsComplete : Prop :=
  (∀ s t n r, (s.at t).canSend n = true →
    ((s.tx n).resend.find? fun r => decide (r.2 ≤ max s.now t)) = some r →
    exec (.dataFrame t n) s = .next ((((((s.at t).setTx n fun l => { l with
      resend := l.resend.erase r, lastSent := max s.now t, wake := none }).bump (tk n 3)).count 52)).emit (.frame n r.1.bytes))) ∧
  (∀ s t n q, (s.at t).canSend n = true → n < 8 →
    ((s.tx n).resend.find? fun r => decide (r.2 ≤ max s.now t)) = none → s.pickQueue n = some q →
    (s.inj.heldTx.any fun h => decide (h.1 = n)) = false → s.og 0x5E0002 ≠ 2 →
    let f := ((s.at t).nextFrame n q).1
    let w := ((s.at t).nextFrame n q).2
    f.queue = q ∧ f.qseq = (s.queue q).frameSeq ∧ f.lseq = (s.tx n).lseq ∧
    exec (.dataFrame t n) s = .next ((((w.setTx n fun l => { l with
      lseq := (l.lseq + 1) % 65536, replay := (l.replay ++ [f]).drop (l.replay.length + 1 - 1024), lastSent := w.now,
      wake := none }).bump (tk n 2)).releaseDue).emit (.frame n f.bytes))) ∧
  (∀ s t n, (s.at t).canSend n = true →
    let p := s.controlPayload
    exec (.deviceControlFrame t n) s = .next ((((s.at t).setTx n fun l => { l with
      lseq := (l.lseq + 1) % 65536, lastSent := max s.now t, due := false, control := max s.now t, wake := none }).bump
        (tk n 2)).emit (.frame n (LaneFrame.bytes ⟨1, 0, (s.tx n).lseq, 0, p.length, 511, p⟩)))) ∧
  (∀ s t n, n < s.lanesBonded → (s.tx n).up = true → (s.tx n).idle = false → s.og 0x400004 ≠ 0 → (s.tx n).resend = [] →
    s.pickQueue n = none → (s.tx n).due = false → max s.now t < (s.tx n).control + 100000 →
    (s.tx n).lastSent + 1000 * s.og 0x400004 ≤ max s.now t →
    exec (.electricalIdleEntry t n) s = .next ((s.at t).setTx n fun l => { l with idle := true })) ∧
  (∀ s t n, (s.tx n).idle = true →
    (s.og 0x400004 = 0 ∨ (s.tx n).resend ≠ [] ∨ s.pickQueue n ≠ none ∨ (s.tx n).due = true ∨
      (s.tx n).control + 100000 ≤ max s.now t) →
    exec (.electricalIdleExit t n) s = .next ((s.at t).setTx n fun l =>
      { l with idle := false, lastSent := max s.now t, wake := some (max s.now t) })) ∧
  (∀ s t m, s.pw.serial = true → m < 2 →
    exec (.blockLock t m) s = .next
      ((((s.at t).setRx m fun r => { r with locked := true }).osBit (rk m 1) 0 true).upLanes.moveResends)) ∧
  (∀ s t m, m < 2 → (s.ln.rx.getD m ⟨false, false, []⟩).locked = true →
    exec (.lockLoss t m) s = .next ((((s.at t).setRx m fun r => { r with locked := false }).osBit (rk m 1) 0 false).bump (rk m 7))) ∧
  (∀ s t m ctle dfe fom, s.pw.serial = true → m < 2 → s.og (rk m 4) ≠ 0 →
    exec (.adaptation t m ctle dfe fom) s = .next (((((s.at t).osBit (rk m 1) 1 (s.ln.rx.getD m ⟨false, false, []⟩).training).os
      (rk m 2) (fom % 256)).osBit (rk m 1) 2 (decide (fom % 256 < 64))))) ∧
  (∀ s t m ctle dfe fom, s.pw.serial = true → m < 2 → s.og (rk m 4) = 0 →
    let w := ((s.at t).os (rk m 3) (ctle % 16)).setRx m fun r => { r with dfe := dfe, training := true }
    exec (.adaptation t m ctle dfe fom) s = .next (((w.osBit (rk m 1) 1 (w.ln.rx.getD m ⟨false, false, []⟩).training).os
      (rk m 2) (fom % 256)).osBit (rk m 1) 2 (decide (fom % 256 < 64))))

/-- The transmit scheduler (R295, R320). A lane goes without a queue exactly when no queue has records, credit and that lane in its
mask; the queue it serves has all three, no queue that could be served there is of a lower class, and within the class it is the first
in ascending order from the turn of the class on, or the first of all when none stands from the turn on. -/
def Obligations.SchedulerServesByClass : Prop :=
  ∀ (s : State) lane,
    (s.pickQueue lane = none ↔ ∀ q, q < 16 → s.servable lane q = false) ∧
    ∀ q, s.pickQueue lane = some q →
      q < 16 ∧ s.servable lane q = true ∧
      (∀ r, r < 16 → s.servable lane r = true → (s.queue q).cls ≤ (s.queue r).cls) ∧
      ∀ r, r < 16 → s.servable lane r = true → (s.queue r).cls = (s.queue q).cls →
        let turn := s.qu.turn.getD (s.queue q).cls 0
        if turn ≤ q then turn ≤ r → q ≤ r else r < turn ∧ q ≤ r

/-- The transmit lanes that are not bonded (R331 under the order of Table 23-3). Of lane n at or above the bonded number, every object but
subindex 0 reads zero, and no write of its objects ever succeeds or changes one: a read-only row, the wrong kind, length or range meets
its own abort of the table first, and every write that passes those is refused with 0x0800_0020. -/
def Obligations.UnbondedLanes : Prop :=
  ∀ (s : State) (t c n sub : Nat), n < 8 → s.lanesBonded ≤ n → s.served = true → s.gate c = none → s.og 0x500001 ≠ 1 →
    s.ctl.transfer = none →
    let w := (s.at t).renew c
    (∀ o, objRow (0x4040 + n) sub = some o → sub ≠ 0 →
      exec (.usdoRequest t c (.read (0x4040 + n) sub false)) s = .next (w.answer c (.value (rep o.ty.size 0)))) ∧
    (∀ b, (s.at t).Accepts c (0x4040 + n) sub false b →
      exec (.registerWrite t c (0x4040 + n) sub b) s = .next (w.answer c (.abort 0x08000020))) ∧
    ∀ b, ∃ a, exec (.registerWrite t c (0x4040 + n) sub b) s = .next (w.answer c (.abort a))

/-- Host frames on a receive lane that no injection touches (R320, R323, R324, R325, R326, R329, R330, R489). CREDIT sets the limit of every queue
whose word has bit 31; REPLAY_REQUEST names frames to resend; HOST_STATUS brings the lanes of its mask up, others down; a DOWNLOAD of the
install buffer with credit writes its bytes, counts, and gives one credit back, one without credit is rejected and counted; a frame that
fails its CRC is dropped and counted, and rejected too where it came as a download frame. A changed download count makes every up lane
owe a control frame. Every whole frame counts in the lane's 0x4048+m:05. A held frame goes out alone at its deadline. -/
def Obligations.HostFramesComplete : Prop :=
  (∀ s t m words, (s.at t).Receives m → s.ln.credit.length = 16 →
    ∃ u, exec (.credit t m words) s = .next u ∧
      (∀ q, q < 16 → u.ln.credit.getD q 0 = if bit (words.getD q 0) 31 then words.getD q 0 % 65536 else s.ln.credit.getD q 0) ∧
      { u with ln := s.ln } = (s.at t).bump (rk m 5) ∧ { u.ln with credit := s.ln.credit } = s.ln) ∧
  (∀ s t m entries, (s.at t).Receives m → exec (.replayRequest t m entries) s =
    .next ((((entries.flatMap fun e => (List.range e.2.1).map fun k => (e.1, (e.2.2 + k) % 65536)).eraseDups).foldl
      (fun s x => s.replayOne x.1 x.2) ((s.at t).bump (rk m 5))))) ∧
  (∀ s t m mask, (s.at t).Receives m → s.ln.tx.length = 8 → s.lanesBonded ≤ 8 → swf odflt s.objects = true →
    ∃ u, exec (.hostStatus t m mask) s = .next u ∧
      (∀ n, n < s.lanesBonded → (u.tx n).up = bit mask n) ∧ (∀ n, s.lanesBonded ≤ n → (u.tx n).up = (s.tx n).up) ∧
      (∀ n, bit mask n = true → (u.tx n).idle = (s.tx n).idle ∧ (u.tx n).wake = (s.tx n).wake) ∧
      (∀ n, { u.tx n with up := (s.tx n).up, idle := (s.tx n).idle, wake := (s.tx n).wake, control := (s.tx n).control,
                          resend := (s.tx n).resend } = s.tx n)) ∧
  (∀ s t m seq off data, (s.at t).Receives m →
    let room := (s.ln.dlCredit.getD 0 0 + 65536 - seq % 65536) % 65536
    1 ≤ room → room ≤ 32768 → data.length ≤ 492 → s.pw.dramLive = true → s.recovery = false →
    (∀ o, s.ctl.longOp = some o → o.code ≠ 1) → off + data.length ≤ 8 * mib →
    exec (.download t m 0 seq off data) s =
      .next ({ (s.at t).bump (rk m 5) with ln := { s.ln with
        dlAccepted := modAt s.ln.dlAccepted 0 fun v => (v + 1) % 2 ^ 32
        dlCredit := modAt s.ln.dlCredit 0 fun v => (v + 1) % 65536
        tx := s.ln.tx.map fun (l : TxLane) => if l.up then { l with due := true } else l } }.dramWrite (s.regionBase .install + off) data)) ∧
  (∀ s t m target seq off data, (s.at t).Receives m → s.ln.dlCredit.getD target 0 % 65536 = seq % 65536 →
    exec (.download t m target seq off data) s =
      .next { (s.at t).bump (rk m 5) with ln := { s.ln with
        dlRejected := (s.ln.dlRejected + 1) % 2 ^ 32
        tx := s.ln.tx.map fun (l : TxLane) => if l.up then { l with due := true } else l } }) ∧
  (∀ s t m, (s.at t).Receives m → exec (.hostFrameDrop t ⟨m, false⟩) s = .next ((s.at t).bump (rk m 6))) ∧
  (∀ s t m, (s.at t).Receives m → exec (.hostFrameDrop t ⟨m, true⟩) s = .next {
        (s.at t).bump (rk m 6) with ln := { s.ln with
        dlRejected := (s.ln.dlRejected + 1) % 2 ^ 32
        tx := s.ln.tx.map fun (l : TxLane) => if l.up then { l with due := true } else l } }) ∧
  (∀ s t n f d, s.inj.heldTx = [(n, f, d)] → d ≤ t → s.inj.heldMsg = [] → s.inj.heldRx = [] →
    exec (.reorderHoldTimeout t) s = .next { (s.at t).emit (.frame n f.bytes) with inj := { s.inj with heldTx := [] } })

/-- Cashew and DRAM (R205, R220, R333, R336 to R339, R350 to R352, R355 to R357). BANK_OWNER_WRITE of a bank that no plan names sets its owner code and
starts the hand-over of 50 ns; BUSY_STROBE counts and marks the bank; CASHEW_SCRUB counts what it corrects or leaves; REFRESH postpones, or
makes up, refreshes; SELF_REFRESH_ENTRY; REFRESH_MODE_WRITE; FULL_SCRUB starts long operation 4; DRAM_UNCORRECTABLE of a DRAM word counts, keeps the address
and pulses IS12 before its reader takes the error; of an SRAM word it counts, corrects a single-bit error, and else its reader takes
the error; REAL_TIME_OVERFLOW counts, keeps the longest stall, and its requester loses data. -/
def Obligations.MemoryCommandsComplete : Prop :=
  (∀ s t c b v, (s.at t).Accepts c 0x4201 (b + 1) false (le 1 v) → v = 0 ∨ v = 4 →
    let w := (s.at t).renew c
    w.og (okey 0x4201 (b + 1)) = 0 ∨ w.og (okey 0x4201 (b + 1)) = 4 →
    (∀ pl, w.activePlan = some pl → pl.bankCode b = 0) → (∀ pl, (w.lad.switch.bind fun x => w.rung x.rung) = some pl → pl.bankCode b = 0) →
    exec (.bankOwnerWrite t c b v) s = .next ({ w.os (okey 0x4201 (b + 1)) v with mem := { w.mem with
      handover := (w.mem.handover.filter fun (h : Nat × Nat) => decide (w.now < h.2) && decide (h.1 ≠ b)) ++ [(b, w.now + 50)] } }.answer c .done)) ∧
  (∀ s t b, b < 48 → s.coreLive = true →
    exec (.busyStrobe t b) s = .next ((((s.at t).bump 0x420012).count 55).osBit 0x420013 b true)) ∧
  (∀ s t b d e, b < 48 → d < 65536 → s.coreLive = true → exec (.cashewScrub t b d e) s = .next (match e with
    | .none => s.at t | .single => (((s.at t).bump 0x420014).count 53) | .double => (((s.at t).bump 0x420015).count 54))) ∧
  (∀ s t i waiting, s.ifaceLive i = true → exec (.refresh t i waiting) s = .next ((s.at t).setMem fun m => { m with
      selfRefresh := modAt m.selfRefresh i fun x => x && !waiting
      used := modAt m.used i fun x => if waiting then max s.now t else x
      postponed := modAt m.postponed i fun _ =>
        if s.og 0x420009 = 1 ∧ waiting = true ∧ s.mem.postponed.getD i 0 < 8 then s.mem.postponed.getD i 0 + 1 else 0 })) ∧
  (∀ s t i, s.ifaceLive i = true → s.og 0x42000B ≠ 0 → s.realTimeOn = false →
    s.mem.used.getD i 0 + 1000 * s.og 0x42000B ≤ max s.now t →
    exec (.selfRefreshEntry t i) s = .next ((s.at t).setMem fun m => { m with
      selfRefresh := modAt m.selfRefresh i fun _ => true, postponed := modAt m.postponed i fun _ => 0 })) ∧
  (∀ s t c v, (s.at t).Accepts c 0x4200 9 false (le 1 v) → v < 256 →
    let w := (s.at t).renew c
    (v = 1 → ∀ r pl, r < 16 → w.rung r = some pl → w.demandOk pl 1 = true) →
    exec (.refreshModeWrite t c v) s =
      .next ((((w.os 0x420009 v).setMem fun m => { m with postponed := [0, 0] }).showUsable).answer c .done)) ∧
  (∀ s t c, (s.at t).Accepts c 0x4200 0xD false (le 1 1) → ((s.at t).renew c).og 0x420004 = 1 →
    exec (.fullScrub t c) s = .next ((((s.at t).renew c).startLong 4 28000 0 []).answer c .done)) ∧
  (∀ s t addr who, who.dram = true → s.og 0x420004 = 1 →
    let w := ((((s.at t).count 54).bump 0x42000F).os 0x420010 (addr % 2 ^ 64)).pulse 12
    exec (.dramUncorrectable t addr who) s = .next (w.readerError addr who)) ∧
  (∀ s t addr port bin, exec (.dramUncorrectable t addr (.linseedSram port bin)) s = .next (((s.at t).count 54).binError port bin true)) ∧
  (∀ s t addr e user, exec (.dramUncorrectable t addr (.hazelSram e user)) s = .next (((s.at t).count 54).memoryFault e user)) ∧
  (∀ s t addr n q one, q < 13 →
    exec (.dramUncorrectable t addr (.storage q true)) s = .next (((s.at t).bump 0x420014).count 53) ∧
    exec (.dramUncorrectable t addr (.storage q false)) s = .next ((((s.at t).bump 0x420015).count 54).stageError q) ∧
    exec (.dramUncorrectable t addr (.replay n q one)) s =
      .next (if one then (s.at t).count 53 else ((s.at t).count 54).replayError n q)) ∧
  (∀ s t stall buf,
    let w := (s.at t).bump 0x420011
    let v := w.os 0x42000C (max (w.og 0x42000C) (stall % 2 ^ 32))
    exec (.realTimeOverflow t .burstWriter stall) s =
      .next { v with ch := { v.ch with burst01 := v.ch.burst01.map fun (b : Burst) => { b with truncated := b.truncated || b.begun } } } ∧
    exec (.realTimeOverflow t .linseed stall) s = .next (v.setLin fun l => match l.shots.reverse with
      | sh :: r => { l with shots := r.reverse ++ [{ sh with drop := true }] }
      | [] => { l with discardNext := true }) ∧
    exec (.realTimeOverflow t (.sesame buf) stall) s = .next (((v.bump (ck buf 0x14)).count 83).setCap buf fun k =>
      { k with gap := true, winDrop := true, dropped := k.dropped + 1 }))

/-- The owner of a Cashew bank (R333). Of a write of a client to 0x4201:01 + b that its session lets through to the object, a value other
than 0 or 4 is refused with 0x0609_0030. So is, with 0x0800_0020, a write while the bank holds code 1, 2 or 3, or while the active plan
or the plan of a pending switch names the bank. Every other such write succeeds and the bank then holds exactly the code written; no
refused write changes the code of any bank. -/
def Obligations.BankOwnerCodes : Prop :=
  ∀ (s : State) (t c b v : Nat), (s.at t).Accepts c 0x4201 (b + 1) false (le 1 v) → s.Sound → b < 48 → v < 256 →
    let held := s.og (okey 0x4201 (b + 1))
    let named := (∃ pl, s.activePlan = some pl ∧ pl.bankCode b ≠ 0) ∨
      ∃ w pl, s.lad.switch = some w ∧ s.rung w.rung = some pl ∧ pl.bankCode b ≠ 0
    ∃ u, exec (.bankOwnerWrite t c b v) s = .next u ∧
      (v ≠ 0 ∧ v ≠ 4 → u = ((s.at t).renew c).answer c (.abort 0x06090030)) ∧
      ((v = 0 ∨ v = 4) ∧ ((held ≠ 0 ∧ held ≠ 4) ∨ named) → u = ((s.at t).renew c).answer c (.abort 0x08000020)) ∧
      ((v = 0 ∨ v = 4) ∧ (held = 0 ∨ held = 4) ∧ ¬named → u.og (okey 0x4201 (b + 1)) = v ∧ u.wire.getLast? = some (.answer c .done) ∧
        ∀ d, d ≠ b → d < 48 → u.og (okey 0x4201 (d + 1)) = s.og (okey 0x4201 (d + 1)))

/-- Flax host channels (R358, R360 to R368). FLAX_START of a channel 8 to 15 that is not busy puts it in Waiting at its descriptor
address with fresh counts; FLAX_STOP of a running channel takes effect at its next burst boundary, of a waiting or paused one at once.
FLAX_BURST examines the channels, grants one and moves its burst of at most 256 bytes; DESCRIPTOR_COMPLETE goes on with the next
descriptor, ends the chain at a next field of 0, and ends it at a compare with a mismatch that bit 27 stops. -/
def Obligations.FlaxCommandsComplete : Prop :=
  (∀ s t c ch, (s.at t).Accepts c (0x4310 + ch) 3 false (le 1 1) → 8 ≤ ch →
    let w := (s.at t).renew c
    w.chanBusy ch = false → w.og (flk ch 2) % 64 = 0 →
    exec (.flaxStart t c ch) s = .next ((((((((((w.os (flk ch 1) 1).os (flk ch 4) (w.og (flk ch 2))).os (flk ch 5) 0).os (flk ch 6) 0).os
      (flk ch 7) 0).os (flk ch 8) 0xFFFFFFFFFFFFFFFF).os (flk ch 9) 0).setChan ch fun _ => ⟨[], false, 0, false, false, false⟩)).answer c .done)) ∧
  (∀ s t c ch, (s.at t).Accepts c (0x4310 + ch) 3 false (le 1 2) → 8 ≤ ch →
    let w := (s.at t).renew c
    exec (.flaxStop t c ch) s = .next ((if w.og (flk ch 1) = 2 then w.setChan ch fun f => { f with stop := true }
      else if w.og (flk ch 1) = 1 ∨ w.og (flk ch 1) = 3 then w.chanEnd ch 0 else w).answer c .done)) ∧
  (∀ s t ch, s.pw.power = .ready ∨ s.pw.power = .sensing →
    let w := ((s.at t).examine).grant
    w.granted = some ch →
    let f := w.fchan ch
    let n := f.burstLen (256 / f.esize) f.elem
    (∀ k, k < n → w.spanWaits (f.da (f.elem + k)).toNat f.esize = false ∧ (f.op ≠ 1 → w.spanWaits (f.sa (f.elem + k)).toNat f.esize = false)) →
    exec (.flaxBurst t none 0) s = .next ((if f.op = 1 then w else w.readFixed (f.sa f.elem).toNat 0).moveBurst ch none n f.elem)) ∧
  (∀ s t,
    let ch := s.og 0x430001
    let f := s.fchan ch
    let w := (s.at t).busTouch (s.og (flk ch 4)) 8
    let next := unle (w.busRead (w.og (flk ch 4)) 8)
    ch < 16 → f.loaded = true → f.total ≤ f.elem → ¬(bit f.control 27 = true ∧ f.op = 2 ∧ w.og (flk ch 9) ≠ 0) →
    (next = 0 → exec (.descriptorComplete t) s = .next (w.chanEnd ch 4)) ∧
    (next ≠ 0 → next % 64 = 0 → w.spanFault next 64 false ≠ 3 → exec (.descriptorComplete t) s =
      .next ((w.os (flk ch 4) next).setChan ch fun f => { f with loaded := false, elem := 0 }))) ∧
  (∀ s t,
    let ch := s.og 0x430001
    let f := s.fchan ch
    let w := (s.at t).busTouch (s.og (flk ch 4)) 8
    ch < 16 → f.loaded = true → f.total ≤ f.elem → bit f.control 27 = true → f.op = 2 → w.og (flk ch 9) ≠ 0 →
    exec (.descriptorComplete t) s = .next (w.chanEnd ch 4))

/-- Where the elements of a Flax descriptor lie, and what each does (R361, R362). Element (i0, i1, i2), number i0 + n0·(i1 + n1·i2) in loop
order, lies at source + i0·s0 + i1·s1 + i2·s2 and at destination + i0·t0 + i1·t1 + i2·t2, in exact signed sums. A copy leaves at the
destination what the source held, a fill the pattern, and both leave every other byte of DRAM and Cashew; a compare leaves all of them,
counts a difference and keeps the number of the first element that differs. Each counts its bytes. -/
def Obligations.FlaxElements : Prop :=
  (∀ (f : FlaxChan) (i0 i1 i2 : Nat), i0 < f.n0 → i1 < f.n1 →
    f.sa (i0 + f.n0 * (i1 + f.n1 * i2)) = (f.fieldOf 8 8 : Int) + i0 * fldI f.desc 0x28 4 + i1 * fldI f.desc 0x2C 4 + i2 * fldI f.desc 0x30 4 ∧
    f.da (i0 + f.n0 * (i1 + f.n1 * i2)) =
      (f.fieldOf 0x10 8 : Int) + i0 * fldI f.desc 0x34 4 + i1 * fldI f.desc 0x38 4 + i2 * fldI f.desc 0x3C 4) ∧
  ∀ (s : State) (ch i : Nat), s.Sound → ch < 16 →
    let f := s.fchan ch
    let src := (f.sa i).toNat
    let dst := (f.da i).toNat
    let u := s.moveElem ch i 0
    let differs := s.busRead src f.esize ≠ s.busRead dst f.esize
    (f.op = 0 → u.busRead dst f.esize = s.busRead src f.esize) ∧
    (f.op = 1 → u.busRead dst f.esize = le f.esize (f.fieldOf 8 8)) ∧
    (∀ a, f.op ≤ 1 → a < dst ∨ dst + f.esize ≤ a → u.busRead a 1 = s.busRead a 1) ∧
    (f.op = 2 → u.mem.dram = s.mem.dram ∧ u.mem.cashew = s.mem.cashew ∧
      u.og (flk ch 9) = (if differs then (s.og (flk ch 9) + 1) % 2 ^ 32 else s.og (flk ch 9)) ∧
      u.og (flk ch 8) = (if differs ∧ s.og (flk ch 9) = 0 then i else s.og (flk ch 8))) ∧
    u.og (flk ch 5) = (s.og (flk ch 5) + f.esize) % 2 ^ 64 ∧ (u.fchan ch).elem = i + 1 ∧ u.hz = s.hz

/-- Almond jobs (R371 to R375). JOB_START outside Running and Stopped reads the descriptor into the job; JOB_RESUME of a stopped job gives it a
new list; JOB_ABANDON drops the job, and the next compress job restarts history. JOB_DONE fills the buffers of a compress job and, when
the run is done, keeps its window and reports Done; it stores a state image, or loads one that passes its check; a descriptor fault
reports Failed with its code. -/
def Obligations.JobCommandsComplete : Prop :=
  (∀ s t c, (s.at t).Accepts c 0x4400 2 false (le 1 1) →
    let w := (s.at t).renew c
    w.og 0x440003 ≠ 1 → w.og 0x440003 ≠ 2 →
    let j := w.makeJob (w.og 0x440001)
    exec (.jobStart t c) s = .next ((((((({ w with al := { w.al with
      job := some j, restart := w.al.restart && !(decide (j.kind = 1) && decide (j.fail = 0)) } }.os 0x440003 1).os 0x440004 0).os
      0x440005 0).os 0x440006 0).os 0x440007 0)).answer c .done)) ∧
  (∀ s t c j, (s.at t).Accepts c 0x4400 2 false (le 1 2) → s.al.job = some j →
    let w := (s.at t).renew c
    w.og 0x440003 = 2 →
    exec (.jobResume t c) s = .next ((({ w with al := { w.al with
      job := some { j with listAt := w.og 0x440008, listLeft := w.og 0x440009, bufCap := 0 } } }.os 0x440003 1).os 0x440004 0).answer c .done)) ∧
  (∀ s t c, (s.at t).Accepts c 0x4400 2 false (le 1 3) → s.al.job.isSome = true →
    let w := (s.at t).renew c
    exec (.jobAbandon t c) s =
      .next (({ w with al := { w.al with job := none, restart := true } }.os 0x440003 0).answer c .done)) ∧
  (∀ s t fb j x y, s.al.job = some j → j.kind = 1 → j.fail = 0 →
    let fell := min fb (j.units.countP isMatch)
    let v := ((s.at t).readFixed j.image 0).bump 0x44000A fell
    let k := { j with units := fallBack v.free fell j.units (j.input.drop j.consumed) }
    let w := if fell = 0 then v else { v with free := v.free + k.units.length + 1 }
    s.og 0x440003 = 1 → w.fillBufs (w.stopMode k) k.fuel k = (x, y, .done) →
    exec (.jobDone t false 0 fb) s =
      .next ({ x with al := { x.al with job := none, window := y.after, pos := y.afterPos } }.jobReport y 3 0)) ∧
  (∀ s t fb j, s.al.job = some j → j.kind = 2 → j.fail = 0 →
    let w := ((s.at t).readFixed j.image 0).bump 0x44000A 0
    s.og 0x440003 = 1 →
    let v := w.busWrite j.image w.stateImage
    exec (.jobDone t false 0 fb) s = .next (({ v with free := v.free + 1, al := { v.al with job := none } }).jobReport j 3 0)) ∧
  (∀ s t fb j win p, s.al.job = some j → j.kind ≠ 1 → j.kind ≠ 2 → j.fail = 0 →
    let w := ((s.at t).readFixed j.image 0).bump 0x44000A 0
    s.og 0x440003 = 1 → loadImage (w.busRead j.image 131136) = some (win, p) →
    exec (.jobDone t false 0 fb) s =
      .next ({ w with al := { w.al with job := none, window := win, pos := p, restart := false } }.jobReport j 3 0)) ∧
  (∀ s t fb j, s.al.job = some j → j.fail ≠ 0 →
    let fell := if j.kind = 1 then min fb (j.units.countP isMatch) else 0
    let v := ((s.at t).readFixed j.image 0).bump 0x44000A fell
    let k := { j with units := fallBack v.free fell j.units (j.input.drop j.consumed) }
    let w := if fell = 0 then v else { v with free := v.free + k.units.length + 1 }
    s.og 0x440003 = 1 →
    exec (.jobDone t false 0 fb) s = .next ({ w with al := { w.al with job := none } }.jobReport k 4 j.fail))

/-- Pip (R390, R391, R394, R395, R399 to R401). A trigger of a converter starts its pass, waits behind a running one, or is discarded and
counted; the timer triggers and moves on by its interval; PASS_END counts the retakes and ends the running pass of its converter; an overrun of
converter 0 is counted and repeats the last VIN reading; BLANK_IN takes the pin's level; a write to an RTD's setting acts on later entries, restarts an entry in progress, or keeps the settings of one done; the
reference switches at once when converter 1 is idle; CALIBRATION_START pauses converter 1 and starts long operation 2. -/
def Obligations.HousekeepingCommandsComplete : Prop :=
  (∀ s t, s.coreLive = true → s.pip.run0 = false →
    exec (.converter0Pass t) s = .next ((s.at t).setPip fun p => { p with run0 := true, since0 := max s.now t }).showPip) ∧
  (∀ s t, s.coreLive = true → s.pip.run0 = true → s.pip.pend0 = false →
    exec (.converter0Pass t) s = .next ((s.at t).setPip fun p => { p with pend0 := true }).showPip) ∧
  (∀ s t, s.coreLive = true → s.pip.run0 = true → s.pip.pend0 = true → s.ctl.restarting = false →
    exec (.converter0Pass t) s = .next (((s.at t).bump 0x480011).podAdd s.pod.lastVin s.pod.lastAmp)) ∧
  (∀ s t c, (s.at t).Accepts c 0x4800 7 false (le 1 1) → s.conv1Live = true → s.pip.run1 = false → s.pip.paused1 = false →
    exec (.converter1Pass t c) s = .next ((((s.at t).renew c).setPip fun p =>
      { p with run1 := true, since1 := ((s.at t).renew c).now, restarted := [], off := [], kept := [] }).showPip.answer c .done)) ∧
  (∀ s t c, (s.at t).Accepts c 0x4800 7 false (le 1 1) → s.conv1Live = true → s.pip.run1 = true → s.pip.pend1 = true →
    exec (.converter1Pass t c) s = .next ((((s.at t).renew c).bump 0x48000C).answer c .done)) ∧
  (∀ s t, s.og 0x480005 = 1 → s.pip.nextTimer ≤ max s.now t → s.conv1Live = true → s.pip.run1 = false → s.pip.paused1 = false →
    exec (.converter1Timer t) s = .next ((s.at t).setPip fun p => { p with
      nextTimer := max s.now t + 1000 * s.og 0x480006, run1 := true, since1 := max s.now t, restarted := [], off := [], kept := [] }).showPip) ∧
  (∀ s t rd, s.pip.run0 = true → exec (.passEnd t 0 rd) s =
    .next (((s.at t).bump 0x48000D ((s.at t).retakes rd.tries).1).end0 rd)) ∧
  (∀ s t rd, s.pip.run1 = true → s.pip.paused1 = false → exec (.passEnd t 1 rd) s =
    .next (((s.at t).bump 0x48000D ((s.at t).retakes rd.tries).1).end1 rd)) ∧
  (∀ s t level, exec (.blankIn t level) s =
    .next (((s.at t).setPip fun p => { p with blank := level }).blankEdge)) ∧
  (∀ s t c r sub v ph, (s.at t).Accepts c (0x4820 + r) sub false (le 1 v) → 1 ≤ sub → sub ≤ 3 → v < 256 →
    let w := (s.at t).renew c
    let u := w.os (okey (0x4820 + r) sub) v
    (u.measures r = false ∨ ph = 0 → exec (.rtdSettingWrite t c r sub v ph) s = .next (u.answer c .done)) ∧
    (u.measures r = true → u.rtdOff r = false → exec (.rtdSettingWrite t c r sub v 1) s =
      .next (((u.bump 0x48000E).setPip fun p => { p with restarted := p.restarted ++ [r] }).answer c .done)) ∧
    (u.measures r = true → exec (.rtdSettingWrite t c r sub v 2) s = .next ((u.setPip fun p => { p with
      kept := p.kept ++ [(r, w.og (okey (0x4820 + r) 1), w.og (okey (0x4820 + r) 2), w.og (okey (0x4820 + r) 3))] }).answer c .done))) ∧
  (∀ s t c v, (s.at t).Accepts c 0x4800 3 false (le 1 v) → v < 256 → s.pip.run1 = false → s.pip.ref ≠ v →
    let u := ((s.at t).renew c).os 0x480003 v
    u.og 0x480003 = v →
    exec (.converter1Reference t c v) s =
      .next ((u.setPip fun p => { p with ref := v, settle1 := u.now + if v = 0 then 500000 else 50000 }).answer c .done)) ∧
  (∀ s t c, (s.at t).Accepts c 0x4830 6 false (le 1 1) → exec (.calibrationStart t c) s =
    .next ((((s.at t).renew c).setPip fun p => { p with paused1 := true }).showPip.startLong 2 30000 0 [] |>.answer c .done))

/-- The value of a plain entry of the user sequence (R393). For a kind 0 entry with n = 1 to 256 codes and shift sh, on an input that is
not off, the result holds rhe(sum, sh) as an INTEGER32, the sum of the n codes exact: with 16-bit codes it always fits, so nothing
wraps. For n = 256 and sh = 8 it is the mean code, rounded to even. -/
def Obligations.PlainEntryValue : Prop :=
  ∀ (s : State) (e w : Nat) (rd : EntryReading) (forced : Bool), s.Sound → rd.sense.length ≤ 256 → (∀ c ∈ rd.sense, -32768 ≤ c ∧ c ≤ 32767) →
    s.pw.photonic = true ∨ bits w 15 8 < 8 ∨ 16 < bits w 15 8 →
    let v := fldI ((s.plainEntry e w rd forced).dg (0x480030 + e)) 0 4
    v = rhe (sumI rd.sense) (bits w 39 36) ∧
    (rd.sense.length = 256 → bits w 39 36 = 8 →
      let d := 256 * v - sumI rd.sense
      d ≤ 128 ∧ -128 ≤ d ∧ (d = 128 ∨ d = -128 → v % 2 = 0))

/-- The Darug sides and the enumeration (R406 to R409, R416, R493). A member takes the sender's position plus 1, with its node-ID, and sends
ENUM on; position 8 is taken by none; 20 ms without a downstream lock it is the last and answers ENUM_END, which a member relays and the
head turns into the chain length. A side locks, loses its lock with eight violations, counts a bad message; INJECT marks a member. -/
def Obligations.ChainLinkComplete : Prop :=
  (∀ s t n, s.pw.sensedHead = false → s.linkLive = true → n < 7 →
    ∃ u, exec (.enum t n) s = .next u ∧ u = ((s.at t).takePosition (n + 1)).sendMsg true 1 (n + 2) [byte (n + 1)] ∧
      u.dr.position = n + 1 ∧ u.ctl.nodeId = s.nodeOf (n + 1)) ∧
  (∀ s t n, s.pw.sensedHead = false → s.linkLive = true → 7 ≤ n →
    exec (.enum t n) s = .next (((s.at t).takePosition 0xFF).os 0x4C0006 0)) ∧
  (∀ s t a, s.dr.enumAt = some a → a + 20000000 ≤ max s.now t → s.linkLive = true → s.sideUp true = false → s.position ≠ 0xFF →
    exec (.enumTimeout t) s = .next (if s.pw.sensedHead then ((s.at t).setDr fun d => { d with enumAt := none }).os 0x4C0010 1
      else ((s.at t).setDr fun d => { d with enumAt := none }).sendMsg false 2 0 [byte s.position])) ∧
  (∀ s t p, exec (.enumEnd t p) s = .next (if s.pw.sensedHead then (s.at t).os 0x4C0010 (p % 8 + 1)
    else (s.at t).relay false 2 p 0 [byte p])) ∧
  (∀ s t, s.linkLive = true → s.position ≠ 0xFF →
    exec (.sideLock t true) s = .next (((s.at t).os 0x4C0006 2).sendMsg true 1 (((s.at t).os 0x4C0006 2).position + 1)
      [byte ((s.at t).os 0x4C0006 2).position])) ∧
  (∀ s t, s.linkLive = true → s.pw.sensedHead = false →
    exec (.sideLock t false) s =
      .next ((((s.at t).os 0x4C0005 2).os 0x4C0007 1).setDr fun d => { d with offsets := [], steps := 0 })) ∧
  (∀ s t, s.sideUp true = true →
    exec (.sideFault t true) s = .next ((((s.at t).os 0x4C0006 4).bump 0x4C000C 8).bump 0x4C000D)) ∧
  (∀ s t, s.sideUp false = true → exec (.sideFault t false) s = .next ((((((s.at t).os 0x4C0005 4).bump 0x4C000C 8).bump 0x4C000D).os
      0x4C0007 4).setDr fun d => { d with inject := false, headBoundary := none })) ∧
  (∀ s t down, s.sideUp down = true → exec (.messageCrcError t down) s = .next ((s.at t).bump 0x4C000E)) ∧
  (∀ s t on link action, s.pw.sensedHead = false → s.sideUp false = true → exec (.inject t on link action) s =
    .next (((s.at t).relay true 0x30 0 0xFF [byte on, byte link, byte action]).setDr fun d => { d with inject := decide (on ≠ 0) })) ∧
  (∀ s t, s.pw.sensedHead = false → s.coreLive = true →
    exec (.drgRefiLoss t) s = .next ((s.at t).setDr fun d => { d with refLost := some (d.refLost.getD (max s.now t)) }))

/-- Skew and time over the chain (R410 to R413). MARKER leaves stamped; its arrival is echoed with the turnaround in bins of 62.5 ps; TURN gives
the hop's delay and sends SYNC; a member takes SYNC's delay, rate and time state and corrects its mean offset over 64 exchanges; a phase
step waits 1 µs after the last; 2.5 s without SYNC is state 5; a BOUNDARY is relayed and kept; one off the member's own grid
counts and plans the realignment, one of another period makes the alignment state 3. -/
def Obligations.ChainTimeComplete : Prop :=
  (∀ s t code c1 c2, s.sideUp true = true → s.linkLive = true →
    let x := (s.at t).tdcEdge 5 code c1 c2 true
    exec (.marker t code c1 c2) s = .next ((x.2.2.setDr fun d => { d with markerAt := x.1 }).emit (.marker true))) ∧
  (∀ s t a d, s.pw.sensedHead = false → s.sideUp false = true →
    exec (.markerArrival t a d) s = .next (((((s.at t).capture 4 (max s.now t)).setDr fun r => { r with arrive := a, depart := d }).emit (.marker false)).sendMsg
      false 4 (s.position - 1) (le 4 ((d - a) / 4096)))) ∧
  (∀ s t bins back, s.sideUp true = true →
    let d := oneWay s.dr.markerAt bins back
    let w := (((s.at t).capture 5 (max s.now t)).os 0x4C0009 (d % 2 ^ 32)).os 0x4C0006 3
    exec (.turn t bins back) s = .next (w.sendMsg true 3 (w.position + 1)
      (le 8 s.dr.markerAt ++ le 4 d ++ le 4 (w.og 0x220005) ++ [byte (w.og 0x220003)]))) ∧
  (∀ s t ts delay rate st, s.pw.sensedHead = false → s.sideUp false = true →
    let off := hopOffset s.dr.arrive ts delay
    exec (.sync t ts delay rate st) s = .next (((((((s.at t).os 0x4C0008 (delay % 2 ^ 32)).osI 32 0x220005 rate).os 0x220003
      (st % 256))).setDr fun d => { d with lastSync := max s.now t, stepFrom := max s.now t
                                           offsets := (d.offsets ++ [off]).drop (d.offsets.length + 1 - 64) }).correct.showAlign)) ∧
  (∀ s t, s.dr.steps ≠ 0 → s.dr.stepFrom + 1000 ≤ max s.now t →
    let one : Int := if 0 < s.dr.steps then 1 else -1
    exec (.phaseStep t) s = .next (((s.at t).setDr fun d => { d with
      steps := s.dr.steps - one, stepFrom := max s.now t, offsets := s.dr.offsets.map fun x => x - one * 1024 }).showAlign)) ∧
  (∀ s t, s.pw.sensedHead = false → s.linkLive = true → s.dr.lastSync + 2500000000 ≤ max s.now t →
    exec (.syncLoss t) s = .next ((s.at t).os 0x220003 5)) ∧
  (∀ s t index stamp period pl, s.pw.sensedHead = false → s.sideUp false = true → s.pw.power = .sensing → s.lad.inForce = some pl →
    let w := ((s.at t).relay true 5 0 0xFF (le 8 index ++ le 8 stamp ++ le 4 period)).setDr fun d =>
      { d with headBoundary := some (index, stamp, period, max s.now t) }
    (pl.period ≠ 16 * period → exec (.boundary t index stamp period) s = .next (w.os 0x4C0007 3)) ∧
    (pl.period = 16 * period →
        let v := if w.og 0x4C0007 = 3 then w.os 0x4C0007 1 else w
        let d := wrapS 64 ((s.sw.lastStamp : Int) - stamp)
        (s.sw.lastIndex = index → -65536 ≤ d → d ≤ 65536 → exec (.boundary t index stamp period) s = .next v) ∧
        (¬(s.sw.lastIndex = index ∧ -65536 ≤ d ∧ d ≤ 65536) → s.sw.realign = none →
          exec (.boundary t index stamp period) s = .next { v.bump 0x4C000B with
            sw := { s.sw with realign := some (headNext (v.headGrid index stamp period) s.sw.next) } })))

/-- Loss of the reference and the update grant (R404, R405, R453). A member that waits for its reference gives up after 10 ms with EMCY 0x8110
detail position; one that has run sends it and moves down to Doze; a returned reference ends both and alignment is measured anew. The
head gives the update grant to the member that asks while it is free, refuses otherwise, and takes it back; a member named by the head's
answer holds the grant, and every member relays that answer. -/
def Obligations.ReferenceAndGrantComplete : Prop :=
  (∀ s t x, s.dr.refLost = some x → x + 10000000 ≤ max s.now t → s.pw.sensedHead = false → s.coreLive = true →
    (s.dr.waiting = true → exec (.referenceTimeout t) s = .next
      (((s.at t).setDr fun d => { d with waiting := false }).emcy 0x8110 s.position 0).transitionDone) ∧
    (s.dr.waiting = false → s.pw.power = .ready → s.pw.goal ≠ some .doze →
      exec (.referenceTimeout t) s = .next (((s.at t).emcy 0x8110 s.position 0).moveDown .doze)) ∧
    (s.dr.waiting = false → s.pw.power = .sensing → s.pw.goal ≠ some .doze →
      exec (.referenceTimeout t) s = .next ((((s.at t).emcy 0x8110 s.position 0).chargeTo 11).moveDown .doze))) ∧
  (∀ s t, s.pw.sensedHead = false →
    let w := (s.at t).setDr fun d => { d with refLost := none, waiting := false, offsets := [], steps := 0 }
    let v := if w.og 0x4C0005 = 3 then w.os 0x4C0005 2 else w
    exec (.drgRefiReturn t) s = .next (if v.og 0x4C0007 = 2 then v.os 0x4C0007 1 else v)) ∧
  (∀ s t src give, s.pw.sensedHead = true → s.sideUp true = true → give ≠ 0 →
    (s.dr.grant = none ∨ s.dr.grant = some src → exec (.update t src give) s =
      .next (((s.at t).setDr fun d => { d with grant := some src }).sendMsg true 0x20 0xFF [byte src, 1])) ∧
    (s.dr.grant ≠ none → s.dr.grant ≠ some src → exec (.update t src give) s =
      .next ((s.at t).sendMsg true 0x20 0xFF [byte src, 0]))) ∧
  (∀ s t src, s.pw.sensedHead = true → s.sideUp true = true → s.dr.grant = some src →
    exec (.update t src 0) s = .next ((s.at t).setDr fun d => { d with grant := none })) ∧
  (∀ s t src give, s.pw.sensedHead = false → s.sideUp false = true →
    let w := (s.at t).relay true 0x20 0 0xFF [byte src, byte give]
    exec (.update t src give) s = .next (if src = w.position then
      w.setDr fun d => { d with grant := if give = 0 then none else some src } else w))

/-- Walnut's supervision (R436, R437, R439, R440, R445). A watchdog, a host request and an exception start a restart with their cause: the
long operation fails, the session ends, a prepare fails, injection locks. The restart's end boots the image. A reading of the eight
sensors goes to its objects, with the warning and the critical level judged. The oldest buffered log entry moves to the ring and, within
the severity limit, to q13. LOG_SELECT copies an entry of the ring; LEDGER_RESET clears the counts. -/
def Obligations.SupervisionComplete : Prop :=
  (∀ s t, s.coreLive = true → s.ctl.restarting = false →
    let w := (s.at t).failLong.endSession
    let v := (if w.preparing then w.failPrepare else w).injectLock
    exec (.watchdog t) s = .next { v.os 0x500003 1 with ctl := { v.ctl with restarting := true, restartAt := v.now } } ∧
    exec (.walnutException t) s = .next { v.os 0x500003 4 with ctl := { v.ctl with restarting := true, restartAt := v.now } }) ∧
  (∀ s t c, (s.at t).Accepts c 0x5000 5 false (le 1 1) → s.coreLive = true → s.ctl.restarting = false →
    let w := ((s.at t).renew c).failLong.endSession
    let v := (if w.preparing then w.failPrepare else w).injectLock
    exec (.restartWalnut t c) s =
      .next ({ v.os 0x500003 2 with ctl := { v.ctl with restarting := true, restartAt := v.now } }.answer c .done)) ∧
  (∀ s t, s.ctl.restarting = true → s.coreLive = true → exec (.walnutRestartDone t) s = .next (s.at t).walnutBack) ∧
  (∀ s t temps, s.coreLive = true → s.ctl.restarting = false → temps.length = 8 →
    exec (.temperatureReading t temps) s = .next (((((temps.zipIdx.foldl (fun (s : State) x => s.osI 16 (0x500008 + x.2) x.1)
      (s.at t)).osI 16 0x500010 (hottest temps).2).warnTemp temps)).criticalTemp temps)) ∧
  (∀ s t e rest, s.mg.buffer = e :: rest → s.coreLive = true → s.ctl.restarting = false →
    let w := { s.at t with mg := { s.mg with
      buffer := rest, ring := (if 262144 ≤ s.mg.ring.length then s.mg.ring.drop 128 else s.mg.ring) ++ [e] } }
    exec (.logEntry t) s = .next (if fld e 0x0E 1 ≤ s.og 0x540005 then
      (w.offer 13 { typ := 0x0A, sweep := s.sw.lastIndex, stamp := s.sw.lastStamp, olen := 32, payload := e }).2 else w)) ∧
  (∀ s t c n e, (s.at t).Accepts c 0x5400 3 false (le 4 n) → n < 2 ^ 32 →
    (s.mg.ring.find? fun e => decide (fld e 0 4 = n)) = some e →
    exec (.logSelect t c n) s = .next (((((s.at t).renew c).os 0x540003 n).ds 0x540004 e).answer c .done)) ∧
  (∀ s t c, (s.at t).Accepts c 0x5000 0x23 false (le 1 1) → exec (.ledgerReset t c) s =
    .next ((((s.at t).renew c).settleIdle.setMg fun m =>
      { m with inSpec := 0, outage := 0, ledger := rep 16 0, openOut := [] }).answer c .done))

/-- Acorn (R441 to R443, R508). A measurement stores the monitor's value, its margin and its projection, and warns when the projection falls
below the threshold; an AVS step of 5 mV, at least 10 ms after the last, within 680 to 860 mV, sets the voltage when acknowledged and
waits for one retry when not; the retry sets it or is given up with a log entry; at 860 mV with a margin below 10 % the plan limit moves to
the next lower occupied rung. -/
def Obligations.AcornComplete : Prop :=
  (∀ s t i value, i < 8 → s.mg.monitors.length = 8 → s.coreLive = true → s.ctl.restarting = false →
    let w := s.at t
    let base := Config.acornBaseline i
    let rem := acornLimit i - ((value - base).natAbs : Int)
    let v := w.setMg fun m => { m with monitors := modAt m.monitors i fun a =>
      { a with value := value, readings := (a.readings ++ [(w.devNs, value)]).filter fun r => decide (w.devNs ≤ r.1 + 90 * dayNs) } }
    let new := projection rem (decide (base ≤ value)) (v.mg.monitors.getD i ⟨0, [], 0⟩).readings
    let u := ((v.osI 32 (okey (0x5010 + i) 1) value).os (okey (0x5010 + i) 2) ((max 0 (rdiv (10000 * rem) (acornLimit i))).toNat % 65536)).os
      (okey (0x5010 + i) 3) new
    exec (.acornMeasurement t i value) s = .next ((if u.og (okey (0x5010 + i) 3) < u.og 0x500033 ∧ u.og 0x500033 ≤ v.og (okey (0x5010 + i) 3)
      then u.log 0x0031 2 0 [byte i] else u).acornAct i)) ∧
  (∀ s t up acked,
    let mv := if up then s.og 0x500030 + 5 else s.og 0x500030 - 5
    s.og 0x500032 = 1 → s.coreLive = true → s.ctl.restarting = false → s.mg.avsRetry = none → s.mg.avsLast + 10000000 ≤ max s.now t →
    680 ≤ mv → mv ≤ 860 → (up = true → (s.mg.monitors.getD 0 ⟨0, [], 0⟩).acted + 1000 < (s.mg.monitors.getD 0 ⟨0, [], 0⟩).value) →
    let w := (s.at t).setMg fun m => { m with avsLast := max s.now t }
    exec (.avsStep t up acked) s = .next (if acked then w.setAvs mv else w.setMg fun m => { m with avsRetry := some mv })) ∧
  (∀ s t acked mv, s.mg.avsRetry = some mv → s.mg.avsLast + 10000000 ≤ max s.now t →
    exec (.pmbusRetry t acked) s = .next (if acked then (s.at t).setAvs mv
      else ((s.at t).setMg fun m => { m with avsRetry := none, avsLast := max s.now t }).log 0x0021 2 0 ([0] ++ le 2 (s.og 0x500030)))) ∧
  (∀ s t r, s.og 0x500032 = 1 → s.og 0x500030 = 860 → s.og 0x501002 < 1000 → s.coreLive = true → s.ctl.restarting = false →
    ((List.range (s.og 0x500031)).reverse.find? fun r => (s.rung r).isSome) = some r →
    let w := (s.at t).os 0x500031 r
    exec (.planDerating t) s = .next ((w.setLad fun l => { l with derateDue := decide (r < w.og 0x240001) }).marginAction 0 r))

/-- Images (R451 to R454, R458). A download opens when it is closed or verified and no image is in trial, with the kind and length of that
moment; bytes over CAN FD go to the offset object;
a close starts the read-back, whose end is Verified or Failed with a mask of the wrong segments; an abandon closes it. A verified download
prepares as long operation 5; a prepared image activates as a trial; a trial confirms, which raises the security counter; the trial's
time-out goes back to the other slot; the end of an activation's load brings the warm entry. -/
def Obligations.ImageCommandsComplete : Prop :=
  (∀ s t c, (s.at t).Accepts c 0x5800 2 false (le 1 1) →
    let w := (s.at t).renew c
    w.og 0x580005 = 0 ∨ w.og 0x580005 = 2 → w.recovery = true ∨ (w.inTrial false = false ∧ w.inTrial true = false) →
    exec (.downloadOpen t c) s = .next ((((w.os 0x580005 1).ds 0x580006 (rep 32 0)).setUp fun u => { u with
      kind := w.og 0x580001
      length := min (w.og 0x580003) (areaSize (w.og 0x580001 == 2 && !w.recovery))
      checks := (List.range ((w.dg 0x580004).length / 4)).map fun i => fld (w.dg 0x580004) (4 * i) 4
      erased := [], prepared := none }).answer c .done)) ∧
  (∀ s t c, (s.at t).Accepts c 0x5800 2 false (le 1 2) →
    let w := (s.at t).renew c
    w.og 0x580005 = 1 ∨ w.og 0x580005 = 3 → exec (.downloadClose t c) s = .next ((w.os 0x580005 4).answer c .done)) ∧
  (∀ s t c, (s.at t).Accepts c 0x5800 2 false (le 1 3) → exec (.downloadAbandon t c) s =
    .next (((((s.at t).renew c).os 0x580005 0).setUp fun u => { u with checks := [], erased := [], prepared := none }).answer c .done)) ∧
  (∀ s t c data, (s.at t).Accepts c 0x5800 8 true data →
    let w := (s.at t).renew c
    w.og 0x580005 = 1 ∨ w.og 0x580005 = 3 → w.og 0x580007 + data.length ≤ w.up.length →
    exec (.canFdData t c data) s = .next ((w.programImage (w.og 0x580007) data).answer c .done)) ∧
  (∀ s t, s.og 0x580005 = 4 →
    let n := s.up.length
    let bad := (List.range (ceilDiv n 65536)).filter fun k =>
      !(s.up.checks[k]? == some (crc32c (segmentBytes (s.area s.targetArea) n k)))
    exec (.downloadVerifyEnd t) s = .next (((((s.at t).os 0x580005 (if bad.isEmpty then 2 else 3)).ds 0x580006
      (le 32 (bad.foldl (fun v k => setBit v k) 0))).os 0x58000C (if bad.isEmpty then 0 else 1)).setUp fun u =>
        { u with erased := u.erased.filter fun k => !bad.contains k })) ∧
  (∀ s t c, (s.at t).Accepts c 0x5800 9 false (le 1 1) →
    let w := (s.at t).renew c
    w.og 0x580005 = 2 → w.pw.sensedHead = true →
    exec (.imagePrepare t c) s = .next ((w.startLong 5 10000 (w.og 0x580001) (w.area w.targetArea)).answer c .done)) ∧
  (∀ s t c, (s.at t).Accepts c 0x5800 0xA false (le 1 1) →
    let w := (s.at t).renew c
    let data := w.kindData
    w.recovery = false → w.up.prepared.isSome = true →
    let x := (w.writeBoot fun b => b.set data ((w.bootControl.slot data + 1) % 2) 0).os 0x580005 0
    let v := x.setUp fun u => { u with prepared := none, confirmBy := some (x.now + 1000000000 * x.og 0x58000D) }
    w.inChain = false → exec (.activate t c) s = .next ((if data then v.takeImage else v.restartWalnut 3).answer c .done)) ∧
  (∀ s t c, (s.at t).Accepts c 0x5800 0xB false (le 1 1) →
    let w := (s.at t).renew c
    w.inTrial false = false → w.inTrial true = true →
    let v := { w with board := { w.board with dataCounter := max w.board.dataCounter (w.imgSecurity (w.activeArea true)) } }
    exec (.confirm t c) s = .next (((v.writeBoot fun b => b.set true (b.slot true) 0xFF).returnGrant.setUp fun u =>
      { u with confirmBy := none }).answer c .done)) ∧
  (∀ s t d, s.up.confirmBy = some d → d ≤ max s.now t → s.coreLive = true → s.inTrial false = false → s.inTrial true = true →
    exec (.confirmTimeout t) s = .next ((((((s.at t).writeBoot fun b => b.set true ((b.slot true + 1) % 2) 0xFF).os 0x58000C 9).returnGrant).setUp
      fun u => { u with confirmBy := none }).takeImage)) ∧
  (∀ s t, s.up.pausing = true → s.pw.power = .ready → s.pw.shutting = true → s.sw.flights = [] →
    exec (.activationLoadEnd t) s = .next
      ((((s.at t).setUp fun u => { u with pausing := false }).setPw fun w => { w with shutting := false }).loadLibrary.holdLoops.onward))

/-- Unlocking injection (R485). Injection starts locked: right after power-up 0x5E00:02 reads 0. Any write to 0x5E00:01 that its client's
session lets through to the object is answered at once: 0xC4A5 with success, after which 0x5E00:02 reads 1 where it read 0, and nothing
but the session's lease changes in state 1 or 2; any other value with abort 0x0609_0030, and the state does not change. -/
def Obligations.InjectionUnlock : Prop :=
  State.reset.og 0x5E0002 = 0 ∧
  ∀ (s : State) t c v, (s.at t).Accepts c 0x5E00 1 false (le 2 v) → v < 2 ^ 16 →
    let w := (s.at t).renew c
    exec (.registerWrite t c 0x5E00 1 (le 2 v)) s = .next
      (if v = 0xC4A5 then (if s.og 0x5E0002 = 0 then w.os 0x5E0002 1 else w).answer c .done else w.answer c (.abort 0x06090030)) ∧
    (v = 0xC4A5 → exec (.unlock t c) s = exec (.registerWrite t c 0x5E00 1 (le 2 v)) s) ∧
    (s.Sound → ∃ u, exec (.registerWrite t c 0x5E00 1 (le 2 v)) s = .next u ∧
      u.og 0x5E0002 = if v = 0xC4A5 ∧ s.og 0x5E0002 = 0 then 1 else s.og 0x5E0002)

/-- Pod (R424, R426, R428 to R432). POD_SECOND moves the second's debit and the hour's income through the balance under its cap and judges it;
INCOME_CREDIT and BALANCE_WRITE change the balance, judge it and let Walnut choose again; MANAGED_OPERATION needs the automatic ladder mode;
RUNG_CHOICE, when the rung chosen is the active one and no switch is pending, shows it and ends the duty cycle; ENERGY_REFINE, a whole minute on, moves the active
rung's figure by a sixteenth of its error against the mean of the minute's passes; ON_TIME_END ends Sensing for the rest of the cycle. -/
def Obligations.PodCommandsComplete : Prop :=
  (∀ s t, s.coreLive = true → s.ctl.restarting = false →
    ∃ u : State, exec (.podSecond t) s = .next u.podJudge ∧
      (∀ credit b : Int, credit = (if s.og 0x210009 = 0 then (incomeOf (s.dg 0x210006) ((s.at t).podTod / hourNs) : Int) else 0) →
        b = min (s.og 0x210004 : Int) (s.pod.balance + credit - s.pod.fj / 1000000000) →
        -(2 ^ 63 : Int) ≤ b → b < 2 ^ 63 → u.pod.balance = b) ∧
      u.pod.fj = s.pod.fj % 1000000000 ∧ u.pod.secondSum = 0 ∧ u.pod.secondPasses = 0) ∧
  (∀ s t c uj, (s.at t).Accepts c 0x2100 8 false (le 8 uj) → uj < 2 ^ 64 →
    exec (.incomeCredit t c uj) s = .next (((((s.at t).renew c).post uj 0).podJudge.rechoose).answer c .done)) ∧
  (∀ s t c uj, (s.at t).Accepts c 0x2100 3 false (le 8 (toU 64 uj)) → -(2 ^ 63 : Int) ≤ uj → uj < 2 ^ 63 →
    exec (.balanceWrite t c uj) s = .next ((((((s.at t).renew c).setPod fun p => { p with balance := uj }).osBit 0x210014 3 false).setPod
      fun p => { p with unknown := false }).podJudge.rechoose.answer c .done)) ∧
  (∀ s t c, (s.at t).Accepts c 0x2100 2 false (le 1 1) → ((s.at t).renew c).og 0x240004 = 1 →
    exec (.managedOperation t c) s =
      .next ((((((s.at t).renew c).os 0x210002 1).osBit 0x210014 0 true).rechoose).answer c .done)) ∧
  (∀ s t r, s.og 0x210001 = 1 → s.og 0x240004 = 1 → s.ctl.restarting = false → s.coreLive = true → s.mg.critical = false →
    s.og 0x210002 = 0 → (s.at t).choose = .continuous r → s.lad.switch = none → s.og 0x240001 = r →
    exec (.rungChoice t) s = .next (((((s.at t).os 0x210015 r).os 0x210016 0).os 0x210017 0).setPod fun p => { p with cycle := none })) ∧
  (∀ s t (mean : Nat) since sum n, s.pod.minute = (since, sum, n) → s.pw.power = .sensing → s.ctl.restarting = false →
    since + 60000000000 ≤ max s.now t →
    let r := s.og 0x240001
    let m : Int := if n = 0 then mean else meanPower sum n
    exec (.energyRefine t mean) s =
      .next (((s.at t).os (okey 0x2101 (r + 1)) (toU 32 ((s.power r : Int) + rhe (m - s.power r) 4))).setPod fun p =>
        { p with minute := (since + 60000000000, 0, 0) })) ∧
  (∀ s t w0 a first, s.pod.cycle = some (w0, a, some first) → s.pw.power = .sensing → s.pw.stopWanted = false →
    first + 1000000 * a ≤ max s.now t →
    exec (.onTimeEnd t) s = .next ((s.at t).unintend.moveDown (if s.sleepsDormant a then .dormant else .doze)))

/-- The control node (R120, R305, R468 to R473, R475, R476, R484 to R486, R292, R306). A read of an object that the tables let pass
answers its value, or opens a transfer, and of an absent family answers zero; a write has the effect of its object; a lapsed lease ends the session and a late transfer is aborted. A
heartbeat leaves while the node is on the bus with a period set; the oldest waiting EMCY leaves after the inhibit time. A long
operation shows its progress and ends. Injection unlocks, starts and stops; a mask written clears overrun bits. -/
def Obligations.NodeCommandsComplete : Prop :=
  (∀ s t c idx sub o, (s.at t).served = true → (s.at t).gate c = none →
    let w := (s.at t).renew c
    w.locate idx sub = .ok o →
    (∀ seg, w.absent idx = true →
      exec (.usdoRequest t c (.read idx sub seg)) s = .next (w.answer c (.value (rep o.ty.size 0)))) ∧
    (s.ctl.transfer = none → w.absent idx = false → o.acc ≠ .wo → o.ty.size ≠ 0 →
      exec (.usdoRequest t c (.read idx sub false)) s =
        .next ((w.readObject idx sub o).2.answer c (.value (w.readObject idx sub o).1))) ∧
    (s.ctl.transfer = none → w.absent idx = false → o.acc ≠ .wo → o.ty.size = 0 →
      exec (.usdoRequest t c (.read idx sub true)) s =
        .next (((w.readObject idx sub o).2.openTransfer idx sub false (w.readObject idx sub o).1).answer c .more))) ∧
  (∀ s t c, (s.at t).served = true → (s.at t).gate c = none → s.ctl.transfer = none →
    let w := (s.at t).renew c
    (∀ o, w.locate 0x2200 0xB = .ok o → o.acc ≠ .wo → o.ty.size ≠ 0 → exec (.latestBoundaryRead t c) s =
      .next ((w.readObject 0x2200 0xB o).2.answer c (.value (w.readObject 0x2200 0xB o).1))) ∧
    (∀ o, w.locate 0x5F00 2 = .ok o → o.acc ≠ .wo → o.ty.size = 0 → exec (.snapshotRead t c) s =
      .next (((w.readObject 0x5F00 2 o).2.openTransfer 0x5F00 2 false (w.readObject 0x5F00 2 o).1).answer c .more))) ∧
  (∀ s t c idx sub b u, (s.at t).Accepts c idx sub (segmentedKind idx sub) b →
    writeEffect idx sub b ((s.at t).renew c) = .ok u → exec (.registerWrite t c idx sub b) s = .next (u.answer c .done)) ∧
  (∀ s t, s.og 0x200009 ≠ 0 → s.ctl.longOp = none → s.ctl.lease ≤ max s.now t →
    exec (.leaseLapse t) s = .next (s.at t).endSession) ∧
  (∀ s t x, s.ctl.transfer = some x → x.deadline ≤ max s.now t →
    (s.at t).served = true → exec (.transferTimeout t) s =
    .next ({ s.at t with ctl := { s.ctl with transfer := none } }.answer (s.og 0x200009) (.abort 0x05040000))) ∧
  (∀ s t x, s.ctl.transfer = some x → x.deadline ≤ max s.now t → (s.at t).served = false →
    exec (.transferTimeout t) s = .next { s.at t with ctl := { s.ctl with transfer := none } }) ∧
  (∀ s t, s.onBus = true → s.og 0x101700 ≠ 0 → exec (.heartbeat t) s =
    .next { (s.at t).emit (.heartbeat (s.at t).heartbeatBytes) with
      ctl := { s.ctl with heartbeats := (s.ctl.heartbeats + 1) % 65536 } }) ∧
  (∀ s t e r, s.ctl.waiting = e :: r → s.onBus = true → s.pw.nmtStopped = false → s.ctl.emcyFrom ≤ max s.now t →
    exec (.emcy t) s = .next { (s.at t).emit (.emcy (le 2 e.code ++ [byte (s.og 0x100100), byte e.detail] ++ le 4 e.argument)) with
      ctl := { s.ctl with waiting := r, emcyFrom := max s.now t + 100000 * s.og 0x101500 } }) ∧
  (∀ s t out o, s.ctl.longOp = some o →
    exec (.longOperationEnd t out) s = .next (((s.at t).finishLong o out).2.endLong ((s.at t).finishLong o out).1)) ∧
  (∀ s t o, s.ctl.longOp = some o →
    ∃ p, o.progress ≤ p ∧ (o.progress ≤ 99 → p ≤ 99) ∧ exec (.statusRecord t) s =
      .next (({ s.at t with ctl := { s.ctl with longOp := some { o with progress := p } } }.os 0x200006 p).statusNow)) ∧
  (∀ s t c mask, (s.at t).Accepts c 0x4000 3 false (le 2 mask) → mask < 65536 → exec (.overrunClear t c mask) s =
    .next ((((s.at t).renew c).os 0x400002 (clearBits (((s.at t).renew c).og 0x400002) mask)).answer c .done)) ∧
  (∀ s t c, (s.at t).Accepts c 0x5E00 1 false (le 2 0xC4A5) → ((s.at t).renew c).og 0x5E0002 = 0 →
    exec (.unlock t c) s = .next ((((s.at t).renew c).os 0x5E0002 1).answer c .done)) ∧
  (∀ s t c, (s.at t).Accepts c 0x5E00 7 false (le 1 1) → ((s.at t).renew c).og 0x5E0002 = 1 →
    exec (.injectionStart t c) s = .next (({ ((s.at t).renew c).os 0x5E0002 2 with
      inj := { s.inj with x := 0x2545F491 } }.injectTell true).answer c .done)) ∧
  (∀ s t c, (s.at t).Accepts c 0x5E00 7 false (le 1 2) → ((s.at t).renew c).og 0x5E0002 = 2 →
    exec (.injectionStop t c) s = .next (((((s.at t).renew c).os 0x5E0002 1).injectTell false).answer c .done))
end

