-- ==== Sys2Proof/Laws/Forms.lean ====
section
/-! SUPPORT. How the relation Kept of Safety.lean goes through the forms that the model's definitions are written in, and the
canonical form of a sparse table under each of its operations. -/

namespace Sys2Proof.Machine

open Sys2Proof

/-! ## Sparse tables -/

theorem swfFrom_mono {α : Type} [DecidableEq α] (d : Nat → α) {lo lo' : Nat} (hle : lo' ≤ lo) :
    ∀ l : List (Nat × α), swfFrom d lo l = true → swfFrom d lo' l = true
  | [], _ => rfl
  | (a, v) :: r, h => by
    simp only [swfFrom, Bool.and_eq_true, decide_eq_true_eq] at h ⊢
    exact ⟨⟨Nat.le_trans hle h.1.1, h.1.2⟩, h.2⟩

theorem swfFrom_sput {α : Type} [DecidableEq α] (d : Nat → α) (k : Nat) (v : α) :
    ∀ (l : List (Nat × α)) (lo : Nat), lo ≤ k → swfFrom d lo l = true → swfFrom d lo (sput d l k v) = true
  | [], lo, hk, _ => by
    simp only [sput]; split
    · rfl
    · simp_all [swfFrom]
  | (a, w) :: r, lo, hk, h => by
    simp only [swfFrom, Bool.and_eq_true, decide_eq_true_eq] at h
    simp only [sput]
    split
    · split
      · simp_all [swfFrom]
      · simp only [swfFrom, Bool.and_eq_true, decide_eq_true_eq]
        exact ⟨⟨hk, ‹_›⟩, ⟨⟨by omega, h.1.2⟩, h.2⟩⟩
    · split
      · subst k
        split
        · exact swfFrom_mono d (by omega) r h.2
        · simp only [swfFrom, Bool.and_eq_true, decide_eq_true_eq]
          exact ⟨⟨hk, ‹_›⟩, h.2⟩
      · simp only [swfFrom, Bool.and_eq_true, decide_eq_true_eq]
        exact ⟨⟨h.1.1, h.1.2⟩, swfFrom_sput d k v r (a + 1) (by omega) h.2⟩

/-- Every write keeps the canonical form. -/
theorem swf_sput {α : Type} [DecidableEq α] (d : Nat → α) (l : List (Nat × α)) (k : Nat) (v : α) (h : swf d l = true) :
    swf d (sput d l k v) = true := swfFrom_sput d k v l 0 (Nat.zero_le k) h

theorem swfFrom_filter {α : Type} [DecidableEq α] (d : Nat → α) (p : Nat × α → Bool) :
    ∀ (l : List (Nat × α)) (lo : Nat), swfFrom d lo l = true → swfFrom d lo (l.filter p) = true
  | [], _, _ => rfl
  | (a, v) :: r, lo, h => by
    simp only [swfFrom, Bool.and_eq_true, decide_eq_true_eq] at h
    have ih := swfFrom_filter d p r (a + 1) h.2
    simp only [List.filter_cons]
    split
    · simp only [swfFrom, Bool.and_eq_true, decide_eq_true_eq]
      exact ⟨h.1, ih⟩
    · exact swfFrom_mono d (by omega) _ ih

/-- Dropping entries keeps the canonical form. -/
theorem swf_filter {α : Type} [DecidableEq α] (d : Nat → α) (p : Nat × α → Bool) (l : List (Nat × α)) (h : swf d l = true) :
    swf d (l.filter p) = true := swfFrom_filter d p l 0 h

theorem swf_memWrite : ∀ (b : List Byte) (m : List Host.Cell) (a : Nat), Memory.wf m = true → Memory.wf (memWrite m a b) = true
  | [], _, _, h => h
  | _ :: r, _, _, h => swf_memWrite r _ _ (swf_sput _ _ _ _ h)

theorem swf_memClear (m : List Host.Cell) (a n : Nat) (h : Memory.wf m = true) : Memory.wf (memClear m a n) = true :=
  swf_filter _ _ _ h

theorem swf_nil {α : Type} [DecidableEq α] (d : Nat → α) : swf d [] = true := rfl

@[simp] theorem length_modAt {α : Type} (l : List α) (i : Nat) (f : α → α) : (modAt l i f).length = l.length := by simp [modAt]

@[simp] theorem length_rep {α : Type} (n : Nat) (a : α) : (rep n a).length = n := by simp [rep]

/-! ## Forms -/

theorem Kept.self {s : State} (h : s.Sound) : Kept s s := ⟨h, rfl, rfl, Nat.le_refl _, Nat.le_refl _⟩

/-- All that Kept speaks of. -/
def State.core (s : State) :=
  ((s.objects, s.domains, s.mem.dram, s.mem.cashew, s.hz.local_, s.hz.prog),
    (s.lad.rungs.length, s.opt.ports.length, s.das.ports.length, s.pop.ports.length, s.hz.engines.length),
    (s.ses.zones.length, s.ses.seqs.length, s.caps.length, s.qu.qs.length, s.fx.chans.length, s.ln.tx.length, s.ln.rx.length),
    (s.ctl.waiting.length, s.mg.buffer.length), s.pending, s.board)

/-- A state that differs in nothing Kept speaks of. -/
theorem Kept.congr {r s t : State} (h : Kept r s) (e : t.core = s.core) : Kept r t := by
  simp only [State.core, Prod.mk.injEq] at e
  obtain ⟨⟨h1, h2, h3, h4, h5, h6⟩, ⟨h7, h8, h9, h10, h11⟩, ⟨h12, h13, h14, h15, h16, h17, h18⟩, ⟨h19, h20⟩, h21, h22⟩ := e
  refine ⟨⟨?_, ?_, ?_, ?_, ?_, ?_, ?_, ?_, ?_, ?_, ?_, ?_, ?_, ?_, ?_, ?_, ?_, ?_, ?_, ?_⟩, ?_, ?_, ?_, ?_⟩
  · rw [h1]; exact h.objects
  · rw [h2]; exact h.domains
  · rw [h3]; exact h.dram
  · rw [h4]; exact h.cashew
  · rw [h5]; exact h.data
  · rw [h6]; exact h.program
  · rw [h7]; exact h.rungs
  · rw [h8]; exact h.optics
  · rw [h9]; exact h.das
  · rw [h10]; exact h.poppy
  · rw [h11]; exact h.engines
  · rw [h12]; exact h.zones
  · rw [h13]; exact h.seqs
  · rw [h14]; exact h.captures
  · rw [h15]; exact h.queues
  · rw [h16]; exact h.flax
  · rw [h17]; exact h.tx
  · rw [h18]; exact h.rx
  · rw [h19]; exact h.emcy
  · rw [h20]; exact h.log
  · rw [h21]; exact h.pending
  · rw [h22]; exact h.fixed
  · rw [h22]; exact h.walnut
  · rw [h22]; exact h.data_

/-- Kept of any state with this core. -/
def KeptCore (r : State) (objects : List (Nat × Nat)) (domains : List (Nat × List Byte)) (dram cashew data program : Mem)
    (rungs optics das poppy engines zones seqs captures queues flax tx rx emcy log : Nat) (pending : List Instr) (board : Board) :
    Prop :=
  ∀ t : State, t.core = ((objects, domains, dram, cashew, data, program), (rungs, optics, das, poppy, engines),
    (zones, seqs, captures, queues, flax, tx, rx), (emcy, log), pending, board) → Kept r t

/-- A state given field by field. -/
theorem Kept.lit {r : State} {pending : List Instr} {now free : Nat} {objects : List (Nat × Nat)}
    {domains : List (Nat × List Byte)} {wire : List Wire} {board : Board} {pw : Power} {ctl : Control} {mg : Manage} {lad : Ladder}
    {sw : Sweep} {opt : Optics} {ch : Chestnut} {das : Das} {pop : Poppy} {lin : Linseed} {hz : Hazel} {ses : Sesame}
    {caps : List Capture} {sun : Sunflower} {qu : Queues} {ln : Lanes} {mem : Memory} {fx : Flax} {al : Almond} {tb : TimeBase}
    {pip : Pip} {dr : Darug} {pod : Pod} {up : Update} {inj : Inject} :
    Kept r ⟨pending, now, free, objects, domains, wire, board, pw, ctl, mg, lad, sw, opt, ch, das, pop, lin, hz, ses,
      caps, sun, qu, ln, mem, fx, al, tb, pip, dr, pod, up, inj⟩ ↔
    KeptCore r objects domains mem.dram mem.cashew hz.local_ hz.prog lad.rungs.length opt.ports.length das.ports.length
      pop.ports.length hz.engines.length ses.zones.length ses.seqs.length caps.length qu.qs.length fx.chans.length ln.tx.length
      ln.rx.length ctl.waiting.length mg.buffer.length pending board :=
  ⟨fun h _ e => h.congr e, fun h => h _ rfl⟩

/-- A core that is a former state's. -/
theorem KeptCore.of {r s : State} {dram cashew data program : Mem}
    {rungs optics das poppy engines zones seqs captures queues flax tx rx emcy log : Nat} (h : Kept r s)
    (e1 : dram = s.mem.dram) (e2 : cashew = s.mem.cashew) (e3 : data = s.hz.local_) (e4 : program = s.hz.prog)
    (e5 : rungs = s.lad.rungs.length) (e6 : optics = s.opt.ports.length) (e7 : das = s.das.ports.length)
    (e8 : poppy = s.pop.ports.length) (e9 : engines = s.hz.engines.length) (e10 : zones = s.ses.zones.length)
    (e11 : seqs = s.ses.seqs.length) (e12 : captures = s.caps.length) (e13 : queues = s.qu.qs.length)
    (e14 : flax = s.fx.chans.length) (e15 : tx = s.ln.tx.length) (e16 : rx = s.ln.rx.length)
    (e17 : emcy = s.ctl.waiting.length) (e18 : log = s.mg.buffer.length) :
    KeptCore r s.objects s.domains dram cashew data program rungs optics das poppy engines zones seqs captures queues flax tx rx
      emcy log s.pending s.board := by
  subst e1 e2 e3 e4 e5 e6 e7 e8 e9 e10 e11 e12 e13 e14 e15 e16 e17 e18
  exact fun _ e => h.congr e

/-- A core with a former state's objects, queue and board, and sound units. -/
theorem KeptCore.units {r s : State} {dram cashew data program : Mem}
    {rungs optics das poppy engines zones seqs captures queues flax tx rx emcy log : Nat} (h : Kept r s)
    (e1 : Memory.wf dram = true) (e2 : Memory.wf cashew = true) (e3 : Memory.wf data = true) (e4 : Memory.wf program = true)
    (e5 : rungs = 16) (e6 : optics = 4) (e7 : das = 4) (e8 : poppy = 4) (e9 : engines = 12) (e10 : zones = 256) (e11 : seqs = 4)
    (e12 : captures = 8) (e13 : queues = 16) (e14 : flax = 16) (e15 : tx = 8) (e16 : rx = 2) (e17 : emcy ≤ 8) (e18 : log ≤ 256) :
    KeptCore r s.objects s.domains dram cashew data program rungs optics das poppy engines zones seqs captures queues flax tx rx
      emcy log s.pending s.board := by
  intro t e
  simp only [State.core, Prod.mk.injEq] at e
  obtain ⟨⟨h1, h2, h3, h4, h5, h6⟩, ⟨h7, h8, h9, h10, h11⟩, ⟨h12, h13, h14, h15, h16, h17, h18⟩, ⟨h19, h20⟩, h21, h22⟩ := e
  exact {
    objects := h1 ▸ h.objects, domains := h2 ▸ h.domains, dram := h3 ▸ e1, cashew := h4 ▸ e2, data := h5 ▸ e3
    program := h6 ▸ e4, rungs := h7.trans e5, optics := h8.trans e6, das := h9.trans e7, poppy := h10.trans e8
    engines := h11.trans e9, zones := h12.trans e10, seqs := h13.trans e11, captures := h14.trans e12
    queues := h15.trans e13, flax := h16.trans e14, tx := h17.trans e15, rx := h18.trans e16
    emcy := h19 ▸ e17, log := h20 ▸ e18, pending := h21 ▸ h.pending, fixed := h22 ▸ h.fixed, walnut := h22 ▸ h.walnut
    data_ := h22 ▸ h.data_ }

/-- An anti-rollback counter is only ever raised (R449). -/
theorem Kept.raiseData {r s : State} (h : Kept r s) (n : Nat) :
    Kept r { s with board := { s.board with dataCounter := max s.board.dataCounter n } } :=
  { h with data_ := Nat.le_trans h.data_ (Nat.le_max_left _ _) }

theorem Kept.raiseWalnut {r s : State} (h : Kept r s) (n : Nat) :
    Kept r { s with board := { s.board with walnutCounter := max s.board.walnutCounter n } } :=
  { h with walnut := Nat.le_trans h.walnut (Nat.le_max_left _ _) }

/-- A Core power-up puts every object at its default. -/
theorem Kept.noObjects {r s : State} (h : Kept r s) : Kept r { s with objects := [], domains := [] } :=
  { h with objects := rfl, domains := rfl }

theorem Kept.cut {r x : State} {p : Prop} (h : Kept r x) (k : Kept r x → p) : p := k h

theorem Kept.ite {r a b : State} {c : Prop} [Decidable c] (ha : Kept r a) (hb : Kept r b) : Kept r (if c then a else b) := by
  split <;> assumption

theorem Kept.ite_snd {α : Type} {r : State} {a b : α × State} {c : Prop} [Decidable c] (ha : Kept r a.2) (hb : Kept r b.2) :
    Kept r (if c then a else b).2 := by
  split <;> assumption

theorem KeptE.ite {r : State} {a b : Except Nat State} {c : Prop} [Decidable c] (ha : KeptE r a) (hb : KeptE r b) :
    KeptE r (if c then a else b) := by
  split <;> assumption

theorem KeptP.ite {r : State} {a b : Option State} {c : Prop} [Decidable c] (ha : KeptP r a) (hb : KeptP r b) :
    KeptP r (if c then a else b) := by
  split <;> assumption

theorem KeptP.some {r s : State} (h : Kept r s) : KeptP r (some s) := fun _ e => by cases e; exact h

theorem KeptP.none {r : State} : KeptP r none := fun _ e => by cases e

theorem Kept.getD {r s : State} {o : Option State} (ho : KeptP r o) (h : Kept r s) : Kept r (o.getD s) := by
  cases o with
  | none => exact h
  | some t => exact ho t rfl

/-- The state that an optional effect gives, known by an equation. -/
theorem Kept.ofP {r s : State} {o : Option State} (h : o = .some s) (k : KeptP r o) : Kept r s := k s h

theorem KeptO.ite {r : State} {a b : Host.Outcome State Fault Refusal} {c : Prop} [Decidable c] (ha : KeptO r a) (hb : KeptO r b) :
    KeptO r (if c then a else b) := by
  split <;> assumption

theorem KeptE.ok {r s : State} (h : Kept r s) : KeptE r (.ok s) := fun _ e => by cases e; exact h

theorem KeptE.error {r : State} (n : Nat) : KeptE r (.error n) := fun _ e => by cases e

theorem KeptO.next {r s : State} (h : Kept r s) : KeptO r (.next s) := ⟨s, rfl, h⟩

/-- The state that an effect gives, known by an equation. -/
theorem Kept.ofE {r s : State} {e : Except Nat State} (h : e = .ok s) (k : KeptE r e) : Kept r s := k s h

/-- The second of a pair known by an equation. -/
theorem Kept.snd {α : Type} {r s : State} {a : α} {p : α × State} (h : p = (a, s)) (k : Kept r p.2) : Kept r s := by
  subst h; exact k

theorem Kept.fst {α : Type} {r s : State} {a : α} {p : State × α} (h : p = (s, a)) (k : Kept r p.1) : Kept r s := by
  subst h; exact k

theorem Kept.foldl {α : Type} {r : State} {f : State → α → State} (hf : ∀ s x, Kept r s → Kept r (f s x)) :
    ∀ (l : List α) {s : State}, Kept r s → Kept r (l.foldl f s)
  | [], _, h => h
  | x :: l, _, h => Kept.foldl hf l (hf _ x h)

end Sys2Proof.Machine
end

