-- ==== Sys2Proof/Laws/KeptOps.lean ====
section
/-! SUPPORT. What Kept of Safety.lean says of each function of the model:
the shared operations, the link, shadows, optics and queues. -/

namespace Sys2Proof.Machine

open Sys2Proof

set_option linter.unusedSimpArgs false
set_option linter.unusedVariables false

/-! ## Ops -/

theorem State.os_kept {r s : State} (h : Kept r s) (k v : Nat) : Kept r (s.os k v) :=
  { h with objects := swf_sput _ _ _ _ h.objects }

theorem State.osI_kept {r s : State} (h : Kept r s) (w : Nat) (k : Nat) (v : Int) : Kept r (State.osI s w k v) := by
  unfold State.osI
  repeat' (first
    | with_reducible first | assumption | apply State.os_kept)

theorem State.bump_kept {r s : State} (h : Kept r s) (k : Nat) (n : Nat) : Kept r (State.bump s k n) := by
  unfold State.bump
  repeat' (first
    | with_reducible first | assumption | apply State.os_kept)

theorem State.ds_kept {r s : State} (h : Kept r s) (k : Nat) (b : List Byte) : Kept r (s.ds k b) :=
  { h with domains := swf_sput _ _ _ _ h.domains }

theorem State.osBit_kept {r s : State} (h : Kept r s) (k : Nat) (i : Nat) (on : Bool) :
    Kept r (State.osBit s k i on) := by
  unfold State.osBit
  repeat' (first
    | with_reducible first | assumption | apply Kept.ite | apply State.os_kept
    | (extract_lets +onlyGivenNames x
       first
       | (refine Kept.cut (r := r) (x := x) ?_ ?_ <;> first | (clear_value x; intro hx) | subst x)
       | subst x)
    | split
    | dsimp only)

theorem State.at_kept {r s : State} (h : Kept r s) (t : Nat) : Kept r (State.at s t) := by
  unfold State.at
  repeat' (first
    | with_reducible first | assumption | apply Kept.ite | apply Kept.ite_snd | refine Kept.snd ‹_ = (_, _)› ?_ | rfl
    | (simp only [Kept.lit]; with_reducible apply KeptCore.of)
    | (extract_lets +onlyGivenNames x
       first
       | (refine Kept.cut (r := r) (x := x) ?_ ?_ <;> first | (clear_value x; intro hx) | subst x)
       | subst x)
    | split
    | dsimp only
    | rfl)

theorem State.draw_kept {r s : State} (h : Kept r s) (n : Nat) : Kept r (State.draw s n).2 := by
  unfold State.draw
  repeat' (first
    | with_reducible first | assumption | refine Kept.snd ‹_ = (_, _)› ?_ | rfl
    | (simp only [Kept.lit]; with_reducible apply KeptCore.of)
    | dsimp only
    | rfl)

theorem State.garble_kept {r s : State} (h : Kept r s) (l : List Byte) : Kept r (State.garble s l).2 := by
  unfold State.garble
  repeat' (first
    | with_reducible first | assumption | apply State.draw_kept | refine Kept.snd ‹_ = (_, _)› ?_
    | split
    | dsimp only)

theorem State.emit_kept {r s : State} (h : Kept r s) (w : Wire) : Kept r (State.emit s w) := by
  unfold State.emit
  repeat' (first
    | with_reducible first | assumption | rfl
    | (simp only [Kept.lit]; with_reducible apply KeptCore.of)
    | rfl)

theorem State.count_kept {r s : State} (h : Kept r s) (i : Nat) (n : Nat) : Kept r (State.count s i n) := by
  unfold State.count
  repeat' (first
    | with_reducible first | assumption | apply Kept.ite | rfl
    | (simp only [Kept.lit]; with_reducible apply KeptCore.of)
    | (extract_lets +onlyGivenNames x
       first
       | (refine Kept.cut (r := r) (x := x) ?_ ?_ <;> first | (clear_value x; intro hx) | subst x)
       | subst x)
    | split
    | dsimp only
    | rfl)

theorem State.countAt_kept {r s : State} (h : Kept r s) (sweep : Nat) (i : Nat) (n : Nat) :
    Kept r (State.countAt s sweep i n) := by
  unfold State.countAt
  repeat' (first
    | with_reducible first | assumption | apply Kept.ite | rfl
    | (simp only [Kept.lit, List.length_map]; with_reducible apply KeptCore.of)
    | (extract_lets +onlyGivenNames x
       first
       | (refine Kept.cut (r := r) (x := x) ?_ ?_ <;> first | (clear_value x; intro hx) | subst x)
       | subst x)
    | split
    | dsimp only
    | rfl)

theorem State.eccFix_kept {r s : State} (h : Kept r s) : Kept r (State.eccFix s) := by
  unfold State.eccFix
  repeat' (first
    | with_reducible first | assumption | apply State.count_kept)

theorem State.dramFixed_kept {r s : State} (h : Kept r s) (n : Nat) : Kept r (State.dramFixed s n) := by
  unfold State.dramFixed
  repeat' (first
    | with_reducible first | assumption | apply Kept.ite | apply State.count_kept | apply State.bump_kept)

theorem State.eccLost_kept {r s : State} (h : Kept r s) : Kept r (State.eccLost s) := by
  unfold State.eccLost
  repeat' (first
    | with_reducible first | assumption | apply State.count_kept)

theorem State.setQueue_kept {r s : State} (h : Kept r s) (q : Nat) (f : Queue → Queue) :
    Kept r (State.setQueue s q f) := by
  unfold State.setQueue
  repeat' (first
    | with_reducible first | assumption | rfl
    | (simp only [Kept.lit, length_modAt]; with_reducible apply KeptCore.of)
    | (extract_lets +onlyGivenNames x
       first
       | (refine Kept.cut (r := r) (x := x) ?_ ?_ <;> first | (clear_value x; intro hx) | subst x)
       | subst x)
    | split
    | dsimp only
    | rfl)

theorem State.accept_kept {r s : State} (h : Kept r s) (q : Nat) (o : Offer) : Kept r (State.accept s q o) := by
  unfold State.accept
  repeat' (first
    | with_reducible first | assumption | apply Kept.ite | apply State.setQueue_kept)

theorem State.noteRefused_kept {r s : State} (h : Kept r s) (q : Nat) : Kept r (State.noteRefused s q).2 := by
  unfold State.noteRefused
  repeat' (first
    | with_reducible first | assumption | refine Kept.snd ‹_ = (_, _)› ?_ | rfl
    | (simp only [Kept.lit]; with_reducible apply KeptCore.of)
    | (extract_lets +onlyGivenNames x
       first
       | (refine Kept.cut (r := r) (x := x) ?_ ?_ <;> first | (clear_value x; intro hx) | subst x)
       | subst x)
    | split
    | dsimp only
    | rfl)

theorem State.pulse_kept {r s : State} (h : Kept r s) (i : Nat) : Kept r (State.pulse s i) := by
  unfold State.pulse
  repeat' (first
    | with_reducible first | assumption | rfl
    | (simp only [Kept.lit]; with_reducible apply KeptCore.of)
    | (extract_lets +onlyGivenNames x
       first
       | (refine Kept.cut (r := r) (x := x) ?_ ?_ <;> first | (clear_value x; intro hx) | subst x)
       | subst x)
    | split
    | dsimp only
    | rfl)

theorem State.refuse_kept {r s : State} (h : Kept r s) (q : Nat) : Kept r (State.refuse s q) := by
  unfold State.refuse
  repeat' (first
    | with_reducible
        first
        | assumption | apply State.setQueue_kept | apply State.pulse_kept | apply State.osBit_kept
        | apply State.count_kept | apply State.bump_kept
    | (extract_lets +onlyGivenNames x
       first
       | (refine Kept.cut (r := r) (x := x) ?_ ?_ <;> first | (clear_value x; intro hx) | subst x)
       | subst x)
    | split
    | dsimp only)

theorem State.offerEvent_kept {r s : State} (h : Kept r s) (o : Offer) : Kept r (State.offerEvent s o) := by
  unfold State.offerEvent
  repeat' (first
    | with_reducible first | assumption | apply Kept.ite | apply State.accept_kept | apply State.refuse_kept)

theorem State.event_kept {r s : State} (h : Kept r s) (code : Nat) (prio : Nat) (body : List Byte) :
    Kept r (State.event s code prio body) := by
  unfold State.event
  repeat' (first
    | with_reducible first | assumption | apply State.offerEvent_kept)

theorem State.offer_kept {r s : State} (h : Kept r s) (q : Nat) (o : Offer) : Kept r (State.offer s q o).2 := by
  unfold State.offer
  repeat' (first
    | with_reducible
        first
        | assumption | apply Kept.ite | apply State.accept_kept | apply State.refuse_kept
        | apply State.noteRefused_kept | apply State.event_kept | apply Kept.ite_snd | refine Kept.snd ‹_ = (_, _)› ?_
    | (extract_lets +onlyGivenNames x
       first
       | (refine Kept.cut (r := r) (x := x) ?_ ?_ <;> first | (clear_value x; intro hx) | subst x)
       | subst x)
    | split
    | dsimp only)

theorem State.emcy_kept {r s : State} (h : Kept r s) (code detail arg : Nat) : Kept r (s.emcy code detail arg) := by
  have hx : Kept r (s.osBit 0x100100 (emcyBit code) true) := State.osBit_kept h _ _ _
  unfold State.emcy
  generalize s.osBit 0x100100 (emcyBit code) true = x at hx
  dsimp only
  split
  · exact hx
  · split
    · exact State.bump_kept hx _ _
    · exact { hx with emcy := by simp only [List.length_append, List.length_cons, List.length_nil]; omega }

theorem State.logPush_kept {r s : State} (h :
    Kept r s) (code sev src : Nat) (args : List Byte) (room : s.mg.buffer.length < 256) :
    Kept r (s.logPush code sev src args) :=
  { h with log := by simp only [State.logPush, List.length_append, List.length_cons, List.length_nil]; omega }

theorem State.log_kept {r s : State} (h : Kept r s) (code sev src : Nat) (args : List Byte) :
    Kept r (s.log code sev src args) := by
  unfold State.log
  by_cases full : 256 ≤ s.mg.buffer.length + (if s.mg.lostRun = 0 then 0 else 1)
  · rw [if_pos full]
    exact Kept.congr (State.bump_kept h 0x540006 1) rfl
  · rw [if_neg full]
    by_cases z : s.mg.lostRun = 0
    · rw [if_pos z]
      rw [if_pos z] at full
      exact State.logPush_kept h _ _ _ _ (by omega)
    · rw [if_neg z]
      rw [if_neg z] at full
      have h1 := State.logPush_kept h 0x0060 2 0 (le 4 s.mg.lostRun) (by omega)
      refine State.logPush_kept (s := { s.logPush 0x0060 2 0 (le 4 s.mg.lostRun) with
        mg := { (s.logPush 0x0060 2 0 (le 4 s.mg.lostRun)).mg with lostRun := 0 } }) (Kept.congr h1 rfl) _ _ _ _ ?_
      simp only [State.logPush, List.length_append, List.length_cons, List.length_nil]
      omega

theorem State.statusRecord_kept {r s : State} (h : Kept r s) (op : Nat) (progress : Nat) (result : Nat)
    (elapsed : Nat) (maximum : Nat) :
    Kept r (State.statusRecord s op progress result elapsed maximum) := by
  unfold State.statusRecord
  repeat' (first
    | with_reducible first | assumption | apply State.offer_kept | refine Kept.snd ‹_ = (_, _)› ?_
    | dsimp only)

theorem State.statusNow_kept {r s : State} (h : Kept r s) : Kept r (State.statusNow s) := by
  unfold State.statusNow
  repeat' (first
    | with_reducible first | assumption | apply State.statusRecord_kept
    | split
    | dsimp only)

theorem State.enterPower_kept {r s : State} (h : Kept r s) (p : PowerState) : Kept r (State.enterPower s p) := by
  unfold State.enterPower
  repeat' (first
    | with_reducible first | assumption | apply Kept.ite | apply State.log_kept | apply State.statusNow_kept | rfl
    | (simp only [Kept.lit]; with_reducible apply KeptCore.of)
    | (extract_lets +onlyGivenNames x
       first
       | (refine Kept.cut (r := r) (x := x) ?_ ?_ <;> first | (clear_value x; intro hx) | subst x)
       | subst x)
    | split
    | dsimp only
    | rfl)

theorem State.transitionDone_kept {r s : State} (h : Kept r s) : Kept r (State.transitionDone s) := by
  unfold State.transitionDone
  repeat' (first
    | with_reducible first | assumption | apply Kept.ite | apply State.osBit_kept | apply State.os_kept | rfl
    | (simp only [Kept.lit]; with_reducible apply KeptCore.of)
    | (extract_lets +onlyGivenNames x
       first
       | (refine Kept.cut (r := r) (x := x) ?_ ?_ <;> first | (clear_value x; intro hx) | subst x)
       | subst x)
    | split
    | dsimp only
    | rfl)

theorem State.startLong_kept {r s : State} (h : Kept r s) (code : Nat) (maximum : Nat) (arg : Nat) (image : List Byte) :
    Kept r (State.startLong s code maximum arg image) := by
  unfold State.startLong
  repeat' (first
    | with_reducible first | assumption | apply State.os_kept | apply State.statusNow_kept | rfl
    | (simp only [Kept.lit]; with_reducible apply KeptCore.of)
    | (extract_lets +onlyGivenNames x
       first
       | (refine Kept.cut (r := r) (x := x) ?_ ?_ <;> first | (clear_value x; intro hx) | subst x)
       | subst x)
    | split
    | dsimp only
    | rfl)

theorem State.endLong_kept {r s : State} (h : Kept r s) (result : Nat) : Kept r (State.endLong s result) := by
  unfold State.endLong
  repeat' (first
    | with_reducible
        first
        | assumption | apply Kept.ite | apply State.statusRecord_kept | apply State.os_kept | apply State.event_kept
        | rfl
    | (simp only [Kept.lit]; with_reducible apply KeptCore.of)
    | (extract_lets +onlyGivenNames x
       first
       | (refine Kept.cut (r := r) (x := x) ?_ ?_ <;> first | (clear_value x; intro hx) | subst x)
       | subst x)
    | split
    | dsimp only
    | rfl)

theorem State.renew_kept {r s : State} (h : Kept r s) (c : Nat) : Kept r (State.renew s c) := by
  unfold State.renew
  repeat' (first
    | with_reducible first | assumption | apply State.os_kept | rfl
    | (simp only [Kept.lit]; with_reducible apply KeptCore.of)
    | (extract_lets +onlyGivenNames x
       first
       | (refine Kept.cut (r := r) (x := x) ?_ ?_ <;> first | (clear_value x; intro hx) | subst x)
       | subst x)
    | split
    | dsimp only
    | rfl)

theorem State.answer_kept {r s : State} (h : Kept r s) (c : Nat) (a : Answer) : Kept r (State.answer s c a) := by
  unfold State.answer
  repeat' (first
    | with_reducible first | assumption | apply State.emit_kept)

theorem State.hostWrite_kept {r s : State} (h : Kept r s) (c : Nat) (idx : Nat) (sub : Nat) (segmented : Bool)
    (b : List Byte) (effect : State → Except Nat State) (he : ∀ s', Kept r s' → KeptE r (effect s')) :
    Kept r (State.hostWrite s c idx sub segmented b effect) := by
  unfold State.hostWrite
  repeat' (first
    | with_reducible
        first
        | assumption | apply Kept.ite | apply KeptE.ok | apply KeptE.error | apply State.answer_kept
        | apply State.renew_kept | apply he | refine Kept.ofE ‹_ = Except.ok _› ?_
    | (extract_lets +onlyGivenNames x
       first
       | (refine Kept.cut (r := r) (x := x) ?_ ?_ <;> first | (clear_value x; intro hx) | subst x)
       | subst x)
    | split
    | dsimp only
    | (intro s1 h1; dsimp only)
    | intro s1 h1)

theorem require_kept {r : State} (p : Bool) (abort : Nat) {k : Except Nat State} (h : KeptE r k) :
    KeptE r (require p abort k) := by
  unfold require; split
  · exact h
  · exact KeptE.error _

/-! ## Link -/

theorem State.injectTell_kept {r s : State} (h : Kept r s) (on : Bool) : Kept r (State.injectTell s on) := by
  unfold State.injectTell
  repeat' (first
    | with_reducible first | assumption | apply Kept.ite | apply State.emit_kept
    | (extract_lets +onlyGivenNames x
       first
       | (refine Kept.cut (r := r) (x := x) ?_ ?_ <;> first | (clear_value x; intro hx) | subst x)
       | subst x)
    | split
    | dsimp only)

theorem State.candidate_kept {r s : State} (h : Kept r s) (link : Nat) : Kept r (State.candidate s link).2 := by
  unfold State.candidate
  repeat' (first
    | with_reducible
        first
        | assumption | apply Kept.ite | apply State.injectTell_kept | apply State.os_kept | apply State.bump_kept
        | apply Kept.ite_snd | refine Kept.snd ‹_ = (_, _)› ?_ | rfl
    | (simp only [Kept.lit]; with_reducible apply KeptCore.of)
    | (extract_lets +onlyGivenNames x
       first
       | (refine Kept.cut (r := r) (x := x) ?_ ?_ <;> first | (clear_value x; intro hx) | subst x)
       | subst x)
    | split
    | dsimp only
    | rfl)

theorem State.putFrame_kept {r s : State} (h : Kept r s) (lane : Nat) (f : LaneFrame) :
    Kept r (State.putFrame s lane f) := by
  unfold State.putFrame
  repeat' (first
    | with_reducible first | assumption | apply State.emit_kept)

theorem State.releaseHeld_kept {r s : State} (h : Kept r s) (due : Nat → Bool) : Kept r (State.releaseHeld s due) := by
  unfold State.releaseHeld
  repeat' (first
    | with_reducible
        first
        | assumption | apply State.putFrame_kept | apply State.emit_kept | refine Kept.foldl (fun _ _ _ => ?_) _ ?_
        | rfl
    | (simp only [Kept.lit]; with_reducible apply KeptCore.of)
    | (extract_lets +onlyGivenNames x
       first
       | (refine Kept.cut (r := r) (x := x) ?_ ?_ <;> first | (clear_value x; intro hx) | subst x)
       | subst x)
    | split
    | dsimp only
    | rfl
    | (intro s1 h1; dsimp only)
    | intro s1 h1)

theorem State.releaseDue_kept {r s : State} (h : Kept r s) : Kept r (State.releaseDue s) := by
  unfold State.releaseDue
  repeat' (first
    | with_reducible first | assumption | apply State.releaseHeld_kept)

theorem State.sendData_kept {r s : State} (h : Kept r s) (lane : Nat) (f : LaneFrame) :
    Kept r (State.sendData s lane f) := by
  unfold State.sendData
  repeat' (first
    | with_reducible
        first
        | assumption | apply State.releaseDue_kept | apply State.putFrame_kept | apply State.candidate_kept
        | apply State.emit_kept | refine Kept.snd ‹_ = (_, _)› ?_ | rfl
    | (simp only [Kept.lit]; with_reducible apply KeptCore.of)
    | (extract_lets +onlyGivenNames x
       first
       | (refine Kept.cut (r := r) (x := x) ?_ ?_ <;> first | (clear_value x; intro hx) | subst x)
       | subst x)
    | split
    | dsimp only
    | rfl)

theorem State.sendBytes_kept {r s : State} (h : Kept r s) (down : Bool) (b : List Byte) :
    Kept r (State.sendBytes s down b) := by
  unfold State.sendBytes
  repeat' (first
    | with_reducible
        first
        | assumption | apply Kept.ite | apply State.releaseDue_kept | apply State.emit_kept
        | apply State.candidate_kept | apply Kept.ite_snd | refine Kept.snd ‹_ = (_, _)› ?_ | rfl
    | (simp only [Kept.lit]; with_reducible apply KeptCore.of)
    | (extract_lets +onlyGivenNames x
       first
       | (refine Kept.cut (r := r) (x := x) ?_ ?_ <;> first | (clear_value x; intro hx) | subst x)
       | subst x)
    | split
    | dsimp only
    | rfl)

theorem State.sendMsg_kept {r s : State} (h : Kept r s) (down : Bool) (typ : Nat) (dst : Nat) (payload : List Byte) :
    Kept r (State.sendMsg s down typ dst payload) := by
  unfold State.sendMsg
  repeat' (first
    | with_reducible first | assumption | apply State.sendBytes_kept)

theorem State.relay_kept {r s : State} (h : Kept r s) (down : Bool) (typ : Nat) (src : Nat) (dst : Nat)
    (payload : List Byte) :
    Kept r (State.relay s down typ src dst payload) := by
  unfold State.relay
  repeat' (first
    | with_reducible first | assumption | apply State.sendBytes_kept)

/-! ## PlanImage -/

theorem State.showRungs_kept {r s : State} (h : Kept r s) : Kept r (State.showRungs s) := by
  unfold State.showRungs
  repeat' (first
    | with_reducible
        first
        | assumption | apply Kept.ite | apply State.os_kept | refine Kept.foldl (fun _ _ _ => ?_) _ ?_
    | (extract_lets +onlyGivenNames x
       first
       | (refine Kept.cut (r := r) (x := x) ?_ ?_ <;> first | (clear_value x; intro hx) | subst x)
       | subst x)
    | split
    | dsimp only
    | (intro s1 h1; dsimp only)
    | intro s1 h1)

/-! ## Shadow -/

theorem shadow_kept {r s : State} (h : Kept r s) (idx : Nat) (sub : Nat) (b : List Byte) :
    KeptE r (shadow idx sub b s) := by
  unfold shadow
  repeat' (first
    | with_reducible
        first
        | assumption | apply KeptE.ok | apply KeptE.error | apply require_kept | refine Kept.ofE ‹_ = Except.ok _› ?_
        | rfl
    | (simp only [Kept.lit]; with_reducible apply KeptCore.of)
    | (extract_lets +onlyGivenNames x
       first
       | (refine Kept.cut (r := r) (x := x) ?_ ?_ <;> first | (clear_value x; intro hx) | subst x)
       | subst x)
    | split
    | dsimp only
    | rfl
    | (intro s1 h1; dsimp only)
    | intro s1 h1)

theorem stageSet_kept {r s : State} (h : Kept r s) (v : Nat) : KeptE r (stageSet v s) := by
  unfold stageSet
  repeat' (first
    | with_reducible
        first
        | assumption | apply KeptE.ok | apply KeptE.error | refine Kept.ofE ‹_ = Except.ok _› ?_ | rfl
    | (simp only [Kept.lit]; with_reducible apply KeptCore.of)
    | (extract_lets +onlyGivenNames x
       first
       | (refine Kept.cut (r := r) (x := x) ?_ ?_ <;> first | (clear_value x; intro hx) | subst x)
       | subst x)
    | split
    | dsimp only
    | rfl
    | (intro s1 h1; dsimp only)
    | intro s1 h1)

theorem execStageOpen_kept {r s : State} (h : Kept r s) (t : Nat) (c : Nat) : KeptO r (execStageOpen t c s) := by
  unfold execStageOpen
  repeat' (first
    | with_reducible
        first
        | assumption | apply KeptE.ok | apply KeptE.error | apply KeptO.next | apply State.hostWrite_kept
        | apply State.at_kept | apply stageSet_kept | refine Kept.ofE ‹_ = Except.ok _› ?_
    | (intro s1 h1; dsimp only)
    | intro s1 h1)

theorem execStageApply_kept {r s : State} (h : Kept r s) (t : Nat) (c : Nat) : KeptO r (execStageApply t c s) := by
  unfold execStageApply
  repeat' (first
    | with_reducible
        first
        | assumption | apply KeptE.ok | apply KeptE.error | apply KeptO.next | apply State.hostWrite_kept
        | apply State.at_kept | apply stageSet_kept | refine Kept.ofE ‹_ = Except.ok _› ?_
    | (intro s1 h1; dsimp only)
    | intro s1 h1)

theorem execStageDiscard_kept {r s : State} (h : Kept r s) (t : Nat) (c : Nat) : KeptO r (execStageDiscard t c s) := by
  unfold execStageDiscard
  repeat' (first
    | with_reducible
        first
        | assumption | apply KeptE.ok | apply KeptE.error | apply KeptO.next | apply State.hostWrite_kept
        | apply State.at_kept | apply stageSet_kept | refine Kept.ofE ‹_ = Except.ok _› ?_
    | (intro s1 h1; dsimp only)
    | intro s1 h1)

/-! ## Optics -/

theorem State.setPort_kept {r s : State} (h : Kept r s) (p : Nat) (f : PortOptics → PortOptics) :
    Kept r (State.setPort s p f) := by
  unfold State.setPort
  repeat' (first
    | with_reducible first | assumption | rfl
    | (simp only [Kept.lit, length_modAt]; with_reducible apply KeptCore.of)
    | (extract_lets +onlyGivenNames x
       first
       | (refine Kept.cut (r := r) (x := x) ?_ ?_ <;> first | (clear_value x; intro hx) | subst x)
       | subst x)
    | split
    | dsimp only
    | rfl)

theorem State.showOptics_kept {r s : State} (h : Kept r s) : Kept r (State.showOptics s) := by
  unfold State.showOptics
  repeat' (first
    | with_reducible first | assumption | apply State.os_kept | refine Kept.foldl (fun _ _ _ => ?_) _ ?_
    | (extract_lets +onlyGivenNames x
       first
       | (refine Kept.cut (r := r) (x := x) ?_ ?_ <;> first | (clear_value x; intro hx) | subst x)
       | subst x)
    | split
    | dsimp only
    | (intro s1 h1; dsimp only)
    | intro s1 h1)

theorem State.bringUp_kept {r s : State} (h : Kept r s) (ports : List Nat) (limit : Nat) :
    Kept r (State.bringUp s ports limit) := by
  unfold State.bringUp
  repeat' (first
    | with_reducible
        first
        | assumption | apply Kept.ite | apply State.setPort_kept | apply State.showOptics_kept
        | refine Kept.foldl (fun _ _ _ => ?_) _ ?_
    | (extract_lets +onlyGivenNames x
       first
       | (refine Kept.cut (r := r) (x := x) ?_ ?_ <;> first | (clear_value x; intro hx) | subst x)
       | subst x)
    | split
    | dsimp only
    | (intro s1 h1; dsimp only)
    | intro s1 h1)

theorem State.photonicOn_kept {r s : State} (h : Kept r s) : Kept r (State.photonicOn s) := by
  unfold State.photonicOn
  repeat' (first
    | with_reducible first | assumption | rfl
    | (simp only [Kept.lit]; with_reducible apply KeptCore.of)
    | (extract_lets +onlyGivenNames x
       first
       | (refine Kept.cut (r := r) (x := x) ?_ ?_ <;> first | (clear_value x; intro hx) | subst x)
       | subst x)
    | split
    | dsimp only
    | rfl)

theorem State.photonicOff_kept {r s : State} (h : Kept r s) : Kept r (State.photonicOff s) := by
  unfold State.photonicOff
  repeat' (first
    | with_reducible first | assumption | apply State.showOptics_kept | apply State.osI_kept | rfl
    | (simp only [Kept.lit, List.length_map]; with_reducible apply KeptCore.of)
    | (extract_lets +onlyGivenNames x
       first
       | (refine Kept.cut (r := r) (x := x) ?_ ?_ <;> first | (clear_value x; intro hx) | subst x)
       | subst x)
    | split
    | dsimp only
    | rfl)

theorem State.holdLoops_kept {r s : State} (h : Kept r s) : Kept r (State.holdLoops s) := by
  unfold State.holdLoops
  repeat' (first
    | with_reducible first | assumption | apply Kept.ite | apply State.showOptics_kept | rfl
    | (simp only [Kept.lit, List.length_map]; with_reducible apply KeptCore.of)
    | (extract_lets +onlyGivenNames x
       first
       | (refine Kept.cut (r := r) (x := x) ?_ ?_ <;> first | (clear_value x; intro hx) | subst x)
       | subst x)
    | split
    | dsimp only
    | rfl)

theorem State.endFiring_kept {r s : State} (h : Kept r s) : Kept r (State.endFiring s) := by
  unfold State.endFiring
  repeat' (first
    | with_reducible first | assumption | apply Kept.ite | apply Kept.ite_snd | refine Kept.snd ‹_ = (_, _)› ?_ | rfl
    | (simp only [Kept.lit, List.length_map]; with_reducible apply KeptCore.of)
    | (extract_lets +onlyGivenNames x
       first
       | (refine Kept.cut (r := r) (x := x) ?_ ?_ <;> first | (clear_value x; intro hx) | subst x)
       | subst x)
    | split
    | dsimp only
    | rfl)

theorem State.biasEmcy_kept {r s : State} (h : Kept r s) (p : Nat) : Kept r (State.biasEmcy s p) := by
  unfold State.biasEmcy
  repeat' (first
    | with_reducible first | assumption | apply State.emcy_kept)

theorem State.abandonEntry_kept {r s : State} (h : Kept r s) : Kept r (State.abandonEntry s) := by
  unfold State.abandonEntry
  repeat' (first
    | with_reducible
        first
        | assumption | apply Kept.ite | apply State.emcy_kept | apply State.holdLoops_kept
        | apply State.photonicOff_kept | apply State.transitionDone_kept | rfl
    | (simp only [Kept.lit, List.length_map]; with_reducible apply KeptCore.of)
    | (extract_lets +onlyGivenNames x
       first
       | (refine Kept.cut (r := r) (x := x) ?_ ?_ <;> first | (clear_value x; intro hx) | subst x)
       | subst x)
    | split
    | dsimp only
    | rfl)

theorem State.cause_kept {r s : State} (h : Kept r s) (c : Nat) : Kept r (State.cause s c) := by
  unfold State.cause
  repeat' (first
    | with_reducible first | assumption | apply Kept.ite | rfl
    | (simp only [Kept.lit]; with_reducible apply KeptCore.of)
    | (extract_lets +onlyGivenNames x
       first
       | (refine Kept.cut (r := r) (x := x) ?_ ?_ <;> first | (clear_value x; intro hx) | subst x)
       | subst x)
    | split
    | dsimp only
    | rfl)

theorem State.noteEmission_kept {r s : State} (h : Kept r s) (a : Nat) (len : Nat) :
    Kept r (State.noteEmission s a len) := by
  unfold State.noteEmission
  repeat' (first
    | with_reducible first | assumption | apply Kept.ite | apply Kept.ite_snd | refine Kept.snd ‹_ = (_, _)› ?_ | rfl
    | (simp only [Kept.lit]; with_reducible apply KeptCore.of)
    | (extract_lets +onlyGivenNames x
       first
       | (refine Kept.cut (r := r) (x := x) ?_ ?_ <;> first | (clear_value x; intro hx) | subst x)
       | subst x)
    | split
    | dsimp only
    | rfl)

theorem State.cutEmission_kept {r s : State} (h : Kept r s) : Kept r (State.cutEmission s) := by
  unfold State.cutEmission
  repeat' (first
    | with_reducible first | assumption | apply Kept.ite | apply Kept.ite_snd | refine Kept.snd ‹_ = (_, _)› ?_ | rfl
    | (simp only [Kept.lit, List.length_map]; with_reducible apply KeptCore.of)
    | (extract_lets +onlyGivenNames x
       first
       | (refine Kept.cut (r := r) (x := x) ?_ ?_ <;> first | (clear_value x; intro hx) | subst x)
       | subst x)
    | split
    | dsimp only
    | rfl)

theorem State.expirePort_kept {r s : State} (h : Kept r s) (p : Nat) : Kept r (State.expirePort s p) := by
  unfold State.expirePort
  repeat' (first
    | with_reducible first | assumption | apply Kept.ite | apply State.setPort_kept | apply State.biasEmcy_kept
    | (extract_lets +onlyGivenNames x
       first
       | (refine Kept.cut (r := r) (x := x) ?_ ?_ <;> first | (clear_value x; intro hx) | subst x)
       | subst x)
    | split
    | dsimp only)

theorem execAcquisitionDeadline_kept {r s : State} (h : Kept r s) (t : Nat) :
    KeptO r (execAcquisitionDeadline t s) := by
  unfold execAcquisitionDeadline
  repeat' (first
    | with_reducible
        first
        | assumption | apply Kept.ite | apply KeptO.ite | apply KeptO.next | apply State.expirePort_kept
        | apply State.at_kept | apply State.showOptics_kept | apply State.abandonEntry_kept
        | refine Kept.foldl (fun _ _ _ => ?_) _ ?_ | rfl
    | (simp only [Kept.lit, List.length_map]; with_reducible apply KeptCore.of)
    | (extract_lets +onlyGivenNames x
       first
       | (refine Kept.cut (r := r) (x := x) ?_ ?_ <;> first | (clear_value x; intro hx) | subst x)
       | subst x)
    | split
    | dsimp only
    | rfl
    | (intro s1 h1; dsimp only)
    | intro s1 h1)

theorem execOffsetTrim_kept {r s : State} (h : Kept r s) (t : Nat) (found : List (List Trim)) :
    KeptO r (execOffsetTrim t found s) := by
  unfold execOffsetTrim
  repeat' (first
    | with_reducible
        first
        | assumption | apply KeptO.next | apply State.at_kept | apply State.setPort_kept
        | refine Kept.foldl (fun _ _ _ => ?_) _ ?_
    | (extract_lets +onlyGivenNames x
       first
       | (refine Kept.cut (r := r) (x := x) ?_ ?_ <;> first | (clear_value x; intro hx) | subst x)
       | subst x)
    | split
    | dsimp only
    | (intro s1 h1; dsimp only)
    | intro s1 h1)

theorem execInputLimitAssert_kept {r s : State} (h : Kept r s) (t : Nat) (port : Nat) (excess : Excess) :
    KeptO r (execInputLimitAssert t port excess s) := by
  unfold execInputLimitAssert
  repeat' (first
    | with_reducible
        first
        | assumption | apply Kept.ite | apply KeptO.ite | apply KeptO.next | apply State.at_kept
        | apply State.bump_kept | apply State.setPort_kept | apply Kept.ite_snd | refine Kept.snd ‹_ = (_, _)› ?_
    | (extract_lets +onlyGivenNames x
       first
       | (refine Kept.cut (r := r) (x := x) ?_ ?_ <;> first | (clear_value x; intro hx) | subst x)
       | subst x)
    | split
    | dsimp only)

theorem execReflectionTrip_kept {r s : State} (h : Kept r s) (t : Nat) (port : Nat) (peak : Int) :
    KeptO r (execReflectionTrip t port peak s) := by
  unfold execReflectionTrip
  repeat' (first
    | with_reducible
        first
        | assumption | apply Kept.ite | apply KeptO.ite | apply KeptO.next | apply State.at_kept
        | apply State.setPort_kept | apply State.bump_kept | apply State.cutEmission_kept | apply State.emcy_kept
        | apply State.event_kept | apply State.showOptics_kept | apply State.cause_kept | apply Kept.ite_snd
        | refine Kept.snd ‹_ = (_, _)› ?_
    | (extract_lets +onlyGivenNames x
       first
       | (refine Kept.cut (r := r) (x := x) ?_ ?_ <;> first | (clear_value x; intro hx) | subst x)
       | subst x)
    | split
    | dsimp only)

theorem execSeedLowSet_kept {r s : State} (h : Kept r s) (t : Nat) (dbm : Int) : KeptO r (execSeedLowSet t dbm s) := by
  unfold execSeedLowSet
  repeat' (first
    | with_reducible
        first
        | assumption | apply Kept.ite | apply KeptO.ite | apply KeptO.next | apply State.at_kept
        | apply State.holdLoops_kept | apply State.osI_kept | apply State.emcy_kept | apply State.cause_kept
        | apply State.event_kept | apply Kept.ite_snd | refine Kept.snd ‹_ = (_, _)› ?_ | rfl
    | (simp only [Kept.lit]; with_reducible apply KeptCore.of)
    | (extract_lets +onlyGivenNames x
       first
       | (refine Kept.cut (r := r) (x := x) ?_ ?_ <;> first | (clear_value x; intro hx) | subst x)
       | subst x)
    | split
    | dsimp only
    | rfl)

theorem execSeedLowClear_kept {r s : State} (h : Kept r s) (t : Nat) (dbm : Int) :
    KeptO r (execSeedLowClear t dbm s) := by
  unfold execSeedLowClear
  repeat' (first
    | with_reducible
        first
        | assumption | apply Kept.ite | apply KeptO.ite | apply KeptO.next | apply State.at_kept
        | apply State.osI_kept | apply State.showOptics_kept | apply State.event_kept | rfl
    | (simp only [Kept.lit, List.length_map]; with_reducible apply KeptCore.of)
    | (extract_lets +onlyGivenNames x
       first
       | (refine Kept.cut (r := r) (x := x) ?_ ?_ <;> first | (clear_value x; intro hx) | subst x)
       | subst x)
    | split
    | dsimp only
    | rfl)

theorem execBiasMeasurement_kept {r s : State} (h : Kept r s) (t : Nat) (port : Nat) (loop : Nat) (err : Int)
    (setPoint : Int) (atEnd : Bool) :
    KeptO r (execBiasMeasurement t port loop err setPoint atEnd s) := by
  unfold execBiasMeasurement
  repeat' (first
    | with_reducible
        first
        | assumption | apply Kept.ite | apply KeptO.ite | apply KeptO.next | apply State.at_kept
        | apply State.setPort_kept | apply State.biasEmcy_kept | apply State.showOptics_kept
    | (extract_lets +onlyGivenNames x
       first
       | (refine Kept.cut (r := r) (x := x) ?_ ?_ <;> first | (clear_value x; intro hx) | subst x)
       | subst x)
    | split
    | dsimp only)

theorem execMeasurementTimeout_kept {r s : State} (h : Kept r s) (t : Nat) (port : Nat) (loop : Nat) :
    KeptO r (execMeasurementTimeout t port loop s) := by
  unfold execMeasurementTimeout
  repeat' (first
    | with_reducible
        first
        | assumption | apply Kept.ite | apply KeptO.ite | apply KeptO.next | apply State.at_kept
        | apply State.showOptics_kept | apply State.setPort_kept
    | (extract_lets +onlyGivenNames x
       first
       | (refine Kept.cut (r := r) (x := x) ?_ ?_ <;> first | (clear_value x; intro hx) | subst x)
       | subst x)
    | split
    | dsimp only)

theorem biasSearch_kept {r s : State} (h : Kept r s) (mask : Nat) : KeptE r (biasSearch mask s) := by
  unfold biasSearch
  repeat' (first
    | with_reducible
        first
        | assumption | apply KeptE.ok | apply KeptE.error | apply require_kept | apply State.os_kept
        | apply State.setPort_kept | apply State.startLong_kept | apply State.showOptics_kept
        | refine Kept.foldl (fun _ _ _ => ?_) _ ?_ | refine Kept.ofE ‹_ = Except.ok _› ?_
    | (extract_lets +onlyGivenNames x
       first
       | (refine Kept.cut (r := r) (x := x) ?_ ?_ <;> first | (clear_value x; intro hx) | subst x)
       | subst x)
    | split
    | dsimp only
    | (intro s1 h1; dsimp only)
    | intro s1 h1)

theorem execBiasSearch_kept {r s : State} (h : Kept r s) (t : Nat) (c : Nat) (mask : Nat) :
    KeptO r (execBiasSearch t c mask s) := by
  unfold execBiasSearch
  repeat' (first
    | with_reducible
        first
        | assumption | apply KeptE.ok | apply KeptE.error | apply KeptO.next | apply State.hostWrite_kept
        | apply State.at_kept | apply biasSearch_kept | refine Kept.ofE ‹_ = Except.ok _› ?_
    | (intro s1 h1; dsimp only)
    | intro s1 h1)

theorem State.storeSets_kept {r s : State} (h : Kept r s) (sets : List (List Int)) :
    Kept r (State.storeSets s sets) := by
  unfold State.storeSets
  repeat' (first
    | with_reducible first | assumption | rfl
    | (simp only [Kept.lit]; with_reducible apply KeptCore.of)
    | (extract_lets +onlyGivenNames x
       first
       | (refine Kept.cut (r := r) (x := x) ?_ ?_ <;> first | (clear_value x; intro hx) | subst x)
       | subst x)
    | split
    | dsimp only
    | rfl)

theorem State.endBiasSearch_kept {r s : State} (h : Kept r s) (mask : Nat) (found : List (List Int)) (flashOk : Bool) :
    Kept r (State.endBiasSearch s mask found flashOk).2 := by
  unfold State.endBiasSearch
  repeat' (first
    | with_reducible
        first
        | assumption | apply Kept.ite | apply State.setPort_kept | apply State.storeSets_kept
        | apply State.showOptics_kept | apply Kept.ite_snd | refine Kept.foldl (fun _ _ _ => ?_) _ ?_
        | refine Kept.snd ‹_ = (_, _)› ?_
    | (extract_lets +onlyGivenNames x
       first
       | (refine Kept.cut (r := r) (x := x) ?_ ?_ <;> first | (clear_value x; intro hx) | subst x)
       | subst x)
    | split
    | dsimp only
    | (intro s1 h1; dsimp only)
    | intro s1 h1)

theorem execDarkPortPowerDown_kept {r s : State} (h : Kept r s) (t : Nat) (port : Nat) :
    KeptO r (execDarkPortPowerDown t port s) := by
  unfold execDarkPortPowerDown
  repeat' (first
    | with_reducible
        first
        | assumption | apply Kept.ite | apply KeptO.ite | apply KeptO.next | apply State.at_kept
        | apply State.showOptics_kept | apply State.setPort_kept
    | (extract_lets +onlyGivenNames x
       first
       | (refine Kept.cut (r := r) (x := x) ?_ ?_ <;> first | (clear_value x; intro hx) | subst x)
       | subst x)
    | split
    | dsimp only)

theorem State.warmUp_kept {r s : State} (h : Kept r s) : Kept r (State.warmUp s) := by
  unfold State.warmUp
  repeat' (first
    | with_reducible first | assumption | apply State.photonicOn_kept | apply State.bringUp_kept
    | (extract_lets +onlyGivenNames x
       first
       | (refine Kept.cut (r := r) (x := x) ?_ ?_ <;> first | (clear_value x; intro hx) | subst x)
       | subst x)
    | split
    | dsimp only)

/-! ## Queues -/

theorem State.setPctx_kept {r s : State} (h : Kept r s) (c : PCtx) : Kept r (State.setPctx s c) := by
  unfold State.setPctx
  repeat' (first
    | with_reducible first | assumption | rfl
    | (simp only [Kept.lit]; with_reducible apply KeptCore.of)
    | (extract_lets +onlyGivenNames x
       first
       | (refine Kept.cut (r := r) (x := x) ?_ ?_ <;> first | (clear_value x; intro hx) | subst x)
       | subst x)
    | split
    | dsimp only
    | rfl)

theorem State.restartCtxs_kept {r s : State} (h : Kept r s) (port : Option Nat) :
    Kept r (State.restartCtxs s port) := by
  unfold State.restartCtxs
  repeat' (first
    | with_reducible first | assumption | apply Kept.ite | rfl
    | (simp only [Kept.lit, List.length_map]; with_reducible apply KeptCore.of)
    | (extract_lets +onlyGivenNames x
       first
       | (refine Kept.cut (r := r) (x := x) ?_ ?_ <;> first | (clear_value x; intro hx) | subst x)
       | subst x)
    | split
    | dsimp only
    | rfl)

theorem State.offerStream_kept {r s : State} (h : Kept r s) (pl : Plan) (e : Stream) (first : Nat) (sweep : Nat)
    (stamp : Nat) (width : Nat) (head : List Byte) (rows : List (List Int)) (flags : List Byte) (gen : Nat) :
    Kept r (State.offerStream s pl e first sweep stamp width head rows flags gen) := by
  unfold State.offerStream
  repeat' (first
    | with_reducible
        first
        | assumption | apply Kept.ite | apply State.count_kept | apply State.offer_kept | apply State.setPctx_kept
        | apply Kept.ite_snd | refine Kept.snd ‹_ = (_, _)› ?_ | rfl
    | (simp only [Kept.lit]; with_reducible apply KeptCore.of)
    | (extract_lets +onlyGivenNames x
       first
       | (refine Kept.cut (r := r) (x := x) ?_ ?_ <;> first | (clear_value x; intro hx) | subst x)
       | subst x)
    | split
    | dsimp only
    | rfl)

theorem State.discardUnframed_kept {r s : State} (h : Kept r s) (q : Nat) (mask : Nat) :
    Kept r (State.discardUnframed s q mask) := by
  unfold State.discardUnframed
  repeat' (first
    | with_reducible
        first
        | assumption | apply Kept.ite | apply State.setQueue_kept | apply State.bump_kept | apply State.count_kept
        | apply State.pulse_kept | apply State.osBit_kept | apply Kept.ite_snd | refine Kept.snd ‹_ = (_, _)› ?_
    | (extract_lets +onlyGivenNames x
       first
       | (refine Kept.cut (r := r) (x := x) ?_ ?_ <;> first | (clear_value x; intro hx) | subst x)
       | subst x)
    | split
    | dsimp only)

theorem State.queuesTake_kept {r s : State} (h : Kept r s) (base : Option Nat) (pl : Plan) :
    Kept r (State.queuesTake s base pl) := by
  unfold State.queuesTake
  repeat' (first
    | with_reducible
        first
        | assumption | apply Kept.ite | apply State.setQueue_kept | apply State.discardUnframed_kept
        | apply State.os_kept | refine Kept.foldl (fun _ _ _ => ?_) _ ?_
    | (extract_lets +onlyGivenNames x
       first
       | (refine Kept.cut (r := r) (x := x) ?_ ?_ <;> first | (clear_value x; intro hx) | subst x)
       | subst x)
    | split
    | dsimp only
    | (intro s1 h1; dsimp only)
    | intro s1 h1)

theorem State.emptyQueues_kept {r s : State} (h : Kept r s) : Kept r (State.emptyQueues s) := by
  unfold State.emptyQueues
  repeat' (first
    | with_reducible first | assumption | rfl
    | (simp only [Kept.lit, List.length_map]; with_reducible apply KeptCore.of)
    | (extract_lets +onlyGivenNames x
       first
       | (refine Kept.cut (r := r) (x := x) ?_ ?_ <;> first | (clear_value x; intro hx) | subst x)
       | subst x)
    | split
    | dsimp only
    | rfl)

theorem overrunClear_kept {r s : State} (h : Kept r s) (mask : Nat) : KeptE r (overrunClear mask s) := by
  unfold overrunClear
  repeat' (first
    | with_reducible
        first
        | assumption | apply KeptE.ok | apply KeptE.error | apply State.os_kept | refine Kept.ofE ‹_ = Except.ok _› ?_
    | (intro s1 h1; dsimp only)
    | intro s1 h1)

theorem execOverrunClear_kept {r s : State} (h : Kept r s) (t : Nat) (c : Nat) (mask : Nat) :
    KeptO r (execOverrunClear t c mask s) := by
  unfold execOverrunClear
  repeat' (first
    | with_reducible
        first
        | assumption | apply KeptE.ok | apply KeptE.error | apply KeptO.next | apply State.hostWrite_kept
        | apply State.at_kept | apply overrunClear_kept | refine Kept.ofE ‹_ = Except.ok _› ?_
    | (intro s1 h1; dsimp only)
    | intro s1 h1)

theorem execStatusRecord_kept {r s : State} (h : Kept r s) (t : Nat) : KeptO r (execStatusRecord t s) := by
  unfold execStatusRecord
  repeat' (first
    | with_reducible
        first
        | assumption | apply KeptO.next | apply State.at_kept | apply State.statusNow_kept | apply State.os_kept | rfl
    | (simp only [Kept.lit]; with_reducible apply KeptCore.of)
    | (extract_lets +onlyGivenNames x
       first
       | (refine Kept.cut (r := r) (x := x) ?_ ?_ <;> first | (clear_value x; intro hx) | subst x)
       | subst x)
    | split
    | dsimp only
    | rfl)

end Sys2Proof.Machine
end

