-- ==== Sys2Proof/Laws/KeptChain.lean ====
section
/-! SUPPORT. What Kept of Safety.lean says of each function of the model:
Raman temperature, images, the acoustic chain, DRAM regions and Poppy. -/

namespace Sys2Proof.Machine

open Sys2Proof

set_option linter.unusedSimpArgs false
set_option linter.unusedVariables false

/-! ## Dts -/

theorem State.setLin_kept {r s : State} (h : Kept r s) (f : Linseed → Linseed) : Kept r (State.setLin s f) := by
  unfold State.setLin
  repeat' (first
    | with_reducible first | assumption | rfl
    | (simp only [Kept.lit]; with_reducible apply KeptCore.of)
    | rfl)

theorem State.setPeriod_kept {r s : State} (h : Kept r s) (n : Nat) (f : Period → Period) :
    Kept r (State.setPeriod s n f) := by
  unfold State.setPeriod
  repeat' (first
    | with_reducible first | assumption | apply Kept.ite | apply State.setLin_kept)

theorem State.showDts_kept {r s : State} (h : Kept r s) : Kept r (State.showDts s) := by
  unfold State.showDts
  repeat' (first
    | with_reducible
        first
        | assumption | apply Kept.ite | apply State.os_kept | refine Kept.foldl (fun _ _ _ => ?_) _ ?_
    | (extract_lets +onlyGivenNames x
       first
       | (refine Kept.cut (r := r) (x := x) ?_ ?_ <;> first | (clear_value x; intro hx) | subst x)
       | subst x)
    | split
    | dsimp only
    | (intro s1 h1; dsimp only)
    | intro s1 h1)

theorem State.closeBlock_kept {r s : State} (h : Kept r s) : Kept r (State.closeBlock s) := by
  unfold State.closeBlock
  repeat' (first
    | with_reducible first | assumption | apply State.setLin_kept
    | split
    | dsimp only)

theorem State.addShot_kept {r s : State} (h : Kept r s) (sh : Shot) (ports : List Nat) (bins : List (List Int)) :
    Kept r (State.addShot s sh ports bins) := by
  unfold State.addShot
  repeat' (first
    | with_reducible first | assumption | apply Kept.ite | apply State.closeBlock_kept | apply State.setLin_kept
    | (extract_lets +onlyGivenNames x
       first
       | (refine Kept.cut (r := r) (x := x) ?_ ?_ <;> first | (clear_value x; intro hx) | subst x)
       | subst x)
    | split
    | dsimp only)

theorem State.settleShot_kept {r s : State} (h : Kept r s) (sh : Shot) : Kept r (State.settleShot s sh) := by
  unfold State.settleShot
  repeat' (first
    | with_reducible
        first
        | assumption | apply Kept.ite | apply State.setPeriod_kept | apply State.countAt_kept | apply State.bump_kept
        | apply State.addShot_kept | refine Kept.foldl (fun _ _ _ => ?_) _ ?_
    | (extract_lets +onlyGivenNames x
       first
       | (refine Kept.cut (r := r) (x := x) ?_ ?_ <;> first | (clear_value x; intro hx) | subst x)
       | subst x)
    | split
    | dsimp only
    | (intro s1 h1; dsimp only)
    | intro s1 h1)

theorem State.settleShots_kept {r s : State} (h : Kept r s) : Kept r (State.settleShots s) := by
  unfold State.settleShots
  repeat' (first
    | with_reducible
        first
        | assumption | apply State.settleShot_kept | apply State.setLin_kept
        | refine Kept.foldl (fun _ _ _ => ?_) _ ?_
    | (extract_lets +onlyGivenNames x
       first
       | (refine Kept.cut (r := r) (x := x) ?_ ?_ <;> first | (clear_value x; intro hx) | subst x)
       | subst x)
    | split
    | dsimp only
    | (intro s1 h1; dsimp only)
    | intro s1 h1)

theorem State.dtsShot_kept {r s : State} (h : Kept r s) (f : Flight) (slot : Nat) (e : Nat) (raman : List (List Nat)) :
    Kept r (State.dtsShot s f slot e raman) := by
  unfold State.dtsShot
  repeat' (first
    | with_reducible first | assumption | apply Kept.ite | apply State.closeBlock_kept | apply State.setLin_kept
    | (extract_lets +onlyGivenNames x
       first
       | (refine Kept.cut (r := r) (x := x) ?_ ?_ <;> first | (clear_value x; intro hx) | subst x)
       | subst x)
    | split
    | dsimp only)

theorem State.endPeriod_kept {r s : State} (h : Kept r s) (ord : Nat) (now : Nat) :
    Kept r (State.endPeriod s ord now) := by
  unfold State.endPeriod
  repeat' (first
    | with_reducible first | assumption | apply State.setPeriod_kept | apply State.showDts_kept
    | (extract_lets +onlyGivenNames x
       first
       | (refine Kept.cut (r := r) (x := x) ?_ ?_ <;> first | (clear_value x; intro hx) | subst x)
       | subst x)
    | split
    | dsimp only)

theorem State.beginPeriod_kept {r s : State} (h : Kept r s) (f : Flight) : Kept r (State.beginPeriod s f) := by
  unfold State.beginPeriod
  repeat' (first
    | with_reducible first | assumption | apply Kept.ite | apply State.showDts_kept | apply State.setLin_kept
    | (extract_lets +onlyGivenNames x
       first
       | (refine Kept.cut (r := r) (x := x) ?_ ?_ <;> first | (clear_value x; intro hx) | subst x)
       | subst x)
    | split
    | dsimp only)

theorem State.dtsTemp_kept {r s : State} (h : Kept r s) (at_ : Nat) (rtd : Nat) (mk : Int) :
    Kept r (State.dtsTemp s at_ rtd mk) := by
  unfold State.dtsTemp
  repeat' (first
    | with_reducible
        first
        | assumption | apply State.setLin_kept | refine Kept.foldl (fun _ _ _ => ?_) _ ?_
        | refine Kept.snd ‹_ = (_, _)› ?_
    | (extract_lets +onlyGivenNames x
       first
       | (refine Kept.cut (r := r) (x := x) ?_ ?_ <;> first | (clear_value x; intro hx) | subst x)
       | subst x)
    | split
    | dsimp only
    | (intro s1 h1; dsimp only)
    | intro s1 h1)

theorem State.dtsDrop_kept {r s : State} (h : Kept r s) : Kept r (State.dtsDrop s) := by
  unfold State.dtsDrop
  repeat' (first
    | with_reducible first | assumption | apply State.showDts_kept | apply State.setLin_kept)

theorem State.addBlock_kept {r s : State} (h : Kept r s) (b : LBlock) : Kept r (State.addBlock s b) := by
  unfold State.addBlock
  repeat' (first
    | with_reducible first | assumption | apply State.setPeriod_kept)

theorem State.stallShot_kept {r s : State} (h : Kept r s) : Kept r (State.stallShot s) := by
  unfold State.stallShot
  repeat' (first
    | with_reducible first | assumption | apply State.setLin_kept
    | split
    | dsimp only)

theorem execLinseedBlockAdd_kept {r s : State} (h : Kept r s) (t : Nat) (stalled : Bool) (corrected : Nat) :
    KeptO r (execLinseedBlockAdd t stalled corrected s) := by
  unfold execLinseedBlockAdd
  repeat' (first
    | with_reducible
        first
        | assumption | apply Kept.ite | apply KeptO.ite | apply KeptO.next | apply State.settleShots_kept
        | apply State.dramFixed_kept | apply State.at_kept | apply State.closeBlock_kept | apply State.addBlock_kept
        | apply State.setLin_kept | apply State.stallShot_kept
    | (extract_lets +onlyGivenNames x
       first
       | (refine Kept.cut (r := r) (x := x) ?_ ?_ <;> first | (clear_value x; intro hx) | subst x)
       | subst x)
    | split
    | dsimp only)

theorem execDtsDecode_kept {r s : State} (h : Kept r s) (t : Nat) (port : Nat) : KeptO r (execDtsDecode t port s) := by
  unfold execDtsDecode
  have hx : Kept r (s.at t).settleShots := State.settleShots_kept (State.at_kept h t)
  generalize (s.at t).settleShots = x at hx
  dsimp only
  generalize x.lin.periods = ps
  cases ps with
  | nil => exact KeptO.next hx
  | cons q tail =>
    dsimp only
    refine KeptO.ite ?_ (KeptO.next hx)
    repeat' (first
    | with_reducible
          first
          | assumption | apply Kept.ite | apply KeptO.ite | apply KeptO.next | apply State.settleShots_kept
          | apply State.at_kept | apply State.draw_kept | apply State.offer_kept | apply State.os_kept
          | apply State.osI_kept | apply State.setPeriod_kept | apply State.setLin_kept | apply State.showDts_kept
          | apply Kept.ite_snd | refine Kept.foldl (fun _ _ _ => ?_) _ ?_ | refine Kept.snd ‹_ = (_, _)› ?_
      | (extract_lets +onlyGivenNames x
         first
         | (refine Kept.cut (r := r) (x := x) ?_ ?_ <;> first | (clear_value x; intro hx) | subst x)
         | subst x)
      | split
      | dsimp only
      | (intro s1 h1; dsimp only)
      | intro s1 h1)

/-! ## Image -/

theorem State.setArea_kept {r s : State} (h : Kept r s) (i : Nat) (b : List Byte) : Kept r (State.setArea s i b) := by
  unfold State.setArea
  repeat' (first
    | with_reducible first | assumption | rfl
    | (simp only [Kept.lit]; with_reducible apply KeptCore.of)
    | (extract_lets +onlyGivenNames x
       first
       | (refine Kept.cut (r := r) (x := x) ?_ ?_ <;> first | (clear_value x; intro hx) | subst x)
       | subst x)
    | split
    | dsimp only
    | rfl)

theorem State.writeBoot_kept {r s : State} (h : Kept r s) (f : BootControl → BootControl) :
    Kept r (State.writeBoot s f) := by
  unfold State.writeBoot
  repeat' (first
    | with_reducible first | assumption | apply Kept.ite | rfl
    | (simp only [Kept.lit]; with_reducible apply KeptCore.of)
    | (extract_lets +onlyGivenNames x
       first
       | (refine Kept.cut (r := r) (x := x) ?_ ?_ <;> first | (clear_value x; intro hx) | subst x)
       | subst x)
    | split
    | dsimp only
    | rfl)

/-! ## Das -/

theorem State.setPdas_kept {r s : State} (h : Kept r s) (p : Nat) (f : PortDas → PortDas) :
    Kept r (State.setPdas s p f) := by
  unfold State.setPdas
  repeat' (first
    | with_reducible first | assumption | rfl
    | (simp only [Kept.lit, length_modAt]; with_reducible apply KeptCore.of)
    | (extract_lets +onlyGivenNames x
       first
       | (refine Kept.cut (r := r) (x := x) ?_ ?_ <;> first | (clear_value x; intro hx) | subst x)
       | subst x)
    | split
    | dsimp only
    | rfl)

theorem State.setTick_kept {r s : State} (h : Kept r s) (p : Nat) (n : Nat) (sl : Nat) (f : TickWork → TickWork) :
    Kept r (State.setTick s p n sl f) := by
  unfold State.setTick
  repeat' (first
    | with_reducible first | assumption | apply Kept.ite | rfl
    | (simp only [Kept.lit, List.length_map]; with_reducible apply KeptCore.of)
    | (extract_lets +onlyGivenNames x
       first
       | (refine Kept.cut (r := r) (x := x) ?_ ?_ <;> first | (clear_value x; intro hx) | subst x)
       | subst x)
    | split
    | dsimp only
    | rfl)

theorem State.fillNoFiring_kept {r s : State} (h : Kept r s) (p : Nat) (n : Nat) (sl : Nat) (o : Nat) :
    Kept r (State.fillNoFiring s p n sl o) := by
  unfold State.fillNoFiring
  repeat' (first
    | with_reducible first | assumption | apply Kept.ite | rfl
    | (simp only [Kept.lit, length_modAt, List.length_map]; with_reducible apply KeptCore.of)
    | (extract_lets +onlyGivenNames x
       first
       | (refine Kept.cut (r := r) (x := x) ?_ ?_ <;> first | (clear_value x; intro hx) | subst x)
       | subst x)
    | split
    | dsimp only
    | rfl)

theorem State.freshen_kept {r s : State} (h : Kept r s) (f : Flight) (p : Nat) (sl : Nat) (c : Nat) :
    Kept r (State.freshen s f p sl c) := by
  unfold State.freshen
  repeat' (first
    | with_reducible first | assumption | apply Kept.ite | apply State.setPdas_kept | apply State.fillNoFiring_kept
    | (extract_lets +onlyGivenNames x
       first
       | (refine Kept.cut (r := r) (x := x) ?_ ?_ <;> first | (clear_value x; intro hx) | subst x)
       | subst x)
    | split
    | dsimp only)

theorem State.chanItem_kept {r s : State} (h : Kept r s) (f : Flight) (p : Nat) (sl : Nat) (c : Nat) :
    Kept r (State.chanItem s f p sl c) := by
  unfold State.chanItem
  repeat' (first
    | with_reducible
        first
        | assumption | apply Kept.ite | apply State.freshen_kept | apply State.setTick_kept | apply State.setPdas_kept
    | (extract_lets +onlyGivenNames x
       first
       | (refine Kept.cut (r := r) (x := x) ?_ ?_ <;> first | (clear_value x; intro hx) | subst x)
       | subst x)
    | split
    | dsimp only)

theorem State.outItem_kept {r s : State} (h : Kept r s) (f : Flight) (p : Nat) (sl : Nat) (o : Nat) (bad : Bool) :
    Kept r (State.outItem s f p sl o bad) := by
  unfold State.outItem
  repeat' (first
    | with_reducible
        first
        | assumption | apply Kept.ite | apply State.fillNoFiring_kept | apply State.freshen_kept
        | apply State.setTick_kept | apply State.setPdas_kept | apply Kept.ite_snd | refine Kept.snd ‹_ = (_, _)› ?_
    | (extract_lets +onlyGivenNames x
       first
       | (refine Kept.cut (r := r) (x := x) ?_ ?_ <;> first | (clear_value x; intro hx) | subst x)
       | subst x)
    | split
    | dsimp only)

theorem State.endedOuts_kept {r s : State} (h : Kept r s) (f : Flight) (p : Nat) (sl : Nat) :
    Kept r (State.endedOuts s f p sl) := by
  unfold State.endedOuts
  repeat' (first
    | with_reducible first | assumption | apply State.outItem_kept | refine Kept.foldl (fun _ _ _ => ?_) _ ?_
    | split
    | dsimp only
    | (intro s1 h1; dsimp only)
    | intro s1 h1)

theorem State.markLost_kept {r s : State} (h : Kept r s) (f : Flight) : Kept r (State.markLost s f) := by
  unfold State.markLost
  repeat' (first
    | with_reducible first | assumption | apply Kept.ite | rfl
    | (simp only [Kept.lit, List.length_map]; with_reducible apply KeptCore.of)
    | (extract_lets +onlyGivenNames x
       first
       | (refine Kept.cut (r := r) (x := x) ?_ ?_ <;> first | (clear_value x; intro hx) | subst x)
       | subst x)
    | split
    | dsimp only
    | rfl)

theorem execSegmentEmit_kept {r s : State} (h : Kept r s) (t : Nat) (port : Nat) (sweep : Nat) (slot : Nat) (first : Nat) :
    KeptO r (execSegmentEmit t port sweep slot first s) := by
  unfold execSegmentEmit
  repeat' (first
    | with_reducible
        first
        | assumption | apply Kept.ite | apply KeptO.ite | apply KeptO.next | apply State.at_kept
        | apply State.cause_kept | apply State.offerStream_kept
    | (extract_lets +onlyGivenNames x
       first
       | (refine Kept.cut (r := r) (x := x) ?_ ?_ <;> first | (clear_value x; intro hx) | subst x)
       | subst x)
    | split
    | dsimp only)

theorem State.openTicks_kept {r s : State} (h : Kept r s) (f : Flight) (slot : Nat) :
    Kept r (State.openTicks s f slot) := by
  unfold State.openTicks
  repeat' (first
    | with_reducible
        first
        | assumption | apply Kept.ite | apply State.os_kept | refine Kept.foldl (fun _ _ _ => ?_) _ ?_ | rfl
    | (simp only [Kept.lit, List.length_map, length_rep]; with_reducible apply KeptCore.of)
    | (extract_lets +onlyGivenNames x
       first
       | (refine Kept.cut (r := r) (x := x) ?_ ?_ <;> first | (clear_value x; intro hx) | subst x)
       | subst x)
    | split
    | dsimp only
    | rfl
    | (intro s1 h1; dsimp only)
    | intro s1 h1)

theorem State.chainReset_kept {r s : State} (h : Kept r s) (p : Nat) (sweep : Nat) :
    Kept r (State.chainReset s p sweep) := by
  unfold State.chainReset
  repeat' (first
    | with_reducible first | assumption | apply State.setPdas_kept)

theorem State.mapChange_kept {r s : State} (h : Kept r s) : Kept r (State.mapChange s) := by
  unfold State.mapChange
  repeat' (first
    | with_reducible first | assumption | apply State.setPdas_kept | refine Kept.foldl (fun _ _ _ => ?_) _ ?_
    | (intro s1 h1; dsimp only)
    | intro s1 h1)

theorem State.dasComplete_kept {r s : State} (h : Kept r s) (f : Flight) : Kept r (State.dasComplete s f) := by
  unfold State.dasComplete
  repeat' (first
    | with_reducible
        first
        | assumption | apply Kept.ite | apply State.countAt_kept | apply State.setPdas_kept
        | refine Kept.foldl (fun _ _ _ => ?_) _ ?_ | rfl
    | (simp only [Kept.lit, List.length_map]; with_reducible apply KeptCore.of)
    | (extract_lets +onlyGivenNames x
       first
       | (refine Kept.cut (r := r) (x := x) ?_ ?_ <;> first | (clear_value x; intro hx) | subst x)
       | subst x)
    | split
    | dsimp only
    | rfl
    | (intro s1 h1; dsimp only)
    | intro s1 h1)

/-! ## Regions -/

theorem State.unreserve_kept {r s : State} (h : Kept r s) (k : RegionKind) : Kept r (State.unreserve s k) := by
  unfold State.unreserve
  repeat' (first
    | with_reducible first | assumption | rfl
    | (simp only [Kept.lit]; with_reducible apply KeptCore.of)
    | (extract_lets +onlyGivenNames x
       first
       | (refine Kept.cut (r := r) (x := x) ?_ ?_ <;> first | (clear_value x; intro hx) | subst x)
       | subst x)
    | split
    | dsimp only
    | rfl)

theorem State.keepDrained_kept {r s : State} (h : Kept r s) (rung : Nat) : Kept r (State.keepDrained s rung) := by
  unfold State.keepDrained
  repeat' (first
    | with_reducible first | assumption | apply Kept.ite | rfl
    | unfold State.setMem
    | (simp only [Kept.lit, List.length_map]; with_reducible apply KeptCore.of)
    | rfl)

theorem State.reserve_kept {r s : State} (h : Kept r s) (k : RegionKind) (size : Nat) :
    KeptP r (State.reserve s k size) := by
  unfold State.reserve
  repeat' (first
    | with_reducible
        first
        | assumption | apply Kept.ite | apply KeptP.ite | apply KeptP.some | exact KeptP.none | apply Kept.getD
        | apply State.unreserve_kept | refine Kept.ofP ‹_ = Option.some _› ?_ | rfl
    | (simp only [Kept.lit]; with_reducible apply KeptCore.of)
    | (extract_lets +onlyGivenNames x
       first
       | (refine Kept.cut (r := r) (x := x) ?_ ?_ <;> first | (clear_value x; intro hx) | subst x)
       | subst x)
    | split
    | dsimp only
    | rfl)

theorem State.touch_kept {r s : State} (h : Kept r s) (a : Nat) (n : Nat) : Kept r (State.touch s a n) := by
  unfold State.touch
  repeat' (first
    | with_reducible first | assumption | apply Kept.ite | rfl
    | unfold State.setMem
    | (simp only [Kept.lit, List.length_map]; with_reducible apply KeptCore.of)
    | (extract_lets +onlyGivenNames x
       first
       | (refine Kept.cut (r := r) (x := x) ?_ ?_ <;> first | (clear_value x; intro hx) | subst x)
       | subst x)
    | split
    | dsimp only
    | rfl)

theorem State.dramWrite_kept {r s : State} (h : Kept r s) (a : Nat) (b : List Byte) :
    Kept r (State.dramWrite s a b) := by
  unfold State.dramWrite
  repeat' (first
    | with_reducible
        first
        | assumption | apply State.touch_kept | rfl | exact swf_nil _ | apply swf_memWrite | apply swf_sput
        | apply swf_memClear
    | unfold State.setMem
    | (simp only [Kept.lit]; with_reducible apply KeptCore.units)
    | ((with_reducible
        first
        | apply State.Sound.dram | apply State.Sound.cashew | apply State.Sound.data | apply State.Sound.program
        | apply State.Sound.rungs | apply State.Sound.optics | apply State.Sound.das | apply State.Sound.poppy
        | apply State.Sound.engines | apply State.Sound.zones | apply State.Sound.seqs | apply State.Sound.captures
        | apply State.Sound.queues | apply State.Sound.flax | apply State.Sound.tx | apply State.Sound.rx
        | apply State.Sound.emcy | apply State.Sound.log); with_reducible apply Kept.toSound)
    | (simp only [List.length_replicate]; done)
    | rfl)

theorem State.cornerWrite_kept {r s : State} (h : Kept r s) (pl : Plan) (p : Nat) (base : Nat) (i : Nat)
    (vals : List (Int × Nat)) :
    Kept r (State.cornerWrite s pl p base i vals) := by
  unfold State.cornerWrite
  repeat' (first
    | with_reducible first | assumption | apply State.dramWrite_kept | refine Kept.foldl (fun _ _ _ => ?_) _ ?_
    | split
    | dsimp only
    | (intro s1 h1; dsimp only)
    | intro s1 h1)

/-! ## Poppy -/

theorem State.setPpop_kept {r s : State} (h : Kept r s) (p : Nat) (f : PortPop → PortPop) :
    Kept r (State.setPpop s p f) := by
  unfold State.setPpop
  repeat' (first
    | with_reducible first | assumption | rfl
    | (simp only [Kept.lit, length_modAt]; with_reducible apply KeptCore.of)
    | (extract_lets +onlyGivenNames x
       first
       | (refine Kept.cut (r := r) (x := x) ?_ ?_ <;> first | (clear_value x; intro hx) | subst x)
       | subst x)
    | split
    | dsimp only
    | rfl)

theorem State.popSettle_kept {r s : State} (h : Kept r s) (p : Nat) : Kept r (State.popSettle s p) := by
  unfold State.popSettle
  repeat' (first
    | with_reducible
        first
        | assumption | apply Kept.ite | apply State.setPpop_kept | refine Kept.foldl (fun _ _ _ => ?_) _ ?_
    | (intro s1 h1; dsimp only)
    | intro s1 h1)

theorem State.runTicks_kept {r : State} (p : Nat) : ∀ (l : List PTick) (gs : List PGroup) {s : State}, Kept r s →
    Kept r (State.runTicks s p l gs).1
  | [], _, _, h => h
  | k :: l, gs, s, h => by
    unfold State.runTicks
    repeat' (first
    | with_reducible
          first
          | assumption | apply Kept.ite | apply State.setPpop_kept | apply State.os_kept | apply State.runTicks_kept
          | apply Kept.ite_snd | refine Kept.snd ‹_ = (_, _)› ?_ | refine Kept.fst ‹_ = (_, _)› ?_
      | (extract_lets +onlyGivenNames x
         first
         | (refine Kept.cut (r := r) (x := x) ?_ ?_ <;> first | (clear_value x; intro hx) | subst x)
         | subst x)
      | split
      | dsimp only)

theorem State.offerGroup_kept {r s : State} (h : Kept r s) (p : Nat) (ident : Nat) (ev : Nat) (g : PGroup) :
    Kept r (State.offerGroup s p ident ev g) := by
  unfold State.offerGroup
  repeat' (first
    | with_reducible
        first
        | assumption | apply Kept.ite | apply State.restartCtxs_kept | apply State.offerStream_kept
        | refine Kept.foldl (fun _ _ _ => ?_) _ ?_
    | (extract_lets +onlyGivenNames x
       first
       | (refine Kept.cut (r := r) (x := x) ?_ ?_ <;> first | (clear_value x; intro hx) | subst x)
       | subst x)
    | split
    | dsimp only
    | (intro s1 h1; dsimp only)
    | intro s1 h1)

theorem State.showPoppy_kept {r s : State} (h : Kept r s) : Kept r (State.showPoppy s) := by
  unfold State.showPoppy
  repeat' (first
    | with_reducible
        first
        | assumption | apply State.os_kept | refine Kept.foldl (fun _ _ _ => ?_) _ ?_
        | refine Kept.snd ‹_ = (_, _)› ?_
    | (extract_lets +onlyGivenNames x
       first
       | (refine Kept.cut (r := r) (x := x) ?_ ?_ <;> first | (clear_value x; intro hx) | subst x)
       | subst x)
    | split
    | dsimp only
    | (intro s1 h1; dsimp only)
    | intro s1 h1)

theorem State.planMove_kept {r s : State} (h : Kept r s) (p : Nat) (read : Bool) (begins : Bool) (ends : Bool) (n : Nat) :
    Kept r (State.planMove s p read begins ends n) := by
  unfold State.planMove
  repeat' (first
    | with_reducible first | assumption | apply Kept.ite | apply State.os_kept
    | (extract_lets +onlyGivenNames x
       first
       | (refine Kept.cut (r := r) (x := x) ?_ ?_ <;> first | (clear_value x; intro hx) | subst x)
       | subst x)
    | split
    | dsimp only)

theorem State.planBuild_kept {r s : State} (h : Kept r s) (pl : Plan) (p : Nat) (read : Bool) :
    Kept r (State.planBuild s pl p read) := by
  unfold State.planBuild
  repeat' (first
    | with_reducible
        first
        | assumption | apply Kept.ite | apply State.draw_kept | apply State.os_kept | apply Kept.ite_snd
        | refine Kept.snd ‹_ = (_, _)› ?_
    | split
    | dsimp only)

theorem State.planChannels_kept {r s : State} (h : Kept r s) (pl : Plan) : Kept r (State.planChannels s pl) := by
  unfold State.planChannels
  repeat' (first
    | with_reducible first | assumption | apply State.planBuild_kept | refine Kept.foldl (fun _ _ _ => ?_) _ ?_
    | (intro s1 h1; dsimp only)
    | intro s1 h1)

theorem execPoppyBlock_kept {r s : State} (h : Kept r s) (t : Nat) (port : Nat) (block : Nat) (corrected : Nat) :
    KeptO r (execPoppyBlock t port block corrected s) := by
  unfold execPoppyBlock
  repeat' (first
    | with_reducible
        first
        | assumption | apply Kept.ite | apply KeptO.ite | apply KeptO.next | apply State.dramFixed_kept
        | apply State.at_kept | apply State.setPpop_kept | apply State.planMove_kept | apply State.runTicks_kept
        | apply State.offerGroup_kept | apply State.showPoppy_kept | apply State.popSettle_kept | apply Kept.ite_snd
        | refine Kept.foldl (fun _ _ _ => ?_) _ ?_ | refine Kept.snd ‹_ = (_, _)› ?_ | refine Kept.fst ‹_ = (_, _)› ?_
    | (extract_lets +onlyGivenNames x
       first
       | (refine Kept.cut (r := r) (x := x) ?_ ?_ <;> first | (clear_value x; intro hx) | subst x)
       | subst x)
    | split
    | dsimp only
    | (intro s1 h1; dsimp only)
    | intro s1 h1)

theorem State.cornerPort_kept {r s : State} (h : Kept r s) (f : Flight) (p : Nat) :
    Kept r (State.cornerPort s f p) := by
  unfold State.cornerPort
  repeat' (first
    | with_reducible
        first
        | assumption | apply Kept.ite | apply State.planMove_kept | apply State.cornerWrite_kept
        | apply State.setPpop_kept | apply State.countAt_kept | refine Kept.foldl (fun _ _ _ => ?_) _ ?_
    | (extract_lets +onlyGivenNames x
       first
       | (refine Kept.cut (r := r) (x := x) ?_ ?_ <;> first | (clear_value x; intro hx) | subst x)
       | subst x)
    | split
    | dsimp only
    | (intro s1 h1; dsimp only)
    | intro s1 h1)

theorem State.cornerTurn_kept {r s : State} (h : Kept r s) (f : Flight) : Kept r (State.cornerTurn s f) := by
  unfold State.cornerTurn
  repeat' (first
    | with_reducible first | assumption | apply State.cornerPort_kept | refine Kept.foldl (fun _ _ _ => ?_) _ ?_
    | (intro s1 h1; dsimp only)
    | intro s1 h1)

theorem State.poppyEvent_kept {r s : State} (h : Kept r s) (p : Nat) (at_ : Nat) (e : PEvent) :
    Kept r (State.poppyEvent s p at_ e) := by
  unfold State.poppyEvent
  repeat' (first
    | with_reducible first | assumption | apply State.popSettle_kept | apply State.setPpop_kept)

theorem State.poppyAll_kept {r s : State} (h : Kept r s) (at_ : Nat) (e : PEvent) :
    Kept r (State.poppyAll s at_ e) := by
  unfold State.poppyAll
  repeat' (first
    | with_reducible first | assumption | apply State.poppyEvent_kept | refine Kept.foldl (fun _ _ _ => ?_) _ ?_
    | (intro s1 h1; dsimp only)
    | intro s1 h1)

theorem State.poppyTake_kept {r s : State} (h : Kept r s) (old : Option Plan) (pl : Plan) (index : Nat)
    (entry : Bool) (late : Bool) (chain : List Nat) :
    Kept r (State.poppyTake s old pl index entry late chain) := by
  unfold State.poppyTake
  repeat' (first
    | with_reducible
        first
        | assumption | apply Kept.ite | apply State.poppyAll_kept | apply State.restartCtxs_kept
        | apply State.planChannels_kept | apply State.os_kept | apply State.poppyEvent_kept
        | apply State.showPoppy_kept | refine Kept.foldl (fun _ _ _ => ?_) _ ?_
    | (extract_lets +onlyGivenNames x
       first
       | (refine Kept.cut (r := r) (x := x) ?_ ?_ <;> first | (clear_value x; intro hx) | subst x)
       | subst x)
    | split
    | dsimp only
    | (intro s1 h1; dsimp only)
    | intro s1 h1)

theorem State.poppyTransfer_kept {r s : State} (h : Kept r s) (sub : Nat) (b : List Byte) (at_ : Nat) :
    Kept r (State.poppyTransfer s sub b at_) := by
  unfold State.poppyTransfer
  repeat' (first
    | with_reducible first | assumption | apply Kept.ite | apply State.poppyAll_kept | apply State.os_kept
    | (extract_lets +onlyGivenNames x
       first
       | (refine Kept.cut (r := r) (x := x) ?_ ?_ <;> first | (clear_value x; intro hx) | subst x)
       | subst x)
    | split
    | dsimp only)

theorem bankLoad_kept {r s : State} (h : Kept r s) (j : Nat) (b : List Byte) : KeptE r (bankLoad j b s) := by
  unfold bankLoad
  repeat' (first
    | with_reducible
        first
        | assumption | apply KeptE.ok | apply KeptE.error | apply require_kept | apply shadow_kept
        | refine Kept.ofE ‹_ = Except.ok _› ?_
    | split
    | dsimp only
    | (intro s1 h1; dsimp only)
    | intro s1 h1)

theorem execInactiveBankLoad_kept {r s : State} (h : Kept r s) (t : Nat) (c : Nat) (stage : Nat) (data : List Byte) :
    KeptO r (execInactiveBankLoad t c stage data s) := by
  unfold execInactiveBankLoad
  repeat' (first
    | with_reducible
        first
        | assumption | apply KeptE.ok | apply KeptE.error | apply KeptO.next | apply State.hostWrite_kept
        | apply State.at_kept | apply bankLoad_kept | refine Kept.ofE ‹_ = Except.ok _› ?_
    | (intro s1 h1; dsimp only)
    | intro s1 h1)

theorem execPoppyResetWrite_kept {r s : State} (h : Kept r s) (t : Nat) (c : Nat) :
    KeptO r (execPoppyResetWrite t c s) := by
  unfold execPoppyResetWrite
  repeat' (first
    | with_reducible
        first
        | assumption | apply KeptE.ok | apply KeptE.error | apply KeptO.next | apply State.hostWrite_kept
        | apply State.at_kept | apply shadow_kept | refine Kept.ofE ‹_ = Except.ok _› ?_
    | (intro s1 h1; dsimp only)
    | intro s1 h1)

theorem execPoppyModeWrite_kept {r s : State} (h : Kept r s) (t : Nat) (c : Nat) (mode : Nat) :
    KeptO r (execPoppyModeWrite t c mode s) := by
  unfold execPoppyModeWrite
  repeat' (first
    | with_reducible
        first
        | assumption | apply KeptE.ok | apply KeptE.error | apply KeptO.next | apply State.hostWrite_kept
        | apply State.at_kept | apply shadow_kept | refine Kept.ofE ‹_ = Except.ok _› ?_
    | (intro s1 h1; dsimp only)
    | intro s1 h1)

end Sys2Proof.Machine
end

