-- ==== Sys2Proof/Laws/KeptMemory.lean ====
section
/-! SUPPORT. What Kept of Safety.lean says of each function of the model:
the memory system and raw bursts. -/

namespace Sys2Proof.Machine

open Sys2Proof

set_option linter.unusedSimpArgs false
set_option linter.unusedVariables false

/-! ## Memory -/

theorem State.reserveFixed_kept {r s : State} (h : Kept r s) : Kept r (State.reserveFixed s) := by
  unfold State.reserveFixed
  repeat' (first
    | with_reducible
        first
        | assumption | apply KeptP.some | exact KeptP.none | apply Kept.getD | apply State.reserve_kept
        | refine Kept.ofP ‹_ = Option.some _› ?_
    | (extract_lets +onlyGivenNames x
       first
       | (refine Kept.cut (r := r) (x := x) ?_ ?_ <;> first | (clear_value x; intro hx) | subst x)
       | subst x)
    | split
    | dsimp only)

theorem State.reservePlan_kept {r s : State} (h : Kept r s) (rung : Nat) (pl : Plan) :
    KeptP r (State.reservePlan s rung pl) := by
  unfold State.reservePlan
  repeat' (first
    | with_reducible
        first
        | assumption | apply Kept.ite | apply KeptP.ite | apply KeptP.some | exact KeptP.none | apply Kept.getD
        | apply State.reserve_kept | apply State.keepDrained_kept | refine Kept.ofP ‹_ = Option.some _› ?_
    | (extract_lets +onlyGivenNames x
       first
       | (refine Kept.cut (r := r) (x := x) ?_ ?_ <;> first | (clear_value x; intro hx) | subst x)
       | subst x)
    | split
    | dsimp only)

theorem State.reserveEntry_kept {r s : State} (h : Kept r s) (rung : Nat) (pl : Plan) :
    KeptP r (State.reserveEntry s rung pl) := by
  unfold State.reserveEntry
  repeat' (first
    | with_reducible
        first
        | assumption | apply KeptP.some | exact KeptP.none | apply Kept.getD | apply State.reservePlan_kept
        | apply State.reserve_kept | refine Kept.ofP ‹_ = Option.some _› ?_
    | split
    | dsimp only)

theorem State.showUsable_kept {r s : State} (h : Kept r s) : Kept r (State.showUsable s) := by
  unfold State.showUsable
  repeat' (first
    | with_reducible first | assumption | apply State.os_kept)

theorem State.ownBanks_kept {r s : State} (h : Kept r s) (pl : Plan) : Kept r (State.ownBanks s pl) := by
  unfold State.ownBanks
  repeat' (first
    | with_reducible first | assumption | apply State.os_kept | refine Kept.foldl (fun _ _ _ => ?_) _ ?_
    | (intro s1 h1; dsimp only)
    | intro s1 h1)

theorem State.releaseBanks_kept {r s : State} (h : Kept r s) : Kept r (State.releaseBanks s) := by
  unfold State.releaseBanks
  repeat' (first
    | with_reducible
        first
        | assumption | apply Kept.ite | apply State.os_kept | refine Kept.foldl (fun _ _ _ => ?_) _ ?_
    | split
    | dsimp only
    | (intro s1 h1; dsimp only)
    | intro s1 h1)

theorem State.releaseRegions_kept {r s : State} (h : Kept r s) : Kept r (State.releaseRegions s) := by
  unfold State.releaseRegions
  repeat' (first
    | with_reducible first | assumption | rfl
    | unfold State.setMem
    | (simp only [Kept.lit]; with_reducible apply KeptCore.of)
    | (extract_lets +onlyGivenNames x
       first
       | (refine Kept.cut (r := r) (x := x) ?_ ?_ <;> first | (clear_value x; intro hx) | subst x)
       | subst x)
    | split
    | dsimp only
    | rfl)

theorem bankOwner_kept {r s : State} (h : Kept r s) (b : Nat) (v : Nat) : KeptE r (bankOwner b v s) := by
  unfold bankOwner
  repeat' (first
    | with_reducible
        first
        | assumption | apply KeptE.ok | apply KeptE.error | apply require_kept | apply State.os_kept
        | refine Kept.snd ‹_ = (_, _)› ?_ | refine Kept.ofE ‹_ = Except.ok _› ?_ | rfl
    | (simp only [Kept.lit]; with_reducible apply KeptCore.of)
    | (extract_lets +onlyGivenNames x
       first
       | (refine Kept.cut (r := r) (x := x) ?_ ?_ <;> first | (clear_value x; intro hx) | subst x)
       | subst x)
    | split
    | dsimp only
    | rfl
    | (intro s1 h1; dsimp only)
    | intro s1 h1)

theorem execBankOwnerWrite_kept {r s : State} (h : Kept r s) (t : Nat) (c : Nat) (bank : Nat) (owner : Nat) :
    KeptO r (execBankOwnerWrite t c bank owner s) := by
  unfold execBankOwnerWrite
  repeat' (first
    | with_reducible
        first
        | assumption | apply KeptE.ok | apply KeptE.error | apply KeptO.next | apply State.hostWrite_kept
        | apply State.at_kept | apply bankOwner_kept | refine Kept.ofE ‹_ = Except.ok _› ?_
    | (intro s1 h1; dsimp only)
    | intro s1 h1)

theorem execBusyStrobe_kept {r s : State} (h : Kept r s) (t : Nat) (bank : Nat) :
    KeptO r (execBusyStrobe t bank s) := by
  unfold execBusyStrobe
  repeat' (first
    | with_reducible
        first
        | assumption | apply Kept.ite | apply KeptO.ite | apply KeptO.next | apply State.at_kept
        | apply State.osBit_kept | apply State.count_kept | apply State.bump_kept
    | (extract_lets +onlyGivenNames x
       first
       | (refine Kept.cut (r := r) (x := x) ?_ ?_ <;> first | (clear_value x; intro hx) | subst x)
       | subst x)
    | split
    | dsimp only)

theorem execCashewScrub_kept {r s : State} (h : Kept r s) (t : Nat) (bank : Nat) (dword : Nat) (error : EccError) :
    KeptO r (execCashewScrub t bank dword error s) := by
  unfold execCashewScrub
  repeat' (first
    | with_reducible
        first
        | assumption | apply Kept.ite | apply KeptO.ite | apply KeptO.next | apply State.at_kept
        | apply State.eccFix_kept | apply State.bump_kept | apply State.eccLost_kept
    | (extract_lets +onlyGivenNames x
       first
       | (refine Kept.cut (r := r) (x := x) ?_ ?_ <;> first | (clear_value x; intro hx) | subst x)
       | subst x)
    | split
    | dsimp only)

theorem execRefresh_kept {r s : State} (h : Kept r s) (t : Nat) (iface : Nat) (waiting : Bool) :
    KeptO r (execRefresh t iface waiting s) := by
  unfold execRefresh
  repeat' (first
    | with_reducible
        first
        | assumption | apply Kept.ite | apply KeptO.ite | apply KeptO.next | apply State.at_kept | rfl
    | unfold State.setMem
    | (simp only [Kept.lit, length_modAt]; with_reducible apply KeptCore.of)
    | (extract_lets +onlyGivenNames x
       first
       | (refine Kept.cut (r := r) (x := x) ?_ ?_ <;> first | (clear_value x; intro hx) | subst x)
       | subst x)
    | split
    | dsimp only
    | rfl)

theorem execSelfRefreshEntry_kept {r s : State} (h : Kept r s) (t : Nat) (iface : Nat) :
    KeptO r (execSelfRefreshEntry t iface s) := by
  unfold execSelfRefreshEntry
  repeat' (first
    | with_reducible
        first
        | assumption | apply Kept.ite | apply KeptO.ite | apply KeptO.next | apply State.at_kept | rfl
    | unfold State.setMem
    | (simp only [Kept.lit, length_modAt]; with_reducible apply KeptCore.of)
    | (extract_lets +onlyGivenNames x
       first
       | (refine Kept.cut (r := r) (x := x) ?_ ?_ <;> first | (clear_value x; intro hx) | subst x)
       | subst x)
    | split
    | dsimp only
    | rfl)

theorem refreshMode_kept {r s : State} (h : Kept r s) (v : Nat) : KeptE r (refreshMode v s) := by
  unfold refreshMode
  repeat' (first
    | with_reducible
        first
        | assumption | apply KeptE.ok | apply KeptE.error | apply require_kept | apply State.showUsable_kept
        | apply State.os_kept | refine Kept.ofE ‹_ = Except.ok _› ?_ | rfl
    | unfold State.setMem
    | (simp only [Kept.lit]; with_reducible apply KeptCore.of)
    | (extract_lets +onlyGivenNames x
       first
       | (refine Kept.cut (r := r) (x := x) ?_ ?_ <;> first | (clear_value x; intro hx) | subst x)
       | subst x)
    | split
    | dsimp only
    | rfl
    | (intro s1 h1; dsimp only)
    | intro s1 h1)

theorem execRefreshModeWrite_kept {r s : State} (h : Kept r s) (t : Nat) (c : Nat) (mode : Nat) :
    KeptO r (execRefreshModeWrite t c mode s) := by
  unfold execRefreshModeWrite
  repeat' (first
    | with_reducible
        first
        | assumption | apply KeptE.ok | apply KeptE.error | apply KeptO.next | apply State.hostWrite_kept
        | apply State.at_kept | apply refreshMode_kept | refine Kept.ofE ‹_ = Except.ok _› ?_
    | (intro s1 h1; dsimp only)
    | intro s1 h1)

theorem fullScrub_kept {r s : State} (h : Kept r s) : KeptE r (fullScrub s) := by
  unfold fullScrub
  repeat' (first
    | with_reducible
        first
        | assumption | apply KeptE.ok | apply KeptE.error | apply require_kept | apply State.startLong_kept
        | refine Kept.ofE ‹_ = Except.ok _› ?_
    | (intro s1 h1; dsimp only)
    | intro s1 h1)

theorem execFullScrub_kept {r s : State} (h : Kept r s) (t : Nat) (c : Nat) : KeptO r (execFullScrub t c s) := by
  unfold execFullScrub
  repeat' (first
    | with_reducible
        first
        | assumption | apply KeptE.ok | apply KeptE.error | apply KeptO.next | apply State.hostWrite_kept
        | apply State.at_kept | apply fullScrub_kept | refine Kept.ofE ‹_ = Except.ok _› ?_
    | (intro s1 h1; dsimp only)
    | intro s1 h1)

theorem State.showDram_kept {r s : State} (h : Kept r s) (x : Nat × Nat × Nat × Nat) : Kept r (State.showDram s x) := by
  unfold State.showDram
  repeat' (first
    | with_reducible first | assumption | apply Kept.ite | apply State.os_kept | apply State.showUsable_kept
    | (extract_lets +onlyGivenNames x
       first
       | (refine Kept.cut (r := r) (x := x) ?_ ?_ <;> first | (clear_value x; intro hx) | subst x)
       | subst x)
    | split
    | dsimp only)

theorem State.dramLost_kept {r s : State} (h : Kept r s) : Kept r (State.dramLost s) := by
  unfold State.dramLost
  repeat' (first
    | with_reducible
        first
        | assumption | rfl | exact swf_nil _ | apply swf_memWrite | apply swf_sput | apply swf_memClear
    | (simp only [Kept.lit, length_rep]; with_reducible apply KeptCore.units)
    | ((with_reducible
        first
        | apply State.Sound.dram | apply State.Sound.cashew | apply State.Sound.data | apply State.Sound.program
        | apply State.Sound.rungs | apply State.Sound.optics | apply State.Sound.das | apply State.Sound.poppy
        | apply State.Sound.engines | apply State.Sound.zones | apply State.Sound.seqs | apply State.Sound.captures
        | apply State.Sound.queues | apply State.Sound.flax | apply State.Sound.tx | apply State.Sound.rx
        | apply State.Sound.emcy | apply State.Sound.log); with_reducible apply Kept.toSound)
    | (simp only [List.length_replicate]; done)
    | (extract_lets +onlyGivenNames x
       first
       | (refine Kept.cut (r := r) (x := x) ?_ ?_ <;> first | (clear_value x; intro hx) | subst x)
       | subst x)
    | split
    | dsimp only
    | rfl)

/-! ## Bursts -/

theorem State.setBurst_kept {r s : State} (h : Kept r s) (src2 : Bool) (b : Option Burst) :
    Kept r (State.setBurst s src2 b) := by
  unfold State.setBurst
  repeat' (first
    | with_reducible first | assumption | apply Kept.ite | rfl
    | (simp only [Kept.lit]; with_reducible apply KeptCore.of)
    | (extract_lets +onlyGivenNames x
       first
       | (refine Kept.cut (r := r) (x := x) ?_ ?_ <;> first | (clear_value x; intro hx) | subst x)
       | subst x)
    | split
    | dsimp only
    | rfl)

theorem burstRequest_kept {r s : State} (h : Kept r s) : KeptE r (burstRequest s) := by
  unfold burstRequest
  repeat' (first
    | with_reducible
        first
        | assumption | apply Kept.ite | apply KeptE.ite | apply KeptE.ok | apply KeptE.error | apply require_kept
        | apply State.setBurst_kept | apply State.os_kept | refine Kept.ofE ‹_ = Except.ok _› ?_
    | (extract_lets +onlyGivenNames x
       first
       | (refine Kept.cut (r := r) (x := x) ?_ ?_ <;> first | (clear_value x; intro hx) | subst x)
       | subst x)
    | split
    | dsimp only
    | (intro s1 h1; dsimp only)
    | intro s1 h1)

theorem State.burstStarts_kept {r s : State} (h : Kept r s) (f : Flight) (src2 : Bool) :
    Kept r (State.burstStarts s f src2) := by
  unfold State.burstStarts
  repeat' (first
    | with_reducible first | assumption | apply Kept.ite | apply State.os_kept | apply State.setBurst_kept
    | (extract_lets +onlyGivenNames x
       first
       | (refine Kept.cut (r := r) (x := x) ?_ ?_ <;> first | (clear_value x; intro hx) | subst x)
       | subst x)
    | split
    | dsimp only)

theorem State.burstBoundary_kept {r s : State} (h : Kept r s) (f : Flight) : Kept r (State.burstBoundary s f) := by
  unfold State.burstBoundary
  repeat' (first
    | with_reducible first | assumption | apply State.burstStarts_kept)

theorem State.captureEnds_kept {r s : State} (h : Kept r s) (src2 : Bool) (b : Burst) :
    Kept r (State.captureEnds s src2 b) := by
  unfold State.captureEnds
  repeat' (first
    | with_reducible first | assumption | apply Kept.ite | apply State.setBurst_kept | apply State.os_kept | rfl
    | (simp only [Kept.lit]; with_reducible apply KeptCore.of)
    | (extract_lets +onlyGivenNames x
       first
       | (refine Kept.cut (r := r) (x := x) ?_ ?_ <;> first | (clear_value x; intro hx) | subst x)
       | subst x)
    | split
    | dsimp only
    | rfl)

theorem State.burstStops_kept {r s : State} (h : Kept r s) (src2 : Bool) : Kept r (State.burstStops s src2) := by
  unfold State.burstStops
  repeat' (first
    | with_reducible first | assumption | apply Kept.ite | apply State.captureEnds_kept | apply State.setBurst_kept
    | split
    | dsimp only)

theorem State.burstsStop_kept {r s : State} (h : Kept r s) : Kept r (State.burstsStop s) := by
  unfold State.burstsStop
  repeat' (first
    | with_reducible first | assumption | apply State.burstStops_kept)

theorem execChestnutOutput_kept {r s : State} (h : Kept r s) (t : Nat) (port : Nat) (sweep : Nat) (slot : Nat)
    (conts : List Quad) :
    KeptO r (execChestnutOutput t port sweep slot conts s) := by
  unfold execChestnutOutput
  repeat' (first
    | with_reducible
        first
        | assumption | apply Kept.ite | apply KeptO.ite | apply KeptO.next | apply State.at_kept
        | apply State.countAt_kept | apply State.bump_kept | rfl
    | (simp only [Kept.lit, List.length_map]; with_reducible apply KeptCore.of)
    | (extract_lets +onlyGivenNames x
       first
       | (refine Kept.cut (r := r) (x := x) ?_ ?_ <;> first | (clear_value x; intro hx) | subst x)
       | subst x)
    | split
    | dsimp only
    | rfl)

theorem State.endCapture01_kept {r s : State} (h : Kept r s) (b : Burst) (n : Nat) (data : List (List Quad)) :
    Kept r (State.endCapture01 s b n data) := by
  unfold State.endCapture01
  repeat' (first
    | with_reducible first | assumption | apply State.dramWrite_kept | apply State.captureEnds_kept
    | (extract_lets +onlyGivenNames x
       first
       | (refine Kept.cut (r := r) (x := x) ?_ ?_ <;> first | (clear_value x; intro hx) | subst x)
       | subst x)
    | split
    | dsimp only)

theorem execBurstCaptureEnd_kept {r s : State} (h : Kept r s) (t : Nat) (src2 : Bool) (truncated : Bool)
    (data : List (List Quad)) (captured : Nat) :
    KeptO r (execBurstCaptureEnd t src2 truncated data captured s) := by
  unfold execBurstCaptureEnd
  repeat' (first
    | with_reducible
        first
        | assumption | apply Kept.ite | apply KeptO.ite | apply KeptO.next | apply State.at_kept
        | apply State.captureEnds_kept | apply State.endCapture01_kept
    | (extract_lets +onlyGivenNames x
       first
       | (refine Kept.cut (r := r) (x := x) ?_ ?_ <;> first | (clear_value x; intro hx) | subst x)
       | subst x)
    | split
    | dsimp only)

theorem State.burstPayload_kept {r s : State} (h : Kept r s) (b : Burst) : Kept r (State.burstPayload s b).2 := by
  unfold State.burstPayload
  repeat' (first
    | with_reducible
        first
        | assumption | apply Kept.ite | apply State.garble_kept | apply Kept.ite_snd | refine Kept.snd ‹_ = (_, _)› ?_
    | (extract_lets +onlyGivenNames x
       first
       | (refine Kept.cut (r := r) (x := x) ?_ ?_ <;> first | (clear_value x; intro hx) | subst x)
       | subst x)
    | split
    | dsimp only)

theorem State.endReadout_kept {r s : State} (h : Kept r s) (src2 : Bool) (b : Burst) :
    Kept r (State.endReadout s src2 b) := by
  unfold State.endReadout
  repeat' (first
    | with_reducible first | assumption | apply Kept.ite | apply State.setBurst_kept | apply State.os_kept | rfl
    | (simp only [Kept.lit]; with_reducible apply KeptCore.of)
    | (extract_lets +onlyGivenNames x
       first
       | (refine Kept.cut (r := r) (x := x) ?_ ?_ <;> first | (clear_value x; intro hx) | subst x)
       | subst x)
    | split
    | dsimp only
    | rfl)

theorem State.abandon_kept {r s : State} (h : Kept r s) (src2 : Bool) : Kept r (State.abandon s src2) := by
  unfold State.abandon
  repeat' (first
    | with_reducible first | assumption | apply Kept.ite | apply State.setBurst_kept | apply State.os_kept | rfl
    | (simp only [Kept.lit]; with_reducible apply KeptCore.of)
    | (extract_lets +onlyGivenNames x
       first
       | (refine Kept.cut (r := r) (x := x) ?_ ?_ <;> first | (clear_value x; intro hx) | subst x)
       | subst x)
    | split
    | dsimp only
    | rfl)

theorem burstAbandon_kept {r s : State} (h : Kept r s) : KeptE r (burstAbandon s) := by
  unfold burstAbandon
  repeat' (first
    | with_reducible
        first
        | assumption | apply KeptE.ok | apply KeptE.error | apply State.abandon_kept
        | refine Kept.ofE ‹_ = Except.ok _› ?_ | rfl
    | (simp only [Kept.lit]; with_reducible apply KeptCore.of)
    | (extract_lets +onlyGivenNames x
       first
       | (refine Kept.cut (r := r) (x := x) ?_ ?_ <;> first | (clear_value x; intro hx) | subst x)
       | subst x)
    | split
    | dsimp only
    | rfl
    | (intro s1 h1; dsimp only)
    | intro s1 h1)

theorem execBurstRequest_kept {r s : State} (h : Kept r s) (t : Nat) (c : Nat) : KeptO r (execBurstRequest t c s) := by
  unfold execBurstRequest
  repeat' (first
    | with_reducible
        first
        | assumption | apply KeptE.ok | apply KeptE.error | apply KeptO.next | apply State.hostWrite_kept
        | apply State.at_kept | apply burstRequest_kept | refine Kept.ofE ‹_ = Except.ok _› ?_
    | (intro s1 h1; dsimp only)
    | intro s1 h1)

theorem execBurstAbandon_kept {r s : State} (h : Kept r s) (t : Nat) (c : Nat) : KeptO r (execBurstAbandon t c s) := by
  unfold execBurstAbandon
  repeat' (first
    | with_reducible
        first
        | assumption | apply KeptE.ok | apply KeptE.error | apply KeptO.next | apply State.hostWrite_kept
        | apply State.at_kept | apply burstAbandon_kept | refine Kept.ofE ‹_ = Except.ok _› ?_
    | (intro s1 h1; dsimp only)
    | intro s1 h1)

theorem State.burstRecord_kept {r s : State} (h : Kept r s) (q : Nat) (b : Burst) (payload : List Byte) :
    Kept r (State.burstRecord s q b payload) := by
  unfold State.burstRecord
  repeat' (first
    | with_reducible
        first
        | assumption | apply Kept.ite | apply State.offer_kept | apply Kept.ite_snd | refine Kept.snd ‹_ = (_, _)› ?_
    | dsimp only)

theorem execBurstReadout_kept {r s : State} (h : Kept r s) (t : Nat) : KeptO r (execBurstReadout t s) := by
  unfold execBurstReadout
  repeat' (first
    | with_reducible
        first
        | assumption | apply Kept.ite | apply KeptO.ite | apply KeptO.next | apply State.at_kept
        | apply State.burstRecord_kept | apply State.endReadout_kept | apply State.burstPayload_kept
        | apply State.setBurst_kept | apply Kept.ite_snd | refine Kept.snd ‹_ = (_, _)› ?_ | rfl
    | (simp only [Kept.lit]; with_reducible apply KeptCore.of)
    | (extract_lets +onlyGivenNames x
       first
       | (refine Kept.cut (r := r) (x := x) ?_ ?_ <;> first | (clear_value x; intro hx) | subst x)
       | subst x)
    | split
    | dsimp only
    | rfl)

end Sys2Proof.Machine
end

