-- ==== Sys2Proof/Laws/KeptSesame.lean ====
section
/-! SUPPORT. What Kept of Safety.lean says of each function of the model:
the waterfall port, captures and trigger sequences. -/

namespace Sys2Proof.Machine

open Sys2Proof

set_option linter.unusedSimpArgs false
set_option linter.unusedVariables false

/-! ## Sunflower -/

theorem State.sunScan_kept {r s : State} (h : Kept r s) : Kept r (State.sunScan s) := by
  unfold State.sunScan
  repeat' (first
    | with_reducible
        first
        | assumption | apply Kept.ite | apply State.emit_kept | refine Kept.foldl (fun _ _ _ => ?_) _ ?_ | rfl
    | (simp only [Kept.lit]; with_reducible apply KeptCore.of)
    | (extract_lets +onlyGivenNames x
       first
       | (refine Kept.cut (r := r) (x := x) ?_ ?_ <;> first | (clear_value x; intro hx) | subst x)
       | subst x)
    | split
    | dsimp only
    | rfl
    | (intro s1 h1; dsimp only)
    | intro s1 h1)

theorem State.waterfall_kept {r s : State} (h : Kept r s) (first : Nat) (count : Nat) :
    Kept r (State.waterfall s first count) := by
  unfold State.waterfall
  repeat' (first
    | with_reducible
        first
        | assumption | apply Kept.ite | apply State.sunScan_kept | apply State.draw_kept | apply State.os_kept
        | apply Kept.ite_snd | refine Kept.snd ‹_ = (_, _)› ?_ | rfl | exact swf_nil _ | apply swf_memWrite
        | apply swf_sput | apply swf_memClear
    | (simp only [Kept.lit]; with_reducible apply KeptCore.units)
    | ((with_reducible
        first
        | apply State.Sound.dram | apply State.Sound.cashew | apply State.Sound.data | apply State.Sound.program
        | apply State.Sound.rungs | apply State.Sound.optics | apply State.Sound.das | apply State.Sound.poppy
        | apply State.Sound.engines | apply State.Sound.zones | apply State.Sound.seqs | apply State.Sound.captures
        | apply State.Sound.queues | apply State.Sound.flax | apply State.Sound.tx | apply State.Sound.rx
        | apply State.Sound.emcy | apply State.Sound.log); with_reducible apply Kept.toSound)
    | (simp only [List.length_replicate]; done)
    | (extract_lets +onlyGivenNames x
       first
       | (refine Kept.cut (r := r) (x := x) ?_ ?_ <;> first | (clear_value x; intro hx) | subst x)
       | subst x)
    | split
    | dsimp only
    | rfl)

theorem ownerWrite_kept {r s : State} (h : Kept r s) (v : Nat) : KeptE r (ownerWrite v s) := by
  unfold ownerWrite
  repeat' (first
    | with_reducible
        first
        | assumption | apply Kept.ite | apply KeptE.ite | apply KeptE.ok | apply KeptE.error | apply State.os_kept
        | apply State.sunScan_kept | refine Kept.ofE ‹_ = Except.ok _› ?_ | rfl
    | (simp only [Kept.lit]; with_reducible apply KeptCore.of)
    | (extract_lets +onlyGivenNames x
       first
       | (refine Kept.cut (r := r) (x := x) ?_ ?_ <;> first | (clear_value x; intro hx) | subst x)
       | subst x)
    | split
    | dsimp only
    | rfl
    | (intro s1 h1; dsimp only)
    | intro s1 h1)

theorem execOwnerWrite_kept {r s : State} (h : Kept r s) (t : Nat) (c : Nat) (owner : Nat) :
    KeptO r (execOwnerWrite t c owner s) := by
  unfold execOwnerWrite
  repeat' (first
    | with_reducible
        first
        | assumption | apply KeptE.ok | apply KeptE.error | apply KeptO.next | apply State.hostWrite_kept
        | apply State.at_kept | apply ownerWrite_kept | refine Kept.ofE ‹_ = Except.ok _› ?_
    | (intro s1 h1; dsimp only)
    | intro s1 h1)

theorem sunflowerEnable_kept {r s : State} (h : Kept r s) (v : Nat) : KeptE r (sunflowerEnable v s) := by
  unfold sunflowerEnable
  repeat' (first
    | with_reducible
        first
        | assumption | apply Kept.ite | apply KeptE.ite | apply KeptE.ok | apply KeptE.error | apply require_kept
        | apply State.os_kept | refine Kept.ofE ‹_ = Except.ok _› ?_ | rfl
    | (simp only [Kept.lit]; with_reducible apply KeptCore.of)
    | (extract_lets +onlyGivenNames x
       first
       | (refine Kept.cut (r := r) (x := x) ?_ ?_ <;> first | (clear_value x; intro hx) | subst x)
       | subst x)
    | split
    | dsimp only
    | rfl
    | (intro s1 h1; dsimp only)
    | intro s1 h1)

theorem execSunflowerEnable_kept {r s : State} (h : Kept r s) (t : Nat) (c : Nat) :
    KeptO r (execSunflowerEnable t c s) := by
  unfold execSunflowerEnable
  repeat' (first
    | with_reducible
        first
        | assumption | apply KeptE.ok | apply KeptE.error | apply KeptO.next | apply State.hostWrite_kept
        | apply State.at_kept | apply sunflowerEnable_kept | refine Kept.ofE ‹_ = Except.ok _› ?_
    | (intro s1 h1; dsimp only)
    | intro s1 h1)

theorem execSunflowerDisable_kept {r s : State} (h : Kept r s) (t : Nat) (c : Nat) :
    KeptO r (execSunflowerDisable t c s) := by
  unfold execSunflowerDisable
  repeat' (first
    | with_reducible
        first
        | assumption | apply KeptE.ok | apply KeptE.error | apply KeptO.next | apply State.hostWrite_kept
        | apply State.at_kept | apply sunflowerEnable_kept | refine Kept.ofE ‹_ = Except.ok _› ?_
    | (intro s1 h1; dsimp only)
    | intro s1 h1)

theorem execVerticalSync_kept {r s : State} (h : Kept r s) (t : Nat) : KeptO r (execVerticalSync t s) := by
  unfold execVerticalSync
  repeat' (first
    | with_reducible
        first
        | assumption | apply Kept.ite | apply KeptO.ite | apply KeptO.next | apply State.at_kept
        | apply State.bump_kept | apply State.sunScan_kept | rfl
    | (simp only [Kept.lit]; with_reducible apply KeptCore.of)
    | (extract_lets +onlyGivenNames x
       first
       | (refine Kept.cut (r := r) (x := x) ?_ ?_ <;> first | (clear_value x; intro hx) | subst x)
       | subst x)
    | split
    | dsimp only
    | rfl)

theorem execUnderrun_kept {r s : State} (h : Kept r s) (t : Nat) (line : Nat) : KeptO r (execUnderrun t line s) := by
  unfold execUnderrun
  repeat' (first
    | with_reducible
        first
        | assumption | apply Kept.ite | apply KeptO.ite | apply KeptO.next | apply State.at_kept
        | apply State.emit_kept | apply State.count_kept | apply State.bump_kept | apply State.sunScan_kept
        | apply Kept.ite_snd | refine Kept.snd ‹_ = (_, _)› ?_ | rfl
    | (simp only [Kept.lit]; with_reducible apply KeptCore.of)
    | (extract_lets +onlyGivenNames x
       first
       | (refine Kept.cut (r := r) (x := x) ?_ ?_ <;> first | (clear_value x; intro hx) | subst x)
       | subst x)
    | split
    | dsimp only
    | rfl)

/-! ## Capture -/

theorem State.setCap_kept {r s : State} (h : Kept r s) (c : Nat) (f : Capture → Capture) :
    Kept r (State.setCap s c f) := by
  unfold State.setCap
  repeat' (first
    | with_reducible first | assumption | rfl
    | (simp only [Kept.lit, length_modAt]; with_reducible apply KeptCore.of)
    | rfl)

theorem State.endPost_kept {r s : State} (h : Kept r s) (c : Nat) (flag : Nat) : Kept r (State.endPost s c flag) := by
  unfold State.endPost
  repeat' (first
    | with_reducible first | assumption | apply State.bump_kept | apply State.setCap_kept | apply State.os_kept
    | (extract_lets +onlyGivenNames x
       first
       | (refine Kept.cut (r := r) (x := x) ?_ ?_ <;> first | (clear_value x; intro hx) | subst x)
       | subst x)
    | split
    | dsimp only)

theorem State.storeEntry_kept {r s : State} (h : Kept r s) (c : Nat) (bytes : List Byte) (slot : Nat) :
    Kept r (State.storeEntry s c bytes slot) := by
  unfold State.storeEntry
  repeat' (first
    | with_reducible
        first
        | assumption | apply Kept.ite | apply State.setCap_kept | apply State.endPost_kept | apply Kept.ite_snd
        | refine Kept.foldl (fun _ _ _ => ?_) _ ?_ | refine Kept.snd ‹_ = (_, _)› ?_
    | (extract_lets +onlyGivenNames x
       first
       | (refine Kept.cut (r := r) (x := x) ?_ ?_ <;> first | (clear_value x; intro hx) | subst x)
       | subst x)
    | split
    | dsimp only
    | (intro s1 h1; dsimp only)
    | intro s1 h1)

theorem State.attempt_kept {r s : State} (h : Kept r s) (c : Nat) (budget : Nat) (bytes : Bool → List Byte) (slot : Nat) :
    Kept r (State.attempt s c budget bytes slot).2 := by
  unfold State.attempt
  repeat' (first
    | with_reducible
        first
        | assumption | apply Kept.ite | apply State.storeEntry_kept | apply State.setCap_kept | apply State.count_kept
        | apply State.bump_kept | apply Kept.ite_snd | refine Kept.snd ‹_ = (_, _)› ?_
    | (extract_lets +onlyGivenNames x
       first
       | (refine Kept.cut (r := r) (x := x) ?_ ?_ <;> first | (clear_value x; intro hx) | subst x)
       | subst x)
    | split
    | dsimp only)

theorem State.useInstant_kept {r s : State} (h : Kept r s) (c : Nat) (budget : Nat) (tick : Nat) :
    Kept r (State.useInstant s c budget tick) := by
  unfold State.useInstant
  repeat' (first
    | with_reducible
        first
        | assumption | apply Kept.ite | apply State.attempt_kept | apply State.setCap_kept | apply Kept.ite_snd
        | refine Kept.foldl (fun _ _ _ => ?_) _ ?_ | refine Kept.snd ‹_ = (_, _)› ?_
    | (extract_lets +onlyGivenNames x
       first
       | (refine Kept.cut (r := r) (x := x) ?_ ?_ <;> first | (clear_value x; intro hx) | subst x)
       | subst x)
    | split
    | dsimp only
    | (intro s1 h1; dsimp only)
    | intro s1 h1)

theorem State.clockInstant_kept {r s : State} (h : Kept r s) (c : Nat) (tick : Nat) :
    Kept r (State.clockInstant s c tick) := by
  unfold State.clockInstant
  repeat' (first
    | with_reducible first | assumption | apply Kept.ite | apply State.setCap_kept | apply State.useInstant_kept
    | (extract_lets +onlyGivenNames x
       first
       | (refine Kept.cut (r := r) (x := x) ?_ ?_ <;> first | (clear_value x; intro hx) | subst x)
       | subst x)
    | split
    | dsimp only)

theorem State.rollWindow_kept {r s : State} (h : Kept r s) (c : Nat) : Kept r (State.rollWindow s c) := by
  unfold State.rollWindow
  repeat' (first
    | with_reducible first | assumption | apply Kept.ite | apply State.setCap_kept | apply State.os_kept
    | (extract_lets +onlyGivenNames x
       first
       | (refine Kept.cut (r := r) (x := x) ?_ ?_ <;> first | (clear_value x; intro hx) | subst x)
       | subst x)
    | split
    | dsimp only)

theorem State.rollWindows_kept {r s : State} (h : Kept r s) (c : Nat) : Kept r (State.rollWindows s c) := by
  unfold State.rollWindows
  repeat' (first
    | with_reducible first | assumption | apply State.rollWindow_kept | refine Kept.foldl (fun _ _ _ => ?_) _ ?_
    | (intro s1 h1; dsimp only)
    | intro s1 h1)

theorem State.captureInstant_kept {r s : State} (h : Kept r s) (c : Nat) (t : Nat) :
    Kept r (State.captureInstant s c t) := by
  unfold State.captureInstant
  repeat' (first
    | with_reducible
        first
        | assumption | apply Kept.ite | apply State.endPost_kept | apply State.rollWindows_kept
        | apply State.clockInstant_kept | refine Kept.foldl (fun _ _ _ => ?_) _ ?_
    | (extract_lets +onlyGivenNames x
       first
       | (refine Kept.cut (r := r) (x := x) ?_ ?_ <;> first | (clear_value x; intro hx) | subst x)
       | subst x)
    | split
    | dsimp only
    | (intro s1 h1; dsimp only)
    | intro s1 h1)

theorem State.unhold_kept {r s : State} (h : Kept r s) (c : Nat) (sub : Nat) : Kept r (State.unhold s c sub) := by
  unfold State.unhold
  repeat' (first
    | with_reducible first | assumption | apply Kept.ite | apply State.os_kept | apply State.setCap_kept
    | (extract_lets +onlyGivenNames x
       first
       | (refine Kept.cut (r := r) (x := x) ?_ ?_ <;> first | (clear_value x; intro hx) | subst x)
       | subst x)
    | split
    | dsimp only)

theorem State.applyHeld_kept {r s : State} (h : Kept r s) (c : Nat) : Kept r (State.applyHeld s c) := by
  unfold State.applyHeld
  repeat' (first
    | with_reducible first | assumption | apply State.unhold_kept | apply State.os_kept
    | (extract_lets +onlyGivenNames x
       first
       | (refine Kept.cut (r := r) (x := x) ?_ ?_ <;> first | (clear_value x; intro hx) | subst x)
       | subst x)
    | split
    | dsimp only)

theorem State.fillCapture_kept {r s : State} (h : Kept r s) (c : Nat) (f : Nat) : Kept r (State.fillCapture s c f) := by
  unfold State.fillCapture
  repeat' (first
    | with_reducible
        first
        | assumption | apply Kept.ite | apply State.applyHeld_kept | apply State.os_kept | apply State.setCap_kept
    | (extract_lets +onlyGivenNames x
       first
       | (refine Kept.cut (r := r) (x := x) ?_ ?_ <;> first | (clear_value x; intro hx) | subst x)
       | subst x)
    | split
    | dsimp only)

theorem State.capturePayload_kept {r s : State} (h : Kept r s) (c : Nat) (extra : Nat) :
    Kept r (State.capturePayload s c extra).2 := by
  unfold State.capturePayload
  repeat' (first
    | with_reducible
        first
        | assumption | apply Kept.ite | apply State.garble_kept | apply Kept.ite_snd | refine Kept.snd ‹_ = (_, _)› ?_
    | (extract_lets +onlyGivenNames x
       first
       | (refine Kept.cut (r := r) (x := x) ?_ ?_ <;> first | (clear_value x; intro hx) | subst x)
       | subst x)
    | split
    | dsimp only)

theorem State.idleCapture_kept {r s : State} (h : Kept r s) (c : Nat) : Kept r (State.idleCapture s c) := by
  unfold State.idleCapture
  repeat' (first
    | with_reducible first | assumption | apply State.setCap_kept | apply State.os_kept)

theorem State.disarmCapture_kept {r s : State} (h : Kept r s) (c : Nat) : Kept r (State.disarmCapture s c) := by
  unfold State.disarmCapture
  repeat' (first
    | with_reducible
        first
        | assumption | apply Kept.ite | apply State.capturePayload_kept | apply State.setCap_kept
        | apply State.idleCapture_kept | apply State.applyHeld_kept | apply Kept.ite_snd
        | refine Kept.snd ‹_ = (_, _)› ?_
    | (extract_lets +onlyGivenNames x
       first
       | (refine Kept.cut (r := r) (x := x) ?_ ?_ <;> first | (clear_value x; intro hx) | subst x)
       | subst x)
    | split
    | dsimp only)

theorem State.captureTrigger_kept {r s : State} (h : Kept r s) (c : Nat) (t : Nat) (desc : List Byte) :
    Kept r (State.captureTrigger s c t desc) := by
  unfold State.captureTrigger
  repeat' (first
    | with_reducible
        first
        | assumption | apply Kept.ite | apply State.setCap_kept | apply State.os_kept | apply State.countAt_kept
        | apply State.bump_kept
    | (extract_lets +onlyGivenNames x
       first
       | (refine Kept.cut (r := r) (x := x) ?_ ?_ <;> first | (clear_value x; intro hx) | subst x)
       | subst x)
    | split
    | dsimp only)

theorem State.capturesLost_kept {r s : State} (h : Kept r s) : Kept r (State.capturesLost s) := by
  unfold State.capturesLost
  repeat' (first
    | with_reducible
        first
        | assumption | apply State.setCap_kept | apply State.applyHeld_kept | apply State.idleCapture_kept
        | refine Kept.foldl (fun _ _ _ => ?_) _ ?_
    | (intro s1 h1; dsimp only)
    | intro s1 h1)

theorem State.capturesStop_kept {r s : State} (h : Kept r s) : Kept r (State.capturesStop s) := by
  unfold State.capturesStop
  repeat' (first
    | with_reducible
        first
        | assumption | apply Kept.ite | apply State.endPost_kept | refine Kept.foldl (fun _ _ _ => ?_) _ ?_
    | (intro s1 h1; dsimp only)
    | intro s1 h1)

theorem State.capturesTake_kept {r s : State} (h : Kept r s) (old : Option Plan) (pl : Plan) (t : Nat) :
    Kept r (State.capturesTake s old pl t) := by
  unfold State.capturesTake
  repeat' (first
    | with_reducible
        first
        | assumption | apply Kept.ite | apply State.endPost_kept | apply State.idleCapture_kept
        | apply State.setCap_kept | apply State.os_kept | refine Kept.foldl (fun _ _ _ => ?_) _ ?_
    | (intro s1 h1; dsimp only)
    | intro s1 h1)

theorem captureArm_kept {r s : State} (h : Kept r s) (c : Nat) : KeptE r (captureArm c s) := by
  unfold captureArm
  repeat' (first
    | with_reducible
        first
        | assumption | apply KeptE.ok | apply KeptE.error | apply require_kept | apply State.setCap_kept
        | refine Kept.ofE ‹_ = Except.ok _› ?_
    | (intro s1 h1; dsimp only)
    | intro s1 h1)

theorem execCaptureArm_kept {r s : State} (h : Kept r s) (t : Nat) (c : Nat) (buf : Nat) :
    KeptO r (execCaptureArm t c buf s) := by
  unfold execCaptureArm
  repeat' (first
    | with_reducible
        first
        | assumption | apply KeptE.ok | apply KeptE.error | apply KeptO.next | apply State.hostWrite_kept
        | apply State.at_kept | apply captureArm_kept | refine Kept.ofE ‹_ = Except.ok _› ?_
    | (intro s1 h1; dsimp only)
    | intro s1 h1)

theorem captureDisarm_kept {r s : State} (h : Kept r s) (c : Nat) : KeptE r (captureDisarm c s) := by
  unfold captureDisarm
  repeat' (first
    | with_reducible
        first
        | assumption | apply KeptE.ok | apply KeptE.error | apply State.setCap_kept
        | refine Kept.ofE ‹_ = Except.ok _› ?_
    | (intro s1 h1; dsimp only)
    | intro s1 h1)

theorem execCaptureDisarm_kept {r s : State} (h : Kept r s) (t : Nat) (c : Nat) (buf : Nat) :
    KeptO r (execCaptureDisarm t c buf s) := by
  unfold execCaptureDisarm
  repeat' (first
    | with_reducible
        first
        | assumption | apply KeptE.ok | apply KeptE.error | apply KeptO.next | apply State.hostWrite_kept
        | apply State.at_kept | apply captureDisarm_kept | refine Kept.ofE ‹_ = Except.ok _› ?_
    | (intro s1 h1; dsimp only)
    | intro s1 h1)

theorem captureLength_kept {r s : State} (h : Kept r s) (c : Nat) (sub : Nat) (v : Nat) :
    KeptE r (captureLength c sub v s) := by
  unfold captureLength
  repeat' (first
    | with_reducible
        first
        | assumption | apply Kept.ite | apply KeptE.ite | apply KeptE.ok | apply KeptE.error | apply State.unhold_kept
        | apply State.os_kept | apply State.setCap_kept | apply require_kept | apply State.idleCapture_kept
        | refine Kept.ofE ‹_ = Except.ok _› ?_
    | (extract_lets +onlyGivenNames x
       first
       | (refine Kept.cut (r := r) (x := x) ?_ ?_ <;> first | (clear_value x; intro hx) | subst x)
       | subst x)
    | split
    | dsimp only
    | (intro s1 h1; dsimp only)
    | intro s1 h1)

theorem execCaptureLengthWrite_kept {r s : State} (h : Kept r s) (t : Nat) (c : Nat) (buf : Nat) (sub : Nat) (value : Nat) :
    KeptO r (execCaptureLengthWrite t c buf sub value s) := by
  unfold execCaptureLengthWrite
  repeat' (first
    | with_reducible
        first
        | assumption | apply Kept.ite | apply KeptE.ite | apply KeptO.ite | apply KeptE.ok | apply KeptE.error
        | apply KeptO.next | apply State.hostWrite_kept | apply State.at_kept | apply captureLength_kept
        | refine Kept.ofE ‹_ = Except.ok _› ?_
    | (intro s1 h1; dsimp only)
    | intro s1 h1)

theorem captureConfig_kept {r s : State} (h : Kept r s) (c : Nat) (sub : Nat) (v : Nat) :
    KeptE r (captureConfig c sub v s) := by
  unfold captureConfig
  repeat' (first
    | with_reducible
        first
        | assumption | apply KeptE.ok | apply KeptE.error | apply State.os_kept | apply require_kept
        | refine Kept.ofE ‹_ = Except.ok _› ?_
    | (extract_lets +onlyGivenNames x
       first
       | (refine Kept.cut (r := r) (x := x) ?_ ?_ <;> first | (clear_value x; intro hx) | subst x)
       | subst x)
    | split
    | dsimp only
    | (intro s1 h1; dsimp only)
    | intro s1 h1)

theorem execRateWindowEnd_kept {r s : State} (h : Kept r s) (t : Nat) (buf : Nat) :
    KeptO r (execRateWindowEnd t buf s) := by
  unfold execRateWindowEnd
  repeat' (first
    | with_reducible
        first
        | assumption | apply Kept.ite | apply KeptO.ite | apply KeptO.next | apply State.at_kept
        | apply State.rollWindow_kept
    | (extract_lets +onlyGivenNames x
       first
       | (refine Kept.cut (r := r) (x := x) ?_ ?_ <;> first | (clear_value x; intro hx) | subst x)
       | subst x)
    | split
    | dsimp only)

theorem execPostTimeLimit_kept {r s : State} (h : Kept r s) (t : Nat) (buf : Nat) :
    KeptO r (execPostTimeLimit t buf s) := by
  unfold execPostTimeLimit
  repeat' (first
    | with_reducible
        first
        | assumption | apply Kept.ite | apply KeptO.ite | apply KeptO.next | apply State.at_kept
        | apply State.endPost_kept
    | (extract_lets +onlyGivenNames x
       first
       | (refine Kept.cut (r := r) (x := x) ?_ ?_ <;> first | (clear_value x; intro hx) | subst x)
       | subst x)
    | split
    | dsimp only)

theorem State.endReading_kept {r s : State} (h : Kept r s) (c : Nat) : Kept r (State.endReading s c) := by
  unfold State.endReading
  repeat' (first
    | with_reducible first | assumption | apply Kept.ite | apply State.setCap_kept | apply State.os_kept)

theorem State.captureRecord_kept {r s : State} (h : Kept r s) (q : Nat) (p : List Byte) (sweep : Nat) (stamp : Nat) :
    Kept r (State.captureRecord s q p sweep stamp) := by
  unfold State.captureRecord
  repeat' (first
    | with_reducible first | assumption | apply State.offer_kept | refine Kept.snd ‹_ = (_, _)› ?_
    | dsimp only)

theorem State.writeLast_kept {r s : State} (h : Kept r s) (c : Nat) (q : Nat) (r' : List Byte × Nat × Nat) :
    Kept r (State.writeLast s c q r') := by
  unfold State.writeLast
  repeat' (first
    | with_reducible first | assumption | apply Kept.ite | apply State.captureRecord_kept | apply State.setCap_kept
    | dsimp only)

theorem State.writeNext_kept {r s : State} (h : Kept r s) (c : Nat) (q : Nat) (extra : Nat) :
    Kept r (State.writeNext s c q extra) := by
  unfold State.writeNext
  repeat' (first
    | with_reducible
        first
        | assumption | apply Kept.ite | apply State.capturePayload_kept | apply State.setCap_kept
        | apply State.captureRecord_kept | apply State.endReading_kept | apply Kept.ite_snd
        | refine Kept.snd ‹_ = (_, _)› ?_
    | (extract_lets +onlyGivenNames x
       first
       | (refine Kept.cut (r := r) (x := x) ?_ ?_ <;> first | (clear_value x; intro hx) | subst x)
       | subst x)
    | split
    | dsimp only)

theorem execCaptureRecordWrite_kept {r s : State} (h : Kept r s) (t : Nat) (buf : Nat) (memError : Bool) :
    KeptO r (execCaptureRecordWrite t buf memError s) := by
  unfold execCaptureRecordWrite
  repeat' (first
    | with_reducible
        first
        | assumption | apply Kept.ite | apply KeptO.ite | apply KeptO.next | apply State.at_kept
        | apply State.writeLast_kept | apply State.setCap_kept | apply State.endReading_kept
        | apply State.writeNext_kept
    | (extract_lets +onlyGivenNames x
       first
       | (refine Kept.cut (r := r) (x := x) ?_ ?_ <;> first | (clear_value x; intro hx) | subst x)
       | subst x)
    | split
    | dsimp only)

/-! ## Sesame -/

theorem State.setZone_kept {r s : State} (h : Kept r s) (z : Nat) (f : Zone → Zone) : Kept r (State.setZone s z f) := by
  unfold State.setZone
  repeat' (first
    | with_reducible first | assumption | rfl
    | (simp only [Kept.lit, length_modAt]; with_reducible apply KeptCore.of)
    | (extract_lets +onlyGivenNames x
       first
       | (refine Kept.cut (r := r) (x := x) ?_ ?_ <;> first | (clear_value x; intro hx) | subst x)
       | subst x)
    | split
    | dsimp only
    | rfl)

theorem State.detectZone_kept {r s : State} (h : Kept r s) (f : Flight) (w : TickWork) (z : Nat) :
    Kept r (State.detectZone s f w z) := by
  unfold State.detectZone
  repeat' (first
    | with_reducible
        first
        | assumption | apply Kept.ite | apply State.setZone_kept | apply Kept.ite_snd
        | refine Kept.snd ‹_ = (_, _)› ?_
    | (extract_lets +onlyGivenNames x
       first
       | (refine Kept.cut (r := r) (x := x) ?_ ?_ <;> first | (clear_value x; intro hx) | subst x)
       | subst x)
    | split
    | dsimp only)

theorem State.oweUpdates_kept {r s : State} (h : Kept r s) (f : Flight) : Kept r (State.oweUpdates s f) := by
  unfold State.oweUpdates
  repeat' (first
    | with_reducible
        first
        | assumption | apply Kept.ite | apply State.setZone_kept | refine Kept.foldl (fun _ _ _ => ?_) _ ?_
    | (extract_lets +onlyGivenNames x
       first
       | (refine Kept.cut (r := r) (x := x) ?_ ?_ <;> first | (clear_value x; intro hx) | subst x)
       | subst x)
    | split
    | dsimp only
    | (intro s1 h1; dsimp only)
    | intro s1 h1)

theorem State.countUpdate_kept {r s : State} (h : Kept r s) (sweep : Nat) (r' : Option (Bool × Bool × Nat)) :
    Kept r (State.countUpdate s sweep r') := by
  unfold State.countUpdate
  repeat' (first
    | with_reducible first | assumption | apply State.countAt_kept
    | split
    | dsimp only)

theorem State.countOwed_kept {r s : State} (h : Kept r s) (fr : Frame) : Kept r (State.countOwed s fr) := by
  unfold State.countOwed
  repeat' (first
    | with_reducible
        first
        | assumption | apply Kept.ite | apply State.countUpdate_kept | refine Kept.foldl (fun _ _ _ => ?_) _ ?_ | rfl
    | (simp only [Kept.lit, List.length_map]; with_reducible apply KeptCore.of)
    | (extract_lets +onlyGivenNames x
       first
       | (refine Kept.cut (r := r) (x := x) ?_ ?_ <;> first | (clear_value x; intro hx) | subst x)
       | subst x)
    | split
    | dsimp only
    | rfl
    | (intro s1 h1; dsimp only)
    | intro s1 h1)

theorem State.updateZone_kept {r s : State} (h : Kept r s) (zone : Nat) (o : Owed) :
    Kept r (State.updateZone s zone o) := by
  unfold State.updateZone
  repeat' (first
    | with_reducible first | assumption | apply Kept.ite | apply State.countUpdate_kept | apply State.setZone_kept | rfl
    | (simp only [Kept.lit]; with_reducible apply KeptCore.of)
    | (extract_lets +onlyGivenNames x
       first
       | (refine Kept.cut (r := r) (x := x) ?_ ?_ <;> first | (clear_value x; intro hx) | subst x)
       | subst x)
    | split
    | dsimp only
    | rfl)

theorem execZoneUpdate_kept {r s : State} (h : Kept r s) (t : Nat) (zone : Nat) (sweep : Nat) (slot : Nat) :
    KeptO r (execZoneUpdate t zone sweep slot s) := by
  unfold execZoneUpdate
  repeat' (first
    | with_reducible
        first
        | assumption | apply Kept.ite | apply KeptO.ite | apply KeptO.next | apply State.at_kept
        | apply State.updateZone_kept | apply Kept.ite_snd | refine Kept.snd ‹_ = (_, _)› ?_ | rfl
    | (simp only [Kept.lit]; with_reducible apply KeptCore.of)
    | (extract_lets +onlyGivenNames x
       first
       | (refine Kept.cut (r := r) (x := x) ?_ ?_ <;> first | (clear_value x; intro hx) | subst x)
       | subst x)
    | split
    | dsimp only
    | rfl)

theorem State.loadThresholds_kept {r s : State} (h : Kept r s) (pl : Plan) : Kept r (State.loadThresholds s pl) := by
  unfold State.loadThresholds
  repeat' (first
    | with_reducible first | assumption | apply State.os_kept | refine Kept.foldl (fun _ _ _ => ?_) _ ?_
    | (intro s1 h1; dsimp only)
    | intro s1 h1)

theorem State.zonesTake_kept {r s : State} (h : Kept r s) (old : Option Plan) (pl : Plan) :
    Kept r (State.zonesTake s old pl) := by
  unfold State.zonesTake
  repeat' (first
    | with_reducible first | assumption | apply Kept.ite | apply State.loadThresholds_kept | rfl
    | (simp only [Kept.lit, List.length_map]; with_reducible apply KeptCore.of)
    | (extract_lets +onlyGivenNames x
       first
       | (refine Kept.cut (r := r) (x := x) ?_ ?_ <;> first | (clear_value x; intro hx) | subst x)
       | subst x)
    | split
    | dsimp only
    | rfl)

theorem State.zonesStop_kept {r s : State} (h : Kept r s) : Kept r (State.zonesStop s) := by
  unfold State.zonesStop
  repeat' (first
    | with_reducible first | assumption | rfl
    | (simp only [Kept.lit, List.length_map]; with_reducible apply KeptCore.of)
    | (extract_lets +onlyGivenNames x
       first
       | (refine Kept.cut (r := r) (x := x) ?_ ?_ <;> first | (clear_value x; intro hx) | subst x)
       | subst x)
    | split
    | dsimp only
    | rfl)

theorem zoneThreshold_kept {r s : State} (h : Kept r s) (z : Nat) (off : Bool) (v : Nat) :
    KeptE r (zoneThreshold z off v s) := by
  unfold zoneThreshold
  repeat' (first
    | with_reducible
        first
        | assumption | apply Kept.ite | apply KeptE.ite | apply KeptE.ok | apply KeptE.error | apply require_kept
        | apply shadow_kept | refine Kept.ofE ‹_ = Except.ok _› ?_
    | (extract_lets +onlyGivenNames x
       first
       | (refine Kept.cut (r := r) (x := x) ?_ ?_ <;> first | (clear_value x; intro hx) | subst x)
       | subst x)
    | split
    | dsimp only
    | (intro s1 h1; dsimp only)
    | intro s1 h1)

theorem State.thresholdTransfer_kept {r s : State} (h : Kept r s) (idx : Nat) (sub : Nat) (v : Nat) :
    Kept r (State.thresholdTransfer s idx sub v) := by
  unfold State.thresholdTransfer
  repeat' (first
    | with_reducible first | assumption | apply Kept.ite | apply State.os_kept
    | (extract_lets +onlyGivenNames x
       first
       | (refine Kept.cut (r := r) (x := x) ?_ ?_ <;> first | (clear_value x; intro hx) | subst x)
       | subst x)
    | split
    | dsimp only)

theorem execZoneThresholdWrite_kept {r s : State} (h : Kept r s) (t : Nat) (c : Nat) (zone : Nat) (off : Bool)
    (value : Nat) :
    KeptO r (execZoneThresholdWrite t c zone off value s) := by
  unfold execZoneThresholdWrite
  repeat' (first
    | with_reducible
        first
        | assumption | apply Kept.ite | apply KeptE.ite | apply KeptO.ite | apply KeptE.ok | apply KeptE.error
        | apply KeptO.next | apply State.hostWrite_kept | apply State.at_kept | apply zoneThreshold_kept
        | refine Kept.ofE ‹_ = Except.ok _› ?_
    | (intro s1 h1; dsimp only)
    | intro s1 h1)

theorem State.trigger_kept {r s : State} (h : Kept r s) (i : Nat) (t : Nat) (b : List Byte) (v : Verdict) (cause : Nat) :
    Kept r (State.trigger s i t b v cause) := by
  unfold State.trigger
  repeat' (first
    | with_reducible
        first
        | assumption | apply Kept.ite | apply State.captureTrigger_kept | apply State.event_kept
        | apply State.count_kept | apply State.bump_kept | apply State.ds_kept
        | refine Kept.foldl (fun _ _ _ => ?_) _ ?_ | rfl
    | (simp only [Kept.lit, List.length_map]; with_reducible apply KeptCore.of)
    | (extract_lets +onlyGivenNames x
       first
       | (refine Kept.cut (r := r) (x := x) ?_ ?_ <;> first | (clear_value x; intro hx) | subst x)
       | subst x)
    | split
    | dsimp only
    | rfl
    | (intro s1 h1; dsimp only)
    | intro s1 h1)

theorem State.setSeq_kept {r s : State} (h : Kept r s) (i : Nat) (f : Seq → Seq) : Kept r (State.setSeq s i f) := by
  unfold State.setSeq
  repeat' (first
    | with_reducible first | assumption | rfl
    | (simp only [Kept.lit, length_modAt]; with_reducible apply KeptCore.of)
    | (extract_lets +onlyGivenNames x
       first
       | (refine Kept.cut (r := r) (x := x) ?_ ?_ <;> first | (clear_value x; intro hx) | subst x)
       | subst x)
    | split
    | dsimp only
    | rfl)

theorem State.actOne_kept {r s : State} (h : Kept r s) (i : Nat) (arm : Bool) : Kept r (State.actOne s i arm) := by
  unfold State.actOne
  repeat' (first
    | with_reducible first | assumption | apply Kept.ite | apply State.os_kept | apply State.setSeq_kept
    | (extract_lets +onlyGivenNames x
       first
       | (refine Kept.cut (r := r) (x := x) ?_ ?_ <;> first | (clear_value x; intro hx) | subst x)
       | subst x)
    | split
    | dsimp only)

theorem State.armAct_kept {r s : State} (h : Kept r s) (i : Nat) (t : Nat) : Kept r (State.armAct s i t) := by
  unfold State.armAct
  repeat' (first
    | with_reducible
        first
        | assumption | apply State.actOne_kept | apply State.setSeq_kept | refine Kept.foldl (fun _ _ _ => ?_) _ ?_
    | (extract_lets +onlyGivenNames x
       first
       | (refine Kept.cut (r := r) (x := x) ?_ ?_ <;> first | (clear_value x; intro hx) | subst x)
       | subst x)
    | split
    | dsimp only
    | (intro s1 h1; dsimp only)
    | intro s1 h1)

theorem State.seqInstant_kept {r s : State} (h : Kept r s) (i : Nat) (t : Nat) (g : List Nat) (prev : List Nat) :
    Kept r (State.seqInstant s i t g prev) := by
  unfold State.seqInstant
  repeat' (first
    | with_reducible first | assumption | apply Kept.ite | apply State.setSeq_kept | apply State.trigger_kept
    | (extract_lets +onlyGivenNames x
       first
       | (refine Kept.cut (r := r) (x := x) ?_ ?_ <;> first | (clear_value x; intro hx) | subst x)
       | subst x)
    | split
    | dsimp only)

theorem State.clockTo_kept {r s : State} (h : Kept r s) (t : Nat) : Kept r (State.clockTo s t) := by
  unfold State.clockTo
  repeat' (first
    | with_reducible first | assumption | apply Kept.ite | rfl
    | (simp only [Kept.lit, List.length_map]; with_reducible apply KeptCore.of)
    | (extract_lets +onlyGivenNames x
       first
       | (refine Kept.cut (r := r) (x := x) ?_ ?_ <;> first | (clear_value x; intro hx) | subst x)
       | subst x)
    | split
    | dsimp only
    | rfl)

theorem State.formLines_kept {r s : State} (h : Kept r s) (t : Nat) : Kept r (State.formLines s t) := by
  unfold State.formLines
  repeat' (first
    | with_reducible first | assumption | apply Kept.ite | rfl
    | (simp only [Kept.lit]; with_reducible apply KeptCore.of)
    | (extract_lets +onlyGivenNames x
       first
       | (refine Kept.cut (r := r) (x := x) ?_ ?_ <;> first | (clear_value x; intro hx) | subst x)
       | subst x)
    | split
    | dsimp only
    | rfl)

theorem State.evaluate_kept {r s : State} (h : Kept r s) (t : Nat) : Kept r (State.evaluate s t) := by
  unfold State.evaluate
  repeat' (first
    | with_reducible
        first
        | assumption | apply Kept.ite | apply State.clockTo_kept | apply State.formLines_kept
        | apply State.seqInstant_kept | apply State.armAct_kept | apply State.disarmCapture_kept
        | apply State.captureInstant_kept | refine Kept.foldl (fun _ _ _ => ?_) _ ?_ | rfl
    | (simp only [Kept.lit]; with_reducible apply KeptCore.of)
    | (extract_lets +onlyGivenNames x
       first
       | (refine Kept.cut (r := r) (x := x) ?_ ?_ <;> first | (clear_value x; intro hx) | subst x)
       | subst x)
    | split
    | dsimp only
    | rfl
    | (intro s1 h1; dsimp only)
    | intro s1 h1)

theorem State.samplePins_kept {r s : State} (h : Kept r s) (t : Nat) (prb : Nat) (trig : Nat) (tb : Nat) :
    Kept r (State.samplePins s t prb trig tb) := by
  unfold State.samplePins
  repeat' (first
    | with_reducible first | assumption | refine Kept.snd ‹_ = (_, _)› ?_ | rfl
    | (simp only [Kept.lit]; with_reducible apply KeptCore.of)
    | (extract_lets +onlyGivenNames x
       first
       | (refine Kept.cut (r := r) (x := x) ?_ ?_ <;> first | (clear_value x; intro hx) | subst x)
       | subst x)
    | split
    | dsimp only
    | rfl)

theorem execEvaluationInstant_kept {r s : State} (h : Kept r s) (t : Nat) (prb : Nat) (trig : Nat) (tb : Nat) :
    KeptO r (execEvaluationInstant t prb trig tb s) := by
  unfold execEvaluationInstant
  repeat' (first
    | with_reducible
        first
        | assumption | apply Kept.ite | apply KeptO.ite | apply KeptO.next | apply State.at_kept
        | apply State.evaluate_kept | apply State.samplePins_kept
    | (extract_lets +onlyGivenNames x
       first
       | (refine Kept.cut (r := r) (x := x) ?_ ?_ <;> first | (clear_value x; intro hx) | subst x)
       | subst x)
    | split
    | dsimp only)

theorem execLevelTimerExpiry_kept {r s : State} (h : Kept r s) (t : Nat) (seq : Nat) :
    KeptO r (execLevelTimerExpiry t seq s) := by
  unfold execLevelTimerExpiry
  repeat' (first
    | with_reducible
        first
        | assumption | apply Kept.ite | apply KeptO.ite | apply KeptO.next | apply State.at_kept
        | apply State.evaluate_kept
    | (extract_lets +onlyGivenNames x
       first
       | (refine Kept.cut (r := r) (x := x) ?_ ?_ <;> first | (clear_value x; intro hx) | subst x)
       | subst x)
    | split
    | dsimp only)

theorem execAutoTimerExpiry_kept {r s : State} (h : Kept r s) (t : Nat) (seq : Nat) :
    KeptO r (execAutoTimerExpiry t seq s) := by
  unfold execAutoTimerExpiry
  repeat' (first
    | with_reducible
        first
        | assumption | apply Kept.ite | apply KeptO.ite | apply KeptO.next | apply State.at_kept
        | apply State.evaluate_kept
    | (extract_lets +onlyGivenNames x
       first
       | (refine Kept.cut (r := r) (x := x) ?_ ?_ <;> first | (clear_value x; intro hx) | subst x)
       | subst x)
    | split
    | dsimp only)

theorem seqArm_kept {r s : State} (h : Kept r s) (i : Nat) : KeptE r (seqArm i s) := by
  unfold seqArm
  repeat' (first
    | with_reducible
        first
        | assumption | apply KeptE.ok | apply KeptE.error | apply require_kept | apply State.setSeq_kept
        | refine Kept.snd ‹_ = (_, _)› ?_ | refine Kept.ofE ‹_ = Except.ok _› ?_
    | (intro s1 h1; dsimp only)
    | intro s1 h1)

theorem execSequenceArm_kept {r s : State} (h : Kept r s) (t : Nat) (c : Nat) (seq : Nat) :
    KeptO r (execSequenceArm t c seq s) := by
  unfold execSequenceArm
  repeat' (first
    | with_reducible
        first
        | assumption | apply KeptE.ok | apply KeptE.error | apply KeptO.next | apply State.hostWrite_kept
        | apply State.at_kept | apply seqArm_kept | refine Kept.ofE ‹_ = Except.ok _› ?_
    | (intro s1 h1; dsimp only)
    | intro s1 h1)

theorem seqDisarm_kept {r s : State} (h : Kept r s) (i : Nat) : KeptE r (seqDisarm i s) := by
  unfold seqDisarm
  repeat' (first
    | with_reducible
        first
        | assumption | apply KeptE.ok | apply KeptE.error | apply State.setSeq_kept | refine Kept.snd ‹_ = (_, _)› ?_
        | refine Kept.ofE ‹_ = Except.ok _› ?_
    | (intro s1 h1; dsimp only)
    | intro s1 h1)

theorem execSequenceDisarm_kept {r s : State} (h : Kept r s) (t : Nat) (c : Nat) (seq : Nat) :
    KeptO r (execSequenceDisarm t c seq s) := by
  unfold execSequenceDisarm
  repeat' (first
    | with_reducible
        first
        | assumption | apply KeptE.ok | apply KeptE.error | apply KeptO.next | apply State.hostWrite_kept
        | apply State.at_kept | apply seqDisarm_kept | refine Kept.ofE ‹_ = Except.ok _› ?_
    | (intro s1 h1; dsimp only)
    | intro s1 h1)

theorem execSequenceArmAct_kept {r s : State} (h : Kept r s) (t : Nat) (seq : Nat) :
    KeptO r (execSequenceArmAct t seq s) := by
  unfold execSequenceArmAct
  repeat' (first
    | with_reducible
        first
        | assumption | apply Kept.ite | apply KeptO.ite | apply KeptO.next | apply State.at_kept
        | apply State.evaluate_kept
    | (extract_lets +onlyGivenNames x
       first
       | (refine Kept.cut (r := r) (x := x) ?_ ?_ <;> first | (clear_value x; intro hx) | subst x)
       | subst x)
    | split
    | dsimp only)

theorem seqForce_kept {r s : State} (h : Kept r s) (i : Nat) : KeptE r (seqForce i s) := by
  unfold seqForce
  repeat' (first
    | with_reducible
        first
        | assumption | apply KeptE.ok | apply KeptE.error | apply require_kept | apply State.setSeq_kept
        | refine Kept.ofE ‹_ = Except.ok _› ?_
    | (intro s1 h1; dsimp only)
    | intro s1 h1)

theorem execForce_kept {r s : State} (h : Kept r s) (t : Nat) (c : Nat) (seq : Nat) :
    KeptO r (execForce t c seq s) := by
  unfold execForce
  repeat' (first
    | with_reducible
        first
        | assumption | apply KeptE.ok | apply KeptE.error | apply KeptO.next | apply State.hostWrite_kept
        | apply State.at_kept | apply seqForce_kept | refine Kept.ofE ‹_ = Except.ok _› ?_
    | (intro s1 h1; dsimp only)
    | intro s1 h1)

theorem execForceAct_kept {r s : State} (h : Kept r s) (t : Nat) (seq : Nat) : KeptO r (execForceAct t seq s) := by
  unfold execForceAct
  repeat' (first
    | with_reducible
        first
        | assumption | apply Kept.ite | apply KeptO.ite | apply KeptO.next | apply State.at_kept
        | apply State.evaluate_kept
    | (extract_lets +onlyGivenNames x
       first
       | (refine Kept.cut (r := r) (x := x) ?_ ?_ <;> first | (clear_value x; intro hx) | subst x)
       | subst x)
    | split
    | dsimp only)

theorem execHostLine_kept {r s : State} (h : Kept r s) (t : Nat) (c : Nat) (level : Nat) :
    KeptO r (execHostLine t c level s) := by
  unfold execHostLine
  repeat' (first
    | with_reducible
        first
        | assumption | apply KeptE.ok | apply KeptE.error | apply KeptO.next | apply State.hostWrite_kept
        | apply State.at_kept | apply State.os_kept | refine Kept.ofE ‹_ = Except.ok _› ?_
    | (intro s1 h1; dsimp only)
    | intro s1 h1)

theorem State.pinEdge_kept {r s : State} (h : Kept r s) (pin : Nat) (stamp : Nat) (uncalibrated : Bool) :
    Kept r (State.pinEdge s pin stamp uncalibrated).2 := by
  unfold State.pinEdge
  repeat' (first
    | with_reducible first | assumption | apply Kept.ite | apply Kept.ite_snd | refine Kept.snd ‹_ = (_, _)› ?_ | rfl
    | (simp only [Kept.lit, length_modAt]; with_reducible apply KeptCore.of)
    | (extract_lets +onlyGivenNames x
       first
       | (refine Kept.cut (r := r) (x := x) ?_ ?_ <;> first | (clear_value x; intro hx) | subst x)
       | subst x)
    | split
    | dsimp only
    | rfl)

theorem State.seqTake_kept {r s : State} (h : Kept r s) (old : Option Plan) (pl : Plan) :
    Kept r (State.seqTake s old pl) := by
  unfold State.seqTake
  repeat' (first
    | with_reducible
        first
        | assumption | apply Kept.ite | apply State.setSeq_kept | apply State.event_kept | apply Kept.ite_snd
        | refine Kept.foldl (fun _ _ _ => ?_) _ ?_ | refine Kept.snd ‹_ = (_, _)› ?_
    | (extract_lets +onlyGivenNames x
       first
       | (refine Kept.cut (r := r) (x := x) ?_ ?_ <;> first | (clear_value x; intro hx) | subst x)
       | subst x)
    | split
    | dsimp only
    | (intro s1 h1; dsimp only)
    | intro s1 h1)

theorem State.sesameStop_kept {r s : State} (h : Kept r s) : Kept r (State.sesameStop s) := by
  unfold State.sesameStop
  repeat' (first
    | with_reducible first | assumption | rfl
    | (simp only [Kept.lit]; with_reducible apply KeptCore.of)
    | (extract_lets +onlyGivenNames x
       first
       | (refine Kept.cut (r := r) (x := x) ?_ ?_ <;> first | (clear_value x; intro hx) | subst x)
       | subst x)
    | split
    | dsimp only
    | rfl)

theorem State.sesameStart_kept {r s : State} (h : Kept r s) : Kept r (State.sesameStart s) := by
  unfold State.sesameStart
  repeat' (first
    | with_reducible first | assumption | apply State.os_kept | refine Kept.foldl (fun _ _ _ => ?_) _ ?_ | rfl
    | (simp only [Kept.lit]; with_reducible apply KeptCore.of)
    | (extract_lets +onlyGivenNames x
       first
       | (refine Kept.cut (r := r) (x := x) ?_ ?_ <;> first | (clear_value x; intro hx) | subst x)
       | subst x)
    | split
    | dsimp only
    | rfl
    | (intro s1 h1; dsimp only)
    | intro s1 h1)

theorem execFillingEntry_kept {r s : State} (h : Kept r s) (t : Nat) (buf : Nat) :
    KeptO r (execFillingEntry t buf s) := by
  unfold execFillingEntry
  repeat' (first
    | with_reducible
        first
        | assumption | apply Kept.ite | apply KeptO.ite | apply KeptO.next | apply State.at_kept
        | apply State.evaluate_kept | apply State.setCap_kept | apply State.fillCapture_kept
    | (extract_lets +onlyGivenNames x
       first
       | (refine Kept.cut (r := r) (x := x) ?_ ?_ <;> first | (clear_value x; intro hx) | subst x)
       | subst x)
    | split
    | dsimp only)

theorem execCaptureRearm_kept {r s : State} (h : Kept r s) (t : Nat) (buf : Nat) :
    KeptO r (execCaptureRearm t buf s) := by
  unfold execCaptureRearm
  repeat' (first
    | with_reducible
        first
        | assumption | apply Kept.ite | apply KeptO.ite | apply KeptO.next | apply State.at_kept
        | apply State.evaluate_kept | apply State.fillCapture_kept
    | (extract_lets +onlyGivenNames x
       first
       | (refine Kept.cut (r := r) (x := x) ?_ ?_ <;> first | (clear_value x; intro hx) | subst x)
       | subst x)
    | split
    | dsimp only)

end Sys2Proof.Machine
end

