-- ==== Sys2Proof/Laws/KeptHazel.lean ====
section
/-! SUPPORT. What Kept of Safety.lean says of each function of the model:
the Hazel engines. -/

namespace Sys2Proof.Machine

open Sys2Proof

set_option linter.unusedSimpArgs false
set_option linter.unusedVariables false

/-! ## Roles -/

theorem State.storeRecord_kept {r s : State} (h : Kept r s) (it : Item) (c : Nat) :
    Kept r (State.storeRecord s it c) := by
  unfold State.storeRecord
  repeat' (first
    | with_reducible
        first
        | assumption | rfl | exact swf_nil _ | apply swf_memWrite | apply swf_sput | apply swf_memClear
    | (simp only [Kept.lit]; with_reducible apply KeptCore.units)
    | ((with_reducible
        first
        | apply State.Sound.dram | apply State.Sound.cashew | apply State.Sound.data | apply State.Sound.program
        | apply State.Sound.rungs | apply State.Sound.optics | apply State.Sound.das | apply State.Sound.poppy
        | apply State.Sound.engines | apply State.Sound.zones | apply State.Sound.seqs | apply State.Sound.captures
        | apply State.Sound.queues | apply State.Sound.flax | apply State.Sound.tx | apply State.Sound.rx
        | apply State.Sound.emcy | apply State.Sound.log); with_reducible apply Kept.toSound)
    | (simp only [List.length_replicate]; done)
    | (extract_lets +onlyGivenNames x
       first
       | (refine Kept.cut (r := r) (x := x) ?_ ?_ <;> first | (clear_value x; intro hx) | subst x)
       | subst x)
    | split
    | dsimp only
    | rfl)

theorem State.itemErrors_kept {r s : State} (h : Kept r s) (n : Nat) : Kept r (State.itemErrors s n) := by
  unfold State.itemErrors
  repeat' (first
    | with_reducible first | assumption | apply State.bump_kept | apply State.count_kept)

theorem State.forgetChan_kept {r s : State} (h : Kept r s) (f : Flight) (p : Nat) (sl : Nat) (c : Nat) :
    Kept r (State.forgetChan s f p sl c) := by
  unfold State.forgetChan
  repeat' (first
    | with_reducible first | assumption | apply State.setPdas_kept | apply State.freshen_kept
    | (extract_lets +onlyGivenNames x
       first
       | (refine Kept.cut (r := r) (x := x) ?_ ?_ <;> first | (clear_value x; intro hx) | subst x)
       | subst x)
    | split
    | dsimp only)

theorem State.roleChans_kept {r s : State} (h : Kept r s) (f : Flight) (it : Item) (range : List Nat) :
    Kept r (State.roleChans s f it range) := by
  unfold State.roleChans
  repeat' (first
    | with_reducible
        first
        | assumption | apply Kept.ite | apply State.chanItem_kept | apply State.forgetChan_kept
        | apply State.endedOuts_kept | refine Kept.foldl (fun _ _ _ => ?_) _ ?_
    | (extract_lets +onlyGivenNames x
       first
       | (refine Kept.cut (r := r) (x := x) ?_ ?_ <;> first | (clear_value x; intro hx) | subst x)
       | subst x)
    | split
    | dsimp only
    | (intro s1 h1; dsimp only)
    | intro s1 h1)

theorem State.roleOuts_kept {r s : State} (h : Kept r s) (f : Flight) (it : Item) : Kept r (State.roleOuts s f it) := by
  unfold State.roleOuts
  repeat' (first
    | with_reducible
        first
        | assumption | apply State.endedOuts_kept | apply State.setTick_kept | refine Kept.snd ‹_ = (_, _)› ?_)

theorem State.roleZones_kept {r s : State} (h : Kept r s) (f : Flight) (it : Item) (range : List Nat) :
    Kept r (State.roleZones s f it range) := by
  unfold State.roleZones
  repeat' (first
    | with_reducible
        first
        | assumption | apply Kept.ite | apply State.detectZone_kept | refine Kept.foldl (fun _ _ _ => ?_) _ ?_
    | split
    | dsimp only
    | (intro s1 h1; dsimp only)
    | intro s1 h1)

theorem State.libraryEnd_kept {r s : State} (h : Kept r s) (it : Item) : Kept r (State.libraryEnd s it) := by
  unfold State.libraryEnd
  repeat' (first
    | with_reducible
        first
        | assumption | apply Kept.ite | apply State.waterfall_kept | apply State.itemErrors_kept
        | apply State.roleChans_kept | apply State.roleOuts_kept | apply State.storeRecord_kept
        | apply State.roleZones_kept | refine Kept.foldl (fun _ _ _ => ?_) _ ?_
    | (extract_lets +onlyGivenNames x
       first
       | (refine Kept.cut (r := r) (x := x) ?_ ?_ <;> first | (clear_value x; intro hx) | subst x)
       | subst x)
    | split
    | dsimp only
    | (intro s1 h1; dsimp only)
    | intro s1 h1)

/-! ## Hazel -/

theorem State.setEngine_kept {r s : State} (h : Kept r s) (e : Nat) (f : Engine → Engine) :
    Kept r (State.setEngine s e f) := by
  unfold State.setEngine
  repeat' (first
    | with_reducible first | assumption | rfl
    | (simp only [Kept.lit, length_modAt]; with_reducible apply KeptCore.of)
    | (extract_lets +onlyGivenNames x
       first
       | (refine Kept.cut (r := r) (x := x) ?_ ?_ <;> first | (clear_value x; intro hx) | subst x)
       | subst x)
    | split
    | dsimp only
    | rfl)

theorem State.hzPutByte_kept {r s : State} (h : Kept r s) (e : Nat) (user : Bool) (a : Nat) (b : Byte) :
    Kept r (State.hzPutByte s e user a b) := by
  unfold State.hzPutByte
  repeat' (first
    | with_reducible
        first
        | assumption | apply Kept.ite | rfl | exact swf_nil _ | apply swf_memWrite | apply swf_sput
        | apply swf_memClear
    | (simp only [Kept.lit]; with_reducible apply KeptCore.units)
    | ((with_reducible
        first
        | apply State.Sound.dram | apply State.Sound.cashew | apply State.Sound.data | apply State.Sound.program
        | apply State.Sound.rungs | apply State.Sound.optics | apply State.Sound.das | apply State.Sound.poppy
        | apply State.Sound.engines | apply State.Sound.zones | apply State.Sound.seqs | apply State.Sound.captures
        | apply State.Sound.queues | apply State.Sound.flax | apply State.Sound.tx | apply State.Sound.rx
        | apply State.Sound.emcy | apply State.Sound.log); with_reducible apply Kept.toSound)
    | (simp only [List.length_replicate]; done)
    | (extract_lets +onlyGivenNames x
       first
       | (refine Kept.cut (r := r) (x := x) ?_ ?_ <;> first | (clear_value x; intro hx) | subst x)
       | subst x)
    | split
    | dsimp only
    | rfl)

theorem State.hzWrite_kept {r s : State} (h : Kept r s) (e : Nat) (user : Bool) (a : Nat) (b : List Byte) :
    Kept r (State.hzWrite s e user a b) := by
  unfold State.hzWrite
  repeat' (first
    | with_reducible first | assumption | apply State.hzPutByte_kept | refine Kept.foldl (fun _ _ _ => ?_) _ ?_
    | split
    | dsimp only
    | (intro s1 h1; dsimp only)
    | intro s1 h1)

theorem State.startItem_kept {r s : State} (h : Kept r s) (e : Nat) (it : Item) : Kept r (State.startItem s e it) := by
  unfold State.startItem
  repeat' (first
    | with_reducible first | assumption | apply Kept.ite | apply State.hzWrite_kept | apply State.setEngine_kept
    | (extract_lets +onlyGivenNames x
       first
       | (refine Kept.cut (r := r) (x := x) ?_ ?_ <;> first | (clear_value x; intro hx) | subst x)
       | subst x)
    | split
    | dsimp only)

theorem State.dispatch_kept {r s : State} (h : Kept r s) (e : Nat) : Kept r (State.dispatch s e) := by
  unfold State.dispatch
  repeat' (first
    | with_reducible first | assumption | apply State.startItem_kept | apply State.setEngine_kept
    | split
    | dsimp only)

theorem State.leaveUser_kept {r s : State} (h : Kept r s) (e : Nat) : Kept r (State.leaveUser s e) := by
  unfold State.leaveUser
  repeat' (first
    | with_reducible first | assumption | apply Kept.ite | apply State.setEngine_kept | apply State.startItem_kept
    | (extract_lets +onlyGivenNames x
       first
       | (refine Kept.cut (r := r) (x := x) ?_ ?_ <;> first | (clear_value x; intro hx) | subst x)
       | subst x)
    | split
    | dsimp only)

theorem State.loseItem_kept {r s : State} (h : Kept r s) (it : Item) : Kept r (State.loseItem s it) := by
  unfold State.loseItem
  repeat' (first
    | with_reducible
        first
        | assumption | apply Kept.ite | apply State.setTick_kept | apply Kept.ite_snd
        | refine Kept.snd ‹_ = (_, _)› ?_)

theorem State.halt_kept {r s : State} (h : Kept r s) (e : Nat) (cause : Nat) (kernel : Nat) :
    Kept r (State.halt s e cause kernel) := by
  unfold State.halt
  repeat' (first
    | with_reducible
        first
        | assumption | apply State.loseItem_kept | apply State.setEngine_kept
        | refine Kept.foldl (fun _ _ _ => ?_) _ ?_ | refine Kept.snd ‹_ = (_, _)› ?_
    | (extract_lets +onlyGivenNames x
       first
       | (refine Kept.cut (r := r) (x := x) ?_ ?_ <;> first | (clear_value x; intro hx) | subst x)
       | subst x)
    | split
    | dsimp only
    | (intro s1 h1; dsimp only)
    | intro s1 h1)

theorem State.abortUser_kept {r s : State} (h : Kept r s) (e : Nat) (it : Item) (cause : Nat) :
    Kept r (State.abortUser s e it cause) := by
  unfold State.abortUser
  repeat' (first
    | with_reducible
        first
        | assumption | apply Kept.ite | apply State.leaveUser_kept | apply State.setEngine_kept
        | apply State.osBit_kept | apply State.count_kept | apply State.countAt_kept | apply State.event_kept | rfl
    | (simp only [Kept.lit]; with_reducible apply KeptCore.of)
    | (extract_lets +onlyGivenNames x
       first
       | (refine Kept.cut (r := r) (x := x) ?_ ?_ <;> first | (clear_value x; intro hx) | subst x)
       | subst x)
    | split
    | dsimp only
    | rfl)

theorem State.userFault_kept {r s : State} (h : Kept r s) (e : Nat) (cause : Nat) :
    Kept r (State.userFault s e cause) := by
  unfold State.userFault
  repeat' (first
    | with_reducible first | assumption | apply State.abortUser_kept
    | split
    | dsimp only)

theorem State.memoryFault_kept {r s : State} (h : Kept r s) (e : Nat) (user : Bool) :
    Kept r (State.memoryFault s e user) := by
  unfold State.memoryFault
  repeat' (first
    | with_reducible first | assumption | apply Kept.ite | apply State.userFault_kept | apply State.halt_kept)

theorem State.hzFault_kept {r s : State} (h : Kept r s) (e : Nat) (cause : Nat) : Kept r (State.hzFault s e cause) := by
  unfold State.hzFault
  repeat' (first
    | with_reducible first | assumption | apply State.userFault_kept | apply State.halt_kept
    | (extract_lets +onlyGivenNames x
       first
       | (refine Kept.cut (r := r) (x := x) ?_ ?_ <;> first | (clear_value x; intro hx) | subst x)
       | subst x)
    | split
    | dsimp only)

theorem State.slotOp_kept {r s : State} (h : Kept r s) (e : Nat) (f : Bool → Nat → Ctx → Except Nat Ctx) :
    Kept r (State.slotOp s e f) := by
  unfold State.slotOp
  repeat' (first
    | with_reducible first | assumption | apply State.hzFault_kept | apply State.setEngine_kept
    | (extract_lets +onlyGivenNames x
       first
       | (refine Kept.cut (r := r) (x := x) ?_ ?_ <;> first | (clear_value x; intro hx) | subst x)
       | subst x)
    | split
    | dsimp only)

theorem State.commitBundle_kept {r s : State} (h : Kept r s) (e : Nat) (user : Bool) (pc : Nat)
    (loops : List LoopLevel) (extra : Nat) :
    Kept r (State.commitBundle s e user pc loops extra) := by
  unfold State.commitBundle
  repeat' (first
    | with_reducible
        first
        | assumption | apply State.hzPutByte_kept | apply State.setEngine_kept
        | refine Kept.foldl (fun _ _ _ => ?_) _ ?_ | refine Kept.snd ‹_ = (_, _)› ?_
    | (extract_lets +onlyGivenNames x
       first
       | (refine Kept.cut (r := r) (x := x) ?_ ?_ <;> first | (clear_value x; intro hx) | subst x)
       | subst x)
    | split
    | dsimp only
    | (intro s1 h1; dsimp only)
    | intro s1 h1)

theorem State.goOn_kept {r s : State} (h : Kept r s) (e : Nat) (user : Bool) (pc : Nat) (loops : List LoopLevel)
    (extra : Nat) :
    Kept r (State.goOn s e user pc loops extra) := by
  unfold State.goOn
  repeat' (first
    | with_reducible
        first
        | assumption | apply Kept.ite | apply State.hzFault_kept | apply State.commitBundle_kept
        | apply State.userFault_kept
    | (extract_lets +onlyGivenNames x
       first
       | (refine Kept.cut (r := r) (x := x) ?_ ?_ <;> first | (clear_value x; intro hx) | subst x)
       | subst x)
    | split
    | dsimp only)

theorem State.ctlPlain_kept {r s : State} (h : Kept r s) (e : Nat) : Kept r (State.ctlPlain s e) := by
  unfold State.ctlPlain
  repeat' (first
    | with_reducible first | assumption | apply State.goOn_kept
    | (extract_lets +onlyGivenNames x
       first
       | (refine Kept.cut (r := r) (x := x) ?_ ?_ <;> first | (clear_value x; intro hx) | subst x)
       | subst x)
    | split
    | dsimp only)

theorem State.ctlJump_kept {r s : State} (h : Kept r s) (e : Nat) (target : Nat) (reads : List RegId) (taken : Ctx → Bool) :
    Kept r (State.ctlJump s e target reads taken) := by
  unfold State.ctlJump
  repeat' (first
    | with_reducible
        first
        | assumption | apply Kept.ite | apply State.setEngine_kept | apply State.hzFault_kept | apply State.goOn_kept
    | (extract_lets +onlyGivenNames x
       first
       | (refine Kept.cut (r := r) (x := x) ?_ ?_ <;> first | (clear_value x; intro hx) | subst x)
       | subst x)
    | split
    | dsimp only)

theorem State.ctlLoop_kept {r s : State} (h : Kept r s) (e : Nat) (last : Nat) : Kept r (State.ctlLoop s e last) := by
  unfold State.ctlLoop
  repeat' (first
    | with_reducible
        first
        | assumption | apply Kept.ite | apply State.setEngine_kept | apply State.hzFault_kept | apply State.goOn_kept
    | (extract_lets +onlyGivenNames x
       first
       | (refine Kept.cut (r := r) (x := x) ?_ ?_ <;> first | (clear_value x; intro hx) | subst x)
       | subst x)
    | split
    | dsimp only)

theorem State.endUser_kept {r s : State} (h : Kept r s) (e : Nat) (it : Item) : Kept r (State.endUser s e it) := by
  unfold State.endUser
  repeat' (first
    | with_reducible
        first
        | assumption | apply Kept.ite | apply State.leaveUser_kept | apply State.userFault_kept
        | apply State.offer_kept | apply Kept.ite_snd | refine Kept.snd ‹_ = (_, _)› ?_
    | (extract_lets +onlyGivenNames x
       first
       | (refine Kept.cut (r := r) (x := x) ?_ ?_ <;> first | (clear_value x; intro hx) | subst x)
       | subst x)
    | split
    | dsimp only)

theorem State.ctlEnd_kept {r s : State} (h : Kept r s) (e : Nat) : Kept r (State.ctlEnd s e) := by
  unfold State.ctlEnd
  repeat' (first
    | with_reducible
        first
        | assumption | apply Kept.ite | apply State.hzFault_kept | apply State.commitBundle_kept
        | apply State.userFault_kept | apply State.endUser_kept | apply State.dispatch_kept
        | apply State.libraryEnd_kept | apply State.setEngine_kept
    | (extract_lets +onlyGivenNames x
       first
       | (refine Kept.cut (r := r) (x := x) ?_ ?_ <;> first | (clear_value x; intro hx) | subst x)
       | subst x)
    | split
    | dsimp only)

theorem execCheckpointInstant_kept {r s : State} (h : Kept r s) (t : Nat) (engine : Nat) (item : Nat) :
    KeptO r (execCheckpointInstant t engine item s) := by
  unfold execCheckpointInstant
  repeat' (first
    | with_reducible
        first
        | assumption | apply Kept.ite | apply KeptO.ite | apply KeptO.next | apply State.at_kept
        | apply State.halt_kept
    | (extract_lets +onlyGivenNames x
       first
       | (refine Kept.cut (r := r) (x := x) ?_ ?_ <;> first | (clear_value x; intro hx) | subst x)
       | subst x)
    | split
    | dsimp only)

theorem execBudgetExhausted_kept {r s : State} (h : Kept r s) (t : Nat) (engine : Nat) :
    KeptO r (execBudgetExhausted t engine s) := by
  unfold execBudgetExhausted
  repeat' (first
    | with_reducible first | assumption | apply KeptO.next | apply State.userFault_kept | apply State.at_kept)

theorem execUserItemCheckpoint_kept {r s : State} (h : Kept r s) (t : Nat) (engine : Nat) :
    KeptO r (execUserItemCheckpoint t engine s) := by
  unfold execUserItemCheckpoint
  repeat' (first
    | with_reducible first | assumption | apply KeptO.next | apply State.at_kept | apply State.abortUser_kept
    | (extract_lets +onlyGivenNames x
       first
       | (refine Kept.cut (r := r) (x := x) ?_ ?_ <;> first | (clear_value x; intro hx) | subst x)
       | subst x)
    | split
    | dsimp only)

/-! ## HazelOps -/

theorem execHzNop_kept {r s : State} (h : Kept r s) (e : Nat) : KeptO r (execHzNop e s) := by
  unfold execHzNop
  repeat' (first
    | with_reducible first | assumption | apply KeptO.next | apply State.ctlPlain_kept)

theorem execHzLoop_kept {r s : State} (h : Kept r s) (e : Nat) (last : Nat) : KeptO r (execHzLoop e last s) := by
  unfold execHzLoop
  repeat' (first
    | with_reducible first | assumption | apply KeptO.next | apply State.ctlLoop_kept)

theorem execHzJmp_kept {r s : State} (h : Kept r s) (e : Nat) (target : Nat) : KeptO r (execHzJmp e target s) := by
  unfold execHzJmp
  repeat' (first
    | with_reducible first | assumption | apply KeptO.next | apply State.ctlJump_kept)

theorem execHzBra_kept {r s : State} (h : Kept r s) (e : Nat) (target : Nat) : KeptO r (execHzBra e target s) := by
  unfold execHzBra
  repeat' (first
    | with_reducible first | assumption | apply KeptO.next | apply State.ctlJump_kept)

theorem execHzBrn_kept {r s : State} (h : Kept r s) (e : Nat) (target : Nat) : KeptO r (execHzBrn e target s) := by
  unfold execHzBrn
  repeat' (first
    | with_reducible first | assumption | apply KeptO.next | apply State.ctlJump_kept)

theorem execHzChk_kept {r s : State} (h : Kept r s) (e : Nat) (marker : Nat) : KeptO r (execHzChk e marker s) := by
  unfold execHzChk
  repeat' (first
    | with_reducible
        first
        | assumption | apply Kept.ite | apply KeptO.ite | apply KeptO.next | apply State.ctlPlain_kept
        | apply State.os_kept)

theorem execHzEnd_kept {r s : State} (h : Kept r s) (e : Nat) (t : Nat) : KeptO r (execHzEnd e t s) := by
  unfold execHzEnd
  repeat' (first
    | with_reducible first | assumption | apply KeptO.next | apply State.ctlEnd_kept | apply State.at_kept)

theorem execHzIllegalBundle_kept {r s : State} (h : Kept r s) (e : Nat) (t : Nat) (loop : Bool) :
    KeptO r (execHzIllegalBundle e t loop s) := by
  unfold execHzIllegalBundle
  repeat' (first
    | with_reducible
        first
        | assumption | apply Kept.ite | apply KeptO.ite | apply KeptO.next | apply State.hzFault_kept
        | apply State.at_kept)

theorem execHzAddrNop_kept {r s : State} (h : Kept r s) (e : Nat) : KeptO r (execHzAddrNop e s) := by
  unfold execHzAddrNop
  repeat' (first
    | with_reducible first | assumption | apply KeptO.next | apply State.slotOp_kept)

theorem execHzPadd_kept {r s : State} (h : Kept r s) (e : Nat) (k : Nat) : KeptO r (execHzPadd e k s) := by
  unfold execHzPadd
  repeat' (first
    | with_reducible first | assumption | apply KeptO.next | apply State.slotOp_kept)

theorem execHzPldp_kept {r s : State} (h : Kept r s) (e : Nat) (k : Nat) (imm : Nat) :
    KeptO r (execHzPldp e k imm s) := by
  unfold execHzPldp
  repeat' (first
    | with_reducible first | assumption | apply KeptO.next | apply State.slotOp_kept
    | (extract_lets +onlyGivenNames x
       first
       | (refine Kept.cut (r := r) (x := x) ?_ ?_ <;> first | (clear_value x; intro hx) | subst x)
       | subst x)
    | split
    | dsimp only)

theorem execHzPldm_kept {r s : State} (h : Kept r s) (e : Nat) (k : Nat) (imm : Nat) :
    KeptO r (execHzPldm e k imm s) := by
  unfold execHzPldm
  repeat' (first
    | with_reducible first | assumption | apply KeptO.next | apply State.slotOp_kept
    | (extract_lets +onlyGivenNames x
       first
       | (refine Kept.cut (r := r) (x := x) ?_ ?_ <;> first | (clear_value x; intro hx) | subst x)
       | subst x)
    | split
    | dsimp only)

theorem execHzPldl_kept {r s : State} (h : Kept r s) (e : Nat) (k : Nat) (imm : Nat) :
    KeptO r (execHzPldl e k imm s) := by
  unfold execHzPldl
  repeat' (first
    | with_reducible first | assumption | apply KeptO.next | apply State.slotOp_kept
    | (extract_lets +onlyGivenNames x
       first
       | (refine Kept.cut (r := r) (x := x) ?_ ?_ <;> first | (clear_value x; intro hx) | subst x)
       | subst x)
    | split
    | dsimp only)

theorem execHzPldz_kept {r s : State} (h : Kept r s) (e : Nat) (k : Nat) (imm : Nat) :
    KeptO r (execHzPldz e k imm s) := by
  unfold execHzPldz
  repeat' (first
    | with_reducible first | assumption | apply KeptO.next | apply State.slotOp_kept
    | (extract_lets +onlyGivenNames x
       first
       | (refine Kept.cut (r := r) (x := x) ?_ ?_ <;> first | (clear_value x; intro hx) | subst x)
       | subst x)
    | split
    | dsimp only)

theorem execHzPaddi_kept {r s : State} (h : Kept r s) (e : Nat) (k : Nat) (imm : Nat) :
    KeptO r (execHzPaddi e k imm s) := by
  unfold execHzPaddi
  repeat' (first
    | with_reducible first | assumption | apply KeptO.next | apply State.slotOp_kept)

theorem execHzPsets_kept {r s : State} (h : Kept r s) (e : Nat) (k : Nat) (imm : Nat) :
    KeptO r (execHzPsets e k imm s) := by
  unfold execHzPsets
  repeat' (first
    | with_reducible first | assumption | apply Kept.ite | apply KeptO.ite | apply KeptO.next | apply State.slotOp_kept
    | (extract_lets +onlyGivenNames x
       first
       | (refine Kept.cut (r := r) (x := x) ?_ ?_ <;> first | (clear_value x; intro hx) | subst x)
       | subst x)
    | split
    | dsimp only)

theorem State.loadEcc_kept {r s : State} (h : Kept r s) (e : Nat) (o : LsOp) (scalar : Bool) (n : Nat) :
    Kept r (State.loadEcc s e o scalar n) := by
  unfold State.loadEcc
  repeat' (first
    | with_reducible
        first
        | assumption | apply Kept.ite | apply State.bump_kept | apply State.eccLost_kept | apply State.eccFix_kept
    | (extract_lets +onlyGivenNames x
       first
       | (refine Kept.cut (r := r) (x := x) ?_ ?_ <;> first | (clear_value x; intro hx) | subst x)
       | subst x)
    | split
    | dsimp only)

theorem State.load_kept {r s : State} (h : Kept r s) (e : Nat) (o : LsOp) (n : Nat) (scalar : Bool) (acc : Bool)
    (f : Nat → Int) :
    Kept r (State.load s e o n scalar acc f) := by
  unfold State.load
  repeat' (first
    | with_reducible first | assumption | apply Kept.ite | apply State.loadEcc_kept | apply State.slotOp_kept
    | (extract_lets +onlyGivenNames x
       first
       | (refine Kept.cut (r := r) (x := x) ?_ ?_ <;> first | (clear_value x; intro hx) | subst x)
       | subst x)
    | split
    | dsimp only)

theorem State.store_kept {r s : State} (h : Kept r s) (e : Nat) (o : LsOp) (n : Nat) (scalar : Bool) (acc : Bool)
    (reads : List RegId) (f : Regs → Nat → List Byte × Bool) :
    Kept r (State.store s e o n scalar acc reads f) := by
  unfold State.store
  repeat' (first
    | with_reducible
        first
        | assumption | apply Kept.ite | apply State.slotOp_kept | apply State.bump_kept | apply Kept.ite_snd
        | refine Kept.snd ‹_ = (_, _)› ?_
    | (extract_lets +onlyGivenNames x
       first
       | (refine Kept.cut (r := r) (x := x) ?_ ?_ <;> first | (clear_value x; intro hx) | subst x)
       | subst x)
    | split
    | dsimp only)

theorem execHzLdstNop_kept {r s : State} (h : Kept r s) (e : Nat) (_ls : Bool) : KeptO r (execHzLdstNop e _ls s) := by
  unfold execHzLdstNop
  repeat' (first
    | with_reducible first | assumption | apply KeptO.next | apply State.slotOp_kept)

theorem execHzLdw_kept {r s : State} (h : Kept r s) (e : Nat) (o : LsOp) : KeptO r (execHzLdw e o s) := by
  unfold execHzLdw
  repeat' (first
    | with_reducible first | assumption | apply KeptO.next | apply State.load_kept)

theorem execHzLdb_kept {r s : State} (h : Kept r s) (e : Nat) (o : LsOp) : KeptO r (execHzLdb e o s) := by
  unfold execHzLdb
  repeat' (first
    | with_reducible first | assumption | apply KeptO.next | apply State.load_kept)

theorem execHzLdh_kept {r s : State} (h : Kept r s) (e : Nat) (o : LsOp) : KeptO r (execHzLdh e o s) := by
  unfold execHzLdh
  repeat' (first
    | with_reducible first | assumption | apply KeptO.next | apply State.load_kept)

theorem execHzLdhs_kept {r s : State} (h : Kept r s) (e : Nat) (o : LsOp) : KeptO r (execHzLdhs e o s) := by
  unfold execHzLdhs
  repeat' (first
    | with_reducible first | assumption | apply KeptO.next | apply State.load_kept)

theorem execHzLds_kept {r s : State} (h : Kept r s) (e : Nat) (o : LsOp) : KeptO r (execHzLds e o s) := by
  unfold execHzLds
  repeat' (first
    | with_reducible first | assumption | apply KeptO.next | apply State.load_kept)

theorem execHzLda_kept {r s : State} (h : Kept r s) (e : Nat) (o : LsOp) : KeptO r (execHzLda e o s) := by
  unfold execHzLda
  repeat' (first
    | with_reducible first | assumption | apply KeptO.next | apply State.load_kept)

theorem execHzStw_kept {r s : State} (h : Kept r s) (e : Nat) (o : LsOp) : KeptO r (execHzStw e o s) := by
  unfold execHzStw
  repeat' (first
    | with_reducible first | assumption | apply KeptO.next | apply State.store_kept | refine Kept.snd ‹_ = (_, _)› ?_)

theorem execHzStb_kept {r s : State} (h : Kept r s) (e : Nat) (o : LsOp) : KeptO r (execHzStb e o s) := by
  unfold execHzStb
  repeat' (first
    | with_reducible first | assumption | apply KeptO.next | apply State.store_kept | refine Kept.snd ‹_ = (_, _)› ?_)

theorem execHzSth_kept {r s : State} (h : Kept r s) (e : Nat) (o : LsOp) : KeptO r (execHzSth e o s) := by
  unfold execHzSth
  repeat' (first
    | with_reducible first | assumption | apply KeptO.next | apply State.store_kept | refine Kept.snd ‹_ = (_, _)› ?_
    | (extract_lets +onlyGivenNames x
       first
       | (refine Kept.cut (r := r) (x := x) ?_ ?_ <;> first | (clear_value x; intro hx) | subst x)
       | subst x)
    | split
    | dsimp only)

theorem execHzStbp_kept {r s : State} (h : Kept r s) (e : Nat) (o : LsOp) : KeptO r (execHzStbp e o s) := by
  unfold execHzStbp
  repeat' (first
    | with_reducible first | assumption | apply KeptO.next | apply State.store_kept | refine Kept.snd ‹_ = (_, _)› ?_)

theorem execHzSts_kept {r s : State} (h : Kept r s) (e : Nat) (o : LsOp) : KeptO r (execHzSts e o s) := by
  unfold execHzSts
  repeat' (first
    | with_reducible first | assumption | apply KeptO.next | apply State.store_kept | refine Kept.snd ‹_ = (_, _)› ?_)

theorem execHzSta_kept {r s : State} (h : Kept r s) (e : Nat) (o : LsOp) : KeptO r (execHzSta e o s) := by
  unfold execHzSta
  repeat' (first
    | with_reducible first | assumption | apply KeptO.next | apply State.store_kept | refine Kept.snd ‹_ = (_, _)› ?_
    | (extract_lets +onlyGivenNames x
       first
       | (refine Kept.cut (r := r) (x := x) ?_ ?_ <;> first | (clear_value x; intro hx) | subst x)
       | subst x)
    | split
    | dsimp only)

theorem execHzStaw_kept {r s : State} (h : Kept r s) (e : Nat) (o : LsOp) : KeptO r (execHzStaw e o s) := by
  unfold execHzStaw
  repeat' (first
    | with_reducible first | assumption | apply KeptO.next | apply State.store_kept | refine Kept.snd ‹_ = (_, _)› ?_
    | (extract_lets +onlyGivenNames x
       first
       | (refine Kept.cut (r := r) (x := x) ?_ ?_ <;> first | (clear_value x; intro hx) | subst x)
       | subst x)
    | split
    | dsimp only)

theorem execHzStaq_kept {r s : State} (h : Kept r s) (e : Nat) (o : LsOp) : KeptO r (execHzStaq e o s) := by
  unfold execHzStaq
  repeat' (first
    | with_reducible first | assumption | apply KeptO.next | apply State.store_kept | refine Kept.snd ‹_ = (_, _)› ?_)

theorem State.macForm_kept {r s : State} (h : Kept r s) (e : Nat) (o : MacOp) (f : Int → Int → Int) :
    Kept r (State.macForm s e o f) := by
  unfold State.macForm
  repeat' (first
    | with_reducible first | assumption | apply State.slotOp_kept
    | (extract_lets +onlyGivenNames x
       first
       | (refine Kept.cut (r := r) (x := x) ?_ ?_ <;> first | (clear_value x; intro hx) | subst x)
       | subst x)
    | split
    | dsimp only)

theorem State.accForm_kept {r s : State} (h : Kept r s) (e : Nat) (o : MacOp) (legal : Bool) (reads : List RegId)
    (f : Regs → List Int) :
    Kept r (State.accForm s e o legal reads f) := by
  unfold State.accForm
  repeat' (first
    | with_reducible first | assumption | apply Kept.ite | apply State.slotOp_kept)

theorem State.dForm_kept {r s : State} (h : Kept r s) (e : Nat) (o : MacOp) (reads : List RegId)
    (f : Int → Int → Int) (sat : Bool) :
    Kept r (State.dForm s e o reads f sat) := by
  unfold State.dForm
  repeat' (first
    | with_reducible first | assumption | apply Kept.ite | apply State.slotOp_kept
    | (extract_lets +onlyGivenNames x
       first
       | (refine Kept.cut (r := r) (x := x) ?_ ?_ <;> first | (clear_value x; intro hx) | subst x)
       | subst x)
    | split
    | dsimp only)

theorem execHzMacNop_kept {r s : State} (h : Kept r s) (e : Nat) : KeptO r (execHzMacNop e s) := by
  unfold execHzMacNop
  repeat' (first
    | with_reducible first | assumption | apply KeptO.next | apply State.slotOp_kept)

theorem execHzMac_kept {r s : State} (h : Kept r s) (e : Nat) (o : MacOp) : KeptO r (execHzMac e o s) := by
  unfold execHzMac
  repeat' (first
    | with_reducible first | assumption | apply KeptO.next | apply State.macForm_kept)

theorem execHzMsu_kept {r s : State} (h : Kept r s) (e : Nat) (o : MacOp) : KeptO r (execHzMsu e o s) := by
  unfold execHzMsu
  repeat' (first
    | with_reducible first | assumption | apply KeptO.next | apply State.macForm_kept)

theorem execHzMpy_kept {r s : State} (h : Kept r s) (e : Nat) (o : MacOp) : KeptO r (execHzMpy e o s) := by
  unfold execHzMpy
  repeat' (first
    | with_reducible first | assumption | apply KeptO.next | apply State.accForm_kept
    | dsimp only)

theorem execHzClr_kept {r s : State} (h : Kept r s) (e : Nat) (o : MacOp) : KeptO r (execHzClr e o s) := by
  unfold execHzClr
  repeat' (first
    | with_reducible first | assumption | apply KeptO.next | apply State.accForm_kept)

theorem execHzAccd_kept {r s : State} (h : Kept r s) (e : Nat) (o : MacOp) : KeptO r (execHzAccd e o s) := by
  unfold execHzAccd
  repeat' (first
    | with_reducible first | assumption | apply KeptO.next | apply State.slotOp_kept)

theorem execHzSeta_kept {r s : State} (h : Kept r s) (e : Nat) (o : MacOp) : KeptO r (execHzSeta e o s) := by
  unfold execHzSeta
  repeat' (first
    | with_reducible first | assumption | apply KeptO.next | apply State.accForm_kept)

theorem execHzRsa_kept {r s : State} (h : Kept r s) (e : Nat) (o : MacOp) : KeptO r (execHzRsa e o s) := by
  unfold execHzRsa
  repeat' (first
    | with_reducible first | assumption | apply KeptO.next | apply State.accForm_kept)

theorem execHzLsa_kept {r s : State} (h : Kept r s) (e : Nat) (o : MacOp) : KeptO r (execHzLsa e o s) := by
  unfold execHzLsa
  repeat' (first
    | with_reducible first | assumption | apply KeptO.next | apply State.accForm_kept)

theorem execHzDivr_kept {r s : State} (h : Kept r s) (e : Nat) (o : MacOp) : KeptO r (execHzDivr e o s) := by
  unfold execHzDivr
  repeat' (first
    | with_reducible first | assumption | apply Kept.ite | apply KeptO.ite | apply KeptO.next | apply State.slotOp_kept
    | (extract_lets +onlyGivenNames x
       first
       | (refine Kept.cut (r := r) (x := x) ?_ ?_ <;> first | (clear_value x; intro hx) | subst x)
       | subst x)
    | split
    | dsimp only)

theorem execHzExt_kept {r s : State} (h : Kept r s) (e : Nat) (o : MacOp) : KeptO r (execHzExt e o s) := by
  unfold execHzExt
  repeat' (first
    | with_reducible first | assumption | apply Kept.ite | apply KeptO.ite | apply KeptO.next | apply State.slotOp_kept)

theorem execHzAdd_kept {r s : State} (h : Kept r s) (e : Nat) (o : MacOp) : KeptO r (execHzAdd e o s) := by
  unfold execHzAdd
  repeat' (first
    | with_reducible first | assumption | apply KeptO.next | apply State.dForm_kept)

theorem execHzSub_kept {r s : State} (h : Kept r s) (e : Nat) (o : MacOp) : KeptO r (execHzSub e o s) := by
  unfold execHzSub
  repeat' (first
    | with_reducible first | assumption | apply KeptO.next | apply State.dForm_kept)

theorem execHzAdds_kept {r s : State} (h : Kept r s) (e : Nat) (o : MacOp) : KeptO r (execHzAdds e o s) := by
  unfold execHzAdds
  repeat' (first
    | with_reducible first | assumption | apply KeptO.next | apply State.dForm_kept)

theorem execHzSubs_kept {r s : State} (h : Kept r s) (e : Nat) (o : MacOp) : KeptO r (execHzSubs e o s) := by
  unfold execHzSubs
  repeat' (first
    | with_reducible first | assumption | apply KeptO.next | apply State.dForm_kept)

theorem execHzMin_kept {r s : State} (h : Kept r s) (e : Nat) (o : MacOp) : KeptO r (execHzMin e o s) := by
  unfold execHzMin
  repeat' (first
    | with_reducible first | assumption | apply KeptO.next | apply State.dForm_kept)

theorem execHzMax_kept {r s : State} (h : Kept r s) (e : Nat) (o : MacOp) : KeptO r (execHzMax e o s) := by
  unfold execHzMax
  repeat' (first
    | with_reducible first | assumption | apply KeptO.next | apply State.dForm_kept)

theorem execHzAnd_kept {r s : State} (h : Kept r s) (e : Nat) (o : MacOp) : KeptO r (execHzAnd e o s) := by
  unfold execHzAnd
  repeat' (first
    | with_reducible first | assumption | apply KeptO.next | apply State.dForm_kept)

theorem execHzOr_kept {r s : State} (h : Kept r s) (e : Nat) (o : MacOp) : KeptO r (execHzOr e o s) := by
  unfold execHzOr
  repeat' (first
    | with_reducible first | assumption | apply KeptO.next | apply State.dForm_kept)

theorem execHzXor_kept {r s : State} (h : Kept r s) (e : Nat) (o : MacOp) : KeptO r (execHzXor e o s) := by
  unfold execHzXor
  repeat' (first
    | with_reducible first | assumption | apply KeptO.next | apply State.dForm_kept)

theorem State.shiftForm_kept {r s : State} (h : Kept r s) (e : Nat) (o : MacOp) (f : Int → Int) :
    Kept r (State.shiftForm s e o f) := by
  unfold State.shiftForm
  repeat' (first
    | with_reducible first | assumption | apply Kept.ite | apply State.slotOp_kept)

theorem execHzRsd_kept {r s : State} (h : Kept r s) (e : Nat) (o : MacOp) : KeptO r (execHzRsd e o s) := by
  unfold execHzRsd
  repeat' (first
    | with_reducible first | assumption | apply KeptO.next | apply State.shiftForm_kept)

theorem execHzLsd_kept {r s : State} (h : Kept r s) (e : Nat) (o : MacOp) : KeptO r (execHzLsd e o s) := by
  unfold execHzLsd
  repeat' (first
    | with_reducible first | assumption | apply KeptO.next | apply State.shiftForm_kept)

theorem State.compareForm_kept {r s : State} (h : Kept r s) (e : Nat) (o : MacOp) (f : Int → Int → Bool) :
    Kept r (State.compareForm s e o f) := by
  unfold State.compareForm
  repeat' (first
    | with_reducible first | assumption | apply Kept.ite | apply State.slotOp_kept
    | (extract_lets +onlyGivenNames x
       first
       | (refine Kept.cut (r := r) (x := x) ?_ ?_ <;> first | (clear_value x; intro hx) | subst x)
       | subst x)
    | split
    | dsimp only)

theorem execHzCgt_kept {r s : State} (h : Kept r s) (e : Nat) (o : MacOp) : KeptO r (execHzCgt e o s) := by
  unfold execHzCgt
  repeat' (first
    | with_reducible first | assumption | apply KeptO.next | apply State.compareForm_kept)

theorem execHzCeq_kept {r s : State} (h : Kept r s) (e : Nat) (o : MacOp) : KeptO r (execHzCeq e o s) := by
  unfold execHzCeq
  repeat' (first
    | with_reducible first | assumption | apply KeptO.next | apply State.compareForm_kept)

theorem execHzSel_kept {r s : State} (h : Kept r s) (e : Nat) (o : MacOp) : KeptO r (execHzSel e o s) := by
  unfold execHzSel
  repeat' (first
    | with_reducible first | assumption | apply Kept.ite | apply KeptO.ite | apply KeptO.next | apply State.slotOp_kept
    | (extract_lets +onlyGivenNames x
       first
       | (refine Kept.cut (r := r) (x := x) ?_ ?_ <;> first | (clear_value x; intro hx) | subst x)
       | subst x)
    | split
    | dsimp only)

theorem execHzMov_kept {r s : State} (h : Kept r s) (e : Nat) (o : MacOp) : KeptO r (execHzMov e o s) := by
  unfold execHzMov
  repeat' (first
    | with_reducible first | assumption | apply KeptO.next | apply State.dForm_kept)

theorem execHzPrm_kept {r s : State} (h : Kept r s) (e : Nat) (o : MacOp) : KeptO r (execHzPrm e o s) := by
  unfold execHzPrm
  repeat' (first
    | with_reducible first | assumption | apply Kept.ite | apply KeptO.ite | apply KeptO.next | apply State.slotOp_kept
    | (extract_lets +onlyGivenNames x
       first
       | (refine Kept.cut (r := r) (x := x) ?_ ?_ <;> first | (clear_value x; intro hx) | subst x)
       | subst x)
    | split
    | dsimp only)

theorem execHzAbs_kept {r s : State} (h : Kept r s) (e : Nat) (o : MacOp) : KeptO r (execHzAbs e o s) := by
  unfold execHzAbs
  repeat' (first
    | with_reducible first | assumption | apply Kept.ite | apply KeptO.ite | apply KeptO.next | apply State.slotOp_kept)

end Sys2Proof.Machine
end

