-- ==== Sys2Proof/Laws/KeptLanes.lean ====
section
/-! SUPPORT. What Kept of Safety.lean says of each function of the model:
the host lanes, Flax and Almond. -/

namespace Sys2Proof.Machine

open Sys2Proof

set_option linter.unusedSimpArgs false
set_option linter.unusedVariables false

/-! ## Lanes -/

theorem State.setTx_kept {r s : State} (h : Kept r s) (n : Nat) (f : TxLane → TxLane) : Kept r (State.setTx s n f) := by
  unfold State.setTx
  repeat' (first
    | with_reducible first | assumption | rfl
    | (simp only [Kept.lit, length_modAt]; with_reducible apply KeptCore.of)
    | (extract_lets +onlyGivenNames x
       first
       | (refine Kept.cut (r := r) (x := x) ?_ ?_ <;> first | (clear_value x; intro hx) | subst x)
       | subst x)
    | split
    | dsimp only
    | rfl)

theorem State.setRx_kept {r s : State} (h : Kept r s) (m : Nat) (f : RxLane → RxLane) : Kept r (State.setRx s m f) := by
  unfold State.setRx
  repeat' (first
    | with_reducible first | assumption | rfl
    | (simp only [Kept.lit, length_modAt]; with_reducible apply KeptCore.of)
    | (extract_lets +onlyGivenNames x
       first
       | (refine Kept.cut (r := r) (x := x) ?_ ?_ <;> first | (clear_value x; intro hx) | subst x)
       | subst x)
    | split
    | dsimp only
    | rfl)

theorem State.nextFrame_kept {r s : State} (h : Kept r s) (lane : Nat) (q : Nat) :
    Kept r (State.nextFrame s lane q).2 := by
  unfold State.nextFrame
  repeat' (first
    | with_reducible
        first
        | assumption | apply Kept.ite | apply State.setQueue_kept | apply State.releaseRegions_kept
        | apply State.releaseBanks_kept | apply Kept.ite_snd | refine Kept.snd ‹_ = (_, _)› ?_ | rfl
    | (simp only [Kept.lit, length_modAt]; with_reducible apply KeptCore.of)
    | (extract_lets +onlyGivenNames x
       first
       | (refine Kept.cut (r := r) (x := x) ?_ ?_ <;> first | (clear_value x; intro hx) | subst x)
       | subst x)
    | split
    | dsimp only
    | rfl)

theorem State.sendNew_kept {r s : State} (h : Kept r s) (lane : Nat) (f : LaneFrame) :
    Kept r (State.sendNew s lane f) := by
  unfold State.sendNew
  repeat' (first
    | with_reducible first | assumption | apply State.setTx_kept | apply State.sendData_kept | apply State.bump_kept
    | (extract_lets +onlyGivenNames x
       first
       | (refine Kept.cut (r := r) (x := x) ?_ ?_ <;> first | (clear_value x; intro hx) | subst x)
       | subst x)
    | split
    | dsimp only)

theorem execDataFrame_kept {r s : State} (h : Kept r s) (t : Nat) (lane : Nat) : KeptO r (execDataFrame t lane s) := by
  unfold execDataFrame
  repeat' (first
    | with_reducible
        first
        | assumption | apply Kept.ite | apply KeptO.ite | apply KeptO.next | apply State.at_kept
        | apply State.setTx_kept | apply State.putFrame_kept | apply State.count_kept | apply State.bump_kept
        | apply State.nextFrame_kept | apply State.sendNew_kept | apply Kept.ite_snd | refine Kept.snd ‹_ = (_, _)› ?_
    | (extract_lets +onlyGivenNames x
       first
       | (refine Kept.cut (r := r) (x := x) ?_ ?_ <;> first | (clear_value x; intro hx) | subst x)
       | subst x)
    | split
    | dsimp only)

theorem execDeviceControlFrame_kept {r s : State} (h : Kept r s) (t : Nat) (lane : Nat) :
    KeptO r (execDeviceControlFrame t lane s) := by
  unfold execDeviceControlFrame
  repeat' (first
    | with_reducible
        first
        | assumption | apply Kept.ite | apply KeptO.ite | apply KeptO.next | apply State.at_kept
        | apply State.setTx_kept | apply State.putFrame_kept | apply State.bump_kept
    | (extract_lets +onlyGivenNames x
       first
       | (refine Kept.cut (r := r) (x := x) ?_ ?_ <;> first | (clear_value x; intro hx) | subst x)
       | subst x)
    | split
    | dsimp only)

theorem State.oweControl_kept {r s : State} (h : Kept r s) : Kept r (State.oweControl s) := by
  unfold State.oweControl
  repeat' (first
    | with_reducible first | assumption | apply Kept.ite | rfl
    | (simp only [Kept.lit, List.length_map]; with_reducible apply KeptCore.of)
    | (extract_lets +onlyGivenNames x
       first
       | (refine Kept.cut (r := r) (x := x) ?_ ?_ <;> first | (clear_value x; intro hx) | subst x)
       | subst x)
    | split
    | dsimp only
    | rfl)

theorem State.rejectDownload_kept {r s : State} (h : Kept r s) : Kept r (State.rejectDownload s) := by
  unfold State.rejectDownload
  repeat' (first
    | with_reducible first | assumption | apply State.oweControl_kept | rfl
    | (simp only [Kept.lit]; with_reducible apply KeptCore.of)
    | (extract_lets +onlyGivenNames x
       first
       | (refine Kept.cut (r := r) (x := x) ?_ ?_ <;> first | (clear_value x; intro hx) | subst x)
       | subst x)
    | split
    | dsimp only
    | rfl)

theorem State.received_kept {r s : State} (h : Kept r s) (m : Nat) : Kept r (State.received s m) := by
  unfold State.received
  repeat' (first
    | with_reducible first | assumption | apply State.bump_kept)

theorem State.creditFrame_kept {r s : State} (h : Kept r s) (words : List Nat) :
    Kept r (State.creditFrame s words) := by
  unfold State.creditFrame
  repeat' (first
    | with_reducible first | assumption | apply Kept.ite | rfl
    | (simp only [Kept.lit, List.length_map]; with_reducible apply KeptCore.of)
    | (extract_lets +onlyGivenNames x
       first
       | (refine Kept.cut (r := r) (x := x) ?_ ?_ <;> first | (clear_value x; intro hx) | subst x)
       | subst x)
    | split
    | dsimp only
    | rfl)

theorem State.chargeMiss_kept {r s : State} (h : Kept r s) : Kept r (State.chargeMiss s) := by
  unfold State.chargeMiss
  repeat' (first
    | with_reducible first | assumption | apply Kept.ite | rfl
    | (simp only [Kept.lit, length_modAt]; with_reducible apply KeptCore.of)
    | (extract_lets +onlyGivenNames x
       first
       | (refine Kept.cut (r := r) (x := x) ?_ ?_ <;> first | (clear_value x; intro hx) | subst x)
       | subst x)
    | split
    | dsimp only
    | rfl)

theorem State.replayOne_kept {r s : State} (h : Kept r s) (n : Nat) (seq : Nat) : Kept r (State.replayOne s n seq) := by
  unfold State.replayOne
  repeat' (first
    | with_reducible
        first
        | assumption | apply Kept.ite | apply State.setTx_kept | apply State.bump_kept | apply State.chargeMiss_kept
        | apply State.oweControl_kept | apply Kept.ite_snd | refine Kept.snd ‹_ = (_, _)› ?_ | rfl
    | (simp only [Kept.lit]; with_reducible apply KeptCore.of)
    | (extract_lets +onlyGivenNames x
       first
       | (refine Kept.cut (r := r) (x := x) ?_ ?_ <;> first | (clear_value x; intro hx) | subst x)
       | subst x)
    | split
    | dsimp only
    | rfl)

theorem State.replayFrame_kept {r s : State} (h : Kept r s) (entries : List (Nat × Nat × Nat)) :
    Kept r (State.replayFrame s entries) := by
  unfold State.replayFrame
  repeat' (first
    | with_reducible
        first
        | assumption | apply State.replayOne_kept | refine Kept.foldl (fun _ _ _ => ?_) _ ?_
        | refine Kept.snd ‹_ = (_, _)› ?_
    | (extract_lets +onlyGivenNames x
       first
       | (refine Kept.cut (r := r) (x := x) ?_ ?_ <;> first | (clear_value x; intro hx) | subst x)
       | subst x)
    | split
    | dsimp only
    | (intro s1 h1; dsimp only)
    | intro s1 h1)

theorem State.moveResends_kept {r s : State} (h : Kept r s) : Kept r (State.moveResends s) := by
  unfold State.moveResends
  repeat' (first
    | with_reducible
        first
        | assumption | apply Kept.ite | apply State.setTx_kept | refine Kept.foldl (fun _ _ _ => ?_) _ ?_
    | (extract_lets +onlyGivenNames x
       first
       | (refine Kept.cut (r := r) (x := x) ?_ ?_ <;> first | (clear_value x; intro hx) | subst x)
       | subst x)
    | split
    | dsimp only
    | (intro s1 h1; dsimp only)
    | intro s1 h1)

theorem State.upLanes_kept {r s : State} (h : Kept r s) : Kept r (State.upLanes s) := by
  unfold State.upLanes
  repeat' (first
    | with_reducible
        first
        | assumption | apply Kept.ite | apply State.setTx_kept | refine Kept.foldl (fun _ _ _ => ?_) _ ?_
    | (intro s1 h1; dsimp only)
    | intro s1 h1)

theorem State.hostStatusFrame_kept {r s : State} (h : Kept r s) (mask : Nat) :
    Kept r (State.hostStatusFrame s mask) := by
  unfold State.hostStatusFrame
  repeat' (first
    | with_reducible
        first
        | assumption | apply Kept.ite | apply State.os_kept | apply State.setTx_kept | apply State.moveResends_kept
        | apply State.upLanes_kept | refine Kept.foldl (fun _ _ _ => ?_) _ ?_
    | (extract_lets +onlyGivenNames x
       first
       | (refine Kept.cut (r := r) (x := x) ?_ ?_ <;> first | (clear_value x; intro hx) | subst x)
       | subst x)
    | split
    | dsimp only
    | (intro s1 h1; dsimp only)
    | intro s1 h1)

theorem execBlockLock_kept {r s : State} (h : Kept r s) (t : Nat) (lane : Nat) : KeptO r (execBlockLock t lane s) := by
  unfold execBlockLock
  repeat' (first
    | with_reducible
        first
        | assumption | apply Kept.ite | apply KeptO.ite | apply KeptO.next | apply State.at_kept
        | apply State.moveResends_kept | apply State.upLanes_kept | apply State.osBit_kept | apply State.setRx_kept
    | (extract_lets +onlyGivenNames x
       first
       | (refine Kept.cut (r := r) (x := x) ?_ ?_ <;> first | (clear_value x; intro hx) | subst x)
       | subst x)
    | split
    | dsimp only)

theorem execLockLoss_kept {r s : State} (h : Kept r s) (t : Nat) (lane : Nat) : KeptO r (execLockLoss t lane s) := by
  unfold execLockLoss
  repeat' (first
    | with_reducible
        first
        | assumption | apply Kept.ite | apply KeptO.ite | apply KeptO.next | apply State.at_kept
        | apply State.bump_kept | apply State.osBit_kept | apply State.setRx_kept
    | (extract_lets +onlyGivenNames x
       first
       | (refine Kept.cut (r := r) (x := x) ?_ ?_ <;> first | (clear_value x; intro hx) | subst x)
       | subst x)
    | split
    | dsimp only)

theorem execElectricalIdleEntry_kept {r s : State} (h : Kept r s) (t : Nat) (lane : Nat) :
    KeptO r (execElectricalIdleEntry t lane s) := by
  unfold execElectricalIdleEntry
  repeat' (first
    | with_reducible
        first
        | assumption | apply Kept.ite | apply KeptO.ite | apply KeptO.next | apply State.at_kept
        | apply State.setTx_kept
    | (extract_lets +onlyGivenNames x
       first
       | (refine Kept.cut (r := r) (x := x) ?_ ?_ <;> first | (clear_value x; intro hx) | subst x)
       | subst x)
    | split
    | dsimp only)

theorem State.wakeLane_kept {r s : State} (h : Kept r s) (lane : Nat) : Kept r (State.wakeLane s lane) := by
  unfold State.wakeLane
  repeat' (first
    | with_reducible first | assumption | apply Kept.ite | apply State.setTx_kept)

theorem execElectricalIdleExit_kept {r s : State} (h : Kept r s) (t : Nat) (lane : Nat) :
    KeptO r (execElectricalIdleExit t lane s) := by
  unfold execElectricalIdleExit
  repeat' (first
    | with_reducible
        first
        | assumption | apply Kept.ite | apply KeptO.ite | apply KeptO.next | apply State.at_kept
        | apply State.wakeLane_kept
    | (extract_lets +onlyGivenNames x
       first
       | (refine Kept.cut (r := r) (x := x) ?_ ?_ <;> first | (clear_value x; intro hx) | subst x)
       | subst x)
    | split
    | dsimp only)

theorem idleDelay_kept {r s : State} (h : Kept r s) (v : Nat) : KeptE r (idleDelay v s) := by
  unfold idleDelay
  repeat' (first
    | with_reducible
        first
        | assumption | apply Kept.ite | apply KeptE.ite | apply KeptE.ok | apply KeptE.error | apply State.os_kept
        | apply State.wakeLane_kept | refine Kept.foldl (fun _ _ _ => ?_) _ ?_ | refine Kept.ofE ‹_ = Except.ok _› ?_
    | (extract_lets +onlyGivenNames x
       first
       | (refine Kept.cut (r := r) (x := x) ?_ ?_ <;> first | (clear_value x; intro hx) | subst x)
       | subst x)
    | split
    | dsimp only
    | (intro s1 h1; dsimp only)
    | intro s1 h1)

theorem execAdaptation_kept {r s : State} (h : Kept r s) (t : Nat) (lane : Nat) (ctle : Nat) (dfe : List Int) (fom : Nat) :
    KeptO r (execAdaptation t lane ctle dfe fom s) := by
  unfold execAdaptation
  repeat' (first
    | with_reducible
        first
        | assumption | apply Kept.ite | apply KeptO.ite | apply KeptO.next | apply State.at_kept
        | apply State.setRx_kept | apply State.os_kept | apply State.osBit_kept
    | (extract_lets +onlyGivenNames x
       first
       | (refine Kept.cut (r := r) (x := x) ?_ ?_ <;> first | (clear_value x; intro hx) | subst x)
       | subst x)
    | split
    | dsimp only)

theorem State.lanesStart_kept {r s : State} (h : Kept r s) : Kept r (State.lanesStart s) := by
  unfold State.lanesStart
  repeat' (first
    | with_reducible
        first
        | assumption | apply State.os_kept | rfl | exact swf_nil _ | apply swf_memWrite | apply swf_sput
        | apply swf_memClear
    | (simp only [Kept.lit, length_rep]; with_reducible apply KeptCore.units)
    | ((with_reducible
        first
        | apply State.Sound.dram | apply State.Sound.cashew | apply State.Sound.data | apply State.Sound.program
        | apply State.Sound.rungs | apply State.Sound.optics | apply State.Sound.das | apply State.Sound.poppy
        | apply State.Sound.engines | apply State.Sound.zones | apply State.Sound.seqs | apply State.Sound.captures
        | apply State.Sound.queues | apply State.Sound.flax | apply State.Sound.tx | apply State.Sound.rx
        | apply State.Sound.emcy | apply State.Sound.log); with_reducible apply Kept.toSound)
    | (simp only [List.length_replicate]; done)
    | (extract_lets +onlyGivenNames x
       first
       | (refine Kept.cut (r := r) (x := x) ?_ ?_ <;> first | (clear_value x; intro hx) | subst x)
       | subst x)
    | split
    | dsimp only
    | rfl)

theorem State.lanesStop_kept {r s : State} (h : Kept r s) : Kept r (State.lanesStop s) := by
  unfold State.lanesStop
  repeat' (first
    | with_reducible
        first
        | assumption | apply State.os_kept | rfl | exact swf_nil _ | apply swf_memWrite | apply swf_sput
        | apply swf_memClear
    | (simp only [Kept.lit, length_rep]; with_reducible apply KeptCore.units)
    | ((with_reducible
        first
        | apply State.Sound.dram | apply State.Sound.cashew | apply State.Sound.data | apply State.Sound.program
        | apply State.Sound.rungs | apply State.Sound.optics | apply State.Sound.das | apply State.Sound.poppy
        | apply State.Sound.engines | apply State.Sound.zones | apply State.Sound.seqs | apply State.Sound.captures
        | apply State.Sound.queues | apply State.Sound.flax | apply State.Sound.tx | apply State.Sound.rx
        | apply State.Sound.emcy | apply State.Sound.log); with_reducible apply Kept.toSound)
    | (simp only [List.length_replicate]; done)
    | (extract_lets +onlyGivenNames x
       first
       | (refine Kept.cut (r := r) (x := x) ?_ ?_ <;> first | (clear_value x; intro hx) | subst x)
       | subst x)
    | split
    | dsimp only
    | rfl)

/-! ## Flax -/

theorem State.busTouch_kept {r s : State} (h : Kept r s) (a : Nat) (n : Nat) : Kept r (State.busTouch s a n) := by
  unfold State.busTouch
  repeat' (first
    | with_reducible first | assumption | apply Kept.ite | apply State.touch_kept)

theorem State.busWrite_kept {r s : State} (h : Kept r s) (a : Nat) (b : List Byte) : Kept r (State.busWrite s a b) := by
  unfold State.busWrite
  repeat' (first
    | with_reducible
        first
        | assumption | apply Kept.ite | apply State.dramWrite_kept | refine Kept.foldl (fun _ _ _ => ?_) _ ?_ | rfl
        | exact swf_nil _ | apply swf_memWrite | apply swf_sput | apply swf_memClear
    | unfold State.setMem
    | (simp only [Kept.lit]; with_reducible apply KeptCore.units)
    | ((with_reducible
        first
        | apply State.Sound.dram | apply State.Sound.cashew | apply State.Sound.data | apply State.Sound.program
        | apply State.Sound.rungs | apply State.Sound.optics | apply State.Sound.das | apply State.Sound.poppy
        | apply State.Sound.engines | apply State.Sound.zones | apply State.Sound.seqs | apply State.Sound.captures
        | apply State.Sound.queues | apply State.Sound.flax | apply State.Sound.tx | apply State.Sound.rx
        | apply State.Sound.emcy | apply State.Sound.log); with_reducible apply Kept.toSound)
    | (simp only [List.length_replicate]; done)
    | (extract_lets +onlyGivenNames x
       first
       | (refine Kept.cut (r := r) (x := x) ?_ ?_ <;> first | (clear_value x; intro hx) | subst x)
       | subst x)
    | split
    | dsimp only
    | rfl
    | (intro s1 h1; dsimp only)
    | intro s1 h1)

theorem State.setChan_kept {r s : State} (h : Kept r s) (ch : Nat) (f : FlaxChan → FlaxChan) :
    Kept r (State.setChan s ch f) := by
  unfold State.setChan
  repeat' (first
    | with_reducible first | assumption | rfl
    | (simp only [Kept.lit, length_modAt]; with_reducible apply KeptCore.of)
    | (extract_lets +onlyGivenNames x
       first
       | (refine Kept.cut (r := r) (x := x) ?_ ?_ <;> first | (clear_value x; intro hx) | subst x)
       | subst x)
    | split
    | dsimp only
    | rfl)

theorem State.chanEnd_kept {r s : State} (h : Kept r s) (ch : Nat) (code : Nat) : Kept r (State.chanEnd s ch code) := by
  unfold State.chanEnd
  repeat' (first
    | with_reducible first | assumption | apply Kept.ite | apply State.setChan_kept | apply State.os_kept
    | (extract_lets +onlyGivenNames x
       first
       | (refine Kept.cut (r := r) (x := x) ?_ ?_ <;> first | (clear_value x; intro hx) | subst x)
       | subst x)
    | split
    | dsimp only)

theorem State.chanFault_kept {r s : State} (h : Kept r s) (ch : Nat) (code : Nat) (at_ : Nat) :
    Kept r (State.chanFault s ch code at_) := by
  unfold State.chanFault
  repeat' (first
    | with_reducible first | assumption | apply State.chanEnd_kept | apply State.os_kept)

theorem State.flaxStop_kept {r s : State} (h : Kept r s) : Kept r (State.flaxStop s) := by
  unfold State.flaxStop
  repeat' (first
    | with_reducible first | assumption | apply State.chanEnd_kept | refine Kept.foldl (fun _ _ _ => ?_) _ ?_
    | (intro s1 h1; dsimp only)
    | intro s1 h1)

theorem flaxStart_kept {r s : State} (h : Kept r s) (ch : Nat) : KeptE r (flaxStart ch s) := by
  unfold flaxStart
  repeat' (first
    | with_reducible
        first
        | assumption | apply KeptE.ok | apply KeptE.error | apply require_kept | apply State.os_kept
        | apply State.setChan_kept | refine Kept.ofE ‹_ = Except.ok _› ?_
    | (extract_lets +onlyGivenNames x
       first
       | (refine Kept.cut (r := r) (x := x) ?_ ?_ <;> first | (clear_value x; intro hx) | subst x)
       | subst x)
    | split
    | dsimp only
    | (intro s1 h1; dsimp only)
    | intro s1 h1)

theorem execFlaxStart_kept {r s : State} (h : Kept r s) (t : Nat) (c : Nat) (ch : Nat) :
    KeptO r (execFlaxStart t c ch s) := by
  unfold execFlaxStart
  repeat' (first
    | with_reducible
        first
        | assumption | apply KeptE.ok | apply KeptE.error | apply KeptO.next | apply State.hostWrite_kept
        | apply State.at_kept | apply flaxStart_kept | refine Kept.ofE ‹_ = Except.ok _› ?_
    | (intro s1 h1; dsimp only)
    | intro s1 h1)

theorem flaxHalt_kept {r s : State} (h : Kept r s) (ch : Nat) : KeptE r (flaxHalt ch s) := by
  unfold flaxHalt
  repeat' (first
    | with_reducible
        first
        | assumption | apply Kept.ite | apply KeptE.ite | apply KeptE.ok | apply KeptE.error | apply require_kept
        | apply State.setChan_kept | apply State.chanEnd_kept | refine Kept.ofE ‹_ = Except.ok _› ?_
    | (intro s1 h1; dsimp only)
    | intro s1 h1)

theorem execFlaxStop_kept {r s : State} (h : Kept r s) (t : Nat) (c : Nat) (ch : Nat) :
    KeptO r (execFlaxStop t c ch s) := by
  unfold execFlaxStop
  repeat' (first
    | with_reducible
        first
        | assumption | apply KeptE.ok | apply KeptE.error | apply KeptO.next | apply State.hostWrite_kept
        | apply State.at_kept | apply flaxHalt_kept | refine Kept.ofE ‹_ = Except.ok _› ?_
    | (intro s1 h1; dsimp only)
    | intro s1 h1)

theorem State.loadDesc_kept {r s : State} (h : Kept r s) (ch : Nat) : Kept r (State.loadDesc s ch) := by
  unfold State.loadDesc
  repeat' (first
    | with_reducible
        first
        | assumption | apply Kept.ite | apply State.chanFault_kept | apply State.busTouch_kept
        | apply State.setChan_kept
    | (extract_lets +onlyGivenNames x
       first
       | (refine Kept.cut (r := r) (x := x) ?_ ?_ <;> first | (clear_value x; intro hx) | subst x)
       | subst x)
    | split
    | dsimp only)

theorem State.examine_kept {r s : State} (h : Kept r s) : Kept r (State.examine s) := by
  unfold State.examine
  repeat' (first
    | with_reducible
        first
        | assumption | apply Kept.ite | apply State.chanEnd_kept | apply State.loadDesc_kept
        | apply State.setChan_kept | refine Kept.foldl (fun _ _ _ => ?_) _ ?_
    | (extract_lets +onlyGivenNames x
       first
       | (refine Kept.cut (r := r) (x := x) ?_ ?_ <;> first | (clear_value x; intro hx) | subst x)
       | subst x)
    | split
    | dsimp only
    | (intro s1 h1; dsimp only)
    | intro s1 h1)

theorem State.grant_kept {r s : State} (h : Kept r s) : Kept r (State.grant s) := by
  unfold State.grant
  repeat' (first
    | with_reducible
        first
        | assumption | apply Kept.ite | apply State.os_kept | apply State.setChan_kept
        | refine Kept.foldl (fun _ _ _ => ?_) _ ?_
    | (extract_lets +onlyGivenNames x
       first
       | (refine Kept.cut (r := r) (x := x) ?_ ?_ <;> first | (clear_value x; intro hx) | subst x)
       | subst x)
    | split
    | dsimp only
    | (intro s1 h1; dsimp only)
    | intro s1 h1)

theorem State.moveElem_kept {r s : State} (h : Kept r s) (ch : Nat) (i : Nat) (noise : Nat) :
    Kept r (State.moveElem s ch i noise) := by
  unfold State.moveElem
  repeat' (first
    | with_reducible
        first
        | assumption | apply Kept.ite | apply State.busTouch_kept | apply State.busWrite_kept | apply State.os_kept
        | apply State.bump_kept | apply State.setChan_kept
    | (extract_lets +onlyGivenNames x
       first
       | (refine Kept.cut (r := r) (x := x) ?_ ?_ <;> first | (clear_value x; intro hx) | subst x)
       | subst x)
    | split
    | dsimp only)

theorem State.readLost_kept {r s : State} (h : Kept r s) (a : Nat) : Kept r (State.readLost s a) := by
  unfold State.readLost
  repeat' (first
    | with_reducible
        first
        | assumption | apply Kept.ite | apply State.pulse_kept | apply State.os_kept | apply State.bump_kept
        | apply State.eccLost_kept)

theorem State.readFixed_kept {r s : State} (h : Kept r s) (a : Nat) (n : Nat) : Kept r (State.readFixed s a n) := by
  unfold State.readFixed
  repeat' (first
    | with_reducible
        first
        | assumption | apply Kept.ite | apply State.dramFixed_kept | apply State.count_kept | apply State.bump_kept)

theorem State.moveBurst_kept {r : State} (ch : Nat) (bad : Option Nat) : ∀ (n off : Nat) {s : State}, Kept r s →
    Kept r (State.moveBurst s ch bad n off)
  | 0, _, _, h => h
  | n + 1, off, s, h => by
    unfold State.moveBurst
    repeat' (first
    | with_reducible
          first
          | assumption | apply Kept.ite | apply State.chanFault_kept | apply State.draw_kept
          | apply State.moveElem_kept | apply State.readLost_kept | apply State.moveBurst_kept | apply Kept.ite_snd
          | refine Kept.snd ‹_ = (_, _)› ?_
      | (extract_lets +onlyGivenNames x
         first
         | (refine Kept.cut (r := r) (x := x) ?_ ?_ <;> first | (clear_value x; intro hx) | subst x)
         | subst x)
      | split
      | dsimp only)

theorem execFlaxBurst_kept {r s : State} (h : Kept r s) (t : Nat) (memError : Option Nat) (corrected : Nat) :
    KeptO r (execFlaxBurst t memError corrected s) := by
  unfold execFlaxBurst
  repeat' (first
    | with_reducible
        first
        | assumption | apply Kept.ite | apply KeptO.ite | apply KeptO.next | apply State.at_kept
        | apply State.grant_kept | apply State.examine_kept | apply State.moveBurst_kept | apply State.readFixed_kept
        | apply State.chanFault_kept
    | (extract_lets +onlyGivenNames x
       first
       | (refine Kept.cut (r := r) (x := x) ?_ ?_ <;> first | (clear_value x; intro hx) | subst x)
       | subst x)
    | split
    | dsimp only)

theorem execDescriptorComplete_kept {r s : State} (h : Kept r s) (t : Nat) : KeptO r (execDescriptorComplete t s) := by
  unfold execDescriptorComplete
  repeat' (first
    | with_reducible
        first
        | assumption | apply Kept.ite | apply KeptO.ite | apply KeptO.next | apply State.at_kept
        | apply State.busTouch_kept | apply State.chanEnd_kept | apply State.chanFault_kept | apply State.setChan_kept
        | apply State.os_kept
    | (extract_lets +onlyGivenNames x
       first
       | (refine Kept.cut (r := r) (x := x) ?_ ?_ <;> first | (clear_value x; intro hx) | subst x)
       | subst x)
    | split
    | dsimp only)

/-! ## Almond -/

theorem State.setAl_kept {r s : State} (h : Kept r s) (f : Almond → Almond) : Kept r (State.setAl s f) := by
  unfold State.setAl
  repeat' (first
    | with_reducible first | assumption | rfl
    | (simp only [Kept.lit]; with_reducible apply KeptCore.of)
    | rfl)

theorem jobStart_kept {r s : State} (h : Kept r s) : KeptE r (jobStart s) := by
  unfold jobStart
  repeat' (first
    | with_reducible
        first
        | assumption | apply Kept.ite | apply KeptE.ite | apply KeptE.ok | apply KeptE.error | apply require_kept
        | apply State.setAl_kept | apply State.os_kept | refine Kept.ofE ‹_ = Except.ok _› ?_
    | (extract_lets +onlyGivenNames x
       first
       | (refine Kept.cut (r := r) (x := x) ?_ ?_ <;> first | (clear_value x; intro hx) | subst x)
       | subst x)
    | split
    | dsimp only
    | (intro s1 h1; dsimp only)
    | intro s1 h1)

theorem execJobStart_kept {r s : State} (h : Kept r s) (t : Nat) (c : Nat) : KeptO r (execJobStart t c s) := by
  unfold execJobStart
  repeat' (first
    | with_reducible
        first
        | assumption | apply KeptE.ok | apply KeptE.error | apply KeptO.next | apply State.hostWrite_kept
        | apply State.at_kept | apply jobStart_kept | refine Kept.ofE ‹_ = Except.ok _› ?_
    | (intro s1 h1; dsimp only)
    | intro s1 h1)

theorem jobResume_kept {r s : State} (h : Kept r s) : KeptE r (jobResume s) := by
  unfold jobResume
  repeat' (first
    | with_reducible
        first
        | assumption | apply KeptE.ok | apply KeptE.error | apply require_kept | apply State.os_kept
        | apply State.setAl_kept | refine Kept.ofE ‹_ = Except.ok _› ?_
    | split
    | dsimp only
    | (intro s1 h1; dsimp only)
    | intro s1 h1)

theorem execJobResume_kept {r s : State} (h : Kept r s) (t : Nat) (c : Nat) : KeptO r (execJobResume t c s) := by
  unfold execJobResume
  repeat' (first
    | with_reducible
        first
        | assumption | apply KeptE.ok | apply KeptE.error | apply KeptO.next | apply State.hostWrite_kept
        | apply State.at_kept | apply jobResume_kept | refine Kept.ofE ‹_ = Except.ok _› ?_
    | (intro s1 h1; dsimp only)
    | intro s1 h1)

theorem jobAbandon_kept {r s : State} (h : Kept r s) : KeptE r (jobAbandon s) := by
  unfold jobAbandon
  repeat' (first
    | with_reducible
        first
        | assumption | apply Kept.ite | apply KeptE.ite | apply KeptE.ok | apply KeptE.error | apply State.os_kept
        | apply State.setAl_kept | refine Kept.ofE ‹_ = Except.ok _› ?_
    | (intro s1 h1; dsimp only)
    | intro s1 h1)

theorem execJobAbandon_kept {r s : State} (h : Kept r s) (t : Nat) (c : Nat) : KeptO r (execJobAbandon t c s) := by
  unfold execJobAbandon
  repeat' (first
    | with_reducible
        first
        | assumption | apply KeptE.ok | apply KeptE.error | apply KeptO.next | apply State.hostWrite_kept
        | apply State.at_kept | apply jobAbandon_kept | refine Kept.ofE ‹_ = Except.ok _› ?_
    | (intro s1 h1; dsimp only)
    | intro s1 h1)

theorem State.closeBuf_kept {r s : State} (h : Kept r s) (j : Job) (pad : Bool) : Kept r (State.closeBuf s j pad) := by
  unfold State.closeBuf
  repeat' (first
    | with_reducible first | assumption | apply Kept.ite | apply State.busWrite_kept
    | (extract_lets +onlyGivenNames x
       first
       | (refine Kept.cut (r := r) (x := x) ?_ ?_ <;> first | (clear_value x; intro hx) | subst x)
       | subst x)
    | split
    | dsimp only)

theorem State.fillBufs_kept {r : State} (stop : Bool) : ∀ (n : Nat) (j : Job) {s : State}, Kept r s →
    Kept r (State.fillBufs s stop n j).1
  | 0, _, _, h => h
  | n + 1, j, s, h => by
    unfold State.fillBufs
    repeat' (first
    | with_reducible
          first
          | assumption | apply Kept.ite | apply State.closeBuf_kept | apply State.busWrite_kept
          | apply State.fillBufs_kept | apply Kept.ite_snd | refine Kept.snd ‹_ = (_, _)› ?_
          | refine Kept.fst ‹_ = (_, _)› ?_
      | (extract_lets +onlyGivenNames x
         first
         | (refine Kept.cut (r := r) (x := x) ?_ ?_ <;> first | (clear_value x; intro hx) | subst x)
         | subst x)
      | split
      | dsimp only)

theorem State.jobReport_kept {r s : State} (h : Kept r s) (j : Job) (state : Nat) (result : Nat) :
    Kept r (State.jobReport s j state result) := by
  unfold State.jobReport
  repeat' (first
    | with_reducible first | assumption | apply State.os_kept)

theorem State.compressRun_kept {r s : State} (h : Kept r s) (j : Job) (readError : Bool) :
    Kept r (State.compressRun s j readError) := by
  unfold State.compressRun
  repeat' (first
    | with_reducible
        first
        | assumption | apply Kept.ite | apply State.draw_kept | apply State.fillBufs_kept | apply State.setAl_kept
        | apply State.jobReport_kept | apply Kept.ite_snd | refine Kept.snd ‹_ = (_, _)› ?_
        | refine Kept.fst ‹_ = (_, _)› ?_
    | (extract_lets +onlyGivenNames x
       first
       | (refine Kept.cut (r := r) (x := x) ?_ ?_ <;> first | (clear_value x; intro hx) | subst x)
       | subst x)
    | split
    | dsimp only)

theorem execJobDone_kept {r s : State} (h : Kept r s) (t : Nat) (readError : Bool) (corrected : Nat) (fallbacks : Nat) :
    KeptO r (execJobDone t readError corrected fallbacks s) := by
  unfold execJobDone
  repeat' (first
    | with_reducible
        first
        | assumption | apply Kept.ite | apply KeptO.ite | apply KeptO.next | apply State.at_kept
        | apply State.bump_kept | apply State.readFixed_kept | apply State.jobReport_kept | apply State.setAl_kept
        | apply State.compressRun_kept | apply State.busWrite_kept | rfl
    | (simp only [Kept.lit]; with_reducible apply KeptCore.of)
    | (extract_lets +onlyGivenNames x
       first
       | (refine Kept.cut (r := r) (x := x) ?_ ?_ <;> first | (clear_value x; intro hx) | subst x)
       | subst x)
    | split
    | dsimp only
    | rfl)

end Sys2Proof.Machine
end

