-- ==== Sys2Proof/Laws/KeptTime.lean ====
section
/-! SUPPORT. What Kept of Safety.lean says of each function of the model:
the time base, Pip and the Darug link. -/

namespace Sys2Proof.Machine

open Sys2Proof

set_option linter.unusedSimpArgs false
set_option linter.unusedVariables false

/-! ## TimeBase -/

theorem State.tdcFall_kept {r s : State} (h : Kept r s) (ch : Nat) : Kept r (State.tdcFall s ch) := by
  unfold State.tdcFall
  repeat' (first
    | with_reducible first | assumption | apply State.osBit_kept | apply State.bump_kept)

theorem State.capture_kept {r s : State} (h : Kept r s) (ch : Nat) (at_ : Nat) : Kept r (State.capture s ch at_) := by
  unfold State.capture
  repeat' (first
    | with_reducible first | assumption | rfl
    | (simp only [Kept.lit, length_modAt]; with_reducible apply KeptCore.of)
    | (extract_lets +onlyGivenNames x
       first
       | (refine Kept.cut (r := r) (x := x) ?_ ?_ <;> first | (clear_value x; intro hx) | subst x)
       | subst x)
    | split
    | dsimp only
    | rfl)

theorem State.tdcEdge_kept {r s : State} (h : Kept r s) (ch : Nat) (code : Nat) (c1 : Nat) (c2 : Nat) (calibrated : Bool) :
    Kept r (State.tdcEdge s ch code c1 c2 calibrated).2.2 := by
  unfold State.tdcEdge
  repeat' (first
    | with_reducible
        first
        | assumption | apply Kept.ite | apply State.capture_kept | apply State.osBit_kept | apply State.tdcFall_kept
        | apply Kept.ite_snd | refine Kept.snd ‹_ = (_, _)› ?_
    | (extract_lets +onlyGivenNames x
       first
       | (refine Kept.cut (r := r) (x := x) ?_ ?_ <;> first | (clear_value x; intro hx) | subst x)
       | subst x)
    | split
    | dsimp only)

theorem execTdcFallback_kept {r s : State} (h : Kept r s) (t : Nat) (ch : Nat) : KeptO r (execTdcFallback t ch s) := by
  unfold execTdcFallback
  repeat' (first
    | with_reducible
        first
        | assumption | apply Kept.ite | apply KeptO.ite | apply KeptO.next | apply State.at_kept
        | apply State.tdcFall_kept
    | (extract_lets +onlyGivenNames x
       first
       | (refine Kept.cut (r := r) (x := x) ?_ ?_ <;> first | (clear_value x; intro hx) | subst x)
       | subst x)
    | split
    | dsimp only)

theorem State.intervalEdge_kept {r s : State} (h : Kept r s) (src : Nat) (stamp : Nat) :
    Kept r (State.intervalEdge s src stamp) := by
  unfold State.intervalEdge
  repeat' (first
    | with_reducible first | assumption | apply Kept.ite | apply State.os_kept | rfl
    | (simp only [Kept.lit]; with_reducible apply KeptCore.of)
    | (extract_lets +onlyGivenNames x
       first
       | (refine Kept.cut (r := r) (x := x) ?_ ?_ <;> first | (clear_value x; intro hx) | subst x)
       | subst x)
    | split
    | dsimp only
    | rfl)

theorem intervalArm_kept {r s : State} (h : Kept r s) : KeptE r (intervalArm s) := by
  unfold intervalArm
  repeat' (first
    | with_reducible
        first
        | assumption | apply KeptE.ok | apply KeptE.error | apply require_kept | apply State.os_kept
        | refine Kept.foldl (fun _ _ _ => ?_) _ ?_ | refine Kept.ofE ‹_ = Except.ok _› ?_
    | (intro s1 h1; dsimp only)
    | intro s1 h1)

theorem execIntervalArm_kept {r s : State} (h : Kept r s) (t : Nat) (c : Nat) : KeptO r (execIntervalArm t c s) := by
  unfold execIntervalArm
  repeat' (first
    | with_reducible
        first
        | assumption | apply KeptE.ok | apply KeptE.error | apply KeptO.next | apply State.hostWrite_kept
        | apply State.at_kept | apply intervalArm_kept | refine Kept.ofE ‹_ = Except.ok _› ?_
    | (intro s1 h1; dsimp only)
    | intro s1 h1)

theorem intervalDisarm_kept {r s : State} (h : Kept r s) : KeptE r (intervalDisarm s) := by
  unfold intervalDisarm
  repeat' (first
    | with_reducible
        first
        | assumption | apply Kept.ite | apply KeptE.ite | apply KeptE.ok | apply KeptE.error | apply State.os_kept
        | refine Kept.ofE ‹_ = Except.ok _› ?_
    | (intro s1 h1; dsimp only)
    | intro s1 h1)

theorem execIntervalDisarm_kept {r s : State} (h : Kept r s) (t : Nat) (c : Nat) :
    KeptO r (execIntervalDisarm t c s) := by
  unfold execIntervalDisarm
  repeat' (first
    | with_reducible
        first
        | assumption | apply KeptE.ok | apply KeptE.error | apply KeptO.next | apply State.hostWrite_kept
        | apply State.at_kept | apply intervalDisarm_kept | refine Kept.ofE ‹_ = Except.ok _› ?_
    | (intro s1 h1; dsimp only)
    | intro s1 h1)

theorem execIntervalTimeout_kept {r s : State} (h : Kept r s) (t : Nat) : KeptO r (execIntervalTimeout t s) := by
  unfold execIntervalTimeout
  repeat' (first
    | with_reducible
        first
        | assumption | apply Kept.ite | apply KeptO.ite | apply KeptO.next | apply State.at_kept | apply State.os_kept
    | (extract_lets +onlyGivenNames x
       first
       | (refine Kept.cut (r := r) (x := x) ?_ ?_ <;> first | (clear_value x; intro hx) | subst x)
       | subst x)
    | split
    | dsimp only)

theorem execTrigInEdge_kept {r s : State} (h : Kept r s) (t : Nat) (pin : Nat) (code : Nat) (c1 : Nat) (c2 : Nat)
    (calibrated : Bool) :
    KeptO r (execTrigInEdge t pin code c1 c2 calibrated s) := by
  unfold execTrigInEdge
  repeat' (first
    | with_reducible
        first
        | assumption | apply Kept.ite | apply KeptO.ite | apply KeptO.next | apply State.at_kept
        | apply State.tdcEdge_kept | apply State.pinEdge_kept | apply State.intervalEdge_kept | apply Kept.ite_snd
        | refine Kept.snd ‹_ = (_, _)› ?_
    | (extract_lets +onlyGivenNames x
       first
       | (refine Kept.cut (r := r) (x := x) ?_ ?_ <;> first | (clear_value x; intro hx) | subst x)
       | subst x)
    | split
    | dsimp only)

theorem State.setTb_kept {r s : State} (h : Kept r s) (f : TimeBase → TimeBase) : Kept r (State.setTb s f) := by
  unfold State.setTb
  repeat' (first
    | with_reducible first | assumption | rfl
    | (simp only [Kept.lit]; with_reducible apply KeptCore.of)
    | rfl)

theorem State.moveT_kept {r s : State} (h : Kept r s) (d : Int) : Kept r (State.moveT s d) := by
  unfold State.moveT
  repeat' (first
    | with_reducible first | assumption | apply State.setTb_kept | refine Kept.snd ‹_ = (_, _)› ?_
    | dsimp only)

theorem State.setT_kept {r s : State} (h : Kept r s) (t : Nat) : Kept r (State.setT s t) := by
  unfold State.setT
  repeat' (first
    | with_reducible first | assumption | apply State.setTb_kept | apply State.moveT_kept)

theorem memberRefuses_kept {r s : State} (h : Kept r s) (k : Except Nat State) (hk : KeptE r k) :
    KeptE r (memberRefuses s k) := by
  unfold memberRefuses
  repeat' (first
    | with_reducible
        first
        | assumption | apply KeptE.ok | apply KeptE.error | apply require_kept | exact hk
        | refine Kept.ofE ‹_ = Except.ok _› ?_
    | (intro s1 h1; dsimp only)
    | intro s1 h1)

theorem deviceTime_kept {r s : State} (h : Kept r s) (ns : Nat) : KeptE r (deviceTime ns s) := by
  unfold deviceTime
  repeat' (first
    | with_reducible
        first
        | assumption | apply KeptE.ok | apply KeptE.error | apply memberRefuses_kept | apply State.os_kept
        | apply State.setTb_kept | apply State.setT_kept | refine Kept.ofE ‹_ = Except.ok _› ?_
    | (intro s1 h1; dsimp only)
    | intro s1 h1)

theorem execDeviceTimeWrite_kept {r s : State} (h : Kept r s) (t : Nat) (c : Nat) (ns : Nat) :
    KeptO r (execDeviceTimeWrite t c ns s) := by
  unfold execDeviceTimeWrite
  repeat' (first
    | with_reducible
        first
        | assumption | apply KeptE.ok | apply KeptE.error | apply KeptO.next | apply State.hostWrite_kept
        | apply State.at_kept | apply deviceTime_kept | refine Kept.ofE ‹_ = Except.ok _› ?_
    | (intro s1 h1; dsimp only)
    | intro s1 h1)

theorem timeAtPps_kept {r s : State} (h : Kept r s) (ns : Nat) : KeptE r (timeAtPps ns s) := by
  unfold timeAtPps
  repeat' (first
    | with_reducible
        first
        | assumption | apply KeptE.ok | apply KeptE.error | apply memberRefuses_kept | apply State.setTb_kept
        | refine Kept.ofE ‹_ = Except.ok _› ?_
    | (intro s1 h1; dsimp only)
    | intro s1 h1)

theorem execTimeAtNextPps_kept {r s : State} (h : Kept r s) (t : Nat) (c : Nat) (ns : Nat) :
    KeptO r (execTimeAtNextPps t c ns s) := by
  unfold execTimeAtNextPps
  repeat' (first
    | with_reducible
        first
        | assumption | apply KeptE.ok | apply KeptE.error | apply KeptO.next | apply State.hostWrite_kept
        | apply State.at_kept | apply timeAtPps_kept | refine Kept.ofE ‹_ = Except.ok _› ?_
    | (intro s1 h1; dsimp only)
    | intro s1 h1)

theorem rateCorrection_kept {r s : State} (h : Kept r s) (r' : Int) : KeptE r (rateCorrection r' s) := by
  unfold rateCorrection
  repeat' (first
    | with_reducible
        first
        | assumption | apply KeptE.ok | apply KeptE.error | apply memberRefuses_kept | apply require_kept
        | apply State.osI_kept | refine Kept.ofE ‹_ = Except.ok _› ?_
    | (intro s1 h1; dsimp only)
    | intro s1 h1)

theorem execRateCorrectionWrite_kept {r s : State} (h : Kept r s) (t : Nat) (c : Nat) (r' : Int) :
    KeptO r (execRateCorrectionWrite t c r' s) := by
  unfold execRateCorrectionWrite
  repeat' (first
    | with_reducible
        first
        | assumption | apply KeptE.ok | apply KeptE.error | apply KeptO.next | apply State.hostWrite_kept
        | apply State.at_kept | apply rateCorrection_kept | refine Kept.ofE ‹_ = Except.ok _› ?_
    | (intro s1 h1; dsimp only)
    | intro s1 h1)

theorem execPpsEdge_kept {r s : State} (h : Kept r s) (t : Nat) (code : Nat) (c1 : Nat) (c2 : Nat) (calibrated : Bool) :
    KeptO r (execPpsEdge t code c1 c2 calibrated s) := by
  unfold execPpsEdge
  repeat' (first
    | with_reducible
        first
        | assumption | apply Kept.ite | apply KeptO.ite | apply KeptO.next | apply State.at_kept
        | apply State.tdcEdge_kept | apply State.intervalEdge_kept | apply State.setTb_kept | apply State.os_kept
        | apply State.pulse_kept | apply State.bump_kept | apply Kept.ite_snd | refine Kept.snd ‹_ = (_, _)› ?_
    | (extract_lets +onlyGivenNames x
       first
       | (refine Kept.cut (r := r) (x := x) ?_ ?_ <;> first | (clear_value x; intro hx) | subst x)
       | subst x)
    | split
    | dsimp only)

theorem State.discipline_kept {r s : State} (h : Kept r s) (te : Int) : Kept r (State.discipline s te) := by
  unfold State.discipline
  repeat' (first
    | with_reducible
        first
        | assumption | apply Kept.ite | apply State.osI_kept | apply State.os_kept | apply State.setTb_kept
        | apply State.moveT_kept | apply Kept.ite_snd | refine Kept.snd ‹_ = (_, _)› ?_
    | (extract_lets +onlyGivenNames x
       first
       | (refine Kept.cut (r := r) (x := x) ?_ ?_ <;> first | (clear_value x; intro hx) | subst x)
       | subst x)
    | split
    | dsimp only)

theorem execPpsProcess_kept {r s : State} (h : Kept r s) (t : Nat) : KeptO r (execPpsProcess t s) := by
  unfold execPpsProcess
  repeat' (first
    | with_reducible
        first
        | assumption | apply Kept.ite | apply KeptO.ite | apply KeptO.next | apply State.at_kept
        | apply State.discipline_kept
    | (extract_lets +onlyGivenNames x
       first
       | (refine Kept.cut (r := r) (x := x) ?_ ?_ <;> first | (clear_value x; intro hx) | subst x)
       | subst x)
    | split
    | dsimp only)

theorem execPpsLoss_kept {r s : State} (h : Kept r s) (t : Nat) : KeptO r (execPpsLoss t s) := by
  unfold execPpsLoss
  repeat' (first
    | with_reducible
        first
        | assumption | apply Kept.ite | apply KeptO.ite | apply KeptO.next | apply State.at_kept
        | apply State.setTb_kept | apply State.os_kept
    | (extract_lets +onlyGivenNames x
       first
       | (refine Kept.cut (r := r) (x := x) ?_ ?_ <;> first | (clear_value x; intro hx) | subst x)
       | subst x)
    | split
    | dsimp only)

theorem State.clockStop_kept {r s : State} (h : Kept r s) : Kept r (State.clockStop s) := by
  unfold State.clockStop
  repeat' (first
    | with_reducible first | assumption | apply State.setTb_kept)

theorem State.clockStart_kept {r s : State} (h : Kept r s) : Kept r (State.clockStart s) := by
  unfold State.clockStart
  repeat' (first
    | with_reducible first | assumption | apply Kept.ite | apply State.os_kept | apply State.setTb_kept
    | (extract_lets +onlyGivenNames x
       first
       | (refine Kept.cut (r := r) (x := x) ?_ ?_ <;> first | (clear_value x; intro hx) | subst x)
       | subst x)
    | split
    | dsimp only)

/-! ## Pip -/

theorem State.setPip_kept {r s : State} (h : Kept r s) (f : Pip → Pip) : Kept r (State.setPip s f) := by
  unfold State.setPip
  repeat' (first
    | with_reducible first | assumption | rfl
    | (simp only [Kept.lit]; with_reducible apply KeptCore.of)
    | rfl)

theorem State.showPip_kept {r s : State} (h : Kept r s) : Kept r (State.showPip s) := by
  unfold State.showPip
  repeat' (first
    | with_reducible first | assumption | apply Kept.ite | apply State.os_kept
    | (extract_lets +onlyGivenNames x
       first
       | (refine Kept.cut (r := r) (x := x) ?_ ?_ <;> first | (clear_value x; intro hx) | subst x)
       | subst x)
    | split
    | dsimp only)

theorem State.podAdd_kept {r s : State} (h : Kept r s) (v : Int) (i : Nat) : Kept r (State.podAdd s v i) := by
  unfold State.podAdd
  repeat' (first
    | with_reducible first | assumption | refine Kept.snd ‹_ = (_, _)› ?_ | rfl
    | (simp only [Kept.lit]; with_reducible apply KeptCore.of)
    | (extract_lets +onlyGivenNames x
       first
       | (refine Kept.cut (r := r) (x := x) ?_ ?_ <;> first | (clear_value x; intro hx) | subst x)
       | subst x)
    | split
    | dsimp only
    | rfl)

theorem State.podRepeat_kept {r s : State} (h : Kept r s) : Kept r (State.podRepeat s) := by
  unfold State.podRepeat
  repeat' (first
    | with_reducible first | assumption | apply State.podAdd_kept)

theorem State.podPass_kept {r s : State} (h : Kept r s) (cv : Int) (ci : Int) : Kept r (State.podPass s cv ci) := by
  unfold State.podPass
  repeat' (first
    | with_reducible first | assumption | apply State.podAdd_kept)

theorem State.railCheck_kept {r s : State} (h : Kept r s) (codes : List Int) (i : Nat) :
    Kept r (State.railCheck s codes i) := by
  unfold State.railCheck
  repeat' (first
    | with_reducible
        first
        | assumption | apply Kept.ite | apply State.emcy_kept | apply State.osBit_kept | apply State.log_kept | rfl
    | (simp only [Kept.lit, length_modAt]; with_reducible apply KeptCore.of)
    | (extract_lets +onlyGivenNames x
       first
       | (refine Kept.cut (r := r) (x := x) ?_ ?_ <;> first | (clear_value x; intro hx) | subst x)
       | subst x)
    | split
    | dsimp only
    | rfl)

theorem State.monitors_kept {r s : State} (h : Kept r s) (powers : List Int) : Kept r (State.monitors s powers) := by
  unfold State.monitors
  repeat' (first
    | with_reducible
        first
        | assumption | apply Kept.ite | apply State.osI_kept | refine Kept.foldl (fun _ _ _ => ?_) _ ?_ | rfl
    | (simp only [Kept.lit, length_modAt]; with_reducible apply KeptCore.of)
    | (extract_lets +onlyGivenNames x
       first
       | (refine Kept.cut (r := r) (x := x) ?_ ?_ <;> first | (clear_value x; intro hx) | subst x)
       | subst x)
    | split
    | dsimp only
    | rfl
    | (intro s1 h1; dsimp only)
    | intro s1 h1)

theorem State.start1_kept {r s : State} (h : Kept r s) : Kept r (State.start1 s) := by
  unfold State.start1
  repeat' (first
    | with_reducible first | assumption | apply State.showPip_kept | apply State.setPip_kept)

theorem State.trigger1_kept {r s : State} (h : Kept r s) : Kept r (State.trigger1 s) := by
  unfold State.trigger1
  repeat' (first
    | with_reducible
        first
        | assumption | apply Kept.ite | apply State.bump_kept | apply State.showPip_kept | apply State.setPip_kept
        | apply State.start1_kept)

theorem execConverter0Pass_kept {r s : State} (h : Kept r s) (t : Nat) : KeptO r (execConverter0Pass t s) := by
  unfold execConverter0Pass
  repeat' (first
    | with_reducible
        first
        | assumption | apply Kept.ite | apply KeptO.ite | apply KeptO.next | apply State.at_kept
        | apply State.showPip_kept | apply State.setPip_kept | apply State.bump_kept | apply State.podRepeat_kept
    | (extract_lets +onlyGivenNames x
       first
       | (refine Kept.cut (r := r) (x := x) ?_ ?_ <;> first | (clear_value x; intro hx) | subst x)
       | subst x)
    | split
    | dsimp only)

theorem execConverter1Pass_kept {r s : State} (h : Kept r s) (t : Nat) (c : Nat) :
    KeptO r (execConverter1Pass t c s) := by
  unfold execConverter1Pass
  repeat' (first
    | with_reducible
        first
        | assumption | apply KeptE.ok | apply KeptE.error | apply KeptO.next | apply State.hostWrite_kept
        | apply State.at_kept | apply State.trigger1_kept | refine Kept.ofE ‹_ = Except.ok _› ?_
    | (intro s1 h1; dsimp only)
    | intro s1 h1)

theorem execConverter1Timer_kept {r s : State} (h : Kept r s) (t : Nat) : KeptO r (execConverter1Timer t s) := by
  unfold execConverter1Timer
  repeat' (first
    | with_reducible
        first
        | assumption | apply Kept.ite | apply KeptO.ite | apply KeptO.next | apply State.at_kept
        | apply State.trigger1_kept | apply State.setPip_kept
    | (extract_lets +onlyGivenNames x
       first
       | (refine Kept.cut (r := r) (x := x) ?_ ?_ <;> first | (clear_value x; intro hx) | subst x)
       | subst x)
    | split
    | dsimp only)

theorem State.blankEdge_kept {r s : State} (h : Kept r s) : Kept r (State.blankEdge s) := by
  unfold State.blankEdge
  repeat' (first
    | with_reducible
        first
        | assumption | apply Kept.ite | apply State.setPip_kept | apply Kept.ite_snd | refine Kept.snd ‹_ = (_, _)› ?_
    | (extract_lets +onlyGivenNames x
       first
       | (refine Kept.cut (r := r) (x := x) ?_ ?_ <;> first | (clear_value x; intro hx) | subst x)
       | subst x)
    | split
    | dsimp only)

theorem blankMask_kept {r s : State} (h : Kept r s) (v : Nat) : KeptE r (blankMask v s) := by
  unfold blankMask
  repeat' (first
    | with_reducible
        first
        | assumption | apply KeptE.ok | apply KeptE.error | apply State.setPip_kept | apply State.os_kept
        | refine Kept.snd ‹_ = (_, _)› ?_ | refine Kept.ofE ‹_ = Except.ok _› ?_
    | (intro s1 h1; dsimp only)
    | intro s1 h1)

theorem execBlankIn_kept {r s : State} (h : Kept r s) (t : Nat) (level : Bool) : KeptO r (execBlankIn t level s) := by
  unfold execBlankIn
  repeat' (first
    | with_reducible
        first
        | assumption | apply KeptO.next | apply State.blankEdge_kept | apply State.setPip_kept | apply State.at_kept)

theorem rtdSetting_kept {r s : State} (h : Kept r s) (r' : Nat) (sub : Nat) (v : Nat) (phase : Nat) :
    KeptE r (rtdSetting r' sub v phase s) := by
  unfold rtdSetting
  repeat' (first
    | with_reducible
        first
        | assumption | apply Kept.ite | apply KeptE.ite | apply KeptE.ok | apply KeptE.error | apply State.os_kept
        | apply State.setPip_kept | apply State.bump_kept | apply Kept.ite_snd | refine Kept.snd ‹_ = (_, _)› ?_
        | refine Kept.ofE ‹_ = Except.ok _› ?_
    | (extract_lets +onlyGivenNames x
       first
       | (refine Kept.cut (r := r) (x := x) ?_ ?_ <;> first | (clear_value x; intro hx) | subst x)
       | subst x)
    | split
    | dsimp only
    | (intro s1 h1; dsimp only)
    | intro s1 h1)

theorem execRtdSettingWrite_kept {r s : State} (h : Kept r s) (t : Nat) (c : Nat) (rtd : Nat) (sub : Nat)
    (value : Nat) (phase : Nat) :
    KeptO r (execRtdSettingWrite t c rtd sub value phase s) := by
  unfold execRtdSettingWrite
  repeat' (first
    | with_reducible
        first
        | assumption | apply Kept.ite | apply KeptE.ite | apply KeptO.ite | apply KeptE.ok | apply KeptE.error
        | apply KeptO.next | apply State.hostWrite_kept | apply State.at_kept | apply rtdSetting_kept
        | refine Kept.ofE ‹_ = Except.ok _› ?_
    | (intro s1 h1; dsimp only)
    | intro s1 h1)

theorem State.switchRef_kept {r s : State} (h : Kept r s) : Kept r (State.switchRef s) := by
  unfold State.switchRef
  repeat' (first
    | with_reducible first | assumption | apply Kept.ite | apply State.setPip_kept
    | (extract_lets +onlyGivenNames x
       first
       | (refine Kept.cut (r := r) (x := x) ?_ ?_ <;> first | (clear_value x; intro hx) | subst x)
       | subst x)
    | split
    | dsimp only)

theorem reference1_kept {r s : State} (h : Kept r s) (v : Nat) : KeptE r (reference1 v s) := by
  unfold reference1
  repeat' (first
    | with_reducible
        first
        | assumption | apply Kept.ite | apply KeptE.ite | apply KeptE.ok | apply KeptE.error | apply State.os_kept
        | apply State.switchRef_kept | refine Kept.ofE ‹_ = Except.ok _› ?_
    | (extract_lets +onlyGivenNames x
       first
       | (refine Kept.cut (r := r) (x := x) ?_ ?_ <;> first | (clear_value x; intro hx) | subst x)
       | subst x)
    | split
    | dsimp only
    | (intro s1 h1; dsimp only)
    | intro s1 h1)

theorem execConverter1Reference_kept {r s : State} (h : Kept r s) (t : Nat) (c : Nat) (value : Nat) :
    KeptO r (execConverter1Reference t c value s) := by
  unfold execConverter1Reference
  repeat' (first
    | with_reducible
        first
        | assumption | apply KeptE.ok | apply KeptE.error | apply KeptO.next | apply State.hostWrite_kept
        | apply State.at_kept | apply reference1_kept | refine Kept.ofE ‹_ = Except.ok _› ?_
    | (intro s1 h1; dsimp only)
    | intro s1 h1)

theorem State.storeCal_kept {r s : State} (h : Kept r s) (c : CalRec) : Kept r (State.storeCal s c) := by
  unfold State.storeCal
  repeat' (first
    | with_reducible first | assumption | apply Kept.ite | apply State.setPip_kept)

theorem State.ohms_kept {r s : State} (h : Kept r s) (v : Int) : Kept r (State.ohms s v).2 := by
  unfold State.ohms
  repeat' (first
    | with_reducible
        first
        | assumption | apply Kept.ite | apply State.draw_kept | apply Kept.ite_snd | refine Kept.snd ‹_ = (_, _)› ?_
    | dsimp only)

theorem State.putResult_kept {r s : State} (h : Kept r s) (e : Nat) (v : Nat) (v2 : Nat) (flags : Nat) (time : Nat) :
    Kept r (State.putResult s e v v2 flags time) := by
  unfold State.putResult
  repeat' (first
    | with_reducible first | assumption | apply State.ds_kept)

theorem State.plainEntry_kept {r s : State} (h : Kept r s) (e : Nat) (w : Nat) (rd : EntryReading) (forced : Bool) :
    Kept r (State.plainEntry s e w rd forced) := by
  unfold State.plainEntry
  repeat' (first
    | with_reducible first | assumption | apply Kept.ite | apply State.putResult_kept
    | (extract_lets +onlyGivenNames x
       first
       | (refine Kept.cut (r := r) (x := x) ?_ ?_ <;> first | (clear_value x; intro hx) | subst x)
       | subst x)
    | split
    | dsimp only)

theorem State.rtdEntry_kept {r s : State} (h : Kept r s) (e : Nat) (w : Nat) (rd : EntryReading) (forced : Bool) :
    Kept r (State.rtdEntry s e w rd forced) := by
  unfold State.rtdEntry
  repeat' (first
    | with_reducible
        first
        | assumption | apply Kept.ite | apply State.os_kept | apply State.putResult_kept | apply State.bump_kept
        | apply State.ohms_kept | apply Kept.ite_snd | refine Kept.snd ‹_ = (_, _)› ?_
    | (extract_lets +onlyGivenNames x
       first
       | (refine Kept.cut (r := r) (x := x) ?_ ?_ <;> first | (clear_value x; intro hx) | subst x)
       | subst x)
    | split
    | dsimp only)

theorem State.entries_kept {r : State} : ∀ (l : List EntryReading) (e : Nat) {s : State}, Kept r s → Kept r (State.entries s l e)
  | [], _, _, h => h
  | rd :: l, e, s, h => by
    unfold State.entries
    repeat' (first
    | with_reducible
          first
          | assumption | apply Kept.ite | apply State.bump_kept | apply State.rtdEntry_kept
          | apply State.plainEntry_kept | apply State.entries_kept
      | (extract_lets +onlyGivenNames x
         first
         | (refine Kept.cut (r := r) (x := x) ?_ ?_ <;> first | (clear_value x; intro hx) | subst x)
         | subst x)
      | split
      | dsimp only)

theorem State.failResults_kept {r s : State} (h : Kept r s) : Kept r (State.failResults s) := by
  unfold State.failResults
  repeat' (first
    | with_reducible
        first
        | assumption | apply Kept.ite | apply State.setLin_kept | apply State.ds_kept | apply State.os_kept
        | refine Kept.foldl (fun _ _ _ => ?_) _ ?_
    | (extract_lets +onlyGivenNames x
       first
       | (refine Kept.cut (r := r) (x := x) ?_ ?_ <;> first | (clear_value x; intro hx) | subst x)
       | subst x)
    | split
    | dsimp only
    | (intro s1 h1; dsimp only)
    | intro s1 h1)

theorem State.crossCheck_kept {r s : State} (h : Kept r s) : Kept r (State.crossCheck s).2 := by
  unfold State.crossCheck
  repeat' (first
    | with_reducible
        first
        | assumption | apply Kept.ite | apply State.failResults_kept | apply State.bump_kept | apply State.emcy_kept
        | apply State.setPip_kept | apply Kept.ite_snd | refine Kept.snd ‹_ = (_, _)› ?_
    | (extract_lets +onlyGivenNames x
       first
       | (refine Kept.cut (r := r) (x := x) ?_ ?_ <;> first | (clear_value x; intro hx) | subst x)
       | subst x)
    | split
    | dsimp only)

theorem State.end0_kept {r s : State} (h : Kept r s) (rd : PassReading) : Kept r (State.end0 s rd) := by
  unfold State.end0
  repeat' (first
    | with_reducible
        first
        | assumption | apply Kept.ite | apply State.crossCheck_kept | apply State.setPip_kept
        | apply State.monitors_kept | apply State.podRepeat_kept | apply State.podPass_kept
        | apply State.railCheck_kept | apply State.showPip_kept | apply Kept.ite_snd
        | refine Kept.foldl (fun _ _ _ => ?_) _ ?_ | refine Kept.snd ‹_ = (_, _)› ?_
    | (extract_lets +onlyGivenNames x
       first
       | (refine Kept.cut (r := r) (x := x) ?_ ?_ <;> first | (clear_value x; intro hx) | subst x)
       | subst x)
    | split
    | dsimp only
    | (intro s1 h1; dsimp only)
    | intro s1 h1)

theorem State.validTemps_kept {r s : State} (h : Kept r s) (entries : List EntryReading) :
    Kept r (State.validTemps s entries) := by
  unfold State.validTemps
  repeat' (first
    | with_reducible
        first
        | assumption | apply Kept.ite | apply State.dtsTemp_kept | refine Kept.foldl (fun _ _ _ => ?_) _ ?_
    | (extract_lets +onlyGivenNames x
       first
       | (refine Kept.cut (r := r) (x := x) ?_ ?_ <;> first | (clear_value x; intro hx) | subst x)
       | subst x)
    | split
    | dsimp only
    | (intro s1 h1; dsimp only)
    | intro s1 h1)

theorem State.end1_kept {r s : State} (h : Kept r s) (rd : PassReading) : Kept r (State.end1 s rd) := by
  unfold State.end1
  repeat' (first
    | with_reducible
        first
        | assumption | apply Kept.ite | apply State.setPip_kept | apply State.entries_kept
        | apply State.crossCheck_kept | apply State.validTemps_kept | apply State.switchRef_kept
        | apply State.showPip_kept | apply State.start1_kept | apply Kept.ite_snd | refine Kept.snd ‹_ = (_, _)› ?_
    | (extract_lets +onlyGivenNames x
       first
       | (refine Kept.cut (r := r) (x := x) ?_ ?_ <;> first | (clear_value x; intro hx) | subst x)
       | subst x)
    | split
    | dsimp only)

theorem execPassEnd_kept {r s : State} (h : Kept r s) (t : Nat) (conv : Nat) (reading : PassReading) :
    KeptO r (execPassEnd t conv reading s) := by
  unfold execPassEnd
  repeat' (first
    | with_reducible
        first
        | assumption | apply Kept.ite | apply KeptO.ite | apply KeptO.next | apply State.at_kept
        | apply State.bump_kept | apply State.end0_kept | apply State.end1_kept
    | (extract_lets +onlyGivenNames x
       first
       | (refine Kept.cut (r := r) (x := x) ?_ ?_ <;> first | (clear_value x; intro hx) | subst x)
       | subst x)
    | split
    | dsimp only)

theorem State.pipDoze_kept {r s : State} (h : Kept r s) : Kept r (State.pipDoze s) := by
  unfold State.pipDoze
  repeat' (first
    | with_reducible first | assumption | apply State.showPip_kept | apply State.setPip_kept)

theorem State.pipReady_kept {r s : State} (h : Kept r s) : Kept r (State.pipReady s) := by
  unfold State.pipReady
  repeat' (first
    | with_reducible first | assumption | apply State.setPip_kept)

theorem calStart_kept {r s : State} (h : Kept r s) : KeptE r (calStart s) := by
  unfold calStart
  repeat' (first
    | with_reducible
        first
        | assumption | apply KeptE.ok | apply KeptE.error | apply State.startLong_kept | apply State.showPip_kept
        | apply State.setPip_kept | refine Kept.ofE ‹_ = Except.ok _› ?_
    | (intro s1 h1; dsimp only)
    | intro s1 h1)

theorem execCalibrationStart_kept {r s : State} (h : Kept r s) (t : Nat) (c : Nat) :
    KeptO r (execCalibrationStart t c s) := by
  unfold execCalibrationStart
  repeat' (first
    | with_reducible
        first
        | assumption | apply KeptE.ok | apply KeptE.error | apply KeptO.next | apply State.hostWrite_kept
        | apply State.at_kept | apply calStart_kept | refine Kept.ofE ‹_ = Except.ok _› ?_
    | (intro s1 h1; dsimp only)
    | intro s1 h1)

theorem State.endCalibration_kept {r s : State} (h : Kept r s) (o : LongOutcome) :
    Kept r (State.endCalibration s o).2 := by
  unfold State.endCalibration
  repeat' (first
    | with_reducible
        first
        | assumption | apply Kept.ite | apply State.os_kept | apply State.storeCal_kept | apply State.setPip_kept
        | apply State.showPip_kept | apply State.start1_kept | apply Kept.ite_snd | refine Kept.snd ‹_ = (_, _)› ?_
    | (extract_lets +onlyGivenNames x
       first
       | (refine Kept.cut (r := r) (x := x) ?_ ?_ <;> first | (clear_value x; intro hx) | subst x)
       | subst x)
    | split
    | dsimp only)

/-! ## Darug -/

theorem State.setDr_kept {r s : State} (h : Kept r s) (f : Darug → Darug) : Kept r (State.setDr s f) := by
  unfold State.setDr
  repeat' (first
    | with_reducible first | assumption | rfl
    | (simp only [Kept.lit]; with_reducible apply KeptCore.of)
    | rfl)

theorem State.takePosition_kept {r s : State} (h : Kept r s) (pos : Nat) : Kept r (State.takePosition s pos) := by
  unfold State.takePosition
  repeat' (first
    | with_reducible
        first
        | assumption | apply Kept.ite | apply State.os_kept | apply State.setDr_kept | apply State.emit_kept | rfl
    | (simp only [Kept.lit]; with_reducible apply KeptCore.of)
    | (extract_lets +onlyGivenNames x
       first
       | (refine Kept.cut (r := r) (x := x) ?_ ?_ <;> first | (clear_value x; intro hx) | subst x)
       | subst x)
    | split
    | dsimp only
    | rfl)

theorem execEnum_kept {r s : State} (h : Kept r s) (t : Nat) (sender : Nat) : KeptO r (execEnum t sender s) := by
  unfold execEnum
  repeat' (first
    | with_reducible
        first
        | assumption | apply Kept.ite | apply KeptO.ite | apply KeptO.next | apply State.at_kept | apply State.os_kept
        | apply State.takePosition_kept | apply State.sendMsg_kept
    | (extract_lets +onlyGivenNames x
       first
       | (refine Kept.cut (r := r) (x := x) ?_ ?_ <;> first | (clear_value x; intro hx) | subst x)
       | subst x)
    | split
    | dsimp only)

theorem execEnumTimeout_kept {r s : State} (h : Kept r s) (t : Nat) : KeptO r (execEnumTimeout t s) := by
  unfold execEnumTimeout
  repeat' (first
    | with_reducible
        first
        | assumption | apply Kept.ite | apply KeptO.ite | apply KeptO.next | apply State.at_kept
        | apply State.setDr_kept | apply State.os_kept | apply State.sendMsg_kept
    | (extract_lets +onlyGivenNames x
       first
       | (refine Kept.cut (r := r) (x := x) ?_ ?_ <;> first | (clear_value x; intro hx) | subst x)
       | subst x)
    | split
    | dsimp only)

theorem execEnumEnd_kept {r s : State} (h : Kept r s) (t : Nat) (position : Nat) :
    KeptO r (execEnumEnd t position s) := by
  unfold execEnumEnd
  repeat' (first
    | with_reducible
        first
        | assumption | apply Kept.ite | apply KeptO.ite | apply KeptO.next | apply State.at_kept | apply State.os_kept
        | apply State.relay_kept
    | (extract_lets +onlyGivenNames x
       first
       | (refine Kept.cut (r := r) (x := x) ?_ ?_ <;> first | (clear_value x; intro hx) | subst x)
       | subst x)
    | split
    | dsimp only)

theorem execSideLock_kept {r s : State} (h : Kept r s) (t : Nat) (down : Bool) : KeptO r (execSideLock t down s) := by
  unfold execSideLock
  repeat' (first
    | with_reducible
        first
        | assumption | apply Kept.ite | apply KeptO.ite | apply KeptO.next | apply State.at_kept | apply State.os_kept
        | apply State.sendMsg_kept | apply State.setDr_kept
    | (extract_lets +onlyGivenNames x
       first
       | (refine Kept.cut (r := r) (x := x) ?_ ?_ <;> first | (clear_value x; intro hx) | subst x)
       | subst x)
    | split
    | dsimp only)

theorem execSideFault_kept {r s : State} (h : Kept r s) (t : Nat) (down : Bool) : KeptO r (execSideFault t down s) := by
  unfold execSideFault
  repeat' (first
    | with_reducible
        first
        | assumption | apply Kept.ite | apply KeptO.ite | apply KeptO.next | apply State.at_kept
        | apply State.bump_kept | apply State.os_kept | apply State.setDr_kept
    | (extract_lets +onlyGivenNames x
       first
       | (refine Kept.cut (r := r) (x := x) ?_ ?_ <;> first | (clear_value x; intro hx) | subst x)
       | subst x)
    | split
    | dsimp only)

theorem execMessageCrcError_kept {r s : State} (h : Kept r s) (t : Nat) (down : Bool) :
    KeptO r (execMessageCrcError t down s) := by
  unfold execMessageCrcError
  repeat' (first
    | with_reducible
        first
        | assumption | apply Kept.ite | apply KeptO.ite | apply KeptO.next | apply State.at_kept
        | apply State.bump_kept
    | (extract_lets +onlyGivenNames x
       first
       | (refine Kept.cut (r := r) (x := x) ?_ ?_ <;> first | (clear_value x; intro hx) | subst x)
       | subst x)
    | split
    | dsimp only)

theorem execMarker_kept {r s : State} (h : Kept r s) (t : Nat) (code : Nat) (c1 : Nat) (c2 : Nat) :
    KeptO r (execMarker t code c1 c2 s) := by
  unfold execMarker
  repeat' (first
    | with_reducible
        first
        | assumption | apply Kept.ite | apply KeptO.ite | apply KeptO.next | apply State.at_kept
        | apply State.tdcEdge_kept | apply State.emit_kept | apply State.setDr_kept | apply Kept.ite_snd
        | refine Kept.snd ‹_ = (_, _)› ?_
    | (extract_lets +onlyGivenNames x
       first
       | (refine Kept.cut (r := r) (x := x) ?_ ?_ <;> first | (clear_value x; intro hx) | subst x)
       | subst x)
    | split
    | dsimp only)

theorem execMarkerArrival_kept {r s : State} (h : Kept r s) (t : Nat) (arrive : Nat) (depart : Nat) :
    KeptO r (execMarkerArrival t arrive depart s) := by
  unfold execMarkerArrival
  repeat' (first
    | with_reducible
        first
        | assumption | apply Kept.ite | apply KeptO.ite | apply KeptO.next | apply State.at_kept
        | apply State.setDr_kept | apply State.capture_kept | apply State.emit_kept | apply State.sendMsg_kept
    | (extract_lets +onlyGivenNames x
       first
       | (refine Kept.cut (r := r) (x := x) ?_ ?_ <;> first | (clear_value x; intro hx) | subst x)
       | subst x)
    | split
    | dsimp only)

theorem execTurn_kept {r s : State} (h : Kept r s) (t : Nat) (bins : Nat) (back : Nat) :
    KeptO r (execTurn t bins back s) := by
  unfold execTurn
  repeat' (first
    | with_reducible
        first
        | assumption | apply Kept.ite | apply KeptO.ite | apply KeptO.next | apply State.at_kept
        | apply State.capture_kept | apply State.os_kept | apply State.sendMsg_kept
    | (extract_lets +onlyGivenNames x
       first
       | (refine Kept.cut (r := r) (x := x) ?_ ?_ <;> first | (clear_value x; intro hx) | subst x)
       | subst x)
    | split
    | dsimp only)

theorem State.correct_kept {r s : State} (h : Kept r s) : Kept r (State.correct s) := by
  unfold State.correct
  repeat' (first
    | with_reducible
        first
        | assumption | apply Kept.ite | apply State.osI_kept | apply State.moveT_kept | apply State.setDr_kept
    | (extract_lets +onlyGivenNames x
       first
       | (refine Kept.cut (r := r) (x := x) ?_ ?_ <;> first | (clear_value x; intro hx) | subst x)
       | subst x)
    | split
    | dsimp only)

theorem State.showAlign_kept {r s : State} (h : Kept r s) : Kept r (State.showAlign s) := by
  unfold State.showAlign
  repeat' (first
    | with_reducible first | assumption | apply Kept.ite | apply State.os_kept
    | (extract_lets +onlyGivenNames x
       first
       | (refine Kept.cut (r := r) (x := x) ?_ ?_ <;> first | (clear_value x; intro hx) | subst x)
       | subst x)
    | split
    | dsimp only)

theorem execSync_kept {r s : State} (h : Kept r s) (t : Nat) (ts : Nat) (delay : Nat) (rate : Int) (state : Nat) :
    KeptO r (execSync t ts delay rate state s) := by
  unfold execSync
  repeat' (first
    | with_reducible
        first
        | assumption | apply Kept.ite | apply KeptO.ite | apply KeptO.next | apply State.at_kept | apply State.os_kept
        | apply State.osI_kept | apply State.setDr_kept | apply State.showAlign_kept | apply State.correct_kept
    | (extract_lets +onlyGivenNames x
       first
       | (refine Kept.cut (r := r) (x := x) ?_ ?_ <;> first | (clear_value x; intro hx) | subst x)
       | subst x)
    | split
    | dsimp only)

theorem execPhaseStep_kept {r s : State} (h : Kept r s) (t : Nat) : KeptO r (execPhaseStep t s) := by
  unfold execPhaseStep
  repeat' (first
    | with_reducible
        first
        | assumption | apply Kept.ite | apply KeptO.ite | apply KeptO.next | apply State.at_kept
        | apply State.setDr_kept | apply State.showAlign_kept
    | (extract_lets +onlyGivenNames x
       first
       | (refine Kept.cut (r := r) (x := x) ?_ ?_ <;> first | (clear_value x; intro hx) | subst x)
       | subst x)
    | split
    | dsimp only)

theorem execSyncLoss_kept {r s : State} (h : Kept r s) (t : Nat) : KeptO r (execSyncLoss t s) := by
  unfold execSyncLoss
  repeat' (first
    | with_reducible
        first
        | assumption | apply Kept.ite | apply KeptO.ite | apply KeptO.next | apply State.at_kept | apply State.os_kept
    | (extract_lets +onlyGivenNames x
       first
       | (refine Kept.cut (r := r) (x := x) ?_ ?_ <;> first | (clear_value x; intro hx) | subst x)
       | subst x)
    | split
    | dsimp only)

theorem execBoundary_kept {r s : State} (h : Kept r s) (t : Nat) (index : Nat) (stamp : Nat) (period : Nat) :
    KeptO r (execBoundary t index stamp period s) := by
  unfold execBoundary
  repeat' (first
    | with_reducible
        first
        | assumption | apply Kept.ite | apply KeptO.ite | apply KeptO.next | apply State.at_kept
        | apply State.relay_kept | apply State.setDr_kept | apply State.os_kept | apply State.bump_kept
        | apply Kept.ite_snd | refine Kept.snd ‹_ = (_, _)› ?_ | rfl
    | (simp only [Kept.lit]; with_reducible apply KeptCore.of)
    | (extract_lets +onlyGivenNames x
       first
       | (refine Kept.cut (r := r) (x := x) ?_ ?_ <;> first | (clear_value x; intro hx) | subst x)
       | subst x)
    | split
    | dsimp only
    | rfl)

theorem State.sendBoundary_kept {r s : State} (h : Kept r s) : Kept r (State.sendBoundary s) := by
  unfold State.sendBoundary
  repeat' (first
    | with_reducible first | assumption | apply Kept.ite | apply State.sendMsg_kept
    | split
    | dsimp only)

theorem execInject_kept {r s : State} (h : Kept r s) (t : Nat) (on : Nat) (link : Nat) (action : Nat) :
    KeptO r (execInject t on link action s) := by
  unfold execInject
  repeat' (first
    | with_reducible
        first
        | assumption | apply Kept.ite | apply KeptO.ite | apply KeptO.next | apply State.at_kept
        | apply State.relay_kept | apply State.setDr_kept
    | (extract_lets +onlyGivenNames x
       first
       | (refine Kept.cut (r := r) (x := x) ?_ ?_ <;> first | (clear_value x; intro hx) | subst x)
       | subst x)
    | split
    | dsimp only)

theorem execDrgRefiLoss_kept {r s : State} (h : Kept r s) (t : Nat) : KeptO r (execDrgRefiLoss t s) := by
  unfold execDrgRefiLoss
  repeat' (first
    | with_reducible
        first
        | assumption | apply Kept.ite | apply KeptO.ite | apply KeptO.next | apply State.at_kept
        | apply State.setDr_kept
    | (extract_lets +onlyGivenNames x
       first
       | (refine Kept.cut (r := r) (x := x) ?_ ?_ <;> first | (clear_value x; intro hx) | subst x)
       | subst x)
    | split
    | dsimp only)

theorem State.darugStart_kept {r s : State} (h : Kept r s) : Kept r (State.darugStart s) := by
  unfold State.darugStart
  repeat' (first
    | with_reducible first | assumption | apply Kept.ite | apply State.os_kept | apply State.setDr_kept
    | (extract_lets +onlyGivenNames x
       first
       | (refine Kept.cut (r := r) (x := x) ?_ ?_ <;> first | (clear_value x; intro hx) | subst x)
       | subst x)
    | split
    | dsimp only)

theorem State.darugStop_kept {r s : State} (h : Kept r s) : Kept r (State.darugStop s) := by
  unfold State.darugStop
  repeat' (first
    | with_reducible first | assumption | apply State.setDr_kept | apply State.os_kept)

end Sys2Proof.Machine
end

