-- ==== Sys2Proof/Laws/KeptLadder.lean ====
section
/-! SUPPORT. What Kept of Safety.lean says of each function of the model:
the plan ladder, power transitions and Pod. -/

namespace Sys2Proof.Machine

open Sys2Proof

set_option linter.unusedSimpArgs false
set_option linter.unusedVariables false

/-! ## Ladder -/

theorem State.setPower_kept {r s : State} (h : Kept r s) (r' : Nat) : Kept r (State.setPower s r') := by
  unfold State.setPower
  repeat' (first
    | with_reducible first | assumption | apply State.os_kept
    | split
    | dsimp only)

theorem State.planActive_kept {r s : State} (h : Kept r s) (pl : Plan) : Kept r (State.planActive s pl) := by
  unfold State.planActive
  repeat' (first
    | with_reducible first | assumption | apply State.showRungs_kept | apply State.queuesTake_kept)

theorem State.putRung_kept {r s : State} (h : Kept r s) (r' : Nat) (pl : Plan) (kept : Bool) :
    Kept r (State.putRung s r' pl kept) := by
  unfold State.putRung
  repeat' (first
    | with_reducible
        first
        | assumption | apply Kept.ite | apply State.setPower_kept | apply State.planActive_kept
        | apply State.showRungs_kept | rfl
    | unfold State.setLad
    | (simp only [Kept.lit, List.length_set]; with_reducible apply KeptCore.of)
    | (extract_lets +onlyGivenNames x
       first
       | (refine Kept.cut (r := r) (x := x) ?_ ?_ <;> first | (clear_value x; intro hx) | subst x)
       | subst x)
    | split
    | dsimp only
    | rfl)

theorem State.supersede_kept {r s : State} (h : Kept r s) (r' : Nat) : Kept r (State.supersede s r') := by
  unfold State.supersede
  repeat' (first
    | with_reducible first | assumption | apply Kept.ite | rfl
    | unfold State.setLad
    | (simp only [Kept.lit, List.length_map]; with_reducible apply KeptCore.of)
    | rfl)

theorem State.keepPlan_kept {r s : State} (h : Kept r s) (r' : Nat) (img : List Byte) :
    Kept r (State.keepPlan s r' img) := by
  unfold State.keepPlan
  repeat' (first
    | with_reducible first | assumption | apply Kept.ite | apply State.supersede_kept | rfl
    | unfold State.setLad
    | (simp only [Kept.lit, List.length_map]; with_reducible apply KeptCore.of)
    | (extract_lets +onlyGivenNames x
       first
       | (refine Kept.cut (r := r) (x := x) ?_ ?_ <;> first | (clear_value x; intro hx) | subst x)
       | subst x)
    | split
    | dsimp only
    | rfl)

theorem State.endInstall_kept {r s : State} (h : Kept r s) (arg : Nat) (img : List Byte) (flashFailed : Bool) :
    Kept r (State.endInstall s arg img flashFailed).2 := by
  unfold State.endInstall
  repeat' (first
    | with_reducible
        first
        | assumption | apply Kept.ite | apply State.draw_kept | apply State.os_kept | apply State.keepPlan_kept
        | apply State.supersede_kept | apply State.putRung_kept | apply Kept.ite_snd | refine Kept.snd ‹_ = (_, _)› ?_
    | (extract_lets +onlyGivenNames x
       first
       | (refine Kept.cut (r := r) (x := x) ?_ ?_ <;> first | (clear_value x; intro hx) | subst x)
       | subst x)
    | split
    | dsimp only)

theorem planInstall_kept {r s : State} (h : Kept r s) (v : Nat) : KeptE r (planInstall v s) := by
  unfold planInstall
  repeat' (first
    | with_reducible
        first
        | assumption | apply Kept.ite | apply KeptE.ite | apply KeptE.ok | apply KeptE.error | apply require_kept
        | apply State.startLong_kept | refine Kept.ofE ‹_ = Except.ok _› ?_
    | (intro s1 h1; dsimp only)
    | intro s1 h1)

theorem execPlanInstall_kept {r s : State} (h : Kept r s) (t : Nat) (c : Nat) (rung : Nat) :
    KeptO r (execPlanInstall t c rung s) := by
  unfold execPlanInstall
  repeat' (first
    | with_reducible
        first
        | assumption | apply KeptE.ok | apply KeptE.error | apply KeptO.next | apply State.hostWrite_kept
        | apply State.at_kept | apply planInstall_kept | refine Kept.ofE ‹_ = Except.ok _› ?_
    | (intro s1 h1; dsimp only)
    | intro s1 h1)

theorem execPlanInstallKeep_kept {r s : State} (h : Kept r s) (t : Nat) (c : Nat) (rung : Nat) :
    KeptO r (execPlanInstallKeep t c rung s) := by
  unfold execPlanInstallKeep
  repeat' (first
    | with_reducible
        first
        | assumption | apply KeptE.ok | apply KeptE.error | apply KeptO.next | apply State.hostWrite_kept
        | apply State.at_kept | apply planInstall_kept | refine Kept.ofE ‹_ = Except.ok _› ?_
    | (intro s1 h1; dsimp only)
    | intro s1 h1)

theorem removeRung_kept {r s : State} (h : Kept r s) (r' : Nat) : KeptE r (removeRung r' s) := by
  unfold removeRung
  repeat' (first
    | with_reducible
        first
        | assumption | apply KeptE.ok | apply KeptE.error | apply require_kept | apply State.showRungs_kept
        | apply State.setPower_kept | apply State.supersede_kept | refine Kept.ofE ‹_ = Except.ok _› ?_ | rfl
    | unfold State.setLad
    | (simp only [Kept.lit, List.length_set]; with_reducible apply KeptCore.of)
    | rfl
    | (intro s1 h1; dsimp only)
    | intro s1 h1)

theorem execRemoveRung_kept {r s : State} (h : Kept r s) (t : Nat) (c : Nat) (rung : Nat) :
    KeptO r (execRemoveRung t c rung s) := by
  unfold execRemoveRung
  repeat' (first
    | with_reducible
        first
        | assumption | apply KeptE.ok | apply KeptE.error | apply KeptO.next | apply State.hostWrite_kept
        | apply State.at_kept | apply removeRung_kept | refine Kept.ofE ‹_ = Except.ok _› ?_
    | (intro s1 h1; dsimp only)
    | intro s1 h1)

theorem State.tellChain_kept {r s : State} (h : Kept r s) (typ : Nat) (payload : List Byte) :
    Kept r (State.tellChain s typ payload) := by
  unfold State.tellChain
  repeat' (first
    | with_reducible first | assumption | apply State.sendMsg_kept)

theorem State.tellHead_kept {r s : State} (h : Kept r s) (typ : Nat) (payload : List Byte) :
    Kept r (State.tellHead s typ payload) := by
  unfold State.tellHead
  repeat' (first
    | with_reducible first | assumption | apply State.sendMsg_kept)

theorem State.chainOutcome_kept {r s : State} (h : Kept r s) (pos : Nat) (code : Nat) (index : Nat) :
    Kept r (State.chainOutcome s pos code index) := by
  unfold State.chainOutcome
  repeat' (first
    | with_reducible first | assumption | apply Kept.ite | apply State.os_kept | rfl
    | unfold State.setLad
    | (simp only [Kept.lit]; with_reducible apply KeptCore.of)
    | (extract_lets +onlyGivenNames x
       first
       | (refine Kept.cut (r := r) (x := x) ?_ ?_ <;> first | (clear_value x; intro hx) | subst x)
       | subst x)
    | split
    | dsimp only
    | rfl)

theorem State.report_kept {r s : State} (h : Kept r s) (tag : Nat) (code : Nat) (index : Nat) :
    Kept r (State.report s tag code index) := by
  unfold State.report
  repeat' (first
    | with_reducible first | assumption | apply Kept.ite | apply State.chainOutcome_kept | apply State.tellHead_kept)

theorem State.countMismatch_kept {r s : State} (h : Kept r s) (n : Nat) : Kept r (State.countMismatch s n) := by
  unfold State.countMismatch
  repeat' (first
    | with_reducible first | assumption | apply Kept.ite | apply State.os_kept
    | (extract_lets +onlyGivenNames x
       first
       | (refine Kept.cut (r := r) (x := x) ?_ ?_ <;> first | (clear_value x; intro hx) | subst x)
       | subst x)
    | split
    | dsimp only)

theorem State.dropSwitch_kept {r s : State} (h : Kept r s) : Kept r (State.dropSwitch s) := by
  unfold State.dropSwitch
  repeat' (first
    | with_reducible
        first
        | assumption | apply State.setPort_kept | apply State.releaseRegions_kept | apply State.showOptics_kept
        | apply State.os_kept | refine Kept.foldl (fun _ _ _ => ?_) _ ?_ | rfl
    | unfold State.setLad
    | (simp only [Kept.lit]; with_reducible apply KeptCore.of)
    | (extract_lets +onlyGivenNames x
       first
       | (refine Kept.cut (r := r) (x := x) ?_ ?_ <;> first | (clear_value x; intro hx) | subst x)
       | subst x)
    | split
    | dsimp only
    | rfl
    | (intro s1 h1; dsimp only)
    | intro s1 h1)

theorem State.cancelChain_kept {r s : State} (h : Kept r s) (own : Nat) : Kept r (State.cancelChain s own) := by
  unfold State.cancelChain
  repeat' (first
    | with_reducible
        first
        | assumption | apply Kept.ite | apply State.tellChain_kept | apply State.chainOutcome_kept
        | apply State.dropSwitch_kept | rfl
    | unfold State.setLad
    | (simp only [Kept.lit]; with_reducible apply KeptCore.of)
    | (extract_lets +onlyGivenNames x
       first
       | (refine Kept.cut (r := r) (x := x) ?_ ?_ <;> first | (clear_value x; intro hx) | subst x)
       | subst x)
    | split
    | dsimp only
    | rfl)

theorem State.failFrom_kept {r s : State} (h : Kept r s) (pos : Nat) (tag : Nat) :
    Kept r (State.failFrom s pos tag) := by
  unfold State.failFrom
  repeat' (first
    | with_reducible first | assumption | apply Kept.ite | apply State.cancelChain_kept | apply State.chainOutcome_kept
    | (extract_lets +onlyGivenNames x
       first
       | (refine Kept.cut (r := r) (x := x) ?_ ?_ <;> first | (clear_value x; intro hx) | subst x)
       | subst x)
    | split
    | dsimp only)

theorem State.nakFrom_kept {r s : State} (h : Kept r s) (pos : Nat) (tag : Nat) : Kept r (State.nakFrom s pos tag) := by
  unfold State.nakFrom
  repeat' (first
    | with_reducible first | assumption | apply Kept.ite | apply State.cancelChain_kept | apply State.chainOutcome_kept
    | split
    | dsimp only)

theorem State.loseChain_kept {r s : State} (h : Kept r s) (tag : Nat) : Kept r (State.loseChain s tag) := by
  unfold State.loseChain
  repeat' (first
    | with_reducible
        first
        | assumption | apply Kept.ite | apply State.failFrom_kept | apply State.tellHead_kept
        | apply State.nakFrom_kept | rfl
    | unfold State.setLad
    | (simp only [Kept.lit]; with_reducible apply KeptCore.of)
    | (extract_lets +onlyGivenNames x
       first
       | (refine Kept.cut (r := r) (x := x) ?_ ?_ <;> first | (clear_value x; intro hx) | subst x)
       | subst x)
    | split
    | dsimp only
    | rfl)

theorem State.endMismatch_kept {r s : State} (h : Kept r s) : Kept r (State.endMismatch s) := by
  unfold State.endMismatch
  repeat' (first
    | with_reducible first | assumption | rfl
    | unfold State.setLad
    | (simp only [Kept.lit]; with_reducible apply KeptCore.of)
    | rfl)

theorem State.askSwitch_kept {r s : State} (h : Kept r s) (rung : Nat) (chain : Option Nat) :
    Kept r (State.askSwitch s rung chain) := by
  unfold State.askSwitch
  repeat' (first
    | with_reducible
        first
        | assumption | apply Kept.ite | apply State.dropSwitch_kept | apply State.bump_kept
        | apply State.loseChain_kept | apply State.bringUp_kept | apply State.os_kept | rfl
    | unfold State.setLad
    | (simp only [Kept.lit]; with_reducible apply KeptCore.of)
    | (extract_lets +onlyGivenNames x
       first
       | (refine Kept.cut (r := r) (x := x) ?_ ?_ <;> first | (clear_value x; intro hx) | subst x)
       | subst x)
    | split
    | dsimp only
    | rfl)

theorem requestedRung_kept {r s : State} (h : Kept r s) (r' : Nat) : KeptE r (requestedRung r' s) := by
  unfold requestedRung
  repeat' (first
    | with_reducible
        first
        | assumption | apply Kept.ite | apply KeptE.ite | apply KeptE.ok | apply KeptE.error | apply require_kept
        | apply State.osBit_kept | apply State.os_kept | apply State.endMismatch_kept | apply State.askSwitch_kept
        | refine Kept.ofE ‹_ = Except.ok _› ?_
    | (extract_lets +onlyGivenNames x
       first
       | (refine Kept.cut (r := r) (x := x) ?_ ?_ <;> first | (clear_value x; intro hx) | subst x)
       | subst x)
    | split
    | dsimp only
    | (intro s1 h1; dsimp only)
    | intro s1 h1)

theorem execRequestedRung_kept {r s : State} (h : Kept r s) (t : Nat) (c : Nat) (rung : Nat) :
    KeptO r (execRequestedRung t c rung s) := by
  unfold execRequestedRung
  repeat' (first
    | with_reducible
        first
        | assumption | apply KeptE.ok | apply KeptE.error | apply KeptO.next | apply State.hostWrite_kept
        | apply State.at_kept | apply requestedRung_kept | refine Kept.ofE ‹_ = Except.ok _› ?_
    | (intro s1 h1; dsimp only)
    | intro s1 h1)

theorem State.loadHalf_kept {r s : State} (h : Kept r s) (pl : Plan) : Kept r (State.loadHalf s pl) := by
  unfold State.loadHalf
  repeat' (first
    | with_reducible first | assumption | apply Kept.ite | rfl
    | (simp only [Kept.lit]; with_reducible apply KeptCore.of)
    | (extract_lets +onlyGivenNames x
       first
       | (refine Kept.cut (r := r) (x := x) ?_ ?_ <;> first | (clear_value x; intro hx) | subst x)
       | subst x)
    | split
    | dsimp only
    | rfl)

theorem State.commitChain_kept {r s : State} (h : Kept r s) (c : ChainHead) : Kept r (State.commitChain s c) := by
  unfold State.commitChain
  repeat' (first
    | with_reducible first | assumption | apply State.os_kept | apply State.tellChain_kept | rfl
    | unfold State.setLad
    | (simp only [Kept.lit]; with_reducible apply KeptCore.of)
    | (extract_lets +onlyGivenNames x
       first
       | (refine Kept.cut (r := r) (x := x) ?_ ?_ <;> first | (clear_value x; intro hx) | subst x)
       | subst x)
    | split
    | dsimp only
    | rfl)

theorem State.ackFrom_kept {r s : State} (h : Kept r s) (pos : Nat) (tag : Nat) : Kept r (State.ackFrom s pos tag) := by
  unfold State.ackFrom
  repeat' (first
    | with_reducible first | assumption | apply Kept.ite | apply State.commitChain_kept | rfl
    | unfold State.setLad
    | (simp only [Kept.lit]; with_reducible apply KeptCore.of)
    | (extract_lets +onlyGivenNames x
       first
       | (refine Kept.cut (r := r) (x := x) ?_ ?_ <;> first | (clear_value x; intro hx) | subst x)
       | subst x)
    | split
    | dsimp only
    | rfl)

theorem State.failPrepare_kept {r s : State} (h : Kept r s) : Kept r (State.failPrepare s) := by
  unfold State.failPrepare
  repeat' (first
    | with_reducible
        first
        | assumption | apply Kept.ite | apply State.os_kept | apply State.dropSwitch_kept | apply State.nakFrom_kept
        | apply State.tellHead_kept | rfl
    | unfold State.setLad
    | (simp only [Kept.lit]; with_reducible apply KeptCore.of)
    | (extract_lets +onlyGivenNames x
       first
       | (refine Kept.cut (r := r) (x := x) ?_ ?_ <;> first | (clear_value x; intro hx) | subst x)
       | subst x)
    | split
    | dsimp only
    | rfl)

theorem State.donePrepare_kept {r s : State} (h : Kept r s) (w : Switch) (pl : Plan) :
    Kept r (State.donePrepare s w pl) := by
  unfold State.donePrepare
  repeat' (first
    | with_reducible
        first
        | assumption | apply Kept.ite | apply State.loadHalf_kept | apply State.ackFrom_kept
        | apply State.tellHead_kept | rfl
    | unfold State.setLad
    | (simp only [Kept.lit]; with_reducible apply KeptCore.of)
    | (extract_lets +onlyGivenNames x
       first
       | (refine Kept.cut (r := r) (x := x) ?_ ?_ <;> first | (clear_value x; intro hx) | subst x)
       | subst x)
    | split
    | dsimp only
    | rfl)

theorem execColdEntrySeedCheck_kept {r s : State} (h : Kept r s) (t : Nat) (dbm : Int) :
    KeptO r (execColdEntrySeedCheck t dbm s) := by
  unfold execColdEntrySeedCheck
  repeat' (first
    | with_reducible
        first
        | assumption | apply Kept.ite | apply KeptO.ite | apply KeptO.next | apply State.at_kept
        | apply State.osI_kept | apply State.abandonEntry_kept | apply State.failPrepare_kept | rfl
    | unfold State.setLad
    | (simp only [Kept.lit]; with_reducible apply KeptCore.of)
    | (extract_lets +onlyGivenNames x
       first
       | (refine Kept.cut (r := r) (x := x) ?_ ?_ <;> first | (clear_value x; intro hx) | subst x)
       | subst x)
    | split
    | dsimp only
    | rfl)

theorem execPrepareEnd_kept {r s : State} (h : Kept r s) (t : Nat) (ok : Bool) (seedDbm : Int) :
    KeptO r (execPrepareEnd t ok seedDbm s) := by
  unfold execPrepareEnd
  repeat' (first
    | with_reducible
        first
        | assumption | apply Kept.ite | apply KeptO.ite | apply KeptP.some | exact KeptP.none | apply Kept.getD
        | apply KeptO.next | apply State.at_kept | apply State.failPrepare_kept | apply State.reservePlan_kept
        | apply State.showOptics_kept | apply State.expirePort_kept | apply State.donePrepare_kept
        | refine Kept.foldl (fun _ _ _ => ?_) _ ?_ | refine Kept.ofP ‹_ = Option.some _› ?_
    | (extract_lets +onlyGivenNames x
       first
       | (refine Kept.cut (r := r) (x := x) ?_ ?_ <;> first | (clear_value x; intro hx) | subst x)
       | subst x)
    | split
    | dsimp only
    | (intro s1 h1; dsimp only)
    | intro s1 h1)

theorem shadowed_kept {r s : State} (h : Kept r s) (idx : Nat) (sub : Nat) (b : List Byte) :
    KeptE r (shadowed idx sub b s) := by
  unfold shadowed
  repeat' (first
    | with_reducible
        first
        | assumption | apply Kept.ite | apply KeptE.ite | apply KeptE.ok | apply KeptE.error | apply shadow_kept
        | refine Kept.ofE ‹_ = Except.ok _› ?_
    | (extract_lets +onlyGivenNames x
       first
       | (refine Kept.cut (r := r) (x := x) ?_ ?_ <;> first | (clear_value x; intro hx) | subst x)
       | subst x)
    | split
    | dsimp only
    | (intro s1 h1; dsimp only)
    | intro s1 h1)

theorem execShadowedWrite_kept {r s : State} (h : Kept r s) (t : Nat) (c : Nat) (index : Nat) (sub : Nat)
    (data : List Byte) :
    KeptO r (execShadowedWrite t c index sub data s) := by
  unfold execShadowedWrite
  repeat' (first
    | with_reducible
        first
        | assumption | apply Kept.ite | apply KeptE.ite | apply KeptO.ite | apply KeptE.ok | apply KeptE.error
        | apply KeptO.next | apply State.at_kept | apply State.hostWrite_kept | apply zoneThreshold_kept
        | apply bankLoad_kept | apply shadowed_kept | refine Kept.ofE ‹_ = Except.ok _› ?_
    | (extract_lets +onlyGivenNames x
       first
       | (refine Kept.cut (r := r) (x := x) ?_ ?_ <;> first | (clear_value x; intro hx) | subst x)
       | subst x)
    | split
    | dsimp only
    | (intro s1 h1; dsimp only)
    | intro s1 h1)

theorem chainSwitch_kept {r s : State} (h : Kept r s) (r' : Nat) : KeptE r (chainSwitch r' s) := by
  unfold chainSwitch
  repeat' (first
    | with_reducible
        first
        | assumption | apply KeptE.ok | apply KeptE.error | apply require_kept | apply State.askSwitch_kept
        | apply State.os_kept | apply State.tellChain_kept | refine Kept.foldl (fun _ _ _ => ?_) _ ?_
        | refine Kept.ofE ‹_ = Except.ok _› ?_ | rfl
    | unfold State.setLad
    | (simp only [Kept.lit]; with_reducible apply KeptCore.of)
    | (extract_lets +onlyGivenNames x
       first
       | (refine Kept.cut (r := r) (x := x) ?_ ?_ <;> first | (clear_value x; intro hx) | subst x)
       | subst x)
    | split
    | dsimp only
    | rfl
    | (intro s1 h1; dsimp only)
    | intro s1 h1)

theorem execChainSwitch_kept {r s : State} (h : Kept r s) (t : Nat) (c : Nat) (rung : Nat) :
    KeptO r (execChainSwitch t c rung s) := by
  unfold execChainSwitch
  repeat' (first
    | with_reducible
        first
        | assumption | apply KeptE.ok | apply KeptE.error | apply KeptO.next | apply State.hostWrite_kept
        | apply State.at_kept | apply chainSwitch_kept | refine Kept.ofE ‹_ = Except.ok _› ?_
    | (intro s1 h1; dsimp only)
    | intro s1 h1)

theorem execPrepare_kept {r s : State} (h : Kept r s) (t : Nat) (rung : Nat) (tag : Nat) :
    KeptO r (execPrepare t rung tag s) := by
  unfold execPrepare
  repeat' (first
    | with_reducible
        first
        | assumption | apply Kept.ite | apply KeptO.ite | apply KeptO.next | apply State.at_kept | apply State.os_kept
        | apply State.relay_kept | apply State.tellHead_kept | apply State.askSwitch_kept | rfl
    | unfold State.setLad
    | (simp only [Kept.lit]; with_reducible apply KeptCore.of)
    | (extract_lets +onlyGivenNames x
       first
       | (refine Kept.cut (r := r) (x := x) ?_ ?_ <;> first | (clear_value x; intro hx) | subst x)
       | subst x)
    | split
    | dsimp only
    | rfl)

theorem State.toHead_kept {r s : State} (h : Kept r s) (typ : Nat) (src : Nat) (payload : List Byte)
    (effect : State → State) (he : ∀ s', Kept r s' → Kept r (effect s')) :
    Kept r (State.toHead s typ src payload effect) := by
  unfold State.toHead
  repeat' (first
    | with_reducible first | assumption | apply Kept.ite | apply State.relay_kept | apply he
    | (intro s1 h1; dsimp only)
    | intro s1 h1)

theorem execAck_kept {r s : State} (h : Kept r s) (t : Nat) (src : Nat) (tag : Nat) :
    KeptO r (execAck t src tag s) := by
  unfold execAck
  repeat' (first
    | with_reducible
        first
        | assumption | apply KeptO.next | apply State.toHead_kept | apply State.at_kept | apply State.ackFrom_kept
    | (intro s1 h1; dsimp only)
    | intro s1 h1)

theorem execNak_kept {r s : State} (h : Kept r s) (t : Nat) (src : Nat) (tag : Nat) :
    KeptO r (execNak t src tag s) := by
  unfold execNak
  repeat' (first
    | with_reducible
        first
        | assumption | apply KeptO.next | apply State.toHead_kept | apply State.at_kept | apply State.nakFrom_kept
    | (intro s1 h1; dsimp only)
    | intro s1 h1)

theorem execAckTimeout_kept {r s : State} (h : Kept r s) (t : Nat) : KeptO r (execAckTimeout t s) := by
  unfold execAckTimeout
  repeat' (first
    | with_reducible
        first
        | assumption | apply Kept.ite | apply KeptO.ite | apply KeptO.next | apply State.at_kept
        | apply State.chainOutcome_kept | apply State.cancelChain_kept | refine Kept.foldl (fun _ _ _ => ?_) _ ?_
    | (extract_lets +onlyGivenNames x
       first
       | (refine Kept.cut (r := r) (x := x) ?_ ?_ <;> first | (clear_value x; intro hx) | subst x)
       | subst x)
    | split
    | dsimp only
    | (intro s1 h1; dsimp only)
    | intro s1 h1)

theorem execCommit_kept {r s : State} (h : Kept r s) (t : Nat) (tag : Nat) (index : Nat) :
    KeptO r (execCommit t tag index s) := by
  unfold execCommit
  repeat' (first
    | with_reducible
        first
        | assumption | apply Kept.ite | apply KeptO.ite | apply KeptO.next | apply State.at_kept
        | apply State.relay_kept | rfl
    | unfold State.setLad
    | (simp only [Kept.lit]; with_reducible apply KeptCore.of)
    | (extract_lets +onlyGivenNames x
       first
       | (refine Kept.cut (r := r) (x := x) ?_ ?_ <;> first | (clear_value x; intro hx) | subst x)
       | subst x)
    | split
    | dsimp only
    | rfl)

theorem execCancel_kept {r s : State} (h : Kept r s) (t : Nat) (tag : Nat) : KeptO r (execCancel t tag s) := by
  unfold execCancel
  repeat' (first
    | with_reducible
        first
        | assumption | apply Kept.ite | apply KeptO.ite | apply KeptO.next | apply State.at_kept
        | apply State.relay_kept | apply State.report_kept | apply State.dropSwitch_kept | rfl
    | unfold State.setLad
    | (simp only [Kept.lit]; with_reducible apply KeptCore.of)
    | (extract_lets +onlyGivenNames x
       first
       | (refine Kept.cut (r := r) (x := x) ?_ ?_ <;> first | (clear_value x; intro hx) | subst x)
       | subst x)
    | split
    | dsimp only
    | rfl)

theorem execFail_kept {r s : State} (h : Kept r s) (t : Nat) (src : Nat) (tag : Nat) :
    KeptO r (execFail t src tag s) := by
  unfold execFail
  repeat' (first
    | with_reducible
        first
        | assumption | apply KeptO.next | apply State.toHead_kept | apply State.at_kept | apply State.failFrom_kept
    | (intro s1 h1; dsimp only)
    | intro s1 h1)

theorem execOutcome_kept {r s : State} (h : Kept r s) (t : Nat) (src : Nat) (tag : Nat) (outcome : Nat) (index : Nat) :
    KeptO r (execOutcome t src tag outcome index s) := by
  unfold execOutcome
  repeat' (first
    | with_reducible
        first
        | assumption | apply Kept.ite | apply KeptO.ite | apply KeptO.next | apply State.toHead_kept
        | apply State.at_kept | apply State.chainOutcome_kept
    | (intro s1 h1; dsimp only)
    | intro s1 h1)

theorem execCommitLostTimeout_kept {r s : State} (h : Kept r s) (t : Nat) : KeptO r (execCommitLostTimeout t s) := by
  unfold execCommitLostTimeout
  repeat' (first
    | with_reducible
        first
        | assumption | apply Kept.ite | apply KeptO.ite | apply KeptO.next | apply State.at_kept
        | apply State.report_kept | apply State.dropSwitch_kept | rfl
    | unfold State.setLad
    | (simp only [Kept.lit]; with_reducible apply KeptCore.of)
    | (extract_lets +onlyGivenNames x
       first
       | (refine Kept.cut (r := r) (x := x) ?_ ?_ <;> first | (clear_value x; intro hx) | subst x)
       | subst x)
    | split
    | dsimp only
    | rfl)

/-! ## Move -/

theorem State.setPw_kept {r s : State} (h : Kept r s) (f : Power → Power) : Kept r (State.setPw s f) := by
  unfold State.setPw
  repeat' (first
    | with_reducible first | assumption | rfl
    | (simp only [Kept.lit]; with_reducible apply KeptCore.of)
    | rfl)

theorem State.account_kept {r s : State} (h : Kept r s) (n : Nat) (causes : List Nat) :
    Kept r (State.account s n causes) := by
  unfold State.account
  repeat' (first
    | with_reducible first | assumption | apply Kept.ite | refine Kept.foldl (fun _ _ _ => ?_) _ ?_ | rfl
    | unfold State.setMg
    | (simp only [Kept.lit, length_modAt]; with_reducible apply KeptCore.of)
    | (extract_lets +onlyGivenNames x
       first
       | (refine Kept.cut (r := r) (x := x) ?_ ?_ <;> first | (clear_value x; intro hx) | subst x)
       | subst x)
    | split
    | dsimp only
    | rfl
    | (intro s1 h1; dsimp only)
    | intro s1 h1)

theorem State.outages_kept {r s : State} (h : Kept r s) (n : Nat) (causes : List Nat) :
    Kept r (State.outages s n causes) := by
  unfold State.outages
  repeat' (first
    | with_reducible
        first
        | assumption | apply State.log_kept | refine Kept.foldl (fun _ _ _ => ?_) _ ?_
        | refine Kept.snd ‹_ = (_, _)› ?_ | rfl
    | unfold State.setMg
    | (simp only [Kept.lit, List.length_map]; with_reducible apply KeptCore.of)
    | (extract_lets +onlyGivenNames x
       first
       | (refine Kept.cut (r := r) (x := x) ?_ ?_ <;> first | (clear_value x; intro hx) | subst x)
       | subst x)
    | split
    | dsimp only
    | rfl
    | (intro s1 h1; dsimp only)
    | intro s1 h1)

theorem State.settleIdle_kept {r s : State} (h : Kept r s) : Kept r (State.settleIdle s) := by
  unfold State.settleIdle
  repeat' (first
    | with_reducible first | assumption | apply Kept.ite | apply State.outages_kept | apply State.account_kept | rfl
    | unfold State.setMg
    | (simp only [Kept.lit]; with_reducible apply KeptCore.of)
    | (extract_lets +onlyGivenNames x
       first
       | (refine Kept.cut (r := r) (x := x) ?_ ?_ <;> first | (clear_value x; intro hx) | subst x)
       | subst x)
    | split
    | dsimp only
    | rfl)

theorem State.intend_kept {r s : State} (h : Kept r s) : Kept r (State.intend s) := by
  unfold State.intend
  repeat' (first
    | with_reducible first | assumption | apply State.settleIdle_kept | rfl
    | unfold State.setMg
    | (simp only [Kept.lit]; with_reducible apply KeptCore.of)
    | rfl)

theorem State.unintend_kept {r s : State} (h : Kept r s) : Kept r (State.unintend s) := by
  unfold State.unintend
  repeat' (first
    | with_reducible first | assumption | apply State.outages_kept | apply State.settleIdle_kept | rfl
    | unfold State.setMg
    | (simp only [Kept.lit]; with_reducible apply KeptCore.of)
    | rfl)

theorem State.chargeTo_kept {r s : State} (h : Kept r s) (c : Nat) : Kept r (State.chargeTo s c) := by
  unfold State.chargeTo
  repeat' (first
    | with_reducible first | assumption | apply State.settleIdle_kept | rfl
    | unfold State.setMg
    | (simp only [Kept.lit]; with_reducible apply KeptCore.of)
    | rfl)

theorem State.beginEntry_kept {r s : State} (h : Kept r s) : KeptE r (State.beginEntry s) := by
  unfold State.beginEntry
  repeat' (first
    | with_reducible
        first
        | assumption | apply Kept.ite | apply KeptE.ite | apply KeptE.ok | apply KeptE.error | apply KeptP.some
        | exact KeptP.none | apply Kept.getD | apply State.reserveEntry_kept | apply State.photonicOn_kept
        | apply State.bringUp_kept | apply State.setPw_kept | apply State.loadHalf_kept
        | refine Kept.ofE ‹_ = Except.ok _› ?_ | refine Kept.ofP ‹_ = Option.some _› ?_ | rfl
    | (simp only [Kept.lit]; with_reducible apply KeptCore.of)
    | (extract_lets +onlyGivenNames x
       first
       | (refine Kept.cut (r := r) (x := x) ?_ ?_ <;> first | (clear_value x; intro hx) | subst x)
       | subst x)
    | split
    | dsimp only
    | rfl
    | (intro s1 h1; dsimp only)
    | intro s1 h1)

theorem State.judgeEntry_kept {r s : State} (h : Kept r s) : Kept r (State.judgeEntry s) := by
  unfold State.judgeEntry
  repeat' (first
    | with_reducible
        first
        | assumption | apply KeptE.ok | apply KeptE.error | apply State.beginEntry_kept
        | apply State.transitionDone_kept | apply State.emcy_kept | refine Kept.ofE ‹_ = Except.ok _› ?_
    | split
    | dsimp only
    | (intro s1 h1; dsimp only)
    | intro s1 h1)

theorem State.readyCounts_kept {r s : State} (h : Kept r s) : Kept r (State.readyCounts s) := by
  unfold State.readyCounts
  repeat' (first
    | with_reducible first | assumption | apply State.os_kept | refine Kept.foldl (fun _ _ _ => ?_) _ ?_
    | (extract_lets +onlyGivenNames x
       first
       | (refine Kept.cut (r := r) (x := x) ?_ ?_ <;> first | (clear_value x; intro hx) | subst x)
       | subst x)
    | split
    | dsimp only
    | (intro s1 h1; dsimp only)
    | intro s1 h1)

theorem State.enterReady_kept {r s : State} (h : Kept r s) : Kept r (State.enterReady s) := by
  unfold State.enterReady
  repeat' (first
    | with_reducible
        first
        | assumption | apply Kept.ite | apply State.readyCounts_kept | apply State.pipReady_kept
        | apply State.sesameStart_kept | apply State.darugStart_kept | apply State.lanesStart_kept
        | apply State.emptyQueues_kept | apply State.clockStart_kept | apply State.os_kept
        | apply State.storeSets_kept | apply State.enterPower_kept | rfl
    | unfold State.setMem
    | unfold State.setMg
    | (simp only [Kept.lit, List.length_map]; with_reducible apply KeptCore.of)
    | (extract_lets +onlyGivenNames x
       first
       | (refine Kept.cut (r := r) (x := x) ?_ ?_ <;> first | (clear_value x; intro hx) | subst x)
       | subst x)
    | split
    | dsimp only
    | rfl)

theorem State.toDoze_kept {r s : State} (h : Kept r s) : Kept r (State.toDoze s) := by
  unfold State.toDoze
  repeat' (first
    | with_reducible
        first
        | assumption | apply Kept.ite | apply State.sunScan_kept | apply State.photonicOff_kept
        | apply State.clockStop_kept | apply State.pipDoze_kept | apply State.flaxStop_kept
        | apply State.sesameStop_kept | apply State.darugStop_kept | apply State.lanesStop_kept
        | apply State.emptyQueues_kept | apply State.enterPower_kept | rfl
    | unfold State.setMem
    | (simp only [Kept.lit, List.length_map]; with_reducible apply KeptCore.of)
    | (extract_lets +onlyGivenNames x
       first
       | (refine Kept.cut (r := r) (x := x) ?_ ?_ <;> first | (clear_value x; intro hx) | subst x)
       | subst x)
    | split
    | dsimp only
    | rfl)

theorem State.onward_kept {r s : State} (h : Kept r s) : Kept r (State.onward s) := by
  unfold State.onward
  repeat' (first
    | with_reducible
        first
        | assumption | apply State.transitionDone_kept | apply State.toDoze_kept | apply State.setPw_kept
        | apply State.judgeEntry_kept
    | split
    | dsimp only)

theorem State.moveDown_kept {r s : State} (h : Kept r s) (p : PowerState) : Kept r (State.moveDown s p) := by
  unfold State.moveDown
  repeat' (first
    | with_reducible
        first
        | assumption | apply Kept.ite | apply State.setPw_kept | apply State.onward_kept
        | apply State.transitionDone_kept | rfl
    | (simp only [Kept.lit]; with_reducible apply KeptCore.of)
    | (extract_lets +onlyGivenNames x
       first
       | (refine Kept.cut (r := r) (x := x) ?_ ?_ <;> first | (clear_value x; intro hx) | subst x)
       | subst x)
    | split
    | dsimp only
    | rfl)

theorem State.hostEnds_kept {r s : State} (h : Kept r s) : Kept r (State.hostEnds s) := by
  unfold State.hostEnds
  repeat' (first
    | with_reducible first | assumption | apply Kept.ite | apply State.unintend_kept | apply State.setPw_kept
    | (extract_lets +onlyGivenNames x
       first
       | (refine Kept.cut (r := r) (x := x) ?_ ?_ <;> first | (clear_value x; intro hx) | subst x)
       | subst x)
    | split
    | dsimp only)

theorem State.leaveDoze_kept {r s : State} (h : Kept r s) (p : PowerState) : Kept r (State.leaveDoze s p) := by
  unfold State.leaveDoze
  repeat' (first
    | with_reducible first | assumption | apply Kept.ite | apply State.setPw_kept | rfl
    | (simp only [Kept.lit]; with_reducible apply KeptCore.of)
    | (extract_lets +onlyGivenNames x
       first
       | (refine Kept.cut (r := r) (x := x) ?_ ?_ <;> first | (clear_value x; intro hx) | subst x)
       | subst x)
    | split
    | dsimp only
    | rfl)

/-! ## Energy -/

theorem State.setPod_kept {r s : State} (h : Kept r s) (f : Pod → Pod) : Kept r (State.setPod s f) := by
  unfold State.setPod
  repeat' (first
    | with_reducible first | assumption | rfl
    | (simp only [Kept.lit]; with_reducible apply KeptCore.of)
    | rfl)

theorem State.putBalance_kept {r s : State} (h : Kept r s) (b : Int) : Kept r (State.putBalance s b) := by
  unfold State.putBalance
  repeat' (first
    | with_reducible
        first
        | assumption | apply Kept.ite | apply State.setPod_kept | apply State.draw_kept | apply Kept.ite_snd
        | refine Kept.snd ‹_ = (_, _)› ?_
    | split
    | dsimp only)

theorem State.post_kept {r s : State} (h : Kept r s) (credit : Int) (debit : Int) :
    Kept r (State.post s credit debit) := by
  unfold State.post
  repeat' (first
    | with_reducible first | assumption | apply State.putBalance_kept)

theorem State.podSleep_kept {r s : State} (h : Kept r s) : Kept r (State.podSleep s) := by
  unfold State.podSleep
  repeat' (first
    | with_reducible
        first
        | assumption | apply Kept.ite | apply State.setPod_kept | apply State.os_kept | apply State.moveDown_kept
        | apply State.unintend_kept | apply State.settleIdle_kept
    | (extract_lets +onlyGivenNames x
       first
       | (refine Kept.cut (r := r) (x := x) ?_ ?_ <;> first | (clear_value x; intro hx) | subst x)
       | subst x)
    | split
    | dsimp only)

theorem State.ownSwitch_kept {r s : State} (h : Kept r s) (r' : Nat) : Kept r (State.ownSwitch s r') := by
  unfold State.ownSwitch
  repeat' (first
    | with_reducible first | assumption | apply Kept.ite | apply State.askSwitch_kept
    | split
    | dsimp only)

theorem State.managedEnter_kept {r s : State} (h : Kept r s) : Kept r (State.managedEnter s) := by
  unfold State.managedEnter
  repeat' (first
    | with_reducible
        first
        | assumption | apply Kept.ite | apply State.judgeEntry_kept | apply State.intend_kept
        | apply State.leaveDoze_kept
    | split
    | dsimp only)

theorem State.applyChoice_kept {r s : State} (h : Kept r s) : Kept r (State.applyChoice s) := by
  unfold State.applyChoice
  repeat' (first
    | with_reducible
        first
        | assumption | apply Kept.ite | apply State.os_kept | apply State.ownSwitch_kept | apply State.setPod_kept
        | apply State.managedEnter_kept | apply State.podSleep_kept | apply Kept.ite_snd
        | refine Kept.snd ‹_ = (_, _)› ?_
    | (extract_lets +onlyGivenNames x
       first
       | (refine Kept.cut (r := r) (x := x) ?_ ?_ <;> first | (clear_value x; intro hx) | subst x)
       | subst x)
    | split
    | dsimp only)

theorem State.rechoose_kept {r s : State} (h : Kept r s) : Kept r (State.rechoose s) := by
  unfold State.rechoose
  repeat' (first
    | with_reducible first | assumption | apply Kept.ite | apply State.applyChoice_kept)

theorem State.podJudge_kept {r s : State} (h : Kept r s) : Kept r (State.podJudge s) := by
  unfold State.podJudge
  repeat' (first
    | with_reducible
        first
        | assumption | apply Kept.ite | apply State.setPod_kept | apply State.osBit_kept | apply State.emcy_kept
        | apply State.chargeTo_kept | apply State.podSleep_kept | apply State.rechoose_kept
    | (extract_lets +onlyGivenNames x
       first
       | (refine Kept.cut (r := r) (x := x) ?_ ?_ <;> first | (clear_value x; intro hx) | subst x)
       | subst x)
    | split
    | dsimp only)

theorem State.podTick_kept {r s : State} (h : Kept r s) : Kept r (State.podTick s) := by
  unfold State.podTick
  repeat' (first
    | with_reducible
        first
        | assumption | apply Kept.ite | apply State.os_kept | apply State.setPod_kept | apply State.post_kept
    | (extract_lets +onlyGivenNames x
       first
       | (refine Kept.cut (r := r) (x := x) ?_ ?_ <;> first | (clear_value x; intro hx) | subst x)
       | subst x)
    | split
    | dsimp only)

theorem execPodSecond_kept {r s : State} (h : Kept r s) (t : Nat) : KeptO r (execPodSecond t s) := by
  unfold execPodSecond
  repeat' (first
    | with_reducible
        first
        | assumption | apply Kept.ite | apply KeptO.ite | apply KeptO.next | apply State.at_kept
        | apply State.podJudge_kept | apply State.podTick_kept
    | (extract_lets +onlyGivenNames x
       first
       | (refine Kept.cut (r := r) (x := x) ?_ ?_ <;> first | (clear_value x; intro hx) | subst x)
       | subst x)
    | split
    | dsimp only)

theorem incomeCredit_kept {r s : State} (h : Kept r s) (uj : Nat) : KeptE r (incomeCredit uj s) := by
  unfold incomeCredit
  repeat' (first
    | with_reducible
        first
        | assumption | apply KeptE.ok | apply KeptE.error | apply State.rechoose_kept | apply State.podJudge_kept
        | apply State.post_kept | refine Kept.ofE ‹_ = Except.ok _› ?_
    | (intro s1 h1; dsimp only)
    | intro s1 h1)

theorem execIncomeCredit_kept {r s : State} (h : Kept r s) (t : Nat) (c : Nat) (uj : Nat) :
    KeptO r (execIncomeCredit t c uj s) := by
  unfold execIncomeCredit
  repeat' (first
    | with_reducible
        first
        | assumption | apply KeptE.ok | apply KeptE.error | apply KeptO.next | apply State.hostWrite_kept
        | apply State.at_kept | apply incomeCredit_kept | refine Kept.ofE ‹_ = Except.ok _› ?_
    | (intro s1 h1; dsimp only)
    | intro s1 h1)

theorem balanceWrite_kept {r s : State} (h : Kept r s) (uj : Int) : KeptE r (balanceWrite uj s) := by
  unfold balanceWrite
  repeat' (first
    | with_reducible
        first
        | assumption | apply KeptE.ok | apply KeptE.error | apply State.rechoose_kept | apply State.podJudge_kept
        | apply State.setPod_kept | apply State.osBit_kept | apply State.putBalance_kept
        | refine Kept.ofE ‹_ = Except.ok _› ?_
    | (intro s1 h1; dsimp only)
    | intro s1 h1)

theorem execBalanceWrite_kept {r s : State} (h : Kept r s) (t : Nat) (c : Nat) (uj : Int) :
    KeptO r (execBalanceWrite t c uj s) := by
  unfold execBalanceWrite
  repeat' (first
    | with_reducible
        first
        | assumption | apply KeptE.ok | apply KeptE.error | apply KeptO.next | apply State.hostWrite_kept
        | apply State.at_kept | apply balanceWrite_kept | refine Kept.ofE ‹_ = Except.ok _› ?_
    | (intro s1 h1; dsimp only)
    | intro s1 h1)

theorem managedOperation_kept {r s : State} (h : Kept r s) (v : Nat) : KeptE r (managedOperation v s) := by
  unfold managedOperation
  repeat' (first
    | with_reducible
        first
        | assumption | apply KeptE.ok | apply KeptE.error | apply require_kept | apply State.rechoose_kept
        | apply State.osBit_kept | apply State.os_kept | refine Kept.ofE ‹_ = Except.ok _› ?_
    | (intro s1 h1; dsimp only)
    | intro s1 h1)

theorem execManagedOperation_kept {r s : State} (h : Kept r s) (t : Nat) (c : Nat) :
    KeptO r (execManagedOperation t c s) := by
  unfold execManagedOperation
  repeat' (first
    | with_reducible
        first
        | assumption | apply KeptE.ok | apply KeptE.error | apply KeptO.next | apply State.hostWrite_kept
        | apply State.at_kept | apply managedOperation_kept | refine Kept.ofE ‹_ = Except.ok _› ?_
    | (intro s1 h1; dsimp only)
    | intro s1 h1)

theorem holdWarm_kept {r s : State} (h : Kept r s) (v : Nat) : KeptE r (holdWarm v s) := by
  unfold holdWarm
  repeat' (first
    | with_reducible
        first
        | assumption | apply Kept.ite | apply KeptE.ite | apply KeptE.ok | apply KeptE.error | apply State.os_kept
        | apply State.rechoose_kept | apply State.warmUp_kept | apply State.photonicOff_kept
        | refine Kept.ofE ‹_ = Except.ok _› ?_
    | (extract_lets +onlyGivenNames x
       first
       | (refine Kept.cut (r := r) (x := x) ?_ ?_ <;> first | (clear_value x; intro hx) | subst x)
       | subst x)
    | split
    | dsimp only
    | (intro s1 h1; dsimp only)
    | intro s1 h1)

theorem execHoldWarmOn_kept {r s : State} (h : Kept r s) (t : Nat) (c : Nat) : KeptO r (execHoldWarmOn t c s) := by
  unfold execHoldWarmOn
  repeat' (first
    | with_reducible
        first
        | assumption | apply KeptE.ok | apply KeptE.error | apply KeptO.next | apply State.hostWrite_kept
        | apply State.at_kept | apply holdWarm_kept | refine Kept.ofE ‹_ = Except.ok _› ?_
    | (intro s1 h1; dsimp only)
    | intro s1 h1)

theorem execHoldWarmOff_kept {r s : State} (h : Kept r s) (t : Nat) (c : Nat) : KeptO r (execHoldWarmOff t c s) := by
  unfold execHoldWarmOff
  repeat' (first
    | with_reducible
        first
        | assumption | apply KeptE.ok | apply KeptE.error | apply KeptO.next | apply State.hostWrite_kept
        | apply State.at_kept | apply holdWarm_kept | refine Kept.ofE ‹_ = Except.ok _› ?_
    | (intro s1 h1; dsimp only)
    | intro s1 h1)

theorem execRungChoice_kept {r s : State} (h : Kept r s) (t : Nat) : KeptO r (execRungChoice t s) := by
  unfold execRungChoice
  repeat' (first
    | with_reducible first | assumption | apply KeptO.next | apply State.rechoose_kept | apply State.at_kept)

theorem execEnergyRefine_kept {r s : State} (h : Kept r s) (t : Nat) (mean : Nat) :
    KeptO r (execEnergyRefine t mean s) := by
  unfold execEnergyRefine
  repeat' (first
    | with_reducible
        first
        | assumption | apply Kept.ite | apply KeptO.ite | apply KeptO.next | apply State.at_kept
        | apply State.setPod_kept | apply State.os_kept | apply Kept.ite_snd | refine Kept.snd ‹_ = (_, _)› ?_
    | (extract_lets +onlyGivenNames x
       first
       | (refine Kept.cut (r := r) (x := x) ?_ ?_ <;> first | (clear_value x; intro hx) | subst x)
       | subst x)
    | split
    | dsimp only)

theorem execOnTimeEnd_kept {r s : State} (h : Kept r s) (t : Nat) : KeptO r (execOnTimeEnd t s) := by
  unfold execOnTimeEnd
  repeat' (first
    | with_reducible
        first
        | assumption | apply Kept.ite | apply KeptO.ite | apply KeptO.next | apply State.at_kept
        | apply State.moveDown_kept | apply State.unintend_kept
    | (extract_lets +onlyGivenNames x
       first
       | (refine Kept.cut (r := r) (x := x) ?_ ?_ <;> first | (clear_value x; intro hx) | subst x)
       | subst x)
    | split
    | dsimp only)

end Sys2Proof.Machine
end

