-- ==== Sys2Proof/Laws/KeptManage.lean ====
section
/-! SUPPORT. What Kept of Safety.lean says of each function of the model:
downloads, received frames, injection, management and update. -/

namespace Sys2Proof.Machine

open Sys2Proof

set_option linter.unusedSimpArgs false
set_option linter.unusedVariables false

/-! ## Download -/

theorem State.setUp_kept {r s : State} (h : Kept r s) (f : Update → Update) : Kept r (State.setUp s f) := by
  unfold State.setUp
  repeat' (first
    | with_reducible first | assumption | rfl
    | (simp only [Kept.lit]; with_reducible apply KeptCore.of)
    | rfl)

theorem State.programImage_kept {r s : State} (h : Kept r s) (off : Nat) (data : List Byte) :
    Kept r (State.programImage s off data) := by
  unfold State.programImage
  repeat' (first
    | with_reducible
        first
        | assumption | apply Kept.ite | apply State.draw_kept | apply State.setArea_kept | apply State.setUp_kept
        | apply Kept.ite_snd | refine Kept.foldl (fun _ _ _ => ?_) _ ?_ | refine Kept.snd ‹_ = (_, _)› ?_
    | (extract_lets +onlyGivenNames x
       first
       | (refine Kept.cut (r := r) (x := x) ?_ ?_ <;> first | (clear_value x; intro hx) | subst x)
       | subst x)
    | split
    | dsimp only
    | (intro s1 h1; dsimp only)
    | intro s1 h1)

theorem State.downloadFrame_kept {r s : State} (h : Kept r s) (target : Nat) (seq : Nat) (off : Nat) (data : List Byte) :
    Kept r (State.downloadFrame s target seq off data) := by
  unfold State.downloadFrame
  repeat' (first
    | with_reducible
        first
        | assumption | apply Kept.ite | apply State.rejectDownload_kept | apply State.oweControl_kept
        | apply State.dramWrite_kept | apply State.programImage_kept | rfl
    | (simp only [Kept.lit, length_modAt]; with_reducible apply KeptCore.of)
    | (extract_lets +onlyGivenNames x
       first
       | (refine Kept.cut (r := r) (x := x) ?_ ?_ <;> first | (clear_value x; intro hx) | subst x)
       | subst x)
    | split
    | dsimp only
    | rfl)

theorem downloadOpen_kept {r s : State} (h : Kept r s) : KeptE r (downloadOpen s) := by
  unfold downloadOpen
  repeat' (first
    | with_reducible
        first
        | assumption | apply KeptE.ok | apply KeptE.error | apply require_kept | apply State.setUp_kept
        | apply State.ds_kept | apply State.os_kept | refine Kept.ofE ‹_ = Except.ok _› ?_
    | (extract_lets +onlyGivenNames x
       first
       | (refine Kept.cut (r := r) (x := x) ?_ ?_ <;> first | (clear_value x; intro hx) | subst x)
       | subst x)
    | split
    | dsimp only
    | (intro s1 h1; dsimp only)
    | intro s1 h1)

theorem execDownloadOpen_kept {r s : State} (h : Kept r s) (t : Nat) (c : Nat) : KeptO r (execDownloadOpen t c s) := by
  unfold execDownloadOpen
  repeat' (first
    | with_reducible
        first
        | assumption | apply KeptE.ok | apply KeptE.error | apply KeptO.next | apply State.hostWrite_kept
        | apply State.at_kept | apply downloadOpen_kept | refine Kept.ofE ‹_ = Except.ok _› ?_
    | (intro s1 h1; dsimp only)
    | intro s1 h1)

theorem downloadClose_kept {r s : State} (h : Kept r s) : KeptE r (downloadClose s) := by
  unfold downloadClose
  repeat' (first
    | with_reducible
        first
        | assumption | apply KeptE.ok | apply KeptE.error | apply require_kept | apply State.os_kept
        | refine Kept.ofE ‹_ = Except.ok _› ?_
    | (intro s1 h1; dsimp only)
    | intro s1 h1)

theorem execDownloadClose_kept {r s : State} (h : Kept r s) (t : Nat) (c : Nat) :
    KeptO r (execDownloadClose t c s) := by
  unfold execDownloadClose
  repeat' (first
    | with_reducible
        first
        | assumption | apply KeptE.ok | apply KeptE.error | apply KeptO.next | apply State.hostWrite_kept
        | apply State.at_kept | apply downloadClose_kept | refine Kept.ofE ‹_ = Except.ok _› ?_
    | (intro s1 h1; dsimp only)
    | intro s1 h1)

theorem downloadAbandon_kept {r s : State} (h : Kept r s) : KeptE r (downloadAbandon s) := by
  unfold downloadAbandon
  repeat' (first
    | with_reducible
        first
        | assumption | apply KeptE.ok | apply KeptE.error | apply State.setUp_kept | apply State.os_kept
        | refine Kept.ofE ‹_ = Except.ok _› ?_
    | (intro s1 h1; dsimp only)
    | intro s1 h1)

theorem execDownloadAbandon_kept {r s : State} (h : Kept r s) (t : Nat) (c : Nat) :
    KeptO r (execDownloadAbandon t c s) := by
  unfold execDownloadAbandon
  repeat' (first
    | with_reducible
        first
        | assumption | apply KeptE.ok | apply KeptE.error | apply KeptO.next | apply State.hostWrite_kept
        | apply State.at_kept | apply downloadAbandon_kept | refine Kept.ofE ‹_ = Except.ok _› ?_
    | (intro s1 h1; dsimp only)
    | intro s1 h1)

theorem canFdData_kept {r s : State} (h : Kept r s) (data : List Byte) : KeptE r (canFdData data s) := by
  unfold canFdData
  repeat' (first
    | with_reducible
        first
        | assumption | apply KeptE.ok | apply KeptE.error | apply require_kept | apply State.programImage_kept
        | refine Kept.ofE ‹_ = Except.ok _› ?_
    | (intro s1 h1; dsimp only)
    | intro s1 h1)

theorem execCanFdData_kept {r s : State} (h : Kept r s) (t : Nat) (c : Nat) (data : List Byte) :
    KeptO r (execCanFdData t c data s) := by
  unfold execCanFdData
  repeat' (first
    | with_reducible
        first
        | assumption | apply KeptE.ok | apply KeptE.error | apply KeptO.next | apply State.hostWrite_kept
        | apply State.at_kept | apply canFdData_kept | refine Kept.ofE ‹_ = Except.ok _› ?_
    | (intro s1 h1; dsimp only)
    | intro s1 h1)

theorem execDownloadVerifyEnd_kept {r s : State} (h : Kept r s) (t : Nat) : KeptO r (execDownloadVerifyEnd t s) := by
  unfold execDownloadVerifyEnd
  repeat' (first
    | with_reducible
        first
        | assumption | apply Kept.ite | apply KeptO.ite | apply KeptO.next | apply State.at_kept | apply State.ds_kept
        | apply State.os_kept | apply State.setUp_kept | refine Kept.foldl (fun _ _ _ => ?_) _ ?_
    | (extract_lets +onlyGivenNames x
       first
       | (refine Kept.cut (r := r) (x := x) ?_ ?_ <;> first | (clear_value x; intro hx) | subst x)
       | subst x)
    | split
    | dsimp only
    | (intro s1 h1; dsimp only)
    | intro s1 h1)

/-! ## RxFrames -/

theorem State.rxProcess_kept {r s : State} (h : Kept r s) (m : Nat) (f : RxFrame) : Kept r (State.rxProcess s m f) := by
  unfold State.rxProcess
  repeat' (first
    | with_reducible
        first
        | assumption | apply Kept.ite | apply State.creditFrame_kept | apply State.received_kept
        | apply State.replayFrame_kept | apply State.hostStatusFrame_kept | apply State.downloadFrame_kept
        | apply State.rejectDownload_kept | apply State.bump_kept
    | split
    | dsimp only)

theorem State.releaseRx_kept {r s : State} (h : Kept r s) (due : Nat → Bool) : Kept r (State.releaseRx s due) := by
  unfold State.releaseRx
  repeat' (first
    | with_reducible first | assumption | apply State.rxProcess_kept | refine Kept.foldl (fun _ _ _ => ?_) _ ?_ | rfl
    | (simp only [Kept.lit]; with_reducible apply KeptCore.of)
    | (extract_lets +onlyGivenNames x
       first
       | (refine Kept.cut (r := r) (x := x) ?_ ?_ <;> first | (clear_value x; intro hx) | subst x)
       | subst x)
    | split
    | dsimp only
    | rfl
    | (intro s1 h1; dsimp only)
    | intro s1 h1)

theorem State.rxFrame_kept {r s : State} (h : Kept r s) (m : Nat) (f : RxFrame) : Kept r (State.rxFrame s m f) := by
  unfold State.rxFrame
  repeat' (first
    | with_reducible
        first
        | assumption | apply Kept.ite | apply State.releaseRx_kept | apply State.rxProcess_kept
        | apply State.candidate_kept | apply Kept.ite_snd | refine Kept.snd ‹_ = (_, _)› ?_ | rfl
    | (simp only [Kept.lit]; with_reducible apply KeptCore.of)
    | (extract_lets +onlyGivenNames x
       first
       | (refine Kept.cut (r := r) (x := x) ?_ ?_ <;> first | (clear_value x; intro hx) | subst x)
       | subst x)
    | split
    | dsimp only
    | rfl)

theorem execCredit_kept {r s : State} (h : Kept r s) (t : Nat) (lane : Nat) (words : List Nat) :
    KeptO r (execCredit t lane words s) := by
  unfold execCredit
  repeat' (first
    | with_reducible first | assumption | apply KeptO.next | apply State.rxFrame_kept | apply State.at_kept)

theorem execReplayRequest_kept {r s : State} (h : Kept r s) (t : Nat) (lane : Nat) (entries : List (Nat × Nat × Nat)) :
    KeptO r (execReplayRequest t lane entries s) := by
  unfold execReplayRequest
  repeat' (first
    | with_reducible first | assumption | apply KeptO.next | apply State.rxFrame_kept | apply State.at_kept)

theorem execHostStatus_kept {r s : State} (h : Kept r s) (t : Nat) (lane : Nat) (mask : Nat) :
    KeptO r (execHostStatus t lane mask s) := by
  unfold execHostStatus
  repeat' (first
    | with_reducible first | assumption | apply KeptO.next | apply State.rxFrame_kept | apply State.at_kept)

theorem execDownload_kept {r s : State} (h : Kept r s) (t : Nat) (lane : Nat) (target : Nat) (seq : Nat)
    (offset : Nat) (data : List Byte) :
    KeptO r (execDownload t lane target seq offset data s) := by
  unfold execDownload
  repeat' (first
    | with_reducible first | assumption | apply KeptO.next | apply State.rxFrame_kept | apply State.at_kept)

theorem execHostFrameDrop_kept {r s : State} (h : Kept r s) (t : Nat) (lane : Dropped) :
    KeptO r (execHostFrameDrop t lane s) := by
  unfold execHostFrameDrop
  repeat' (first
    | with_reducible first | assumption | apply KeptO.next | apply State.rxFrame_kept | apply State.at_kept)

/-! ## Inject -/

theorem State.injectLock_kept {r s : State} (h : Kept r s) : Kept r (State.injectLock s) := by
  unfold State.injectLock
  repeat' (first
    | with_reducible
        first
        | assumption | apply Kept.ite | apply State.injectTell_kept | apply State.releaseRx_kept
        | apply State.releaseHeld_kept | apply State.os_kept
    | (extract_lets +onlyGivenNames x
       first
       | (refine Kept.cut (r := r) (x := x) ?_ ?_ <;> first | (clear_value x; intro hx) | subst x)
       | subst x)
    | split
    | dsimp only)

theorem unlock_kept {r s : State} (h : Kept r s) (v : Nat) : KeptE r (unlock v s) := by
  unfold unlock
  repeat' (first
    | with_reducible
        first
        | assumption | apply Kept.ite | apply KeptE.ite | apply KeptE.ok | apply KeptE.error | apply require_kept
        | apply State.os_kept | refine Kept.ofE ‹_ = Except.ok _› ?_
    | (intro s1 h1; dsimp only)
    | intro s1 h1)

theorem execUnlock_kept {r s : State} (h : Kept r s) (t : Nat) (c : Nat) : KeptO r (execUnlock t c s) := by
  unfold execUnlock
  repeat' (first
    | with_reducible
        first
        | assumption | apply KeptE.ok | apply KeptE.error | apply KeptO.next | apply State.hostWrite_kept
        | apply State.at_kept | apply unlock_kept | refine Kept.ofE ‹_ = Except.ok _› ?_
    | (intro s1 h1; dsimp only)
    | intro s1 h1)

theorem injectionStart_kept {r s : State} (h : Kept r s) : KeptE r (injectionStart s) := by
  unfold injectionStart
  repeat' (first
    | with_reducible
        first
        | assumption | apply KeptE.ok | apply KeptE.error | apply require_kept | apply State.injectTell_kept
        | apply State.os_kept | refine Kept.ofE ‹_ = Except.ok _› ?_ | rfl
    | (simp only [Kept.lit]; with_reducible apply KeptCore.of)
    | (extract_lets +onlyGivenNames x
       first
       | (refine Kept.cut (r := r) (x := x) ?_ ?_ <;> first | (clear_value x; intro hx) | subst x)
       | subst x)
    | split
    | dsimp only
    | rfl
    | (intro s1 h1; dsimp only)
    | intro s1 h1)

theorem execInjectionStart_kept {r s : State} (h : Kept r s) (t : Nat) (c : Nat) :
    KeptO r (execInjectionStart t c s) := by
  unfold execInjectionStart
  repeat' (first
    | with_reducible
        first
        | assumption | apply KeptE.ok | apply KeptE.error | apply KeptO.next | apply State.hostWrite_kept
        | apply State.at_kept | apply injectionStart_kept | refine Kept.ofE ‹_ = Except.ok _› ?_
    | (intro s1 h1; dsimp only)
    | intro s1 h1)

theorem injectionStop_kept {r s : State} (h : Kept r s) : KeptE r (injectionStop s) := by
  unfold injectionStop
  repeat' (first
    | with_reducible
        first
        | assumption | apply Kept.ite | apply KeptE.ite | apply KeptE.ok | apply KeptE.error | apply require_kept
        | apply State.injectTell_kept | apply State.os_kept | refine Kept.ofE ‹_ = Except.ok _› ?_
    | (intro s1 h1; dsimp only)
    | intro s1 h1)

theorem execInjectionStop_kept {r s : State} (h : Kept r s) (t : Nat) (c : Nat) :
    KeptO r (execInjectionStop t c s) := by
  unfold execInjectionStop
  repeat' (first
    | with_reducible
        first
        | assumption | apply KeptE.ok | apply KeptE.error | apply KeptO.next | apply State.hostWrite_kept
        | apply State.at_kept | apply injectionStop_kept | refine Kept.ofE ‹_ = Except.ok _› ?_
    | (intro s1 h1; dsimp only)
    | intro s1 h1)

theorem execReorderHoldTimeout_kept {r s : State} (h : Kept r s) (t : Nat) : KeptO r (execReorderHoldTimeout t s) := by
  unfold execReorderHoldTimeout
  repeat' (first
    | with_reducible
        first
        | assumption | apply KeptO.next | apply State.at_kept | apply State.releaseRx_kept
        | apply State.releaseDue_kept
    | (extract_lets +onlyGivenNames x
       first
       | (refine Kept.cut (r := r) (x := x) ?_ ?_ <;> first | (clear_value x; intro hx) | subst x)
       | subst x)
    | split
    | dsimp only)

/-! ## Manage -/

theorem State.putSettings_kept {r s : State} (h : Kept r s) (area : Nat) (l : List (Nat × Nat)) :
    Kept r (State.putSettings s area l) := by
  unfold State.putSettings
  repeat' (first
    | with_reducible first | assumption | apply Kept.ite | apply State.setPw_kept)

theorem State.storeSetting_kept {r s : State} (h : Kept r s) (k : Nat) (v : Nat) :
    Kept r (State.storeSetting s k v) := by
  unfold State.storeSetting
  repeat' (first
    | with_reducible first | assumption | apply State.putSettings_kept)

theorem State.bootKind_kept {r s : State} (h : Kept r s) (data : Bool) : Kept r (State.bootKind s data).2 := by
  unfold State.bootKind
  repeat' (first
    | with_reducible
        first
        | assumption | apply Kept.ite | apply State.writeBoot_kept | apply State.putSettings_kept
        | apply State.os_kept | apply Kept.ite_snd | refine Kept.snd ‹_ = (_, _)› ?_
    | (extract_lets +onlyGivenNames x
       first
       | (refine Kept.cut (r := r) (x := x) ?_ ?_ <;> first | (clear_value x; intro hx) | subst x)
       | subst x)
    | split
    | dsimp only)

theorem State.bootWalnut_kept {r s : State} (h : Kept r s) : Kept r (State.bootWalnut s) := by
  unfold State.bootWalnut
  repeat' (first
    | with_reducible
        first
        | assumption | apply Kept.ite | apply State.bootKind_kept | apply State.os_kept | apply Kept.ite_snd
        | refine Kept.snd ‹_ = (_, _)› ?_
    | (extract_lets +onlyGivenNames x
       first
       | (refine Kept.cut (r := r) (x := x) ?_ ?_ <;> first | (clear_value x; intro hx) | subst x)
       | subst x)
    | split
    | dsimp only)

theorem State.loadLibrary_kept {r s : State} (h : Kept r s) : Kept r (State.loadLibrary s) := by
  unfold State.loadLibrary
  repeat' (first
    | with_reducible
        first
        | assumption | apply State.bootKind_kept | apply State.setPw_kept | refine Kept.snd ‹_ = (_, _)› ?_
    | split
    | dsimp only)

theorem State.endSession_kept {r s : State} (h : Kept r s) : Kept r (State.endSession s) := by
  unfold State.endSession
  repeat' (first
    | with_reducible first | assumption | apply State.os_kept | rfl
    | (simp only [Kept.lit]; with_reducible apply KeptCore.of)
    | (extract_lets +onlyGivenNames x
       first
       | (refine Kept.cut (r := r) (x := x) ?_ ?_ <;> first | (clear_value x; intro hx) | subst x)
       | subst x)
    | split
    | dsimp only
    | rfl)

theorem State.failLong_kept {r s : State} (h : Kept r s) : Kept r (State.failLong s) := by
  unfold State.failLong
  repeat' (first
    | with_reducible
        first
        | assumption | apply Kept.ite | apply State.draw_kept | apply State.os_kept | apply State.setPip_kept
        | apply State.endBiasSearch_kept | apply State.showPip_kept | apply State.endLong_kept | apply Kept.ite_snd
        | refine Kept.snd ‹_ = (_, _)› ?_
    | (extract_lets +onlyGivenNames x
       first
       | (refine Kept.cut (r := r) (x := x) ?_ ?_ <;> first | (clear_value x; intro hx) | subst x)
       | subst x)
    | split
    | dsimp only)

theorem State.restartWalnut_kept {r s : State} (h : Kept r s) (cause : Nat) : Kept r (State.restartWalnut s cause) := by
  unfold State.restartWalnut
  repeat' (first
    | with_reducible
        first
        | assumption | apply Kept.ite | apply State.endSession_kept | apply State.failLong_kept
        | apply State.failPrepare_kept | apply State.os_kept | apply State.injectLock_kept | rfl
    | (simp only [Kept.lit]; with_reducible apply KeptCore.of)
    | (extract_lets +onlyGivenNames x
       first
       | (refine Kept.cut (r := r) (x := x) ?_ ?_ <;> first | (clear_value x; intro hx) | subst x)
       | subst x)
    | split
    | dsimp only
    | rfl)

theorem execWatchdog_kept {r s : State} (h : Kept r s) (t : Nat) : KeptO r (execWatchdog t s) := by
  unfold execWatchdog
  repeat' (first
    | with_reducible first | assumption | apply KeptO.next | apply State.restartWalnut_kept | apply State.at_kept)

theorem execRestartWalnut_kept {r s : State} (h : Kept r s) (t : Nat) (c : Nat) :
    KeptO r (execRestartWalnut t c s) := by
  unfold execRestartWalnut
  repeat' (first
    | with_reducible
        first
        | assumption | apply KeptE.ok | apply KeptE.error | apply KeptO.next | apply State.hostWrite_kept
        | apply State.at_kept | apply State.restartWalnut_kept | refine Kept.ofE ‹_ = Except.ok _› ?_
    | (intro s1 h1; dsimp only)
    | intro s1 h1)

theorem execWalnutException_kept {r s : State} (h : Kept r s) (t : Nat) : KeptO r (execWalnutException t s) := by
  unfold execWalnutException
  repeat' (first
    | with_reducible first | assumption | apply KeptO.next | apply State.restartWalnut_kept | apply State.at_kept)

theorem State.bootNode_kept {r s : State} (h : Kept r s) : Kept r (State.bootNode s) := by
  unfold State.bootNode
  repeat' (first
    | with_reducible first | assumption | apply State.os_kept | rfl
    | (simp only [Kept.lit]; with_reducible apply KeptCore.of)
    | (extract_lets +onlyGivenNames x
       first
       | (refine Kept.cut (r := r) (x := x) ?_ ?_ <;> first | (clear_value x; intro hx) | subst x)
       | subst x)
    | split
    | dsimp only
    | rfl)

theorem State.walnutBack_kept {r s : State} (h : Kept r s) : Kept r (State.walnutBack s) := by
  unfold State.walnutBack
  repeat' (first
    | with_reducible
        first
        | assumption | apply Kept.ite | apply State.bootNode_kept | apply State.bootWalnut_kept
        | apply State.post_kept | apply State.emcy_kept | apply State.bump_kept | apply State.log_kept
        | apply State.moveDown_kept | apply State.lanesStart_kept | apply State.podJudge_kept | rfl
    | (simp only [Kept.lit]; with_reducible apply KeptCore.of)
    | (extract_lets +onlyGivenNames x
       first
       | (refine Kept.cut (r := r) (x := x) ?_ ?_ <;> first | (clear_value x; intro hx) | subst x)
       | subst x)
    | split
    | dsimp only
    | rfl)

theorem execWalnutRestartDone_kept {r s : State} (h : Kept r s) (t : Nat) : KeptO r (execWalnutRestartDone t s) := by
  unfold execWalnutRestartDone
  repeat' (first
    | with_reducible
        first
        | assumption | apply Kept.ite | apply KeptO.ite | apply KeptO.next | apply State.at_kept
        | apply State.walnutBack_kept
    | (extract_lets +onlyGivenNames x
       first
       | (refine Kept.cut (r := r) (x := x) ?_ ?_ <;> first | (clear_value x; intro hx) | subst x)
       | subst x)
    | split
    | dsimp only)

theorem State.warnTemp_kept {r s : State} (h : Kept r s) (temps : List Int) : Kept r (State.warnTemp s temps) := by
  unfold State.warnTemp
  repeat' (first
    | with_reducible
        first
        | assumption | apply Kept.ite | apply State.log_kept | apply State.emcy_kept | apply State.osBit_kept
    | (extract_lets +onlyGivenNames x
       first
       | (refine Kept.cut (r := r) (x := x) ?_ ?_ <;> first | (clear_value x; intro hx) | subst x)
       | subst x)
    | split
    | dsimp only)

theorem State.criticalTemp_kept {r s : State} (h : Kept r s) (temps : List Int) :
    Kept r (State.criticalTemp s temps) := by
  unfold State.criticalTemp
  repeat' (first
    | with_reducible
        first
        | assumption | apply Kept.ite | apply State.osBit_kept | apply State.log_kept | apply State.emcy_kept
        | apply State.moveDown_kept | apply State.chargeTo_kept | rfl
    | unfold State.setMg
    | (simp only [Kept.lit]; with_reducible apply KeptCore.of)
    | (extract_lets +onlyGivenNames x
       first
       | (refine Kept.cut (r := r) (x := x) ?_ ?_ <;> first | (clear_value x; intro hx) | subst x)
       | subst x)
    | split
    | dsimp only
    | rfl)

theorem execTemperatureReading_kept {r s : State} (h : Kept r s) (t : Nat) (temps : List Int) :
    KeptO r (execTemperatureReading t temps s) := by
  unfold execTemperatureReading
  repeat' (first
    | with_reducible
        first
        | assumption | apply Kept.ite | apply KeptO.ite | apply KeptO.next | apply State.at_kept
        | apply State.osI_kept | apply State.criticalTemp_kept | apply State.warnTemp_kept
        | refine Kept.foldl (fun _ _ _ => ?_) _ ?_
    | (extract_lets +onlyGivenNames x
       first
       | (refine Kept.cut (r := r) (x := x) ?_ ?_ <;> first | (clear_value x; intro hx) | subst x)
       | subst x)
    | split
    | dsimp only
    | (intro s1 h1; dsimp only)
    | intro s1 h1)

theorem execLogEntry_kept {r s : State} (h : Kept r s) (t : Nat) : KeptO r (execLogEntry t s) := by
  unfold execLogEntry
  repeat' (first
    | with_reducible
        first
        | assumption | apply Kept.ite | apply KeptO.ite | apply KeptO.next | apply State.at_kept
        | apply State.offer_kept | apply Kept.ite_snd | refine Kept.snd ‹_ = (_, _)› ?_ | rfl | exact swf_nil _
        | apply swf_memWrite | apply swf_sput | apply swf_memClear
    | unfold State.setMg
    | (have k := State.Sound.log (Kept.toSound ‹Kept r _›); simp only [*, List.length_cons] at k; omega)
    | (simp only [Kept.lit]; with_reducible apply KeptCore.units)
    | ((with_reducible
        first
        | apply State.Sound.dram | apply State.Sound.cashew | apply State.Sound.data | apply State.Sound.program
        | apply State.Sound.rungs | apply State.Sound.optics | apply State.Sound.das | apply State.Sound.poppy
        | apply State.Sound.engines | apply State.Sound.zones | apply State.Sound.seqs | apply State.Sound.captures
        | apply State.Sound.queues | apply State.Sound.flax | apply State.Sound.tx | apply State.Sound.rx
        | apply State.Sound.emcy | apply State.Sound.log); with_reducible apply Kept.toSound)
    | (simp only [List.length_replicate]; done)
    | (extract_lets +onlyGivenNames x
       first
       | (refine Kept.cut (r := r) (x := x) ?_ ?_ <;> first | (clear_value x; intro hx) | subst x)
       | subst x)
    | split
    | dsimp only
    | rfl)

theorem logSelect_kept {r s : State} (h : Kept r s) (number : Nat) : KeptE r (logSelect number s) := by
  unfold logSelect
  repeat' (first
    | with_reducible
        first
        | assumption | apply KeptE.ok | apply KeptE.error | apply State.ds_kept | apply State.os_kept
        | refine Kept.ofE ‹_ = Except.ok _› ?_
    | split
    | dsimp only
    | (intro s1 h1; dsimp only)
    | intro s1 h1)

theorem execLogSelect_kept {r s : State} (h : Kept r s) (t : Nat) (c : Nat) (number : Nat) :
    KeptO r (execLogSelect t c number s) := by
  unfold execLogSelect
  repeat' (first
    | with_reducible
        first
        | assumption | apply KeptE.ok | apply KeptE.error | apply KeptO.next | apply State.hostWrite_kept
        | apply State.at_kept | apply logSelect_kept | refine Kept.ofE ‹_ = Except.ok _› ?_
    | (intro s1 h1; dsimp only)
    | intro s1 h1)

theorem State.showMonitor_kept {r s : State} (h : Kept r s) (i : Nat) : Kept r (State.showMonitor s i) := by
  unfold State.showMonitor
  repeat' (first
    | with_reducible first | assumption | apply State.osI_kept | apply State.os_kept
    | (extract_lets +onlyGivenNames x
       first
       | (refine Kept.cut (r := r) (x := x) ?_ ?_ <;> first | (clear_value x; intro hx) | subst x)
       | subst x)
    | split
    | dsimp only)

theorem State.marginAction_kept {r s : State} (h : Kept r s) (i : Nat) (new : Nat) :
    Kept r (State.marginAction s i new) := by
  unfold State.marginAction
  repeat' (first
    | with_reducible
        first
        | assumption | apply State.draw_kept | apply State.log_kept | apply State.os_kept
        | refine Kept.snd ‹_ = (_, _)› ?_
    | split
    | dsimp only)

theorem State.acornAct_kept {r s : State} (h : Kept r s) (i : Nat) : Kept r (State.acornAct s i) := by
  unfold State.acornAct
  repeat' (first
    | with_reducible
        first
        | assumption | apply Kept.ite | apply State.draw_kept | apply State.os_kept | apply State.marginAction_kept
        | apply Kept.ite_snd | refine Kept.snd ‹_ = (_, _)› ?_ | rfl
    | unfold State.setMg
    | (simp only [Kept.lit]; with_reducible apply KeptCore.of)
    | (extract_lets +onlyGivenNames x
       first
       | (refine Kept.cut (r := r) (x := x) ?_ ?_ <;> first | (clear_value x; intro hx) | subst x)
       | subst x)
    | split
    | dsimp only
    | rfl)

theorem execAcornMeasurement_kept {r s : State} (h : Kept r s) (t : Nat) (monitor : Nat) (value : Int) :
    KeptO r (execAcornMeasurement t monitor value s) := by
  unfold execAcornMeasurement
  repeat' (first
    | with_reducible
        first
        | assumption | apply Kept.ite | apply KeptO.ite | apply KeptO.next | apply State.at_kept
        | apply State.showMonitor_kept | apply State.log_kept | apply State.acornAct_kept | apply Kept.ite_snd
        | refine Kept.snd ‹_ = (_, _)› ?_ | rfl
    | unfold State.setMg
    | (simp only [Kept.lit, length_modAt]; with_reducible apply KeptCore.of)
    | (extract_lets +onlyGivenNames x
       first
       | (refine Kept.cut (r := r) (x := x) ?_ ?_ <;> first | (clear_value x; intro hx) | subst x)
       | subst x)
    | split
    | dsimp only
    | rfl)

theorem State.setAvs_kept {r s : State} (h : Kept r s) (mv : Nat) : Kept r (State.setAvs s mv) := by
  unfold State.setAvs
  repeat' (first
    | with_reducible
        first
        | assumption | apply State.os_kept | apply State.marginAction_kept | apply State.emit_kept | rfl
    | unfold State.setMg
    | (simp only [Kept.lit, length_modAt]; with_reducible apply KeptCore.of)
    | (extract_lets +onlyGivenNames x
       first
       | (refine Kept.cut (r := r) (x := x) ?_ ?_ <;> first | (clear_value x; intro hx) | subst x)
       | subst x)
    | split
    | dsimp only
    | rfl)

theorem execAvsStep_kept {r s : State} (h : Kept r s) (t : Nat) (up : Bool) (acked : Bool) :
    KeptO r (execAvsStep t up acked s) := by
  unfold execAvsStep
  repeat' (first
    | with_reducible
        first
        | assumption | apply Kept.ite | apply KeptO.ite | apply KeptO.next | apply State.at_kept
        | apply State.setAvs_kept | rfl
    | unfold State.setMg
    | (simp only [Kept.lit]; with_reducible apply KeptCore.of)
    | (extract_lets +onlyGivenNames x
       first
       | (refine Kept.cut (r := r) (x := x) ?_ ?_ <;> first | (clear_value x; intro hx) | subst x)
       | subst x)
    | split
    | dsimp only
    | rfl)

theorem execPmbusRetry_kept {r s : State} (h : Kept r s) (t : Nat) (acked : Bool) :
    KeptO r (execPmbusRetry t acked s) := by
  unfold execPmbusRetry
  repeat' (first
    | with_reducible
        first
        | assumption | apply Kept.ite | apply KeptO.ite | apply KeptO.next | apply State.at_kept
        | apply State.setAvs_kept | apply State.log_kept | rfl
    | unfold State.setMg
    | (simp only [Kept.lit]; with_reducible apply KeptCore.of)
    | (extract_lets +onlyGivenNames x
       first
       | (refine Kept.cut (r := r) (x := x) ?_ ?_ <;> first | (clear_value x; intro hx) | subst x)
       | subst x)
    | split
    | dsimp only
    | rfl)

theorem execPlanDerating_kept {r s : State} (h : Kept r s) (t : Nat) : KeptO r (execPlanDerating t s) := by
  unfold execPlanDerating
  repeat' (first
    | with_reducible
        first
        | assumption | apply Kept.ite | apply KeptO.ite | apply KeptO.next | apply State.at_kept | apply State.os_kept
        | apply State.marginAction_kept | rfl
    | unfold State.setLad
    | (simp only [Kept.lit]; with_reducible apply KeptCore.of)
    | (extract_lets +onlyGivenNames x
       first
       | (refine Kept.cut (r := r) (x := x) ?_ ?_ <;> first | (clear_value x; intro hx) | subst x)
       | subst x)
    | split
    | dsimp only
    | rfl)

theorem ledgerReset_kept {r s : State} (h : Kept r s) : KeptE r (ledgerReset s) := by
  unfold ledgerReset
  repeat' (first
    | with_reducible
        first
        | assumption | apply KeptE.ok | apply KeptE.error | apply State.settleIdle_kept
        | refine Kept.ofE ‹_ = Except.ok _› ?_ | rfl
    | unfold State.setMg
    | (simp only [Kept.lit, length_rep]; with_reducible apply KeptCore.of)
    | rfl
    | (intro s1 h1; dsimp only)
    | intro s1 h1)

theorem execLedgerReset_kept {r s : State} (h : Kept r s) (t : Nat) (c : Nat) : KeptO r (execLedgerReset t c s) := by
  unfold execLedgerReset
  repeat' (first
    | with_reducible
        first
        | assumption | apply KeptE.ok | apply KeptE.error | apply KeptO.next | apply State.hostWrite_kept
        | apply State.at_kept | apply ledgerReset_kept | refine Kept.ofE ‹_ = Except.ok _› ?_
    | (intro s1 h1; dsimp only)
    | intro s1 h1)

/-! ## Update -/

theorem State.returnGrant_kept {r s : State} (h : Kept r s) : Kept r (State.returnGrant s) := by
  unfold State.returnGrant
  repeat' (first
    | with_reducible first | assumption | apply Kept.ite | apply State.setDr_kept | apply State.tellHead_kept)

theorem execUpdate_kept {r s : State} (h : Kept r s) (t : Nat) (src : Nat) (give : Nat) :
    KeptO r (execUpdate t src give s) := by
  unfold execUpdate
  repeat' (first
    | with_reducible
        first
        | assumption | apply Kept.ite | apply KeptO.ite | apply KeptO.next | apply State.at_kept
        | apply State.setDr_kept | apply State.tellChain_kept | apply State.relay_kept
    | (extract_lets +onlyGivenNames x
       first
       | (refine Kept.cut (r := r) (x := x) ?_ ?_ <;> first | (clear_value x; intro hx) | subst x)
       | subst x)
    | split
    | dsimp only)

theorem imagePrepare_kept {r s : State} (h : Kept r s) : KeptE r (imagePrepare s) := by
  unfold imagePrepare
  repeat' (first
    | with_reducible
        first
        | assumption | apply Kept.ite | apply KeptE.ite | apply KeptE.ok | apply KeptE.error | apply require_kept
        | apply State.tellHead_kept | apply State.startLong_kept | refine Kept.ofE ‹_ = Except.ok _› ?_
    | (extract_lets +onlyGivenNames x
       first
       | (refine Kept.cut (r := r) (x := x) ?_ ?_ <;> first | (clear_value x; intro hx) | subst x)
       | subst x)
    | split
    | dsimp only
    | (intro s1 h1; dsimp only)
    | intro s1 h1)

theorem execImagePrepare_kept {r s : State} (h : Kept r s) (t : Nat) (c : Nat) : KeptO r (execImagePrepare t c s) := by
  unfold execImagePrepare
  repeat' (first
    | with_reducible
        first
        | assumption | apply KeptE.ok | apply KeptE.error | apply KeptO.next | apply State.hostWrite_kept
        | apply State.at_kept | apply imagePrepare_kept | refine Kept.ofE ‹_ = Except.ok _› ?_
    | (intro s1 h1; dsimp only)
    | intro s1 h1)

theorem State.prepareResult_kept {r s : State} (h : Kept r s) (kind : Nat) (b : List Byte) (flashFailed : Bool) :
    Kept r (State.prepareResult s kind b flashFailed).2 := by
  unfold State.prepareResult
  repeat' (first
    | with_reducible
        first
        | assumption | apply Kept.ite | apply State.draw_kept | apply Kept.ite_snd | refine Kept.snd ‹_ = (_, _)› ?_
    | (extract_lets +onlyGivenNames x
       first
       | (refine Kept.cut (r := r) (x := x) ?_ ?_ <;> first | (clear_value x; intro hx) | subst x)
       | subst x)
    | split
    | dsimp only)

theorem State.endPrepare_kept {r s : State} (h : Kept r s) (kind : Nat) (b : List Byte) (flashFailed : Bool) :
    Kept r (State.endPrepare s kind b flashFailed).2 := by
  unfold State.endPrepare
  repeat' (first
    | with_reducible
        first
        | assumption | apply Kept.ite | apply State.prepareResult_kept | apply State.os_kept | apply State.setUp_kept
        | apply State.returnGrant_kept | apply Kept.ite_snd | refine Kept.snd ‹_ = (_, _)› ?_
    | (extract_lets +onlyGivenNames x
       first
       | (refine Kept.cut (r := r) (x := x) ?_ ?_ <;> first | (clear_value x; intro hx) | subst x)
       | subst x)
    | split
    | dsimp only)

theorem State.takeImage_kept {r s : State} (h : Kept r s) : Kept r (State.takeImage s) := by
  unfold State.takeImage
  repeat' (first
    | with_reducible first | assumption | apply State.setUp_kept | apply State.setPw_kept | apply State.loadLibrary_kept
    | split
    | dsimp only)

theorem activate_kept {r s : State} (h : Kept r s) : KeptE r (activate s) := by
  unfold activate
  repeat' (first
    | with_reducible
        first
        | assumption | apply Kept.ite | apply KeptE.ite | apply KeptE.ok | apply KeptE.error | apply require_kept
        | apply State.os_kept | apply State.writeBoot_kept | apply State.setUp_kept | apply State.setDr_kept
        | apply State.takeImage_kept | apply State.restartWalnut_kept | refine Kept.ofE ‹_ = Except.ok _› ?_
    | (extract_lets +onlyGivenNames x
       first
       | (refine Kept.cut (r := r) (x := x) ?_ ?_ <;> first | (clear_value x; intro hx) | subst x)
       | subst x)
    | split
    | dsimp only
    | (intro s1 h1; dsimp only)
    | intro s1 h1)

theorem execActivate_kept {r s : State} (h : Kept r s) (t : Nat) (c : Nat) : KeptO r (execActivate t c s) := by
  unfold execActivate
  repeat' (first
    | with_reducible
        first
        | assumption | apply KeptE.ok | apply KeptE.error | apply KeptO.next | apply State.hostWrite_kept
        | apply State.at_kept | apply activate_kept | refine Kept.ofE ‹_ = Except.ok _› ?_
    | (intro s1 h1; dsimp only)
    | intro s1 h1)

theorem execActivationLoadEnd_kept {r s : State} (h : Kept r s) (t : Nat) : KeptO r (execActivationLoadEnd t s) := by
  unfold execActivationLoadEnd
  repeat' (first
    | with_reducible
        first
        | assumption | apply Kept.ite | apply KeptO.ite | apply KeptO.next | apply State.at_kept
        | apply State.setPw_kept | apply State.setUp_kept | apply State.onward_kept | apply State.holdLoops_kept
        | apply State.loadLibrary_kept
    | (extract_lets +onlyGivenNames x
       first
       | (refine Kept.cut (r := r) (x := x) ?_ ?_ <;> first | (clear_value x; intro hx) | subst x)
       | subst x)
    | split
    | dsimp only)

theorem confirm_kept {r s : State} (h : Kept r s) : KeptE r (confirm s) := by
  unfold confirm
  repeat' (first
    | with_reducible
        first
        | assumption | apply Kept.ite | apply KeptE.ite | apply KeptE.ok | apply KeptE.error | apply require_kept
        | apply State.writeBoot_kept | apply State.putSettings_kept | apply State.setUp_kept
        | apply State.returnGrant_kept | refine Kept.ofE ‹_ = Except.ok _› ?_ | rfl
    | exact Kept.raiseData ‹_› _
    | exact Kept.raiseWalnut ‹_› _
    | (simp only [Kept.lit]; with_reducible apply KeptCore.of)
    | (extract_lets +onlyGivenNames x
       first
       | (refine Kept.cut (r := r) (x := x) ?_ ?_ <;> first | (clear_value x; intro hx) | subst x)
       | subst x)
    | split
    | dsimp only
    | rfl
    | (intro s1 h1; dsimp only)
    | intro s1 h1)

theorem execConfirm_kept {r s : State} (h : Kept r s) (t : Nat) (c : Nat) : KeptO r (execConfirm t c s) := by
  unfold execConfirm
  repeat' (first
    | with_reducible
        first
        | assumption | apply KeptE.ok | apply KeptE.error | apply KeptO.next | apply State.hostWrite_kept
        | apply State.at_kept | apply confirm_kept | refine Kept.ofE ‹_ = Except.ok _› ?_
    | (intro s1 h1; dsimp only)
    | intro s1 h1)

theorem execConfirmTimeout_kept {r s : State} (h : Kept r s) (t : Nat) : KeptO r (execConfirmTimeout t s) := by
  unfold execConfirmTimeout
  repeat' (first
    | with_reducible
        first
        | assumption | apply Kept.ite | apply KeptO.ite | apply KeptO.next | apply State.at_kept
        | apply State.writeBoot_kept | apply State.setUp_kept | apply State.returnGrant_kept | apply State.os_kept
        | apply State.takeImage_kept | apply State.restartWalnut_kept
    | (extract_lets +onlyGivenNames x
       first
       | (refine Kept.cut (r := r) (x := x) ?_ ?_ <;> first | (clear_value x; intro hx) | subst x)
       | subst x)
    | split
    | dsimp only)

end Sys2Proof.Machine
end

