-- ==== Sys2Proof/Laws/KeptPower.lean ====
section
/-! SUPPORT. What Kept of Safety.lean says of each function of the model:
power, resets, boot and the work items. -/

namespace Sys2Proof.Machine

open Sys2Proof

set_option linter.unusedSimpArgs false
set_option linter.unusedVariables false

/-! ## Power -/

theorem State.retain_kept {r s : State} (h : Kept r s) : Kept r (State.retain s) := by
  unfold State.retain
  repeat' (first
    | with_reducible first | assumption | apply Kept.ite | apply State.setPw_kept)

theorem execRetentionWrite_kept {r s : State} (h : Kept r s) (t : Nat) : KeptO r (execRetentionWrite t s) := by
  unfold execRetentionWrite
  repeat' (first
    | with_reducible
        first
        | assumption | apply Kept.ite | apply KeptO.ite | apply KeptO.next | apply State.at_kept
        | apply State.retain_kept
    | (extract_lets +onlyGivenNames x
       first
       | (refine Kept.cut (r := r) (x := x) ?_ ?_ <;> first | (clear_value x; intro hx) | subst x)
       | subst x)
    | split
    | dsimp only)

theorem State.coreDown_kept {r s : State} (h : Kept r s) : Kept r (State.coreDown s) :=
  { h with
    dram := rfl, cashew := rfl, data := rfl, program := rfl
    rungs := List.length_replicate, optics := List.length_replicate, das := List.length_replicate, poppy := List.length_replicate
    engines := List.length_replicate, zones := List.length_replicate, seqs := List.length_replicate
    captures := List.length_replicate, queues := rfl, flax := List.length_replicate, tx := List.length_replicate
    rx := List.length_replicate, emcy := Nat.zero_le _, log := Nat.zero_le _ }

theorem State.restore_kept {r s : State} (h : Kept r s) (x : Nat × Nat) : Kept r (State.restore s x) := by
  unfold State.restore
  repeat' (first
    | with_reducible
        first
        | assumption | apply Kept.ite | apply KeptE.ok | apply KeptE.error | apply State.ds_kept | apply shadow_kept
        | apply State.os_kept | refine Kept.ofE ‹_ = Except.ok _› ?_
    | (extract_lets +onlyGivenNames x
       first
       | (refine Kept.cut (r := r) (x := x) ?_ ?_ <;> first | (clear_value x; intro hx) | subst x)
       | subst x)
    | split
    | dsimp only
    | (intro s1 h1; dsimp only)
    | intro s1 h1)

theorem State.bootObjects_kept {r s : State} (h : Kept r s) : Kept r (State.bootObjects s) := by
  have fit {u : State} (k : Kept r u) (n : Nat) : Kept r (u.setMem fun m => { m with fit := n }) := k.congr rfl
  have bus {u : State} (k : Kept r u) (a b : Nat) : Kept r { u with ctl := { u.ctl with rate := a, pmic := b } } := k.congr rfl
  unfold State.bootObjects
  refine Kept.foldl (fun _ _ k => Kept.ite (State.os_kept k _ _) k) _ ?_
  refine Kept.foldl (fun _ _ k => State.os_kept k _ _) _ ?_
  refine bus (fit (State.os_kept (State.os_kept ?_ _ _) _ _) _) _ _
  exact Kept.foldl (fun _ _ k => State.os_kept k _ _) _ (State.os_kept (Kept.noObjects h) _ _)

theorem State.recordLost_kept {r s : State} (h : Kept r s) : Kept r (State.recordLost s) := by
  unfold State.recordLost
  repeat' (first
    | with_reducible first | assumption | apply State.log_kept)

theorem State.loadCalibration_kept {r s : State} (h : Kept r s) : Kept r (State.loadCalibration s) := by
  unfold State.loadCalibration
  repeat' (first
    | with_reducible
        first
        | assumption | apply Kept.ite | apply State.recordLost_kept | apply State.showMonitor_kept
        | apply Kept.ite_snd | refine Kept.foldl (fun _ _ _ => ?_) _ ?_ | refine Kept.snd ‹_ = (_, _)› ?_ | rfl
    | (simp only [Kept.lit, List.length_map, length_rep]; with_reducible apply KeptCore.of)
    | (extract_lets +onlyGivenNames x
       first
       | (refine Kept.cut (r := r) (x := x) ?_ ?_ <;> first | (clear_value x; intro hx) | subst x)
       | subst x)
    | split
    | dsimp only
    | rfl
    | (intro s1 h1; dsimp only)
    | intro s1 h1)

theorem State.loadStore_kept {r s : State} (h : Kept r s) : Kept r (State.loadStore s) := by
  unfold State.loadStore
  repeat' (first
    | with_reducible
        first
        | assumption | apply State.draw_kept | apply State.log_kept | refine Kept.foldl (fun _ _ _ => ?_) _ ?_
        | refine Kept.snd ‹_ = (_, _)› ?_
    | split
    | dsimp only
    | (intro s1 h1; dsimp only)
    | intro s1 h1)

theorem State.loadLog_kept {r s : State} (h : Kept r s) : Kept r (State.loadLog s) := by
  unfold State.loadLog
  repeat' (first
    | with_reducible first | assumption | rfl
    | unfold State.setMg
    | (simp only [Kept.lit]; with_reducible apply KeptCore.of)
    | rfl)

theorem State.bootRetention_kept {r s : State} (h : Kept r s) (ok : Bool) : Kept r (State.bootRetention s ok) := by
  unfold State.bootRetention
  repeat' (first
    | with_reducible
        first
        | assumption | apply Kept.ite | apply State.os_kept | apply State.setDr_kept | apply State.setPod_kept
        | apply State.osBit_kept | rfl
    | (simp only [Kept.lit]; with_reducible apply KeptCore.of)
    | (extract_lets +onlyGivenNames x
       first
       | (refine Kept.cut (r := r) (x := x) ?_ ?_ <;> first | (clear_value x; intro hx) | subst x)
       | subst x)
    | split
    | dsimp only
    | rfl)

theorem State.bootPost_kept {r s : State} (h : Kept r s) : Kept r (State.bootPost s) := by
  unfold State.bootPost
  repeat' (first
    | with_reducible first | assumption | apply State.os_kept | apply State.post_kept
    | (extract_lets +onlyGivenNames x
       first
       | (refine Kept.cut (r := r) (x := x) ?_ ?_ <;> first | (clear_value x; intro hx) | subst x)
       | subst x)
    | split
    | dsimp only)

theorem State.keptPower_kept {r s : State} (h : Kept r s) : Kept r (State.keptPower s) := by
  unfold State.keptPower
  repeat' (first
    | with_reducible first | assumption | apply State.os_kept | refine Kept.foldl (fun _ _ _ => ?_) _ ?_
    | split
    | dsimp only
    | (intro s1 h1; dsimp only)
    | intro s1 h1)

theorem State.boot_kept {r s : State} (h : Kept r s) : Kept r (State.boot s) := by
  unfold State.boot
  repeat' (first
    | with_reducible
        first
        | assumption | apply Kept.ite | apply State.setPw_kept | apply State.bootWalnut_kept
        | apply State.bootObjects_kept | apply State.bootRetention_kept | apply State.loadStore_kept
        | apply State.loadLog_kept | apply State.loadCalibration_kept | apply State.bootPost_kept
        | apply State.os_kept | apply State.restore_kept | apply State.osBit_kept | apply State.keptPower_kept
        | apply State.setUp_kept | apply State.setPip_kept | apply State.enterPower_kept | apply State.lanesStart_kept
        | apply State.emit_kept | apply State.setPod_kept | apply State.rechoose_kept
        | refine Kept.foldl (fun _ _ _ => ?_) _ ?_
    | (extract_lets +onlyGivenNames x
       first
       | (refine Kept.cut (r := r) (x := x) ?_ ?_ <;> first | (clear_value x; intro hx) | subst x)
       | subst x)
    | split
    | dsimp only
    | (intro s1 h1; dsimp only)
    | intro s1 h1)

theorem execVbatPowerUp_kept {r s : State} (h : Kept r s) (t : Nat) : KeptO r (execVbatPowerUp t s) := by
  unfold execVbatPowerUp
  repeat' (first
    | with_reducible
        first
        | assumption | apply Kept.ite | apply KeptO.ite | apply KeptO.next | apply State.at_kept | apply State.os_kept
        | apply State.setPw_kept
    | (extract_lets +onlyGivenNames x
       first
       | (refine Kept.cut (r := r) (x := x) ?_ ?_ <;> first | (clear_value x; intro hx) | subst x)
       | subst x)
    | split
    | dsimp only)

theorem execCrystalStart_kept {r s : State} (h : Kept r s) (t : Nat) : KeptO r (execCrystalStart t s) := by
  unfold execCrystalStart
  repeat' (first
    | with_reducible
        first
        | assumption | apply Kept.ite | apply KeptO.ite | apply KeptO.next | apply State.at_kept
        | apply State.setPw_kept
    | (extract_lets +onlyGivenNames x
       first
       | (refine Kept.cut (r := r) (x := x) ?_ ?_ <;> first | (clear_value x; intro hx) | subst x)
       | subst x)
    | split
    | dsimp only)

theorem execVbatLoss_kept {r s : State} (h : Kept r s) (t : Nat) : KeptO r (execVbatLoss t s) := by
  unfold execVbatLoss
  repeat' (first
    | with_reducible
        first
        | assumption | apply KeptO.next | apply State.at_kept | apply State.setPw_kept | apply State.os_kept
        | apply State.setDr_kept
    | (extract_lets +onlyGivenNames x
       first
       | (refine Kept.cut (r := r) (x := x) ?_ ?_ <;> first | (clear_value x; intro hx) | subst x)
       | subst x)
    | split
    | dsimp only)

theorem execCorePowerUp_kept {r s : State} (h : Kept r s) (t : Nat) : KeptO r (execCorePowerUp t s) := by
  unfold execCorePowerUp
  repeat' (first
    | with_reducible
        first
        | assumption | apply Kept.ite | apply KeptO.ite | apply KeptO.next | apply State.at_kept
        | apply State.setPw_kept
    | (extract_lets +onlyGivenNames x
       first
       | (refine Kept.cut (r := r) (x := x) ?_ ?_ <;> first | (clear_value x; intro hx) | subst x)
       | subst x)
    | split
    | dsimp only)

theorem execInternalResetRelease_kept {r s : State} (h : Kept r s) (t : Nat) :
    KeptO r (execInternalResetRelease t s) := by
  unfold execInternalResetRelease
  repeat' (first
    | with_reducible
        first
        | assumption | apply Kept.ite | apply KeptO.ite | apply KeptO.next | apply State.at_kept
        | apply State.boot_kept
    | (extract_lets +onlyGivenNames x
       first
       | (refine Kept.cut (r := r) (x := x) ?_ ?_ <;> first | (clear_value x; intro hx) | subst x)
       | subst x)
    | split
    | dsimp only)

theorem State.dropPower_kept {r s : State} (h : Kept r s) : Kept r (State.dropPower s) := by
  unfold State.dropPower
  repeat' (first
    | with_reducible
        first
        | assumption | apply State.setPw_kept | apply State.coreDown_kept | apply State.injectLock_kept)

theorem execPgInFall_kept {r s : State} (h : Kept r s) (t : Nat) : KeptO r (execPgInFall t s) := by
  unfold execPgInFall
  repeat' (first
    | with_reducible
        first
        | assumption | apply Kept.ite | apply KeptO.ite | apply KeptO.next | apply State.at_kept
        | apply State.setPw_kept | apply State.dropPower_kept
    | (extract_lets +onlyGivenNames x
       first
       | (refine Kept.cut (r := r) (x := x) ?_ ?_ <;> first | (clear_value x; intro hx) | subst x)
       | subst x)
    | split
    | dsimp only)

theorem State.coreReset_kept {r s : State} (h : Kept r s) : Kept r (State.coreReset s) := by
  unfold State.coreReset
  repeat' (first
    | with_reducible
        first
        | assumption | apply State.setPw_kept | apply State.coreDown_kept | apply State.injectLock_kept)

theorem execResetL_kept {r s : State} (h : Kept r s) (t : Nat) (low : Nat) : KeptO r (execResetL t low s) := by
  unfold execResetL
  repeat' (first
    | with_reducible
        first
        | assumption | apply Kept.ite | apply KeptO.ite | apply KeptO.next | apply State.at_kept
        | apply State.coreReset_kept
    | (extract_lets +onlyGivenNames x
       first
       | (refine Kept.cut (r := r) (x := x) ?_ ?_ <;> first | (clear_value x; intro hx) | subst x)
       | subst x)
    | split
    | dsimp only)

theorem State.wake_kept {r s : State} (h : Kept r s) (bits : Nat) : Kept r (State.wake s bits) := by
  unfold State.wake
  repeat' (first
    | with_reducible first | assumption | apply Kept.ite | apply State.os_kept | apply State.setPw_kept
    | (extract_lets +onlyGivenNames x
       first
       | (refine Kept.cut (r := r) (x := x) ?_ ?_ <;> first | (clear_value x; intro hx) | subst x)
       | subst x)
    | split
    | dsimp only)

theorem execWakePin_kept {r s : State} (h : Kept r s) (t : Nat) (pins : Nat) : KeptO r (execWakePin t pins s) := by
  unfold execWakePin
  repeat' (first
    | with_reducible
        first
        | assumption | apply Kept.ite | apply KeptO.ite | apply KeptO.next | apply State.at_kept
        | apply State.wake_kept
    | (extract_lets +onlyGivenNames x
       first
       | (refine Kept.cut (r := r) (x := x) ?_ ?_ <;> first | (clear_value x; intro hx) | subst x)
       | subst x)
    | split
    | dsimp only)

theorem execWakeTimer_kept {r s : State} (h : Kept r s) (t : Nat) : KeptO r (execWakeTimer t s) := by
  unfold execWakeTimer
  repeat' (first
    | with_reducible
        first
        | assumption | apply Kept.ite | apply KeptO.ite | apply KeptO.next | apply State.at_kept
        | apply State.wake_kept
    | (extract_lets +onlyGivenNames x
       first
       | (refine Kept.cut (r := r) (x := x) ?_ ?_ <;> first | (clear_value x; intro hx) | subst x)
       | subst x)
    | split
    | dsimp only)

theorem execPwrEnHoldEnd_kept {r s : State} (h : Kept r s) (t : Nat) : KeptO r (execPwrEnHoldEnd t s) := by
  unfold execPwrEnHoldEnd
  repeat' (first
    | with_reducible
        first
        | assumption | apply Kept.ite | apply KeptO.ite | apply KeptO.next | apply State.at_kept
        | apply State.setPw_kept
    | (extract_lets +onlyGivenNames x
       first
       | (refine Kept.cut (r := r) (x := x) ?_ ?_ <;> first | (clear_value x; intro hx) | subst x)
       | subst x)
    | split
    | dsimp only)

theorem execDormantEntry_kept {r s : State} (h : Kept r s) (t : Nat) : KeptO r (execDormantEntry t s) := by
  unfold execDormantEntry
  repeat' (first
    | with_reducible
        first
        | assumption | apply Kept.ite | apply KeptO.ite | apply KeptO.next | apply State.at_kept
        | apply State.transitionDone_kept | apply State.setPw_kept | apply State.dropPower_kept
        | apply State.retain_kept
    | (extract_lets +onlyGivenNames x
       first
       | (refine Kept.cut (r := r) (x := x) ?_ ?_ <;> first | (clear_value x; intro hx) | subst x)
       | subst x)
    | split
    | dsimp only)

theorem State.hostLeaves_kept {r s : State} (h : Kept r s) (p : PowerState) : Kept r (State.hostLeaves s p) := by
  unfold State.hostLeaves
  repeat' (first
    | with_reducible first | assumption | apply State.leaveDoze_kept | rfl
    | unfold State.setMg
    | (simp only [Kept.lit]; with_reducible apply KeptCore.of)
    | rfl)

theorem powerCommand_kept {r s : State} (h : Kept r s) (v : Nat) : KeptE r (powerCommand v s) := by
  unfold powerCommand
  repeat' (first
    | with_reducible
        first
        | assumption | apply KeptE.ok | apply KeptE.error | apply State.moveDown_kept | apply State.hostEnds_kept
        | apply require_kept | apply State.hostLeaves_kept | apply State.intend_kept | apply State.beginEntry_kept
        | refine Kept.ofE ‹_ = Except.ok _› ?_
    | split
    | dsimp only
    | (intro s1 h1; dsimp only)
    | intro s1 h1)

theorem execPowerCommandDormant_kept {r s : State} (h : Kept r s) (t : Nat) (c : Nat) :
    KeptO r (execPowerCommandDormant t c s) := by
  unfold execPowerCommandDormant
  repeat' (first
    | with_reducible
        first
        | assumption | apply KeptE.ok | apply KeptE.error | apply KeptO.next | apply State.hostWrite_kept
        | apply State.at_kept | apply powerCommand_kept | refine Kept.ofE ‹_ = Except.ok _› ?_
    | (intro s1 h1; dsimp only)
    | intro s1 h1)

theorem execPowerCommandDoze_kept {r s : State} (h : Kept r s) (t : Nat) (c : Nat) :
    KeptO r (execPowerCommandDoze t c s) := by
  unfold execPowerCommandDoze
  repeat' (first
    | with_reducible
        first
        | assumption | apply KeptE.ok | apply KeptE.error | apply KeptO.next | apply State.hostWrite_kept
        | apply State.at_kept | apply powerCommand_kept | refine Kept.ofE ‹_ = Except.ok _› ?_
    | (intro s1 h1; dsimp only)
    | intro s1 h1)

theorem execPowerCommandReady_kept {r s : State} (h : Kept r s) (t : Nat) (c : Nat) :
    KeptO r (execPowerCommandReady t c s) := by
  unfold execPowerCommandReady
  repeat' (first
    | with_reducible
        first
        | assumption | apply KeptE.ok | apply KeptE.error | apply KeptO.next | apply State.hostWrite_kept
        | apply State.at_kept | apply powerCommand_kept | refine Kept.ofE ‹_ = Except.ok _› ?_
    | (intro s1 h1; dsimp only)
    | intro s1 h1)

theorem execPowerCommandSensing_kept {r s : State} (h : Kept r s) (t : Nat) (c : Nat) :
    KeptO r (execPowerCommandSensing t c s) := by
  unfold execPowerCommandSensing
  repeat' (first
    | with_reducible
        first
        | assumption | apply KeptE.ok | apply KeptE.error | apply KeptO.next | apply State.hostWrite_kept
        | apply State.at_kept | apply powerCommand_kept | refine Kept.ofE ‹_ = Except.ok _› ?_
    | (intro s1 h1; dsimp only)
    | intro s1 h1)

theorem execStartRemoteNode_kept {r s : State} (h : Kept r s) (t : Nat) (node : Nat) :
    KeptO r (execStartRemoteNode t node s) := by
  unfold execStartRemoteNode
  repeat' (first
    | with_reducible
        first
        | assumption | apply Kept.ite | apply KeptO.ite | apply KeptO.next | apply State.at_kept
        | apply State.setPw_kept | apply State.hostLeaves_kept | apply State.intend_kept | apply State.judgeEntry_kept
    | (extract_lets +onlyGivenNames x
       first
       | (refine Kept.cut (r := r) (x := x) ?_ ?_ <;> first | (clear_value x; intro hx) | subst x)
       | subst x)
    | split
    | dsimp only)

theorem execStopRemoteNode_kept {r s : State} (h : Kept r s) (t : Nat) (node : Nat) :
    KeptO r (execStopRemoteNode t node s) := by
  unfold execStopRemoteNode
  repeat' (first
    | with_reducible
        first
        | assumption | apply Kept.ite | apply KeptO.ite | apply KeptO.next | apply State.at_kept
        | apply State.moveDown_kept | apply State.setPw_kept | apply State.hostEnds_kept
    | (extract_lets +onlyGivenNames x
       first
       | (refine Kept.cut (r := r) (x := x) ?_ ?_ <;> first | (clear_value x; intro hx) | subst x)
       | subst x)
    | split
    | dsimp only)

theorem execEnterPreOperational_kept {r s : State} (h : Kept r s) (t : Nat) (node : Nat) :
    KeptO r (execEnterPreOperational t node s) := by
  unfold execEnterPreOperational
  repeat' (first
    | with_reducible
        first
        | assumption | apply Kept.ite | apply KeptO.ite | apply KeptO.next | apply State.at_kept
        | apply State.setPw_kept | apply State.hostLeaves_kept | apply State.moveDown_kept | apply State.hostEnds_kept
    | (extract_lets +onlyGivenNames x
       first
       | (refine Kept.cut (r := r) (x := x) ?_ ?_ <;> first | (clear_value x; intro hx) | subst x)
       | subst x)
    | split
    | dsimp only)

theorem execResetNode_kept {r s : State} (h : Kept r s) (t : Nat) (node : Nat) : KeptO r (execResetNode t node s) := by
  unfold execResetNode
  repeat' (first
    | with_reducible
        first
        | assumption | apply Kept.ite | apply KeptO.ite | apply KeptO.next | apply State.at_kept
        | apply State.coreReset_kept
    | (extract_lets +onlyGivenNames x
       first
       | (refine Kept.cut (r := r) (x := x) ?_ ?_ <;> first | (clear_value x; intro hx) | subst x)
       | subst x)
    | split
    | dsimp only)

theorem execResetCommunication_kept {r s : State} (h : Kept r s) (t : Nat) (node : Nat) :
    KeptO r (execResetCommunication t node s) := by
  unfold execResetCommunication
  repeat' (first
    | with_reducible
        first
        | assumption | apply Kept.ite | apply KeptO.ite | apply KeptO.next | apply State.at_kept
        | apply State.injectLock_kept | apply State.endSession_kept | apply State.emit_kept
    | (extract_lets +onlyGivenNames x
       first
       | (refine Kept.cut (r := r) (x := x) ?_ ?_ <;> first | (clear_value x; intro hx) | subst x)
       | subst x)
    | split
    | dsimp only)

theorem State.firstReady_kept {r s : State} (h : Kept r s) : Kept r (State.firstReady s) := by
  have first {u : State} (k : Kept r u) : Kept r { { u with pw := { u.pw with readyDone := true, dramLive := true, library := false } } with
      mem := { u.mem with cashew := [], dram := [], regions := [] } } := { k with dram := rfl, cashew := rfl }
  have last {u : State} (k : Kept r u) (f : List Nat) : Kept r (u.setLad fun l => { l with reloading := f }) := k.congr rfl
  unfold State.firstReady
  exact last (State.reserveFixed_kept (first h)) _

theorem State.warmIfHeld_kept {r s : State} (h : Kept r s) : Kept r (State.warmIfHeld s) := by
  unfold State.warmIfHeld
  repeat' (first
    | with_reducible first | assumption | apply Kept.ite | apply State.warmUp_kept)

theorem execDozeToReadyDone_kept {r s : State} (h : Kept r s) (t : Nat) (fit : DramFit) :
    KeptO r (execDozeToReadyDone t fit s) := by
  unfold execDozeToReadyDone
  repeat' (first
    | with_reducible
        first
        | assumption | apply Kept.ite | apply KeptO.ite | apply KeptO.next | apply State.at_kept
        | apply State.transitionDone_kept | apply State.emcy_kept | apply State.showDram_kept
        | apply State.enterReady_kept | apply State.firstReady_kept | apply State.loadLibrary_kept
        | apply State.setUp_kept | apply State.setPw_kept | apply State.judgeEntry_kept | apply State.warmIfHeld_kept
    | (extract_lets +onlyGivenNames x
       first
       | (refine Kept.cut (r := r) (x := x) ?_ ?_ <;> first | (clear_value x; intro hx) | subst x)
       | subst x)
    | split
    | dsimp only)

theorem State.judgeWaiting_kept {r s : State} (h : Kept r s) : Kept r (State.judgeWaiting s) := by
  unfold State.judgeWaiting
  repeat' (first
    | with_reducible first | assumption | apply Kept.ite | apply State.judgeEntry_kept
    | (extract_lets +onlyGivenNames x
       first
       | (refine Kept.cut (r := r) (x := x) ?_ ?_ <;> first | (clear_value x; intro hx) | subst x)
       | subst x)
    | split
    | dsimp only)

theorem State.reloadRung_kept {r s : State} (h : Kept r s) (r' : Nat) : Kept r (State.reloadRung s r') := by
  unfold State.reloadRung
  repeat' (first
    | with_reducible first | assumption | apply State.putRung_kept
    | split
    | dsimp only)

theorem execActivePlanReload_kept {r s : State} (h : Kept r s) (t : Nat) : KeptO r (execActivePlanReload t s) := by
  unfold execActivePlanReload
  repeat' (first
    | with_reducible
        first
        | assumption | apply Kept.ite | apply KeptO.ite | apply KeptO.next | apply State.at_kept
        | apply State.loadLibrary_kept | apply State.setUp_kept | apply State.emcy_kept | apply State.reloadRung_kept
        | apply State.warmIfHeld_kept | apply State.judgeWaiting_kept
    | (extract_lets +onlyGivenNames x
       first
       | (refine Kept.cut (r := r) (x := x) ?_ ?_ <;> first | (clear_value x; intro hx) | subst x)
       | subst x)
    | split
    | dsimp only)

theorem execKeptPlanReload_kept {r s : State} (h : Kept r s) (t : Nat) (rung : Nat) :
    KeptO r (execKeptPlanReload t rung s) := by
  unfold execKeptPlanReload
  repeat' (first
    | with_reducible
        first
        | assumption | apply Kept.ite | apply KeptO.ite | apply KeptO.next | apply State.at_kept
        | apply State.judgeWaiting_kept | apply State.reloadRung_kept
    | (extract_lets +onlyGivenNames x
       first
       | (refine Kept.cut (r := r) (x := x) ?_ ?_ <;> first | (clear_value x; intro hx) | subst x)
       | subst x)
    | split
    | dsimp only)

theorem execStopShutdown_kept {r s : State} (h : Kept r s) (t : Nat) : KeptO r (execStopShutdown t s) := by
  unfold execStopShutdown
  repeat' (first
    | with_reducible
        first
        | assumption | apply Kept.ite | apply KeptO.ite | apply KeptO.next | apply State.at_kept
        | apply State.endFiring_kept | apply State.holdLoops_kept | apply State.setPw_kept | apply State.onward_kept
        | apply State.photonicOff_kept
    | (extract_lets +onlyGivenNames x
       first
       | (refine Kept.cut (r := r) (x := x) ?_ ?_ <;> first | (clear_value x; intro hx) | subst x)
       | subst x)
    | split
    | dsimp only)

theorem execReferenceTimeout_kept {r s : State} (h : Kept r s) (t : Nat) : KeptO r (execReferenceTimeout t s) := by
  unfold execReferenceTimeout
  repeat' (first
    | with_reducible
        first
        | assumption | apply Kept.ite | apply KeptO.ite | apply KeptO.next | apply State.at_kept
        | apply State.transitionDone_kept | apply State.emcy_kept | apply State.setDr_kept | apply State.moveDown_kept
        | apply State.chargeTo_kept
    | (extract_lets +onlyGivenNames x
       first
       | (refine Kept.cut (r := r) (x := x) ?_ ?_ <;> first | (clear_value x; intro hx) | subst x)
       | subst x)
    | split
    | dsimp only)

theorem execDrgRefiReturn_kept {r s : State} (h : Kept r s) (t : Nat) : KeptO r (execDrgRefiReturn t s) := by
  unfold execDrgRefiReturn
  repeat' (first
    | with_reducible
        first
        | assumption | apply Kept.ite | apply KeptO.ite | apply KeptO.next | apply State.at_kept
        | apply State.setDr_kept | apply State.os_kept
    | (extract_lets +onlyGivenNames x
       first
       | (refine Kept.cut (r := r) (x := x) ?_ ?_ <;> first | (clear_value x; intro hx) | subst x)
       | subst x)
    | split
    | dsimp only)

/-! ## Items -/

theorem State.releaseItem_kept {r s : State} (h : Kept r s) (e : Nat) (it : Item) :
    Kept r (State.releaseItem s e it) := by
  unfold State.releaseItem
  repeat' (first
    | with_reducible first | assumption | apply Kept.ite | apply State.setEngine_kept | apply State.startItem_kept
    | (extract_lets +onlyGivenNames x
       first
       | (refine Kept.cut (r := r) (x := x) ?_ ?_ <;> first | (clear_value x; intro hx) | subst x)
       | subst x)
    | split
    | dsimp only)

theorem State.libraryEcc_kept {r s : State} (h : Kept r s) (e : Nat) (ecc : EccError) :
    Kept r (State.libraryEcc s e ecc) := by
  unfold State.libraryEcc
  repeat' (first
    | with_reducible
        first
        | assumption | apply State.eccFix_kept | apply State.memoryFault_kept | apply State.eccLost_kept
    | split
    | dsimp only)

theorem State.userEcc_kept {r s : State} (h : Kept r s) (e : Nat) (it : Item) (ecc : EccError) :
    Kept r (State.userEcc s e it ecc) := by
  unfold State.userEcc
  repeat' (first
    | with_reducible
        first
        | assumption | apply State.eccFix_kept | apply State.abortUser_kept | apply State.eccLost_kept
    | split
    | dsimp only)

theorem State.releaseLibrary_kept {r s : State} (h : Kept r s) (f : Flight) (k : Nat) (slot : Nat) (ecc : EccError)
    (invalid : List Nat) :
    Kept r (State.releaseLibrary s f k slot ecc invalid) := by
  unfold State.releaseLibrary
  repeat' (first
    | with_reducible
        first
        | assumption | apply Kept.ite | apply State.libraryEcc_kept | apply State.releaseItem_kept
        | apply Kept.ite_snd | refine Kept.snd ‹_ = (_, _)› ?_
    | (extract_lets +onlyGivenNames x
       first
       | (refine Kept.cut (r := r) (x := x) ?_ ?_ <;> first | (clear_value x; intro hx) | subst x)
       | subst x)
    | split
    | dsimp only)

theorem State.inbox_kept {r s : State} (h : Kept r s) (f : Flight) (n : Nat) (slot : Nat) :
    Kept r (State.inbox s f n slot).2 := by
  unfold State.inbox
  repeat' (first
    | with_reducible
        first
        | assumption | apply Kept.ite | apply State.draw_kept | apply Kept.ite_snd | refine Kept.snd ‹_ = (_, _)› ?_
    | (extract_lets +onlyGivenNames x
       first
       | (refine Kept.cut (r := r) (x := x) ?_ ?_ <;> first | (clear_value x; intro hx) | subst x)
       | subst x)
    | split
    | dsimp only)

theorem State.releaseUser_kept {r s : State} (h : Kept r s) (f : Flight) (n : Nat) (slot : Nat) (ecc : EccError) :
    Kept r (State.releaseUser s f n slot ecc) := by
  unfold State.releaseUser
  repeat' (first
    | with_reducible
        first
        | assumption | apply Kept.ite | apply State.bump_kept | apply State.countAt_kept | apply State.count_kept
        | apply State.inbox_kept | apply State.userEcc_kept | apply State.releaseItem_kept | apply State.hzWrite_kept
        | apply Kept.ite_snd | refine Kept.snd ‹_ = (_, _)› ?_
    | (extract_lets +onlyGivenNames x
       first
       | (refine Kept.cut (r := r) (x := x) ?_ ?_ <;> first | (clear_value x; intro hx) | subst x)
       | subst x)
    | split
    | dsimp only)

theorem execWorkItemRelease_kept {r s : State} (h : Kept r s) (t : Nat) (user : Bool) (item : Nat) (sweep : Nat)
    (slot : Nat) (ecc : EccError) (invalid : List Nat) :
    KeptO r (execWorkItemRelease t user item sweep slot ecc invalid s) := by
  unfold execWorkItemRelease
  repeat' (first
    | with_reducible
        first
        | assumption | apply Kept.ite | apply KeptO.ite | apply KeptO.next | apply State.at_kept
        | apply State.releaseUser_kept | apply State.releaseLibrary_kept
    | (extract_lets +onlyGivenNames x
       first
       | (refine Kept.cut (r := r) (x := x) ?_ ?_ <;> first | (clear_value x; intro hx) | subst x)
       | subst x)
    | split
    | dsimp only)

theorem userProgram_kept {r s : State} (h : Kept r s) (data : List Byte) : KeptE r (userProgram data s) := by
  unfold userProgram
  repeat' (first
    | with_reducible
        first
        | assumption | apply KeptE.ok | apply KeptE.error | apply require_kept | refine Kept.ofE ‹_ = Except.ok _› ?_
        | rfl | exact swf_nil _ | apply swf_memWrite | apply swf_sput | apply swf_memClear
    | (simp only [Kept.lit]; with_reducible apply KeptCore.units)
    | ((with_reducible
        first
        | apply State.Sound.dram | apply State.Sound.cashew | apply State.Sound.data | apply State.Sound.program
        | apply State.Sound.rungs | apply State.Sound.optics | apply State.Sound.das | apply State.Sound.poppy
        | apply State.Sound.engines | apply State.Sound.zones | apply State.Sound.seqs | apply State.Sound.captures
        | apply State.Sound.queues | apply State.Sound.flax | apply State.Sound.tx | apply State.Sound.rx
        | apply State.Sound.emcy | apply State.Sound.log); with_reducible apply Kept.toSound)
    | (simp only [List.length_replicate]; done)
    | (extract_lets +onlyGivenNames x
       first
       | (refine Kept.cut (r := r) (x := x) ?_ ?_ <;> first | (clear_value x; intro hx) | subst x)
       | subst x)
    | split
    | dsimp only
    | rfl
    | (intro s1 h1; dsimp only)
    | intro s1 h1)

theorem execUserProgram_kept {r s : State} (h : Kept r s) (t : Nat) (c : Nat) (data : List Byte) :
    KeptO r (execUserProgram t c data s) := by
  unfold execUserProgram
  repeat' (first
    | with_reducible
        first
        | assumption | apply KeptE.ok | apply KeptE.error | apply KeptO.next | apply State.hostWrite_kept
        | apply State.at_kept | apply userProgram_kept | refine Kept.ofE ‹_ = Except.ok _› ?_
    | (intro s1 h1; dsimp only)
    | intro s1 h1)

end Sys2Proof.Machine
end

