-- ==== Sys2Proof/Laws/KeptSweep.lean ====
section
/-! SUPPORT. What Kept of Safety.lean says of each function of the model:
sweeps, boundaries, memory errors and the object dictionary. -/

namespace Sys2Proof.Machine

open Sys2Proof

set_option linter.unusedSimpArgs false
set_option linter.unusedVariables false

/-! ## Sweep -/

theorem State.setFlight_kept {r s : State} (h : Kept r s) (n : Nat) (f : Flight → Flight) :
    Kept r (State.setFlight s n f) := by
  unfold State.setFlight
  repeat' (first
    | with_reducible first | assumption | apply Kept.ite | rfl
    | (simp only [Kept.lit, List.length_map]; with_reducible apply KeptCore.of)
    | (extract_lets +onlyGivenNames x
       first
       | (refine Kept.cut (r := r) (x := x) ?_ ?_ <;> first | (clear_value x; intro hx) | subst x)
       | subst x)
    | split
    | dsimp only
    | rfl)

theorem State.playNothing_kept {r s : State} (h : Kept r s) : Kept r (State.playNothing s) := by
  unfold State.playNothing
  repeat' (first
    | with_reducible first | assumption | refine Kept.snd ‹_ = (_, _)› ?_ | rfl
    | (simp only [Kept.lit, List.length_map]; with_reducible apply KeptCore.of)
    | (extract_lets +onlyGivenNames x
       first
       | (refine Kept.cut (r := r) (x := x) ?_ ?_ <;> first | (clear_value x; intro hx) | subst x)
       | subst x)
    | split
    | dsimp only
    | rfl)

theorem State.suppress_kept {r s : State} (h : Kept r s) (f : Flight) (slot : Nat) :
    Kept r (State.suppress s f slot) := by
  unfold State.suppress
  repeat' (first
    | with_reducible
        first
        | assumption | apply State.setFlight_kept | apply State.countAt_kept | apply State.bump_kept
        | apply State.eccLost_kept | apply State.cause_kept | apply State.playNothing_kept
        | refine Kept.foldl (fun _ _ _ => ?_) _ ?_ | rfl
    | (simp only [Kept.lit]; with_reducible apply KeptCore.of)
    | (extract_lets +onlyGivenNames x
       first
       | (refine Kept.cut (r := r) (x := x) ?_ ?_ <;> first | (clear_value x; intro hx) | subst x)
       | subst x)
    | split
    | dsimp only
    | rfl
    | (intro s1 h1; dsimp only)
    | intro s1 h1)

theorem State.playWave_kept {r s : State} (h : Kept r s) (f : Flight) (slot : Nat) :
    Kept r (State.playWave s f slot) := by
  unfold State.playWave
  repeat' (first
    | with_reducible
        first
        | assumption | apply Kept.ite | apply State.noteEmission_kept | apply State.setPort_kept | apply Kept.ite_snd
        | refine Kept.foldl (fun _ _ _ => ?_) _ ?_ | refine Kept.snd ‹_ = (_, _)› ?_ | rfl
    | (simp only [Kept.lit, List.length_map]; with_reducible apply KeptCore.of)
    | (extract_lets +onlyGivenNames x
       first
       | (refine Kept.cut (r := r) (x := x) ?_ ?_ <;> first | (clear_value x; intro hx) | subst x)
       | subst x)
    | split
    | dsimp only
    | rfl
    | (intro s1 h1; dsimp only)
    | intro s1 h1)

theorem State.fireSlot_kept {r s : State} (h : Kept r s) (f : Flight) (slot : Nat) (corrected : Nat) (bad : Bool) :
    Kept r (State.fireSlot s f slot corrected bad) := by
  unfold State.fireSlot
  repeat' (first
    | with_reducible
        first
        | assumption | apply Kept.ite | apply State.setFlight_kept | apply State.count_kept
        | apply State.suppress_kept | apply State.playWave_kept | apply State.pulse_kept | apply State.openTicks_kept
    | (extract_lets +onlyGivenNames x
       first
       | (refine Kept.cut (r := r) (x := x) ?_ ?_ <;> first | (clear_value x; intro hx) | subst x)
       | subst x)
    | split
    | dsimp only)

theorem execSlotFiring_kept {r s : State} (h : Kept r s) (slot : Nat) (corrected : Nat) (bad : Bool) (raman : List
    (List Nat)) :
    KeptO r (execSlotFiring slot corrected bad raman s) := by
  unfold execSlotFiring
  repeat' (first
    | with_reducible
        first
        | assumption | apply Kept.ite | apply KeptO.ite | apply KeptO.next | apply State.fireSlot_kept
        | apply State.settleShots_kept | apply State.at_kept | apply State.dtsShot_kept
    | (extract_lets +onlyGivenNames x
       first
       | (refine Kept.cut (r := r) (x := x) ?_ ?_ <;> first | (clear_value x; intro hx) | subst x)
       | subst x)
    | split
    | dsimp only)

theorem State.latchOptics_kept {r s : State} (h : Kept r s) (p : Nat) : Kept r (State.latchOptics s p) := by
  unfold State.latchOptics
  repeat' (first
    | with_reducible
        first
        | assumption | apply Kept.ite | apply State.draw_kept | apply State.os_kept | apply State.osI_kept
        | apply State.setPort_kept | apply Kept.ite_snd | refine Kept.snd ‹_ = (_, _)› ?_
    | (extract_lets +onlyGivenNames x
       first
       | (refine Kept.cut (r := r) (x := x) ?_ ?_ <;> first | (clear_value x; intro hx) | subst x)
       | subst x)
    | split
    | dsimp only)

theorem State.latchFrame_kept {r s : State} (h : Kept r s) (fr : Frame) : Kept r (State.latchFrame s fr) := by
  unfold State.latchFrame
  repeat' (first
    | with_reducible
        first
        | assumption | apply State.countOwed_kept | apply State.ds_kept | apply State.os_kept
        | apply State.latchOptics_kept | apply State.pulse_kept | apply State.offer_kept
        | refine Kept.foldl (fun _ _ _ => ?_) _ ?_ | refine Kept.snd ‹_ = (_, _)› ?_ | rfl
    | (simp only [Kept.lit]; with_reducible apply KeptCore.of)
    | (extract_lets +onlyGivenNames x
       first
       | (refine Kept.cut (r := r) (x := x) ?_ ?_ <;> first | (clear_value x; intro hx) | subst x)
       | subst x)
    | split
    | dsimp only
    | rfl
    | (intro s1 h1; dsimp only)
    | intro s1 h1)

theorem State.beginFrame_kept {r s : State} (h : Kept r s) (pl : Plan) (n : Nat) :
    Kept r (State.beginFrame s pl n) := by
  unfold State.beginFrame
  repeat' (first
    | with_reducible first | assumption | apply State.os_kept | rfl
    | (simp only [Kept.lit]; with_reducible apply KeptCore.of)
    | (extract_lets +onlyGivenNames x
       first
       | (refine Kept.cut (r := r) (x := x) ?_ ?_ <;> first | (clear_value x; intro hx) | subst x)
       | subst x)
    | split
    | dsimp only
    | rfl)

theorem State.joinFrame_kept {r s : State} (h : Kept r s) (pl : Plan) (n : Nat) : Kept r (State.joinFrame s pl n) := by
  unfold State.joinFrame
  repeat' (first
    | with_reducible first | assumption | apply Kept.ite | apply State.beginFrame_kept | rfl
    | (simp only [Kept.lit]; with_reducible apply KeptCore.of)
    | (extract_lets +onlyGivenNames x
       first
       | (refine Kept.cut (r := r) (x := x) ?_ ?_ <;> first | (clear_value x; intro hx) | subst x)
       | subst x)
    | split
    | dsimp only
    | rfl)

theorem State.closeFrame_kept {r s : State} (h : Kept r s) : Kept r (State.closeFrame s) := by
  unfold State.closeFrame
  repeat' (first
    | with_reducible
        first
        | assumption | apply Kept.ite | apply State.latchFrame_kept | apply Kept.ite_snd
        | refine Kept.snd ‹_ = (_, _)› ?_ | rfl
    | (simp only [Kept.lit, List.length_map]; with_reducible apply KeptCore.of)
    | (extract_lets +onlyGivenNames x
       first
       | (refine Kept.cut (r := r) (x := x) ?_ ?_ <;> first | (clear_value x; intro hx) | subst x)
       | subst x)
    | split
    | dsimp only
    | rfl)

theorem State.pruneSpans_kept {r s : State} (h : Kept r s) : Kept r (State.pruneSpans s) := by
  unfold State.pruneSpans
  repeat' (first
    | with_reducible first | assumption | refine Kept.foldl (fun _ _ _ => ?_) _ ?_ | rfl
    | (simp only [Kept.lit, List.length_map]; with_reducible apply KeptCore.of)
    | (extract_lets +onlyGivenNames x
       first
       | (refine Kept.cut (r := r) (x := x) ?_ ?_ <;> first | (clear_value x; intro hx) | subst x)
       | subst x)
    | split
    | dsimp only
    | rfl
    | (intro s1 h1; dsimp only)
    | intro s1 h1)

theorem State.complete_kept {r s : State} (h : Kept r s) (f : Flight) : Kept r (State.complete s f) := by
  unfold State.complete
  repeat' (first
    | with_reducible
        first
        | assumption | apply State.dasComplete_kept | apply State.cornerTurn_kept | apply State.oweUpdates_kept
        | apply State.settleShots_kept | apply State.popSettle_kept | apply State.pruneSpans_kept
        | apply State.latchFrame_kept | refine Kept.foldl (fun _ _ _ => ?_) _ ?_ | refine Kept.snd ‹_ = (_, _)› ?_
        | rfl
    | (simp only [Kept.lit]; with_reducible apply KeptCore.of)
    | (extract_lets +onlyGivenNames x
       first
       | (refine Kept.cut (r := r) (x := x) ?_ ?_ <;> first | (clear_value x; intro hx) | subst x)
       | subst x)
    | split
    | dsimp only
    | rfl
    | (intro s1 h1; dsimp only)
    | intro s1 h1)

theorem execSweepCompletion_kept {r s : State} (h : Kept r s) (t : Nat) : KeptO r (execSweepCompletion t s) := by
  unfold execSweepCompletion
  repeat' (first
    | with_reducible
        first
        | assumption | apply Kept.ite | apply KeptO.ite | apply KeptO.next | apply State.at_kept
        | apply State.complete_kept
    | (extract_lets +onlyGivenNames x
       first
       | (refine Kept.cut (r := r) (x := x) ?_ ?_ <;> first | (clear_value x; intro hx) | subst x)
       | subst x)
    | split
    | dsimp only)

/-! ## Boundary -/

theorem State.failEngine_kept {r s : State} (h : Kept r s) (e : Nat) : Kept r (State.failEngine s e) := by
  unfold State.failEngine
  repeat' (first
    | with_reducible
        first
        | assumption | apply State.setEngine_kept | apply State.bump_kept | apply State.os_kept
        | apply State.osBit_kept
    | (extract_lets +onlyGivenNames x
       first
       | (refine Kept.cut (r := r) (x := x) ?_ ?_ <;> first | (clear_value x; intro hx) | subst x)
       | subst x)
    | split
    | dsimp only)

theorem State.failEngines_kept {r s : State} (h : Kept r s) : Kept r (State.failEngines s) := by
  unfold State.failEngines
  repeat' (first
    | with_reducible
        first
        | assumption | apply Kept.ite | apply State.failEngine_kept | apply State.setPower_kept
        | apply State.loseChain_kept | apply State.dropSwitch_kept | refine Kept.foldl (fun _ _ _ => ?_) _ ?_
    | (extract_lets +onlyGivenNames x
       first
       | (refine Kept.cut (r := r) (x := x) ?_ ?_ <;> first | (clear_value x; intro hx) | subst x)
       | subst x)
    | split
    | dsimp only
    | (intro s1 h1; dsimp only)
    | intro s1 h1)

theorem State.postEngines_kept {r s : State} (h : Kept r s) (n : Nat) (l : List (Nat × Nat × Nat)) :
    Kept r (State.postEngines s n l) := by
  unfold State.postEngines
  repeat' (first
    | with_reducible
        first
        | assumption | apply State.event_kept | apply State.log_kept | apply State.emcy_kept
        | refine Kept.foldl (fun _ _ _ => ?_) _ ?_
    | (extract_lets +onlyGivenNames x
       first
       | (refine Kept.cut (r := r) (x := x) ?_ ?_ <;> first | (clear_value x; intro hx) | subst x)
       | subst x)
    | split
    | dsimp only
    | (intro s1 h1; dsimp only)
    | intro s1 h1)

theorem State.chargeSweep_kept {r s : State} (h : Kept r s) : Kept r (State.chargeSweep s) := by
  unfold State.chargeSweep
  repeat' (first
    | with_reducible
        first
        | assumption | apply Kept.ite | apply State.cause_kept | apply State.outages_kept | apply State.account_kept
        | refine Kept.foldl (fun _ _ _ => ?_) _ ?_ | rfl
    | unfold State.setMg
    | (simp only [Kept.lit]; with_reducible apply KeptCore.of)
    | (extract_lets +onlyGivenNames x
       first
       | (refine Kept.cut (r := r) (x := x) ?_ ?_ <;> first | (clear_value x; intro hx) | subst x)
       | subst x)
    | split
    | dsimp only
    | rfl
    | (intro s1 h1; dsimp only)
    | intro s1 h1)

theorem State.rearm_kept {r s : State} (h : Kept r s) (p : Nat) : Kept r (State.rearm s p) := by
  unfold State.rearm
  repeat' (first
    | with_reducible
        first
        | assumption | apply Kept.ite | apply State.setPort_kept | apply Kept.ite_snd
        | refine Kept.snd ‹_ = (_, _)› ?_
    | split
    | dsimp only)

theorem State.enableSlots_kept {r s : State} (h : Kept r s) (pl : Plan) (v : Nat) :
    Kept r (State.enableSlots s pl v) := by
  unfold State.enableSlots
  repeat' (first
    | with_reducible
        first
        | assumption | apply State.hzWrite_kept | apply State.osBit_kept | apply State.os_kept
        | refine Kept.foldl (fun _ _ _ => ?_) _ ?_
    | (extract_lets +onlyGivenNames x
       first
       | (refine Kept.cut (r := r) (x := x) ?_ ?_ <;> first | (clear_value x; intro hx) | subst x)
       | subst x)
    | split
    | dsimp only
    | (intro s1 h1; dsimp only)
    | intro s1 h1)

theorem State.transfer_kept {r s : State} (h : Kept r s) (pl : Plan) (n : Nat) (w : ShadowWrite) :
    Kept r (State.transfer s pl n w) := by
  unfold State.transfer
  repeat' (first
    | with_reducible
        first
        | assumption | apply Kept.ite | apply State.poppyTransfer_kept | apply State.thresholdTransfer_kept
        | apply State.enableSlots_kept | apply State.ds_kept | apply State.rearm_kept | apply State.os_kept)

theorem State.transfers_kept {r s : State} (h : Kept r s) (pl : Plan) (n : Nat) :
    Kept r (State.transfers s pl n).2 := by
  unfold State.transfers
  repeat' (first
    | with_reducible
        first
        | assumption | apply State.transfer_kept | refine Kept.foldl (fun _ _ _ => ?_) _ ?_
        | refine Kept.snd ‹_ = (_, _)› ?_ | rfl
    | unfold State.setLad
    | (simp only [Kept.lit]; with_reducible apply KeptCore.of)
    | (extract_lets +onlyGivenNames x
       first
       | (refine Kept.cut (r := r) (x := x) ?_ ?_ <;> first | (clear_value x; intro hx) | subst x)
       | subst x)
    | split
    | dsimp only
    | rfl
    | (intro s1 h1; dsimp only)
    | intro s1 h1)

theorem State.takePort_kept {r s : State} (h : Kept r s) (pl : Plan) (n : Nat) (p : Nat) :
    Kept r (State.takePort s pl n p) := by
  unfold State.takePort
  repeat' (first
    | with_reducible
        first
        | assumption | apply Kept.ite | apply State.os_kept | apply State.transfer_kept
        | refine Kept.foldl (fun _ _ _ => ?_) _ ?_
    | (extract_lets +onlyGivenNames x
       first
       | (refine Kept.cut (r := r) (x := x) ?_ ?_ <;> first | (clear_value x; intro hx) | subst x)
       | subst x)
    | split
    | dsimp only
    | (intro s1 h1; dsimp only)
    | intro s1 h1)

theorem State.slotsTake_kept {r s : State} (h : Kept r s) (old : Option Plan) (pl : Plan) :
    Kept r (State.slotsTake s old pl) := by
  unfold State.slotsTake
  repeat' (first
    | with_reducible
        first
        | assumption | apply Kept.ite | apply State.event_kept | apply State.osBit_kept
        | refine Kept.foldl (fun _ _ _ => ?_) _ ?_
    | (extract_lets +onlyGivenNames x
       first
       | (refine Kept.cut (r := r) (x := x) ?_ ?_ <;> first | (clear_value x; intro hx) | subst x)
       | subst x)
    | split
    | dsimp only
    | (intro s1 h1; dsimp only)
    | intro s1 h1)

theorem State.portsTake_kept {r s : State} (h : Kept r s) (before : Option Plan) (pl : Plan) :
    Kept r (State.portsTake s before pl) := by
  unfold State.portsTake
  repeat' (first
    | with_reducible
        first
        | assumption | apply Kept.ite | apply State.setPort_kept | apply State.os_kept
        | refine Kept.foldl (fun _ _ _ => ?_) _ ?_
    | (intro s1 h1; dsimp only)
    | intro s1 h1)

theorem State.take_kept {r s : State} (h : Kept r s) (r' : Nat) (pl : Plan) (n : Nat) (entry : Bool) (late : Bool) :
    Kept r (State.take s r' pl n entry late) := by
  unfold State.take
  repeat' (first
    | with_reducible
        first
        | assumption | apply Kept.ite | apply State.loadHalf_kept | apply State.showRungs_kept | apply State.os_kept
        | apply State.pulse_kept | apply State.event_kept | apply State.log_kept | apply State.releaseRegions_kept
        | apply State.ownBanks_kept | apply State.queuesTake_kept | apply State.seqTake_kept
        | apply State.capturesTake_kept | apply State.zonesTake_kept | apply State.portsTake_kept
        | apply State.slotsTake_kept | apply State.chainReset_kept | apply State.mapChange_kept
        | apply State.poppyTake_kept | apply State.takePort_kept | apply Kept.ite_snd
        | refine Kept.foldl (fun _ _ _ => ?_) _ ?_ | refine Kept.snd ‹_ = (_, _)› ?_ | rfl
    | unfold State.setLad
    | (simp only [Kept.lit]; with_reducible apply KeptCore.of)
    | (extract_lets +onlyGivenNames x
       first
       | (refine Kept.cut (r := r) (x := x) ?_ ?_ <;> first | (clear_value x; intro hx) | subst x)
       | subst x)
    | split
    | dsimp only
    | rfl
    | (intro s1 h1; dsimp only)
    | intro s1 h1)

theorem State.tookSwitch_kept {r s : State} (h : Kept r s) (w : Switch) (n : Nat) (late : Bool) :
    Kept r (State.tookSwitch s w n late) := by
  unfold State.tookSwitch
  repeat' (first
    | with_reducible first | assumption | apply Kept.ite | apply State.os_kept | apply State.report_kept | rfl
    | unfold State.setLad
    | (simp only [Kept.lit]; with_reducible apply KeptCore.of)
    | (extract_lets +onlyGivenNames x
       first
       | (refine Kept.cut (r := r) (x := x) ?_ ?_ <;> first | (clear_value x; intro hx) | subst x)
       | subst x)
    | split
    | dsimp only
    | rfl)

theorem State.judgeBias_kept {r s : State} (h : Kept r s) : Kept r (State.judgeBias s) := by
  unfold State.judgeBias
  repeat' (first
    | with_reducible
        first
        | assumption | apply Kept.ite | apply State.setPort_kept | apply State.showOptics_kept | apply Kept.ite_snd
        | refine Kept.foldl (fun _ _ _ => ?_) _ ?_ | refine Kept.snd ‹_ = (_, _)› ?_
    | (extract_lets +onlyGivenNames x
       first
       | (refine Kept.cut (r := r) (x := x) ?_ ?_ <;> first | (clear_value x; intro hx) | subst x)
       | subst x)
    | split
    | dsimp only
    | (intro s1 h1; dsimp only)
    | intro s1 h1)

theorem State.stampNow_kept {r s : State} (h : Kept r s) : Kept r (State.stampNow s).2 := by
  unfold State.stampNow
  repeat' (first
    | with_reducible first | assumption | apply State.draw_kept | refine Kept.snd ‹_ = (_, _)› ?_
    | (extract_lets +onlyGivenNames x
       first
       | (refine Kept.cut (r := r) (x := x) ?_ ?_ <;> first | (clear_value x; intro hx) | subst x)
       | subst x)
    | split
    | dsimp only)

theorem State.openBoundary_kept {r s : State} (h : Kept r s) (pl : Plan) (n : Nat) :
    Kept r (State.openBoundary s pl n) := by
  unfold State.openBoundary
  repeat' (first
    | with_reducible
        first
        | assumption | apply State.stampNow_kept | apply State.joinFrame_kept | refine Kept.snd ‹_ = (_, _)› ?_ | rfl
    | (simp only [Kept.lit]; with_reducible apply KeptCore.of)
    | (extract_lets +onlyGivenNames x
       first
       | (refine Kept.cut (r := r) (x := x) ?_ ?_ <;> first | (clear_value x; intro hx) | subst x)
       | subst x)
    | split
    | dsimp only
    | rfl)

theorem State.periodsAt_kept {r s : State} (h : Kept r s) (f : Flight) (taken : Bool) :
    Kept r (State.periodsAt s f taken) := by
  unfold State.periodsAt
  repeat' (first
    | with_reducible
        first
        | assumption | apply Kept.ite | apply State.pulse_kept | apply State.endPeriod_kept
        | apply State.beginPeriod_kept | rfl
    | (simp only [Kept.lit]; with_reducible apply KeptCore.of)
    | (extract_lets +onlyGivenNames x
       first
       | (refine Kept.cut (r := r) (x := x) ?_ ?_ <;> first | (clear_value x; intro hx) | subst x)
       | subst x)
    | split
    | dsimp only
    | rfl)

theorem State.beginSweep_kept {r s : State} (h : Kept r s) (r' : Nat) (pl : Plan) (n : Nat) (taken : Bool) (late : Bool) :
    Kept r (State.beginSweep s r' pl n taken late) := by
  unfold State.beginSweep
  repeat' (first
    | with_reducible
        first
        | assumption | apply Kept.ite | apply State.transfers_kept | apply State.judgeBias_kept
        | apply State.periodsAt_kept | apply State.setPeriod_kept | apply State.burstBoundary_kept
        | apply State.os_kept | apply State.cause_kept | apply State.setPod_kept | apply State.pulse_kept
        | apply State.sendBoundary_kept | apply State.countMismatch_kept | apply State.releaseBanks_kept
        | apply State.fireSlot_kept | apply Kept.ite_snd | refine Kept.foldl (fun _ _ _ => ?_) _ ?_
        | refine Kept.snd ‹_ = (_, _)› ?_ | rfl
    | (simp only [Kept.lit, length_modAt, List.length_map]; with_reducible apply KeptCore.of)
    | (extract_lets +onlyGivenNames x
       first
       | (refine Kept.cut (r := r) (x := x) ?_ ?_ <;> first | (clear_value x; intro hx) | subst x)
       | subst x)
    | split
    | dsimp only
    | rfl
    | (intro s1 h1; dsimp only)
    | intro s1 h1)

theorem State.stopSensing_kept {r s : State} (h : Kept r s) : Kept r (State.stopSensing s) := by
  unfold State.stopSensing
  repeat' (first
    | with_reducible
        first
        | assumption | apply Kept.ite | apply State.pulse_kept | apply State.endPeriod_kept
        | apply State.zonesStop_kept | apply State.capturesStop_kept | apply State.closeFrame_kept
        | apply State.os_kept | apply State.burstsStop_kept | apply State.playNothing_kept
        | apply State.showOptics_kept | apply State.setPw_kept | apply State.enterPower_kept
        | refine Kept.foldl (fun _ _ _ => ?_) _ ?_ | rfl
    | unfold State.setLad
    | (simp only [Kept.lit]; with_reducible apply KeptCore.of)
    | (extract_lets +onlyGivenNames x
       first
       | (refine Kept.cut (r := r) (x := x) ?_ ?_ <;> first | (clear_value x; intro hx) | subst x)
       | subst x)
    | split
    | dsimp only
    | rfl
    | (intro s1 h1; dsimp only)
    | intro s1 h1)

theorem State.stopBoundary_kept {r s : State} (h : Kept r s) : Kept r (State.stopBoundary s) := by
  unfold State.stopBoundary
  repeat' (first
    | with_reducible
        first
        | assumption | apply Kept.ite | apply State.stopSensing_kept | apply State.chargeSweep_kept
        | apply State.chargeTo_kept
    | (extract_lets +onlyGivenNames x
       first
       | (refine Kept.cut (r := r) (x := x) ?_ ?_ <;> first | (clear_value x; intro hx) | subst x)
       | subst x)
    | split
    | dsimp only)

theorem State.healthStop_kept {r s : State} (h : Kept r s) : Kept r (State.healthStop s) := by
  unfold State.healthStop
  repeat' (first
    | with_reducible
        first
        | assumption | apply State.chargeTo_kept | apply State.stopSensing_kept | apply State.emcy_kept
        | apply State.setPw_kept
    | (extract_lets +onlyGivenNames x
       first
       | (refine Kept.cut (r := r) (x := x) ?_ ?_ <;> first | (clear_value x; intro hx) | subst x)
       | subst x)
    | split
    | dsimp only)

theorem State.hold_kept {r s : State} (h : Kept r s) (x : Nat) (k : Nat) : Kept r (State.hold s x k) := by
  unfold State.hold
  repeat' (first
    | with_reducible first | assumption | refine Kept.snd ‹_ = (_, _)› ?_ | rfl
    | (simp only [Kept.lit]; with_reducible apply KeptCore.of)
    | (extract_lets +onlyGivenNames x
       first
       | (refine Kept.cut (r := r) (x := x) ?_ ?_ <;> first | (clear_value x; intro hx) | subst x)
       | subst x)
    | split
    | dsimp only
    | rfl)

theorem State.setSchedule_kept {r s : State} (h : Kept r s) (pl : Plan) (i : Nat) :
    Kept r (State.setSchedule s pl i) := by
  unfold State.setSchedule
  repeat' (first
    | with_reducible
        first
        | assumption | apply Kept.ite | apply State.markLost_kept | apply State.os_kept
        | refine Kept.foldl (fun _ _ _ => ?_) _ ?_ | rfl
    | unfold State.setLad
    | (simp only [Kept.lit, List.length_map]; with_reducible apply KeptCore.of)
    | (extract_lets +onlyGivenNames x
       first
       | (refine Kept.cut (r := r) (x := x) ?_ ?_ <;> first | (clear_value x; intro hx) | subst x)
       | subst x)
    | split
    | dsimp only
    | rfl
    | (intro s1 h1; dsimp only)
    | intro s1 h1)

theorem State.dropFaulted_kept {r s : State} (h : Kept r s) : Kept r (State.dropFaulted s) := by
  unfold State.dropFaulted
  repeat' (first
    | with_reducible first | assumption | apply State.osBit_kept | refine Kept.foldl (fun _ _ _ => ?_) _ ?_ | rfl
    | (simp only [Kept.lit]; with_reducible apply KeptCore.of)
    | (extract_lets +onlyGivenNames x
       first
       | (refine Kept.cut (r := r) (x := x) ?_ ?_ <;> first | (clear_value x; intro hx) | subst x)
       | subst x)
    | split
    | dsimp only
    | rfl
    | (intro s1 h1; dsimp only)
    | intro s1 h1)

theorem State.sweepOn_kept {r s : State} (h : Kept r s) (n : Nat) (l : List (Nat × Nat × Nat)) :
    Kept r (State.sweepOn s n l) := by
  unfold State.sweepOn
  repeat' (first
    | with_reducible
        first
        | assumption | apply Kept.ite | apply KeptP.some | exact KeptP.none | apply Kept.getD
        | apply State.healthStop_kept | apply State.postEngines_kept | apply State.openBoundary_kept
        | apply State.reservePlan_kept | apply State.take_kept | apply State.beginSweep_kept
        | apply State.tookSwitch_kept | apply State.setSchedule_kept | refine Kept.ofP ‹_ = Option.some _› ?_ | rfl
    | unfold State.setLad
    | (simp only [Kept.lit]; with_reducible apply KeptCore.of)
    | (extract_lets +onlyGivenNames x
       first
       | (refine Kept.cut (r := r) (x := x) ?_ ?_ <;> first | (clear_value x; intro hx) | subst x)
       | subst x)
    | split
    | dsimp only
    | rfl)

theorem State.runBoundary_kept {r s : State} (h : Kept r s) : Kept r (State.runBoundary s) := by
  unfold State.runBoundary
  repeat' (first
    | with_reducible
        first
        | assumption | apply Kept.ite | apply State.dropFaulted_kept | apply State.failEngines_kept
        | apply State.stopBoundary_kept | apply State.postEngines_kept | apply State.cause_kept
        | apply State.hold_kept | apply State.chargeSweep_kept | apply State.sweepOn_kept | rfl
    | (simp only [Kept.lit]; with_reducible apply KeptCore.of)
    | (extract_lets +onlyGivenNames x
       first
       | (refine Kept.cut (r := r) (x := x) ?_ ?_ <;> first | (clear_value x; intro hx) | subst x)
       | subst x)
    | split
    | dsimp only
    | rfl)

theorem State.enterSensing_kept {r s : State} (h : Kept r s) (r' : Nat) (pl : Plan) (n : Nat) (l : List (Nat × Nat × Nat)) :
    Kept r (State.enterSensing s r' pl n l) := by
  unfold State.enterSensing
  repeat' (first
    | with_reducible
        first
        | assumption | apply State.settleIdle_kept | apply State.os_kept | apply State.postEngines_kept
        | apply State.openBoundary_kept | apply State.take_kept | apply State.setPw_kept | apply State.enterPower_kept
        | apply State.tookSwitch_kept | apply State.beginSweep_kept | apply State.transitionDone_kept
        | refine Kept.foldl (fun _ _ _ => ?_) _ ?_ | rfl
    | unfold State.setMg
    | (simp only [Kept.lit]; with_reducible apply KeptCore.of)
    | (extract_lets +onlyGivenNames x
       first
       | (refine Kept.cut (r := r) (x := x) ?_ ?_ <;> first | (clear_value x; intro hx) | subst x)
       | subst x)
    | split
    | dsimp only
    | rfl
    | (intro s1 h1; dsimp only)
    | intro s1 h1)

theorem State.entryBoundary_kept {r s : State} (h : Kept r s) (e : Entry) : Kept r (State.entryBoundary s e) := by
  unfold State.entryBoundary
  repeat' (first
    | with_reducible
        first
        | assumption | apply Kept.ite | apply State.dropFaulted_kept | apply State.failEngines_kept
        | apply State.postEngines_kept | apply State.stopSensing_kept | apply State.healthStop_kept
        | apply State.enterSensing_kept | apply State.hold_kept
    | (extract_lets +onlyGivenNames x
       first
       | (refine Kept.cut (r := r) (x := x) ?_ ?_ <;> first | (clear_value x; intro hx) | subst x)
       | subst x)
    | split
    | dsimp only)

theorem State.atBoundary_kept {r s : State} (h : Kept r s) : Kept r (State.atBoundary s) := by
  unfold State.atBoundary
  repeat' (first
    | with_reducible first | assumption | apply Kept.ite | apply State.entryBoundary_kept | apply State.runBoundary_kept
    | split
    | dsimp only)

theorem execSweepBoundary_kept {r s : State} (h : Kept r s) : KeptO r (execSweepBoundary s) := by
  unfold execSweepBoundary
  repeat' (first
    | with_reducible
        first
        | assumption | apply Kept.ite | apply KeptO.ite | apply KeptO.next | apply State.atBoundary_kept
        | apply State.at_kept)

theorem execChoiceFix_kept {r s : State} (h : Kept r s) (corrected : Nat) (bad : Bool) :
    KeptO r (execChoiceFix corrected bad s) := by
  unfold execChoiceFix
  repeat' (first
    | with_reducible
        first
        | assumption | apply Kept.ite | apply KeptO.ite | apply KeptO.next | apply State.count_kept
        | apply State.at_kept | apply State.atBoundary_kept | rfl
    | (simp only [Kept.lit]; with_reducible apply KeptCore.of)
    | (extract_lets +onlyGivenNames x
       first
       | (refine Kept.cut (r := r) (x := x) ?_ ?_ <;> first | (clear_value x; intro hx) | subst x)
       | subst x)
    | split
    | dsimp only
    | rfl)

/-! ## MemErrors -/

theorem State.dramError_kept {r s : State} (h : Kept r s) (addr : Nat) : Kept r (State.dramError s addr) := by
  unfold State.dramError
  repeat' (first
    | with_reducible
        first
        | assumption | apply State.pulse_kept | apply State.os_kept | apply State.bump_kept
        | apply State.eccLost_kept)

theorem State.binError_kept {r s : State} (h : Kept r s) (port : Nat) (bin : Nat) (latest : Bool) :
    Kept r (State.binError s port bin latest) := by
  unfold State.binError
  repeat' (first
    | with_reducible first | assumption | apply Kept.ite | apply State.setPeriod_kept
    | (extract_lets +onlyGivenNames x
       first
       | (refine Kept.cut (r := r) (x := x) ?_ ?_ <;> first | (clear_value x; intro hx) | subst x)
       | subst x)
    | split
    | dsimp only)

theorem State.tickError_kept {r s : State} (h : Kept r s) (port : Nat) (pos : Nat) (tick : Nat) :
    Kept r (State.tickError s port pos tick) := by
  unfold State.tickError
  repeat' (first
    | with_reducible first | assumption | apply Kept.ite | apply State.setPpop_kept)

theorem State.stageError_kept {r s : State} (h : Kept r s) (q : Nat) : Kept r (State.stageError s q) := by
  unfold State.stageError
  repeat' (first
    | with_reducible
        first
        | assumption | apply State.garble_kept | apply State.setQueue_kept | refine Kept.snd ‹_ = (_, _)› ?_
    | split
    | dsimp only)

theorem State.replayError_kept {r s : State} (h : Kept r s) (lane : Nat) (seq : Nat) :
    Kept r (State.replayError s lane seq) := by
  unfold State.replayError
  repeat' (first
    | with_reducible
        first
        | assumption | apply Kept.ite | apply State.garble_kept | apply State.setTx_kept | apply Kept.ite_snd
        | refine Kept.snd ‹_ = (_, _)› ?_
    | (extract_lets +onlyGivenNames x
       first
       | (refine Kept.cut (r := r) (x := x) ?_ ?_ <;> first | (clear_value x; intro hx) | subst x)
       | subst x)
    | split
    | dsimp only)

theorem State.readerError_kept {r s : State} (h : Kept r s) (addr : Nat) (rd : DramReader) :
    Kept r (State.readerError s addr rd) := by
  cases rd
  all_goals
    unfold State.readerError
    repeat' (first
    | with_reducible
          first
          | assumption | apply Kept.ite | apply State.binError_kept | apply State.memoryFault_kept
          | apply State.setCap_kept | apply State.tickError_kept | apply State.stageError_kept
          | apply State.setBurst_kept | apply State.failPrepare_kept | apply State.chanFault_kept
          | apply State.replayError_kept | apply State.readerError_kept | rfl
      | (simp only [Kept.lit]; with_reducible apply KeptCore.of)
      | (extract_lets +onlyGivenNames x
         first
         | (refine Kept.cut (r := r) (x := x) ?_ ?_ <;> first | (clear_value x; intro hx) | subst x)
         | subst x)
      | split
      | dsimp only
      | rfl)

theorem State.sramError_kept {r s : State} (h : Kept r s) (addr : Nat) (who : DramReader) :
    Kept r (State.sramError s addr who) := by
  unfold State.sramError
  repeat' (first
    | with_reducible
        first
        | assumption | apply Kept.ite | apply State.eccFix_kept | apply State.bump_kept | apply State.readerError_kept
        | apply State.eccLost_kept
    | (extract_lets +onlyGivenNames x
       first
       | (refine Kept.cut (r := r) (x := x) ?_ ?_ <;> first | (clear_value x; intro hx) | subst x)
       | subst x)
    | split
    | dsimp only)

theorem execDramUncorrectable_kept {r s : State} (h : Kept r s) (t : Nat) (addr : Nat) (who : DramReader) :
    KeptO r (execDramUncorrectable t addr who s) := by
  unfold execDramUncorrectable
  repeat' (first
    | with_reducible
        first
        | assumption | apply Kept.ite | apply KeptO.ite | apply KeptO.next | apply State.at_kept
        | apply State.sramError_kept | apply State.readerError_kept | apply State.dramError_kept
    | (extract_lets +onlyGivenNames x
       first
       | (refine Kept.cut (r := r) (x := x) ?_ ?_ <;> first | (clear_value x; intro hx) | subst x)
       | subst x)
    | split
    | dsimp only)

theorem execRealTimeOverflow_kept {r s : State} (h : Kept r s) (t : Nat) (who : RtRequester) (stall : Nat) :
    KeptO r (execRealTimeOverflow t who stall s) := by
  unfold execRealTimeOverflow
  repeat' (first
    | with_reducible
        first
        | assumption | apply KeptO.next | apply State.bump_kept | apply State.at_kept | apply State.os_kept
        | apply State.stallShot_kept | apply State.setCap_kept | apply State.count_kept | rfl
    | (simp only [Kept.lit]; with_reducible apply KeptCore.of)
    | (extract_lets +onlyGivenNames x
       first
       | (refine Kept.cut (r := r) (x := x) ?_ ?_ <;> first | (clear_value x; intro hx) | subst x)
       | subst x)
    | split
    | dsimp only
    | rfl)

theorem State.finishLong_kept {r s : State} (h : Kept r s) (o : LongOp) (w : LongOutcome) :
    Kept r (State.finishLong s o w).2 := by
  unfold State.finishLong
  repeat' (first
    | with_reducible
        first
        | assumption | apply State.endInstall_kept | apply State.endCalibration_kept | apply State.endBiasSearch_kept
        | apply State.endPrepare_kept | apply State.dramFixed_kept | refine Kept.snd ‹_ = (_, _)› ?_
    | split
    | dsimp only)

theorem execLongOperationEnd_kept {r s : State} (h : Kept r s) (t : Nat) (outcome : LongOutcome) :
    KeptO r (execLongOperationEnd t outcome s) := by
  unfold execLongOperationEnd
  repeat' (first
    | with_reducible
        first
        | assumption | apply KeptO.next | apply State.at_kept | apply State.finishLong_kept | apply State.endLong_kept
        | refine Kept.snd ‹_ = (_, _)› ?_
    | (extract_lets +onlyGivenNames x
       first
       | (refine Kept.cut (r := r) (x := x) ?_ ?_ <;> first | (clear_value x; intro hx) | subst x)
       | subst x)
    | split
    | dsimp only)

/-! ## Usdo -/

theorem storeWrite_kept {r s : State} (h : Kept r s) (idx : Nat) (sub : Nat) (b : List Byte) :
    KeptE r (storeWrite idx sub b s) := by
  unfold storeWrite
  repeat' (first
    | with_reducible
        first
        | assumption | apply KeptE.ok | apply KeptE.error | apply State.ds_kept | apply State.os_kept
        | refine Kept.ofE ‹_ = Except.ok _› ?_
    | split
    | dsimp only
    | (intro s1 h1; dsimp only)
    | intro s1 h1)

theorem clearWrite_kept {r s : State} (h : Kept r s) (k : Nat) (b : List Byte) : KeptE r (clearWrite k b s) := by
  unfold clearWrite
  repeat' (first
    | with_reducible
        first
        | assumption | apply KeptE.ok | apply KeptE.error | apply State.os_kept | refine Kept.ofE ‹_ = Except.ok _› ?_
    | (intro s1 h1; dsimp only)
    | intro s1 h1)

theorem settingWrite_kept {r s : State} (h : Kept r s) (k : Nat) (b : List Byte) : KeptE r (settingWrite k b s) := by
  unfold settingWrite
  repeat' (first
    | with_reducible
        first
        | assumption | apply KeptE.ok | apply KeptE.error | apply State.storeSetting_kept | apply State.os_kept
        | refine Kept.ofE ‹_ = Except.ok _› ?_
    | (intro s1 h1; dsimp only)
    | intro s1 h1)

theorem regionResult_kept {r s : State} (h : Kept r s) (k : Nat) (r' : RegionKind) (v : Nat) {o : Option State} (ho :
    KeptP r o) :
    KeptE r (regionResult k r' v s o) := by
  cases o with
  | none => exact KeptE.error _
  | some s' => exact require_kept _ _ (KeptE.ok (State.os_kept (Kept.ite h (ho _ rfl)) _ _))

theorem regionWrite_kept {r s : State} (h : Kept r s) (k : Nat) (r' : RegionKind) (v : Nat) :
    KeptE r (regionWrite k r' v s) :=
  regionResult_kept h k r' v (State.reserve_kept h _ _)

theorem writeState_kept {r s : State} (h : Kept r s) (sub : Nat) (b : List Byte) : KeptE r (writeState sub b s) := by
  unfold writeState
  repeat' (first
    | with_reducible
        first
        | assumption | apply KeptE.ok | apply KeptE.error | apply powerCommand_kept | apply biasSearch_kept
        | apply settingWrite_kept | apply storeWrite_kept | refine Kept.ofE ‹_ = Except.ok _› ?_
    | split
    | dsimp only
    | (intro s1 h1; dsimp only)
    | intro s1 h1)

theorem writePower_kept {r s : State} (h : Kept r s) (sub : Nat) (b : List Byte) : KeptE r (writePower sub b s) := by
  unfold writePower
  repeat' (first
    | with_reducible
        first
        | assumption | apply KeptE.ok | apply KeptE.error | apply State.rechoose_kept | apply managedOperation_kept
        | apply balanceWrite_kept | apply incomeCredit_kept | apply holdWarm_kept | apply clearWrite_kept
        | apply settingWrite_kept | apply storeWrite_kept | refine Kept.ofE ‹_ = Except.ok _› ?_
    | (extract_lets +onlyGivenNames x
       first
       | (refine Kept.cut (r := r) (x := x) ?_ ?_ <;> first | (clear_value x; intro hx) | subst x)
       | subst x)
    | split
    | dsimp only
    | (intro s1 h1; dsimp only)
    | intro s1 h1)

theorem writeTime_kept {r s : State} (h : Kept r s) (idx : Nat) (sub : Nat) (b : List Byte) :
    KeptE r (writeTime idx sub b s) := by
  unfold writeTime
  repeat' (first
    | with_reducible
        first
        | assumption | apply Kept.ite | apply KeptE.ite | apply KeptE.ok | apply KeptE.error | apply storeWrite_kept
        | apply deviceTime_kept | apply timeAtPps_kept | apply rateCorrection_kept | apply State.os_kept
        | apply memberRefuses_kept | apply intervalArm_kept | apply intervalDisarm_kept | apply require_kept
        | refine Kept.ofE ‹_ = Except.ok _› ?_
    | (extract_lets +onlyGivenNames x
       first
       | (refine Kept.cut (r := r) (x := x) ?_ ?_ <;> first | (clear_value x; intro hx) | subst x)
       | subst x)
    | split
    | dsimp only
    | (intro s1 h1; dsimp only)
    | intro s1 h1)

theorem writePlans_kept {r s : State} (h : Kept r s) (sub : Nat) (b : List Byte) : KeptE r (writePlans sub b s) := by
  unfold writePlans
  repeat' (first
    | with_reducible
        first
        | assumption | apply KeptE.ok | apply KeptE.error | apply requestedRung_kept | apply planInstall_kept
        | apply stageSet_kept | apply removeRung_kept | apply chainSwitch_kept | apply storeWrite_kept
        | refine Kept.ofE ‹_ = Except.ok _› ?_
    | split
    | dsimp only
    | (intro s1 h1; dsimp only)
    | intro s1 h1)

theorem writeShadowed_kept {r s : State} (h : Kept r s) (idx : Nat) (sub : Nat) (b : List Byte) :
    KeptE r (writeShadowed idx sub b s) := by
  unfold writeShadowed
  repeat' (first
    | with_reducible
        first
        | assumption | apply Kept.ite | apply KeptE.ite | apply KeptE.ok | apply KeptE.error
        | apply zoneThreshold_kept | apply bankLoad_kept | apply shadowed_kept | refine Kept.ofE ‹_ = Except.ok _› ?_
    | (intro s1 h1; dsimp only)
    | intro s1 h1)

theorem writeSesame_kept {r s : State} (h : Kept r s) (idx : Nat) (sub : Nat) (b : List Byte) :
    KeptE r (writeSesame idx sub b s) := by
  unfold writeSesame
  repeat' (first
    | with_reducible
        first
        | assumption | apply Kept.ite | apply KeptE.ite | apply KeptE.ok | apply KeptE.error | apply storeWrite_kept
        | apply seqForce_kept | apply seqArm_kept | apply seqDisarm_kept | refine Kept.ofE ‹_ = Except.ok _› ?_
    | (extract_lets +onlyGivenNames x
       first
       | (refine Kept.cut (r := r) (x := x) ?_ ?_ <;> first | (clear_value x; intro hx) | subst x)
       | subst x)
    | split
    | dsimp only
    | (intro s1 h1; dsimp only)
    | intro s1 h1)

theorem writeCapture_kept {r s : State} (h : Kept r s) (idx : Nat) (sub : Nat) (b : List Byte) :
    KeptE r (writeCapture idx sub b s) := by
  unfold writeCapture
  repeat' (first
    | with_reducible
        first
        | assumption | apply Kept.ite | apply KeptE.ite | apply KeptE.ok | apply KeptE.error | apply regionWrite_kept
        | apply ownerWrite_kept | apply sunflowerEnable_kept | apply require_kept | apply storeWrite_kept
        | apply captureArm_kept | apply captureDisarm_kept | apply captureConfig_kept | apply captureLength_kept
        | refine Kept.ofE ‹_ = Except.ok _› ?_
    | (extract_lets +onlyGivenNames x
       first
       | (refine Kept.cut (r := r) (x := x) ?_ ?_ <;> first | (clear_value x; intro hx) | subst x)
       | subst x)
    | split
    | dsimp only
    | (intro s1 h1; dsimp only)
    | intro s1 h1)

theorem writeHazel_kept {r s : State} (h : Kept r s) (idx : Nat) (sub : Nat) (b : List Byte) :
    KeptE r (writeHazel idx sub b s) := by
  unfold writeHazel
  repeat' (first
    | with_reducible
        first
        | assumption | apply Kept.ite | apply KeptE.ite | apply KeptE.ok | apply KeptE.error | apply require_kept
        | apply storeWrite_kept | apply burstRequest_kept | apply burstAbandon_kept | apply regionWrite_kept
        | apply userProgram_kept | refine Kept.ofE ‹_ = Except.ok _› ?_
    | (extract_lets +onlyGivenNames x
       first
       | (refine Kept.cut (r := r) (x := x) ?_ ?_ <;> first | (clear_value x; intro hx) | subst x)
       | subst x)
    | split
    | dsimp only
    | (intro s1 h1; dsimp only)
    | intro s1 h1)

theorem writeMemory_kept {r s : State} (h : Kept r s) (idx : Nat) (sub : Nat) (b : List Byte) :
    KeptE r (writeMemory idx sub b s) := by
  unfold writeMemory
  repeat' (first
    | with_reducible
        first
        | assumption | apply Kept.ite | apply KeptE.ite | apply KeptE.ok | apply KeptE.error | apply storeWrite_kept
        | apply settingWrite_kept | apply refreshMode_kept | apply fullScrub_kept | apply clearWrite_kept
        | apply require_kept | apply bankOwner_kept | apply jobStart_kept | apply jobResume_kept
        | apply jobAbandon_kept | apply flaxStart_kept | apply flaxHalt_kept | refine Kept.ofE ‹_ = Except.ok _› ?_
    | (extract_lets +onlyGivenNames x
       first
       | (refine Kept.cut (r := r) (x := x) ?_ ?_ <;> first | (clear_value x; intro hx) | subst x)
       | subst x)
    | split
    | dsimp only
    | (intro s1 h1; dsimp only)
    | intro s1 h1)

theorem writePip_kept {r s : State} (h : Kept r s) (idx : Nat) (sub : Nat) (b : List Byte) :
    KeptE r (writePip idx sub b s) := by
  unfold writePip
  repeat' (first
    | with_reducible
        first
        | assumption | apply Kept.ite | apply KeptE.ite | apply KeptE.ok | apply KeptE.error | apply storeWrite_kept
        | apply reference1_kept | apply State.trigger1_kept | apply blankMask_kept | apply State.blankEdge_kept
        | apply State.os_kept | apply require_kept | apply calStart_kept | apply State.draw_kept
        | apply rtdSetting_kept | apply Kept.ite_snd | refine Kept.snd ‹_ = (_, _)› ?_
        | refine Kept.ofE ‹_ = Except.ok _› ?_
    | (extract_lets +onlyGivenNames x
       first
       | (refine Kept.cut (r := r) (x := x) ?_ ?_ <;> first | (clear_value x; intro hx) | subst x)
       | subst x)
    | split
    | dsimp only
    | (intro s1 h1; dsimp only)
    | intro s1 h1)

theorem writeManage_kept {r s : State} (h : Kept r s) (idx : Nat) (sub : Nat) (b : List Byte) :
    KeptE r (writeManage idx sub b s) := by
  unfold writeManage
  repeat' (first
    | with_reducible
        first
        | assumption | apply Kept.ite | apply KeptE.ite | apply KeptE.ok | apply KeptE.error | apply storeWrite_kept
        | apply settingWrite_kept | apply State.restartWalnut_kept | apply clearWrite_kept | apply ledgerReset_kept
        | apply logSelect_kept | apply downloadOpen_kept | apply downloadClose_kept | apply downloadAbandon_kept
        | apply canFdData_kept | apply imagePrepare_kept | apply activate_kept | apply confirm_kept
        | refine Kept.ofE ‹_ = Except.ok _› ?_
    | (extract_lets +onlyGivenNames x
       first
       | (refine Kept.cut (r := r) (x := x) ?_ ?_ <;> first | (clear_value x; intro hx) | subst x)
       | subst x)
    | split
    | dsimp only
    | (intro s1 h1; dsimp only)
    | intro s1 h1)

theorem writeInject_kept {r s : State} (h : Kept r s) (idx : Nat) (sub : Nat) (b : List Byte) :
    KeptE r (writeInject idx sub b s) := by
  unfold writeInject
  repeat' (first
    | with_reducible
        first
        | assumption | apply Kept.ite | apply KeptE.ite | apply KeptE.ok | apply KeptE.error | apply storeWrite_kept
        | apply unlock_kept | apply injectionStart_kept | apply injectionStop_kept | apply require_kept
        | refine Kept.ofE ‹_ = Except.ok _› ?_
    | (extract_lets +onlyGivenNames x
       first
       | (refine Kept.cut (r := r) (x := x) ?_ ?_ <;> first | (clear_value x; intro hx) | subst x)
       | subst x)
    | split
    | dsimp only
    | (intro s1 h1; dsimp only)
    | intro s1 h1)

theorem writeEffect_kept {r s : State} (h : Kept r s) (idx : Nat) (sub : Nat) (b : List Byte) :
    KeptE r (writeEffect idx sub b s) := by
  unfold writeEffect
  repeat' (first
    | with_reducible
        first
        | assumption | apply Kept.ite | apply KeptE.ite | apply KeptE.ok | apply KeptE.error
        | apply writeShadowed_kept | apply writeState_kept | apply writePower_kept | apply writeTime_kept
        | apply writePlans_kept | apply writeSesame_kept | apply writeCapture_kept | apply overrunClear_kept
        | apply idleDelay_kept | apply writeHazel_kept | apply writeMemory_kept | apply writePip_kept
        | apply writeManage_kept | apply writeInject_kept | apply storeWrite_kept
        | refine Kept.ofE ‹_ = Except.ok _› ?_
    | (intro s1 h1; dsimp only)
    | intro s1 h1)

theorem State.availability_kept {r s : State} (h : Kept r s) : Kept r (State.availability s).2 := by
  unfold State.availability
  repeat' (first
    | with_reducible
        first
        | assumption | apply Kept.ite | apply State.draw_kept | apply Kept.ite_snd | refine Kept.snd ‹_ = (_, _)› ?_
    | dsimp only)

theorem State.readObject_kept {r s : State} (h : Kept r s) (idx : Nat) (sub : Nat) (o : Obj) :
    Kept r (State.readObject s idx sub o).2 := by
  unfold State.readObject
  repeat' (first
    | with_reducible
        first
        | assumption | apply Kept.ite | apply State.settleIdle_kept | apply State.availability_kept
        | apply State.os_kept | apply Kept.ite_snd | refine Kept.snd ‹_ = (_, _)› ?_
    | (extract_lets +onlyGivenNames x
       first
       | (refine Kept.cut (r := r) (x := x) ?_ ?_ <;> first | (clear_value x; intro hx) | subst x)
       | subst x)
    | split
    | dsimp only)

theorem State.openTransfer_kept {r s : State} (h : Kept r s) (idx : Nat) (sub : Nat) (writing : Bool) (b : List Byte) :
    Kept r (State.openTransfer s idx sub writing b) := by
  unfold State.openTransfer
  repeat' (first
    | with_reducible first | assumption | rfl
    | (simp only [Kept.lit]; with_reducible apply KeptCore.of)
    | (extract_lets +onlyGivenNames x
       first
       | (refine Kept.cut (r := r) (x := x) ?_ ?_ <;> first | (clear_value x; intro hx) | subst x)
       | subst x)
    | split
    | dsimp only
    | rfl)

theorem State.closeTransfer_kept {r s : State} (h : Kept r s) : Kept r (State.closeTransfer s) := by
  unfold State.closeTransfer
  repeat' (first
    | with_reducible first | assumption | rfl
    | (simp only [Kept.lit]; with_reducible apply KeptCore.of)
    | (extract_lets +onlyGivenNames x
       first
       | (refine Kept.cut (r := r) (x := x) ?_ ?_ <;> first | (clear_value x; intro hx) | subst x)
       | subst x)
    | split
    | dsimp only
    | rfl)

theorem State.hostRead_kept {r s : State} (h : Kept r s) (c : Nat) (idx : Nat) (sub : Nat) (segmented : Bool) :
    Kept r (State.hostRead s c idx sub segmented) := by
  unfold State.hostRead
  repeat' (first
    | with_reducible
        first
        | assumption | apply Kept.ite | apply State.answer_kept | apply State.renew_kept | apply State.readObject_kept
        | apply State.openTransfer_kept | apply Kept.ite_snd | refine Kept.snd ‹_ = (_, _)› ?_
    | (extract_lets +onlyGivenNames x
       first
       | (refine Kept.cut (r := r) (x := x) ?_ ?_ <;> first | (clear_value x; intro hx) | subst x)
       | subst x)
    | split
    | dsimp only)

theorem State.beginWrite_kept {r s : State} (h : Kept r s) (c : Nat) (idx : Nat) (sub : Nat) (b : List Byte) :
    Kept r (State.beginWrite s c idx sub b) := by
  unfold State.beginWrite
  repeat' (first
    | with_reducible
        first
        | assumption | apply Kept.ite | apply State.answer_kept | apply State.renew_kept
        | apply State.openTransfer_kept
    | (extract_lets +onlyGivenNames x
       first
       | (refine Kept.cut (r := r) (x := x) ?_ ?_ <;> first | (clear_value x; intro hx) | subst x)
       | subst x)
    | split
    | dsimp only)

theorem State.segment_kept {r s : State} (h : Kept r s) (c : Nat) (b : List Byte) (last : Bool) :
    Kept r (State.segment s c b last) := by
  unfold State.segment
  repeat' (first
    | with_reducible
        first
        | assumption | apply Kept.ite | apply KeptE.ite | apply KeptE.ok | apply KeptE.error | apply State.answer_kept
        | apply State.renew_kept | apply State.closeTransfer_kept | apply State.hostWrite_kept
        | apply writeEffect_kept | apply State.openTransfer_kept | refine Kept.ofE ‹_ = Except.ok _› ?_
    | (extract_lets +onlyGivenNames x
       first
       | (refine Kept.cut (r := r) (x := x) ?_ ?_ <;> first | (clear_value x; intro hx) | subst x)
       | subst x)
    | split
    | dsimp only
    | (intro s1 h1; dsimp only)
    | intro s1 h1)

theorem execUsdoRequest_kept {r s : State} (h : Kept r s) (t : Nat) (c : Nat) (req : UsdoReq) :
    KeptO r (execUsdoRequest t c req s) := by
  unfold execUsdoRequest
  repeat' (first
    | with_reducible
        first
        | assumption | apply KeptE.ok | apply KeptE.error | apply KeptO.next | apply State.at_kept
        | apply State.hostRead_kept | apply State.hostWrite_kept | apply writeEffect_kept
        | apply State.beginWrite_kept | apply State.segment_kept | refine Kept.ofE ‹_ = Except.ok _› ?_
    | (extract_lets +onlyGivenNames x
       first
       | (refine Kept.cut (r := r) (x := x) ?_ ?_ <;> first | (clear_value x; intro hx) | subst x)
       | subst x)
    | split
    | dsimp only
    | (intro s1 h1; dsimp only)
    | intro s1 h1)

theorem execLatestBoundaryRead_kept {r s : State} (h : Kept r s) (t : Nat) (c : Nat) :
    KeptO r (execLatestBoundaryRead t c s) := by
  unfold execLatestBoundaryRead
  repeat' (first
    | with_reducible first | assumption | apply KeptO.next | apply State.hostRead_kept | apply State.at_kept)

theorem execSnapshotRead_kept {r s : State} (h : Kept r s) (t : Nat) (c : Nat) : KeptO r (execSnapshotRead t c s) := by
  unfold execSnapshotRead
  repeat' (first
    | with_reducible first | assumption | apply KeptO.next | apply State.hostRead_kept | apply State.at_kept)

theorem execRegisterWrite_kept {r s : State} (h : Kept r s) (t : Nat) (c : Nat) (index : Nat) (sub : Nat)
    (data : List Byte) :
    KeptO r (execRegisterWrite t c index sub data s) := by
  unfold execRegisterWrite
  repeat' (first
    | with_reducible
        first
        | assumption | apply KeptE.ok | apply KeptE.error | apply KeptO.next | apply State.hostWrite_kept
        | apply State.at_kept | apply writeEffect_kept | refine Kept.ofE ‹_ = Except.ok _› ?_
    | (intro s1 h1; dsimp only)
    | intro s1 h1)

theorem execLeaseLapse_kept {r s : State} (h : Kept r s) (t : Nat) : KeptO r (execLeaseLapse t s) := by
  unfold execLeaseLapse
  repeat' (first
    | with_reducible
        first
        | assumption | apply Kept.ite | apply KeptO.ite | apply KeptO.next | apply State.at_kept
        | apply State.endSession_kept
    | (extract_lets +onlyGivenNames x
       first
       | (refine Kept.cut (r := r) (x := x) ?_ ?_ <;> first | (clear_value x; intro hx) | subst x)
       | subst x)
    | split
    | dsimp only)

theorem execTransferTimeout_kept {r s : State} (h : Kept r s) (t : Nat) : KeptO r (execTransferTimeout t s) := by
  unfold execTransferTimeout
  repeat' (first
    | with_reducible
        first
        | assumption | apply Kept.ite | apply KeptO.ite | apply KeptO.next | apply State.at_kept
        | apply State.answer_kept | apply State.closeTransfer_kept
    | (extract_lets +onlyGivenNames x
       first
       | (refine Kept.cut (r := r) (x := x) ?_ ?_ <;> first | (clear_value x; intro hx) | subst x)
       | subst x)
    | split
    | dsimp only)

theorem execHeartbeat_kept {r s : State} (h : Kept r s) (t : Nat) : KeptO r (execHeartbeat t s) := by
  unfold execHeartbeat
  repeat' (first
    | with_reducible
        first
        | assumption | apply Kept.ite | apply KeptO.ite | apply KeptO.next | apply State.at_kept
        | apply State.emit_kept | rfl
    | (simp only [Kept.lit]; with_reducible apply KeptCore.of)
    | (extract_lets +onlyGivenNames x
       first
       | (refine Kept.cut (r := r) (x := x) ?_ ?_ <;> first | (clear_value x; intro hx) | subst x)
       | subst x)
    | split
    | dsimp only
    | rfl)

theorem execEmcy_kept {r s : State} (h : Kept r s) (t : Nat) : KeptO r (execEmcy t s) := by
  unfold execEmcy
  repeat' (first
    | with_reducible
        first
        | assumption | apply Kept.ite | apply KeptO.ite | apply KeptO.next | apply State.at_kept
        | apply State.emit_kept | rfl | exact swf_nil _ | apply swf_memWrite | apply swf_sput | apply swf_memClear
    | (have k := State.Sound.emcy (Kept.toSound ‹Kept r _›); simp only [*, List.length_cons] at k; omega)
    | (simp only [Kept.lit]; with_reducible apply KeptCore.units)
    | ((with_reducible
        first
        | apply State.Sound.dram | apply State.Sound.cashew | apply State.Sound.data | apply State.Sound.program
        | apply State.Sound.rungs | apply State.Sound.optics | apply State.Sound.das | apply State.Sound.poppy
        | apply State.Sound.engines | apply State.Sound.zones | apply State.Sound.seqs | apply State.Sound.captures
        | apply State.Sound.queues | apply State.Sound.flax | apply State.Sound.tx | apply State.Sound.rx
        | apply State.Sound.emcy | apply State.Sound.log); with_reducible apply Kept.toSound)
    | (simp only [List.length_replicate]; done)
    | (extract_lets +onlyGivenNames x
       first
       | (refine Kept.cut (r := r) (x := x) ?_ ?_ <;> first | (clear_value x; intro hx) | subst x)
       | subst x)
    | split
    | dsimp only
    | rfl)

end Sys2Proof.Machine
end

