-- ==== Sys2Proof/Laws/State.lean ====
section
/-! SUPPORT. One equation per field of State for each of the operations that every meaning is built from, and the dictionary read
after a write. -/

namespace Sys2Proof.Machine

open Sys2Proof

@[simp] theorem State.os_pending (s : State) (k v : Nat) : (s.os k v).pending = s.pending := rfl
@[simp] theorem State.os_now (s : State) (k v : Nat) : (s.os k v).now = s.now := rfl
@[simp] theorem State.os_free (s : State) (k v : Nat) : (s.os k v).free = s.free := rfl
@[simp] theorem State.os_domains (s : State) (k v : Nat) : (s.os k v).domains = s.domains := rfl
@[simp] theorem State.os_wire (s : State) (k v : Nat) : (s.os k v).wire = s.wire := rfl
@[simp] theorem State.os_board (s : State) (k v : Nat) : (s.os k v).board = s.board := rfl
@[simp] theorem State.os_pw (s : State) (k v : Nat) : (s.os k v).pw = s.pw := rfl
@[simp] theorem State.os_ctl (s : State) (k v : Nat) : (s.os k v).ctl = s.ctl := rfl
@[simp] theorem State.os_mg (s : State) (k v : Nat) : (s.os k v).mg = s.mg := rfl
@[simp] theorem State.os_lad (s : State) (k v : Nat) : (s.os k v).lad = s.lad := rfl
@[simp] theorem State.os_sw (s : State) (k v : Nat) : (s.os k v).sw = s.sw := rfl
@[simp] theorem State.os_opt (s : State) (k v : Nat) : (s.os k v).opt = s.opt := rfl
@[simp] theorem State.os_ch (s : State) (k v : Nat) : (s.os k v).ch = s.ch := rfl
@[simp] theorem State.os_das (s : State) (k v : Nat) : (s.os k v).das = s.das := rfl
@[simp] theorem State.os_pop (s : State) (k v : Nat) : (s.os k v).pop = s.pop := rfl
@[simp] theorem State.os_lin (s : State) (k v : Nat) : (s.os k v).lin = s.lin := rfl
@[simp] theorem State.os_hz (s : State) (k v : Nat) : (s.os k v).hz = s.hz := rfl
@[simp] theorem State.os_ses (s : State) (k v : Nat) : (s.os k v).ses = s.ses := rfl
@[simp] theorem State.os_caps (s : State) (k v : Nat) : (s.os k v).caps = s.caps := rfl
@[simp] theorem State.os_sun (s : State) (k v : Nat) : (s.os k v).sun = s.sun := rfl
@[simp] theorem State.os_qu (s : State) (k v : Nat) : (s.os k v).qu = s.qu := rfl
@[simp] theorem State.os_ln (s : State) (k v : Nat) : (s.os k v).ln = s.ln := rfl
@[simp] theorem State.os_mem (s : State) (k v : Nat) : (s.os k v).mem = s.mem := rfl
@[simp] theorem State.os_fx (s : State) (k v : Nat) : (s.os k v).fx = s.fx := rfl
@[simp] theorem State.os_al (s : State) (k v : Nat) : (s.os k v).al = s.al := rfl
@[simp] theorem State.os_tb (s : State) (k v : Nat) : (s.os k v).tb = s.tb := rfl
@[simp] theorem State.os_pip (s : State) (k v : Nat) : (s.os k v).pip = s.pip := rfl
@[simp] theorem State.os_dr (s : State) (k v : Nat) : (s.os k v).dr = s.dr := rfl
@[simp] theorem State.os_pod (s : State) (k v : Nat) : (s.os k v).pod = s.pod := rfl
@[simp] theorem State.os_up (s : State) (k v : Nat) : (s.os k v).up = s.up := rfl
@[simp] theorem State.os_inj (s : State) (k v : Nat) : (s.os k v).inj = s.inj := rfl

@[simp] theorem State.osI_pending (s : State) (w k : Nat) (v : Int) : (s.osI w k v).pending = s.pending := rfl
@[simp] theorem State.osI_now (s : State) (w k : Nat) (v : Int) : (s.osI w k v).now = s.now := rfl
@[simp] theorem State.osI_free (s : State) (w k : Nat) (v : Int) : (s.osI w k v).free = s.free := rfl
@[simp] theorem State.osI_domains (s : State) (w k : Nat) (v : Int) : (s.osI w k v).domains = s.domains := rfl
@[simp] theorem State.osI_wire (s : State) (w k : Nat) (v : Int) : (s.osI w k v).wire = s.wire := rfl
@[simp] theorem State.osI_board (s : State) (w k : Nat) (v : Int) : (s.osI w k v).board = s.board := rfl
@[simp] theorem State.osI_pw (s : State) (w k : Nat) (v : Int) : (s.osI w k v).pw = s.pw := rfl
@[simp] theorem State.osI_ctl (s : State) (w k : Nat) (v : Int) : (s.osI w k v).ctl = s.ctl := rfl
@[simp] theorem State.osI_mg (s : State) (w k : Nat) (v : Int) : (s.osI w k v).mg = s.mg := rfl
@[simp] theorem State.osI_lad (s : State) (w k : Nat) (v : Int) : (s.osI w k v).lad = s.lad := rfl
@[simp] theorem State.osI_sw (s : State) (w k : Nat) (v : Int) : (s.osI w k v).sw = s.sw := rfl
@[simp] theorem State.osI_opt (s : State) (w k : Nat) (v : Int) : (s.osI w k v).opt = s.opt := rfl
@[simp] theorem State.osI_ch (s : State) (w k : Nat) (v : Int) : (s.osI w k v).ch = s.ch := rfl
@[simp] theorem State.osI_das (s : State) (w k : Nat) (v : Int) : (s.osI w k v).das = s.das := rfl
@[simp] theorem State.osI_pop (s : State) (w k : Nat) (v : Int) : (s.osI w k v).pop = s.pop := rfl
@[simp] theorem State.osI_lin (s : State) (w k : Nat) (v : Int) : (s.osI w k v).lin = s.lin := rfl
@[simp] theorem State.osI_hz (s : State) (w k : Nat) (v : Int) : (s.osI w k v).hz = s.hz := rfl
@[simp] theorem State.osI_ses (s : State) (w k : Nat) (v : Int) : (s.osI w k v).ses = s.ses := rfl
@[simp] theorem State.osI_caps (s : State) (w k : Nat) (v : Int) : (s.osI w k v).caps = s.caps := rfl
@[simp] theorem State.osI_sun (s : State) (w k : Nat) (v : Int) : (s.osI w k v).sun = s.sun := rfl
@[simp] theorem State.osI_qu (s : State) (w k : Nat) (v : Int) : (s.osI w k v).qu = s.qu := rfl
@[simp] theorem State.osI_ln (s : State) (w k : Nat) (v : Int) : (s.osI w k v).ln = s.ln := rfl
@[simp] theorem State.osI_mem (s : State) (w k : Nat) (v : Int) : (s.osI w k v).mem = s.mem := rfl
@[simp] theorem State.osI_fx (s : State) (w k : Nat) (v : Int) : (s.osI w k v).fx = s.fx := rfl
@[simp] theorem State.osI_al (s : State) (w k : Nat) (v : Int) : (s.osI w k v).al = s.al := rfl
@[simp] theorem State.osI_tb (s : State) (w k : Nat) (v : Int) : (s.osI w k v).tb = s.tb := rfl
@[simp] theorem State.osI_pip (s : State) (w k : Nat) (v : Int) : (s.osI w k v).pip = s.pip := rfl
@[simp] theorem State.osI_dr (s : State) (w k : Nat) (v : Int) : (s.osI w k v).dr = s.dr := rfl
@[simp] theorem State.osI_pod (s : State) (w k : Nat) (v : Int) : (s.osI w k v).pod = s.pod := rfl
@[simp] theorem State.osI_up (s : State) (w k : Nat) (v : Int) : (s.osI w k v).up = s.up := rfl
@[simp] theorem State.osI_inj (s : State) (w k : Nat) (v : Int) : (s.osI w k v).inj = s.inj := rfl

@[simp] theorem State.osBit_pending (s : State) (k i : Nat) (on : Bool) : (s.osBit k i on).pending = s.pending := rfl
@[simp] theorem State.osBit_now (s : State) (k i : Nat) (on : Bool) : (s.osBit k i on).now = s.now := rfl
@[simp] theorem State.osBit_free (s : State) (k i : Nat) (on : Bool) : (s.osBit k i on).free = s.free := rfl
@[simp] theorem State.osBit_domains (s : State) (k i : Nat) (on : Bool) : (s.osBit k i on).domains = s.domains := rfl
@[simp] theorem State.osBit_wire (s : State) (k i : Nat) (on : Bool) : (s.osBit k i on).wire = s.wire := rfl
@[simp] theorem State.osBit_board (s : State) (k i : Nat) (on : Bool) : (s.osBit k i on).board = s.board := rfl
@[simp] theorem State.osBit_pw (s : State) (k i : Nat) (on : Bool) : (s.osBit k i on).pw = s.pw := rfl
@[simp] theorem State.osBit_ctl (s : State) (k i : Nat) (on : Bool) : (s.osBit k i on).ctl = s.ctl := rfl
@[simp] theorem State.osBit_mg (s : State) (k i : Nat) (on : Bool) : (s.osBit k i on).mg = s.mg := rfl
@[simp] theorem State.osBit_lad (s : State) (k i : Nat) (on : Bool) : (s.osBit k i on).lad = s.lad := rfl
@[simp] theorem State.osBit_sw (s : State) (k i : Nat) (on : Bool) : (s.osBit k i on).sw = s.sw := rfl
@[simp] theorem State.osBit_opt (s : State) (k i : Nat) (on : Bool) : (s.osBit k i on).opt = s.opt := rfl
@[simp] theorem State.osBit_ch (s : State) (k i : Nat) (on : Bool) : (s.osBit k i on).ch = s.ch := rfl
@[simp] theorem State.osBit_das (s : State) (k i : Nat) (on : Bool) : (s.osBit k i on).das = s.das := rfl
@[simp] theorem State.osBit_pop (s : State) (k i : Nat) (on : Bool) : (s.osBit k i on).pop = s.pop := rfl
@[simp] theorem State.osBit_lin (s : State) (k i : Nat) (on : Bool) : (s.osBit k i on).lin = s.lin := rfl
@[simp] theorem State.osBit_hz (s : State) (k i : Nat) (on : Bool) : (s.osBit k i on).hz = s.hz := rfl
@[simp] theorem State.osBit_ses (s : State) (k i : Nat) (on : Bool) : (s.osBit k i on).ses = s.ses := rfl
@[simp] theorem State.osBit_caps (s : State) (k i : Nat) (on : Bool) : (s.osBit k i on).caps = s.caps := rfl
@[simp] theorem State.osBit_sun (s : State) (k i : Nat) (on : Bool) : (s.osBit k i on).sun = s.sun := rfl
@[simp] theorem State.osBit_qu (s : State) (k i : Nat) (on : Bool) : (s.osBit k i on).qu = s.qu := rfl
@[simp] theorem State.osBit_ln (s : State) (k i : Nat) (on : Bool) : (s.osBit k i on).ln = s.ln := rfl
@[simp] theorem State.osBit_mem (s : State) (k i : Nat) (on : Bool) : (s.osBit k i on).mem = s.mem := rfl
@[simp] theorem State.osBit_fx (s : State) (k i : Nat) (on : Bool) : (s.osBit k i on).fx = s.fx := rfl
@[simp] theorem State.osBit_al (s : State) (k i : Nat) (on : Bool) : (s.osBit k i on).al = s.al := rfl
@[simp] theorem State.osBit_tb (s : State) (k i : Nat) (on : Bool) : (s.osBit k i on).tb = s.tb := rfl
@[simp] theorem State.osBit_pip (s : State) (k i : Nat) (on : Bool) : (s.osBit k i on).pip = s.pip := rfl
@[simp] theorem State.osBit_dr (s : State) (k i : Nat) (on : Bool) : (s.osBit k i on).dr = s.dr := rfl
@[simp] theorem State.osBit_pod (s : State) (k i : Nat) (on : Bool) : (s.osBit k i on).pod = s.pod := rfl
@[simp] theorem State.osBit_up (s : State) (k i : Nat) (on : Bool) : (s.osBit k i on).up = s.up := rfl
@[simp] theorem State.osBit_inj (s : State) (k i : Nat) (on : Bool) : (s.osBit k i on).inj = s.inj := rfl

@[simp] theorem State.bump_pending (s : State) (k n : Nat) : (s.bump k n).pending = s.pending := rfl
@[simp] theorem State.bump_now (s : State) (k n : Nat) : (s.bump k n).now = s.now := rfl
@[simp] theorem State.bump_free (s : State) (k n : Nat) : (s.bump k n).free = s.free := rfl
@[simp] theorem State.bump_domains (s : State) (k n : Nat) : (s.bump k n).domains = s.domains := rfl
@[simp] theorem State.bump_wire (s : State) (k n : Nat) : (s.bump k n).wire = s.wire := rfl
@[simp] theorem State.bump_board (s : State) (k n : Nat) : (s.bump k n).board = s.board := rfl
@[simp] theorem State.bump_pw (s : State) (k n : Nat) : (s.bump k n).pw = s.pw := rfl
@[simp] theorem State.bump_ctl (s : State) (k n : Nat) : (s.bump k n).ctl = s.ctl := rfl
@[simp] theorem State.bump_mg (s : State) (k n : Nat) : (s.bump k n).mg = s.mg := rfl
@[simp] theorem State.bump_lad (s : State) (k n : Nat) : (s.bump k n).lad = s.lad := rfl
@[simp] theorem State.bump_sw (s : State) (k n : Nat) : (s.bump k n).sw = s.sw := rfl
@[simp] theorem State.bump_opt (s : State) (k n : Nat) : (s.bump k n).opt = s.opt := rfl
@[simp] theorem State.bump_ch (s : State) (k n : Nat) : (s.bump k n).ch = s.ch := rfl
@[simp] theorem State.bump_das (s : State) (k n : Nat) : (s.bump k n).das = s.das := rfl
@[simp] theorem State.bump_pop (s : State) (k n : Nat) : (s.bump k n).pop = s.pop := rfl
@[simp] theorem State.bump_lin (s : State) (k n : Nat) : (s.bump k n).lin = s.lin := rfl
@[simp] theorem State.bump_hz (s : State) (k n : Nat) : (s.bump k n).hz = s.hz := rfl
@[simp] theorem State.bump_ses (s : State) (k n : Nat) : (s.bump k n).ses = s.ses := rfl
@[simp] theorem State.bump_caps (s : State) (k n : Nat) : (s.bump k n).caps = s.caps := rfl
@[simp] theorem State.bump_sun (s : State) (k n : Nat) : (s.bump k n).sun = s.sun := rfl
@[simp] theorem State.bump_qu (s : State) (k n : Nat) : (s.bump k n).qu = s.qu := rfl
@[simp] theorem State.bump_ln (s : State) (k n : Nat) : (s.bump k n).ln = s.ln := rfl
@[simp] theorem State.bump_mem (s : State) (k n : Nat) : (s.bump k n).mem = s.mem := rfl
@[simp] theorem State.bump_fx (s : State) (k n : Nat) : (s.bump k n).fx = s.fx := rfl
@[simp] theorem State.bump_al (s : State) (k n : Nat) : (s.bump k n).al = s.al := rfl
@[simp] theorem State.bump_tb (s : State) (k n : Nat) : (s.bump k n).tb = s.tb := rfl
@[simp] theorem State.bump_pip (s : State) (k n : Nat) : (s.bump k n).pip = s.pip := rfl
@[simp] theorem State.bump_dr (s : State) (k n : Nat) : (s.bump k n).dr = s.dr := rfl
@[simp] theorem State.bump_pod (s : State) (k n : Nat) : (s.bump k n).pod = s.pod := rfl
@[simp] theorem State.bump_up (s : State) (k n : Nat) : (s.bump k n).up = s.up := rfl
@[simp] theorem State.bump_inj (s : State) (k n : Nat) : (s.bump k n).inj = s.inj := rfl

@[simp] theorem State.ds_pending (s : State) (k : Nat) (b : List Byte) : (s.ds k b).pending = s.pending := rfl
@[simp] theorem State.ds_now (s : State) (k : Nat) (b : List Byte) : (s.ds k b).now = s.now := rfl
@[simp] theorem State.ds_free (s : State) (k : Nat) (b : List Byte) : (s.ds k b).free = s.free := rfl
@[simp] theorem State.ds_objects (s : State) (k : Nat) (b : List Byte) : (s.ds k b).objects = s.objects := rfl
@[simp] theorem State.ds_wire (s : State) (k : Nat) (b : List Byte) : (s.ds k b).wire = s.wire := rfl
@[simp] theorem State.ds_board (s : State) (k : Nat) (b : List Byte) : (s.ds k b).board = s.board := rfl
@[simp] theorem State.ds_pw (s : State) (k : Nat) (b : List Byte) : (s.ds k b).pw = s.pw := rfl
@[simp] theorem State.ds_ctl (s : State) (k : Nat) (b : List Byte) : (s.ds k b).ctl = s.ctl := rfl
@[simp] theorem State.ds_mg (s : State) (k : Nat) (b : List Byte) : (s.ds k b).mg = s.mg := rfl
@[simp] theorem State.ds_lad (s : State) (k : Nat) (b : List Byte) : (s.ds k b).lad = s.lad := rfl
@[simp] theorem State.ds_sw (s : State) (k : Nat) (b : List Byte) : (s.ds k b).sw = s.sw := rfl
@[simp] theorem State.ds_opt (s : State) (k : Nat) (b : List Byte) : (s.ds k b).opt = s.opt := rfl
@[simp] theorem State.ds_ch (s : State) (k : Nat) (b : List Byte) : (s.ds k b).ch = s.ch := rfl
@[simp] theorem State.ds_das (s : State) (k : Nat) (b : List Byte) : (s.ds k b).das = s.das := rfl
@[simp] theorem State.ds_pop (s : State) (k : Nat) (b : List Byte) : (s.ds k b).pop = s.pop := rfl
@[simp] theorem State.ds_lin (s : State) (k : Nat) (b : List Byte) : (s.ds k b).lin = s.lin := rfl
@[simp] theorem State.ds_hz (s : State) (k : Nat) (b : List Byte) : (s.ds k b).hz = s.hz := rfl
@[simp] theorem State.ds_ses (s : State) (k : Nat) (b : List Byte) : (s.ds k b).ses = s.ses := rfl
@[simp] theorem State.ds_caps (s : State) (k : Nat) (b : List Byte) : (s.ds k b).caps = s.caps := rfl
@[simp] theorem State.ds_sun (s : State) (k : Nat) (b : List Byte) : (s.ds k b).sun = s.sun := rfl
@[simp] theorem State.ds_qu (s : State) (k : Nat) (b : List Byte) : (s.ds k b).qu = s.qu := rfl
@[simp] theorem State.ds_ln (s : State) (k : Nat) (b : List Byte) : (s.ds k b).ln = s.ln := rfl
@[simp] theorem State.ds_mem (s : State) (k : Nat) (b : List Byte) : (s.ds k b).mem = s.mem := rfl
@[simp] theorem State.ds_fx (s : State) (k : Nat) (b : List Byte) : (s.ds k b).fx = s.fx := rfl
@[simp] theorem State.ds_al (s : State) (k : Nat) (b : List Byte) : (s.ds k b).al = s.al := rfl
@[simp] theorem State.ds_tb (s : State) (k : Nat) (b : List Byte) : (s.ds k b).tb = s.tb := rfl
@[simp] theorem State.ds_pip (s : State) (k : Nat) (b : List Byte) : (s.ds k b).pip = s.pip := rfl
@[simp] theorem State.ds_dr (s : State) (k : Nat) (b : List Byte) : (s.ds k b).dr = s.dr := rfl
@[simp] theorem State.ds_pod (s : State) (k : Nat) (b : List Byte) : (s.ds k b).pod = s.pod := rfl
@[simp] theorem State.ds_up (s : State) (k : Nat) (b : List Byte) : (s.ds k b).up = s.up := rfl
@[simp] theorem State.ds_inj (s : State) (k : Nat) (b : List Byte) : (s.ds k b).inj = s.inj := rfl

@[simp] theorem State.at_pending (s : State) (t : Nat) : (s.at t).pending = s.pending := rfl
@[simp] theorem State.at_free (s : State) (t : Nat) : (s.at t).free = s.free := rfl
@[simp] theorem State.at_objects (s : State) (t : Nat) : (s.at t).objects = s.objects := rfl
@[simp] theorem State.at_domains (s : State) (t : Nat) : (s.at t).domains = s.domains := rfl
@[simp] theorem State.at_wire (s : State) (t : Nat) : (s.at t).wire = s.wire := rfl
@[simp] theorem State.at_board (s : State) (t : Nat) : (s.at t).board = s.board := rfl
@[simp] theorem State.at_ctl (s : State) (t : Nat) : (s.at t).ctl = s.ctl := rfl
@[simp] theorem State.at_mg (s : State) (t : Nat) : (s.at t).mg = s.mg := rfl
@[simp] theorem State.at_lad (s : State) (t : Nat) : (s.at t).lad = s.lad := rfl
@[simp] theorem State.at_sw (s : State) (t : Nat) : (s.at t).sw = s.sw := rfl
@[simp] theorem State.at_opt (s : State) (t : Nat) : (s.at t).opt = s.opt := rfl
@[simp] theorem State.at_ch (s : State) (t : Nat) : (s.at t).ch = s.ch := rfl
@[simp] theorem State.at_das (s : State) (t : Nat) : (s.at t).das = s.das := rfl
@[simp] theorem State.at_pop (s : State) (t : Nat) : (s.at t).pop = s.pop := rfl
@[simp] theorem State.at_lin (s : State) (t : Nat) : (s.at t).lin = s.lin := rfl
@[simp] theorem State.at_hz (s : State) (t : Nat) : (s.at t).hz = s.hz := rfl
@[simp] theorem State.at_ses (s : State) (t : Nat) : (s.at t).ses = s.ses := rfl
@[simp] theorem State.at_caps (s : State) (t : Nat) : (s.at t).caps = s.caps := rfl
@[simp] theorem State.at_sun (s : State) (t : Nat) : (s.at t).sun = s.sun := rfl
@[simp] theorem State.at_qu (s : State) (t : Nat) : (s.at t).qu = s.qu := rfl
@[simp] theorem State.at_ln (s : State) (t : Nat) : (s.at t).ln = s.ln := rfl
@[simp] theorem State.at_mem (s : State) (t : Nat) : (s.at t).mem = s.mem := rfl
@[simp] theorem State.at_fx (s : State) (t : Nat) : (s.at t).fx = s.fx := rfl
@[simp] theorem State.at_al (s : State) (t : Nat) : (s.at t).al = s.al := rfl
@[simp] theorem State.at_pip (s : State) (t : Nat) : (s.at t).pip = s.pip := rfl
@[simp] theorem State.at_dr (s : State) (t : Nat) : (s.at t).dr = s.dr := rfl
@[simp] theorem State.at_pod (s : State) (t : Nat) : (s.at t).pod = s.pod := rfl
@[simp] theorem State.at_up (s : State) (t : Nat) : (s.at t).up = s.up := rfl
@[simp] theorem State.at_inj (s : State) (t : Nat) : (s.at t).inj = s.inj := rfl

@[simp] theorem State.emit_pending (s : State) (w : Wire) : (s.emit w).pending = s.pending := rfl
@[simp] theorem State.emit_now (s : State) (w : Wire) : (s.emit w).now = s.now := rfl
@[simp] theorem State.emit_free (s : State) (w : Wire) : (s.emit w).free = s.free := rfl
@[simp] theorem State.emit_objects (s : State) (w : Wire) : (s.emit w).objects = s.objects := rfl
@[simp] theorem State.emit_domains (s : State) (w : Wire) : (s.emit w).domains = s.domains := rfl
@[simp] theorem State.emit_board (s : State) (w : Wire) : (s.emit w).board = s.board := rfl
@[simp] theorem State.emit_pw (s : State) (w : Wire) : (s.emit w).pw = s.pw := rfl
@[simp] theorem State.emit_ctl (s : State) (w : Wire) : (s.emit w).ctl = s.ctl := rfl
@[simp] theorem State.emit_mg (s : State) (w : Wire) : (s.emit w).mg = s.mg := rfl
@[simp] theorem State.emit_lad (s : State) (w : Wire) : (s.emit w).lad = s.lad := rfl
@[simp] theorem State.emit_sw (s : State) (w : Wire) : (s.emit w).sw = s.sw := rfl
@[simp] theorem State.emit_opt (s : State) (w : Wire) : (s.emit w).opt = s.opt := rfl
@[simp] theorem State.emit_ch (s : State) (w : Wire) : (s.emit w).ch = s.ch := rfl
@[simp] theorem State.emit_das (s : State) (w : Wire) : (s.emit w).das = s.das := rfl
@[simp] theorem State.emit_pop (s : State) (w : Wire) : (s.emit w).pop = s.pop := rfl
@[simp] theorem State.emit_lin (s : State) (w : Wire) : (s.emit w).lin = s.lin := rfl
@[simp] theorem State.emit_hz (s : State) (w : Wire) : (s.emit w).hz = s.hz := rfl
@[simp] theorem State.emit_ses (s : State) (w : Wire) : (s.emit w).ses = s.ses := rfl
@[simp] theorem State.emit_caps (s : State) (w : Wire) : (s.emit w).caps = s.caps := rfl
@[simp] theorem State.emit_sun (s : State) (w : Wire) : (s.emit w).sun = s.sun := rfl
@[simp] theorem State.emit_qu (s : State) (w : Wire) : (s.emit w).qu = s.qu := rfl
@[simp] theorem State.emit_ln (s : State) (w : Wire) : (s.emit w).ln = s.ln := rfl
@[simp] theorem State.emit_mem (s : State) (w : Wire) : (s.emit w).mem = s.mem := rfl
@[simp] theorem State.emit_fx (s : State) (w : Wire) : (s.emit w).fx = s.fx := rfl
@[simp] theorem State.emit_al (s : State) (w : Wire) : (s.emit w).al = s.al := rfl
@[simp] theorem State.emit_tb (s : State) (w : Wire) : (s.emit w).tb = s.tb := rfl
@[simp] theorem State.emit_pip (s : State) (w : Wire) : (s.emit w).pip = s.pip := rfl
@[simp] theorem State.emit_dr (s : State) (w : Wire) : (s.emit w).dr = s.dr := rfl
@[simp] theorem State.emit_pod (s : State) (w : Wire) : (s.emit w).pod = s.pod := rfl
@[simp] theorem State.emit_up (s : State) (w : Wire) : (s.emit w).up = s.up := rfl
@[simp] theorem State.emit_inj (s : State) (w : Wire) : (s.emit w).inj = s.inj := rfl

@[simp] theorem State.answer_pending (s : State) (c : Nat) (a : Answer) : (s.answer c a).pending = s.pending := rfl
@[simp] theorem State.answer_now (s : State) (c : Nat) (a : Answer) : (s.answer c a).now = s.now := rfl
@[simp] theorem State.answer_free (s : State) (c : Nat) (a : Answer) : (s.answer c a).free = s.free := rfl
@[simp] theorem State.answer_objects (s : State) (c : Nat) (a : Answer) : (s.answer c a).objects = s.objects := rfl
@[simp] theorem State.answer_domains (s : State) (c : Nat) (a : Answer) : (s.answer c a).domains = s.domains := rfl
@[simp] theorem State.answer_board (s : State) (c : Nat) (a : Answer) : (s.answer c a).board = s.board := rfl
@[simp] theorem State.answer_pw (s : State) (c : Nat) (a : Answer) : (s.answer c a).pw = s.pw := rfl
@[simp] theorem State.answer_ctl (s : State) (c : Nat) (a : Answer) : (s.answer c a).ctl = s.ctl := rfl
@[simp] theorem State.answer_mg (s : State) (c : Nat) (a : Answer) : (s.answer c a).mg = s.mg := rfl
@[simp] theorem State.answer_lad (s : State) (c : Nat) (a : Answer) : (s.answer c a).lad = s.lad := rfl
@[simp] theorem State.answer_sw (s : State) (c : Nat) (a : Answer) : (s.answer c a).sw = s.sw := rfl
@[simp] theorem State.answer_opt (s : State) (c : Nat) (a : Answer) : (s.answer c a).opt = s.opt := rfl
@[simp] theorem State.answer_ch (s : State) (c : Nat) (a : Answer) : (s.answer c a).ch = s.ch := rfl
@[simp] theorem State.answer_das (s : State) (c : Nat) (a : Answer) : (s.answer c a).das = s.das := rfl
@[simp] theorem State.answer_pop (s : State) (c : Nat) (a : Answer) : (s.answer c a).pop = s.pop := rfl
@[simp] theorem State.answer_lin (s : State) (c : Nat) (a : Answer) : (s.answer c a).lin = s.lin := rfl
@[simp] theorem State.answer_hz (s : State) (c : Nat) (a : Answer) : (s.answer c a).hz = s.hz := rfl
@[simp] theorem State.answer_ses (s : State) (c : Nat) (a : Answer) : (s.answer c a).ses = s.ses := rfl
@[simp] theorem State.answer_caps (s : State) (c : Nat) (a : Answer) : (s.answer c a).caps = s.caps := rfl
@[simp] theorem State.answer_sun (s : State) (c : Nat) (a : Answer) : (s.answer c a).sun = s.sun := rfl
@[simp] theorem State.answer_qu (s : State) (c : Nat) (a : Answer) : (s.answer c a).qu = s.qu := rfl
@[simp] theorem State.answer_ln (s : State) (c : Nat) (a : Answer) : (s.answer c a).ln = s.ln := rfl
@[simp] theorem State.answer_mem (s : State) (c : Nat) (a : Answer) : (s.answer c a).mem = s.mem := rfl
@[simp] theorem State.answer_fx (s : State) (c : Nat) (a : Answer) : (s.answer c a).fx = s.fx := rfl
@[simp] theorem State.answer_al (s : State) (c : Nat) (a : Answer) : (s.answer c a).al = s.al := rfl
@[simp] theorem State.answer_tb (s : State) (c : Nat) (a : Answer) : (s.answer c a).tb = s.tb := rfl
@[simp] theorem State.answer_pip (s : State) (c : Nat) (a : Answer) : (s.answer c a).pip = s.pip := rfl
@[simp] theorem State.answer_dr (s : State) (c : Nat) (a : Answer) : (s.answer c a).dr = s.dr := rfl
@[simp] theorem State.answer_pod (s : State) (c : Nat) (a : Answer) : (s.answer c a).pod = s.pod := rfl
@[simp] theorem State.answer_up (s : State) (c : Nat) (a : Answer) : (s.answer c a).up = s.up := rfl
@[simp] theorem State.answer_inj (s : State) (c : Nat) (a : Answer) : (s.answer c a).inj = s.inj := rfl

@[simp] theorem State.renew_pending (s : State) (c : Nat) : (s.renew c).pending = s.pending := rfl
@[simp] theorem State.renew_now (s : State) (c : Nat) : (s.renew c).now = s.now := rfl
@[simp] theorem State.renew_free (s : State) (c : Nat) : (s.renew c).free = s.free := rfl
@[simp] theorem State.renew_domains (s : State) (c : Nat) : (s.renew c).domains = s.domains := rfl
@[simp] theorem State.renew_wire (s : State) (c : Nat) : (s.renew c).wire = s.wire := rfl
@[simp] theorem State.renew_board (s : State) (c : Nat) : (s.renew c).board = s.board := rfl
@[simp] theorem State.renew_pw (s : State) (c : Nat) : (s.renew c).pw = s.pw := rfl
@[simp] theorem State.renew_mg (s : State) (c : Nat) : (s.renew c).mg = s.mg := rfl
@[simp] theorem State.renew_lad (s : State) (c : Nat) : (s.renew c).lad = s.lad := rfl
@[simp] theorem State.renew_sw (s : State) (c : Nat) : (s.renew c).sw = s.sw := rfl
@[simp] theorem State.renew_opt (s : State) (c : Nat) : (s.renew c).opt = s.opt := rfl
@[simp] theorem State.renew_ch (s : State) (c : Nat) : (s.renew c).ch = s.ch := rfl
@[simp] theorem State.renew_das (s : State) (c : Nat) : (s.renew c).das = s.das := rfl
@[simp] theorem State.renew_pop (s : State) (c : Nat) : (s.renew c).pop = s.pop := rfl
@[simp] theorem State.renew_lin (s : State) (c : Nat) : (s.renew c).lin = s.lin := rfl
@[simp] theorem State.renew_hz (s : State) (c : Nat) : (s.renew c).hz = s.hz := rfl
@[simp] theorem State.renew_ses (s : State) (c : Nat) : (s.renew c).ses = s.ses := rfl
@[simp] theorem State.renew_caps (s : State) (c : Nat) : (s.renew c).caps = s.caps := rfl
@[simp] theorem State.renew_sun (s : State) (c : Nat) : (s.renew c).sun = s.sun := rfl
@[simp] theorem State.renew_qu (s : State) (c : Nat) : (s.renew c).qu = s.qu := rfl
@[simp] theorem State.renew_ln (s : State) (c : Nat) : (s.renew c).ln = s.ln := rfl
@[simp] theorem State.renew_mem (s : State) (c : Nat) : (s.renew c).mem = s.mem := rfl
@[simp] theorem State.renew_fx (s : State) (c : Nat) : (s.renew c).fx = s.fx := rfl
@[simp] theorem State.renew_al (s : State) (c : Nat) : (s.renew c).al = s.al := rfl
@[simp] theorem State.renew_tb (s : State) (c : Nat) : (s.renew c).tb = s.tb := rfl
@[simp] theorem State.renew_pip (s : State) (c : Nat) : (s.renew c).pip = s.pip := rfl
@[simp] theorem State.renew_dr (s : State) (c : Nat) : (s.renew c).dr = s.dr := rfl
@[simp] theorem State.renew_pod (s : State) (c : Nat) : (s.renew c).pod = s.pod := rfl
@[simp] theorem State.renew_up (s : State) (c : Nat) : (s.renew c).up = s.up := rfl
@[simp] theorem State.renew_inj (s : State) (c : Nat) : (s.renew c).inj = s.inj := rfl

@[simp] theorem State.pulse_pending (s : State) (i : Nat) : (s.pulse i).pending = s.pending := rfl
@[simp] theorem State.pulse_now (s : State) (i : Nat) : (s.pulse i).now = s.now := rfl
@[simp] theorem State.pulse_free (s : State) (i : Nat) : (s.pulse i).free = s.free := rfl
@[simp] theorem State.pulse_objects (s : State) (i : Nat) : (s.pulse i).objects = s.objects := rfl
@[simp] theorem State.pulse_domains (s : State) (i : Nat) : (s.pulse i).domains = s.domains := rfl
@[simp] theorem State.pulse_wire (s : State) (i : Nat) : (s.pulse i).wire = s.wire := rfl
@[simp] theorem State.pulse_board (s : State) (i : Nat) : (s.pulse i).board = s.board := rfl
@[simp] theorem State.pulse_pw (s : State) (i : Nat) : (s.pulse i).pw = s.pw := rfl
@[simp] theorem State.pulse_ctl (s : State) (i : Nat) : (s.pulse i).ctl = s.ctl := rfl
@[simp] theorem State.pulse_mg (s : State) (i : Nat) : (s.pulse i).mg = s.mg := rfl
@[simp] theorem State.pulse_lad (s : State) (i : Nat) : (s.pulse i).lad = s.lad := rfl
@[simp] theorem State.pulse_sw (s : State) (i : Nat) : (s.pulse i).sw = s.sw := rfl
@[simp] theorem State.pulse_opt (s : State) (i : Nat) : (s.pulse i).opt = s.opt := rfl
@[simp] theorem State.pulse_ch (s : State) (i : Nat) : (s.pulse i).ch = s.ch := rfl
@[simp] theorem State.pulse_das (s : State) (i : Nat) : (s.pulse i).das = s.das := rfl
@[simp] theorem State.pulse_pop (s : State) (i : Nat) : (s.pulse i).pop = s.pop := rfl
@[simp] theorem State.pulse_lin (s : State) (i : Nat) : (s.pulse i).lin = s.lin := rfl
@[simp] theorem State.pulse_hz (s : State) (i : Nat) : (s.pulse i).hz = s.hz := rfl
@[simp] theorem State.pulse_caps (s : State) (i : Nat) : (s.pulse i).caps = s.caps := rfl
@[simp] theorem State.pulse_sun (s : State) (i : Nat) : (s.pulse i).sun = s.sun := rfl
@[simp] theorem State.pulse_qu (s : State) (i : Nat) : (s.pulse i).qu = s.qu := rfl
@[simp] theorem State.pulse_ln (s : State) (i : Nat) : (s.pulse i).ln = s.ln := rfl
@[simp] theorem State.pulse_mem (s : State) (i : Nat) : (s.pulse i).mem = s.mem := rfl
@[simp] theorem State.pulse_fx (s : State) (i : Nat) : (s.pulse i).fx = s.fx := rfl
@[simp] theorem State.pulse_al (s : State) (i : Nat) : (s.pulse i).al = s.al := rfl
@[simp] theorem State.pulse_tb (s : State) (i : Nat) : (s.pulse i).tb = s.tb := rfl
@[simp] theorem State.pulse_pip (s : State) (i : Nat) : (s.pulse i).pip = s.pip := rfl
@[simp] theorem State.pulse_dr (s : State) (i : Nat) : (s.pulse i).dr = s.dr := rfl
@[simp] theorem State.pulse_pod (s : State) (i : Nat) : (s.pulse i).pod = s.pod := rfl
@[simp] theorem State.pulse_up (s : State) (i : Nat) : (s.pulse i).up = s.up := rfl
@[simp] theorem State.pulse_inj (s : State) (i : Nat) : (s.pulse i).inj = s.inj := rfl

@[simp] theorem State.setQueue_pending (s : State) (q : Nat) (f : Queue → Queue) : (s.setQueue q f).pending = s.pending := rfl
@[simp] theorem State.setQueue_now (s : State) (q : Nat) (f : Queue → Queue) : (s.setQueue q f).now = s.now := rfl
@[simp] theorem State.setQueue_free (s : State) (q : Nat) (f : Queue → Queue) : (s.setQueue q f).free = s.free := rfl
@[simp] theorem State.setQueue_objects (s : State) (q : Nat) (f : Queue → Queue) : (s.setQueue q f).objects = s.objects := rfl
@[simp] theorem State.setQueue_domains (s : State) (q : Nat) (f : Queue → Queue) : (s.setQueue q f).domains = s.domains := rfl
@[simp] theorem State.setQueue_wire (s : State) (q : Nat) (f : Queue → Queue) : (s.setQueue q f).wire = s.wire := rfl
@[simp] theorem State.setQueue_board (s : State) (q : Nat) (f : Queue → Queue) : (s.setQueue q f).board = s.board := rfl
@[simp] theorem State.setQueue_pw (s : State) (q : Nat) (f : Queue → Queue) : (s.setQueue q f).pw = s.pw := rfl
@[simp] theorem State.setQueue_ctl (s : State) (q : Nat) (f : Queue → Queue) : (s.setQueue q f).ctl = s.ctl := rfl
@[simp] theorem State.setQueue_mg (s : State) (q : Nat) (f : Queue → Queue) : (s.setQueue q f).mg = s.mg := rfl
@[simp] theorem State.setQueue_lad (s : State) (q : Nat) (f : Queue → Queue) : (s.setQueue q f).lad = s.lad := rfl
@[simp] theorem State.setQueue_sw (s : State) (q : Nat) (f : Queue → Queue) : (s.setQueue q f).sw = s.sw := rfl
@[simp] theorem State.setQueue_opt (s : State) (q : Nat) (f : Queue → Queue) : (s.setQueue q f).opt = s.opt := rfl
@[simp] theorem State.setQueue_ch (s : State) (q : Nat) (f : Queue → Queue) : (s.setQueue q f).ch = s.ch := rfl
@[simp] theorem State.setQueue_das (s : State) (q : Nat) (f : Queue → Queue) : (s.setQueue q f).das = s.das := rfl
@[simp] theorem State.setQueue_pop (s : State) (q : Nat) (f : Queue → Queue) : (s.setQueue q f).pop = s.pop := rfl
@[simp] theorem State.setQueue_lin (s : State) (q : Nat) (f : Queue → Queue) : (s.setQueue q f).lin = s.lin := rfl
@[simp] theorem State.setQueue_hz (s : State) (q : Nat) (f : Queue → Queue) : (s.setQueue q f).hz = s.hz := rfl
@[simp] theorem State.setQueue_ses (s : State) (q : Nat) (f : Queue → Queue) : (s.setQueue q f).ses = s.ses := rfl
@[simp] theorem State.setQueue_caps (s : State) (q : Nat) (f : Queue → Queue) : (s.setQueue q f).caps = s.caps := rfl
@[simp] theorem State.setQueue_sun (s : State) (q : Nat) (f : Queue → Queue) : (s.setQueue q f).sun = s.sun := rfl
@[simp] theorem State.setQueue_ln (s : State) (q : Nat) (f : Queue → Queue) : (s.setQueue q f).ln = s.ln := rfl
@[simp] theorem State.setQueue_mem (s : State) (q : Nat) (f : Queue → Queue) : (s.setQueue q f).mem = s.mem := rfl
@[simp] theorem State.setQueue_fx (s : State) (q : Nat) (f : Queue → Queue) : (s.setQueue q f).fx = s.fx := rfl
@[simp] theorem State.setQueue_al (s : State) (q : Nat) (f : Queue → Queue) : (s.setQueue q f).al = s.al := rfl
@[simp] theorem State.setQueue_tb (s : State) (q : Nat) (f : Queue → Queue) : (s.setQueue q f).tb = s.tb := rfl
@[simp] theorem State.setQueue_pip (s : State) (q : Nat) (f : Queue → Queue) : (s.setQueue q f).pip = s.pip := rfl
@[simp] theorem State.setQueue_dr (s : State) (q : Nat) (f : Queue → Queue) : (s.setQueue q f).dr = s.dr := rfl
@[simp] theorem State.setQueue_pod (s : State) (q : Nat) (f : Queue → Queue) : (s.setQueue q f).pod = s.pod := rfl
@[simp] theorem State.setQueue_up (s : State) (q : Nat) (f : Queue → Queue) : (s.setQueue q f).up = s.up := rfl
@[simp] theorem State.setQueue_inj (s : State) (q : Nat) (f : Queue → Queue) : (s.setQueue q f).inj = s.inj := rfl

@[simp] theorem State.accept_pending (s : State) (q : Nat) (o : Offer) : (s.accept q o).pending = s.pending := rfl
@[simp] theorem State.accept_now (s : State) (q : Nat) (o : Offer) : (s.accept q o).now = s.now := rfl
@[simp] theorem State.accept_free (s : State) (q : Nat) (o : Offer) : (s.accept q o).free = s.free := rfl
@[simp] theorem State.accept_objects (s : State) (q : Nat) (o : Offer) : (s.accept q o).objects = s.objects := rfl
@[simp] theorem State.accept_domains (s : State) (q : Nat) (o : Offer) : (s.accept q o).domains = s.domains := rfl
@[simp] theorem State.accept_wire (s : State) (q : Nat) (o : Offer) : (s.accept q o).wire = s.wire := rfl
@[simp] theorem State.accept_board (s : State) (q : Nat) (o : Offer) : (s.accept q o).board = s.board := rfl
@[simp] theorem State.accept_pw (s : State) (q : Nat) (o : Offer) : (s.accept q o).pw = s.pw := rfl
@[simp] theorem State.accept_ctl (s : State) (q : Nat) (o : Offer) : (s.accept q o).ctl = s.ctl := rfl
@[simp] theorem State.accept_mg (s : State) (q : Nat) (o : Offer) : (s.accept q o).mg = s.mg := rfl
@[simp] theorem State.accept_lad (s : State) (q : Nat) (o : Offer) : (s.accept q o).lad = s.lad := rfl
@[simp] theorem State.accept_sw (s : State) (q : Nat) (o : Offer) : (s.accept q o).sw = s.sw := rfl
@[simp] theorem State.accept_opt (s : State) (q : Nat) (o : Offer) : (s.accept q o).opt = s.opt := rfl
@[simp] theorem State.accept_ch (s : State) (q : Nat) (o : Offer) : (s.accept q o).ch = s.ch := rfl
@[simp] theorem State.accept_das (s : State) (q : Nat) (o : Offer) : (s.accept q o).das = s.das := rfl
@[simp] theorem State.accept_pop (s : State) (q : Nat) (o : Offer) : (s.accept q o).pop = s.pop := rfl
@[simp] theorem State.accept_lin (s : State) (q : Nat) (o : Offer) : (s.accept q o).lin = s.lin := rfl
@[simp] theorem State.accept_hz (s : State) (q : Nat) (o : Offer) : (s.accept q o).hz = s.hz := rfl
@[simp] theorem State.accept_ses (s : State) (q : Nat) (o : Offer) : (s.accept q o).ses = s.ses := rfl
@[simp] theorem State.accept_caps (s : State) (q : Nat) (o : Offer) : (s.accept q o).caps = s.caps := rfl
@[simp] theorem State.accept_sun (s : State) (q : Nat) (o : Offer) : (s.accept q o).sun = s.sun := rfl
@[simp] theorem State.accept_ln (s : State) (q : Nat) (o : Offer) : (s.accept q o).ln = s.ln := rfl
@[simp] theorem State.accept_mem (s : State) (q : Nat) (o : Offer) : (s.accept q o).mem = s.mem := rfl
@[simp] theorem State.accept_fx (s : State) (q : Nat) (o : Offer) : (s.accept q o).fx = s.fx := rfl
@[simp] theorem State.accept_al (s : State) (q : Nat) (o : Offer) : (s.accept q o).al = s.al := rfl
@[simp] theorem State.accept_tb (s : State) (q : Nat) (o : Offer) : (s.accept q o).tb = s.tb := rfl
@[simp] theorem State.accept_pip (s : State) (q : Nat) (o : Offer) : (s.accept q o).pip = s.pip := rfl
@[simp] theorem State.accept_dr (s : State) (q : Nat) (o : Offer) : (s.accept q o).dr = s.dr := rfl
@[simp] theorem State.accept_pod (s : State) (q : Nat) (o : Offer) : (s.accept q o).pod = s.pod := rfl
@[simp] theorem State.accept_up (s : State) (q : Nat) (o : Offer) : (s.accept q o).up = s.up := rfl
@[simp] theorem State.accept_inj (s : State) (q : Nat) (o : Offer) : (s.accept q o).inj = s.inj := rfl

@[simp] theorem State.logPush_pending (s : State) (a b c : Nat) (l : List Byte) : (s.logPush a b c l).pending = s.pending := rfl
@[simp] theorem State.logPush_now (s : State) (a b c : Nat) (l : List Byte) : (s.logPush a b c l).now = s.now := rfl
@[simp] theorem State.logPush_free (s : State) (a b c : Nat) (l : List Byte) : (s.logPush a b c l).free = s.free := rfl
@[simp] theorem State.logPush_objects (s : State) (a b c : Nat) (l : List Byte) : (s.logPush a b c l).objects = s.objects := rfl
@[simp] theorem State.logPush_domains (s : State) (a b c : Nat) (l : List Byte) : (s.logPush a b c l).domains = s.domains := rfl
@[simp] theorem State.logPush_wire (s : State) (a b c : Nat) (l : List Byte) : (s.logPush a b c l).wire = s.wire := rfl
@[simp] theorem State.logPush_board (s : State) (a b c : Nat) (l : List Byte) : (s.logPush a b c l).board = s.board := rfl
@[simp] theorem State.logPush_pw (s : State) (a b c : Nat) (l : List Byte) : (s.logPush a b c l).pw = s.pw := rfl
@[simp] theorem State.logPush_ctl (s : State) (a b c : Nat) (l : List Byte) : (s.logPush a b c l).ctl = s.ctl := rfl
@[simp] theorem State.logPush_lad (s : State) (a b c : Nat) (l : List Byte) : (s.logPush a b c l).lad = s.lad := rfl
@[simp] theorem State.logPush_sw (s : State) (a b c : Nat) (l : List Byte) : (s.logPush a b c l).sw = s.sw := rfl
@[simp] theorem State.logPush_opt (s : State) (a b c : Nat) (l : List Byte) : (s.logPush a b c l).opt = s.opt := rfl
@[simp] theorem State.logPush_ch (s : State) (a b c : Nat) (l : List Byte) : (s.logPush a b c l).ch = s.ch := rfl
@[simp] theorem State.logPush_das (s : State) (a b c : Nat) (l : List Byte) : (s.logPush a b c l).das = s.das := rfl
@[simp] theorem State.logPush_pop (s : State) (a b c : Nat) (l : List Byte) : (s.logPush a b c l).pop = s.pop := rfl
@[simp] theorem State.logPush_lin (s : State) (a b c : Nat) (l : List Byte) : (s.logPush a b c l).lin = s.lin := rfl
@[simp] theorem State.logPush_hz (s : State) (a b c : Nat) (l : List Byte) : (s.logPush a b c l).hz = s.hz := rfl
@[simp] theorem State.logPush_ses (s : State) (a b c : Nat) (l : List Byte) : (s.logPush a b c l).ses = s.ses := rfl
@[simp] theorem State.logPush_caps (s : State) (a b c : Nat) (l : List Byte) : (s.logPush a b c l).caps = s.caps := rfl
@[simp] theorem State.logPush_sun (s : State) (a b c : Nat) (l : List Byte) : (s.logPush a b c l).sun = s.sun := rfl
@[simp] theorem State.logPush_qu (s : State) (a b c : Nat) (l : List Byte) : (s.logPush a b c l).qu = s.qu := rfl
@[simp] theorem State.logPush_ln (s : State) (a b c : Nat) (l : List Byte) : (s.logPush a b c l).ln = s.ln := rfl
@[simp] theorem State.logPush_mem (s : State) (a b c : Nat) (l : List Byte) : (s.logPush a b c l).mem = s.mem := rfl
@[simp] theorem State.logPush_fx (s : State) (a b c : Nat) (l : List Byte) : (s.logPush a b c l).fx = s.fx := rfl
@[simp] theorem State.logPush_al (s : State) (a b c : Nat) (l : List Byte) : (s.logPush a b c l).al = s.al := rfl
@[simp] theorem State.logPush_tb (s : State) (a b c : Nat) (l : List Byte) : (s.logPush a b c l).tb = s.tb := rfl
@[simp] theorem State.logPush_pip (s : State) (a b c : Nat) (l : List Byte) : (s.logPush a b c l).pip = s.pip := rfl
@[simp] theorem State.logPush_dr (s : State) (a b c : Nat) (l : List Byte) : (s.logPush a b c l).dr = s.dr := rfl
@[simp] theorem State.logPush_pod (s : State) (a b c : Nat) (l : List Byte) : (s.logPush a b c l).pod = s.pod := rfl
@[simp] theorem State.logPush_up (s : State) (a b c : Nat) (l : List Byte) : (s.logPush a b c l).up = s.up := rfl
@[simp] theorem State.logPush_inj (s : State) (a b c : Nat) (l : List Byte) : (s.logPush a b c l).inj = s.inj := rfl

@[simp] theorem State.setPw_pending (s : State) (f : Power → Power) : (s.setPw f).pending = s.pending := rfl
@[simp] theorem State.setPw_now (s : State) (f : Power → Power) : (s.setPw f).now = s.now := rfl
@[simp] theorem State.setPw_free (s : State) (f : Power → Power) : (s.setPw f).free = s.free := rfl
@[simp] theorem State.setPw_objects (s : State) (f : Power → Power) : (s.setPw f).objects = s.objects := rfl
@[simp] theorem State.setPw_domains (s : State) (f : Power → Power) : (s.setPw f).domains = s.domains := rfl
@[simp] theorem State.setPw_wire (s : State) (f : Power → Power) : (s.setPw f).wire = s.wire := rfl
@[simp] theorem State.setPw_board (s : State) (f : Power → Power) : (s.setPw f).board = s.board := rfl
@[simp] theorem State.setPw_pw (s : State) (f : Power → Power) : (s.setPw f).pw = f s.pw := rfl
@[simp] theorem State.setPw_ctl (s : State) (f : Power → Power) : (s.setPw f).ctl = s.ctl := rfl
@[simp] theorem State.setPw_mg (s : State) (f : Power → Power) : (s.setPw f).mg = s.mg := rfl
@[simp] theorem State.setPw_lad (s : State) (f : Power → Power) : (s.setPw f).lad = s.lad := rfl
@[simp] theorem State.setPw_sw (s : State) (f : Power → Power) : (s.setPw f).sw = s.sw := rfl
@[simp] theorem State.setPw_opt (s : State) (f : Power → Power) : (s.setPw f).opt = s.opt := rfl
@[simp] theorem State.setPw_ch (s : State) (f : Power → Power) : (s.setPw f).ch = s.ch := rfl
@[simp] theorem State.setPw_das (s : State) (f : Power → Power) : (s.setPw f).das = s.das := rfl
@[simp] theorem State.setPw_pop (s : State) (f : Power → Power) : (s.setPw f).pop = s.pop := rfl
@[simp] theorem State.setPw_lin (s : State) (f : Power → Power) : (s.setPw f).lin = s.lin := rfl
@[simp] theorem State.setPw_hz (s : State) (f : Power → Power) : (s.setPw f).hz = s.hz := rfl
@[simp] theorem State.setPw_ses (s : State) (f : Power → Power) : (s.setPw f).ses = s.ses := rfl
@[simp] theorem State.setPw_caps (s : State) (f : Power → Power) : (s.setPw f).caps = s.caps := rfl
@[simp] theorem State.setPw_sun (s : State) (f : Power → Power) : (s.setPw f).sun = s.sun := rfl
@[simp] theorem State.setPw_qu (s : State) (f : Power → Power) : (s.setPw f).qu = s.qu := rfl
@[simp] theorem State.setPw_ln (s : State) (f : Power → Power) : (s.setPw f).ln = s.ln := rfl
@[simp] theorem State.setPw_mem (s : State) (f : Power → Power) : (s.setPw f).mem = s.mem := rfl
@[simp] theorem State.setPw_fx (s : State) (f : Power → Power) : (s.setPw f).fx = s.fx := rfl
@[simp] theorem State.setPw_al (s : State) (f : Power → Power) : (s.setPw f).al = s.al := rfl
@[simp] theorem State.setPw_tb (s : State) (f : Power → Power) : (s.setPw f).tb = s.tb := rfl
@[simp] theorem State.setPw_pip (s : State) (f : Power → Power) : (s.setPw f).pip = s.pip := rfl
@[simp] theorem State.setPw_dr (s : State) (f : Power → Power) : (s.setPw f).dr = s.dr := rfl
@[simp] theorem State.setPw_pod (s : State) (f : Power → Power) : (s.setPw f).pod = s.pod := rfl
@[simp] theorem State.setPw_up (s : State) (f : Power → Power) : (s.setPw f).up = s.up := rfl
@[simp] theorem State.setPw_inj (s : State) (f : Power → Power) : (s.setPw f).inj = s.inj := rfl

@[simp] theorem State.setMg_pending (s : State) (f : Manage → Manage) : (s.setMg f).pending = s.pending := rfl
@[simp] theorem State.setMg_now (s : State) (f : Manage → Manage) : (s.setMg f).now = s.now := rfl
@[simp] theorem State.setMg_free (s : State) (f : Manage → Manage) : (s.setMg f).free = s.free := rfl
@[simp] theorem State.setMg_objects (s : State) (f : Manage → Manage) : (s.setMg f).objects = s.objects := rfl
@[simp] theorem State.setMg_domains (s : State) (f : Manage → Manage) : (s.setMg f).domains = s.domains := rfl
@[simp] theorem State.setMg_wire (s : State) (f : Manage → Manage) : (s.setMg f).wire = s.wire := rfl
@[simp] theorem State.setMg_board (s : State) (f : Manage → Manage) : (s.setMg f).board = s.board := rfl
@[simp] theorem State.setMg_pw (s : State) (f : Manage → Manage) : (s.setMg f).pw = s.pw := rfl
@[simp] theorem State.setMg_ctl (s : State) (f : Manage → Manage) : (s.setMg f).ctl = s.ctl := rfl
@[simp] theorem State.setMg_mg (s : State) (f : Manage → Manage) : (s.setMg f).mg = f s.mg := rfl
@[simp] theorem State.setMg_lad (s : State) (f : Manage → Manage) : (s.setMg f).lad = s.lad := rfl
@[simp] theorem State.setMg_sw (s : State) (f : Manage → Manage) : (s.setMg f).sw = s.sw := rfl
@[simp] theorem State.setMg_opt (s : State) (f : Manage → Manage) : (s.setMg f).opt = s.opt := rfl
@[simp] theorem State.setMg_ch (s : State) (f : Manage → Manage) : (s.setMg f).ch = s.ch := rfl
@[simp] theorem State.setMg_das (s : State) (f : Manage → Manage) : (s.setMg f).das = s.das := rfl
@[simp] theorem State.setMg_pop (s : State) (f : Manage → Manage) : (s.setMg f).pop = s.pop := rfl
@[simp] theorem State.setMg_lin (s : State) (f : Manage → Manage) : (s.setMg f).lin = s.lin := rfl
@[simp] theorem State.setMg_hz (s : State) (f : Manage → Manage) : (s.setMg f).hz = s.hz := rfl
@[simp] theorem State.setMg_ses (s : State) (f : Manage → Manage) : (s.setMg f).ses = s.ses := rfl
@[simp] theorem State.setMg_caps (s : State) (f : Manage → Manage) : (s.setMg f).caps = s.caps := rfl
@[simp] theorem State.setMg_sun (s : State) (f : Manage → Manage) : (s.setMg f).sun = s.sun := rfl
@[simp] theorem State.setMg_qu (s : State) (f : Manage → Manage) : (s.setMg f).qu = s.qu := rfl
@[simp] theorem State.setMg_ln (s : State) (f : Manage → Manage) : (s.setMg f).ln = s.ln := rfl
@[simp] theorem State.setMg_mem (s : State) (f : Manage → Manage) : (s.setMg f).mem = s.mem := rfl
@[simp] theorem State.setMg_fx (s : State) (f : Manage → Manage) : (s.setMg f).fx = s.fx := rfl
@[simp] theorem State.setMg_al (s : State) (f : Manage → Manage) : (s.setMg f).al = s.al := rfl
@[simp] theorem State.setMg_tb (s : State) (f : Manage → Manage) : (s.setMg f).tb = s.tb := rfl
@[simp] theorem State.setMg_pip (s : State) (f : Manage → Manage) : (s.setMg f).pip = s.pip := rfl
@[simp] theorem State.setMg_dr (s : State) (f : Manage → Manage) : (s.setMg f).dr = s.dr := rfl
@[simp] theorem State.setMg_pod (s : State) (f : Manage → Manage) : (s.setMg f).pod = s.pod := rfl
@[simp] theorem State.setMg_up (s : State) (f : Manage → Manage) : (s.setMg f).up = s.up := rfl
@[simp] theorem State.setMg_inj (s : State) (f : Manage → Manage) : (s.setMg f).inj = s.inj := rfl

@[simp] theorem State.setLad_pending (s : State) (f : Ladder → Ladder) : (s.setLad f).pending = s.pending := rfl
@[simp] theorem State.setLad_now (s : State) (f : Ladder → Ladder) : (s.setLad f).now = s.now := rfl
@[simp] theorem State.setLad_free (s : State) (f : Ladder → Ladder) : (s.setLad f).free = s.free := rfl
@[simp] theorem State.setLad_objects (s : State) (f : Ladder → Ladder) : (s.setLad f).objects = s.objects := rfl
@[simp] theorem State.setLad_domains (s : State) (f : Ladder → Ladder) : (s.setLad f).domains = s.domains := rfl
@[simp] theorem State.setLad_wire (s : State) (f : Ladder → Ladder) : (s.setLad f).wire = s.wire := rfl
@[simp] theorem State.setLad_board (s : State) (f : Ladder → Ladder) : (s.setLad f).board = s.board := rfl
@[simp] theorem State.setLad_pw (s : State) (f : Ladder → Ladder) : (s.setLad f).pw = s.pw := rfl
@[simp] theorem State.setLad_ctl (s : State) (f : Ladder → Ladder) : (s.setLad f).ctl = s.ctl := rfl
@[simp] theorem State.setLad_mg (s : State) (f : Ladder → Ladder) : (s.setLad f).mg = s.mg := rfl
@[simp] theorem State.setLad_lad (s : State) (f : Ladder → Ladder) : (s.setLad f).lad = f s.lad := rfl
@[simp] theorem State.setLad_sw (s : State) (f : Ladder → Ladder) : (s.setLad f).sw = s.sw := rfl
@[simp] theorem State.setLad_opt (s : State) (f : Ladder → Ladder) : (s.setLad f).opt = s.opt := rfl
@[simp] theorem State.setLad_ch (s : State) (f : Ladder → Ladder) : (s.setLad f).ch = s.ch := rfl
@[simp] theorem State.setLad_das (s : State) (f : Ladder → Ladder) : (s.setLad f).das = s.das := rfl
@[simp] theorem State.setLad_pop (s : State) (f : Ladder → Ladder) : (s.setLad f).pop = s.pop := rfl
@[simp] theorem State.setLad_lin (s : State) (f : Ladder → Ladder) : (s.setLad f).lin = s.lin := rfl
@[simp] theorem State.setLad_hz (s : State) (f : Ladder → Ladder) : (s.setLad f).hz = s.hz := rfl
@[simp] theorem State.setLad_ses (s : State) (f : Ladder → Ladder) : (s.setLad f).ses = s.ses := rfl
@[simp] theorem State.setLad_caps (s : State) (f : Ladder → Ladder) : (s.setLad f).caps = s.caps := rfl
@[simp] theorem State.setLad_sun (s : State) (f : Ladder → Ladder) : (s.setLad f).sun = s.sun := rfl
@[simp] theorem State.setLad_qu (s : State) (f : Ladder → Ladder) : (s.setLad f).qu = s.qu := rfl
@[simp] theorem State.setLad_ln (s : State) (f : Ladder → Ladder) : (s.setLad f).ln = s.ln := rfl
@[simp] theorem State.setLad_mem (s : State) (f : Ladder → Ladder) : (s.setLad f).mem = s.mem := rfl
@[simp] theorem State.setLad_fx (s : State) (f : Ladder → Ladder) : (s.setLad f).fx = s.fx := rfl
@[simp] theorem State.setLad_al (s : State) (f : Ladder → Ladder) : (s.setLad f).al = s.al := rfl
@[simp] theorem State.setLad_tb (s : State) (f : Ladder → Ladder) : (s.setLad f).tb = s.tb := rfl
@[simp] theorem State.setLad_pip (s : State) (f : Ladder → Ladder) : (s.setLad f).pip = s.pip := rfl
@[simp] theorem State.setLad_dr (s : State) (f : Ladder → Ladder) : (s.setLad f).dr = s.dr := rfl
@[simp] theorem State.setLad_pod (s : State) (f : Ladder → Ladder) : (s.setLad f).pod = s.pod := rfl
@[simp] theorem State.setLad_up (s : State) (f : Ladder → Ladder) : (s.setLad f).up = s.up := rfl
@[simp] theorem State.setLad_inj (s : State) (f : Ladder → Ladder) : (s.setLad f).inj = s.inj := rfl

@[simp] theorem State.setLin_pending (s : State) (f : Linseed → Linseed) : (s.setLin f).pending = s.pending := rfl
@[simp] theorem State.setLin_now (s : State) (f : Linseed → Linseed) : (s.setLin f).now = s.now := rfl
@[simp] theorem State.setLin_free (s : State) (f : Linseed → Linseed) : (s.setLin f).free = s.free := rfl
@[simp] theorem State.setLin_objects (s : State) (f : Linseed → Linseed) : (s.setLin f).objects = s.objects := rfl
@[simp] theorem State.setLin_domains (s : State) (f : Linseed → Linseed) : (s.setLin f).domains = s.domains := rfl
@[simp] theorem State.setLin_wire (s : State) (f : Linseed → Linseed) : (s.setLin f).wire = s.wire := rfl
@[simp] theorem State.setLin_board (s : State) (f : Linseed → Linseed) : (s.setLin f).board = s.board := rfl
@[simp] theorem State.setLin_pw (s : State) (f : Linseed → Linseed) : (s.setLin f).pw = s.pw := rfl
@[simp] theorem State.setLin_ctl (s : State) (f : Linseed → Linseed) : (s.setLin f).ctl = s.ctl := rfl
@[simp] theorem State.setLin_mg (s : State) (f : Linseed → Linseed) : (s.setLin f).mg = s.mg := rfl
@[simp] theorem State.setLin_lad (s : State) (f : Linseed → Linseed) : (s.setLin f).lad = s.lad := rfl
@[simp] theorem State.setLin_sw (s : State) (f : Linseed → Linseed) : (s.setLin f).sw = s.sw := rfl
@[simp] theorem State.setLin_opt (s : State) (f : Linseed → Linseed) : (s.setLin f).opt = s.opt := rfl
@[simp] theorem State.setLin_ch (s : State) (f : Linseed → Linseed) : (s.setLin f).ch = s.ch := rfl
@[simp] theorem State.setLin_das (s : State) (f : Linseed → Linseed) : (s.setLin f).das = s.das := rfl
@[simp] theorem State.setLin_pop (s : State) (f : Linseed → Linseed) : (s.setLin f).pop = s.pop := rfl
@[simp] theorem State.setLin_lin (s : State) (f : Linseed → Linseed) : (s.setLin f).lin = f s.lin := rfl
@[simp] theorem State.setLin_hz (s : State) (f : Linseed → Linseed) : (s.setLin f).hz = s.hz := rfl
@[simp] theorem State.setLin_ses (s : State) (f : Linseed → Linseed) : (s.setLin f).ses = s.ses := rfl
@[simp] theorem State.setLin_caps (s : State) (f : Linseed → Linseed) : (s.setLin f).caps = s.caps := rfl
@[simp] theorem State.setLin_sun (s : State) (f : Linseed → Linseed) : (s.setLin f).sun = s.sun := rfl
@[simp] theorem State.setLin_qu (s : State) (f : Linseed → Linseed) : (s.setLin f).qu = s.qu := rfl
@[simp] theorem State.setLin_ln (s : State) (f : Linseed → Linseed) : (s.setLin f).ln = s.ln := rfl
@[simp] theorem State.setLin_mem (s : State) (f : Linseed → Linseed) : (s.setLin f).mem = s.mem := rfl
@[simp] theorem State.setLin_fx (s : State) (f : Linseed → Linseed) : (s.setLin f).fx = s.fx := rfl
@[simp] theorem State.setLin_al (s : State) (f : Linseed → Linseed) : (s.setLin f).al = s.al := rfl
@[simp] theorem State.setLin_tb (s : State) (f : Linseed → Linseed) : (s.setLin f).tb = s.tb := rfl
@[simp] theorem State.setLin_pip (s : State) (f : Linseed → Linseed) : (s.setLin f).pip = s.pip := rfl
@[simp] theorem State.setLin_dr (s : State) (f : Linseed → Linseed) : (s.setLin f).dr = s.dr := rfl
@[simp] theorem State.setLin_pod (s : State) (f : Linseed → Linseed) : (s.setLin f).pod = s.pod := rfl
@[simp] theorem State.setLin_up (s : State) (f : Linseed → Linseed) : (s.setLin f).up = s.up := rfl
@[simp] theorem State.setLin_inj (s : State) (f : Linseed → Linseed) : (s.setLin f).inj = s.inj := rfl

@[simp] theorem State.setMem_pending (s : State) (f : Memory → Memory) : (s.setMem f).pending = s.pending := rfl
@[simp] theorem State.setMem_now (s : State) (f : Memory → Memory) : (s.setMem f).now = s.now := rfl
@[simp] theorem State.setMem_free (s : State) (f : Memory → Memory) : (s.setMem f).free = s.free := rfl
@[simp] theorem State.setMem_objects (s : State) (f : Memory → Memory) : (s.setMem f).objects = s.objects := rfl
@[simp] theorem State.setMem_domains (s : State) (f : Memory → Memory) : (s.setMem f).domains = s.domains := rfl
@[simp] theorem State.setMem_wire (s : State) (f : Memory → Memory) : (s.setMem f).wire = s.wire := rfl
@[simp] theorem State.setMem_board (s : State) (f : Memory → Memory) : (s.setMem f).board = s.board := rfl
@[simp] theorem State.setMem_pw (s : State) (f : Memory → Memory) : (s.setMem f).pw = s.pw := rfl
@[simp] theorem State.setMem_ctl (s : State) (f : Memory → Memory) : (s.setMem f).ctl = s.ctl := rfl
@[simp] theorem State.setMem_mg (s : State) (f : Memory → Memory) : (s.setMem f).mg = s.mg := rfl
@[simp] theorem State.setMem_lad (s : State) (f : Memory → Memory) : (s.setMem f).lad = s.lad := rfl
@[simp] theorem State.setMem_sw (s : State) (f : Memory → Memory) : (s.setMem f).sw = s.sw := rfl
@[simp] theorem State.setMem_opt (s : State) (f : Memory → Memory) : (s.setMem f).opt = s.opt := rfl
@[simp] theorem State.setMem_ch (s : State) (f : Memory → Memory) : (s.setMem f).ch = s.ch := rfl
@[simp] theorem State.setMem_das (s : State) (f : Memory → Memory) : (s.setMem f).das = s.das := rfl
@[simp] theorem State.setMem_pop (s : State) (f : Memory → Memory) : (s.setMem f).pop = s.pop := rfl
@[simp] theorem State.setMem_lin (s : State) (f : Memory → Memory) : (s.setMem f).lin = s.lin := rfl
@[simp] theorem State.setMem_hz (s : State) (f : Memory → Memory) : (s.setMem f).hz = s.hz := rfl
@[simp] theorem State.setMem_ses (s : State) (f : Memory → Memory) : (s.setMem f).ses = s.ses := rfl
@[simp] theorem State.setMem_caps (s : State) (f : Memory → Memory) : (s.setMem f).caps = s.caps := rfl
@[simp] theorem State.setMem_sun (s : State) (f : Memory → Memory) : (s.setMem f).sun = s.sun := rfl
@[simp] theorem State.setMem_qu (s : State) (f : Memory → Memory) : (s.setMem f).qu = s.qu := rfl
@[simp] theorem State.setMem_ln (s : State) (f : Memory → Memory) : (s.setMem f).ln = s.ln := rfl
@[simp] theorem State.setMem_mem (s : State) (f : Memory → Memory) : (s.setMem f).mem = f s.mem := rfl
@[simp] theorem State.setMem_fx (s : State) (f : Memory → Memory) : (s.setMem f).fx = s.fx := rfl
@[simp] theorem State.setMem_al (s : State) (f : Memory → Memory) : (s.setMem f).al = s.al := rfl
@[simp] theorem State.setMem_tb (s : State) (f : Memory → Memory) : (s.setMem f).tb = s.tb := rfl
@[simp] theorem State.setMem_pip (s : State) (f : Memory → Memory) : (s.setMem f).pip = s.pip := rfl
@[simp] theorem State.setMem_dr (s : State) (f : Memory → Memory) : (s.setMem f).dr = s.dr := rfl
@[simp] theorem State.setMem_pod (s : State) (f : Memory → Memory) : (s.setMem f).pod = s.pod := rfl
@[simp] theorem State.setMem_up (s : State) (f : Memory → Memory) : (s.setMem f).up = s.up := rfl
@[simp] theorem State.setMem_inj (s : State) (f : Memory → Memory) : (s.setMem f).inj = s.inj := rfl

@[simp] theorem State.setAl_pending (s : State) (f : Almond → Almond) : (s.setAl f).pending = s.pending := rfl
@[simp] theorem State.setAl_now (s : State) (f : Almond → Almond) : (s.setAl f).now = s.now := rfl
@[simp] theorem State.setAl_free (s : State) (f : Almond → Almond) : (s.setAl f).free = s.free := rfl
@[simp] theorem State.setAl_objects (s : State) (f : Almond → Almond) : (s.setAl f).objects = s.objects := rfl
@[simp] theorem State.setAl_domains (s : State) (f : Almond → Almond) : (s.setAl f).domains = s.domains := rfl
@[simp] theorem State.setAl_wire (s : State) (f : Almond → Almond) : (s.setAl f).wire = s.wire := rfl
@[simp] theorem State.setAl_board (s : State) (f : Almond → Almond) : (s.setAl f).board = s.board := rfl
@[simp] theorem State.setAl_pw (s : State) (f : Almond → Almond) : (s.setAl f).pw = s.pw := rfl
@[simp] theorem State.setAl_ctl (s : State) (f : Almond → Almond) : (s.setAl f).ctl = s.ctl := rfl
@[simp] theorem State.setAl_mg (s : State) (f : Almond → Almond) : (s.setAl f).mg = s.mg := rfl
@[simp] theorem State.setAl_lad (s : State) (f : Almond → Almond) : (s.setAl f).lad = s.lad := rfl
@[simp] theorem State.setAl_sw (s : State) (f : Almond → Almond) : (s.setAl f).sw = s.sw := rfl
@[simp] theorem State.setAl_opt (s : State) (f : Almond → Almond) : (s.setAl f).opt = s.opt := rfl
@[simp] theorem State.setAl_ch (s : State) (f : Almond → Almond) : (s.setAl f).ch = s.ch := rfl
@[simp] theorem State.setAl_das (s : State) (f : Almond → Almond) : (s.setAl f).das = s.das := rfl
@[simp] theorem State.setAl_pop (s : State) (f : Almond → Almond) : (s.setAl f).pop = s.pop := rfl
@[simp] theorem State.setAl_lin (s : State) (f : Almond → Almond) : (s.setAl f).lin = s.lin := rfl
@[simp] theorem State.setAl_hz (s : State) (f : Almond → Almond) : (s.setAl f).hz = s.hz := rfl
@[simp] theorem State.setAl_ses (s : State) (f : Almond → Almond) : (s.setAl f).ses = s.ses := rfl
@[simp] theorem State.setAl_caps (s : State) (f : Almond → Almond) : (s.setAl f).caps = s.caps := rfl
@[simp] theorem State.setAl_sun (s : State) (f : Almond → Almond) : (s.setAl f).sun = s.sun := rfl
@[simp] theorem State.setAl_qu (s : State) (f : Almond → Almond) : (s.setAl f).qu = s.qu := rfl
@[simp] theorem State.setAl_ln (s : State) (f : Almond → Almond) : (s.setAl f).ln = s.ln := rfl
@[simp] theorem State.setAl_mem (s : State) (f : Almond → Almond) : (s.setAl f).mem = s.mem := rfl
@[simp] theorem State.setAl_fx (s : State) (f : Almond → Almond) : (s.setAl f).fx = s.fx := rfl
@[simp] theorem State.setAl_al (s : State) (f : Almond → Almond) : (s.setAl f).al = f s.al := rfl
@[simp] theorem State.setAl_tb (s : State) (f : Almond → Almond) : (s.setAl f).tb = s.tb := rfl
@[simp] theorem State.setAl_pip (s : State) (f : Almond → Almond) : (s.setAl f).pip = s.pip := rfl
@[simp] theorem State.setAl_dr (s : State) (f : Almond → Almond) : (s.setAl f).dr = s.dr := rfl
@[simp] theorem State.setAl_pod (s : State) (f : Almond → Almond) : (s.setAl f).pod = s.pod := rfl
@[simp] theorem State.setAl_up (s : State) (f : Almond → Almond) : (s.setAl f).up = s.up := rfl
@[simp] theorem State.setAl_inj (s : State) (f : Almond → Almond) : (s.setAl f).inj = s.inj := rfl

@[simp] theorem State.setTb_pending (s : State) (f : TimeBase → TimeBase) : (s.setTb f).pending = s.pending := rfl
@[simp] theorem State.setTb_now (s : State) (f : TimeBase → TimeBase) : (s.setTb f).now = s.now := rfl
@[simp] theorem State.setTb_free (s : State) (f : TimeBase → TimeBase) : (s.setTb f).free = s.free := rfl
@[simp] theorem State.setTb_objects (s : State) (f : TimeBase → TimeBase) : (s.setTb f).objects = s.objects := rfl
@[simp] theorem State.setTb_domains (s : State) (f : TimeBase → TimeBase) : (s.setTb f).domains = s.domains := rfl
@[simp] theorem State.setTb_wire (s : State) (f : TimeBase → TimeBase) : (s.setTb f).wire = s.wire := rfl
@[simp] theorem State.setTb_board (s : State) (f : TimeBase → TimeBase) : (s.setTb f).board = s.board := rfl
@[simp] theorem State.setTb_pw (s : State) (f : TimeBase → TimeBase) : (s.setTb f).pw = s.pw := rfl
@[simp] theorem State.setTb_ctl (s : State) (f : TimeBase → TimeBase) : (s.setTb f).ctl = s.ctl := rfl
@[simp] theorem State.setTb_mg (s : State) (f : TimeBase → TimeBase) : (s.setTb f).mg = s.mg := rfl
@[simp] theorem State.setTb_lad (s : State) (f : TimeBase → TimeBase) : (s.setTb f).lad = s.lad := rfl
@[simp] theorem State.setTb_sw (s : State) (f : TimeBase → TimeBase) : (s.setTb f).sw = s.sw := rfl
@[simp] theorem State.setTb_opt (s : State) (f : TimeBase → TimeBase) : (s.setTb f).opt = s.opt := rfl
@[simp] theorem State.setTb_ch (s : State) (f : TimeBase → TimeBase) : (s.setTb f).ch = s.ch := rfl
@[simp] theorem State.setTb_das (s : State) (f : TimeBase → TimeBase) : (s.setTb f).das = s.das := rfl
@[simp] theorem State.setTb_pop (s : State) (f : TimeBase → TimeBase) : (s.setTb f).pop = s.pop := rfl
@[simp] theorem State.setTb_lin (s : State) (f : TimeBase → TimeBase) : (s.setTb f).lin = s.lin := rfl
@[simp] theorem State.setTb_hz (s : State) (f : TimeBase → TimeBase) : (s.setTb f).hz = s.hz := rfl
@[simp] theorem State.setTb_ses (s : State) (f : TimeBase → TimeBase) : (s.setTb f).ses = s.ses := rfl
@[simp] theorem State.setTb_caps (s : State) (f : TimeBase → TimeBase) : (s.setTb f).caps = s.caps := rfl
@[simp] theorem State.setTb_sun (s : State) (f : TimeBase → TimeBase) : (s.setTb f).sun = s.sun := rfl
@[simp] theorem State.setTb_qu (s : State) (f : TimeBase → TimeBase) : (s.setTb f).qu = s.qu := rfl
@[simp] theorem State.setTb_ln (s : State) (f : TimeBase → TimeBase) : (s.setTb f).ln = s.ln := rfl
@[simp] theorem State.setTb_mem (s : State) (f : TimeBase → TimeBase) : (s.setTb f).mem = s.mem := rfl
@[simp] theorem State.setTb_fx (s : State) (f : TimeBase → TimeBase) : (s.setTb f).fx = s.fx := rfl
@[simp] theorem State.setTb_al (s : State) (f : TimeBase → TimeBase) : (s.setTb f).al = s.al := rfl
@[simp] theorem State.setTb_tb (s : State) (f : TimeBase → TimeBase) : (s.setTb f).tb = f s.tb := rfl
@[simp] theorem State.setTb_pip (s : State) (f : TimeBase → TimeBase) : (s.setTb f).pip = s.pip := rfl
@[simp] theorem State.setTb_dr (s : State) (f : TimeBase → TimeBase) : (s.setTb f).dr = s.dr := rfl
@[simp] theorem State.setTb_pod (s : State) (f : TimeBase → TimeBase) : (s.setTb f).pod = s.pod := rfl
@[simp] theorem State.setTb_up (s : State) (f : TimeBase → TimeBase) : (s.setTb f).up = s.up := rfl
@[simp] theorem State.setTb_inj (s : State) (f : TimeBase → TimeBase) : (s.setTb f).inj = s.inj := rfl

@[simp] theorem State.setPip_pending (s : State) (f : Pip → Pip) : (s.setPip f).pending = s.pending := rfl
@[simp] theorem State.setPip_now (s : State) (f : Pip → Pip) : (s.setPip f).now = s.now := rfl
@[simp] theorem State.setPip_free (s : State) (f : Pip → Pip) : (s.setPip f).free = s.free := rfl
@[simp] theorem State.setPip_objects (s : State) (f : Pip → Pip) : (s.setPip f).objects = s.objects := rfl
@[simp] theorem State.setPip_domains (s : State) (f : Pip → Pip) : (s.setPip f).domains = s.domains := rfl
@[simp] theorem State.setPip_wire (s : State) (f : Pip → Pip) : (s.setPip f).wire = s.wire := rfl
@[simp] theorem State.setPip_board (s : State) (f : Pip → Pip) : (s.setPip f).board = s.board := rfl
@[simp] theorem State.setPip_pw (s : State) (f : Pip → Pip) : (s.setPip f).pw = s.pw := rfl
@[simp] theorem State.setPip_ctl (s : State) (f : Pip → Pip) : (s.setPip f).ctl = s.ctl := rfl
@[simp] theorem State.setPip_mg (s : State) (f : Pip → Pip) : (s.setPip f).mg = s.mg := rfl
@[simp] theorem State.setPip_lad (s : State) (f : Pip → Pip) : (s.setPip f).lad = s.lad := rfl
@[simp] theorem State.setPip_sw (s : State) (f : Pip → Pip) : (s.setPip f).sw = s.sw := rfl
@[simp] theorem State.setPip_opt (s : State) (f : Pip → Pip) : (s.setPip f).opt = s.opt := rfl
@[simp] theorem State.setPip_ch (s : State) (f : Pip → Pip) : (s.setPip f).ch = s.ch := rfl
@[simp] theorem State.setPip_das (s : State) (f : Pip → Pip) : (s.setPip f).das = s.das := rfl
@[simp] theorem State.setPip_pop (s : State) (f : Pip → Pip) : (s.setPip f).pop = s.pop := rfl
@[simp] theorem State.setPip_lin (s : State) (f : Pip → Pip) : (s.setPip f).lin = s.lin := rfl
@[simp] theorem State.setPip_hz (s : State) (f : Pip → Pip) : (s.setPip f).hz = s.hz := rfl
@[simp] theorem State.setPip_ses (s : State) (f : Pip → Pip) : (s.setPip f).ses = s.ses := rfl
@[simp] theorem State.setPip_caps (s : State) (f : Pip → Pip) : (s.setPip f).caps = s.caps := rfl
@[simp] theorem State.setPip_sun (s : State) (f : Pip → Pip) : (s.setPip f).sun = s.sun := rfl
@[simp] theorem State.setPip_qu (s : State) (f : Pip → Pip) : (s.setPip f).qu = s.qu := rfl
@[simp] theorem State.setPip_ln (s : State) (f : Pip → Pip) : (s.setPip f).ln = s.ln := rfl
@[simp] theorem State.setPip_mem (s : State) (f : Pip → Pip) : (s.setPip f).mem = s.mem := rfl
@[simp] theorem State.setPip_fx (s : State) (f : Pip → Pip) : (s.setPip f).fx = s.fx := rfl
@[simp] theorem State.setPip_al (s : State) (f : Pip → Pip) : (s.setPip f).al = s.al := rfl
@[simp] theorem State.setPip_tb (s : State) (f : Pip → Pip) : (s.setPip f).tb = s.tb := rfl
@[simp] theorem State.setPip_pip (s : State) (f : Pip → Pip) : (s.setPip f).pip = f s.pip := rfl
@[simp] theorem State.setPip_dr (s : State) (f : Pip → Pip) : (s.setPip f).dr = s.dr := rfl
@[simp] theorem State.setPip_pod (s : State) (f : Pip → Pip) : (s.setPip f).pod = s.pod := rfl
@[simp] theorem State.setPip_up (s : State) (f : Pip → Pip) : (s.setPip f).up = s.up := rfl
@[simp] theorem State.setPip_inj (s : State) (f : Pip → Pip) : (s.setPip f).inj = s.inj := rfl

@[simp] theorem State.setDr_pending (s : State) (f : Darug → Darug) : (s.setDr f).pending = s.pending := rfl
@[simp] theorem State.setDr_now (s : State) (f : Darug → Darug) : (s.setDr f).now = s.now := rfl
@[simp] theorem State.setDr_free (s : State) (f : Darug → Darug) : (s.setDr f).free = s.free := rfl
@[simp] theorem State.setDr_objects (s : State) (f : Darug → Darug) : (s.setDr f).objects = s.objects := rfl
@[simp] theorem State.setDr_domains (s : State) (f : Darug → Darug) : (s.setDr f).domains = s.domains := rfl
@[simp] theorem State.setDr_wire (s : State) (f : Darug → Darug) : (s.setDr f).wire = s.wire := rfl
@[simp] theorem State.setDr_board (s : State) (f : Darug → Darug) : (s.setDr f).board = s.board := rfl
@[simp] theorem State.setDr_pw (s : State) (f : Darug → Darug) : (s.setDr f).pw = s.pw := rfl
@[simp] theorem State.setDr_ctl (s : State) (f : Darug → Darug) : (s.setDr f).ctl = s.ctl := rfl
@[simp] theorem State.setDr_mg (s : State) (f : Darug → Darug) : (s.setDr f).mg = s.mg := rfl
@[simp] theorem State.setDr_lad (s : State) (f : Darug → Darug) : (s.setDr f).lad = s.lad := rfl
@[simp] theorem State.setDr_sw (s : State) (f : Darug → Darug) : (s.setDr f).sw = s.sw := rfl
@[simp] theorem State.setDr_opt (s : State) (f : Darug → Darug) : (s.setDr f).opt = s.opt := rfl
@[simp] theorem State.setDr_ch (s : State) (f : Darug → Darug) : (s.setDr f).ch = s.ch := rfl
@[simp] theorem State.setDr_das (s : State) (f : Darug → Darug) : (s.setDr f).das = s.das := rfl
@[simp] theorem State.setDr_pop (s : State) (f : Darug → Darug) : (s.setDr f).pop = s.pop := rfl
@[simp] theorem State.setDr_lin (s : State) (f : Darug → Darug) : (s.setDr f).lin = s.lin := rfl
@[simp] theorem State.setDr_hz (s : State) (f : Darug → Darug) : (s.setDr f).hz = s.hz := rfl
@[simp] theorem State.setDr_ses (s : State) (f : Darug → Darug) : (s.setDr f).ses = s.ses := rfl
@[simp] theorem State.setDr_caps (s : State) (f : Darug → Darug) : (s.setDr f).caps = s.caps := rfl
@[simp] theorem State.setDr_sun (s : State) (f : Darug → Darug) : (s.setDr f).sun = s.sun := rfl
@[simp] theorem State.setDr_qu (s : State) (f : Darug → Darug) : (s.setDr f).qu = s.qu := rfl
@[simp] theorem State.setDr_ln (s : State) (f : Darug → Darug) : (s.setDr f).ln = s.ln := rfl
@[simp] theorem State.setDr_mem (s : State) (f : Darug → Darug) : (s.setDr f).mem = s.mem := rfl
@[simp] theorem State.setDr_fx (s : State) (f : Darug → Darug) : (s.setDr f).fx = s.fx := rfl
@[simp] theorem State.setDr_al (s : State) (f : Darug → Darug) : (s.setDr f).al = s.al := rfl
@[simp] theorem State.setDr_tb (s : State) (f : Darug → Darug) : (s.setDr f).tb = s.tb := rfl
@[simp] theorem State.setDr_pip (s : State) (f : Darug → Darug) : (s.setDr f).pip = s.pip := rfl
@[simp] theorem State.setDr_dr (s : State) (f : Darug → Darug) : (s.setDr f).dr = f s.dr := rfl
@[simp] theorem State.setDr_pod (s : State) (f : Darug → Darug) : (s.setDr f).pod = s.pod := rfl
@[simp] theorem State.setDr_up (s : State) (f : Darug → Darug) : (s.setDr f).up = s.up := rfl
@[simp] theorem State.setDr_inj (s : State) (f : Darug → Darug) : (s.setDr f).inj = s.inj := rfl

@[simp] theorem State.setPod_pending (s : State) (f : Pod → Pod) : (s.setPod f).pending = s.pending := rfl
@[simp] theorem State.setPod_now (s : State) (f : Pod → Pod) : (s.setPod f).now = s.now := rfl
@[simp] theorem State.setPod_free (s : State) (f : Pod → Pod) : (s.setPod f).free = s.free := rfl
@[simp] theorem State.setPod_objects (s : State) (f : Pod → Pod) : (s.setPod f).objects = s.objects := rfl
@[simp] theorem State.setPod_domains (s : State) (f : Pod → Pod) : (s.setPod f).domains = s.domains := rfl
@[simp] theorem State.setPod_wire (s : State) (f : Pod → Pod) : (s.setPod f).wire = s.wire := rfl
@[simp] theorem State.setPod_board (s : State) (f : Pod → Pod) : (s.setPod f).board = s.board := rfl
@[simp] theorem State.setPod_pw (s : State) (f : Pod → Pod) : (s.setPod f).pw = s.pw := rfl
@[simp] theorem State.setPod_ctl (s : State) (f : Pod → Pod) : (s.setPod f).ctl = s.ctl := rfl
@[simp] theorem State.setPod_mg (s : State) (f : Pod → Pod) : (s.setPod f).mg = s.mg := rfl
@[simp] theorem State.setPod_lad (s : State) (f : Pod → Pod) : (s.setPod f).lad = s.lad := rfl
@[simp] theorem State.setPod_sw (s : State) (f : Pod → Pod) : (s.setPod f).sw = s.sw := rfl
@[simp] theorem State.setPod_opt (s : State) (f : Pod → Pod) : (s.setPod f).opt = s.opt := rfl
@[simp] theorem State.setPod_ch (s : State) (f : Pod → Pod) : (s.setPod f).ch = s.ch := rfl
@[simp] theorem State.setPod_das (s : State) (f : Pod → Pod) : (s.setPod f).das = s.das := rfl
@[simp] theorem State.setPod_pop (s : State) (f : Pod → Pod) : (s.setPod f).pop = s.pop := rfl
@[simp] theorem State.setPod_lin (s : State) (f : Pod → Pod) : (s.setPod f).lin = s.lin := rfl
@[simp] theorem State.setPod_hz (s : State) (f : Pod → Pod) : (s.setPod f).hz = s.hz := rfl
@[simp] theorem State.setPod_ses (s : State) (f : Pod → Pod) : (s.setPod f).ses = s.ses := rfl
@[simp] theorem State.setPod_caps (s : State) (f : Pod → Pod) : (s.setPod f).caps = s.caps := rfl
@[simp] theorem State.setPod_sun (s : State) (f : Pod → Pod) : (s.setPod f).sun = s.sun := rfl
@[simp] theorem State.setPod_qu (s : State) (f : Pod → Pod) : (s.setPod f).qu = s.qu := rfl
@[simp] theorem State.setPod_ln (s : State) (f : Pod → Pod) : (s.setPod f).ln = s.ln := rfl
@[simp] theorem State.setPod_mem (s : State) (f : Pod → Pod) : (s.setPod f).mem = s.mem := rfl
@[simp] theorem State.setPod_fx (s : State) (f : Pod → Pod) : (s.setPod f).fx = s.fx := rfl
@[simp] theorem State.setPod_al (s : State) (f : Pod → Pod) : (s.setPod f).al = s.al := rfl
@[simp] theorem State.setPod_tb (s : State) (f : Pod → Pod) : (s.setPod f).tb = s.tb := rfl
@[simp] theorem State.setPod_pip (s : State) (f : Pod → Pod) : (s.setPod f).pip = s.pip := rfl
@[simp] theorem State.setPod_dr (s : State) (f : Pod → Pod) : (s.setPod f).dr = s.dr := rfl
@[simp] theorem State.setPod_pod (s : State) (f : Pod → Pod) : (s.setPod f).pod = f s.pod := rfl
@[simp] theorem State.setPod_up (s : State) (f : Pod → Pod) : (s.setPod f).up = s.up := rfl
@[simp] theorem State.setPod_inj (s : State) (f : Pod → Pod) : (s.setPod f).inj = s.inj := rfl

@[simp] theorem State.setUp_pending (s : State) (f : Update → Update) : (s.setUp f).pending = s.pending := rfl
@[simp] theorem State.setUp_now (s : State) (f : Update → Update) : (s.setUp f).now = s.now := rfl
@[simp] theorem State.setUp_free (s : State) (f : Update → Update) : (s.setUp f).free = s.free := rfl
@[simp] theorem State.setUp_objects (s : State) (f : Update → Update) : (s.setUp f).objects = s.objects := rfl
@[simp] theorem State.setUp_domains (s : State) (f : Update → Update) : (s.setUp f).domains = s.domains := rfl
@[simp] theorem State.setUp_wire (s : State) (f : Update → Update) : (s.setUp f).wire = s.wire := rfl
@[simp] theorem State.setUp_board (s : State) (f : Update → Update) : (s.setUp f).board = s.board := rfl
@[simp] theorem State.setUp_pw (s : State) (f : Update → Update) : (s.setUp f).pw = s.pw := rfl
@[simp] theorem State.setUp_ctl (s : State) (f : Update → Update) : (s.setUp f).ctl = s.ctl := rfl
@[simp] theorem State.setUp_mg (s : State) (f : Update → Update) : (s.setUp f).mg = s.mg := rfl
@[simp] theorem State.setUp_lad (s : State) (f : Update → Update) : (s.setUp f).lad = s.lad := rfl
@[simp] theorem State.setUp_sw (s : State) (f : Update → Update) : (s.setUp f).sw = s.sw := rfl
@[simp] theorem State.setUp_opt (s : State) (f : Update → Update) : (s.setUp f).opt = s.opt := rfl
@[simp] theorem State.setUp_ch (s : State) (f : Update → Update) : (s.setUp f).ch = s.ch := rfl
@[simp] theorem State.setUp_das (s : State) (f : Update → Update) : (s.setUp f).das = s.das := rfl
@[simp] theorem State.setUp_pop (s : State) (f : Update → Update) : (s.setUp f).pop = s.pop := rfl
@[simp] theorem State.setUp_lin (s : State) (f : Update → Update) : (s.setUp f).lin = s.lin := rfl
@[simp] theorem State.setUp_hz (s : State) (f : Update → Update) : (s.setUp f).hz = s.hz := rfl
@[simp] theorem State.setUp_ses (s : State) (f : Update → Update) : (s.setUp f).ses = s.ses := rfl
@[simp] theorem State.setUp_caps (s : State) (f : Update → Update) : (s.setUp f).caps = s.caps := rfl
@[simp] theorem State.setUp_sun (s : State) (f : Update → Update) : (s.setUp f).sun = s.sun := rfl
@[simp] theorem State.setUp_qu (s : State) (f : Update → Update) : (s.setUp f).qu = s.qu := rfl
@[simp] theorem State.setUp_ln (s : State) (f : Update → Update) : (s.setUp f).ln = s.ln := rfl
@[simp] theorem State.setUp_mem (s : State) (f : Update → Update) : (s.setUp f).mem = s.mem := rfl
@[simp] theorem State.setUp_fx (s : State) (f : Update → Update) : (s.setUp f).fx = s.fx := rfl
@[simp] theorem State.setUp_al (s : State) (f : Update → Update) : (s.setUp f).al = s.al := rfl
@[simp] theorem State.setUp_tb (s : State) (f : Update → Update) : (s.setUp f).tb = s.tb := rfl
@[simp] theorem State.setUp_pip (s : State) (f : Update → Update) : (s.setUp f).pip = s.pip := rfl
@[simp] theorem State.setUp_dr (s : State) (f : Update → Update) : (s.setUp f).dr = s.dr := rfl
@[simp] theorem State.setUp_pod (s : State) (f : Update → Update) : (s.setUp f).pod = s.pod := rfl
@[simp] theorem State.setUp_up (s : State) (f : Update → Update) : (s.setUp f).up = f s.up := rfl
@[simp] theorem State.setUp_inj (s : State) (f : Update → Update) : (s.setUp f).inj = s.inj := rfl

/-! ## What the touched field becomes -/

@[simp] theorem State.os_objects (s : State) (k v : Nat) : (s.os k v).objects = sput odflt s.objects k v := rfl
@[simp] theorem State.ds_domains (s : State) (k : Nat) (b : List Byte) : (s.ds k b).domains = sput ddflt s.domains k b := rfl
@[simp] theorem State.emit_wire (s : State) (w : Wire) : (s.emit w).wire = s.wire ++ [w] := rfl
@[simp] theorem State.answer_wire (s : State) (c : Nat) (a : Answer) : (s.answer c a).wire = s.wire ++ [.answer c a] := rfl
@[simp] theorem State.renew_ctl (s : State) (c : Nat) : (s.renew c).ctl = { s.ctl with lease := s.now + 10000000000 } := rfl

/-- Time only goes on: an instant already past is the present. -/
@[simp] theorem State.at_now (s : State) (t : Nat) : (s.at t).now = max s.now t := by
  show s.now + (t - s.now) = max s.now t
  omega

/-- Of the power island, the passing of time changes only the Shell's count. -/
theorem State.at_pw (s : State) (t : Nat) :
    (s.at t).pw = { s.pw with shellCount := (s.at t).pw.shellCount, shellRem := (s.at t).pw.shellRem } := rfl

@[simp] theorem State.at_power (s : State) (t : Nat) : (s.at t).pw.power = s.pw.power := rfl
@[simp] theorem State.at_vbat (s : State) (t : Nat) : (s.at t).pw.vbat = s.pw.vbat := rfl
@[simp] theorem State.at_pwrEn (s : State) (t : Nat) : (s.at t).pw.pwrEn = s.pw.pwrEn := rfl
@[simp] theorem State.at_pgIn (s : State) (t : Nat) : (s.at t).pw.pgIn = s.pw.pgIn := rfl
@[simp] theorem State.at_inReset (s : State) (t : Nat) : (s.at t).pw.inReset = s.pw.inReset := rfl
@[simp] theorem State.at_releaseAt (s : State) (t : Nat) : (s.at t).pw.releaseAt = s.pw.releaseAt := rfl
@[simp] theorem State.at_lowHold (s : State) (t : Nat) : (s.at t).pw.lowHold = s.pw.lowHold := rfl
@[simp] theorem State.at_lowUntil (s : State) (t : Nat) : (s.at t).pw.lowUntil = s.pw.lowUntil := rfl
@[simp] theorem State.at_armed (s : State) (t : Nat) : (s.at t).pw.armed = s.pw.armed := rfl
@[simp] theorem State.at_woken (s : State) (t : Nat) : (s.at t).pw.woken = s.pw.woken := rfl
@[simp] theorem State.at_wakeTime (s : State) (t : Nat) : (s.at t).pw.wakeTime = s.pw.wakeTime := rfl
@[simp] theorem State.at_goal (s : State) (t : Nat) : (s.at t).pw.goal = s.pw.goal := rfl
@[simp] theorem State.at_entry (s : State) (t : Nat) : (s.at t).pw.entry = s.pw.entry := rfl
@[simp] theorem State.at_sensedHead (s : State) (t : Nat) : (s.at t).pw.sensedHead = s.pw.sensedHead := rfl
@[simp] theorem State.at_sensedPorts (s : State) (t : Nat) : (s.at t).pw.sensedPorts = s.pw.sensedPorts := rfl
@[simp] theorem State.at_serial (s : State) (t : Nat) : (s.at t).pw.serial = s.pw.serial := rfl
@[simp] theorem State.at_shutting (s : State) (t : Nat) : (s.at t).pw.shutting = s.pw.shutting := rfl
@[simp] theorem State.at_stopWanted (s : State) (t : Nat) : (s.at t).pw.stopWanted = s.pw.stopWanted := rfl
@[simp] theorem State.at_photonic (s : State) (t : Nat) : (s.at t).pw.photonic = s.pw.photonic := rfl
@[simp] theorem State.at_retention (s : State) (t : Nat) : (s.at t).pw.retention = s.pw.retention := rfl
@[simp] theorem State.at_running (s : State) (t : Nat) : (s.at t).tb.running = s.tb.running := rfl
@[simp] theorem State.at_edge (s : State) (t : Nat) : (s.at t).tb.edge = s.tb.edge := rfl
@[simp] theorem State.at_lastEdge (s : State) (t : Nat) : (s.at t).tb.lastEdge = s.tb.lastEdge := rfl
@[simp] theorem State.at_intAt (s : State) (t : Nat) : (s.at t).tb.intAt = s.tb.intAt := rfl

@[simp] theorem State.at_og (s : State) (t k : Nat) : (s.at t).og k = s.og k := rfl
@[simp] theorem State.at_dg (s : State) (t k : Nat) : (s.at t).dg k = s.dg k := rfl
@[simp] theorem State.at_coreLive (s : State) (t : Nat) : (s.at t).coreLive = s.coreLive := rfl

/-! ## Reading a sparse table after a write -/

/-- A key the write does not name reads as before. -/
theorem sget_sput_of_ne {α : Type} [DecidableEq α] (d : Nat → α) {k j : Nat} (v : α) (h : j ≠ k) :
    ∀ l : List (Nat × α), sget d (sput d l k v) j = sget d l j
  | [] => by
    simp only [sput]
    split
    · rfl
    · simp only [sget]
      split
      · omega
      · rfl
  | (a, w) :: r => by
    simp only [sput]
    split
    · split
      · rfl
      · simp only [sget]
        repeat' split
        all_goals first | rfl | omega
    · split
      · split
        · simp only [sget]
          split
          · omega
          · rfl
        · simp only [sget]
          repeat' split
          all_goals first | rfl | omega
      · simp only [sget]
        split
        · rfl
        · exact sget_sput_of_ne d v h r

/-- A key below every listed one reads as unlisted. -/
theorem sget_of_swfFrom {α : Type} [DecidableEq α] (d : Nat → α) {k : Nat} :
    ∀ (l : List (Nat × α)) (lo : Nat), k < lo → swfFrom d lo l = true → sget d l k = d k
  | [], _, _, _ => rfl
  | (a, w) :: r, lo, hk, h => by
    simp only [swfFrom, Bool.and_eq_true, decide_eq_true_eq] at h
    simp only [sget]
    split
    · omega
    · exact sget_of_swfFrom d r (a + 1) (by omega) h.2

theorem sget_sput_from {α : Type} [DecidableEq α] (d : Nat → α) (k : Nat) (v : α) :
    ∀ (l : List (Nat × α)) (lo : Nat), swfFrom d lo l = true → sget d (sput d l k v) k = v
  | [], _, _ => by
    simp only [sput]
    split
    · simp_all [sget]
    · simp [sget]
  | (a, w) :: r, lo, h => by
    simp only [swfFrom, Bool.and_eq_true, decide_eq_true_eq] at h
    simp only [sput]
    split
    · split
      · simp only [sget]
        split
        · omega
        · rw [sget_of_swfFrom d r (a + 1) (by omega) h.2]; simp_all
      · simp [sget]
    · split
      · split
        · rw [sget_of_swfFrom d r (a + 1) (by omega) h.2]; simp_all
        · simp [sget]
      · simp only [sget]
        split
        · omega
        · exact sget_sput_from d k v r (a + 1) h.2

/-- The key just written reads as written. -/
theorem sget_sput_self {α : Type} [DecidableEq α] (d : Nat → α) (l : List (Nat × α)) (k : Nat) (v : α) (h : swf d l = true) :
    sget d (sput d l k v) k = v := sget_sput_from d k v l 0 h

/-! ## The object dictionary after a write -/

theorem State.og_os_of_ne (s : State) {k j : Nat} (v : Nat) (h : j ≠ k) : (s.os k v).og j = s.og j := sget_sput_of_ne _ _ h _

theorem State.og_os_self (s : State) (k v : Nat) (h : swf odflt s.objects = true) : (s.os k v).og k = v := sget_sput_self _ _ _ _ h

theorem State.dg_ds_of_ne (s : State) {k j : Nat} (b : List Byte) (h : j ≠ k) : (s.ds k b).dg j = s.dg j := sget_sput_of_ne _ _ h _

theorem State.dg_ds_self (s : State) (k : Nat) (b : List Byte) (h : swf ddflt s.domains = true) : (s.ds k b).dg k = b :=
  sget_sput_self _ _ _ _ h

theorem State.og_renew_of_ne (s : State) (c : Nat) {j : Nat} (h : j ≠ 0x200009) : (s.renew c).og j = s.og j :=
  sget_sput_of_ne _ _ h _

@[simp] theorem State.answer_og (s : State) (c : Nat) (a : Answer) (k : Nat) : (s.answer c a).og k = s.og k := rfl
@[simp] theorem State.emit_og (s : State) (w : Wire) (k : Nat) : (s.emit w).og k = s.og k := rfl

end Sys2Proof.Machine
end

