-- ==== Sys2Proof/Laws/Ops.lean ====
section
/-! SUPPORT. What the shared operations answer: the judgement of a write, the session, and the passing of time. -/

namespace Sys2Proof.Machine

open Sys2Proof

/-! ## A USDO write -/

/-- A write that reaches its object and is taken there has its effect and is answered as done. -/
theorem State.hostWrite_ok {s u : State} {c idx sub : Nat} {seg : Bool} {b : List Byte} {f : State → Except Nat State}
    (h : s.Accepts c idx sub seg b) (e : f (s.renew c) = .ok u) : s.hostWrite c idx sub seg b f = u.answer c .done := by
  obtain ⟨h1, h2, h3, h4⟩ := h
  have h5 : (s.renew c).ctl.transfer = none := h4
  simp only [State.hostWrite, h1, h2, h3, h5, e, Option.isSome_none, Bool.true_eq_false, Bool.false_eq_true, if_false]

/-- A write that its object refuses changes nothing but the session, and is answered with the abort. -/
theorem State.hostWrite_refused {s : State} {c idx sub a : Nat} {seg : Bool} {b : List Byte} {f : State → Except Nat State}
    (h : s.Accepts c idx sub seg b) (e : f (s.renew c) = .error a) :
    s.hostWrite c idx sub seg b f = (s.renew c).answer c (.abort a) := by
  obtain ⟨h1, h2, h3, h4⟩ := h
  have h5 : (s.renew c).ctl.transfer = none := h4
  simp only [State.hostWrite, h1, h2, h3, h5, e, Option.isSome_none, Bool.true_eq_false, Bool.false_eq_true, if_false]

/-- A write that meets a long operation or another client's session changes nothing. -/
theorem State.hostWrite_gated {s : State} {c idx sub a : Nat} {seg : Bool} {b : List Byte} (f : State → Except Nat State)
    (h1 : s.served = true) (h2 : s.gate c = some a) : s.hostWrite c idx sub seg b f = s.answer c (.abort a) := by
  simp only [State.hostWrite, h1, h2, Bool.true_eq_false, if_false]

/-- A node that does not answer leaves a request without effect. -/
theorem State.hostWrite_silent {s : State} {c idx sub : Nat} {seg : Bool} {b : List Byte} (f : State → Except Nat State)
    (h1 : s.served = false) : s.hostWrite c idx sub seg b f = s := by
  simp only [State.hostWrite, h1, if_true]

/-- `require` lets its continuation through exactly when its condition holds. -/
theorem require_pass {p : Bool} {a : Nat} {k : Except Nat State} (h : p = true) : require p a k = k := by
  simp only [require, h, if_true]

theorem require_stop {p : Bool} {a : Nat} {k : Except Nat State} (h : p = false) : require p a k = .error a := by
  simp only [require, h, Bool.false_eq_true, if_false]

end Sys2Proof.Machine
end

