-- ==== Sys2Proof/Laws/Parts.lean ====
section
/-! SUPPORT. How the relation "the parts of a mask are as they were" goes through the forms that the model's definitions are written
in. A mask is a number whose bits stand for the parts. -/

namespace Sys2Proof.Machine

open Sys2Proof

/-- Every part. -/
def allParts : List Part :=
  [.pending, .clock, .free, .objects, .domains, .wire, .board, .pw, .ctl, .mg, .lad, .sw, .opt, .ch, .das, .pop, .lin, .hz, .ses,
    .caps, .sun, .qu, .ln, .mem, .fx, .al, .tb, .pip, .dr, .pod, .up, .inj]

/-- The bit of a part in a mask. -/
def Part.ix : Part → Nat
  | .pending => 0
  | .clock => 1
  | .free => 2
  | .objects => 3
  | .domains => 4
  | .wire => 5
  | .board => 6
  | .pw => 7
  | .ctl => 8
  | .mg => 9
  | .lad => 10
  | .sw => 11
  | .opt => 12
  | .ch => 13
  | .das => 14
  | .pop => 15
  | .lin => 16
  | .hz => 17
  | .ses => 18
  | .caps => 19
  | .sun => 20
  | .qu => 21
  | .ln => 22
  | .mem => 23
  | .fx => 24
  | .al => 25
  | .tb => 26
  | .pip => 27
  | .dr => 28
  | .pod => 29
  | .up => 30
  | .inj => 31

/-- The parts of mask m are in s as they are in r. -/
structure Same (m : Nat) (r s : State) : Prop where
  parts : ∀ p : Part, m.testBit p.ix = true → p.same r s

def SameE (m : Nat) (r : State) (e : Except Nat State) : Prop := ∀ t, e = .ok t → Same m r t

def SameP (m : Nat) (r : State) (o : Option State) : Prop := ∀ t, o = some t → Same m r t

def SameO (m : Nat) (r : State) (o : Host.Outcome State Fault Refusal) : Prop := ∀ t, o = .next t → Same m r t

theorem Part.same_refl (s : State) (p : Part) : p.same s s := by
  cases p <;> first | rfl | exact ⟨rfl, rfl, rfl, rfl, rfl⟩

theorem Part.same_trans {s t u : State} {p : Part} (h : p.same s t) (k : p.same t u) : p.same s u := by
  cases p <;> first
    | exact Eq.trans k h
    | exact ⟨k.1.trans h.1, k.2.1.trans h.2.1, k.2.2.1.trans h.2.2.1, k.2.2.2.1.trans h.2.2.2.1, k.2.2.2.2.trans h.2.2.2.2⟩

theorem Same.self (m : Nat) (s : State) : Same m s s := ⟨fun p _ => p.same_refl s⟩

theorem mask_sub {m a b : Nat} (h : m &&& a = 0) (e : b &&& a = b) : m &&& b = 0 := by
  rw [← e, Nat.and_comm b a, ← Nat.and_assoc, h, Nat.zero_and]

theorem mask_bit {m a i : Nat} (h : m &&& a = 0) (k : m.testBit i = true) : a.testBit i = false := by
  have e := congrArg (fun x => x.testBit i) h
  simp only [Nat.testBit_and, k, Bool.true_and, Nat.zero_testBit] at e
  exact e

/-- Same of the state given field by field. -/
def SameLit (m : Nat) (r : State) (pending : List Instr) (now free : Nat) (objects : List (Nat × Nat))
    (domains : List (Nat × List Byte)) (wire : List Wire) (board : Board) (pw : Power) (ctl : Control) (mg : Manage) (lad : Ladder)
    (sw : Sweep) (opt : Optics) (ch : Chestnut) (das : Das) (pop : Poppy) (lin : Linseed) (hz : Hazel) (ses : Sesame)
    (caps : List Capture) (sun : Sunflower) (qu : Queues) (ln : Lanes) (mem : Memory) (fx : Flax) (al : Almond) (tb : TimeBase)
    (pip : Pip) (dr : Darug) (pod : Pod) (up : Update) (inj : Inject) : Prop :=
  Same m r ⟨pending, now, free, objects, domains, wire, board, pw, ctl, mg, lad, sw, opt, ch, das, pop, lin, hz, ses,
    caps, sun, qu, ln, mem, fx, al, tb, pip, dr, pod, up, inj⟩

theorem Same.lit {m : Nat} {r : State} {pending : List Instr} {now free : Nat} {objects : List (Nat × Nat)}
    {domains : List (Nat × List Byte)} {wire : List Wire} {board : Board} {pw : Power} {ctl : Control} {mg : Manage} {lad : Ladder}
    {sw : Sweep} {opt : Optics} {ch : Chestnut} {das : Das} {pop : Poppy} {lin : Linseed} {hz : Hazel} {ses : Sesame}
    {caps : List Capture} {sun : Sunflower} {qu : Queues} {ln : Lanes} {mem : Memory} {fx : Flax} {al : Almond} {tb : TimeBase}
    {pip : Pip} {dr : Darug} {pod : Pod} {up : Update} {inj : Inject} :
    Same m r ⟨pending, now, free, objects, domains, wire, board, pw, ctl, mg, lad, sw, opt, ch, das, pop, lin, hz, ses,
      caps, sun, qu, ln, mem, fx, al, tb, pip, dr, pod, up, inj⟩ ↔
    SameLit m r pending now free objects domains wire board pw ctl mg lad sw opt ch das pop lin hz ses
      caps sun qu ln mem fx al tb pip dr pod up inj := Iff.rfl

/-- A state that differs from s in parts outside the mask only. -/
theorem SameLit.of {m a : Nat} {r s : State} {now free : Nat} {objects : List (Nat × Nat)}
    {domains : List (Nat × List Byte)} {wire : List Wire} {board : Board} {pw : Power} {ctl : Control} {mg : Manage} {lad : Ladder}
    {sw : Sweep} {opt : Optics} {ch : Chestnut} {das : Das} {pop : Poppy} {lin : Linseed} {hz : Hazel} {ses : Sesame}
    {caps : List Capture} {sun : Sunflower} {qu : Queues} {ln : Lanes} {mem : Memory} {fx : Flax} {al : Almond} {tb : TimeBase}
    {pip : Pip} {dr : Darug} {pod : Pod} {up : Update} {inj : Inject} (hm : m &&& a = 0) (h : Same m r s)
    (e : ∀ p : Part, a.testBit p.ix = false → p.same s ⟨s.pending, now, free, objects, domains, wire, board, pw, ctl, mg, lad, sw,
      opt, ch, das, pop, lin, hz, ses, caps, sun, qu, ln, mem, fx, al, tb, pip, dr, pod, up, inj⟩) :
    SameLit m r s.pending now free objects domains wire board pw ctl mg lad sw opt ch das pop lin hz ses
      caps sun qu ln mem fx al tb pip dr pod up inj :=
  ⟨fun p k => Part.same_trans (h.parts p k) (e p (mask_bit hm k))⟩

/-- The mask of the parts outside a list. -/
def outside (l : List Part) : Nat := allParts.foldl (fun m p => if p ∈ l then m else m ||| 2 ^ p.ix) 0

theorem mem_allParts (p : Part) : p ∈ allParts := by cases p <;> decide

theorem foldl_bit (l : List Part) : ∀ (a : List Part) (m i : Nat), m.testBit i = true →
    (a.foldl (fun m p => if p ∈ l then m else m ||| 2 ^ p.ix) m).testBit i = true
  | [], _, _, h => h
  | q :: a, m, i, h => by
    refine foldl_bit l a _ i ?_
    dsimp only
    split
    · exact h
    · simp only [Nat.testBit_or, h, Bool.true_or]

theorem foldl_bit_of_mem (l : List Part) {p : Part} (hp : p ∉ l) : ∀ (a : List Part) (m : Nat), p ∈ a →
    (a.foldl (fun m p => if p ∈ l then m else m ||| 2 ^ p.ix) m).testBit p.ix = true
  | q :: a, m, h => by
    cases h with
    | head =>
      simp only [List.foldl_cons, if_neg hp]
      refine foldl_bit l a _ _ ?_
      simp only [Nat.testBit_or, Nat.testBit_two_pow_self, Bool.or_true]
    | tail _ h => exact foldl_bit_of_mem l hp a _ h

/-- What the mask of the parts outside a list says of such a part. -/
theorem Same.out {l : List Part} {r s : State} (h : Same (outside l) r s) (p : Part) (hp : p ∉ l) : p.same r s :=
  h.parts p (foldl_bit_of_mem l hp allParts 0 (mem_allParts p))

theorem Same.cut {m : Nat} {r x : State} {p : Prop} (h : Same m r x) (k : Same m r x → p) : p := k h

theorem Same.ite {m : Nat} {r a b : State} {c : Prop} [Decidable c] (ha : Same m r a) (hb : Same m r b) :
    Same m r (if c then a else b) := by
  split <;> assumption

theorem Same.ite_snd {α : Type} {m : Nat} {r : State} {a b : α × State} {c : Prop} [Decidable c] (ha : Same m r a.2)
    (hb : Same m r b.2) : Same m r (if c then a else b).2 := by
  split <;> assumption

theorem SameE.ite {m : Nat} {r : State} {a b : Except Nat State} {c : Prop} [Decidable c] (ha : SameE m r a) (hb : SameE m r b) :
    SameE m r (if c then a else b) := by
  split <;> assumption

theorem SameP.ite {m : Nat} {r : State} {a b : Option State} {c : Prop} [Decidable c] (ha : SameP m r a) (hb : SameP m r b) :
    SameP m r (if c then a else b) := by
  split <;> assumption

theorem SameO.ite {m : Nat} {r : State} {a b : Host.Outcome State Fault Refusal} {c : Prop} [Decidable c] (ha : SameO m r a)
    (hb : SameO m r b) : SameO m r (if c then a else b) := by
  split <;> assumption

theorem SameP.some {m : Nat} {r s : State} (h : Same m r s) : SameP m r (some s) := fun _ e => by cases e; exact h

theorem SameP.none {m : Nat} {r : State} : SameP m r none := fun _ e => by cases e

theorem Same.getD {m : Nat} {r s : State} {o : Option State} (ho : SameP m r o) (h : Same m r s) : Same m r (o.getD s) := by
  cases o with
  | none => exact h
  | some t => exact ho t rfl

theorem Same.ofP {m : Nat} {r s : State} {o : Option State} (h : o = .some s) (k : SameP m r o) : Same m r s := k s h

theorem SameE.ok {m : Nat} {r s : State} (h : Same m r s) : SameE m r (.ok s) := fun _ e => by cases e; exact h

theorem SameE.error {m : Nat} {r : State} (n : Nat) : SameE m r (.error n) := fun _ e => by cases e

theorem SameO.next {m : Nat} {r s : State} (h : Same m r s) : SameO m r (.next s) := fun _ e => by cases e; exact h

theorem Same.ofE {m : Nat} {r s : State} {e : Except Nat State} (h : e = .ok s) (k : SameE m r e) : Same m r s := k s h

theorem Same.snd {α : Type} {m : Nat} {r s : State} {a : α} {p : α × State} (h : p = (a, s)) (k : Same m r p.2) : Same m r s := by
  subst h; exact k

theorem Same.fst {α : Type} {m : Nat} {r s : State} {a : α} {p : State × α} (h : p = (s, a)) (k : Same m r p.1) : Same m r s := by
  subst h; exact k

theorem Same.foldl {α : Type} {m : Nat} {r : State} {f : State → α → State} (hf : ∀ s x, Same m r s → Same m r (f s x)) :
    ∀ (l : List α) {s : State}, Same m r s → Same m r (l.foldl f s)
  | [], _, h => h
  | x :: l, _, h => Same.foldl hf l (hf _ x h)

/-- Of the power island, time moves only the Shell's count; of the time base, only T. -/
theorem State.at_same {m : Nat} {r s : State} (hm : m &&& 2 = 0) (h : Same m r s) (t : Nat) : Same m r (s.at t) :=
  ⟨fun p k => Part.same_trans (h.parts p k) (by
    have := mask_bit hm k
    cases p
    case clock => exact absurd this (by decide)
    all_goals rfl)⟩

end Sys2Proof.Machine
end

