-- ==== Sys2Proof/Laws/PerInstr.lean ====
section
/-! SUPPORT. Statements about every command, made per command. Footprint: the queue of waiting commands stands in no command's
`writes`, the list of parts that `Obligations.CommandsChangeOnlyTheirParts` speaks of. -/

/-- The command leaves the queue alone, by its list of parts. -/
def Sys2Proof.Laws.Footprint.Statement (i : Sys2Proof.Instr) : Prop := Sys2Proof.Machine.Part.pending ∉ i.writes

namespace Sys2Proof.Laws.Footprint

open Sys2Proof Sys2Proof.Machine

-- One theorem at a time: the 271 of them need not stand in memory together.
set_option Elab.async false

theorem vbatPowerUp : ∀ a, Statement (.vbatPowerUp a) := by simp [Statement, Instr.writes]
theorem crystalStart : ∀ a, Statement (.crystalStart a) := by simp [Statement, Instr.writes]
theorem corePowerUp : ∀ a, Statement (.corePowerUp a) := by simp [Statement, Instr.writes]
theorem internalResetRelease : ∀ a, Statement (.internalResetRelease a) := by simp [Statement, Instr.writes]
theorem pgInFall : ∀ a, Statement (.pgInFall a) := by simp [Statement, Instr.writes]
theorem resetL : ∀ a b, Statement (.resetL a b) := by simp [Statement, Instr.writes]
theorem wakePin : ∀ a b, Statement (.wakePin a b) := by simp [Statement, Instr.writes]
theorem wakeTimer : ∀ a, Statement (.wakeTimer a) := by simp [Statement, Instr.writes]
theorem pwrEnHoldEnd : ∀ a, Statement (.pwrEnHoldEnd a) := by simp [Statement, Instr.writes]
theorem dormantEntry : ∀ a, Statement (.dormantEntry a) := by simp [Statement, Instr.writes]
theorem retentionWrite : ∀ a, Statement (.retentionWrite a) := by simp [Statement, Instr.writes]
theorem powerCommandDormant : ∀ a b, Statement (.powerCommandDormant a b) := by simp [Statement, Instr.writes]
theorem powerCommandDoze : ∀ a b, Statement (.powerCommandDoze a b) := by simp [Statement, Instr.writes]
theorem powerCommandReady : ∀ a b, Statement (.powerCommandReady a b) := by simp [Statement, Instr.writes]
theorem powerCommandSensing : ∀ a b, Statement (.powerCommandSensing a b) := by simp [Statement, Instr.writes]
theorem startRemoteNode : ∀ a b, Statement (.startRemoteNode a b) := by simp [Statement, Instr.writes]
theorem stopRemoteNode : ∀ a b, Statement (.stopRemoteNode a b) := by simp [Statement, Instr.writes]
theorem enterPreOperational : ∀ a b, Statement (.enterPreOperational a b) := by simp [Statement, Instr.writes]
theorem resetNode : ∀ a b, Statement (.resetNode a b) := by simp [Statement, Instr.writes]
theorem resetCommunication : ∀ a b, Statement (.resetCommunication a b) := by simp [Statement, Instr.writes]
theorem dozeToReadyDone : ∀ a b, Statement (.dozeToReadyDone a b) := by simp [Statement, Instr.writes]
theorem activePlanReload : ∀ a, Statement (.activePlanReload a) := by simp [Statement, Instr.writes]
theorem keptPlanReload : ∀ a b, Statement (.keptPlanReload a b) := by simp [Statement, Instr.writes]
theorem coldEntrySeedCheck : ∀ a b, Statement (.coldEntrySeedCheck a b) := by simp [Statement, Instr.writes]
theorem acquisitionDeadline : ∀ a, Statement (.acquisitionDeadline a) := by simp [Statement, Instr.writes]
theorem offsetTrim : ∀ a b, Statement (.offsetTrim a b) := by simp [Statement, Instr.writes]
theorem sweepBoundary : Statement .sweepBoundary := by simp [Statement, Instr.writes]
theorem choiceFix : ∀ a b, Statement (.choiceFix a b) := by simp [Statement, Instr.writes]
theorem slotFiring : ∀ a b c d, Statement (.slotFiring a b c d) := by simp [Statement, Instr.writes]
theorem inputLimitAssert : ∀ a b c, Statement (.inputLimitAssert a b c) := by simp [Statement, Instr.writes]
theorem reflectionTrip : ∀ a b c, Statement (.reflectionTrip a b c) := by simp [Statement, Instr.writes]
theorem seedLowSet : ∀ a b, Statement (.seedLowSet a b) := by simp [Statement, Instr.writes]
theorem seedLowClear : ∀ a b, Statement (.seedLowClear a b) := by simp [Statement, Instr.writes]
theorem biasMeasurement : ∀ a b c d e f, Statement (.biasMeasurement a b c d e f) := by simp [Statement, Instr.writes]
theorem measurementTimeout : ∀ a b c, Statement (.measurementTimeout a b c) := by simp [Statement, Instr.writes]
theorem biasSearch : ∀ a b c, Statement (.biasSearch a b c) := by simp [Statement, Instr.writes]
theorem darkPortPowerDown : ∀ a b, Statement (.darkPortPowerDown a b) := by simp [Statement, Instr.writes]
theorem stopShutdown : ∀ a, Statement (.stopShutdown a) := by simp [Statement, Instr.writes]
theorem holdWarmOn : ∀ a b, Statement (.holdWarmOn a b) := by simp [Statement, Instr.writes]
theorem holdWarmOff : ∀ a b, Statement (.holdWarmOff a b) := by simp [Statement, Instr.writes]
theorem chestnutOutput : ∀ a b c d e, Statement (.chestnutOutput a b c d e) := by simp [Statement, Instr.writes]
theorem workItemRelease : ∀ a b c d e f g, Statement (.workItemRelease a b c d e f g) := by simp [Statement, Instr.writes]
theorem checkpointInstant : ∀ a b c, Statement (.checkpointInstant a b c) := by simp [Statement, Instr.writes]
theorem budgetExhausted : ∀ a b, Statement (.budgetExhausted a b) := by simp [Statement, Instr.writes]
theorem sweepCompletion : ∀ a, Statement (.sweepCompletion a) := by simp [Statement, Instr.writes]
theorem segmentEmit : ∀ a b c d e, Statement (.segmentEmit a b c d e) := by simp [Statement, Instr.writes]
theorem poppyBlock : ∀ a b c d, Statement (.poppyBlock a b c d) := by simp [Statement, Instr.writes]
theorem inactiveBankLoad : ∀ a b c d, Statement (.inactiveBankLoad a b c d) := by simp [Statement, Instr.writes]
theorem poppyResetWrite : ∀ a b, Statement (.poppyResetWrite a b) := by simp [Statement, Instr.writes]
theorem poppyModeWrite : ∀ a b c, Statement (.poppyModeWrite a b c) := by simp [Statement, Instr.writes]
theorem linseedBlockAdd : ∀ a b c, Statement (.linseedBlockAdd a b c) := by simp [Statement, Instr.writes]
theorem dtsDecode : ∀ a b, Statement (.dtsDecode a b) := by simp [Statement, Instr.writes]
theorem evaluationInstant : ∀ a b c d, Statement (.evaluationInstant a b c d) := by simp [Statement, Instr.writes]
theorem levelTimerExpiry : ∀ a b, Statement (.levelTimerExpiry a b) := by simp [Statement, Instr.writes]
theorem autoTimerExpiry : ∀ a b, Statement (.autoTimerExpiry a b) := by simp [Statement, Instr.writes]
theorem zoneUpdate : ∀ a b c d, Statement (.zoneUpdate a b c d) := by simp [Statement, Instr.writes]
theorem sequenceArm : ∀ a b c, Statement (.sequenceArm a b c) := by simp [Statement, Instr.writes]
theorem sequenceDisarm : ∀ a b c, Statement (.sequenceDisarm a b c) := by simp [Statement, Instr.writes]
theorem sequenceArmAct : ∀ a b, Statement (.sequenceArmAct a b) := by simp [Statement, Instr.writes]
theorem force : ∀ a b c, Statement (.force a b c) := by simp [Statement, Instr.writes]
theorem forceAct : ∀ a b, Statement (.forceAct a b) := by simp [Statement, Instr.writes]
theorem hostLine : ∀ a b c, Statement (.hostLine a b c) := by simp [Statement, Instr.writes]
theorem zoneThresholdWrite : ∀ a b c d e, Statement (.zoneThresholdWrite a b c d e) := by simp [Statement, Instr.writes]
theorem trigInEdge : ∀ a b c d e f, Statement (.trigInEdge a b c d e f) := by simp [Statement, Instr.writes]
theorem captureArm : ∀ a b c, Statement (.captureArm a b c) := by simp [Statement, Instr.writes]
theorem captureDisarm : ∀ a b c, Statement (.captureDisarm a b c) := by simp [Statement, Instr.writes]
theorem fillingEntry : ∀ a b, Statement (.fillingEntry a b) := by simp [Statement, Instr.writes]
theorem captureLengthWrite : ∀ a b c d e, Statement (.captureLengthWrite a b c d e) := by simp [Statement, Instr.writes]
theorem rateWindowEnd : ∀ a b, Statement (.rateWindowEnd a b) := by simp [Statement, Instr.writes]
theorem postTimeLimit : ∀ a b, Statement (.postTimeLimit a b) := by simp [Statement, Instr.writes]
theorem captureRecordWrite : ∀ a b c, Statement (.captureRecordWrite a b c) := by simp [Statement, Instr.writes]
theorem captureRearm : ∀ a b, Statement (.captureRearm a b) := by simp [Statement, Instr.writes]
theorem ownerWrite : ∀ a b c, Statement (.ownerWrite a b c) := by simp [Statement, Instr.writes]
theorem sunflowerEnable : ∀ a b, Statement (.sunflowerEnable a b) := by simp [Statement, Instr.writes]
theorem sunflowerDisable : ∀ a b, Statement (.sunflowerDisable a b) := by simp [Statement, Instr.writes]
theorem verticalSync : ∀ a, Statement (.verticalSync a) := by simp [Statement, Instr.writes]
theorem underrun : ∀ a b, Statement (.underrun a b) := by simp [Statement, Instr.writes]
theorem planInstall : ∀ a b c, Statement (.planInstall a b c) := by simp [Statement, Instr.writes]
theorem planInstallKeep : ∀ a b c, Statement (.planInstallKeep a b c) := by simp [Statement, Instr.writes]
theorem removeRung : ∀ a b c, Statement (.removeRung a b c) := by simp [Statement, Instr.writes]
theorem requestedRung : ∀ a b c, Statement (.requestedRung a b c) := by simp [Statement, Instr.writes]
theorem prepareEnd : ∀ a b c, Statement (.prepareEnd a b c) := by simp [Statement, Instr.writes]
theorem stageOpen : ∀ a b, Statement (.stageOpen a b) := by simp [Statement, Instr.writes]
theorem stageApply : ∀ a b, Statement (.stageApply a b) := by simp [Statement, Instr.writes]
theorem stageDiscard : ∀ a b, Statement (.stageDiscard a b) := by simp [Statement, Instr.writes]
theorem shadowedWrite : ∀ a b c d e, Statement (.shadowedWrite a b c d e) := by simp [Statement, Instr.writes]
theorem chainSwitch : ∀ a b c, Statement (.chainSwitch a b c) := by simp [Statement, Instr.writes]
theorem prepare : ∀ a b c, Statement (.prepare a b c) := by simp [Statement, Instr.writes]
theorem ack : ∀ a b c, Statement (.ack a b c) := by simp [Statement, Instr.writes]
theorem nak : ∀ a b c, Statement (.nak a b c) := by simp [Statement, Instr.writes]
theorem ackTimeout : ∀ a, Statement (.ackTimeout a) := by simp [Statement, Instr.writes]
theorem commit : ∀ a b c, Statement (.commit a b c) := by simp [Statement, Instr.writes]
theorem cancel : ∀ a b, Statement (.cancel a b) := by simp [Statement, Instr.writes]
theorem fail : ∀ a b c, Statement (.fail a b c) := by simp [Statement, Instr.writes]
theorem outcome : ∀ a b c d e, Statement (.outcome a b c d e) := by simp [Statement, Instr.writes]
theorem commitLostTimeout : ∀ a, Statement (.commitLostTimeout a) := by simp [Statement, Instr.writes]
theorem burstRequest : ∀ a b, Statement (.burstRequest a b) := by simp [Statement, Instr.writes]
theorem burstAbandon : ∀ a b, Statement (.burstAbandon a b) := by simp [Statement, Instr.writes]
theorem burstCaptureEnd : ∀ a b c d e, Statement (.burstCaptureEnd a b c d e) := by simp [Statement, Instr.writes]
theorem burstReadout : ∀ a, Statement (.burstReadout a) := by simp [Statement, Instr.writes]
theorem userProgram : ∀ a b c, Statement (.userProgram a b c) := by simp [Statement, Instr.writes]
theorem hzNop : ∀ a, Statement (.hzNop a) := by simp [Statement, Instr.writes]
theorem hzLoop : ∀ a b, Statement (.hzLoop a b) := by simp [Statement, Instr.writes]
theorem hzJmp : ∀ a b, Statement (.hzJmp a b) := by simp [Statement, Instr.writes]
theorem hzBra : ∀ a b, Statement (.hzBra a b) := by simp [Statement, Instr.writes]
theorem hzBrn : ∀ a b, Statement (.hzBrn a b) := by simp [Statement, Instr.writes]
theorem hzChk : ∀ a b, Statement (.hzChk a b) := by simp [Statement, Instr.writes]
theorem hzEnd : ∀ a b, Statement (.hzEnd a b) := by simp [Statement, Instr.writes]
theorem hzIllegalBundle : ∀ a b c, Statement (.hzIllegalBundle a b c) := by simp [Statement, Instr.writes]
theorem hzAddrNop : ∀ a, Statement (.hzAddrNop a) := by simp [Statement, Instr.writes]
theorem hzPadd : ∀ a b, Statement (.hzPadd a b) := by simp [Statement, Instr.writes]
theorem hzPldp : ∀ a b c, Statement (.hzPldp a b c) := by simp [Statement, Instr.writes]
theorem hzPldm : ∀ a b c, Statement (.hzPldm a b c) := by simp [Statement, Instr.writes]
theorem hzPldl : ∀ a b c, Statement (.hzPldl a b c) := by simp [Statement, Instr.writes]
theorem hzPldz : ∀ a b c, Statement (.hzPldz a b c) := by simp [Statement, Instr.writes]
theorem hzPaddi : ∀ a b c, Statement (.hzPaddi a b c) := by simp [Statement, Instr.writes]
theorem hzPsets : ∀ a b c, Statement (.hzPsets a b c) := by simp [Statement, Instr.writes]
theorem hzLdstNop : ∀ a b, Statement (.hzLdstNop a b) := by simp [Statement, Instr.writes]
theorem hzLdw : ∀ a b, Statement (.hzLdw a b) := by simp [Statement, Instr.writes]
theorem hzLdb : ∀ a b, Statement (.hzLdb a b) := by simp [Statement, Instr.writes]
theorem hzLdh : ∀ a b, Statement (.hzLdh a b) := by simp [Statement, Instr.writes]
theorem hzLdhs : ∀ a b, Statement (.hzLdhs a b) := by simp [Statement, Instr.writes]
theorem hzLds : ∀ a b, Statement (.hzLds a b) := by simp [Statement, Instr.writes]
theorem hzLda : ∀ a b, Statement (.hzLda a b) := by simp [Statement, Instr.writes]
theorem hzStw : ∀ a b, Statement (.hzStw a b) := by simp [Statement, Instr.writes]
theorem hzStb : ∀ a b, Statement (.hzStb a b) := by simp [Statement, Instr.writes]
theorem hzSth : ∀ a b, Statement (.hzSth a b) := by simp [Statement, Instr.writes]
theorem hzStbp : ∀ a b, Statement (.hzStbp a b) := by simp [Statement, Instr.writes]
theorem hzSts : ∀ a b, Statement (.hzSts a b) := by simp [Statement, Instr.writes]
theorem hzSta : ∀ a b, Statement (.hzSta a b) := by simp [Statement, Instr.writes]
theorem hzStaw : ∀ a b, Statement (.hzStaw a b) := by simp [Statement, Instr.writes]
theorem hzStaq : ∀ a b, Statement (.hzStaq a b) := by simp [Statement, Instr.writes]
theorem hzMacNop : ∀ a, Statement (.hzMacNop a) := by simp [Statement, Instr.writes]
theorem hzMac : ∀ a b, Statement (.hzMac a b) := by simp [Statement, Instr.writes]
theorem hzMsu : ∀ a b, Statement (.hzMsu a b) := by simp [Statement, Instr.writes]
theorem hzMpy : ∀ a b, Statement (.hzMpy a b) := by simp [Statement, Instr.writes]
theorem hzClr : ∀ a b, Statement (.hzClr a b) := by simp [Statement, Instr.writes]
theorem hzAccd : ∀ a b, Statement (.hzAccd a b) := by simp [Statement, Instr.writes]
theorem hzSeta : ∀ a b, Statement (.hzSeta a b) := by simp [Statement, Instr.writes]
theorem hzRsa : ∀ a b, Statement (.hzRsa a b) := by simp [Statement, Instr.writes]
theorem hzLsa : ∀ a b, Statement (.hzLsa a b) := by simp [Statement, Instr.writes]
theorem hzDivr : ∀ a b, Statement (.hzDivr a b) := by simp [Statement, Instr.writes]
theorem hzExt : ∀ a b, Statement (.hzExt a b) := by simp [Statement, Instr.writes]
theorem hzAdd : ∀ a b, Statement (.hzAdd a b) := by simp [Statement, Instr.writes]
theorem hzSub : ∀ a b, Statement (.hzSub a b) := by simp [Statement, Instr.writes]
theorem hzAdds : ∀ a b, Statement (.hzAdds a b) := by simp [Statement, Instr.writes]
theorem hzSubs : ∀ a b, Statement (.hzSubs a b) := by simp [Statement, Instr.writes]
theorem hzMin : ∀ a b, Statement (.hzMin a b) := by simp [Statement, Instr.writes]
theorem hzMax : ∀ a b, Statement (.hzMax a b) := by simp [Statement, Instr.writes]
theorem hzAnd : ∀ a b, Statement (.hzAnd a b) := by simp [Statement, Instr.writes]
theorem hzOr : ∀ a b, Statement (.hzOr a b) := by simp [Statement, Instr.writes]
theorem hzXor : ∀ a b, Statement (.hzXor a b) := by simp [Statement, Instr.writes]
theorem hzRsd : ∀ a b, Statement (.hzRsd a b) := by simp [Statement, Instr.writes]
theorem hzLsd : ∀ a b, Statement (.hzLsd a b) := by simp [Statement, Instr.writes]
theorem hzCgt : ∀ a b, Statement (.hzCgt a b) := by simp [Statement, Instr.writes]
theorem hzCeq : ∀ a b, Statement (.hzCeq a b) := by simp [Statement, Instr.writes]
theorem hzSel : ∀ a b, Statement (.hzSel a b) := by simp [Statement, Instr.writes]
theorem hzMov : ∀ a b, Statement (.hzMov a b) := by simp [Statement, Instr.writes]
theorem hzPrm : ∀ a b, Statement (.hzPrm a b) := by simp [Statement, Instr.writes]
theorem hzAbs : ∀ a b, Statement (.hzAbs a b) := by simp [Statement, Instr.writes]
theorem overrunClear : ∀ a b c, Statement (.overrunClear a b c) := by simp [Statement, Instr.writes]
theorem statusRecord : ∀ a, Statement (.statusRecord a) := by simp [Statement, Instr.writes]
theorem dataFrame : ∀ a b, Statement (.dataFrame a b) := by simp [Statement, Instr.writes]
theorem deviceControlFrame : ∀ a b, Statement (.deviceControlFrame a b) := by simp [Statement, Instr.writes]
theorem credit : ∀ a b c, Statement (.credit a b c) := by simp [Statement, Instr.writes]
theorem replayRequest : ∀ a b c, Statement (.replayRequest a b c) := by simp [Statement, Instr.writes]
theorem hostStatus : ∀ a b c, Statement (.hostStatus a b c) := by simp [Statement, Instr.writes]
theorem download : ∀ a b c d e f, Statement (.download a b c d e f) := by simp [Statement, Instr.writes]
theorem blockLock : ∀ a b, Statement (.blockLock a b) := by simp [Statement, Instr.writes]
theorem lockLoss : ∀ a b, Statement (.lockLoss a b) := by simp [Statement, Instr.writes]
theorem electricalIdleEntry : ∀ a b, Statement (.electricalIdleEntry a b) := by simp [Statement, Instr.writes]
theorem electricalIdleExit : ∀ a b, Statement (.electricalIdleExit a b) := by simp [Statement, Instr.writes]
theorem adaptation : ∀ a b c d e, Statement (.adaptation a b c d e) := by simp [Statement, Instr.writes]
theorem bankOwnerWrite : ∀ a b c d, Statement (.bankOwnerWrite a b c d) := by simp [Statement, Instr.writes]
theorem busyStrobe : ∀ a b, Statement (.busyStrobe a b) := by simp [Statement, Instr.writes]
theorem cashewScrub : ∀ a b c d, Statement (.cashewScrub a b c d) := by simp [Statement, Instr.writes]
theorem refresh : ∀ a b c, Statement (.refresh a b c) := by simp [Statement, Instr.writes]
theorem selfRefreshEntry : ∀ a b, Statement (.selfRefreshEntry a b) := by simp [Statement, Instr.writes]
theorem refreshModeWrite : ∀ a b c, Statement (.refreshModeWrite a b c) := by simp [Statement, Instr.writes]
theorem dramUncorrectable : ∀ a b c, Statement (.dramUncorrectable a b c) := by simp [Statement, Instr.writes]
theorem realTimeOverflow : ∀ a b c, Statement (.realTimeOverflow a b c) := by simp [Statement, Instr.writes]
theorem fullScrub : ∀ a b, Statement (.fullScrub a b) := by simp [Statement, Instr.writes]
theorem flaxStart : ∀ a b c, Statement (.flaxStart a b c) := by simp [Statement, Instr.writes]
theorem flaxStop : ∀ a b c, Statement (.flaxStop a b c) := by simp [Statement, Instr.writes]
theorem flaxBurst : ∀ a b c, Statement (.flaxBurst a b c) := by simp [Statement, Instr.writes]
theorem descriptorComplete : ∀ a, Statement (.descriptorComplete a) := by simp [Statement, Instr.writes]
theorem jobStart : ∀ a b, Statement (.jobStart a b) := by simp [Statement, Instr.writes]
theorem jobResume : ∀ a b, Statement (.jobResume a b) := by simp [Statement, Instr.writes]
theorem jobAbandon : ∀ a b, Statement (.jobAbandon a b) := by simp [Statement, Instr.writes]
theorem deviceTimeWrite : ∀ a b c, Statement (.deviceTimeWrite a b c) := by simp [Statement, Instr.writes]
theorem timeAtNextPps : ∀ a b c, Statement (.timeAtNextPps a b c) := by simp [Statement, Instr.writes]
theorem rateCorrectionWrite : ∀ a b c, Statement (.rateCorrectionWrite a b c) := by simp [Statement, Instr.writes]
theorem ppsEdge : ∀ a b c d e, Statement (.ppsEdge a b c d e) := by simp [Statement, Instr.writes]
theorem ppsProcess : ∀ a, Statement (.ppsProcess a) := by simp [Statement, Instr.writes]
theorem ppsLoss : ∀ a, Statement (.ppsLoss a) := by simp [Statement, Instr.writes]
theorem intervalArm : ∀ a b, Statement (.intervalArm a b) := by simp [Statement, Instr.writes]
theorem intervalDisarm : ∀ a b, Statement (.intervalDisarm a b) := by simp [Statement, Instr.writes]
theorem intervalTimeout : ∀ a, Statement (.intervalTimeout a) := by simp [Statement, Instr.writes]
theorem tdcFallback : ∀ a b, Statement (.tdcFallback a b) := by simp [Statement, Instr.writes]
theorem converter0Pass : ∀ a, Statement (.converter0Pass a) := by simp [Statement, Instr.writes]
theorem converter1Pass : ∀ a b, Statement (.converter1Pass a b) := by simp [Statement, Instr.writes]
theorem converter1Timer : ∀ a, Statement (.converter1Timer a) := by simp [Statement, Instr.writes]
theorem passEnd : ∀ a b c, Statement (.passEnd a b c) := by simp [Statement, Instr.writes]
theorem blankIn : ∀ a b, Statement (.blankIn a b) := by simp [Statement, Instr.writes]
theorem rtdSettingWrite : ∀ a b c d e f, Statement (.rtdSettingWrite a b c d e f) := by simp [Statement, Instr.writes]
theorem converter1Reference : ∀ a b c, Statement (.converter1Reference a b c) := by simp [Statement, Instr.writes]
theorem calibrationStart : ∀ a b, Statement (.calibrationStart a b) := by simp [Statement, Instr.writes]
theorem longOperationEnd : ∀ a b, Statement (.longOperationEnd a b) := by simp [Statement, Instr.writes]
theorem enum : ∀ a b, Statement (.enum a b) := by simp [Statement, Instr.writes]
theorem enumTimeout : ∀ a, Statement (.enumTimeout a) := by simp [Statement, Instr.writes]
theorem enumEnd : ∀ a b, Statement (.enumEnd a b) := by simp [Statement, Instr.writes]
theorem marker : ∀ a b c d, Statement (.marker a b c d) := by simp [Statement, Instr.writes]
theorem markerArrival : ∀ a b c, Statement (.markerArrival a b c) := by simp [Statement, Instr.writes]
theorem turn : ∀ a b c, Statement (.turn a b c) := by simp [Statement, Instr.writes]
theorem sync : ∀ a b c d e, Statement (.sync a b c d e) := by simp [Statement, Instr.writes]
theorem phaseStep : ∀ a, Statement (.phaseStep a) := by simp [Statement, Instr.writes]
theorem syncLoss : ∀ a, Statement (.syncLoss a) := by simp [Statement, Instr.writes]
theorem boundary : ∀ a b c d, Statement (.boundary a b c d) := by simp [Statement, Instr.writes]
theorem update : ∀ a b c, Statement (.update a b c) := by simp [Statement, Instr.writes]
theorem inject : ∀ a b c d, Statement (.inject a b c d) := by simp [Statement, Instr.writes]
theorem sideLock : ∀ a b, Statement (.sideLock a b) := by simp [Statement, Instr.writes]
theorem sideFault : ∀ a b, Statement (.sideFault a b) := by simp [Statement, Instr.writes]
theorem drgRefiLoss : ∀ a, Statement (.drgRefiLoss a) := by simp [Statement, Instr.writes]
theorem referenceTimeout : ∀ a, Statement (.referenceTimeout a) := by simp [Statement, Instr.writes]
theorem podSecond : ∀ a, Statement (.podSecond a) := by simp [Statement, Instr.writes]
theorem incomeCredit : ∀ a b c, Statement (.incomeCredit a b c) := by simp [Statement, Instr.writes]
theorem balanceWrite : ∀ a b c, Statement (.balanceWrite a b c) := by simp [Statement, Instr.writes]
theorem managedOperation : ∀ a b, Statement (.managedOperation a b) := by simp [Statement, Instr.writes]
theorem rungChoice : ∀ a, Statement (.rungChoice a) := by simp [Statement, Instr.writes]
theorem energyRefine : ∀ a b, Statement (.energyRefine a b) := by simp [Statement, Instr.writes]
theorem onTimeEnd : ∀ a, Statement (.onTimeEnd a) := by simp [Statement, Instr.writes]
theorem watchdog : ∀ a, Statement (.watchdog a) := by simp [Statement, Instr.writes]
theorem restartWalnut : ∀ a b, Statement (.restartWalnut a b) := by simp [Statement, Instr.writes]
theorem walnutException : ∀ a, Statement (.walnutException a) := by simp [Statement, Instr.writes]
theorem temperatureReading : ∀ a b, Statement (.temperatureReading a b) := by simp [Statement, Instr.writes]
theorem logEntry : ∀ a, Statement (.logEntry a) := by simp [Statement, Instr.writes]
theorem logSelect : ∀ a b c, Statement (.logSelect a b c) := by simp [Statement, Instr.writes]
theorem acornMeasurement : ∀ a b c, Statement (.acornMeasurement a b c) := by simp [Statement, Instr.writes]
theorem avsStep : ∀ a b c, Statement (.avsStep a b c) := by simp [Statement, Instr.writes]
theorem planDerating : ∀ a, Statement (.planDerating a) := by simp [Statement, Instr.writes]
theorem ledgerReset : ∀ a b, Statement (.ledgerReset a b) := by simp [Statement, Instr.writes]
theorem downloadOpen : ∀ a b, Statement (.downloadOpen a b) := by simp [Statement, Instr.writes]
theorem downloadClose : ∀ a b, Statement (.downloadClose a b) := by simp [Statement, Instr.writes]
theorem downloadAbandon : ∀ a b, Statement (.downloadAbandon a b) := by simp [Statement, Instr.writes]
theorem canFdData : ∀ a b c, Statement (.canFdData a b c) := by simp [Statement, Instr.writes]
theorem imagePrepare : ∀ a b, Statement (.imagePrepare a b) := by simp [Statement, Instr.writes]
theorem activate : ∀ a b, Statement (.activate a b) := by simp [Statement, Instr.writes]
theorem confirm : ∀ a b, Statement (.confirm a b) := by simp [Statement, Instr.writes]
theorem confirmTimeout : ∀ a, Statement (.confirmTimeout a) := by simp [Statement, Instr.writes]
theorem usdoRequest : ∀ a b c, Statement (.usdoRequest a b c) := by simp [Statement, Instr.writes]
theorem latestBoundaryRead : ∀ a b, Statement (.latestBoundaryRead a b) := by simp [Statement, Instr.writes]
theorem snapshotRead : ∀ a b, Statement (.snapshotRead a b) := by simp [Statement, Instr.writes]
theorem registerWrite : ∀ a b c d e, Statement (.registerWrite a b c d e) := by simp [Statement, Instr.writes]
theorem leaseLapse : ∀ a, Statement (.leaseLapse a) := by simp [Statement, Instr.writes]
theorem transferTimeout : ∀ a, Statement (.transferTimeout a) := by simp [Statement, Instr.writes]
theorem heartbeat : ∀ a, Statement (.heartbeat a) := by simp [Statement, Instr.writes]
theorem emcy : ∀ a, Statement (.emcy a) := by simp [Statement, Instr.writes]
theorem unlock : ∀ a b, Statement (.unlock a b) := by simp [Statement, Instr.writes]
theorem injectionStart : ∀ a b, Statement (.injectionStart a b) := by simp [Statement, Instr.writes]
theorem injectionStop : ∀ a b, Statement (.injectionStop a b) := by simp [Statement, Instr.writes]
theorem reorderHoldTimeout : ∀ a, Statement (.reorderHoldTimeout a) := by simp [Statement, Instr.writes]
theorem vbatLoss : ∀ a, Statement (.vbatLoss a) := by simp [Statement, Instr.writes]
theorem drgRefiReturn : ∀ a, Statement (.drgRefiReturn a) := by simp [Statement, Instr.writes]
theorem messageCrcError : ∀ a b, Statement (.messageCrcError a b) := by simp [Statement, Instr.writes]
theorem hostFrameDrop : ∀ a b, Statement (.hostFrameDrop a b) := by simp [Statement, Instr.writes]
theorem jobDone : ∀ a b c d, Statement (.jobDone a b c d) := by simp [Statement, Instr.writes]
theorem downloadVerifyEnd : ∀ a, Statement (.downloadVerifyEnd a) := by simp [Statement, Instr.writes]
theorem activationLoadEnd : ∀ a, Statement (.activationLoadEnd a) := by simp [Statement, Instr.writes]
theorem walnutRestartDone : ∀ a, Statement (.walnutRestartDone a) := by simp [Statement, Instr.writes]
theorem userItemCheckpoint : ∀ a b, Statement (.userItemCheckpoint a b) := by simp [Statement, Instr.writes]
theorem pmbusRetry : ∀ a b, Statement (.pmbusRetry a b) := by simp [Statement, Instr.writes]

end Sys2Proof.Laws.Footprint
end

