-- ==== Sys2Proof/Laws/SameOps.lean ====
section
/-! SUPPORT. Which parts each function of the model leaves as they were:
the shared operations, the link, shadows, optics and queues. -/

namespace Sys2Proof.Machine

open Sys2Proof

set_option linter.unusedSimpArgs false
set_option linter.unusedVariables false

/-! ## Ops -/

theorem State.os_same {m : Nat} {r s : State} (hm : m &&& 8 = 0) (h : Same m r s) (k : Nat) (v : Nat) :
    Same m r (State.os s k v) := by
  unfold State.os
  repeat' (first
    | with_reducible first | assumption
    | (simp only [Same.lit]; with_reducible refine SameLit.of hm ?_ ?_)
    | (refine fun (p : Part) (hp : Nat.testBit _ (Part.ix p) = false) => ?_; cases p <;> first | exact absurd hp (by decide) | (simp only [Part.same, and_self]; done))
    | dsimp only)

theorem State.osI_same {m : Nat} {r s : State} (hm : m &&& 8 = 0) (h : Same m r s) (w : Nat) (k : Nat) (v : Int) :
    Same m r (State.osI s w k v) := by
  unfold State.osI
  repeat' (first
    | with_reducible first | assumption | apply State.os_same (mask_sub hm rfl))

theorem State.bump_same {m : Nat} {r s : State} (hm : m &&& 8 = 0) (h : Same m r s) (k : Nat) (n : Nat) :
    Same m r (State.bump s k n) := by
  unfold State.bump
  repeat' (first
    | with_reducible first | assumption | apply State.os_same (mask_sub hm rfl))

theorem State.ds_same {m : Nat} {r s : State} (hm : m &&& 16 = 0) (h : Same m r s) (k : Nat) (b : List Byte) :
    Same m r (State.ds s k b) := by
  unfold State.ds
  repeat' (first
    | with_reducible first | assumption
    | (simp only [Same.lit]; with_reducible refine SameLit.of hm ?_ ?_)
    | (refine fun (p : Part) (hp : Nat.testBit _ (Part.ix p) = false) => ?_; cases p <;> first | exact absurd hp (by decide) | (simp only [Part.same, and_self]; done))
    | dsimp only)

theorem State.osBit_same {m : Nat} {r s : State} (hm : m &&& 8 = 0) (h : Same m r s) (k : Nat) (i : Nat) (on : Bool) :
    Same m r (State.osBit s k i on) := by
  unfold State.osBit
  repeat' (first
    | with_reducible first | assumption | apply Same.ite | apply State.os_same (mask_sub hm rfl)
    | (extract_lets +onlyGivenNames x
       first
       | (refine Same.cut (m := m) (r := r) (x := x) ?_ ?_ <;> first | (clear_value x; intro hx) | subst x)
       | subst x)
    | split
    | dsimp only)

theorem State.draw_same {m : Nat} {r s : State} (hm : m &&& 4 = 0) (h : Same m r s) (n : Nat) :
    Same m r (State.draw s n).2 := by
  unfold State.draw
  repeat' (first
    | with_reducible first | assumption | refine Same.snd ‹_ = (_, _)› ?_
    | (simp only [Same.lit]; with_reducible refine SameLit.of hm ?_ ?_)
    | (refine fun (p : Part) (hp : Nat.testBit _ (Part.ix p) = false) => ?_; cases p <;> first | exact absurd hp (by decide) | (simp only [Part.same, and_self]; done))
    | dsimp only)

theorem State.garble_same {m : Nat} {r s : State} (hm : m &&& 4 = 0) (h : Same m r s) (l : List Byte) :
    Same m r (State.garble s l).2 := by
  unfold State.garble
  repeat' (first
    | with_reducible first | assumption | apply State.draw_same (mask_sub hm rfl) | refine Same.snd ‹_ = (_, _)› ?_
    | split
    | dsimp only)

theorem State.emit_same {m : Nat} {r s : State} (hm : m &&& 32 = 0) (h : Same m r s) (w : Wire) :
    Same m r (State.emit s w) := by
  unfold State.emit
  repeat' (first
    | with_reducible first | assumption
    | (simp only [Same.lit]; with_reducible refine SameLit.of hm ?_ ?_)
    | (refine fun (p : Part) (hp : Nat.testBit _ (Part.ix p) = false) => ?_; cases p <;> first | exact absurd hp (by decide) | (simp only [Part.same, and_self]; done))
    | dsimp only)

theorem State.count_same {m : Nat} {r s : State} (hm : m &&& 2048 = 0) (h : Same m r s) (i : Nat) (n : Nat) :
    Same m r (State.count s i n) := by
  unfold State.count
  repeat' (first
    | with_reducible first | assumption | apply Same.ite
    | (simp only [Same.lit]; with_reducible refine SameLit.of hm ?_ ?_)
    | (refine fun (p : Part) (hp : Nat.testBit _ (Part.ix p) = false) => ?_; cases p <;> first | exact absurd hp (by decide) | (simp only [Part.same, and_self]; done))
    | (extract_lets +onlyGivenNames x
       first
       | (refine Same.cut (m := m) (r := r) (x := x) ?_ ?_ <;> first | (clear_value x; intro hx) | subst x)
       | subst x)
    | split
    | dsimp only)

theorem State.countAt_same {m : Nat} {r s : State} (hm : m &&& 2048 = 0) (h : Same m r s) (sweep : Nat) (i : Nat) (n : Nat) :
    Same m r (State.countAt s sweep i n) := by
  unfold State.countAt
  repeat' (first
    | with_reducible first | assumption | apply Same.ite
    | (simp only [Same.lit]; with_reducible refine SameLit.of hm ?_ ?_)
    | (refine fun (p : Part) (hp : Nat.testBit _ (Part.ix p) = false) => ?_; cases p <;> first | exact absurd hp (by decide) | (simp only [Part.same, and_self]; done))
    | (extract_lets +onlyGivenNames x
       first
       | (refine Same.cut (m := m) (r := r) (x := x) ?_ ?_ <;> first | (clear_value x; intro hx) | subst x)
       | subst x)
    | split
    | dsimp only)

theorem State.eccFix_same {m : Nat} {r s : State} (hm : m &&& 2048 = 0) (h : Same m r s) :
    Same m r (State.eccFix s) := by
  unfold State.eccFix
  repeat' (first
    | with_reducible first | assumption | apply State.count_same (mask_sub hm rfl))

theorem State.dramFixed_same {m : Nat} {r s : State} (hm : m &&& 2056 = 0) (h : Same m r s) (n : Nat) :
    Same m r (State.dramFixed s n) := by
  unfold State.dramFixed
  repeat' (first
    | with_reducible
        first
        | assumption | apply Same.ite | apply State.count_same (mask_sub hm rfl)
        | apply State.bump_same (mask_sub hm rfl))

theorem State.eccLost_same {m : Nat} {r s : State} (hm : m &&& 2048 = 0) (h : Same m r s) :
    Same m r (State.eccLost s) := by
  unfold State.eccLost
  repeat' (first
    | with_reducible first | assumption | apply State.count_same (mask_sub hm rfl))

theorem State.setQueue_same {m : Nat} {r s : State} (hm : m &&& 2097152 = 0) (h : Same m r s) (q : Nat) (f : Queue → Queue) :
    Same m r (State.setQueue s q f) := by
  unfold State.setQueue
  repeat' (first
    | with_reducible first | assumption
    | (simp only [Same.lit]; with_reducible refine SameLit.of hm ?_ ?_)
    | (refine fun (p : Part) (hp : Nat.testBit _ (Part.ix p) = false) => ?_; cases p <;> first | exact absurd hp (by decide) | (simp only [Part.same, and_self]; done))
    | (extract_lets +onlyGivenNames x
       first
       | (refine Same.cut (m := m) (r := r) (x := x) ?_ ?_ <;> first | (clear_value x; intro hx) | subst x)
       | subst x)
    | split
    | dsimp only)

theorem State.accept_same {m : Nat} {r s : State} (hm : m &&& 2097152 = 0) (h : Same m r s) (q : Nat) (o : Offer) :
    Same m r (State.accept s q o) := by
  unfold State.accept
  repeat' (first
    | with_reducible first | assumption | apply Same.ite | apply State.setQueue_same (mask_sub hm rfl))

theorem State.noteRefused_same {m : Nat} {r s : State} (hm : m &&& 2048 = 0) (h : Same m r s) (q : Nat) :
    Same m r (State.noteRefused s q).2 := by
  unfold State.noteRefused
  repeat' (first
    | with_reducible first | assumption | refine Same.snd ‹_ = (_, _)› ?_
    | (simp only [Same.lit]; with_reducible refine SameLit.of hm ?_ ?_)
    | (refine fun (p : Part) (hp : Nat.testBit _ (Part.ix p) = false) => ?_; cases p <;> first | exact absurd hp (by decide) | (simp only [Part.same, and_self]; done))
    | (extract_lets +onlyGivenNames x
       first
       | (refine Same.cut (m := m) (r := r) (x := x) ?_ ?_ <;> first | (clear_value x; intro hx) | subst x)
       | subst x)
    | split
    | dsimp only)

theorem State.pulse_same {m : Nat} {r s : State} (hm : m &&& 262144 = 0) (h : Same m r s) (i : Nat) :
    Same m r (State.pulse s i) := by
  unfold State.pulse
  repeat' (first
    | with_reducible first | assumption
    | (simp only [Same.lit]; with_reducible refine SameLit.of hm ?_ ?_)
    | (refine fun (p : Part) (hp : Nat.testBit _ (Part.ix p) = false) => ?_; cases p <;> first | exact absurd hp (by decide) | (simp only [Part.same, and_self]; done))
    | (extract_lets +onlyGivenNames x
       first
       | (refine Same.cut (m := m) (r := r) (x := x) ?_ ?_ <;> first | (clear_value x; intro hx) | subst x)
       | subst x)
    | split
    | dsimp only)

theorem State.refuse_same {m : Nat} {r s : State} (hm : m &&& 2361352 = 0) (h : Same m r s) (q : Nat) :
    Same m r (State.refuse s q) := by
  unfold State.refuse
  repeat' (first
    | with_reducible
        first
        | assumption | apply State.setQueue_same (mask_sub hm rfl) | apply State.pulse_same (mask_sub hm rfl)
        | apply State.osBit_same (mask_sub hm rfl) | apply State.count_same (mask_sub hm rfl)
        | apply State.bump_same (mask_sub hm rfl)
    | (extract_lets +onlyGivenNames x
       first
       | (refine Same.cut (m := m) (r := r) (x := x) ?_ ?_ <;> first | (clear_value x; intro hx) | subst x)
       | subst x)
    | split
    | dsimp only)

theorem State.offerEvent_same {m : Nat} {r s : State} (hm : m &&& 2361352 = 0) (h : Same m r s) (o : Offer) :
    Same m r (State.offerEvent s o) := by
  unfold State.offerEvent
  repeat' (first
    | with_reducible
        first
        | assumption | apply Same.ite | apply State.accept_same (mask_sub hm rfl)
        | apply State.refuse_same (mask_sub hm rfl))

theorem State.event_same {m : Nat} {r s : State} (hm : m &&& 2361352 = 0) (h : Same m r s) (code : Nat) (prio : Nat)
    (body : List Byte) :
    Same m r (State.event s code prio body) := by
  unfold State.event
  repeat' (first
    | with_reducible first | assumption | apply State.offerEvent_same (mask_sub hm rfl))

theorem State.offer_same {m : Nat} {r s : State} (hm : m &&& 2361352 = 0) (h : Same m r s) (q : Nat) (o : Offer) :
    Same m r (State.offer s q o).2 := by
  unfold State.offer
  repeat' (first
    | with_reducible
        first
        | assumption | apply Same.ite | apply State.accept_same (mask_sub hm rfl)
        | apply State.refuse_same (mask_sub hm rfl) | apply State.noteRefused_same (mask_sub hm rfl)
        | apply State.event_same (mask_sub hm rfl) | apply Same.ite_snd | refine Same.snd ‹_ = (_, _)› ?_
    | (extract_lets +onlyGivenNames x
       first
       | (refine Same.cut (m := m) (r := r) (x := x) ?_ ?_ <;> first | (clear_value x; intro hx) | subst x)
       | subst x)
    | split
    | dsimp only)

theorem State.emcy_same {m : Nat} {r s : State} (hm : m &&& 264 = 0) (h : Same m r s) (code : Nat) (detail : Nat)
    (arg : Nat) :
    Same m r (State.emcy s code detail arg) := by
  unfold State.emcy
  repeat' (first
    | with_reducible
        first
        | assumption | apply Same.ite | apply State.osBit_same (mask_sub hm rfl)
        | apply State.bump_same (mask_sub hm rfl)
    | (simp only [Same.lit]; with_reducible refine SameLit.of hm ?_ ?_)
    | (refine fun (p : Part) (hp : Nat.testBit _ (Part.ix p) = false) => ?_; cases p <;> first | exact absurd hp (by decide) | (simp only [Part.same, and_self]; done))
    | (extract_lets +onlyGivenNames x
       first
       | (refine Same.cut (m := m) (r := r) (x := x) ?_ ?_ <;> first | (clear_value x; intro hx) | subst x)
       | subst x)
    | split
    | dsimp only)

theorem State.logPush_same {m : Nat} {r s : State} (hm : m &&& 512 = 0) (h : Same m r s) (code : Nat) (sev : Nat)
    (src : Nat) (args : List Byte) :
    Same m r (State.logPush s code sev src args) := by
  unfold State.logPush
  repeat' (first
    | with_reducible first | assumption
    | (simp only [Same.lit]; with_reducible refine SameLit.of hm ?_ ?_)
    | (refine fun (p : Part) (hp : Nat.testBit _ (Part.ix p) = false) => ?_; cases p <;> first | exact absurd hp (by decide) | (simp only [Part.same, and_self]; done))
    | (extract_lets +onlyGivenNames x
       first
       | (refine Same.cut (m := m) (r := r) (x := x) ?_ ?_ <;> first | (clear_value x; intro hx) | subst x)
       | subst x)
    | split
    | dsimp only)

theorem State.log_same {m : Nat} {r s : State} (hm : m &&& 520 = 0) (h : Same m r s) (code : Nat) (sev : Nat)
    (src : Nat) (args : List Byte) :
    Same m r (State.log s code sev src args) := by
  unfold State.log
  repeat' (first
    | with_reducible
        first
        | assumption | apply Same.ite | apply State.bump_same (mask_sub hm rfl)
        | apply State.logPush_same (mask_sub hm rfl)
    | (simp only [Same.lit]; with_reducible refine SameLit.of hm ?_ ?_)
    | (refine fun (p : Part) (hp : Nat.testBit _ (Part.ix p) = false) => ?_; cases p <;> first | exact absurd hp (by decide) | (simp only [Part.same, and_self]; done))
    | (extract_lets +onlyGivenNames x
       first
       | (refine Same.cut (m := m) (r := r) (x := x) ?_ ?_ <;> first | (clear_value x; intro hx) | subst x)
       | subst x)
    | split
    | dsimp only)

theorem State.statusRecord_same {m : Nat} {r s : State} (hm : m &&& 2361352 = 0) (h : Same m r s) (op : Nat)
    (progress : Nat) (result : Nat) (elapsed : Nat) (maximum : Nat) :
    Same m r (State.statusRecord s op progress result elapsed maximum) := by
  unfold State.statusRecord
  repeat' (first
    | with_reducible first | assumption | apply State.offer_same (mask_sub hm rfl) | refine Same.snd ‹_ = (_, _)› ?_
    | dsimp only)

theorem State.statusNow_same {m : Nat} {r s : State} (hm : m &&& 2361352 = 0) (h : Same m r s) :
    Same m r (State.statusNow s) := by
  unfold State.statusNow
  repeat' (first
    | with_reducible first | assumption | apply State.statusRecord_same (mask_sub hm rfl)
    | split
    | dsimp only)

theorem State.enterPower_same {m : Nat} {r s : State} (hm : m &&& 2361994 = 0) (h : Same m r s) (p : PowerState) :
    Same m r (State.enterPower s p) := by
  unfold State.enterPower
  repeat' (first
    | with_reducible
        first
        | assumption | apply Same.ite | apply State.log_same (mask_sub hm rfl)
        | apply State.statusNow_same (mask_sub hm rfl)
    | (simp only [Same.lit]; with_reducible refine SameLit.of hm ?_ ?_)
    | (refine fun (p : Part) (hp : Nat.testBit _ (Part.ix p) = false) => ?_; cases p <;> first | exact absurd hp (by decide) | (simp only [Part.same, and_self]; done))
    | (extract_lets +onlyGivenNames x
       first
       | (refine Same.cut (m := m) (r := r) (x := x) ?_ ?_ <;> first | (clear_value x; intro hx) | subst x)
       | subst x)
    | split
    | dsimp only)

theorem State.transitionDone_same {m : Nat} {r s : State} (hm : m &&& 138 = 0) (h : Same m r s) :
    Same m r (State.transitionDone s) := by
  unfold State.transitionDone
  repeat' (first
    | with_reducible
        first
        | assumption | apply Same.ite | apply State.osBit_same (mask_sub hm rfl)
        | apply State.os_same (mask_sub hm rfl)
    | (simp only [Same.lit]; with_reducible refine SameLit.of hm ?_ ?_)
    | (refine fun (p : Part) (hp : Nat.testBit _ (Part.ix p) = false) => ?_; cases p <;> first | exact absurd hp (by decide) | (simp only [Part.same, and_self]; done))
    | (extract_lets +onlyGivenNames x
       first
       | (refine Same.cut (m := m) (r := r) (x := x) ?_ ?_ <;> first | (clear_value x; intro hx) | subst x)
       | subst x)
    | split
    | dsimp only)

theorem State.startLong_same {m : Nat} {r s : State} (hm : m &&& 2361608 = 0) (h : Same m r s) (code : Nat)
    (maximum : Nat) (arg : Nat) (image : List Byte) :
    Same m r (State.startLong s code maximum arg image) := by
  unfold State.startLong
  repeat' (first
    | with_reducible
        first
        | assumption | apply State.os_same (mask_sub hm rfl) | apply State.statusNow_same (mask_sub hm rfl)
    | (simp only [Same.lit]; with_reducible refine SameLit.of hm ?_ ?_)
    | (refine fun (p : Part) (hp : Nat.testBit _ (Part.ix p) = false) => ?_; cases p <;> first | exact absurd hp (by decide) | (simp only [Part.same, and_self]; done))
    | (extract_lets +onlyGivenNames x
       first
       | (refine Same.cut (m := m) (r := r) (x := x) ?_ ?_ <;> first | (clear_value x; intro hx) | subst x)
       | subst x)
    | split
    | dsimp only)

theorem State.endLong_same {m : Nat} {r s : State} (hm : m &&& 2361608 = 0) (h : Same m r s) (result : Nat) :
    Same m r (State.endLong s result) := by
  unfold State.endLong
  repeat' (first
    | with_reducible
        first
        | assumption | apply Same.ite | apply State.statusRecord_same (mask_sub hm rfl)
        | apply State.os_same (mask_sub hm rfl) | apply State.event_same (mask_sub hm rfl)
    | (simp only [Same.lit]; with_reducible refine SameLit.of hm ?_ ?_)
    | (refine fun (p : Part) (hp : Nat.testBit _ (Part.ix p) = false) => ?_; cases p <;> first | exact absurd hp (by decide) | (simp only [Part.same, and_self]; done))
    | (extract_lets +onlyGivenNames x
       first
       | (refine Same.cut (m := m) (r := r) (x := x) ?_ ?_ <;> first | (clear_value x; intro hx) | subst x)
       | subst x)
    | split
    | dsimp only)

theorem State.renew_same {m : Nat} {r s : State} (hm : m &&& 264 = 0) (h : Same m r s) (c : Nat) :
    Same m r (State.renew s c) := by
  unfold State.renew
  repeat' (first
    | with_reducible first | assumption | apply State.os_same (mask_sub hm rfl)
    | (simp only [Same.lit]; with_reducible refine SameLit.of hm ?_ ?_)
    | (refine fun (p : Part) (hp : Nat.testBit _ (Part.ix p) = false) => ?_; cases p <;> first | exact absurd hp (by decide) | (simp only [Part.same, and_self]; done))
    | (extract_lets +onlyGivenNames x
       first
       | (refine Same.cut (m := m) (r := r) (x := x) ?_ ?_ <;> first | (clear_value x; intro hx) | subst x)
       | subst x)
    | split
    | dsimp only)

theorem State.answer_same {m : Nat} {r s : State} (hm : m &&& 32 = 0) (h : Same m r s) (c : Nat) (a : Answer) :
    Same m r (State.answer s c a) := by
  unfold State.answer
  repeat' (first
    | with_reducible first | assumption | apply State.emit_same (mask_sub hm rfl))

theorem State.hostWrite_same {m : Nat} {r s : State} (hm : m &&& 296 = 0) (h : Same m r s) (c : Nat) (idx : Nat)
    (sub : Nat) (segmented : Bool) (b : List Byte) (effect : State → Except Nat State) (he : ∀ s', Same m r s' → SameE m r (effect s')) :
    Same m r (State.hostWrite s c idx sub segmented b effect) := by
  unfold State.hostWrite
  repeat' (first
    | with_reducible
        first
        | assumption | apply Same.ite | apply SameE.ok | apply SameE.error | apply State.answer_same (mask_sub hm rfl)
        | apply State.renew_same (mask_sub hm rfl) | apply he | refine Same.ofE ‹_ = Except.ok _› ?_
    | (extract_lets +onlyGivenNames x
       first
       | (refine Same.cut (m := m) (r := r) (x := x) ?_ ?_ <;> first | (clear_value x; intro hx) | subst x)
       | subst x)
    | split
    | dsimp only
    | (with_reducible intro s1 h1; dsimp only)
    | with_reducible intro s1 h1)

theorem require_same {m : Nat} {r : State} (_ : m &&& 0 = 0) (p : Bool) (abort : Nat) {k : Except Nat State} (h :
    SameE m r k) :
    SameE m r (require p abort k) := by
  unfold require; split
  · exact h
  · exact SameE.error _

/-! ## Link -/

theorem State.injectTell_same {m : Nat} {r s : State} (hm : m &&& 32 = 0) (h : Same m r s) (on : Bool) :
    Same m r (State.injectTell s on) := by
  unfold State.injectTell
  repeat' (first
    | with_reducible first | assumption | apply Same.ite | apply State.emit_same (mask_sub hm rfl)
    | (extract_lets +onlyGivenNames x
       first
       | (refine Same.cut (m := m) (r := r) (x := x) ?_ ?_ <;> first | (clear_value x; intro hx) | subst x)
       | subst x)
    | split
    | dsimp only)

theorem State.candidate_same {m : Nat} {r s : State} (hm : m &&& 2147483688 = 0) (h : Same m r s) (link : Nat) :
    Same m r (State.candidate s link).2 := by
  unfold State.candidate
  repeat' (first
    | with_reducible
        first
        | assumption | apply Same.ite | apply State.injectTell_same (mask_sub hm rfl)
        | apply State.os_same (mask_sub hm rfl) | apply State.bump_same (mask_sub hm rfl) | apply Same.ite_snd
        | refine Same.snd ‹_ = (_, _)› ?_
    | (simp only [Same.lit]; with_reducible refine SameLit.of hm ?_ ?_)
    | (refine fun (p : Part) (hp : Nat.testBit _ (Part.ix p) = false) => ?_; cases p <;> first | exact absurd hp (by decide) | (simp only [Part.same, and_self]; done))
    | (extract_lets +onlyGivenNames x
       first
       | (refine Same.cut (m := m) (r := r) (x := x) ?_ ?_ <;> first | (clear_value x; intro hx) | subst x)
       | subst x)
    | split
    | dsimp only)

theorem State.putFrame_same {m : Nat} {r s : State} (hm : m &&& 32 = 0) (h : Same m r s) (lane : Nat) (f : LaneFrame) :
    Same m r (State.putFrame s lane f) := by
  unfold State.putFrame
  repeat' (first
    | with_reducible first | assumption | apply State.emit_same (mask_sub hm rfl))

theorem State.releaseHeld_same {m : Nat} {r s : State} (hm : m &&& 2147483680 = 0) (h : Same m r s) (due : Nat → Bool) :
    Same m r (State.releaseHeld s due) := by
  unfold State.releaseHeld
  repeat' (first
    | with_reducible
        first
        | assumption | apply State.putFrame_same (mask_sub hm rfl) | apply State.emit_same (mask_sub hm rfl)
        | refine Same.foldl (fun _ _ _ => ?_) _ ?_
    | (simp only [Same.lit]; with_reducible refine SameLit.of hm ?_ ?_)
    | (refine fun (p : Part) (hp : Nat.testBit _ (Part.ix p) = false) => ?_; cases p <;> first | exact absurd hp (by decide) | (simp only [Part.same, and_self]; done))
    | (extract_lets +onlyGivenNames x
       first
       | (refine Same.cut (m := m) (r := r) (x := x) ?_ ?_ <;> first | (clear_value x; intro hx) | subst x)
       | subst x)
    | split
    | dsimp only
    | (with_reducible intro s1 h1; dsimp only)
    | with_reducible intro s1 h1)

theorem State.releaseDue_same {m : Nat} {r s : State} (hm : m &&& 2147483680 = 0) (h : Same m r s) :
    Same m r (State.releaseDue s) := by
  unfold State.releaseDue
  repeat' (first
    | with_reducible first | assumption | apply State.releaseHeld_same (mask_sub hm rfl))

theorem State.sendData_same {m : Nat} {r s : State} (hm : m &&& 2147483688 = 0) (h : Same m r s) (lane : Nat)
    (f : LaneFrame) :
    Same m r (State.sendData s lane f) := by
  unfold State.sendData
  repeat' (first
    | with_reducible
        first
        | assumption | apply State.releaseDue_same (mask_sub hm rfl) | apply State.putFrame_same (mask_sub hm rfl)
        | apply State.candidate_same (mask_sub hm rfl) | apply State.emit_same (mask_sub hm rfl)
        | refine Same.snd ‹_ = (_, _)› ?_
    | (simp only [Same.lit]; with_reducible refine SameLit.of hm ?_ ?_)
    | (refine fun (p : Part) (hp : Nat.testBit _ (Part.ix p) = false) => ?_; cases p <;> first | exact absurd hp (by decide) | (simp only [Part.same, and_self]; done))
    | (extract_lets +onlyGivenNames x
       first
       | (refine Same.cut (m := m) (r := r) (x := x) ?_ ?_ <;> first | (clear_value x; intro hx) | subst x)
       | subst x)
    | split
    | dsimp only)

theorem State.sendBytes_same {m : Nat} {r s : State} (hm : m &&& 2147483688 = 0) (h : Same m r s) (down : Bool)
    (b : List Byte) :
    Same m r (State.sendBytes s down b) := by
  unfold State.sendBytes
  repeat' (first
    | with_reducible
        first
        | assumption | apply Same.ite | apply State.releaseDue_same (mask_sub hm rfl)
        | apply State.emit_same (mask_sub hm rfl) | apply State.candidate_same (mask_sub hm rfl) | apply Same.ite_snd
        | refine Same.snd ‹_ = (_, _)› ?_
    | (simp only [Same.lit]; with_reducible refine SameLit.of hm ?_ ?_)
    | (refine fun (p : Part) (hp : Nat.testBit _ (Part.ix p) = false) => ?_; cases p <;> first | exact absurd hp (by decide) | (simp only [Part.same, and_self]; done))
    | (extract_lets +onlyGivenNames x
       first
       | (refine Same.cut (m := m) (r := r) (x := x) ?_ ?_ <;> first | (clear_value x; intro hx) | subst x)
       | subst x)
    | split
    | dsimp only)

theorem State.sendMsg_same {m : Nat} {r s : State} (hm : m &&& 2147483688 = 0) (h : Same m r s) (down : Bool)
    (typ : Nat) (dst : Nat) (payload : List Byte) :
    Same m r (State.sendMsg s down typ dst payload) := by
  unfold State.sendMsg
  repeat' (first
    | with_reducible first | assumption | apply State.sendBytes_same (mask_sub hm rfl))

theorem State.relay_same {m : Nat} {r s : State} (hm : m &&& 2147483688 = 0) (h : Same m r s) (down : Bool)
    (typ : Nat) (src : Nat) (dst : Nat) (payload : List Byte) :
    Same m r (State.relay s down typ src dst payload) := by
  unfold State.relay
  repeat' (first
    | with_reducible first | assumption | apply State.sendBytes_same (mask_sub hm rfl))

/-! ## PlanImage -/

theorem State.showRungs_same {m : Nat} {r s : State} (hm : m &&& 8 = 0) (h : Same m r s) :
    Same m r (State.showRungs s) := by
  unfold State.showRungs
  repeat' (first
    | with_reducible
        first
        | assumption | apply Same.ite | apply State.os_same (mask_sub hm rfl)
        | refine Same.foldl (fun _ _ _ => ?_) _ ?_
    | (extract_lets +onlyGivenNames x
       first
       | (refine Same.cut (m := m) (r := r) (x := x) ?_ ?_ <;> first | (clear_value x; intro hx) | subst x)
       | subst x)
    | split
    | dsimp only
    | (with_reducible intro s1 h1; dsimp only)
    | with_reducible intro s1 h1)

/-! ## Shadow -/

theorem shadow_same {m : Nat} {r s : State} (hm : m &&& 1024 = 0) (h : Same m r s) (idx : Nat) (sub : Nat) (b : List Byte) :
    SameE m r (shadow idx sub b s) := by
  unfold shadow
  repeat' (first
    | with_reducible
        first
        | assumption | apply SameE.ok | apply SameE.error | apply require_same (mask_sub hm rfl)
        | refine Same.ofE ‹_ = Except.ok _› ?_
    | (simp only [Same.lit]; with_reducible refine SameLit.of hm ?_ ?_)
    | (refine fun (p : Part) (hp : Nat.testBit _ (Part.ix p) = false) => ?_; cases p <;> first | exact absurd hp (by decide) | (simp only [Part.same, and_self]; done))
    | (extract_lets +onlyGivenNames x
       first
       | (refine Same.cut (m := m) (r := r) (x := x) ?_ ?_ <;> first | (clear_value x; intro hx) | subst x)
       | subst x)
    | split
    | dsimp only
    | (with_reducible intro s1 h1; dsimp only)
    | with_reducible intro s1 h1)

theorem stageSet_same {m : Nat} {r s : State} (hm : m &&& 1024 = 0) (h : Same m r s) (v : Nat) :
    SameE m r (stageSet v s) := by
  unfold stageSet
  repeat' (first
    | with_reducible first | assumption | apply SameE.ok | apply SameE.error | refine Same.ofE ‹_ = Except.ok _› ?_
    | (simp only [Same.lit]; with_reducible refine SameLit.of hm ?_ ?_)
    | (refine fun (p : Part) (hp : Nat.testBit _ (Part.ix p) = false) => ?_; cases p <;> first | exact absurd hp (by decide) | (simp only [Part.same, and_self]; done))
    | (extract_lets +onlyGivenNames x
       first
       | (refine Same.cut (m := m) (r := r) (x := x) ?_ ?_ <;> first | (clear_value x; intro hx) | subst x)
       | subst x)
    | split
    | dsimp only
    | (with_reducible intro s1 h1; dsimp only)
    | with_reducible intro s1 h1)

theorem execStageOpen_same {m : Nat} {r s : State} (hm : m &&& 1322 = 0) (h : Same m r s) (t : Nat) (c : Nat) :
    SameO m r (execStageOpen t c s) := by
  unfold execStageOpen
  repeat' (first
    | with_reducible
        first
        | assumption | apply SameE.ok | apply SameE.error | apply SameO.next
        | apply State.hostWrite_same (mask_sub hm rfl) | apply State.at_same (mask_sub hm rfl)
        | apply stageSet_same (mask_sub hm rfl) | refine Same.ofE ‹_ = Except.ok _› ?_
    | (with_reducible intro s1 h1; dsimp only)
    | with_reducible intro s1 h1)

theorem execStageApply_same {m : Nat} {r s : State} (hm : m &&& 1322 = 0) (h : Same m r s) (t : Nat) (c : Nat) :
    SameO m r (execStageApply t c s) := by
  unfold execStageApply
  repeat' (first
    | with_reducible
        first
        | assumption | apply SameE.ok | apply SameE.error | apply SameO.next
        | apply State.hostWrite_same (mask_sub hm rfl) | apply State.at_same (mask_sub hm rfl)
        | apply stageSet_same (mask_sub hm rfl) | refine Same.ofE ‹_ = Except.ok _› ?_
    | (with_reducible intro s1 h1; dsimp only)
    | with_reducible intro s1 h1)

theorem execStageDiscard_same {m : Nat} {r s : State} (hm : m &&& 1322 = 0) (h : Same m r s) (t : Nat) (c : Nat) :
    SameO m r (execStageDiscard t c s) := by
  unfold execStageDiscard
  repeat' (first
    | with_reducible
        first
        | assumption | apply SameE.ok | apply SameE.error | apply SameO.next
        | apply State.hostWrite_same (mask_sub hm rfl) | apply State.at_same (mask_sub hm rfl)
        | apply stageSet_same (mask_sub hm rfl) | refine Same.ofE ‹_ = Except.ok _› ?_
    | (with_reducible intro s1 h1; dsimp only)
    | with_reducible intro s1 h1)

/-! ## Optics -/

theorem State.setPort_same {m : Nat} {r s : State} (hm : m &&& 4096 = 0) (h : Same m r s) (p : Nat)
    (f : PortOptics → PortOptics) :
    Same m r (State.setPort s p f) := by
  unfold State.setPort
  repeat' (first
    | with_reducible first | assumption
    | (simp only [Same.lit]; with_reducible refine SameLit.of hm ?_ ?_)
    | (refine fun (p : Part) (hp : Nat.testBit _ (Part.ix p) = false) => ?_; cases p <;> first | exact absurd hp (by decide) | (simp only [Part.same, and_self]; done))
    | (extract_lets +onlyGivenNames x
       first
       | (refine Same.cut (m := m) (r := r) (x := x) ?_ ?_ <;> first | (clear_value x; intro hx) | subst x)
       | subst x)
    | split
    | dsimp only)

theorem State.showOptics_same {m : Nat} {r s : State} (hm : m &&& 8 = 0) (h : Same m r s) :
    Same m r (State.showOptics s) := by
  unfold State.showOptics
  repeat' (first
    | with_reducible
        first
        | assumption | apply State.os_same (mask_sub hm rfl) | refine Same.foldl (fun _ _ _ => ?_) _ ?_
    | (extract_lets +onlyGivenNames x
       first
       | (refine Same.cut (m := m) (r := r) (x := x) ?_ ?_ <;> first | (clear_value x; intro hx) | subst x)
       | subst x)
    | split
    | dsimp only
    | (with_reducible intro s1 h1; dsimp only)
    | with_reducible intro s1 h1)

theorem State.bringUp_same {m : Nat} {r s : State} (hm : m &&& 4104 = 0) (h : Same m r s) (ports : List Nat) (limit : Nat) :
    Same m r (State.bringUp s ports limit) := by
  unfold State.bringUp
  repeat' (first
    | with_reducible
        first
        | assumption | apply Same.ite | apply State.setPort_same (mask_sub hm rfl)
        | apply State.showOptics_same (mask_sub hm rfl) | refine Same.foldl (fun _ _ _ => ?_) _ ?_
    | (extract_lets +onlyGivenNames x
       first
       | (refine Same.cut (m := m) (r := r) (x := x) ?_ ?_ <;> first | (clear_value x; intro hx) | subst x)
       | subst x)
    | split
    | dsimp only
    | (with_reducible intro s1 h1; dsimp only)
    | with_reducible intro s1 h1)

theorem State.photonicOn_same {m : Nat} {r s : State} (hm : m &&& 4226 = 0) (h : Same m r s) :
    Same m r (State.photonicOn s) := by
  unfold State.photonicOn
  repeat' (first
    | with_reducible first | assumption
    | (simp only [Same.lit]; with_reducible refine SameLit.of hm ?_ ?_)
    | (refine fun (p : Part) (hp : Nat.testBit _ (Part.ix p) = false) => ?_; cases p <;> first | exact absurd hp (by decide) | (simp only [Part.same, and_self]; done))
    | (extract_lets +onlyGivenNames x
       first
       | (refine Same.cut (m := m) (r := r) (x := x) ?_ ?_ <;> first | (clear_value x; intro hx) | subst x)
       | subst x)
    | split
    | dsimp only)

theorem State.photonicOff_same {m : Nat} {r s : State} (hm : m &&& 4234 = 0) (h : Same m r s) :
    Same m r (State.photonicOff s) := by
  unfold State.photonicOff
  repeat' (first
    | with_reducible
        first
        | assumption | apply State.showOptics_same (mask_sub hm rfl) | apply State.osI_same (mask_sub hm rfl)
    | (simp only [Same.lit]; with_reducible refine SameLit.of hm ?_ ?_)
    | (refine fun (p : Part) (hp : Nat.testBit _ (Part.ix p) = false) => ?_; cases p <;> first | exact absurd hp (by decide) | (simp only [Part.same, and_self]; done))
    | (extract_lets +onlyGivenNames x
       first
       | (refine Same.cut (m := m) (r := r) (x := x) ?_ ?_ <;> first | (clear_value x; intro hx) | subst x)
       | subst x)
    | split
    | dsimp only)

theorem State.holdLoops_same {m : Nat} {r s : State} (hm : m &&& 4104 = 0) (h : Same m r s) :
    Same m r (State.holdLoops s) := by
  unfold State.holdLoops
  repeat' (first
    | with_reducible first | assumption | apply Same.ite | apply State.showOptics_same (mask_sub hm rfl)
    | (simp only [Same.lit]; with_reducible refine SameLit.of hm ?_ ?_)
    | (refine fun (p : Part) (hp : Nat.testBit _ (Part.ix p) = false) => ?_; cases p <;> first | exact absurd hp (by decide) | (simp only [Part.same, and_self]; done))
    | (extract_lets +onlyGivenNames x
       first
       | (refine Same.cut (m := m) (r := r) (x := x) ?_ ?_ <;> first | (clear_value x; intro hx) | subst x)
       | subst x)
    | split
    | dsimp only)

theorem State.endFiring_same {m : Nat} {r s : State} (hm : m &&& 4096 = 0) (h : Same m r s) :
    Same m r (State.endFiring s) := by
  unfold State.endFiring
  repeat' (first
    | with_reducible first | assumption | apply Same.ite | apply Same.ite_snd | refine Same.snd ‹_ = (_, _)› ?_
    | (simp only [Same.lit]; with_reducible refine SameLit.of hm ?_ ?_)
    | (refine fun (p : Part) (hp : Nat.testBit _ (Part.ix p) = false) => ?_; cases p <;> first | exact absurd hp (by decide) | (simp only [Part.same, and_self]; done))
    | (extract_lets +onlyGivenNames x
       first
       | (refine Same.cut (m := m) (r := r) (x := x) ?_ ?_ <;> first | (clear_value x; intro hx) | subst x)
       | subst x)
    | split
    | dsimp only)

theorem State.biasEmcy_same {m : Nat} {r s : State} (hm : m &&& 264 = 0) (h : Same m r s) (p : Nat) :
    Same m r (State.biasEmcy s p) := by
  unfold State.biasEmcy
  repeat' (first
    | with_reducible first | assumption | apply State.emcy_same (mask_sub hm rfl))

theorem State.abandonEntry_same {m : Nat} {r s : State} (hm : m &&& 4490 = 0) (h : Same m r s) :
    Same m r (State.abandonEntry s) := by
  unfold State.abandonEntry
  repeat' (first
    | with_reducible
        first
        | assumption | apply Same.ite | apply State.emcy_same (mask_sub hm rfl)
        | apply State.holdLoops_same (mask_sub hm rfl) | apply State.photonicOff_same (mask_sub hm rfl)
        | apply State.transitionDone_same (mask_sub hm rfl)
    | (simp only [Same.lit]; with_reducible refine SameLit.of hm ?_ ?_)
    | (refine fun (p : Part) (hp : Nat.testBit _ (Part.ix p) = false) => ?_; cases p <;> first | exact absurd hp (by decide) | (simp only [Part.same, and_self]; done))
    | (extract_lets +onlyGivenNames x
       first
       | (refine Same.cut (m := m) (r := r) (x := x) ?_ ?_ <;> first | (clear_value x; intro hx) | subst x)
       | subst x)
    | split
    | dsimp only)

theorem State.cause_same {m : Nat} {r s : State} (hm : m &&& 512 = 0) (h : Same m r s) (c : Nat) :
    Same m r (State.cause s c) := by
  unfold State.cause
  repeat' (first
    | with_reducible first | assumption | apply Same.ite
    | (simp only [Same.lit]; with_reducible refine SameLit.of hm ?_ ?_)
    | (refine fun (p : Part) (hp : Nat.testBit _ (Part.ix p) = false) => ?_; cases p <;> first | exact absurd hp (by decide) | (simp only [Part.same, and_self]; done))
    | (extract_lets +onlyGivenNames x
       first
       | (refine Same.cut (m := m) (r := r) (x := x) ?_ ?_ <;> first | (clear_value x; intro hx) | subst x)
       | subst x)
    | split
    | dsimp only)

theorem State.noteEmission_same {m : Nat} {r s : State} (hm : m &&& 134217728 = 0) (h : Same m r s) (a : Nat) (len : Nat) :
    Same m r (State.noteEmission s a len) := by
  unfold State.noteEmission
  repeat' (first
    | with_reducible first | assumption | apply Same.ite | apply Same.ite_snd | refine Same.snd ‹_ = (_, _)› ?_
    | (simp only [Same.lit]; with_reducible refine SameLit.of hm ?_ ?_)
    | (refine fun (p : Part) (hp : Nat.testBit _ (Part.ix p) = false) => ?_; cases p <;> first | exact absurd hp (by decide) | (simp only [Part.same, and_self]; done))
    | (extract_lets +onlyGivenNames x
       first
       | (refine Same.cut (m := m) (r := r) (x := x) ?_ ?_ <;> first | (clear_value x; intro hx) | subst x)
       | subst x)
    | split
    | dsimp only)

theorem State.cutEmission_same {m : Nat} {r s : State} (hm : m &&& 134217728 = 0) (h : Same m r s) :
    Same m r (State.cutEmission s) := by
  unfold State.cutEmission
  repeat' (first
    | with_reducible first | assumption | apply Same.ite | apply Same.ite_snd | refine Same.snd ‹_ = (_, _)› ?_
    | (simp only [Same.lit]; with_reducible refine SameLit.of hm ?_ ?_)
    | (refine fun (p : Part) (hp : Nat.testBit _ (Part.ix p) = false) => ?_; cases p <;> first | exact absurd hp (by decide) | (simp only [Part.same, and_self]; done))
    | (extract_lets +onlyGivenNames x
       first
       | (refine Same.cut (m := m) (r := r) (x := x) ?_ ?_ <;> first | (clear_value x; intro hx) | subst x)
       | subst x)
    | split
    | dsimp only)

theorem State.expirePort_same {m : Nat} {r s : State} (hm : m &&& 4360 = 0) (h : Same m r s) (p : Nat) :
    Same m r (State.expirePort s p) := by
  unfold State.expirePort
  repeat' (first
    | with_reducible
        first
        | assumption | apply Same.ite | apply State.setPort_same (mask_sub hm rfl)
        | apply State.biasEmcy_same (mask_sub hm rfl)
    | (extract_lets +onlyGivenNames x
       first
       | (refine Same.cut (m := m) (r := r) (x := x) ?_ ?_ <;> first | (clear_value x; intro hx) | subst x)
       | subst x)
    | split
    | dsimp only)

theorem execAcquisitionDeadline_same {m : Nat} {r s : State} (hm : m &&& 4490 = 0) (h : Same m r s) (t : Nat) :
    SameO m r (execAcquisitionDeadline t s) := by
  unfold execAcquisitionDeadline
  repeat' (first
    | with_reducible
        first
        | assumption | apply Same.ite | apply SameO.ite | apply SameO.next
        | apply State.expirePort_same (mask_sub hm rfl) | apply State.at_same (mask_sub hm rfl)
        | apply State.showOptics_same (mask_sub hm rfl) | apply State.abandonEntry_same (mask_sub hm rfl)
        | refine Same.foldl (fun _ _ _ => ?_) _ ?_
    | (simp only [Same.lit]; with_reducible refine SameLit.of hm ?_ ?_)
    | (refine fun (p : Part) (hp : Nat.testBit _ (Part.ix p) = false) => ?_; cases p <;> first | exact absurd hp (by decide) | (simp only [Part.same, and_self]; done))
    | (extract_lets +onlyGivenNames x
       first
       | (refine Same.cut (m := m) (r := r) (x := x) ?_ ?_ <;> first | (clear_value x; intro hx) | subst x)
       | subst x)
    | split
    | dsimp only
    | (with_reducible intro s1 h1; dsimp only)
    | with_reducible intro s1 h1)

theorem execOffsetTrim_same {m : Nat} {r s : State} (hm : m &&& 4098 = 0) (h : Same m r s) (t : Nat) (found : List
    (List Trim)) :
    SameO m r (execOffsetTrim t found s) := by
  unfold execOffsetTrim
  repeat' (first
    | with_reducible
        first
        | assumption | apply SameO.next | apply State.at_same (mask_sub hm rfl)
        | apply State.setPort_same (mask_sub hm rfl) | refine Same.foldl (fun _ _ _ => ?_) _ ?_
    | (extract_lets +onlyGivenNames x
       first
       | (refine Same.cut (m := m) (r := r) (x := x) ?_ ?_ <;> first | (clear_value x; intro hx) | subst x)
       | subst x)
    | split
    | dsimp only
    | (with_reducible intro s1 h1; dsimp only)
    | with_reducible intro s1 h1)

theorem execInputLimitAssert_same {m : Nat} {r s : State} (hm : m &&& 4106 = 0) (h : Same m r s) (t : Nat)
    (port : Nat) (excess : Excess) :
    SameO m r (execInputLimitAssert t port excess s) := by
  unfold execInputLimitAssert
  repeat' (first
    | with_reducible
        first
        | assumption | apply Same.ite | apply SameO.ite | apply SameO.next | apply State.at_same (mask_sub hm rfl)
        | apply State.bump_same (mask_sub hm rfl) | apply State.setPort_same (mask_sub hm rfl) | apply Same.ite_snd
        | refine Same.snd ‹_ = (_, _)› ?_
    | (extract_lets +onlyGivenNames x
       first
       | (refine Same.cut (m := m) (r := r) (x := x) ?_ ?_ <;> first | (clear_value x; intro hx) | subst x)
       | subst x)
    | split
    | dsimp only)

theorem execReflectionTrip_same {m : Nat} {r s : State} (hm : m &&& 136583946 = 0) (h : Same m r s) (t : Nat)
    (port : Nat) (peak : Int) :
    SameO m r (execReflectionTrip t port peak s) := by
  unfold execReflectionTrip
  repeat' (first
    | with_reducible
        first
        | assumption | apply Same.ite | apply SameO.ite | apply SameO.next | apply State.at_same (mask_sub hm rfl)
        | apply State.setPort_same (mask_sub hm rfl) | apply State.bump_same (mask_sub hm rfl)
        | apply State.cutEmission_same (mask_sub hm rfl) | apply State.emcy_same (mask_sub hm rfl)
        | apply State.event_same (mask_sub hm rfl) | apply State.showOptics_same (mask_sub hm rfl)
        | apply State.cause_same (mask_sub hm rfl) | apply Same.ite_snd | refine Same.snd ‹_ = (_, _)› ?_
    | (extract_lets +onlyGivenNames x
       first
       | (refine Same.cut (m := m) (r := r) (x := x) ?_ ?_ <;> first | (clear_value x; intro hx) | subst x)
       | subst x)
    | split
    | dsimp only)

theorem execSeedLowSet_same {m : Nat} {r s : State} (hm : m &&& 2366218 = 0) (h : Same m r s) (t : Nat) (dbm : Int) :
    SameO m r (execSeedLowSet t dbm s) := by
  unfold execSeedLowSet
  repeat' (first
    | with_reducible
        first
        | assumption | apply Same.ite | apply SameO.ite | apply SameO.next | apply State.at_same (mask_sub hm rfl)
        | apply State.holdLoops_same (mask_sub hm rfl) | apply State.osI_same (mask_sub hm rfl)
        | apply State.emcy_same (mask_sub hm rfl) | apply State.cause_same (mask_sub hm rfl)
        | apply State.event_same (mask_sub hm rfl) | apply Same.ite_snd | refine Same.snd ‹_ = (_, _)› ?_
    | (simp only [Same.lit]; with_reducible refine SameLit.of hm ?_ ?_)
    | (refine fun (p : Part) (hp : Nat.testBit _ (Part.ix p) = false) => ?_; cases p <;> first | exact absurd hp (by decide) | (simp only [Part.same, and_self]; done))
    | (extract_lets +onlyGivenNames x
       first
       | (refine Same.cut (m := m) (r := r) (x := x) ?_ ?_ <;> first | (clear_value x; intro hx) | subst x)
       | subst x)
    | split
    | dsimp only)

theorem execSeedLowClear_same {m : Nat} {r s : State} (hm : m &&& 2365450 = 0) (h : Same m r s) (t : Nat) (dbm : Int) :
    SameO m r (execSeedLowClear t dbm s) := by
  unfold execSeedLowClear
  repeat' (first
    | with_reducible
        first
        | assumption | apply Same.ite | apply SameO.ite | apply SameO.next | apply State.at_same (mask_sub hm rfl)
        | apply State.osI_same (mask_sub hm rfl) | apply State.showOptics_same (mask_sub hm rfl)
        | apply State.event_same (mask_sub hm rfl)
    | (simp only [Same.lit]; with_reducible refine SameLit.of hm ?_ ?_)
    | (refine fun (p : Part) (hp : Nat.testBit _ (Part.ix p) = false) => ?_; cases p <;> first | exact absurd hp (by decide) | (simp only [Part.same, and_self]; done))
    | (extract_lets +onlyGivenNames x
       first
       | (refine Same.cut (m := m) (r := r) (x := x) ?_ ?_ <;> first | (clear_value x; intro hx) | subst x)
       | subst x)
    | split
    | dsimp only)

theorem execBiasMeasurement_same {m : Nat} {r s : State} (hm : m &&& 4362 = 0) (h : Same m r s) (t : Nat)
    (port : Nat) (loop : Nat) (err : Int) (setPoint : Int) (atEnd : Bool) :
    SameO m r (execBiasMeasurement t port loop err setPoint atEnd s) := by
  unfold execBiasMeasurement
  repeat' (first
    | with_reducible
        first
        | assumption | apply Same.ite | apply SameO.ite | apply SameO.next | apply State.at_same (mask_sub hm rfl)
        | apply State.setPort_same (mask_sub hm rfl) | apply State.biasEmcy_same (mask_sub hm rfl)
        | apply State.showOptics_same (mask_sub hm rfl)
    | (extract_lets +onlyGivenNames x
       first
       | (refine Same.cut (m := m) (r := r) (x := x) ?_ ?_ <;> first | (clear_value x; intro hx) | subst x)
       | subst x)
    | split
    | dsimp only)

theorem execMeasurementTimeout_same {m : Nat} {r s : State} (hm : m &&& 4106 = 0) (h : Same m r s) (t : Nat)
    (port : Nat) (loop : Nat) :
    SameO m r (execMeasurementTimeout t port loop s) := by
  unfold execMeasurementTimeout
  repeat' (first
    | with_reducible
        first
        | assumption | apply Same.ite | apply SameO.ite | apply SameO.next | apply State.at_same (mask_sub hm rfl)
        | apply State.showOptics_same (mask_sub hm rfl) | apply State.setPort_same (mask_sub hm rfl)
    | (extract_lets +onlyGivenNames x
       first
       | (refine Same.cut (m := m) (r := r) (x := x) ?_ ?_ <;> first | (clear_value x; intro hx) | subst x)
       | subst x)
    | split
    | dsimp only)

theorem biasSearch_same {m : Nat} {r s : State} (hm : m &&& 2365704 = 0) (h : Same m r s) (mask : Nat) :
    SameE m r (biasSearch mask s) := by
  unfold biasSearch
  repeat' (first
    | with_reducible
        first
        | assumption | apply SameE.ok | apply SameE.error | apply require_same (mask_sub hm rfl)
        | apply State.os_same (mask_sub hm rfl) | apply State.setPort_same (mask_sub hm rfl)
        | apply State.startLong_same (mask_sub hm rfl) | apply State.showOptics_same (mask_sub hm rfl)
        | refine Same.foldl (fun _ _ _ => ?_) _ ?_ | refine Same.ofE ‹_ = Except.ok _› ?_
    | (extract_lets +onlyGivenNames x
       first
       | (refine Same.cut (m := m) (r := r) (x := x) ?_ ?_ <;> first | (clear_value x; intro hx) | subst x)
       | subst x)
    | split
    | dsimp only
    | (with_reducible intro s1 h1; dsimp only)
    | with_reducible intro s1 h1)

theorem execBiasSearch_same {m : Nat} {r s : State} (hm : m &&& 2365738 = 0) (h : Same m r s) (t : Nat) (c : Nat)
    (mask : Nat) :
    SameO m r (execBiasSearch t c mask s) := by
  unfold execBiasSearch
  repeat' (first
    | with_reducible
        first
        | assumption | apply SameE.ok | apply SameE.error | apply SameO.next
        | apply State.hostWrite_same (mask_sub hm rfl) | apply State.at_same (mask_sub hm rfl)
        | apply biasSearch_same (mask_sub hm rfl) | refine Same.ofE ‹_ = Except.ok _› ?_
    | (with_reducible intro s1 h1; dsimp only)
    | with_reducible intro s1 h1)

theorem State.storeSets_same {m : Nat} {r s : State} (hm : m &&& 4096 = 0) (h : Same m r s) (sets : List (List Int)) :
    Same m r (State.storeSets s sets) := by
  unfold State.storeSets
  repeat' (first
    | with_reducible first | assumption
    | (simp only [Same.lit]; with_reducible refine SameLit.of hm ?_ ?_)
    | (refine fun (p : Part) (hp : Nat.testBit _ (Part.ix p) = false) => ?_; cases p <;> first | exact absurd hp (by decide) | (simp only [Part.same, and_self]; done))
    | (extract_lets +onlyGivenNames x
       first
       | (refine Same.cut (m := m) (r := r) (x := x) ?_ ?_ <;> first | (clear_value x; intro hx) | subst x)
       | subst x)
    | split
    | dsimp only)

theorem State.endBiasSearch_same {m : Nat} {r s : State} (hm : m &&& 4104 = 0) (h : Same m r s) (mask : Nat)
    (found : List (List Int)) (flashOk : Bool) :
    Same m r (State.endBiasSearch s mask found flashOk).2 := by
  unfold State.endBiasSearch
  repeat' (first
    | with_reducible
        first
        | assumption | apply Same.ite | apply State.setPort_same (mask_sub hm rfl)
        | apply State.storeSets_same (mask_sub hm rfl) | apply State.showOptics_same (mask_sub hm rfl)
        | apply Same.ite_snd | refine Same.foldl (fun _ _ _ => ?_) _ ?_ | refine Same.snd ‹_ = (_, _)› ?_
    | (extract_lets +onlyGivenNames x
       first
       | (refine Same.cut (m := m) (r := r) (x := x) ?_ ?_ <;> first | (clear_value x; intro hx) | subst x)
       | subst x)
    | split
    | dsimp only
    | (with_reducible intro s1 h1; dsimp only)
    | with_reducible intro s1 h1)

theorem execDarkPortPowerDown_same {m : Nat} {r s : State} (hm : m &&& 4106 = 0) (h : Same m r s) (t : Nat) (port : Nat) :
    SameO m r (execDarkPortPowerDown t port s) := by
  unfold execDarkPortPowerDown
  repeat' (first
    | with_reducible
        first
        | assumption | apply Same.ite | apply SameO.ite | apply SameO.next | apply State.at_same (mask_sub hm rfl)
        | apply State.showOptics_same (mask_sub hm rfl) | apply State.setPort_same (mask_sub hm rfl)
    | (extract_lets +onlyGivenNames x
       first
       | (refine Same.cut (m := m) (r := r) (x := x) ?_ ?_ <;> first | (clear_value x; intro hx) | subst x)
       | subst x)
    | split
    | dsimp only)

theorem State.warmUp_same {m : Nat} {r s : State} (hm : m &&& 4234 = 0) (h : Same m r s) :
    Same m r (State.warmUp s) := by
  unfold State.warmUp
  repeat' (first
    | with_reducible
        first
        | assumption | apply State.photonicOn_same (mask_sub hm rfl) | apply State.bringUp_same (mask_sub hm rfl)
    | (extract_lets +onlyGivenNames x
       first
       | (refine Same.cut (m := m) (r := r) (x := x) ?_ ?_ <;> first | (clear_value x; intro hx) | subst x)
       | subst x)
    | split
    | dsimp only)

/-! ## Queues -/

theorem State.setPctx_same {m : Nat} {r s : State} (hm : m &&& 2097152 = 0) (h : Same m r s) (c : PCtx) :
    Same m r (State.setPctx s c) := by
  unfold State.setPctx
  repeat' (first
    | with_reducible first | assumption
    | (simp only [Same.lit]; with_reducible refine SameLit.of hm ?_ ?_)
    | (refine fun (p : Part) (hp : Nat.testBit _ (Part.ix p) = false) => ?_; cases p <;> first | exact absurd hp (by decide) | (simp only [Part.same, and_self]; done))
    | (extract_lets +onlyGivenNames x
       first
       | (refine Same.cut (m := m) (r := r) (x := x) ?_ ?_ <;> first | (clear_value x; intro hx) | subst x)
       | subst x)
    | split
    | dsimp only)

theorem State.restartCtxs_same {m : Nat} {r s : State} (hm : m &&& 2097152 = 0) (h : Same m r s) (port : Option Nat) :
    Same m r (State.restartCtxs s port) := by
  unfold State.restartCtxs
  repeat' (first
    | with_reducible first | assumption | apply Same.ite
    | (simp only [Same.lit]; with_reducible refine SameLit.of hm ?_ ?_)
    | (refine fun (p : Part) (hp : Nat.testBit _ (Part.ix p) = false) => ?_; cases p <;> first | exact absurd hp (by decide) | (simp only [Part.same, and_self]; done))
    | (extract_lets +onlyGivenNames x
       first
       | (refine Same.cut (m := m) (r := r) (x := x) ?_ ?_ <;> first | (clear_value x; intro hx) | subst x)
       | subst x)
    | split
    | dsimp only)

theorem State.offerStream_same {m : Nat} {r s : State} (hm : m &&& 35915784 = 0) (h : Same m r s) (pl : Plan)
    (e : Stream) (first : Nat) (sweep : Nat) (stamp : Nat) (width : Nat) (head : List Byte) (rows : List (List Int)) (flags : List Byte) (gen : Nat) :
    Same m r (State.offerStream s pl e first sweep stamp width head rows flags gen) := by
  unfold State.offerStream
  repeat' (first
    | with_reducible
        first
        | assumption | apply Same.ite | apply State.count_same (mask_sub hm rfl)
        | apply State.offer_same (mask_sub hm rfl) | apply State.setPctx_same (mask_sub hm rfl) | apply Same.ite_snd
        | refine Same.snd ‹_ = (_, _)› ?_
    | (simp only [Same.lit]; with_reducible refine SameLit.of hm ?_ ?_)
    | (refine fun (p : Part) (hp : Nat.testBit _ (Part.ix p) = false) => ?_; cases p <;> first | exact absurd hp (by decide) | (simp only [Part.same, and_self]; done))
    | (extract_lets +onlyGivenNames x
       first
       | (refine Same.cut (m := m) (r := r) (x := x) ?_ ?_ <;> first | (clear_value x; intro hx) | subst x)
       | subst x)
    | split
    | dsimp only)

theorem State.discardUnframed_same {m : Nat} {r s : State} (hm : m &&& 2361352 = 0) (h : Same m r s) (q : Nat) (mask : Nat) :
    Same m r (State.discardUnframed s q mask) := by
  unfold State.discardUnframed
  repeat' (first
    | with_reducible
        first
        | assumption | apply Same.ite | apply State.setQueue_same (mask_sub hm rfl)
        | apply State.bump_same (mask_sub hm rfl) | apply State.count_same (mask_sub hm rfl)
        | apply State.pulse_same (mask_sub hm rfl) | apply State.osBit_same (mask_sub hm rfl) | apply Same.ite_snd
        | refine Same.snd ‹_ = (_, _)› ?_
    | (extract_lets +onlyGivenNames x
       first
       | (refine Same.cut (m := m) (r := r) (x := x) ?_ ?_ <;> first | (clear_value x; intro hx) | subst x)
       | subst x)
    | split
    | dsimp only)

theorem State.queuesTake_same {m : Nat} {r s : State} (hm : m &&& 2361352 = 0) (h : Same m r s) (base : Option Nat)
    (pl : Plan) :
    Same m r (State.queuesTake s base pl) := by
  unfold State.queuesTake
  repeat' (first
    | with_reducible
        first
        | assumption | apply Same.ite | apply State.setQueue_same (mask_sub hm rfl)
        | apply State.discardUnframed_same (mask_sub hm rfl) | apply State.os_same (mask_sub hm rfl)
        | refine Same.foldl (fun _ _ _ => ?_) _ ?_
    | (extract_lets +onlyGivenNames x
       first
       | (refine Same.cut (m := m) (r := r) (x := x) ?_ ?_ <;> first | (clear_value x; intro hx) | subst x)
       | subst x)
    | split
    | dsimp only
    | (with_reducible intro s1 h1; dsimp only)
    | with_reducible intro s1 h1)

theorem State.emptyQueues_same {m : Nat} {r s : State} (hm : m &&& 2097152 = 0) (h : Same m r s) :
    Same m r (State.emptyQueues s) := by
  unfold State.emptyQueues
  repeat' (first
    | with_reducible first | assumption
    | (simp only [Same.lit]; with_reducible refine SameLit.of hm ?_ ?_)
    | (refine fun (p : Part) (hp : Nat.testBit _ (Part.ix p) = false) => ?_; cases p <;> first | exact absurd hp (by decide) | (simp only [Part.same, and_self]; done))
    | (extract_lets +onlyGivenNames x
       first
       | (refine Same.cut (m := m) (r := r) (x := x) ?_ ?_ <;> first | (clear_value x; intro hx) | subst x)
       | subst x)
    | split
    | dsimp only)

theorem overrunClear_same {m : Nat} {r s : State} (hm : m &&& 8 = 0) (h : Same m r s) (mask : Nat) :
    SameE m r (overrunClear mask s) := by
  unfold overrunClear
  repeat' (first
    | with_reducible
        first
        | assumption | apply SameE.ok | apply SameE.error | apply State.os_same (mask_sub hm rfl)
        | refine Same.ofE ‹_ = Except.ok _› ?_
    | (with_reducible intro s1 h1; dsimp only)
    | with_reducible intro s1 h1)

theorem execOverrunClear_same {m : Nat} {r s : State} (hm : m &&& 298 = 0) (h : Same m r s) (t : Nat) (c : Nat)
    (mask : Nat) :
    SameO m r (execOverrunClear t c mask s) := by
  unfold execOverrunClear
  repeat' (first
    | with_reducible
        first
        | assumption | apply SameE.ok | apply SameE.error | apply SameO.next
        | apply State.hostWrite_same (mask_sub hm rfl) | apply State.at_same (mask_sub hm rfl)
        | apply overrunClear_same (mask_sub hm rfl) | refine Same.ofE ‹_ = Except.ok _› ?_
    | (with_reducible intro s1 h1; dsimp only)
    | with_reducible intro s1 h1)

theorem execStatusRecord_same {m : Nat} {r s : State} (hm : m &&& 2361610 = 0) (h : Same m r s) (t : Nat) :
    SameO m r (execStatusRecord t s) := by
  unfold execStatusRecord
  repeat' (first
    | with_reducible
        first
        | assumption | apply SameO.next | apply State.at_same (mask_sub hm rfl)
        | apply State.statusNow_same (mask_sub hm rfl) | apply State.os_same (mask_sub hm rfl)
    | (simp only [Same.lit]; with_reducible refine SameLit.of hm ?_ ?_)
    | (refine fun (p : Part) (hp : Nat.testBit _ (Part.ix p) = false) => ?_; cases p <;> first | exact absurd hp (by decide) | (simp only [Part.same, and_self]; done))
    | (extract_lets +onlyGivenNames x
       first
       | (refine Same.cut (m := m) (r := r) (x := x) ?_ ?_ <;> first | (clear_value x; intro hx) | subst x)
       | subst x)
    | split
    | dsimp only)

end Sys2Proof.Machine
end

