-- ==== Sys2Proof/Laws/SameChain.lean ====
section
/-! SUPPORT. Which parts each function of the model leaves as they were:
Raman temperature, images, the acoustic chain, DRAM regions and Poppy. -/

namespace Sys2Proof.Machine

open Sys2Proof

set_option linter.unusedSimpArgs false
set_option linter.unusedVariables false

/-! ## Dts -/

theorem State.setLin_same {m : Nat} {r s : State} (hm : m &&& 65536 = 0) (h : Same m r s) (f : Linseed → Linseed) :
    Same m r (State.setLin s f) := by
  unfold State.setLin
  repeat' (first
    | with_reducible first | assumption
    | (simp only [Same.lit]; with_reducible refine SameLit.of hm ?_ ?_)
    | (refine fun (p : Part) (hp : Nat.testBit _ (Part.ix p) = false) => ?_; cases p <;> first | exact absurd hp (by decide) | (simp only [Part.same, and_self]; done))
    | dsimp only)

theorem State.setPeriod_same {m : Nat} {r s : State} (hm : m &&& 65536 = 0) (h : Same m r s) (n : Nat)
    (f : Period → Period) :
    Same m r (State.setPeriod s n f) := by
  unfold State.setPeriod
  repeat' (first
    | with_reducible first | assumption | apply Same.ite | apply State.setLin_same (mask_sub hm rfl))

theorem State.showDts_same {m : Nat} {r s : State} (hm : m &&& 8 = 0) (h : Same m r s) :
    Same m r (State.showDts s) := by
  unfold State.showDts
  repeat' (first
    | with_reducible
        first
        | assumption | apply Same.ite | apply State.os_same (mask_sub hm rfl)
        | refine Same.foldl (fun _ _ _ => ?_) _ ?_
    | (extract_lets +onlyGivenNames x
       first
       | (refine Same.cut (m := m) (r := r) (x := x) ?_ ?_ <;> first | (clear_value x; intro hx) | subst x)
       | subst x)
    | split
    | dsimp only
    | (with_reducible intro s1 h1; dsimp only)
    | with_reducible intro s1 h1)

theorem State.closeBlock_same {m : Nat} {r s : State} (hm : m &&& 65536 = 0) (h : Same m r s) :
    Same m r (State.closeBlock s) := by
  unfold State.closeBlock
  repeat' (first
    | with_reducible first | assumption | apply State.setLin_same (mask_sub hm rfl)
    | split
    | dsimp only)

theorem State.addShot_same {m : Nat} {r s : State} (hm : m &&& 65536 = 0) (h : Same m r s) (sh : Shot)
    (ports : List Nat) (bins : List (List Int)) :
    Same m r (State.addShot s sh ports bins) := by
  unfold State.addShot
  repeat' (first
    | with_reducible
        first
        | assumption | apply Same.ite | apply State.closeBlock_same (mask_sub hm rfl)
        | apply State.setLin_same (mask_sub hm rfl)
    | (extract_lets +onlyGivenNames x
       first
       | (refine Same.cut (m := m) (r := r) (x := x) ?_ ?_ <;> first | (clear_value x; intro hx) | subst x)
       | subst x)
    | split
    | dsimp only)

theorem State.settleShot_same {m : Nat} {r s : State} (hm : m &&& 67592 = 0) (h : Same m r s) (sh : Shot) :
    Same m r (State.settleShot s sh) := by
  unfold State.settleShot
  repeat' (first
    | with_reducible
        first
        | assumption | apply Same.ite | apply State.setPeriod_same (mask_sub hm rfl)
        | apply State.countAt_same (mask_sub hm rfl) | apply State.bump_same (mask_sub hm rfl)
        | apply State.addShot_same (mask_sub hm rfl) | refine Same.foldl (fun _ _ _ => ?_) _ ?_
    | (extract_lets +onlyGivenNames x
       first
       | (refine Same.cut (m := m) (r := r) (x := x) ?_ ?_ <;> first | (clear_value x; intro hx) | subst x)
       | subst x)
    | split
    | dsimp only
    | (with_reducible intro s1 h1; dsimp only)
    | with_reducible intro s1 h1)

theorem State.settleShots_same {m : Nat} {r s : State} (hm : m &&& 67592 = 0) (h : Same m r s) :
    Same m r (State.settleShots s) := by
  unfold State.settleShots
  repeat' (first
    | with_reducible
        first
        | assumption | apply State.settleShot_same (mask_sub hm rfl) | apply State.setLin_same (mask_sub hm rfl)
        | refine Same.foldl (fun _ _ _ => ?_) _ ?_
    | (extract_lets +onlyGivenNames x
       first
       | (refine Same.cut (m := m) (r := r) (x := x) ?_ ?_ <;> first | (clear_value x; intro hx) | subst x)
       | subst x)
    | split
    | dsimp only
    | (with_reducible intro s1 h1; dsimp only)
    | with_reducible intro s1 h1)

theorem State.dtsShot_same {m : Nat} {r s : State} (hm : m &&& 65536 = 0) (h : Same m r s) (f : Flight) (slot : Nat)
    (e : Nat) (raman : List (List Nat)) :
    Same m r (State.dtsShot s f slot e raman) := by
  unfold State.dtsShot
  repeat' (first
    | with_reducible
        first
        | assumption | apply Same.ite | apply State.closeBlock_same (mask_sub hm rfl)
        | apply State.setLin_same (mask_sub hm rfl)
    | (extract_lets +onlyGivenNames x
       first
       | (refine Same.cut (m := m) (r := r) (x := x) ?_ ?_ <;> first | (clear_value x; intro hx) | subst x)
       | subst x)
    | split
    | dsimp only)

theorem State.endPeriod_same {m : Nat} {r s : State} (hm : m &&& 65544 = 0) (h : Same m r s) (ord : Nat) (now : Nat) :
    Same m r (State.endPeriod s ord now) := by
  unfold State.endPeriod
  repeat' (first
    | with_reducible
        first
        | assumption | apply State.setPeriod_same (mask_sub hm rfl) | apply State.showDts_same (mask_sub hm rfl)
    | (extract_lets +onlyGivenNames x
       first
       | (refine Same.cut (m := m) (r := r) (x := x) ?_ ?_ <;> first | (clear_value x; intro hx) | subst x)
       | subst x)
    | split
    | dsimp only)

theorem State.beginPeriod_same {m : Nat} {r s : State} (hm : m &&& 65544 = 0) (h : Same m r s) (f : Flight) :
    Same m r (State.beginPeriod s f) := by
  unfold State.beginPeriod
  repeat' (first
    | with_reducible
        first
        | assumption | apply Same.ite | apply State.showDts_same (mask_sub hm rfl)
        | apply State.setLin_same (mask_sub hm rfl)
    | (extract_lets +onlyGivenNames x
       first
       | (refine Same.cut (m := m) (r := r) (x := x) ?_ ?_ <;> first | (clear_value x; intro hx) | subst x)
       | subst x)
    | split
    | dsimp only)

theorem State.dtsTemp_same {m : Nat} {r s : State} (hm : m &&& 65536 = 0) (h : Same m r s) (at_ : Nat) (rtd : Nat)
    (mk : Int) :
    Same m r (State.dtsTemp s at_ rtd mk) := by
  unfold State.dtsTemp
  repeat' (first
    | with_reducible
        first
        | assumption | apply State.setLin_same (mask_sub hm rfl) | refine Same.foldl (fun _ _ _ => ?_) _ ?_
        | refine Same.snd ‹_ = (_, _)› ?_
    | (extract_lets +onlyGivenNames x
       first
       | (refine Same.cut (m := m) (r := r) (x := x) ?_ ?_ <;> first | (clear_value x; intro hx) | subst x)
       | subst x)
    | split
    | dsimp only
    | (with_reducible intro s1 h1; dsimp only)
    | with_reducible intro s1 h1)

theorem State.dtsDrop_same {m : Nat} {r s : State} (hm : m &&& 65544 = 0) (h : Same m r s) :
    Same m r (State.dtsDrop s) := by
  unfold State.dtsDrop
  repeat' (first
    | with_reducible
        first
        | assumption | apply State.showDts_same (mask_sub hm rfl) | apply State.setLin_same (mask_sub hm rfl))

theorem State.addBlock_same {m : Nat} {r s : State} (hm : m &&& 65536 = 0) (h : Same m r s) (b : LBlock) :
    Same m r (State.addBlock s b) := by
  unfold State.addBlock
  repeat' (first
    | with_reducible first | assumption | apply State.setPeriod_same (mask_sub hm rfl))

theorem State.stallShot_same {m : Nat} {r s : State} (hm : m &&& 65536 = 0) (h : Same m r s) :
    Same m r (State.stallShot s) := by
  unfold State.stallShot
  repeat' (first
    | with_reducible first | assumption | apply State.setLin_same (mask_sub hm rfl)
    | split
    | dsimp only)

theorem execLinseedBlockAdd_same {m : Nat} {r s : State} (hm : m &&& 67594 = 0) (h : Same m r s) (t : Nat)
    (stalled : Bool) (corrected : Nat) :
    SameO m r (execLinseedBlockAdd t stalled corrected s) := by
  unfold execLinseedBlockAdd
  repeat' (first
    | with_reducible
        first
        | assumption | apply Same.ite | apply SameO.ite | apply SameO.next
        | apply State.settleShots_same (mask_sub hm rfl) | apply State.dramFixed_same (mask_sub hm rfl)
        | apply State.at_same (mask_sub hm rfl) | apply State.closeBlock_same (mask_sub hm rfl)
        | apply State.addBlock_same (mask_sub hm rfl) | apply State.setLin_same (mask_sub hm rfl)
        | apply State.stallShot_same (mask_sub hm rfl)
    | (extract_lets +onlyGivenNames x
       first
       | (refine Same.cut (m := m) (r := r) (x := x) ?_ ?_ <;> first | (clear_value x; intro hx) | subst x)
       | subst x)
    | split
    | dsimp only)

theorem execDtsDecode_same {m : Nat} {r s : State} (hm : m &&& 2426894 = 0) (h : Same m r s) (t : Nat) (port : Nat) :
    SameO m r (execDtsDecode t port s) := by
  unfold execDtsDecode
  have hx : Same m r (s.at t).settleShots := State.settleShots_same (mask_sub hm rfl) (State.at_same (mask_sub hm rfl) h t)
  generalize (s.at t).settleShots = x at hx
  dsimp only
  generalize x.lin.periods = ps
  cases ps with
  | nil => exact SameO.next hx
  | cons q tail =>
    dsimp only
    refine SameO.ite ?_ (SameO.next hx)
    repeat' (first
    | with_reducible
          first
          | assumption | apply Same.ite | apply SameO.ite | apply SameO.next
          | apply State.settleShots_same (mask_sub hm rfl) | apply State.at_same (mask_sub hm rfl)
          | apply State.draw_same (mask_sub hm rfl) | apply State.offer_same (mask_sub hm rfl)
          | apply State.os_same (mask_sub hm rfl) | apply State.osI_same (mask_sub hm rfl)
          | apply State.setPeriod_same (mask_sub hm rfl) | apply State.setLin_same (mask_sub hm rfl)
          | apply State.showDts_same (mask_sub hm rfl) | apply Same.ite_snd | refine Same.foldl (fun _ _ _ => ?_) _ ?_
          | refine Same.snd ‹_ = (_, _)› ?_
      | (extract_lets +onlyGivenNames x
         first
         | (refine Same.cut (m := m) (r := r) (x := x) ?_ ?_ <;> first | (clear_value x; intro hx) | subst x)
         | subst x)
      | split
      | dsimp only
      | (with_reducible intro s1 h1; dsimp only)
      | with_reducible intro s1 h1)

/-! ## Image -/

theorem State.setArea_same {m : Nat} {r s : State} (hm : m &&& 1073741824 = 0) (h : Same m r s) (i : Nat) (b : List Byte) :
    Same m r (State.setArea s i b) := by
  unfold State.setArea
  repeat' (first
    | with_reducible first | assumption
    | (simp only [Same.lit]; with_reducible refine SameLit.of hm ?_ ?_)
    | (refine fun (p : Part) (hp : Nat.testBit _ (Part.ix p) = false) => ?_; cases p <;> first | exact absurd hp (by decide) | (simp only [Part.same, and_self]; done))
    | (extract_lets +onlyGivenNames x
       first
       | (refine Same.cut (m := m) (r := r) (x := x) ?_ ?_ <;> first | (clear_value x; intro hx) | subst x)
       | subst x)
    | split
    | dsimp only)

theorem State.writeBoot_same {m : Nat} {r s : State} (hm : m &&& 1073741824 = 0) (h : Same m r s)
    (f : BootControl → BootControl) :
    Same m r (State.writeBoot s f) := by
  unfold State.writeBoot
  repeat' (first
    | with_reducible first | assumption | apply Same.ite
    | (simp only [Same.lit]; with_reducible refine SameLit.of hm ?_ ?_)
    | (refine fun (p : Part) (hp : Nat.testBit _ (Part.ix p) = false) => ?_; cases p <;> first | exact absurd hp (by decide) | (simp only [Part.same, and_self]; done))
    | (extract_lets +onlyGivenNames x
       first
       | (refine Same.cut (m := m) (r := r) (x := x) ?_ ?_ <;> first | (clear_value x; intro hx) | subst x)
       | subst x)
    | split
    | dsimp only)

/-! ## Das -/

theorem State.setPdas_same {m : Nat} {r s : State} (hm : m &&& 16384 = 0) (h : Same m r s) (p : Nat)
    (f : PortDas → PortDas) :
    Same m r (State.setPdas s p f) := by
  unfold State.setPdas
  repeat' (first
    | with_reducible first | assumption
    | (simp only [Same.lit]; with_reducible refine SameLit.of hm ?_ ?_)
    | (refine fun (p : Part) (hp : Nat.testBit _ (Part.ix p) = false) => ?_; cases p <;> first | exact absurd hp (by decide) | (simp only [Part.same, and_self]; done))
    | (extract_lets +onlyGivenNames x
       first
       | (refine Same.cut (m := m) (r := r) (x := x) ?_ ?_ <;> first | (clear_value x; intro hx) | subst x)
       | subst x)
    | split
    | dsimp only)

theorem State.setTick_same {m : Nat} {r s : State} (hm : m &&& 16384 = 0) (h : Same m r s) (p : Nat) (n : Nat)
    (sl : Nat) (f : TickWork → TickWork) :
    Same m r (State.setTick s p n sl f) := by
  unfold State.setTick
  repeat' (first
    | with_reducible first | assumption | apply Same.ite
    | (simp only [Same.lit]; with_reducible refine SameLit.of hm ?_ ?_)
    | (refine fun (p : Part) (hp : Nat.testBit _ (Part.ix p) = false) => ?_; cases p <;> first | exact absurd hp (by decide) | (simp only [Part.same, and_self]; done))
    | (extract_lets +onlyGivenNames x
       first
       | (refine Same.cut (m := m) (r := r) (x := x) ?_ ?_ <;> first | (clear_value x; intro hx) | subst x)
       | subst x)
    | split
    | dsimp only)

theorem State.fillNoFiring_same {m : Nat} {r s : State} (hm : m &&& 16384 = 0) (h : Same m r s) (p : Nat) (n : Nat)
    (sl : Nat) (o : Nat) :
    Same m r (State.fillNoFiring s p n sl o) := by
  unfold State.fillNoFiring
  repeat' (first
    | with_reducible first | assumption | apply Same.ite
    | (simp only [Same.lit]; with_reducible refine SameLit.of hm ?_ ?_)
    | (refine fun (p : Part) (hp : Nat.testBit _ (Part.ix p) = false) => ?_; cases p <;> first | exact absurd hp (by decide) | (simp only [Part.same, and_self]; done))
    | (extract_lets +onlyGivenNames x
       first
       | (refine Same.cut (m := m) (r := r) (x := x) ?_ ?_ <;> first | (clear_value x; intro hx) | subst x)
       | subst x)
    | split
    | dsimp only)

theorem State.freshen_same {m : Nat} {r s : State} (hm : m &&& 16384 = 0) (h : Same m r s) (f : Flight) (p : Nat)
    (sl : Nat) (c : Nat) :
    Same m r (State.freshen s f p sl c) := by
  unfold State.freshen
  repeat' (first
    | with_reducible
        first
        | assumption | apply Same.ite | apply State.setPdas_same (mask_sub hm rfl)
        | apply State.fillNoFiring_same (mask_sub hm rfl)
    | (extract_lets +onlyGivenNames x
       first
       | (refine Same.cut (m := m) (r := r) (x := x) ?_ ?_ <;> first | (clear_value x; intro hx) | subst x)
       | subst x)
    | split
    | dsimp only)

theorem State.chanItem_same {m : Nat} {r s : State} (hm : m &&& 16384 = 0) (h : Same m r s) (f : Flight) (p : Nat)
    (sl : Nat) (c : Nat) :
    Same m r (State.chanItem s f p sl c) := by
  unfold State.chanItem
  repeat' (first
    | with_reducible
        first
        | assumption | apply Same.ite | apply State.freshen_same (mask_sub hm rfl)
        | apply State.setTick_same (mask_sub hm rfl) | apply State.setPdas_same (mask_sub hm rfl)
    | (extract_lets +onlyGivenNames x
       first
       | (refine Same.cut (m := m) (r := r) (x := x) ?_ ?_ <;> first | (clear_value x; intro hx) | subst x)
       | subst x)
    | split
    | dsimp only)

theorem State.outItem_same {m : Nat} {r s : State} (hm : m &&& 16384 = 0) (h : Same m r s) (f : Flight) (p : Nat)
    (sl : Nat) (o : Nat) (bad : Bool) :
    Same m r (State.outItem s f p sl o bad) := by
  unfold State.outItem
  repeat' (first
    | with_reducible
        first
        | assumption | apply Same.ite | apply State.fillNoFiring_same (mask_sub hm rfl)
        | apply State.freshen_same (mask_sub hm rfl) | apply State.setTick_same (mask_sub hm rfl)
        | apply State.setPdas_same (mask_sub hm rfl) | apply Same.ite_snd | refine Same.snd ‹_ = (_, _)› ?_
    | (extract_lets +onlyGivenNames x
       first
       | (refine Same.cut (m := m) (r := r) (x := x) ?_ ?_ <;> first | (clear_value x; intro hx) | subst x)
       | subst x)
    | split
    | dsimp only)

theorem State.endedOuts_same {m : Nat} {r s : State} (hm : m &&& 16384 = 0) (h : Same m r s) (f : Flight) (p : Nat)
    (sl : Nat) :
    Same m r (State.endedOuts s f p sl) := by
  unfold State.endedOuts
  repeat' (first
    | with_reducible
        first
        | assumption | apply State.outItem_same (mask_sub hm rfl) | refine Same.foldl (fun _ _ _ => ?_) _ ?_
    | split
    | dsimp only
    | (with_reducible intro s1 h1; dsimp only)
    | with_reducible intro s1 h1)

theorem State.markLost_same {m : Nat} {r s : State} (hm : m &&& 16384 = 0) (h : Same m r s) (f : Flight) :
    Same m r (State.markLost s f) := by
  unfold State.markLost
  repeat' (first
    | with_reducible first | assumption | apply Same.ite
    | (simp only [Same.lit]; with_reducible refine SameLit.of hm ?_ ?_)
    | (refine fun (p : Part) (hp : Nat.testBit _ (Part.ix p) = false) => ?_; cases p <;> first | exact absurd hp (by decide) | (simp only [Part.same, and_self]; done))
    | (extract_lets +onlyGivenNames x
       first
       | (refine Same.cut (m := m) (r := r) (x := x) ?_ ?_ <;> first | (clear_value x; intro hx) | subst x)
       | subst x)
    | split
    | dsimp only)

theorem execSegmentEmit_same {m : Nat} {r s : State} (hm : m &&& 35916298 = 0) (h : Same m r s) (t : Nat)
    (port : Nat) (sweep : Nat) (slot : Nat) (first : Nat) :
    SameO m r (execSegmentEmit t port sweep slot first s) := by
  unfold execSegmentEmit
  repeat' (first
    | with_reducible
        first
        | assumption | apply Same.ite | apply SameO.ite | apply SameO.next | apply State.at_same (mask_sub hm rfl)
        | apply State.cause_same (mask_sub hm rfl) | apply State.offerStream_same (mask_sub hm rfl)
    | (extract_lets +onlyGivenNames x
       first
       | (refine Same.cut (m := m) (r := r) (x := x) ?_ ?_ <;> first | (clear_value x; intro hx) | subst x)
       | subst x)
    | split
    | dsimp only)

theorem State.openTicks_same {m : Nat} {r s : State} (hm : m &&& 16392 = 0) (h : Same m r s) (f : Flight) (slot : Nat) :
    Same m r (State.openTicks s f slot) := by
  unfold State.openTicks
  repeat' (first
    | with_reducible
        first
        | assumption | apply Same.ite | apply State.os_same (mask_sub hm rfl)
        | refine Same.foldl (fun _ _ _ => ?_) _ ?_
    | (simp only [Same.lit]; with_reducible refine SameLit.of hm ?_ ?_)
    | (refine fun (p : Part) (hp : Nat.testBit _ (Part.ix p) = false) => ?_; cases p <;> first | exact absurd hp (by decide) | (simp only [Part.same, and_self]; done))
    | (extract_lets +onlyGivenNames x
       first
       | (refine Same.cut (m := m) (r := r) (x := x) ?_ ?_ <;> first | (clear_value x; intro hx) | subst x)
       | subst x)
    | split
    | dsimp only
    | (with_reducible intro s1 h1; dsimp only)
    | with_reducible intro s1 h1)

theorem State.chainReset_same {m : Nat} {r s : State} (hm : m &&& 16384 = 0) (h : Same m r s) (p : Nat) (sweep : Nat) :
    Same m r (State.chainReset s p sweep) := by
  unfold State.chainReset
  repeat' (first
    | with_reducible first | assumption | apply State.setPdas_same (mask_sub hm rfl))

theorem State.mapChange_same {m : Nat} {r s : State} (hm : m &&& 16384 = 0) (h : Same m r s) :
    Same m r (State.mapChange s) := by
  unfold State.mapChange
  repeat' (first
    | with_reducible
        first
        | assumption | apply State.setPdas_same (mask_sub hm rfl) | refine Same.foldl (fun _ _ _ => ?_) _ ?_
    | (with_reducible intro s1 h1; dsimp only)
    | with_reducible intro s1 h1)

theorem State.dasComplete_same {m : Nat} {r s : State} (hm : m &&& 26624 = 0) (h : Same m r s) (f : Flight) :
    Same m r (State.dasComplete s f) := by
  unfold State.dasComplete
  repeat' (first
    | with_reducible
        first
        | assumption | apply Same.ite | apply State.countAt_same (mask_sub hm rfl)
        | apply State.setPdas_same (mask_sub hm rfl) | refine Same.foldl (fun _ _ _ => ?_) _ ?_
    | (simp only [Same.lit]; with_reducible refine SameLit.of hm ?_ ?_)
    | (refine fun (p : Part) (hp : Nat.testBit _ (Part.ix p) = false) => ?_; cases p <;> first | exact absurd hp (by decide) | (simp only [Part.same, and_self]; done))
    | (extract_lets +onlyGivenNames x
       first
       | (refine Same.cut (m := m) (r := r) (x := x) ?_ ?_ <;> first | (clear_value x; intro hx) | subst x)
       | subst x)
    | split
    | dsimp only
    | (with_reducible intro s1 h1; dsimp only)
    | with_reducible intro s1 h1)

/-! ## Regions -/

theorem State.setMem_same {m : Nat} {r s : State} (hm : m &&& 8388608 = 0) (h : Same m r s) (f : Memory → Memory) :
    Same m r (State.setMem s f) := by
  unfold State.setMem
  repeat' (first
    | with_reducible first | assumption
    | (simp only [Same.lit]; with_reducible refine SameLit.of hm ?_ ?_)
    | (refine fun (p : Part) (hp : Nat.testBit _ (Part.ix p) = false) => ?_; cases p <;> first | exact absurd hp (by decide) | (simp only [Part.same, and_self]; done))
    | dsimp only)

theorem State.unreserve_same {m : Nat} {r s : State} (hm : m &&& 8388608 = 0) (h : Same m r s) (k : RegionKind) :
    Same m r (State.unreserve s k) := by
  unfold State.unreserve
  repeat' (first
    | with_reducible first | assumption
    | (simp only [Same.lit]; with_reducible refine SameLit.of hm ?_ ?_)
    | (refine fun (p : Part) (hp : Nat.testBit _ (Part.ix p) = false) => ?_; cases p <;> first | exact absurd hp (by decide) | (simp only [Part.same, and_self]; done))
    | (extract_lets +onlyGivenNames x
       first
       | (refine Same.cut (m := m) (r := r) (x := x) ?_ ?_ <;> first | (clear_value x; intro hx) | subst x)
       | subst x)
    | split
    | dsimp only)

theorem State.keepDrained_same {m : Nat} {r s : State} (hm : m &&& 8388608 = 0) (h : Same m r s) (rung : Nat) :
    Same m r (State.keepDrained s rung) := by
  unfold State.keepDrained
  repeat' (first
    | with_reducible first | assumption | apply Same.ite | apply State.setMem_same (mask_sub hm rfl))

theorem State.reserve_same {m : Nat} {r s : State} (hm : m &&& 8388608 = 0) (h : Same m r s) (k : RegionKind) (size : Nat) :
    SameP m r (State.reserve s k size) := by
  unfold State.reserve
  repeat' (first
    | with_reducible
        first
        | assumption | apply Same.ite | apply SameP.ite | apply SameP.some | exact SameP.none | apply Same.getD
        | apply State.unreserve_same (mask_sub hm rfl) | refine Same.ofP ‹_ = Option.some _› ?_
    | (simp only [Same.lit]; with_reducible refine SameLit.of hm ?_ ?_)
    | (refine fun (p : Part) (hp : Nat.testBit _ (Part.ix p) = false) => ?_; cases p <;> first | exact absurd hp (by decide) | (simp only [Part.same, and_self]; done))
    | (extract_lets +onlyGivenNames x
       first
       | (refine Same.cut (m := m) (r := r) (x := x) ?_ ?_ <;> first | (clear_value x; intro hx) | subst x)
       | subst x)
    | split
    | dsimp only)

theorem State.touch_same {m : Nat} {r s : State} (hm : m &&& 8388608 = 0) (h : Same m r s) (a : Nat) (n : Nat) :
    Same m r (State.touch s a n) := by
  unfold State.touch
  repeat' (first
    | with_reducible first | assumption | apply Same.ite | apply State.setMem_same (mask_sub hm rfl)
    | (extract_lets +onlyGivenNames x
       first
       | (refine Same.cut (m := m) (r := r) (x := x) ?_ ?_ <;> first | (clear_value x; intro hx) | subst x)
       | subst x)
    | split
    | dsimp only)

theorem State.dramWrite_same {m : Nat} {r s : State} (hm : m &&& 8388608 = 0) (h : Same m r s) (a : Nat) (b : List Byte) :
    Same m r (State.dramWrite s a b) := by
  unfold State.dramWrite
  repeat' (first
    | with_reducible
        first
        | assumption | apply State.setMem_same (mask_sub hm rfl) | apply State.touch_same (mask_sub hm rfl))

theorem State.cornerWrite_same {m : Nat} {r s : State} (hm : m &&& 8388608 = 0) (h : Same m r s) (pl : Plan)
    (p : Nat) (base : Nat) (i : Nat) (vals : List (Int × Nat)) :
    Same m r (State.cornerWrite s pl p base i vals) := by
  unfold State.cornerWrite
  repeat' (first
    | with_reducible
        first
        | assumption | apply State.dramWrite_same (mask_sub hm rfl) | refine Same.foldl (fun _ _ _ => ?_) _ ?_
    | split
    | dsimp only
    | (with_reducible intro s1 h1; dsimp only)
    | with_reducible intro s1 h1)

/-! ## Poppy -/

theorem State.setPpop_same {m : Nat} {r s : State} (hm : m &&& 32768 = 0) (h : Same m r s) (p : Nat)
    (f : PortPop → PortPop) :
    Same m r (State.setPpop s p f) := by
  unfold State.setPpop
  repeat' (first
    | with_reducible first | assumption
    | (simp only [Same.lit]; with_reducible refine SameLit.of hm ?_ ?_)
    | (refine fun (p : Part) (hp : Nat.testBit _ (Part.ix p) = false) => ?_; cases p <;> first | exact absurd hp (by decide) | (simp only [Part.same, and_self]; done))
    | (extract_lets +onlyGivenNames x
       first
       | (refine Same.cut (m := m) (r := r) (x := x) ?_ ?_ <;> first | (clear_value x; intro hx) | subst x)
       | subst x)
    | split
    | dsimp only)

theorem State.popSettle_same {m : Nat} {r s : State} (hm : m &&& 32768 = 0) (h : Same m r s) (p : Nat) :
    Same m r (State.popSettle s p) := by
  unfold State.popSettle
  repeat' (first
    | with_reducible
        first
        | assumption | apply Same.ite | apply State.setPpop_same (mask_sub hm rfl)
        | refine Same.foldl (fun _ _ _ => ?_) _ ?_
    | (with_reducible intro s1 h1; dsimp only)
    | with_reducible intro s1 h1)

theorem State.runTicks_same {m : Nat} {r : State} (hm : m &&& 32776 = 0) (p : Nat) : ∀ (l : List PTick) (gs : List PGroup) {s : State}, Same m r s →
    Same m r (State.runTicks s p l gs).1
  | [], _, _, h => h
  | k :: l, gs, s, h => by
    unfold State.runTicks
    repeat' (first
    | with_reducible
          first
          | assumption | apply Same.ite | apply State.setPpop_same (mask_sub hm rfl)
          | apply State.os_same (mask_sub hm rfl) | apply State.runTicks_same (mask_sub hm rfl) | apply Same.ite_snd
          | refine Same.snd ‹_ = (_, _)› ?_ | refine Same.fst ‹_ = (_, _)› ?_
      | (extract_lets +onlyGivenNames x
         first
         | (refine Same.cut (m := m) (r := r) (x := x) ?_ ?_ <;> first | (clear_value x; intro hx) | subst x)
         | subst x)
      | split
      | dsimp only)

theorem State.offerGroup_same {m : Nat} {r s : State} (hm : m &&& 35915784 = 0) (h : Same m r s) (p : Nat)
    (ident : Nat) (ev : Nat) (g : PGroup) :
    Same m r (State.offerGroup s p ident ev g) := by
  unfold State.offerGroup
  repeat' (first
    | with_reducible
        first
        | assumption | apply Same.ite | apply State.restartCtxs_same (mask_sub hm rfl)
        | apply State.offerStream_same (mask_sub hm rfl) | refine Same.foldl (fun _ _ _ => ?_) _ ?_
    | (extract_lets +onlyGivenNames x
       first
       | (refine Same.cut (m := m) (r := r) (x := x) ?_ ?_ <;> first | (clear_value x; intro hx) | subst x)
       | subst x)
    | split
    | dsimp only
    | (with_reducible intro s1 h1; dsimp only)
    | with_reducible intro s1 h1)

theorem State.showPoppy_same {m : Nat} {r s : State} (hm : m &&& 8 = 0) (h : Same m r s) :
    Same m r (State.showPoppy s) := by
  unfold State.showPoppy
  repeat' (first
    | with_reducible
        first
        | assumption | apply State.os_same (mask_sub hm rfl) | refine Same.foldl (fun _ _ _ => ?_) _ ?_
        | refine Same.snd ‹_ = (_, _)› ?_
    | (extract_lets +onlyGivenNames x
       first
       | (refine Same.cut (m := m) (r := r) (x := x) ?_ ?_ <;> first | (clear_value x; intro hx) | subst x)
       | subst x)
    | split
    | dsimp only
    | (with_reducible intro s1 h1; dsimp only)
    | with_reducible intro s1 h1)

theorem State.planMove_same {m : Nat} {r s : State} (hm : m &&& 8 = 0) (h : Same m r s) (p : Nat) (read : Bool)
    (begins : Bool) (ends : Bool) (n : Nat) :
    Same m r (State.planMove s p read begins ends n) := by
  unfold State.planMove
  repeat' (first
    | with_reducible first | assumption | apply Same.ite | apply State.os_same (mask_sub hm rfl)
    | (extract_lets +onlyGivenNames x
       first
       | (refine Same.cut (m := m) (r := r) (x := x) ?_ ?_ <;> first | (clear_value x; intro hx) | subst x)
       | subst x)
    | split
    | dsimp only)

theorem State.planBuild_same {m : Nat} {r s : State} (hm : m &&& 12 = 0) (h : Same m r s) (pl : Plan) (p : Nat)
    (read : Bool) :
    Same m r (State.planBuild s pl p read) := by
  unfold State.planBuild
  repeat' (first
    | with_reducible
        first
        | assumption | apply Same.ite | apply State.draw_same (mask_sub hm rfl)
        | apply State.os_same (mask_sub hm rfl) | apply Same.ite_snd | refine Same.snd ‹_ = (_, _)› ?_
    | split
    | dsimp only)

theorem State.planChannels_same {m : Nat} {r s : State} (hm : m &&& 12 = 0) (h : Same m r s) (pl : Plan) :
    Same m r (State.planChannels s pl) := by
  unfold State.planChannels
  repeat' (first
    | with_reducible
        first
        | assumption | apply State.planBuild_same (mask_sub hm rfl) | refine Same.foldl (fun _ _ _ => ?_) _ ?_
    | (with_reducible intro s1 h1; dsimp only)
    | with_reducible intro s1 h1)

theorem execPoppyBlock_same {m : Nat} {r s : State} (hm : m &&& 35948554 = 0) (h : Same m r s) (t : Nat)
    (port : Nat) (block : Nat) (corrected : Nat) :
    SameO m r (execPoppyBlock t port block corrected s) := by
  unfold execPoppyBlock
  repeat' (first
    | with_reducible
        first
        | assumption | apply Same.ite | apply SameO.ite | apply SameO.next
        | apply State.dramFixed_same (mask_sub hm rfl) | apply State.at_same (mask_sub hm rfl)
        | apply State.setPpop_same (mask_sub hm rfl) | apply State.planMove_same (mask_sub hm rfl)
        | apply State.runTicks_same (mask_sub hm rfl) | apply State.offerGroup_same (mask_sub hm rfl)
        | apply State.showPoppy_same (mask_sub hm rfl) | apply State.popSettle_same (mask_sub hm rfl)
        | apply Same.ite_snd | refine Same.foldl (fun _ _ _ => ?_) _ ?_ | refine Same.snd ‹_ = (_, _)› ?_
        | refine Same.fst ‹_ = (_, _)› ?_
    | (extract_lets +onlyGivenNames x
       first
       | (refine Same.cut (m := m) (r := r) (x := x) ?_ ?_ <;> first | (clear_value x; intro hx) | subst x)
       | subst x)
    | split
    | dsimp only
    | (with_reducible intro s1 h1; dsimp only)
    | with_reducible intro s1 h1)

theorem State.cornerPort_same {m : Nat} {r s : State} (hm : m &&& 8423432 = 0) (h : Same m r s) (f : Flight) (p : Nat) :
    Same m r (State.cornerPort s f p) := by
  unfold State.cornerPort
  repeat' (first
    | with_reducible
        first
        | assumption | apply Same.ite | apply State.planMove_same (mask_sub hm rfl)
        | apply State.cornerWrite_same (mask_sub hm rfl) | apply State.setPpop_same (mask_sub hm rfl)
        | apply State.countAt_same (mask_sub hm rfl) | refine Same.foldl (fun _ _ _ => ?_) _ ?_
    | (extract_lets +onlyGivenNames x
       first
       | (refine Same.cut (m := m) (r := r) (x := x) ?_ ?_ <;> first | (clear_value x; intro hx) | subst x)
       | subst x)
    | split
    | dsimp only
    | (with_reducible intro s1 h1; dsimp only)
    | with_reducible intro s1 h1)

theorem State.cornerTurn_same {m : Nat} {r s : State} (hm : m &&& 8423432 = 0) (h : Same m r s) (f : Flight) :
    Same m r (State.cornerTurn s f) := by
  unfold State.cornerTurn
  repeat' (first
    | with_reducible
        first
        | assumption | apply State.cornerPort_same (mask_sub hm rfl) | refine Same.foldl (fun _ _ _ => ?_) _ ?_
    | (with_reducible intro s1 h1; dsimp only)
    | with_reducible intro s1 h1)

theorem State.poppyEvent_same {m : Nat} {r s : State} (hm : m &&& 32768 = 0) (h : Same m r s) (p : Nat) (at_ : Nat)
    (e : PEvent) :
    Same m r (State.poppyEvent s p at_ e) := by
  unfold State.poppyEvent
  repeat' (first
    | with_reducible
        first
        | assumption | apply State.popSettle_same (mask_sub hm rfl) | apply State.setPpop_same (mask_sub hm rfl))

theorem State.poppyAll_same {m : Nat} {r s : State} (hm : m &&& 32768 = 0) (h : Same m r s) (at_ : Nat) (e : PEvent) :
    Same m r (State.poppyAll s at_ e) := by
  unfold State.poppyAll
  repeat' (first
    | with_reducible
        first
        | assumption | apply State.poppyEvent_same (mask_sub hm rfl) | refine Same.foldl (fun _ _ _ => ?_) _ ?_
    | (with_reducible intro s1 h1; dsimp only)
    | with_reducible intro s1 h1)

theorem State.poppyTake_same {m : Nat} {r s : State} (hm : m &&& 2129932 = 0) (h : Same m r s) (old : Option Plan)
    (pl : Plan) (index : Nat) (entry : Bool) (late : Bool) (chain : List Nat) :
    Same m r (State.poppyTake s old pl index entry late chain) := by
  unfold State.poppyTake
  repeat' (first
    | with_reducible
        first
        | assumption | apply Same.ite | apply State.poppyAll_same (mask_sub hm rfl)
        | apply State.restartCtxs_same (mask_sub hm rfl) | apply State.planChannels_same (mask_sub hm rfl)
        | apply State.os_same (mask_sub hm rfl) | apply State.poppyEvent_same (mask_sub hm rfl)
        | apply State.showPoppy_same (mask_sub hm rfl) | refine Same.foldl (fun _ _ _ => ?_) _ ?_
    | (extract_lets +onlyGivenNames x
       first
       | (refine Same.cut (m := m) (r := r) (x := x) ?_ ?_ <;> first | (clear_value x; intro hx) | subst x)
       | subst x)
    | split
    | dsimp only
    | (with_reducible intro s1 h1; dsimp only)
    | with_reducible intro s1 h1)

theorem State.poppyTransfer_same {m : Nat} {r s : State} (hm : m &&& 32776 = 0) (h : Same m r s) (sub : Nat)
    (b : List Byte) (at_ : Nat) :
    Same m r (State.poppyTransfer s sub b at_) := by
  unfold State.poppyTransfer
  repeat' (first
    | with_reducible
        first
        | assumption | apply Same.ite | apply State.poppyAll_same (mask_sub hm rfl)
        | apply State.os_same (mask_sub hm rfl)
    | (extract_lets +onlyGivenNames x
       first
       | (refine Same.cut (m := m) (r := r) (x := x) ?_ ?_ <;> first | (clear_value x; intro hx) | subst x)
       | subst x)
    | split
    | dsimp only)

theorem bankLoad_same {m : Nat} {r s : State} (hm : m &&& 1024 = 0) (h : Same m r s) (j : Nat) (b : List Byte) :
    SameE m r (bankLoad j b s) := by
  unfold bankLoad
  repeat' (first
    | with_reducible
        first
        | assumption | apply SameE.ok | apply SameE.error | apply require_same (mask_sub hm rfl)
        | apply shadow_same (mask_sub hm rfl) | refine Same.ofE ‹_ = Except.ok _› ?_
    | split
    | dsimp only
    | (with_reducible intro s1 h1; dsimp only)
    | with_reducible intro s1 h1)

theorem execInactiveBankLoad_same {m : Nat} {r s : State} (hm : m &&& 1322 = 0) (h : Same m r s) (t : Nat) (c : Nat)
    (stage : Nat) (data : List Byte) :
    SameO m r (execInactiveBankLoad t c stage data s) := by
  unfold execInactiveBankLoad
  repeat' (first
    | with_reducible
        first
        | assumption | apply SameE.ok | apply SameE.error | apply SameO.next
        | apply State.hostWrite_same (mask_sub hm rfl) | apply State.at_same (mask_sub hm rfl)
        | apply bankLoad_same (mask_sub hm rfl) | refine Same.ofE ‹_ = Except.ok _› ?_
    | (with_reducible intro s1 h1; dsimp only)
    | with_reducible intro s1 h1)

theorem execPoppyResetWrite_same {m : Nat} {r s : State} (hm : m &&& 1322 = 0) (h : Same m r s) (t : Nat) (c : Nat) :
    SameO m r (execPoppyResetWrite t c s) := by
  unfold execPoppyResetWrite
  repeat' (first
    | with_reducible
        first
        | assumption | apply SameE.ok | apply SameE.error | apply SameO.next
        | apply State.hostWrite_same (mask_sub hm rfl) | apply State.at_same (mask_sub hm rfl)
        | apply shadow_same (mask_sub hm rfl) | refine Same.ofE ‹_ = Except.ok _› ?_
    | (with_reducible intro s1 h1; dsimp only)
    | with_reducible intro s1 h1)

theorem execPoppyModeWrite_same {m : Nat} {r s : State} (hm : m &&& 1322 = 0) (h : Same m r s) (t : Nat) (c : Nat)
    (mode : Nat) :
    SameO m r (execPoppyModeWrite t c mode s) := by
  unfold execPoppyModeWrite
  repeat' (first
    | with_reducible
        first
        | assumption | apply SameE.ok | apply SameE.error | apply SameO.next
        | apply State.hostWrite_same (mask_sub hm rfl) | apply State.at_same (mask_sub hm rfl)
        | apply shadow_same (mask_sub hm rfl) | refine Same.ofE ‹_ = Except.ok _› ?_
    | (with_reducible intro s1 h1; dsimp only)
    | with_reducible intro s1 h1)

end Sys2Proof.Machine
end

