-- ==== Sys2Proof/Laws/SameMemory.lean ====
section
/-! SUPPORT. Which parts each function of the model leaves as they were:
the memory system and raw bursts. -/

namespace Sys2Proof.Machine

open Sys2Proof

set_option linter.unusedSimpArgs false
set_option linter.unusedVariables false

/-! ## Memory -/

theorem State.reserveFixed_same {m : Nat} {r s : State} (hm : m &&& 8388608 = 0) (h : Same m r s) :
    Same m r (State.reserveFixed s) := by
  unfold State.reserveFixed
  repeat' (first
    | with_reducible
        first
        | assumption | apply SameP.some | exact SameP.none | apply Same.getD
        | apply State.reserve_same (mask_sub hm rfl) | refine Same.ofP ‹_ = Option.some _› ?_
    | (extract_lets +onlyGivenNames x
       first
       | (refine Same.cut (m := m) (r := r) (x := x) ?_ ?_ <;> first | (clear_value x; intro hx) | subst x)
       | subst x)
    | split
    | dsimp only)

theorem State.reservePlan_same {m : Nat} {r s : State} (hm : m &&& 8388608 = 0) (h : Same m r s) (rung : Nat) (pl : Plan) :
    SameP m r (State.reservePlan s rung pl) := by
  unfold State.reservePlan
  repeat' (first
    | with_reducible
        first
        | assumption | apply Same.ite | apply SameP.ite | apply SameP.some | exact SameP.none | apply Same.getD
        | apply State.reserve_same (mask_sub hm rfl) | apply State.keepDrained_same (mask_sub hm rfl)
        | refine Same.ofP ‹_ = Option.some _› ?_
    | (extract_lets +onlyGivenNames x
       first
       | (refine Same.cut (m := m) (r := r) (x := x) ?_ ?_ <;> first | (clear_value x; intro hx) | subst x)
       | subst x)
    | split
    | dsimp only)

theorem State.reserveEntry_same {m : Nat} {r s : State} (hm : m &&& 8388608 = 0) (h : Same m r s) (rung : Nat) (pl : Plan) :
    SameP m r (State.reserveEntry s rung pl) := by
  unfold State.reserveEntry
  repeat' (first
    | with_reducible
        first
        | assumption | apply SameP.some | exact SameP.none | apply Same.getD
        | apply State.reservePlan_same (mask_sub hm rfl) | apply State.reserve_same (mask_sub hm rfl)
        | refine Same.ofP ‹_ = Option.some _› ?_
    | split
    | dsimp only)

theorem State.showUsable_same {m : Nat} {r s : State} (hm : m &&& 8 = 0) (h : Same m r s) :
    Same m r (State.showUsable s) := by
  unfold State.showUsable
  repeat' (first
    | with_reducible first | assumption | apply State.os_same (mask_sub hm rfl))

theorem State.ownBanks_same {m : Nat} {r s : State} (hm : m &&& 8 = 0) (h : Same m r s) (pl : Plan) :
    Same m r (State.ownBanks s pl) := by
  unfold State.ownBanks
  repeat' (first
    | with_reducible
        first
        | assumption | apply State.os_same (mask_sub hm rfl) | refine Same.foldl (fun _ _ _ => ?_) _ ?_
    | (with_reducible intro s1 h1; dsimp only)
    | with_reducible intro s1 h1)

theorem State.releaseBanks_same {m : Nat} {r s : State} (hm : m &&& 8 = 0) (h : Same m r s) :
    Same m r (State.releaseBanks s) := by
  unfold State.releaseBanks
  repeat' (first
    | with_reducible
        first
        | assumption | apply Same.ite | apply State.os_same (mask_sub hm rfl)
        | refine Same.foldl (fun _ _ _ => ?_) _ ?_
    | split
    | dsimp only
    | (with_reducible intro s1 h1; dsimp only)
    | with_reducible intro s1 h1)

theorem State.releaseRegions_same {m : Nat} {r s : State} (hm : m &&& 8388608 = 0) (h : Same m r s) :
    Same m r (State.releaseRegions s) := by
  unfold State.releaseRegions
  repeat' (first
    | with_reducible first | assumption | apply State.setMem_same (mask_sub hm rfl)
    | (extract_lets +onlyGivenNames x
       first
       | (refine Same.cut (m := m) (r := r) (x := x) ?_ ?_ <;> first | (clear_value x; intro hx) | subst x)
       | subst x)
    | split
    | dsimp only)

theorem bankOwner_same {m : Nat} {r s : State} (hm : m &&& 8388616 = 0) (h : Same m r s) (b : Nat) (v : Nat) :
    SameE m r (bankOwner b v s) := by
  unfold bankOwner
  repeat' (first
    | with_reducible
        first
        | assumption | apply SameE.ok | apply SameE.error | apply require_same (mask_sub hm rfl)
        | apply State.os_same (mask_sub hm rfl) | refine Same.snd ‹_ = (_, _)› ?_
        | refine Same.ofE ‹_ = Except.ok _› ?_
    | (simp only [Same.lit]; with_reducible refine SameLit.of hm ?_ ?_)
    | (refine fun (p : Part) (hp : Nat.testBit _ (Part.ix p) = false) => ?_; cases p <;> first | exact absurd hp (by decide) | (simp only [Part.same, and_self]; done))
    | (extract_lets +onlyGivenNames x
       first
       | (refine Same.cut (m := m) (r := r) (x := x) ?_ ?_ <;> first | (clear_value x; intro hx) | subst x)
       | subst x)
    | split
    | dsimp only
    | (with_reducible intro s1 h1; dsimp only)
    | with_reducible intro s1 h1)

theorem execBankOwnerWrite_same {m : Nat} {r s : State} (hm : m &&& 8388906 = 0) (h : Same m r s) (t : Nat)
    (c : Nat) (bank : Nat) (owner : Nat) :
    SameO m r (execBankOwnerWrite t c bank owner s) := by
  unfold execBankOwnerWrite
  repeat' (first
    | with_reducible
        first
        | assumption | apply SameE.ok | apply SameE.error | apply SameO.next
        | apply State.hostWrite_same (mask_sub hm rfl) | apply State.at_same (mask_sub hm rfl)
        | apply bankOwner_same (mask_sub hm rfl) | refine Same.ofE ‹_ = Except.ok _› ?_
    | (with_reducible intro s1 h1; dsimp only)
    | with_reducible intro s1 h1)

theorem execBusyStrobe_same {m : Nat} {r s : State} (hm : m &&& 2058 = 0) (h : Same m r s) (t : Nat) (bank : Nat) :
    SameO m r (execBusyStrobe t bank s) := by
  unfold execBusyStrobe
  repeat' (first
    | with_reducible
        first
        | assumption | apply Same.ite | apply SameO.ite | apply SameO.next | apply State.at_same (mask_sub hm rfl)
        | apply State.osBit_same (mask_sub hm rfl) | apply State.count_same (mask_sub hm rfl)
        | apply State.bump_same (mask_sub hm rfl)
    | (extract_lets +onlyGivenNames x
       first
       | (refine Same.cut (m := m) (r := r) (x := x) ?_ ?_ <;> first | (clear_value x; intro hx) | subst x)
       | subst x)
    | split
    | dsimp only)

theorem execCashewScrub_same {m : Nat} {r s : State} (hm : m &&& 2058 = 0) (h : Same m r s) (t : Nat) (bank : Nat)
    (dword : Nat) (error : EccError) :
    SameO m r (execCashewScrub t bank dword error s) := by
  unfold execCashewScrub
  repeat' (first
    | with_reducible
        first
        | assumption | apply Same.ite | apply SameO.ite | apply SameO.next | apply State.at_same (mask_sub hm rfl)
        | apply State.eccFix_same (mask_sub hm rfl) | apply State.bump_same (mask_sub hm rfl)
        | apply State.eccLost_same (mask_sub hm rfl)
    | (extract_lets +onlyGivenNames x
       first
       | (refine Same.cut (m := m) (r := r) (x := x) ?_ ?_ <;> first | (clear_value x; intro hx) | subst x)
       | subst x)
    | split
    | dsimp only)

theorem execRefresh_same {m : Nat} {r s : State} (hm : m &&& 8388610 = 0) (h : Same m r s) (t : Nat) (iface : Nat)
    (waiting : Bool) :
    SameO m r (execRefresh t iface waiting s) := by
  unfold execRefresh
  repeat' (first
    | with_reducible
        first
        | assumption | apply Same.ite | apply SameO.ite | apply SameO.next | apply State.at_same (mask_sub hm rfl)
        | apply State.setMem_same (mask_sub hm rfl)
    | (extract_lets +onlyGivenNames x
       first
       | (refine Same.cut (m := m) (r := r) (x := x) ?_ ?_ <;> first | (clear_value x; intro hx) | subst x)
       | subst x)
    | split
    | dsimp only)

theorem execSelfRefreshEntry_same {m : Nat} {r s : State} (hm : m &&& 8388610 = 0) (h : Same m r s) (t : Nat) (iface : Nat) :
    SameO m r (execSelfRefreshEntry t iface s) := by
  unfold execSelfRefreshEntry
  repeat' (first
    | with_reducible
        first
        | assumption | apply Same.ite | apply SameO.ite | apply SameO.next | apply State.at_same (mask_sub hm rfl)
        | apply State.setMem_same (mask_sub hm rfl)
    | (extract_lets +onlyGivenNames x
       first
       | (refine Same.cut (m := m) (r := r) (x := x) ?_ ?_ <;> first | (clear_value x; intro hx) | subst x)
       | subst x)
    | split
    | dsimp only)

theorem refreshMode_same {m : Nat} {r s : State} (hm : m &&& 8388616 = 0) (h : Same m r s) (v : Nat) :
    SameE m r (refreshMode v s) := by
  unfold refreshMode
  repeat' (first
    | with_reducible
        first
        | assumption | apply SameE.ok | apply SameE.error | apply require_same (mask_sub hm rfl)
        | apply State.showUsable_same (mask_sub hm rfl) | apply State.setMem_same (mask_sub hm rfl)
        | apply State.os_same (mask_sub hm rfl) | refine Same.ofE ‹_ = Except.ok _› ?_
    | (extract_lets +onlyGivenNames x
       first
       | (refine Same.cut (m := m) (r := r) (x := x) ?_ ?_ <;> first | (clear_value x; intro hx) | subst x)
       | subst x)
    | split
    | dsimp only
    | (with_reducible intro s1 h1; dsimp only)
    | with_reducible intro s1 h1)

theorem execRefreshModeWrite_same {m : Nat} {r s : State} (hm : m &&& 8388906 = 0) (h : Same m r s) (t : Nat)
    (c : Nat) (mode : Nat) :
    SameO m r (execRefreshModeWrite t c mode s) := by
  unfold execRefreshModeWrite
  repeat' (first
    | with_reducible
        first
        | assumption | apply SameE.ok | apply SameE.error | apply SameO.next
        | apply State.hostWrite_same (mask_sub hm rfl) | apply State.at_same (mask_sub hm rfl)
        | apply refreshMode_same (mask_sub hm rfl) | refine Same.ofE ‹_ = Except.ok _› ?_
    | (with_reducible intro s1 h1; dsimp only)
    | with_reducible intro s1 h1)

theorem fullScrub_same {m : Nat} {r s : State} (hm : m &&& 2361608 = 0) (h : Same m r s) : SameE m r (fullScrub s) := by
  unfold fullScrub
  repeat' (first
    | with_reducible
        first
        | assumption | apply SameE.ok | apply SameE.error | apply require_same (mask_sub hm rfl)
        | apply State.startLong_same (mask_sub hm rfl) | refine Same.ofE ‹_ = Except.ok _› ?_
    | (with_reducible intro s1 h1; dsimp only)
    | with_reducible intro s1 h1)

theorem execFullScrub_same {m : Nat} {r s : State} (hm : m &&& 2361642 = 0) (h : Same m r s) (t : Nat) (c : Nat) :
    SameO m r (execFullScrub t c s) := by
  unfold execFullScrub
  repeat' (first
    | with_reducible
        first
        | assumption | apply SameE.ok | apply SameE.error | apply SameO.next
        | apply State.hostWrite_same (mask_sub hm rfl) | apply State.at_same (mask_sub hm rfl)
        | apply fullScrub_same (mask_sub hm rfl) | refine Same.ofE ‹_ = Except.ok _› ?_
    | (with_reducible intro s1 h1; dsimp only)
    | with_reducible intro s1 h1)

theorem State.showDram_same {m : Nat} {r s : State} (hm : m &&& 8 = 0) (h : Same m r s) (x : Nat × Nat × Nat × Nat) :
    Same m r (State.showDram s x) := by
  unfold State.showDram
  repeat' (first
    | with_reducible
        first
        | assumption | apply Same.ite | apply State.os_same (mask_sub hm rfl)
        | apply State.showUsable_same (mask_sub hm rfl)
    | (extract_lets +onlyGivenNames x
       first
       | (refine Same.cut (m := m) (r := r) (x := x) ?_ ?_ <;> first | (clear_value x; intro hx) | subst x)
       | subst x)
    | split
    | dsimp only)

theorem State.dramLost_same {m : Nat} {r s : State} (hm : m &&& 8389762 = 0) (h : Same m r s) :
    Same m r (State.dramLost s) := by
  unfold State.dramLost
  repeat' (first
    | with_reducible first | assumption
    | (simp only [Same.lit]; with_reducible refine SameLit.of hm ?_ ?_)
    | (refine fun (p : Part) (hp : Nat.testBit _ (Part.ix p) = false) => ?_; cases p <;> first | exact absurd hp (by decide) | (simp only [Part.same, and_self]; done))
    | (extract_lets +onlyGivenNames x
       first
       | (refine Same.cut (m := m) (r := r) (x := x) ?_ ?_ <;> first | (clear_value x; intro hx) | subst x)
       | subst x)
    | split
    | dsimp only)

/-! ## Bursts -/

theorem State.setBurst_same {m : Nat} {r s : State} (hm : m &&& 8192 = 0) (h : Same m r s) (src2 : Bool) (b : Option Burst) :
    Same m r (State.setBurst s src2 b) := by
  unfold State.setBurst
  repeat' (first
    | with_reducible first | assumption | apply Same.ite
    | (simp only [Same.lit]; with_reducible refine SameLit.of hm ?_ ?_)
    | (refine fun (p : Part) (hp : Nat.testBit _ (Part.ix p) = false) => ?_; cases p <;> first | exact absurd hp (by decide) | (simp only [Part.same, and_self]; done))
    | (extract_lets +onlyGivenNames x
       first
       | (refine Same.cut (m := m) (r := r) (x := x) ?_ ?_ <;> first | (clear_value x; intro hx) | subst x)
       | subst x)
    | split
    | dsimp only)

theorem burstRequest_same {m : Nat} {r s : State} (hm : m &&& 8200 = 0) (h : Same m r s) :
    SameE m r (burstRequest s) := by
  unfold burstRequest
  repeat' (first
    | with_reducible
        first
        | assumption | apply Same.ite | apply SameE.ite | apply SameE.ok | apply SameE.error
        | apply require_same (mask_sub hm rfl) | apply State.setBurst_same (mask_sub hm rfl)
        | apply State.os_same (mask_sub hm rfl) | refine Same.ofE ‹_ = Except.ok _› ?_
    | (extract_lets +onlyGivenNames x
       first
       | (refine Same.cut (m := m) (r := r) (x := x) ?_ ?_ <;> first | (clear_value x; intro hx) | subst x)
       | subst x)
    | split
    | dsimp only
    | (with_reducible intro s1 h1; dsimp only)
    | with_reducible intro s1 h1)

theorem State.burstStarts_same {m : Nat} {r s : State} (hm : m &&& 8200 = 0) (h : Same m r s) (f : Flight) (src2 : Bool) :
    Same m r (State.burstStarts s f src2) := by
  unfold State.burstStarts
  repeat' (first
    | with_reducible
        first
        | assumption | apply Same.ite | apply State.os_same (mask_sub hm rfl)
        | apply State.setBurst_same (mask_sub hm rfl)
    | (extract_lets +onlyGivenNames x
       first
       | (refine Same.cut (m := m) (r := r) (x := x) ?_ ?_ <;> first | (clear_value x; intro hx) | subst x)
       | subst x)
    | split
    | dsimp only)

theorem State.burstBoundary_same {m : Nat} {r s : State} (hm : m &&& 8200 = 0) (h : Same m r s) (f : Flight) :
    Same m r (State.burstBoundary s f) := by
  unfold State.burstBoundary
  repeat' (first
    | with_reducible first | assumption | apply State.burstStarts_same (mask_sub hm rfl))

theorem State.captureEnds_same {m : Nat} {r s : State} (hm : m &&& 8200 = 0) (h : Same m r s) (src2 : Bool) (b : Burst) :
    Same m r (State.captureEnds s src2 b) := by
  unfold State.captureEnds
  repeat' (first
    | with_reducible
        first
        | assumption | apply Same.ite | apply State.setBurst_same (mask_sub hm rfl)
        | apply State.os_same (mask_sub hm rfl)
    | (simp only [Same.lit]; with_reducible refine SameLit.of hm ?_ ?_)
    | (refine fun (p : Part) (hp : Nat.testBit _ (Part.ix p) = false) => ?_; cases p <;> first | exact absurd hp (by decide) | (simp only [Part.same, and_self]; done))
    | (extract_lets +onlyGivenNames x
       first
       | (refine Same.cut (m := m) (r := r) (x := x) ?_ ?_ <;> first | (clear_value x; intro hx) | subst x)
       | subst x)
    | split
    | dsimp only)

theorem State.burstStops_same {m : Nat} {r s : State} (hm : m &&& 8200 = 0) (h : Same m r s) (src2 : Bool) :
    Same m r (State.burstStops s src2) := by
  unfold State.burstStops
  repeat' (first
    | with_reducible
        first
        | assumption | apply Same.ite | apply State.captureEnds_same (mask_sub hm rfl)
        | apply State.setBurst_same (mask_sub hm rfl)
    | split
    | dsimp only)

theorem State.burstsStop_same {m : Nat} {r s : State} (hm : m &&& 8200 = 0) (h : Same m r s) :
    Same m r (State.burstsStop s) := by
  unfold State.burstsStop
  repeat' (first
    | with_reducible first | assumption | apply State.burstStops_same (mask_sub hm rfl))

theorem execChestnutOutput_same {m : Nat} {r s : State} (hm : m &&& 10250 = 0) (h : Same m r s) (t : Nat)
    (port : Nat) (sweep : Nat) (slot : Nat) (conts : List Quad) :
    SameO m r (execChestnutOutput t port sweep slot conts s) := by
  unfold execChestnutOutput
  repeat' (first
    | with_reducible
        first
        | assumption | apply Same.ite | apply SameO.ite | apply SameO.next | apply State.at_same (mask_sub hm rfl)
        | apply State.countAt_same (mask_sub hm rfl) | apply State.bump_same (mask_sub hm rfl)
    | (simp only [Same.lit]; with_reducible refine SameLit.of hm ?_ ?_)
    | (refine fun (p : Part) (hp : Nat.testBit _ (Part.ix p) = false) => ?_; cases p <;> first | exact absurd hp (by decide) | (simp only [Part.same, and_self]; done))
    | (extract_lets +onlyGivenNames x
       first
       | (refine Same.cut (m := m) (r := r) (x := x) ?_ ?_ <;> first | (clear_value x; intro hx) | subst x)
       | subst x)
    | split
    | dsimp only)

theorem State.endCapture01_same {m : Nat} {r s : State} (hm : m &&& 8396808 = 0) (h : Same m r s) (b : Burst)
    (n : Nat) (data : List (List Quad)) :
    Same m r (State.endCapture01 s b n data) := by
  unfold State.endCapture01
  repeat' (first
    | with_reducible
        first
        | assumption | apply State.dramWrite_same (mask_sub hm rfl) | apply State.captureEnds_same (mask_sub hm rfl)
    | (extract_lets +onlyGivenNames x
       first
       | (refine Same.cut (m := m) (r := r) (x := x) ?_ ?_ <;> first | (clear_value x; intro hx) | subst x)
       | subst x)
    | split
    | dsimp only)

theorem execBurstCaptureEnd_same {m : Nat} {r s : State} (hm : m &&& 8396810 = 0) (h : Same m r s) (t : Nat)
    (src2 : Bool) (truncated : Bool) (data : List (List Quad)) (captured : Nat) :
    SameO m r (execBurstCaptureEnd t src2 truncated data captured s) := by
  unfold execBurstCaptureEnd
  repeat' (first
    | with_reducible
        first
        | assumption | apply Same.ite | apply SameO.ite | apply SameO.next | apply State.at_same (mask_sub hm rfl)
        | apply State.captureEnds_same (mask_sub hm rfl) | apply State.endCapture01_same (mask_sub hm rfl)
    | (extract_lets +onlyGivenNames x
       first
       | (refine Same.cut (m := m) (r := r) (x := x) ?_ ?_ <;> first | (clear_value x; intro hx) | subst x)
       | subst x)
    | split
    | dsimp only)

theorem State.burstPayload_same {m : Nat} {r s : State} (hm : m &&& 4 = 0) (h : Same m r s) (b : Burst) :
    Same m r (State.burstPayload s b).2 := by
  unfold State.burstPayload
  repeat' (first
    | with_reducible
        first
        | assumption | apply Same.ite | apply State.garble_same (mask_sub hm rfl) | apply Same.ite_snd
        | refine Same.snd ‹_ = (_, _)› ?_
    | (extract_lets +onlyGivenNames x
       first
       | (refine Same.cut (m := m) (r := r) (x := x) ?_ ?_ <;> first | (clear_value x; intro hx) | subst x)
       | subst x)
    | split
    | dsimp only)

theorem State.endReadout_same {m : Nat} {r s : State} (hm : m &&& 8200 = 0) (h : Same m r s) (src2 : Bool) (b : Burst) :
    Same m r (State.endReadout s src2 b) := by
  unfold State.endReadout
  repeat' (first
    | with_reducible
        first
        | assumption | apply Same.ite | apply State.setBurst_same (mask_sub hm rfl)
        | apply State.os_same (mask_sub hm rfl)
    | (simp only [Same.lit]; with_reducible refine SameLit.of hm ?_ ?_)
    | (refine fun (p : Part) (hp : Nat.testBit _ (Part.ix p) = false) => ?_; cases p <;> first | exact absurd hp (by decide) | (simp only [Part.same, and_self]; done))
    | (extract_lets +onlyGivenNames x
       first
       | (refine Same.cut (m := m) (r := r) (x := x) ?_ ?_ <;> first | (clear_value x; intro hx) | subst x)
       | subst x)
    | split
    | dsimp only)

theorem State.abandon_same {m : Nat} {r s : State} (hm : m &&& 8200 = 0) (h : Same m r s) (src2 : Bool) :
    Same m r (State.abandon s src2) := by
  unfold State.abandon
  repeat' (first
    | with_reducible
        first
        | assumption | apply Same.ite | apply State.setBurst_same (mask_sub hm rfl)
        | apply State.os_same (mask_sub hm rfl)
    | (simp only [Same.lit]; with_reducible refine SameLit.of hm ?_ ?_)
    | (refine fun (p : Part) (hp : Nat.testBit _ (Part.ix p) = false) => ?_; cases p <;> first | exact absurd hp (by decide) | (simp only [Part.same, and_self]; done))
    | (extract_lets +onlyGivenNames x
       first
       | (refine Same.cut (m := m) (r := r) (x := x) ?_ ?_ <;> first | (clear_value x; intro hx) | subst x)
       | subst x)
    | split
    | dsimp only)

theorem burstAbandon_same {m : Nat} {r s : State} (hm : m &&& 8200 = 0) (h : Same m r s) :
    SameE m r (burstAbandon s) := by
  unfold burstAbandon
  repeat' (first
    | with_reducible
        first
        | assumption | apply SameE.ok | apply SameE.error | apply State.abandon_same (mask_sub hm rfl)
        | refine Same.ofE ‹_ = Except.ok _› ?_
    | (simp only [Same.lit]; with_reducible refine SameLit.of hm ?_ ?_)
    | (refine fun (p : Part) (hp : Nat.testBit _ (Part.ix p) = false) => ?_; cases p <;> first | exact absurd hp (by decide) | (simp only [Part.same, and_self]; done))
    | (extract_lets +onlyGivenNames x
       first
       | (refine Same.cut (m := m) (r := r) (x := x) ?_ ?_ <;> first | (clear_value x; intro hx) | subst x)
       | subst x)
    | split
    | dsimp only
    | (with_reducible intro s1 h1; dsimp only)
    | with_reducible intro s1 h1)

theorem execBurstRequest_same {m : Nat} {r s : State} (hm : m &&& 8490 = 0) (h : Same m r s) (t : Nat) (c : Nat) :
    SameO m r (execBurstRequest t c s) := by
  unfold execBurstRequest
  repeat' (first
    | with_reducible
        first
        | assumption | apply SameE.ok | apply SameE.error | apply SameO.next
        | apply State.hostWrite_same (mask_sub hm rfl) | apply State.at_same (mask_sub hm rfl)
        | apply burstRequest_same (mask_sub hm rfl) | refine Same.ofE ‹_ = Except.ok _› ?_
    | (with_reducible intro s1 h1; dsimp only)
    | with_reducible intro s1 h1)

theorem execBurstAbandon_same {m : Nat} {r s : State} (hm : m &&& 8490 = 0) (h : Same m r s) (t : Nat) (c : Nat) :
    SameO m r (execBurstAbandon t c s) := by
  unfold execBurstAbandon
  repeat' (first
    | with_reducible
        first
        | assumption | apply SameE.ok | apply SameE.error | apply SameO.next
        | apply State.hostWrite_same (mask_sub hm rfl) | apply State.at_same (mask_sub hm rfl)
        | apply burstAbandon_same (mask_sub hm rfl) | refine Same.ofE ‹_ = Except.ok _› ?_
    | (with_reducible intro s1 h1; dsimp only)
    | with_reducible intro s1 h1)

theorem State.burstRecord_same {m : Nat} {r s : State} (hm : m &&& 2361352 = 0) (h : Same m r s) (q : Nat)
    (b : Burst) (payload : List Byte) :
    Same m r (State.burstRecord s q b payload) := by
  unfold State.burstRecord
  repeat' (first
    | with_reducible
        first
        | assumption | apply Same.ite | apply State.offer_same (mask_sub hm rfl) | apply Same.ite_snd
        | refine Same.snd ‹_ = (_, _)› ?_
    | dsimp only)

theorem execBurstReadout_same {m : Nat} {r s : State} (hm : m &&& 2369550 = 0) (h : Same m r s) (t : Nat) :
    SameO m r (execBurstReadout t s) := by
  unfold execBurstReadout
  repeat' (first
    | with_reducible
        first
        | assumption | apply Same.ite | apply SameO.ite | apply SameO.next | apply State.at_same (mask_sub hm rfl)
        | apply State.burstRecord_same (mask_sub hm rfl) | apply State.endReadout_same (mask_sub hm rfl)
        | apply State.burstPayload_same (mask_sub hm rfl) | apply State.setBurst_same (mask_sub hm rfl)
        | apply Same.ite_snd | refine Same.snd ‹_ = (_, _)› ?_
    | (simp only [Same.lit]; with_reducible refine SameLit.of hm ?_ ?_)
    | (refine fun (p : Part) (hp : Nat.testBit _ (Part.ix p) = false) => ?_; cases p <;> first | exact absurd hp (by decide) | (simp only [Part.same, and_self]; done))
    | (extract_lets +onlyGivenNames x
       first
       | (refine Same.cut (m := m) (r := r) (x := x) ?_ ?_ <;> first | (clear_value x; intro hx) | subst x)
       | subst x)
    | split
    | dsimp only)

end Sys2Proof.Machine
end

