-- ==== Sys2Proof/Laws/SameSesame.lean ====
section
/-! SUPPORT. Which parts each function of the model leaves as they were:
the waterfall port, captures and trigger sequences. -/

namespace Sys2Proof.Machine

open Sys2Proof

set_option linter.unusedSimpArgs false
set_option linter.unusedVariables false

/-! ## Sunflower -/

theorem State.sunScan_same {m : Nat} {r s : State} (hm : m &&& 1048608 = 0) (h : Same m r s) :
    Same m r (State.sunScan s) := by
  unfold State.sunScan
  repeat' (first
    | with_reducible
        first
        | assumption | apply Same.ite | apply State.emit_same (mask_sub hm rfl)
        | refine Same.foldl (fun _ _ _ => ?_) _ ?_
    | (simp only [Same.lit]; with_reducible refine SameLit.of hm ?_ ?_)
    | (refine fun (p : Part) (hp : Nat.testBit _ (Part.ix p) = false) => ?_; cases p <;> first | exact absurd hp (by decide) | (simp only [Part.same, and_self]; done))
    | (extract_lets +onlyGivenNames x
       first
       | (refine Same.cut (m := m) (r := r) (x := x) ?_ ?_ <;> first | (clear_value x; intro hx) | subst x)
       | subst x)
    | split
    | dsimp only
    | (with_reducible intro s1 h1; dsimp only)
    | with_reducible intro s1 h1)

theorem State.waterfall_same {m : Nat} {r s : State} (hm : m &&& 9437228 = 0) (h : Same m r s) (first : Nat) (count : Nat) :
    Same m r (State.waterfall s first count) := by
  unfold State.waterfall
  repeat' (first
    | with_reducible
        first
        | assumption | apply Same.ite | apply State.sunScan_same (mask_sub hm rfl)
        | apply State.draw_same (mask_sub hm rfl) | apply State.os_same (mask_sub hm rfl) | apply Same.ite_snd
        | refine Same.snd ‹_ = (_, _)› ?_
    | (simp only [Same.lit]; with_reducible refine SameLit.of hm ?_ ?_)
    | (refine fun (p : Part) (hp : Nat.testBit _ (Part.ix p) = false) => ?_; cases p <;> first | exact absurd hp (by decide) | (simp only [Part.same, and_self]; done))
    | (extract_lets +onlyGivenNames x
       first
       | (refine Same.cut (m := m) (r := r) (x := x) ?_ ?_ <;> first | (clear_value x; intro hx) | subst x)
       | subst x)
    | split
    | dsimp only)

theorem ownerWrite_same {m : Nat} {r s : State} (hm : m &&& 1310760 = 0) (h : Same m r s) (v : Nat) :
    SameE m r (ownerWrite v s) := by
  unfold ownerWrite
  repeat' (first
    | with_reducible
        first
        | assumption | apply Same.ite | apply SameE.ite | apply SameE.ok | apply SameE.error
        | apply State.os_same (mask_sub hm rfl) | apply State.sunScan_same (mask_sub hm rfl)
        | refine Same.ofE ‹_ = Except.ok _› ?_
    | (simp only [Same.lit]; with_reducible refine SameLit.of hm ?_ ?_)
    | (refine fun (p : Part) (hp : Nat.testBit _ (Part.ix p) = false) => ?_; cases p <;> first | exact absurd hp (by decide) | (simp only [Part.same, and_self]; done))
    | (extract_lets +onlyGivenNames x
       first
       | (refine Same.cut (m := m) (r := r) (x := x) ?_ ?_ <;> first | (clear_value x; intro hx) | subst x)
       | subst x)
    | split
    | dsimp only
    | (with_reducible intro s1 h1; dsimp only)
    | with_reducible intro s1 h1)

theorem execOwnerWrite_same {m : Nat} {r s : State} (hm : m &&& 1311018 = 0) (h : Same m r s) (t : Nat) (c : Nat)
    (owner : Nat) :
    SameO m r (execOwnerWrite t c owner s) := by
  unfold execOwnerWrite
  repeat' (first
    | with_reducible
        first
        | assumption | apply SameE.ok | apply SameE.error | apply SameO.next
        | apply State.hostWrite_same (mask_sub hm rfl) | apply State.at_same (mask_sub hm rfl)
        | apply ownerWrite_same (mask_sub hm rfl) | refine Same.ofE ‹_ = Except.ok _› ?_
    | (with_reducible intro s1 h1; dsimp only)
    | with_reducible intro s1 h1)

theorem sunflowerEnable_same {m : Nat} {r s : State} (hm : m &&& 1048584 = 0) (h : Same m r s) (v : Nat) :
    SameE m r (sunflowerEnable v s) := by
  unfold sunflowerEnable
  repeat' (first
    | with_reducible
        first
        | assumption | apply Same.ite | apply SameE.ite | apply SameE.ok | apply SameE.error
        | apply require_same (mask_sub hm rfl) | apply State.os_same (mask_sub hm rfl)
        | refine Same.ofE ‹_ = Except.ok _› ?_
    | (simp only [Same.lit]; with_reducible refine SameLit.of hm ?_ ?_)
    | (refine fun (p : Part) (hp : Nat.testBit _ (Part.ix p) = false) => ?_; cases p <;> first | exact absurd hp (by decide) | (simp only [Part.same, and_self]; done))
    | (extract_lets +onlyGivenNames x
       first
       | (refine Same.cut (m := m) (r := r) (x := x) ?_ ?_ <;> first | (clear_value x; intro hx) | subst x)
       | subst x)
    | split
    | dsimp only
    | (with_reducible intro s1 h1; dsimp only)
    | with_reducible intro s1 h1)

theorem execSunflowerEnable_same {m : Nat} {r s : State} (hm : m &&& 1048874 = 0) (h : Same m r s) (t : Nat) (c : Nat) :
    SameO m r (execSunflowerEnable t c s) := by
  unfold execSunflowerEnable
  repeat' (first
    | with_reducible
        first
        | assumption | apply SameE.ok | apply SameE.error | apply SameO.next
        | apply State.hostWrite_same (mask_sub hm rfl) | apply State.at_same (mask_sub hm rfl)
        | apply sunflowerEnable_same (mask_sub hm rfl) | refine Same.ofE ‹_ = Except.ok _› ?_
    | (with_reducible intro s1 h1; dsimp only)
    | with_reducible intro s1 h1)

theorem execSunflowerDisable_same {m : Nat} {r s : State} (hm : m &&& 1048874 = 0) (h : Same m r s) (t : Nat) (c : Nat) :
    SameO m r (execSunflowerDisable t c s) := by
  unfold execSunflowerDisable
  repeat' (first
    | with_reducible
        first
        | assumption | apply SameE.ok | apply SameE.error | apply SameO.next
        | apply State.hostWrite_same (mask_sub hm rfl) | apply State.at_same (mask_sub hm rfl)
        | apply sunflowerEnable_same (mask_sub hm rfl) | refine Same.ofE ‹_ = Except.ok _› ?_
    | (with_reducible intro s1 h1; dsimp only)
    | with_reducible intro s1 h1)

theorem execVerticalSync_same {m : Nat} {r s : State} (hm : m &&& 1048618 = 0) (h : Same m r s) (t : Nat) :
    SameO m r (execVerticalSync t s) := by
  unfold execVerticalSync
  repeat' (first
    | with_reducible
        first
        | assumption | apply Same.ite | apply SameO.ite | apply SameO.next | apply State.at_same (mask_sub hm rfl)
        | apply State.bump_same (mask_sub hm rfl) | apply State.sunScan_same (mask_sub hm rfl)
    | (simp only [Same.lit]; with_reducible refine SameLit.of hm ?_ ?_)
    | (refine fun (p : Part) (hp : Nat.testBit _ (Part.ix p) = false) => ?_; cases p <;> first | exact absurd hp (by decide) | (simp only [Part.same, and_self]; done))
    | (extract_lets +onlyGivenNames x
       first
       | (refine Same.cut (m := m) (r := r) (x := x) ?_ ?_ <;> first | (clear_value x; intro hx) | subst x)
       | subst x)
    | split
    | dsimp only)

theorem execUnderrun_same {m : Nat} {r s : State} (hm : m &&& 1050666 = 0) (h : Same m r s) (t : Nat) (line : Nat) :
    SameO m r (execUnderrun t line s) := by
  unfold execUnderrun
  repeat' (first
    | with_reducible
        first
        | assumption | apply Same.ite | apply SameO.ite | apply SameO.next | apply State.at_same (mask_sub hm rfl)
        | apply State.emit_same (mask_sub hm rfl) | apply State.count_same (mask_sub hm rfl)
        | apply State.bump_same (mask_sub hm rfl) | apply State.sunScan_same (mask_sub hm rfl) | apply Same.ite_snd
        | refine Same.snd ‹_ = (_, _)› ?_
    | (simp only [Same.lit]; with_reducible refine SameLit.of hm ?_ ?_)
    | (refine fun (p : Part) (hp : Nat.testBit _ (Part.ix p) = false) => ?_; cases p <;> first | exact absurd hp (by decide) | (simp only [Part.same, and_self]; done))
    | (extract_lets +onlyGivenNames x
       first
       | (refine Same.cut (m := m) (r := r) (x := x) ?_ ?_ <;> first | (clear_value x; intro hx) | subst x)
       | subst x)
    | split
    | dsimp only)

/-! ## Capture -/

theorem State.setCap_same {m : Nat} {r s : State} (hm : m &&& 524288 = 0) (h : Same m r s) (c : Nat)
    (f : Capture → Capture) :
    Same m r (State.setCap s c f) := by
  unfold State.setCap
  repeat' (first
    | with_reducible first | assumption
    | (simp only [Same.lit]; with_reducible refine SameLit.of hm ?_ ?_)
    | (refine fun (p : Part) (hp : Nat.testBit _ (Part.ix p) = false) => ?_; cases p <;> first | exact absurd hp (by decide) | (simp only [Part.same, and_self]; done))
    | dsimp only)

theorem State.endPost_same {m : Nat} {r s : State} (hm : m &&& 524296 = 0) (h : Same m r s) (c : Nat) (flag : Nat) :
    Same m r (State.endPost s c flag) := by
  unfold State.endPost
  repeat' (first
    | with_reducible
        first
        | assumption | apply State.bump_same (mask_sub hm rfl) | apply State.setCap_same (mask_sub hm rfl)
        | apply State.os_same (mask_sub hm rfl)
    | (extract_lets +onlyGivenNames x
       first
       | (refine Same.cut (m := m) (r := r) (x := x) ?_ ?_ <;> first | (clear_value x; intro hx) | subst x)
       | subst x)
    | split
    | dsimp only)

theorem State.storeEntry_same {m : Nat} {r s : State} (hm : m &&& 524296 = 0) (h : Same m r s) (c : Nat)
    (bytes : List Byte) (slot : Nat) :
    Same m r (State.storeEntry s c bytes slot) := by
  unfold State.storeEntry
  repeat' (first
    | with_reducible
        first
        | assumption | apply Same.ite | apply State.setCap_same (mask_sub hm rfl)
        | apply State.endPost_same (mask_sub hm rfl) | apply Same.ite_snd | refine Same.foldl (fun _ _ _ => ?_) _ ?_
        | refine Same.snd ‹_ = (_, _)› ?_
    | (extract_lets +onlyGivenNames x
       first
       | (refine Same.cut (m := m) (r := r) (x := x) ?_ ?_ <;> first | (clear_value x; intro hx) | subst x)
       | subst x)
    | split
    | dsimp only
    | (with_reducible intro s1 h1; dsimp only)
    | with_reducible intro s1 h1)

theorem State.attempt_same {m : Nat} {r s : State} (hm : m &&& 526344 = 0) (h : Same m r s) (c : Nat) (budget : Nat)
    (bytes : Bool → List Byte) (slot : Nat) :
    Same m r (State.attempt s c budget bytes slot).2 := by
  unfold State.attempt
  repeat' (first
    | with_reducible
        first
        | assumption | apply Same.ite | apply State.storeEntry_same (mask_sub hm rfl)
        | apply State.setCap_same (mask_sub hm rfl) | apply State.count_same (mask_sub hm rfl)
        | apply State.bump_same (mask_sub hm rfl) | apply Same.ite_snd | refine Same.snd ‹_ = (_, _)› ?_
    | (extract_lets +onlyGivenNames x
       first
       | (refine Same.cut (m := m) (r := r) (x := x) ?_ ?_ <;> first | (clear_value x; intro hx) | subst x)
       | subst x)
    | split
    | dsimp only)

theorem State.useInstant_same {m : Nat} {r s : State} (hm : m &&& 526344 = 0) (h : Same m r s) (c : Nat)
    (budget : Nat) (tick : Nat) :
    Same m r (State.useInstant s c budget tick) := by
  unfold State.useInstant
  repeat' (first
    | with_reducible
        first
        | assumption | apply Same.ite | apply State.attempt_same (mask_sub hm rfl)
        | apply State.setCap_same (mask_sub hm rfl) | apply Same.ite_snd | refine Same.foldl (fun _ _ _ => ?_) _ ?_
        | refine Same.snd ‹_ = (_, _)› ?_
    | (extract_lets +onlyGivenNames x
       first
       | (refine Same.cut (m := m) (r := r) (x := x) ?_ ?_ <;> first | (clear_value x; intro hx) | subst x)
       | subst x)
    | split
    | dsimp only
    | (with_reducible intro s1 h1; dsimp only)
    | with_reducible intro s1 h1)

theorem State.clockInstant_same {m : Nat} {r s : State} (hm : m &&& 526344 = 0) (h : Same m r s) (c : Nat) (tick : Nat) :
    Same m r (State.clockInstant s c tick) := by
  unfold State.clockInstant
  repeat' (first
    | with_reducible
        first
        | assumption | apply Same.ite | apply State.setCap_same (mask_sub hm rfl)
        | apply State.useInstant_same (mask_sub hm rfl)
    | (extract_lets +onlyGivenNames x
       first
       | (refine Same.cut (m := m) (r := r) (x := x) ?_ ?_ <;> first | (clear_value x; intro hx) | subst x)
       | subst x)
    | split
    | dsimp only)

theorem State.rollWindow_same {m : Nat} {r s : State} (hm : m &&& 524296 = 0) (h : Same m r s) (c : Nat) :
    Same m r (State.rollWindow s c) := by
  unfold State.rollWindow
  repeat' (first
    | with_reducible
        first
        | assumption | apply Same.ite | apply State.setCap_same (mask_sub hm rfl)
        | apply State.os_same (mask_sub hm rfl)
    | (extract_lets +onlyGivenNames x
       first
       | (refine Same.cut (m := m) (r := r) (x := x) ?_ ?_ <;> first | (clear_value x; intro hx) | subst x)
       | subst x)
    | split
    | dsimp only)

theorem State.rollWindows_same {m : Nat} {r s : State} (hm : m &&& 524296 = 0) (h : Same m r s) (c : Nat) :
    Same m r (State.rollWindows s c) := by
  unfold State.rollWindows
  repeat' (first
    | with_reducible
        first
        | assumption | apply State.rollWindow_same (mask_sub hm rfl) | refine Same.foldl (fun _ _ _ => ?_) _ ?_
    | (with_reducible intro s1 h1; dsimp only)
    | with_reducible intro s1 h1)

theorem State.captureInstant_same {m : Nat} {r s : State} (hm : m &&& 526344 = 0) (h : Same m r s) (c : Nat) (t : Nat) :
    Same m r (State.captureInstant s c t) := by
  unfold State.captureInstant
  repeat' (first
    | with_reducible
        first
        | assumption | apply Same.ite | apply State.endPost_same (mask_sub hm rfl)
        | apply State.rollWindows_same (mask_sub hm rfl) | apply State.clockInstant_same (mask_sub hm rfl)
        | refine Same.foldl (fun _ _ _ => ?_) _ ?_
    | (extract_lets +onlyGivenNames x
       first
       | (refine Same.cut (m := m) (r := r) (x := x) ?_ ?_ <;> first | (clear_value x; intro hx) | subst x)
       | subst x)
    | split
    | dsimp only
    | (with_reducible intro s1 h1; dsimp only)
    | with_reducible intro s1 h1)

theorem State.unhold_same {m : Nat} {r s : State} (hm : m &&& 524296 = 0) (h : Same m r s) (c : Nat) (sub : Nat) :
    Same m r (State.unhold s c sub) := by
  unfold State.unhold
  repeat' (first
    | with_reducible
        first
        | assumption | apply Same.ite | apply State.os_same (mask_sub hm rfl)
        | apply State.setCap_same (mask_sub hm rfl)
    | (extract_lets +onlyGivenNames x
       first
       | (refine Same.cut (m := m) (r := r) (x := x) ?_ ?_ <;> first | (clear_value x; intro hx) | subst x)
       | subst x)
    | split
    | dsimp only)

theorem State.applyHeld_same {m : Nat} {r s : State} (hm : m &&& 524296 = 0) (h : Same m r s) (c : Nat) :
    Same m r (State.applyHeld s c) := by
  unfold State.applyHeld
  repeat' (first
    | with_reducible
        first
        | assumption | apply State.unhold_same (mask_sub hm rfl) | apply State.os_same (mask_sub hm rfl)
    | (extract_lets +onlyGivenNames x
       first
       | (refine Same.cut (m := m) (r := r) (x := x) ?_ ?_ <;> first | (clear_value x; intro hx) | subst x)
       | subst x)
    | split
    | dsimp only)

theorem State.fillCapture_same {m : Nat} {r s : State} (hm : m &&& 524296 = 0) (h : Same m r s) (c : Nat) (f : Nat) :
    Same m r (State.fillCapture s c f) := by
  unfold State.fillCapture
  repeat' (first
    | with_reducible
        first
        | assumption | apply Same.ite | apply State.applyHeld_same (mask_sub hm rfl)
        | apply State.os_same (mask_sub hm rfl) | apply State.setCap_same (mask_sub hm rfl)
    | (extract_lets +onlyGivenNames x
       first
       | (refine Same.cut (m := m) (r := r) (x := x) ?_ ?_ <;> first | (clear_value x; intro hx) | subst x)
       | subst x)
    | split
    | dsimp only)

theorem State.capturePayload_same {m : Nat} {r s : State} (hm : m &&& 4 = 0) (h : Same m r s) (c : Nat) (extra : Nat) :
    Same m r (State.capturePayload s c extra).2 := by
  unfold State.capturePayload
  repeat' (first
    | with_reducible
        first
        | assumption | apply Same.ite | apply State.garble_same (mask_sub hm rfl) | apply Same.ite_snd
        | refine Same.snd ‹_ = (_, _)› ?_
    | (extract_lets +onlyGivenNames x
       first
       | (refine Same.cut (m := m) (r := r) (x := x) ?_ ?_ <;> first | (clear_value x; intro hx) | subst x)
       | subst x)
    | split
    | dsimp only)

theorem State.idleCapture_same {m : Nat} {r s : State} (hm : m &&& 524296 = 0) (h : Same m r s) (c : Nat) :
    Same m r (State.idleCapture s c) := by
  unfold State.idleCapture
  repeat' (first
    | with_reducible
        first
        | assumption | apply State.setCap_same (mask_sub hm rfl) | apply State.os_same (mask_sub hm rfl))

theorem State.disarmCapture_same {m : Nat} {r s : State} (hm : m &&& 524300 = 0) (h : Same m r s) (c : Nat) :
    Same m r (State.disarmCapture s c) := by
  unfold State.disarmCapture
  repeat' (first
    | with_reducible
        first
        | assumption | apply Same.ite | apply State.capturePayload_same (mask_sub hm rfl)
        | apply State.setCap_same (mask_sub hm rfl) | apply State.idleCapture_same (mask_sub hm rfl)
        | apply State.applyHeld_same (mask_sub hm rfl) | apply Same.ite_snd | refine Same.snd ‹_ = (_, _)› ?_
    | (extract_lets +onlyGivenNames x
       first
       | (refine Same.cut (m := m) (r := r) (x := x) ?_ ?_ <;> first | (clear_value x; intro hx) | subst x)
       | subst x)
    | split
    | dsimp only)

theorem State.captureTrigger_same {m : Nat} {r s : State} (hm : m &&& 526344 = 0) (h : Same m r s) (c : Nat)
    (t : Nat) (desc : List Byte) :
    Same m r (State.captureTrigger s c t desc) := by
  unfold State.captureTrigger
  repeat' (first
    | with_reducible
        first
        | assumption | apply Same.ite | apply State.setCap_same (mask_sub hm rfl)
        | apply State.os_same (mask_sub hm rfl) | apply State.countAt_same (mask_sub hm rfl)
        | apply State.bump_same (mask_sub hm rfl)
    | (extract_lets +onlyGivenNames x
       first
       | (refine Same.cut (m := m) (r := r) (x := x) ?_ ?_ <;> first | (clear_value x; intro hx) | subst x)
       | subst x)
    | split
    | dsimp only)

theorem State.capturesLost_same {m : Nat} {r s : State} (hm : m &&& 524296 = 0) (h : Same m r s) :
    Same m r (State.capturesLost s) := by
  unfold State.capturesLost
  repeat' (first
    | with_reducible
        first
        | assumption | apply State.setCap_same (mask_sub hm rfl) | apply State.applyHeld_same (mask_sub hm rfl)
        | apply State.idleCapture_same (mask_sub hm rfl) | refine Same.foldl (fun _ _ _ => ?_) _ ?_
    | (with_reducible intro s1 h1; dsimp only)
    | with_reducible intro s1 h1)

theorem State.capturesStop_same {m : Nat} {r s : State} (hm : m &&& 524296 = 0) (h : Same m r s) :
    Same m r (State.capturesStop s) := by
  unfold State.capturesStop
  repeat' (first
    | with_reducible
        first
        | assumption | apply Same.ite | apply State.endPost_same (mask_sub hm rfl)
        | refine Same.foldl (fun _ _ _ => ?_) _ ?_
    | (with_reducible intro s1 h1; dsimp only)
    | with_reducible intro s1 h1)

theorem State.capturesTake_same {m : Nat} {r s : State} (hm : m &&& 524296 = 0) (h : Same m r s) (old : Option Plan)
    (pl : Plan) (t : Nat) :
    Same m r (State.capturesTake s old pl t) := by
  unfold State.capturesTake
  repeat' (first
    | with_reducible
        first
        | assumption | apply Same.ite | apply State.endPost_same (mask_sub hm rfl)
        | apply State.idleCapture_same (mask_sub hm rfl) | apply State.setCap_same (mask_sub hm rfl)
        | apply State.os_same (mask_sub hm rfl) | refine Same.foldl (fun _ _ _ => ?_) _ ?_
    | (with_reducible intro s1 h1; dsimp only)
    | with_reducible intro s1 h1)

theorem captureArm_same {m : Nat} {r s : State} (hm : m &&& 524288 = 0) (h : Same m r s) (c : Nat) :
    SameE m r (captureArm c s) := by
  unfold captureArm
  repeat' (first
    | with_reducible
        first
        | assumption | apply SameE.ok | apply SameE.error | apply require_same (mask_sub hm rfl)
        | apply State.setCap_same (mask_sub hm rfl) | refine Same.ofE ‹_ = Except.ok _› ?_
    | (with_reducible intro s1 h1; dsimp only)
    | with_reducible intro s1 h1)

theorem execCaptureArm_same {m : Nat} {r s : State} (hm : m &&& 524586 = 0) (h : Same m r s) (t : Nat) (c : Nat)
    (buf : Nat) :
    SameO m r (execCaptureArm t c buf s) := by
  unfold execCaptureArm
  repeat' (first
    | with_reducible
        first
        | assumption | apply SameE.ok | apply SameE.error | apply SameO.next
        | apply State.hostWrite_same (mask_sub hm rfl) | apply State.at_same (mask_sub hm rfl)
        | apply captureArm_same (mask_sub hm rfl) | refine Same.ofE ‹_ = Except.ok _› ?_
    | (with_reducible intro s1 h1; dsimp only)
    | with_reducible intro s1 h1)

theorem captureDisarm_same {m : Nat} {r s : State} (hm : m &&& 524288 = 0) (h : Same m r s) (c : Nat) :
    SameE m r (captureDisarm c s) := by
  unfold captureDisarm
  repeat' (first
    | with_reducible
        first
        | assumption | apply SameE.ok | apply SameE.error | apply State.setCap_same (mask_sub hm rfl)
        | refine Same.ofE ‹_ = Except.ok _› ?_
    | (with_reducible intro s1 h1; dsimp only)
    | with_reducible intro s1 h1)

theorem execCaptureDisarm_same {m : Nat} {r s : State} (hm : m &&& 524586 = 0) (h : Same m r s) (t : Nat) (c : Nat)
    (buf : Nat) :
    SameO m r (execCaptureDisarm t c buf s) := by
  unfold execCaptureDisarm
  repeat' (first
    | with_reducible
        first
        | assumption | apply SameE.ok | apply SameE.error | apply SameO.next
        | apply State.hostWrite_same (mask_sub hm rfl) | apply State.at_same (mask_sub hm rfl)
        | apply captureDisarm_same (mask_sub hm rfl) | refine Same.ofE ‹_ = Except.ok _› ?_
    | (with_reducible intro s1 h1; dsimp only)
    | with_reducible intro s1 h1)

theorem captureLength_same {m : Nat} {r s : State} (hm : m &&& 524296 = 0) (h : Same m r s) (c : Nat) (sub : Nat) (v : Nat) :
    SameE m r (captureLength c sub v s) := by
  unfold captureLength
  repeat' (first
    | with_reducible
        first
        | assumption | apply Same.ite | apply SameE.ite | apply SameE.ok | apply SameE.error
        | apply State.unhold_same (mask_sub hm rfl) | apply State.os_same (mask_sub hm rfl)
        | apply State.setCap_same (mask_sub hm rfl) | apply require_same (mask_sub hm rfl)
        | apply State.idleCapture_same (mask_sub hm rfl) | refine Same.ofE ‹_ = Except.ok _› ?_
    | (extract_lets +onlyGivenNames x
       first
       | (refine Same.cut (m := m) (r := r) (x := x) ?_ ?_ <;> first | (clear_value x; intro hx) | subst x)
       | subst x)
    | split
    | dsimp only
    | (with_reducible intro s1 h1; dsimp only)
    | with_reducible intro s1 h1)

theorem execCaptureLengthWrite_same {m : Nat} {r s : State} (hm : m &&& 524586 = 0) (h : Same m r s) (t : Nat)
    (c : Nat) (buf : Nat) (sub : Nat) (value : Nat) :
    SameO m r (execCaptureLengthWrite t c buf sub value s) := by
  unfold execCaptureLengthWrite
  repeat' (first
    | with_reducible
        first
        | assumption | apply Same.ite | apply SameE.ite | apply SameO.ite | apply SameE.ok | apply SameE.error
        | apply SameO.next | apply State.hostWrite_same (mask_sub hm rfl) | apply State.at_same (mask_sub hm rfl)
        | apply captureLength_same (mask_sub hm rfl) | refine Same.ofE ‹_ = Except.ok _› ?_
    | (with_reducible intro s1 h1; dsimp only)
    | with_reducible intro s1 h1)

theorem captureConfig_same {m : Nat} {r s : State} (hm : m &&& 8 = 0) (h : Same m r s) (c : Nat) (sub : Nat) (v : Nat) :
    SameE m r (captureConfig c sub v s) := by
  unfold captureConfig
  repeat' (first
    | with_reducible
        first
        | assumption | apply SameE.ok | apply SameE.error | apply State.os_same (mask_sub hm rfl)
        | apply require_same (mask_sub hm rfl) | refine Same.ofE ‹_ = Except.ok _› ?_
    | (extract_lets +onlyGivenNames x
       first
       | (refine Same.cut (m := m) (r := r) (x := x) ?_ ?_ <;> first | (clear_value x; intro hx) | subst x)
       | subst x)
    | split
    | dsimp only
    | (with_reducible intro s1 h1; dsimp only)
    | with_reducible intro s1 h1)

theorem execRateWindowEnd_same {m : Nat} {r s : State} (hm : m &&& 524298 = 0) (h : Same m r s) (t : Nat) (buf : Nat) :
    SameO m r (execRateWindowEnd t buf s) := by
  unfold execRateWindowEnd
  repeat' (first
    | with_reducible
        first
        | assumption | apply Same.ite | apply SameO.ite | apply SameO.next | apply State.at_same (mask_sub hm rfl)
        | apply State.rollWindow_same (mask_sub hm rfl)
    | (extract_lets +onlyGivenNames x
       first
       | (refine Same.cut (m := m) (r := r) (x := x) ?_ ?_ <;> first | (clear_value x; intro hx) | subst x)
       | subst x)
    | split
    | dsimp only)

theorem execPostTimeLimit_same {m : Nat} {r s : State} (hm : m &&& 524298 = 0) (h : Same m r s) (t : Nat) (buf : Nat) :
    SameO m r (execPostTimeLimit t buf s) := by
  unfold execPostTimeLimit
  repeat' (first
    | with_reducible
        first
        | assumption | apply Same.ite | apply SameO.ite | apply SameO.next | apply State.at_same (mask_sub hm rfl)
        | apply State.endPost_same (mask_sub hm rfl)
    | (extract_lets +onlyGivenNames x
       first
       | (refine Same.cut (m := m) (r := r) (x := x) ?_ ?_ <;> first | (clear_value x; intro hx) | subst x)
       | subst x)
    | split
    | dsimp only)

theorem State.endReading_same {m : Nat} {r s : State} (hm : m &&& 524296 = 0) (h : Same m r s) (c : Nat) :
    Same m r (State.endReading s c) := by
  unfold State.endReading
  repeat' (first
    | with_reducible
        first
        | assumption | apply Same.ite | apply State.setCap_same (mask_sub hm rfl)
        | apply State.os_same (mask_sub hm rfl))

theorem State.captureRecord_same {m : Nat} {r s : State} (hm : m &&& 2361352 = 0) (h : Same m r s) (q : Nat)
    (p : List Byte) (sweep : Nat) (stamp : Nat) :
    Same m r (State.captureRecord s q p sweep stamp) := by
  unfold State.captureRecord
  repeat' (first
    | with_reducible first | assumption | apply State.offer_same (mask_sub hm rfl) | refine Same.snd ‹_ = (_, _)› ?_
    | dsimp only)

theorem State.writeLast_same {m : Nat} {r s : State} (hm : m &&& 2885640 = 0) (h : Same m r s) (c : Nat) (q : Nat)
    (r' : List Byte × Nat × Nat) :
    Same m r (State.writeLast s c q r') := by
  unfold State.writeLast
  repeat' (first
    | with_reducible
        first
        | assumption | apply Same.ite | apply State.captureRecord_same (mask_sub hm rfl)
        | apply State.setCap_same (mask_sub hm rfl)
    | dsimp only)

theorem State.writeNext_same {m : Nat} {r s : State} (hm : m &&& 2885644 = 0) (h : Same m r s) (c : Nat) (q : Nat)
    (extra : Nat) :
    Same m r (State.writeNext s c q extra) := by
  unfold State.writeNext
  repeat' (first
    | with_reducible
        first
        | assumption | apply Same.ite | apply State.capturePayload_same (mask_sub hm rfl)
        | apply State.setCap_same (mask_sub hm rfl) | apply State.captureRecord_same (mask_sub hm rfl)
        | apply State.endReading_same (mask_sub hm rfl) | apply Same.ite_snd | refine Same.snd ‹_ = (_, _)› ?_
    | (extract_lets +onlyGivenNames x
       first
       | (refine Same.cut (m := m) (r := r) (x := x) ?_ ?_ <;> first | (clear_value x; intro hx) | subst x)
       | subst x)
    | split
    | dsimp only)

theorem execCaptureRecordWrite_same {m : Nat} {r s : State} (hm : m &&& 2885646 = 0) (h : Same m r s) (t : Nat)
    (buf : Nat) (memError : Bool) :
    SameO m r (execCaptureRecordWrite t buf memError s) := by
  unfold execCaptureRecordWrite
  repeat' (first
    | with_reducible
        first
        | assumption | apply Same.ite | apply SameO.ite | apply SameO.next | apply State.at_same (mask_sub hm rfl)
        | apply State.writeLast_same (mask_sub hm rfl) | apply State.setCap_same (mask_sub hm rfl)
        | apply State.endReading_same (mask_sub hm rfl) | apply State.writeNext_same (mask_sub hm rfl)
    | (extract_lets +onlyGivenNames x
       first
       | (refine Same.cut (m := m) (r := r) (x := x) ?_ ?_ <;> first | (clear_value x; intro hx) | subst x)
       | subst x)
    | split
    | dsimp only)

/-! ## Sesame -/

theorem State.setZone_same {m : Nat} {r s : State} (hm : m &&& 262144 = 0) (h : Same m r s) (z : Nat) (f : Zone → Zone) :
    Same m r (State.setZone s z f) := by
  unfold State.setZone
  repeat' (first
    | with_reducible first | assumption
    | (simp only [Same.lit]; with_reducible refine SameLit.of hm ?_ ?_)
    | (refine fun (p : Part) (hp : Nat.testBit _ (Part.ix p) = false) => ?_; cases p <;> first | exact absurd hp (by decide) | (simp only [Part.same, and_self]; done))
    | (extract_lets +onlyGivenNames x
       first
       | (refine Same.cut (m := m) (r := r) (x := x) ?_ ?_ <;> first | (clear_value x; intro hx) | subst x)
       | subst x)
    | split
    | dsimp only)

theorem State.detectZone_same {m : Nat} {r s : State} (hm : m &&& 262144 = 0) (h : Same m r s) (f : Flight)
    (w : TickWork) (z : Nat) :
    Same m r (State.detectZone s f w z) := by
  unfold State.detectZone
  repeat' (first
    | with_reducible
        first
        | assumption | apply Same.ite | apply State.setZone_same (mask_sub hm rfl) | apply Same.ite_snd
        | refine Same.snd ‹_ = (_, _)› ?_
    | (extract_lets +onlyGivenNames x
       first
       | (refine Same.cut (m := m) (r := r) (x := x) ?_ ?_ <;> first | (clear_value x; intro hx) | subst x)
       | subst x)
    | split
    | dsimp only)

theorem State.oweUpdates_same {m : Nat} {r s : State} (hm : m &&& 262144 = 0) (h : Same m r s) (f : Flight) :
    Same m r (State.oweUpdates s f) := by
  unfold State.oweUpdates
  repeat' (first
    | with_reducible
        first
        | assumption | apply Same.ite | apply State.setZone_same (mask_sub hm rfl)
        | refine Same.foldl (fun _ _ _ => ?_) _ ?_
    | (extract_lets +onlyGivenNames x
       first
       | (refine Same.cut (m := m) (r := r) (x := x) ?_ ?_ <;> first | (clear_value x; intro hx) | subst x)
       | subst x)
    | split
    | dsimp only
    | (with_reducible intro s1 h1; dsimp only)
    | with_reducible intro s1 h1)

theorem State.countUpdate_same {m : Nat} {r s : State} (hm : m &&& 2048 = 0) (h : Same m r s) (sweep : Nat)
    (r' : Option (Bool × Bool × Nat)) :
    Same m r (State.countUpdate s sweep r') := by
  unfold State.countUpdate
  repeat' (first
    | with_reducible first | assumption | apply State.countAt_same (mask_sub hm rfl)
    | split
    | dsimp only)

theorem State.countOwed_same {m : Nat} {r s : State} (hm : m &&& 264192 = 0) (h : Same m r s) (fr : Frame) :
    Same m r (State.countOwed s fr) := by
  unfold State.countOwed
  repeat' (first
    | with_reducible
        first
        | assumption | apply Same.ite | apply State.countUpdate_same (mask_sub hm rfl)
        | refine Same.foldl (fun _ _ _ => ?_) _ ?_
    | (simp only [Same.lit]; with_reducible refine SameLit.of hm ?_ ?_)
    | (refine fun (p : Part) (hp : Nat.testBit _ (Part.ix p) = false) => ?_; cases p <;> first | exact absurd hp (by decide) | (simp only [Part.same, and_self]; done))
    | (extract_lets +onlyGivenNames x
       first
       | (refine Same.cut (m := m) (r := r) (x := x) ?_ ?_ <;> first | (clear_value x; intro hx) | subst x)
       | subst x)
    | split
    | dsimp only
    | (with_reducible intro s1 h1; dsimp only)
    | with_reducible intro s1 h1)

theorem State.updateZone_same {m : Nat} {r s : State} (hm : m &&& 264192 = 0) (h : Same m r s) (zone : Nat) (o : Owed) :
    Same m r (State.updateZone s zone o) := by
  unfold State.updateZone
  repeat' (first
    | with_reducible
        first
        | assumption | apply Same.ite | apply State.countUpdate_same (mask_sub hm rfl)
        | apply State.setZone_same (mask_sub hm rfl)
    | (simp only [Same.lit]; with_reducible refine SameLit.of hm ?_ ?_)
    | (refine fun (p : Part) (hp : Nat.testBit _ (Part.ix p) = false) => ?_; cases p <;> first | exact absurd hp (by decide) | (simp only [Part.same, and_self]; done))
    | (extract_lets +onlyGivenNames x
       first
       | (refine Same.cut (m := m) (r := r) (x := x) ?_ ?_ <;> first | (clear_value x; intro hx) | subst x)
       | subst x)
    | split
    | dsimp only)

theorem execZoneUpdate_same {m : Nat} {r s : State} (hm : m &&& 264194 = 0) (h : Same m r s) (t : Nat) (zone : Nat)
    (sweep : Nat) (slot : Nat) :
    SameO m r (execZoneUpdate t zone sweep slot s) := by
  unfold execZoneUpdate
  repeat' (first
    | with_reducible
        first
        | assumption | apply Same.ite | apply SameO.ite | apply SameO.next | apply State.at_same (mask_sub hm rfl)
        | apply State.updateZone_same (mask_sub hm rfl) | apply Same.ite_snd | refine Same.snd ‹_ = (_, _)› ?_
    | (simp only [Same.lit]; with_reducible refine SameLit.of hm ?_ ?_)
    | (refine fun (p : Part) (hp : Nat.testBit _ (Part.ix p) = false) => ?_; cases p <;> first | exact absurd hp (by decide) | (simp only [Part.same, and_self]; done))
    | (extract_lets +onlyGivenNames x
       first
       | (refine Same.cut (m := m) (r := r) (x := x) ?_ ?_ <;> first | (clear_value x; intro hx) | subst x)
       | subst x)
    | split
    | dsimp only)

theorem State.loadThresholds_same {m : Nat} {r s : State} (hm : m &&& 8 = 0) (h : Same m r s) (pl : Plan) :
    Same m r (State.loadThresholds s pl) := by
  unfold State.loadThresholds
  repeat' (first
    | with_reducible
        first
        | assumption | apply State.os_same (mask_sub hm rfl) | refine Same.foldl (fun _ _ _ => ?_) _ ?_
    | (with_reducible intro s1 h1; dsimp only)
    | with_reducible intro s1 h1)

theorem State.zonesTake_same {m : Nat} {r s : State} (hm : m &&& 262152 = 0) (h : Same m r s) (old : Option Plan)
    (pl : Plan) :
    Same m r (State.zonesTake s old pl) := by
  unfold State.zonesTake
  repeat' (first
    | with_reducible first | assumption | apply Same.ite | apply State.loadThresholds_same (mask_sub hm rfl)
    | (simp only [Same.lit]; with_reducible refine SameLit.of hm ?_ ?_)
    | (refine fun (p : Part) (hp : Nat.testBit _ (Part.ix p) = false) => ?_; cases p <;> first | exact absurd hp (by decide) | (simp only [Part.same, and_self]; done))
    | (extract_lets +onlyGivenNames x
       first
       | (refine Same.cut (m := m) (r := r) (x := x) ?_ ?_ <;> first | (clear_value x; intro hx) | subst x)
       | subst x)
    | split
    | dsimp only)

theorem State.zonesStop_same {m : Nat} {r s : State} (hm : m &&& 262144 = 0) (h : Same m r s) :
    Same m r (State.zonesStop s) := by
  unfold State.zonesStop
  repeat' (first
    | with_reducible first | assumption
    | (simp only [Same.lit]; with_reducible refine SameLit.of hm ?_ ?_)
    | (refine fun (p : Part) (hp : Nat.testBit _ (Part.ix p) = false) => ?_; cases p <;> first | exact absurd hp (by decide) | (simp only [Part.same, and_self]; done))
    | (extract_lets +onlyGivenNames x
       first
       | (refine Same.cut (m := m) (r := r) (x := x) ?_ ?_ <;> first | (clear_value x; intro hx) | subst x)
       | subst x)
    | split
    | dsimp only)

theorem zoneThreshold_same {m : Nat} {r s : State} (hm : m &&& 1024 = 0) (h : Same m r s) (z : Nat) (off : Bool) (v : Nat) :
    SameE m r (zoneThreshold z off v s) := by
  unfold zoneThreshold
  repeat' (first
    | with_reducible
        first
        | assumption | apply Same.ite | apply SameE.ite | apply SameE.ok | apply SameE.error
        | apply require_same (mask_sub hm rfl) | apply shadow_same (mask_sub hm rfl)
        | refine Same.ofE ‹_ = Except.ok _› ?_
    | (extract_lets +onlyGivenNames x
       first
       | (refine Same.cut (m := m) (r := r) (x := x) ?_ ?_ <;> first | (clear_value x; intro hx) | subst x)
       | subst x)
    | split
    | dsimp only
    | (with_reducible intro s1 h1; dsimp only)
    | with_reducible intro s1 h1)

theorem State.thresholdTransfer_same {m : Nat} {r s : State} (hm : m &&& 8 = 0) (h : Same m r s) (idx : Nat)
    (sub : Nat) (v : Nat) :
    Same m r (State.thresholdTransfer s idx sub v) := by
  unfold State.thresholdTransfer
  repeat' (first
    | with_reducible first | assumption | apply Same.ite | apply State.os_same (mask_sub hm rfl)
    | (extract_lets +onlyGivenNames x
       first
       | (refine Same.cut (m := m) (r := r) (x := x) ?_ ?_ <;> first | (clear_value x; intro hx) | subst x)
       | subst x)
    | split
    | dsimp only)

theorem execZoneThresholdWrite_same {m : Nat} {r s : State} (hm : m &&& 1322 = 0) (h : Same m r s) (t : Nat)
    (c : Nat) (zone : Nat) (off : Bool) (value : Nat) :
    SameO m r (execZoneThresholdWrite t c zone off value s) := by
  unfold execZoneThresholdWrite
  repeat' (first
    | with_reducible
        first
        | assumption | apply Same.ite | apply SameE.ite | apply SameO.ite | apply SameE.ok | apply SameE.error
        | apply SameO.next | apply State.hostWrite_same (mask_sub hm rfl) | apply State.at_same (mask_sub hm rfl)
        | apply zoneThreshold_same (mask_sub hm rfl) | refine Same.ofE ‹_ = Except.ok _› ?_
    | (with_reducible intro s1 h1; dsimp only)
    | with_reducible intro s1 h1)

theorem State.trigger_same {m : Nat} {r s : State} (hm : m &&& 2885656 = 0) (h : Same m r s) (i : Nat) (t : Nat)
    (b : List Byte) (v : Verdict) (cause : Nat) :
    Same m r (State.trigger s i t b v cause) := by
  unfold State.trigger
  repeat' (first
    | with_reducible
        first
        | assumption | apply Same.ite | apply State.captureTrigger_same (mask_sub hm rfl)
        | apply State.event_same (mask_sub hm rfl) | apply State.count_same (mask_sub hm rfl)
        | apply State.bump_same (mask_sub hm rfl) | apply State.ds_same (mask_sub hm rfl)
        | refine Same.foldl (fun _ _ _ => ?_) _ ?_
    | (simp only [Same.lit]; with_reducible refine SameLit.of hm ?_ ?_)
    | (refine fun (p : Part) (hp : Nat.testBit _ (Part.ix p) = false) => ?_; cases p <;> first | exact absurd hp (by decide) | (simp only [Part.same, and_self]; done))
    | (extract_lets +onlyGivenNames x
       first
       | (refine Same.cut (m := m) (r := r) (x := x) ?_ ?_ <;> first | (clear_value x; intro hx) | subst x)
       | subst x)
    | split
    | dsimp only
    | (with_reducible intro s1 h1; dsimp only)
    | with_reducible intro s1 h1)

theorem State.setSeq_same {m : Nat} {r s : State} (hm : m &&& 262144 = 0) (h : Same m r s) (i : Nat) (f : Seq → Seq) :
    Same m r (State.setSeq s i f) := by
  unfold State.setSeq
  repeat' (first
    | with_reducible first | assumption
    | (simp only [Same.lit]; with_reducible refine SameLit.of hm ?_ ?_)
    | (refine fun (p : Part) (hp : Nat.testBit _ (Part.ix p) = false) => ?_; cases p <;> first | exact absurd hp (by decide) | (simp only [Part.same, and_self]; done))
    | (extract_lets +onlyGivenNames x
       first
       | (refine Same.cut (m := m) (r := r) (x := x) ?_ ?_ <;> first | (clear_value x; intro hx) | subst x)
       | subst x)
    | split
    | dsimp only)

theorem State.actOne_same {m : Nat} {r s : State} (hm : m &&& 262152 = 0) (h : Same m r s) (i : Nat) (arm : Bool) :
    Same m r (State.actOne s i arm) := by
  unfold State.actOne
  repeat' (first
    | with_reducible
        first
        | assumption | apply Same.ite | apply State.os_same (mask_sub hm rfl)
        | apply State.setSeq_same (mask_sub hm rfl)
    | (extract_lets +onlyGivenNames x
       first
       | (refine Same.cut (m := m) (r := r) (x := x) ?_ ?_ <;> first | (clear_value x; intro hx) | subst x)
       | subst x)
    | split
    | dsimp only)

theorem State.armAct_same {m : Nat} {r s : State} (hm : m &&& 262152 = 0) (h : Same m r s) (i : Nat) (t : Nat) :
    Same m r (State.armAct s i t) := by
  unfold State.armAct
  repeat' (first
    | with_reducible
        first
        | assumption | apply State.actOne_same (mask_sub hm rfl) | apply State.setSeq_same (mask_sub hm rfl)
        | refine Same.foldl (fun _ _ _ => ?_) _ ?_
    | (extract_lets +onlyGivenNames x
       first
       | (refine Same.cut (m := m) (r := r) (x := x) ?_ ?_ <;> first | (clear_value x; intro hx) | subst x)
       | subst x)
    | split
    | dsimp only
    | (with_reducible intro s1 h1; dsimp only)
    | with_reducible intro s1 h1)

theorem State.seqInstant_same {m : Nat} {r s : State} (hm : m &&& 2885656 = 0) (h : Same m r s) (i : Nat) (t : Nat)
    (g : List Nat) (prev : List Nat) :
    Same m r (State.seqInstant s i t g prev) := by
  unfold State.seqInstant
  repeat' (first
    | with_reducible
        first
        | assumption | apply Same.ite | apply State.setSeq_same (mask_sub hm rfl)
        | apply State.trigger_same (mask_sub hm rfl)
    | (extract_lets +onlyGivenNames x
       first
       | (refine Same.cut (m := m) (r := r) (x := x) ?_ ?_ <;> first | (clear_value x; intro hx) | subst x)
       | subst x)
    | split
    | dsimp only)

theorem State.clockTo_same {m : Nat} {r s : State} (hm : m &&& 262144 = 0) (h : Same m r s) (t : Nat) :
    Same m r (State.clockTo s t) := by
  unfold State.clockTo
  repeat' (first
    | with_reducible first | assumption | apply Same.ite
    | (simp only [Same.lit]; with_reducible refine SameLit.of hm ?_ ?_)
    | (refine fun (p : Part) (hp : Nat.testBit _ (Part.ix p) = false) => ?_; cases p <;> first | exact absurd hp (by decide) | (simp only [Part.same, and_self]; done))
    | (extract_lets +onlyGivenNames x
       first
       | (refine Same.cut (m := m) (r := r) (x := x) ?_ ?_ <;> first | (clear_value x; intro hx) | subst x)
       | subst x)
    | split
    | dsimp only)

theorem State.formLines_same {m : Nat} {r s : State} (hm : m &&& 262144 = 0) (h : Same m r s) (t : Nat) :
    Same m r (State.formLines s t) := by
  unfold State.formLines
  repeat' (first
    | with_reducible first | assumption | apply Same.ite
    | (simp only [Same.lit]; with_reducible refine SameLit.of hm ?_ ?_)
    | (refine fun (p : Part) (hp : Nat.testBit _ (Part.ix p) = false) => ?_; cases p <;> first | exact absurd hp (by decide) | (simp only [Part.same, and_self]; done))
    | (extract_lets +onlyGivenNames x
       first
       | (refine Same.cut (m := m) (r := r) (x := x) ?_ ?_ <;> first | (clear_value x; intro hx) | subst x)
       | subst x)
    | split
    | dsimp only)

theorem State.evaluate_same {m : Nat} {r s : State} (hm : m &&& 2885660 = 0) (h : Same m r s) (t : Nat) :
    Same m r (State.evaluate s t) := by
  unfold State.evaluate
  repeat' (first
    | with_reducible
        first
        | assumption | apply Same.ite | apply State.clockTo_same (mask_sub hm rfl)
        | apply State.formLines_same (mask_sub hm rfl) | apply State.seqInstant_same (mask_sub hm rfl)
        | apply State.armAct_same (mask_sub hm rfl) | apply State.disarmCapture_same (mask_sub hm rfl)
        | apply State.captureInstant_same (mask_sub hm rfl) | refine Same.foldl (fun _ _ _ => ?_) _ ?_
    | (simp only [Same.lit]; with_reducible refine SameLit.of hm ?_ ?_)
    | (refine fun (p : Part) (hp : Nat.testBit _ (Part.ix p) = false) => ?_; cases p <;> first | exact absurd hp (by decide) | (simp only [Part.same, and_self]; done))
    | (extract_lets +onlyGivenNames x
       first
       | (refine Same.cut (m := m) (r := r) (x := x) ?_ ?_ <;> first | (clear_value x; intro hx) | subst x)
       | subst x)
    | split
    | dsimp only
    | (with_reducible intro s1 h1; dsimp only)
    | with_reducible intro s1 h1)

theorem State.samplePins_same {m : Nat} {r s : State} (hm : m &&& 262144 = 0) (h : Same m r s) (t : Nat) (prb : Nat)
    (trig : Nat) (tb : Nat) :
    Same m r (State.samplePins s t prb trig tb) := by
  unfold State.samplePins
  repeat' (first
    | with_reducible first | assumption | refine Same.snd ‹_ = (_, _)› ?_
    | (simp only [Same.lit]; with_reducible refine SameLit.of hm ?_ ?_)
    | (refine fun (p : Part) (hp : Nat.testBit _ (Part.ix p) = false) => ?_; cases p <;> first | exact absurd hp (by decide) | (simp only [Part.same, and_self]; done))
    | (extract_lets +onlyGivenNames x
       first
       | (refine Same.cut (m := m) (r := r) (x := x) ?_ ?_ <;> first | (clear_value x; intro hx) | subst x)
       | subst x)
    | split
    | dsimp only)

theorem execEvaluationInstant_same {m : Nat} {r s : State} (hm : m &&& 2885662 = 0) (h : Same m r s) (t : Nat)
    (prb : Nat) (trig : Nat) (tb : Nat) :
    SameO m r (execEvaluationInstant t prb trig tb s) := by
  unfold execEvaluationInstant
  repeat' (first
    | with_reducible
        first
        | assumption | apply Same.ite | apply SameO.ite | apply SameO.next | apply State.at_same (mask_sub hm rfl)
        | apply State.evaluate_same (mask_sub hm rfl) | apply State.samplePins_same (mask_sub hm rfl)
    | (extract_lets +onlyGivenNames x
       first
       | (refine Same.cut (m := m) (r := r) (x := x) ?_ ?_ <;> first | (clear_value x; intro hx) | subst x)
       | subst x)
    | split
    | dsimp only)

theorem execLevelTimerExpiry_same {m : Nat} {r s : State} (hm : m &&& 2885662 = 0) (h : Same m r s) (t : Nat) (seq : Nat) :
    SameO m r (execLevelTimerExpiry t seq s) := by
  unfold execLevelTimerExpiry
  repeat' (first
    | with_reducible
        first
        | assumption | apply Same.ite | apply SameO.ite | apply SameO.next | apply State.at_same (mask_sub hm rfl)
        | apply State.evaluate_same (mask_sub hm rfl)
    | (extract_lets +onlyGivenNames x
       first
       | (refine Same.cut (m := m) (r := r) (x := x) ?_ ?_ <;> first | (clear_value x; intro hx) | subst x)
       | subst x)
    | split
    | dsimp only)

theorem execAutoTimerExpiry_same {m : Nat} {r s : State} (hm : m &&& 2885662 = 0) (h : Same m r s) (t : Nat) (seq : Nat) :
    SameO m r (execAutoTimerExpiry t seq s) := by
  unfold execAutoTimerExpiry
  repeat' (first
    | with_reducible
        first
        | assumption | apply Same.ite | apply SameO.ite | apply SameO.next | apply State.at_same (mask_sub hm rfl)
        | apply State.evaluate_same (mask_sub hm rfl)
    | (extract_lets +onlyGivenNames x
       first
       | (refine Same.cut (m := m) (r := r) (x := x) ?_ ?_ <;> first | (clear_value x; intro hx) | subst x)
       | subst x)
    | split
    | dsimp only)

theorem seqArm_same {m : Nat} {r s : State} (hm : m &&& 262144 = 0) (h : Same m r s) (i : Nat) :
    SameE m r (seqArm i s) := by
  unfold seqArm
  repeat' (first
    | with_reducible
        first
        | assumption | apply SameE.ok | apply SameE.error | apply require_same (mask_sub hm rfl)
        | apply State.setSeq_same (mask_sub hm rfl) | refine Same.snd ‹_ = (_, _)› ?_
        | refine Same.ofE ‹_ = Except.ok _› ?_
    | (with_reducible intro s1 h1; dsimp only)
    | with_reducible intro s1 h1)

theorem execSequenceArm_same {m : Nat} {r s : State} (hm : m &&& 262442 = 0) (h : Same m r s) (t : Nat) (c : Nat)
    (seq : Nat) :
    SameO m r (execSequenceArm t c seq s) := by
  unfold execSequenceArm
  repeat' (first
    | with_reducible
        first
        | assumption | apply SameE.ok | apply SameE.error | apply SameO.next
        | apply State.hostWrite_same (mask_sub hm rfl) | apply State.at_same (mask_sub hm rfl)
        | apply seqArm_same (mask_sub hm rfl) | refine Same.ofE ‹_ = Except.ok _› ?_
    | (with_reducible intro s1 h1; dsimp only)
    | with_reducible intro s1 h1)

theorem seqDisarm_same {m : Nat} {r s : State} (hm : m &&& 262144 = 0) (h : Same m r s) (i : Nat) :
    SameE m r (seqDisarm i s) := by
  unfold seqDisarm
  repeat' (first
    | with_reducible
        first
        | assumption | apply SameE.ok | apply SameE.error | apply State.setSeq_same (mask_sub hm rfl)
        | refine Same.snd ‹_ = (_, _)› ?_ | refine Same.ofE ‹_ = Except.ok _› ?_
    | (with_reducible intro s1 h1; dsimp only)
    | with_reducible intro s1 h1)

theorem execSequenceDisarm_same {m : Nat} {r s : State} (hm : m &&& 262442 = 0) (h : Same m r s) (t : Nat) (c : Nat)
    (seq : Nat) :
    SameO m r (execSequenceDisarm t c seq s) := by
  unfold execSequenceDisarm
  repeat' (first
    | with_reducible
        first
        | assumption | apply SameE.ok | apply SameE.error | apply SameO.next
        | apply State.hostWrite_same (mask_sub hm rfl) | apply State.at_same (mask_sub hm rfl)
        | apply seqDisarm_same (mask_sub hm rfl) | refine Same.ofE ‹_ = Except.ok _› ?_
    | (with_reducible intro s1 h1; dsimp only)
    | with_reducible intro s1 h1)

theorem execSequenceArmAct_same {m : Nat} {r s : State} (hm : m &&& 2885662 = 0) (h : Same m r s) (t : Nat) (seq : Nat) :
    SameO m r (execSequenceArmAct t seq s) := by
  unfold execSequenceArmAct
  repeat' (first
    | with_reducible
        first
        | assumption | apply Same.ite | apply SameO.ite | apply SameO.next | apply State.at_same (mask_sub hm rfl)
        | apply State.evaluate_same (mask_sub hm rfl)
    | (extract_lets +onlyGivenNames x
       first
       | (refine Same.cut (m := m) (r := r) (x := x) ?_ ?_ <;> first | (clear_value x; intro hx) | subst x)
       | subst x)
    | split
    | dsimp only)

theorem seqForce_same {m : Nat} {r s : State} (hm : m &&& 262144 = 0) (h : Same m r s) (i : Nat) :
    SameE m r (seqForce i s) := by
  unfold seqForce
  repeat' (first
    | with_reducible
        first
        | assumption | apply SameE.ok | apply SameE.error | apply require_same (mask_sub hm rfl)
        | apply State.setSeq_same (mask_sub hm rfl) | refine Same.ofE ‹_ = Except.ok _› ?_
    | (with_reducible intro s1 h1; dsimp only)
    | with_reducible intro s1 h1)

theorem execForce_same {m : Nat} {r s : State} (hm : m &&& 262442 = 0) (h : Same m r s) (t : Nat) (c : Nat) (seq : Nat) :
    SameO m r (execForce t c seq s) := by
  unfold execForce
  repeat' (first
    | with_reducible
        first
        | assumption | apply SameE.ok | apply SameE.error | apply SameO.next
        | apply State.hostWrite_same (mask_sub hm rfl) | apply State.at_same (mask_sub hm rfl)
        | apply seqForce_same (mask_sub hm rfl) | refine Same.ofE ‹_ = Except.ok _› ?_
    | (with_reducible intro s1 h1; dsimp only)
    | with_reducible intro s1 h1)

theorem execForceAct_same {m : Nat} {r s : State} (hm : m &&& 2885662 = 0) (h : Same m r s) (t : Nat) (seq : Nat) :
    SameO m r (execForceAct t seq s) := by
  unfold execForceAct
  repeat' (first
    | with_reducible
        first
        | assumption | apply Same.ite | apply SameO.ite | apply SameO.next | apply State.at_same (mask_sub hm rfl)
        | apply State.evaluate_same (mask_sub hm rfl)
    | (extract_lets +onlyGivenNames x
       first
       | (refine Same.cut (m := m) (r := r) (x := x) ?_ ?_ <;> first | (clear_value x; intro hx) | subst x)
       | subst x)
    | split
    | dsimp only)

theorem execHostLine_same {m : Nat} {r s : State} (hm : m &&& 298 = 0) (h : Same m r s) (t : Nat) (c : Nat) (level : Nat) :
    SameO m r (execHostLine t c level s) := by
  unfold execHostLine
  repeat' (first
    | with_reducible
        first
        | assumption | apply SameE.ok | apply SameE.error | apply SameO.next
        | apply State.hostWrite_same (mask_sub hm rfl) | apply State.at_same (mask_sub hm rfl)
        | apply State.os_same (mask_sub hm rfl) | refine Same.ofE ‹_ = Except.ok _› ?_
    | (with_reducible intro s1 h1; dsimp only)
    | with_reducible intro s1 h1)

theorem State.pinEdge_same {m : Nat} {r s : State} (hm : m &&& 262146 = 0) (h : Same m r s) (pin : Nat)
    (stamp : Nat) (uncalibrated : Bool) :
    Same m r (State.pinEdge s pin stamp uncalibrated).2 := by
  unfold State.pinEdge
  repeat' (first
    | with_reducible first | assumption | apply Same.ite | apply Same.ite_snd | refine Same.snd ‹_ = (_, _)› ?_
    | (simp only [Same.lit]; with_reducible refine SameLit.of hm ?_ ?_)
    | (refine fun (p : Part) (hp : Nat.testBit _ (Part.ix p) = false) => ?_; cases p <;> first | exact absurd hp (by decide) | (simp only [Part.same, and_self]; done))
    | (extract_lets +onlyGivenNames x
       first
       | (refine Same.cut (m := m) (r := r) (x := x) ?_ ?_ <;> first | (clear_value x; intro hx) | subst x)
       | subst x)
    | split
    | dsimp only)

theorem State.seqTake_same {m : Nat} {r s : State} (hm : m &&& 2361352 = 0) (h : Same m r s) (old : Option Plan)
    (pl : Plan) :
    Same m r (State.seqTake s old pl) := by
  unfold State.seqTake
  repeat' (first
    | with_reducible
        first
        | assumption | apply Same.ite | apply State.setSeq_same (mask_sub hm rfl)
        | apply State.event_same (mask_sub hm rfl) | apply Same.ite_snd | refine Same.foldl (fun _ _ _ => ?_) _ ?_
        | refine Same.snd ‹_ = (_, _)› ?_
    | (extract_lets +onlyGivenNames x
       first
       | (refine Same.cut (m := m) (r := r) (x := x) ?_ ?_ <;> first | (clear_value x; intro hx) | subst x)
       | subst x)
    | split
    | dsimp only
    | (with_reducible intro s1 h1; dsimp only)
    | with_reducible intro s1 h1)

theorem State.sesameStop_same {m : Nat} {r s : State} (hm : m &&& 262144 = 0) (h : Same m r s) :
    Same m r (State.sesameStop s) := by
  unfold State.sesameStop
  repeat' (first
    | with_reducible first | assumption
    | (simp only [Same.lit]; with_reducible refine SameLit.of hm ?_ ?_)
    | (refine fun (p : Part) (hp : Nat.testBit _ (Part.ix p) = false) => ?_; cases p <;> first | exact absurd hp (by decide) | (simp only [Part.same, and_self]; done))
    | (extract_lets +onlyGivenNames x
       first
       | (refine Same.cut (m := m) (r := r) (x := x) ?_ ?_ <;> first | (clear_value x; intro hx) | subst x)
       | subst x)
    | split
    | dsimp only)

theorem State.sesameStart_same {m : Nat} {r s : State} (hm : m &&& 262152 = 0) (h : Same m r s) :
    Same m r (State.sesameStart s) := by
  unfold State.sesameStart
  repeat' (first
    | with_reducible
        first
        | assumption | apply State.os_same (mask_sub hm rfl) | refine Same.foldl (fun _ _ _ => ?_) _ ?_
    | (simp only [Same.lit]; with_reducible refine SameLit.of hm ?_ ?_)
    | (refine fun (p : Part) (hp : Nat.testBit _ (Part.ix p) = false) => ?_; cases p <;> first | exact absurd hp (by decide) | (simp only [Part.same, and_self]; done))
    | (extract_lets +onlyGivenNames x
       first
       | (refine Same.cut (m := m) (r := r) (x := x) ?_ ?_ <;> first | (clear_value x; intro hx) | subst x)
       | subst x)
    | split
    | dsimp only
    | (with_reducible intro s1 h1; dsimp only)
    | with_reducible intro s1 h1)

theorem execFillingEntry_same {m : Nat} {r s : State} (hm : m &&& 2885662 = 0) (h : Same m r s) (t : Nat) (buf : Nat) :
    SameO m r (execFillingEntry t buf s) := by
  unfold execFillingEntry
  repeat' (first
    | with_reducible
        first
        | assumption | apply Same.ite | apply SameO.ite | apply SameO.next | apply State.at_same (mask_sub hm rfl)
        | apply State.evaluate_same (mask_sub hm rfl) | apply State.setCap_same (mask_sub hm rfl)
        | apply State.fillCapture_same (mask_sub hm rfl)
    | (extract_lets +onlyGivenNames x
       first
       | (refine Same.cut (m := m) (r := r) (x := x) ?_ ?_ <;> first | (clear_value x; intro hx) | subst x)
       | subst x)
    | split
    | dsimp only)

theorem execCaptureRearm_same {m : Nat} {r s : State} (hm : m &&& 2885662 = 0) (h : Same m r s) (t : Nat) (buf : Nat) :
    SameO m r (execCaptureRearm t buf s) := by
  unfold execCaptureRearm
  repeat' (first
    | with_reducible
        first
        | assumption | apply Same.ite | apply SameO.ite | apply SameO.next | apply State.at_same (mask_sub hm rfl)
        | apply State.evaluate_same (mask_sub hm rfl) | apply State.fillCapture_same (mask_sub hm rfl)
    | (extract_lets +onlyGivenNames x
       first
       | (refine Same.cut (m := m) (r := r) (x := x) ?_ ?_ <;> first | (clear_value x; intro hx) | subst x)
       | subst x)
    | split
    | dsimp only)

end Sys2Proof.Machine
end

