-- ==== Sys2Proof/Laws/SameHazel.lean ====
section
/-! SUPPORT. Which parts each function of the model leaves as they were:
the Hazel engines. -/

namespace Sys2Proof.Machine

open Sys2Proof

set_option linter.unusedSimpArgs false
set_option linter.unusedVariables false

/-! ## Roles -/

theorem State.storeRecord_same {m : Nat} {r s : State} (hm : m &&& 8388608 = 0) (h : Same m r s) (it : Item) (c : Nat) :
    Same m r (State.storeRecord s it c) := by
  unfold State.storeRecord
  repeat' (first
    | with_reducible first | assumption
    | (simp only [Same.lit]; with_reducible refine SameLit.of hm ?_ ?_)
    | (refine fun (p : Part) (hp : Nat.testBit _ (Part.ix p) = false) => ?_; cases p <;> first | exact absurd hp (by decide) | (simp only [Part.same, and_self]; done))
    | (extract_lets +onlyGivenNames x
       first
       | (refine Same.cut (m := m) (r := r) (x := x) ?_ ?_ <;> first | (clear_value x; intro hx) | subst x)
       | subst x)
    | split
    | dsimp only)

theorem State.itemErrors_same {m : Nat} {r s : State} (hm : m &&& 2056 = 0) (h : Same m r s) (n : Nat) :
    Same m r (State.itemErrors s n) := by
  unfold State.itemErrors
  repeat' (first
    | with_reducible
        first
        | assumption | apply State.bump_same (mask_sub hm rfl) | apply State.count_same (mask_sub hm rfl))

theorem State.forgetChan_same {m : Nat} {r s : State} (hm : m &&& 16384 = 0) (h : Same m r s) (f : Flight) (p : Nat)
    (sl : Nat) (c : Nat) :
    Same m r (State.forgetChan s f p sl c) := by
  unfold State.forgetChan
  repeat' (first
    | with_reducible
        first
        | assumption | apply State.setPdas_same (mask_sub hm rfl) | apply State.freshen_same (mask_sub hm rfl)
    | (extract_lets +onlyGivenNames x
       first
       | (refine Same.cut (m := m) (r := r) (x := x) ?_ ?_ <;> first | (clear_value x; intro hx) | subst x)
       | subst x)
    | split
    | dsimp only)

theorem State.roleChans_same {m : Nat} {r s : State} (hm : m &&& 16384 = 0) (h : Same m r s) (f : Flight)
    (it : Item) (range : List Nat) :
    Same m r (State.roleChans s f it range) := by
  unfold State.roleChans
  repeat' (first
    | with_reducible
        first
        | assumption | apply Same.ite | apply State.chanItem_same (mask_sub hm rfl)
        | apply State.forgetChan_same (mask_sub hm rfl) | apply State.endedOuts_same (mask_sub hm rfl)
        | refine Same.foldl (fun _ _ _ => ?_) _ ?_
    | (extract_lets +onlyGivenNames x
       first
       | (refine Same.cut (m := m) (r := r) (x := x) ?_ ?_ <;> first | (clear_value x; intro hx) | subst x)
       | subst x)
    | split
    | dsimp only
    | (with_reducible intro s1 h1; dsimp only)
    | with_reducible intro s1 h1)

theorem State.roleOuts_same {m : Nat} {r s : State} (hm : m &&& 16384 = 0) (h : Same m r s) (f : Flight) (it : Item) :
    Same m r (State.roleOuts s f it) := by
  unfold State.roleOuts
  repeat' (first
    | with_reducible
        first
        | assumption | apply State.endedOuts_same (mask_sub hm rfl) | apply State.setTick_same (mask_sub hm rfl)
        | refine Same.snd ‹_ = (_, _)› ?_)

theorem State.roleZones_same {m : Nat} {r s : State} (hm : m &&& 262144 = 0) (h : Same m r s) (f : Flight)
    (it : Item) (range : List Nat) :
    Same m r (State.roleZones s f it range) := by
  unfold State.roleZones
  repeat' (first
    | with_reducible
        first
        | assumption | apply Same.ite | apply State.detectZone_same (mask_sub hm rfl)
        | refine Same.foldl (fun _ _ _ => ?_) _ ?_
    | split
    | dsimp only
    | (with_reducible intro s1 h1; dsimp only)
    | with_reducible intro s1 h1)

theorem State.libraryEnd_same {m : Nat} {r s : State} (hm : m &&& 9717804 = 0) (h : Same m r s) (it : Item) :
    Same m r (State.libraryEnd s it) := by
  unfold State.libraryEnd
  repeat' (first
    | with_reducible
        first
        | assumption | apply Same.ite | apply State.waterfall_same (mask_sub hm rfl)
        | apply State.itemErrors_same (mask_sub hm rfl) | apply State.roleChans_same (mask_sub hm rfl)
        | apply State.roleOuts_same (mask_sub hm rfl) | apply State.storeRecord_same (mask_sub hm rfl)
        | apply State.roleZones_same (mask_sub hm rfl) | refine Same.foldl (fun _ _ _ => ?_) _ ?_
    | (extract_lets +onlyGivenNames x
       first
       | (refine Same.cut (m := m) (r := r) (x := x) ?_ ?_ <;> first | (clear_value x; intro hx) | subst x)
       | subst x)
    | split
    | dsimp only
    | (with_reducible intro s1 h1; dsimp only)
    | with_reducible intro s1 h1)

/-! ## Hazel -/

theorem State.setEngine_same {m : Nat} {r s : State} (hm : m &&& 131072 = 0) (h : Same m r s) (e : Nat)
    (f : Engine → Engine) :
    Same m r (State.setEngine s e f) := by
  unfold State.setEngine
  repeat' (first
    | with_reducible first | assumption
    | (simp only [Same.lit]; with_reducible refine SameLit.of hm ?_ ?_)
    | (refine fun (p : Part) (hp : Nat.testBit _ (Part.ix p) = false) => ?_; cases p <;> first | exact absurd hp (by decide) | (simp only [Part.same, and_self]; done))
    | (extract_lets +onlyGivenNames x
       first
       | (refine Same.cut (m := m) (r := r) (x := x) ?_ ?_ <;> first | (clear_value x; intro hx) | subst x)
       | subst x)
    | split
    | dsimp only)

theorem State.hzPutByte_same {m : Nat} {r s : State} (hm : m &&& 8519680 = 0) (h : Same m r s) (e : Nat)
    (user : Bool) (a : Nat) (b : Byte) :
    Same m r (State.hzPutByte s e user a b) := by
  unfold State.hzPutByte
  repeat' (first
    | with_reducible first | assumption | apply Same.ite
    | (simp only [Same.lit]; with_reducible refine SameLit.of hm ?_ ?_)
    | (refine fun (p : Part) (hp : Nat.testBit _ (Part.ix p) = false) => ?_; cases p <;> first | exact absurd hp (by decide) | (simp only [Part.same, and_self]; done))
    | (extract_lets +onlyGivenNames x
       first
       | (refine Same.cut (m := m) (r := r) (x := x) ?_ ?_ <;> first | (clear_value x; intro hx) | subst x)
       | subst x)
    | split
    | dsimp only)

theorem State.hzWrite_same {m : Nat} {r s : State} (hm : m &&& 8519680 = 0) (h : Same m r s) (e : Nat) (user : Bool)
    (a : Nat) (b : List Byte) :
    Same m r (State.hzWrite s e user a b) := by
  unfold State.hzWrite
  repeat' (first
    | with_reducible
        first
        | assumption | apply State.hzPutByte_same (mask_sub hm rfl) | refine Same.foldl (fun _ _ _ => ?_) _ ?_
    | split
    | dsimp only
    | (with_reducible intro s1 h1; dsimp only)
    | with_reducible intro s1 h1)

theorem State.startItem_same {m : Nat} {r s : State} (hm : m &&& 8519680 = 0) (h : Same m r s) (e : Nat) (it : Item) :
    Same m r (State.startItem s e it) := by
  unfold State.startItem
  repeat' (first
    | with_reducible
        first
        | assumption | apply Same.ite | apply State.hzWrite_same (mask_sub hm rfl)
        | apply State.setEngine_same (mask_sub hm rfl)
    | (extract_lets +onlyGivenNames x
       first
       | (refine Same.cut (m := m) (r := r) (x := x) ?_ ?_ <;> first | (clear_value x; intro hx) | subst x)
       | subst x)
    | split
    | dsimp only)

theorem State.dispatch_same {m : Nat} {r s : State} (hm : m &&& 8519680 = 0) (h : Same m r s) (e : Nat) :
    Same m r (State.dispatch s e) := by
  unfold State.dispatch
  repeat' (first
    | with_reducible
        first
        | assumption | apply State.startItem_same (mask_sub hm rfl) | apply State.setEngine_same (mask_sub hm rfl)
    | split
    | dsimp only)

theorem State.leaveUser_same {m : Nat} {r s : State} (hm : m &&& 8519680 = 0) (h : Same m r s) (e : Nat) :
    Same m r (State.leaveUser s e) := by
  unfold State.leaveUser
  repeat' (first
    | with_reducible
        first
        | assumption | apply Same.ite | apply State.setEngine_same (mask_sub hm rfl)
        | apply State.startItem_same (mask_sub hm rfl)
    | (extract_lets +onlyGivenNames x
       first
       | (refine Same.cut (m := m) (r := r) (x := x) ?_ ?_ <;> first | (clear_value x; intro hx) | subst x)
       | subst x)
    | split
    | dsimp only)

theorem State.loseItem_same {m : Nat} {r s : State} (hm : m &&& 16384 = 0) (h : Same m r s) (it : Item) :
    Same m r (State.loseItem s it) := by
  unfold State.loseItem
  repeat' (first
    | with_reducible
        first
        | assumption | apply Same.ite | apply State.setTick_same (mask_sub hm rfl) | apply Same.ite_snd
        | refine Same.snd ‹_ = (_, _)› ?_)

theorem State.halt_same {m : Nat} {r s : State} (hm : m &&& 147456 = 0) (h : Same m r s) (e : Nat) (cause : Nat)
    (kernel : Nat) :
    Same m r (State.halt s e cause kernel) := by
  unfold State.halt
  repeat' (first
    | with_reducible
        first
        | assumption | apply State.loseItem_same (mask_sub hm rfl) | apply State.setEngine_same (mask_sub hm rfl)
        | refine Same.foldl (fun _ _ _ => ?_) _ ?_ | refine Same.snd ‹_ = (_, _)› ?_
    | (extract_lets +onlyGivenNames x
       first
       | (refine Same.cut (m := m) (r := r) (x := x) ?_ ?_ <;> first | (clear_value x; intro hx) | subst x)
       | subst x)
    | split
    | dsimp only
    | (with_reducible intro s1 h1; dsimp only)
    | with_reducible intro s1 h1)

theorem State.abortUser_same {m : Nat} {r s : State} (hm : m &&& 10881032 = 0) (h : Same m r s) (e : Nat)
    (it : Item) (cause : Nat) :
    Same m r (State.abortUser s e it cause) := by
  unfold State.abortUser
  repeat' (first
    | with_reducible
        first
        | assumption | apply Same.ite | apply State.leaveUser_same (mask_sub hm rfl)
        | apply State.setEngine_same (mask_sub hm rfl) | apply State.osBit_same (mask_sub hm rfl)
        | apply State.count_same (mask_sub hm rfl) | apply State.countAt_same (mask_sub hm rfl)
        | apply State.event_same (mask_sub hm rfl)
    | (simp only [Same.lit]; with_reducible refine SameLit.of hm ?_ ?_)
    | (refine fun (p : Part) (hp : Nat.testBit _ (Part.ix p) = false) => ?_; cases p <;> first | exact absurd hp (by decide) | (simp only [Part.same, and_self]; done))
    | (extract_lets +onlyGivenNames x
       first
       | (refine Same.cut (m := m) (r := r) (x := x) ?_ ?_ <;> first | (clear_value x; intro hx) | subst x)
       | subst x)
    | split
    | dsimp only)

theorem State.userFault_same {m : Nat} {r s : State} (hm : m &&& 10881032 = 0) (h : Same m r s) (e : Nat) (cause : Nat) :
    Same m r (State.userFault s e cause) := by
  unfold State.userFault
  repeat' (first
    | with_reducible first | assumption | apply State.abortUser_same (mask_sub hm rfl)
    | split
    | dsimp only)

theorem State.memoryFault_same {m : Nat} {r s : State} (hm : m &&& 10897416 = 0) (h : Same m r s) (e : Nat) (user : Bool) :
    Same m r (State.memoryFault s e user) := by
  unfold State.memoryFault
  repeat' (first
    | with_reducible
        first
        | assumption | apply Same.ite | apply State.userFault_same (mask_sub hm rfl)
        | apply State.halt_same (mask_sub hm rfl))

theorem State.hzFault_same {m : Nat} {r s : State} (hm : m &&& 10897416 = 0) (h : Same m r s) (e : Nat) (cause : Nat) :
    Same m r (State.hzFault s e cause) := by
  unfold State.hzFault
  repeat' (first
    | with_reducible
        first
        | assumption | apply State.userFault_same (mask_sub hm rfl) | apply State.halt_same (mask_sub hm rfl)
    | (extract_lets +onlyGivenNames x
       first
       | (refine Same.cut (m := m) (r := r) (x := x) ?_ ?_ <;> first | (clear_value x; intro hx) | subst x)
       | subst x)
    | split
    | dsimp only)

theorem State.slotOp_same {m : Nat} {r s : State} (hm : m &&& 10897416 = 0) (h : Same m r s) (e : Nat)
    (f : Bool → Nat → Ctx → Except Nat Ctx) :
    Same m r (State.slotOp s e f) := by
  unfold State.slotOp
  repeat' (first
    | with_reducible
        first
        | assumption | apply State.hzFault_same (mask_sub hm rfl) | apply State.setEngine_same (mask_sub hm rfl)
    | (extract_lets +onlyGivenNames x
       first
       | (refine Same.cut (m := m) (r := r) (x := x) ?_ ?_ <;> first | (clear_value x; intro hx) | subst x)
       | subst x)
    | split
    | dsimp only)

theorem State.commitBundle_same {m : Nat} {r s : State} (hm : m &&& 8519680 = 0) (h : Same m r s) (e : Nat)
    (user : Bool) (pc : Nat) (loops : List LoopLevel) (extra : Nat) :
    Same m r (State.commitBundle s e user pc loops extra) := by
  unfold State.commitBundle
  repeat' (first
    | with_reducible
        first
        | assumption | apply State.hzPutByte_same (mask_sub hm rfl) | apply State.setEngine_same (mask_sub hm rfl)
        | refine Same.foldl (fun _ _ _ => ?_) _ ?_ | refine Same.snd ‹_ = (_, _)› ?_
    | (extract_lets +onlyGivenNames x
       first
       | (refine Same.cut (m := m) (r := r) (x := x) ?_ ?_ <;> first | (clear_value x; intro hx) | subst x)
       | subst x)
    | split
    | dsimp only
    | (with_reducible intro s1 h1; dsimp only)
    | with_reducible intro s1 h1)

theorem State.goOn_same {m : Nat} {r s : State} (hm : m &&& 10897416 = 0) (h : Same m r s) (e : Nat) (user : Bool)
    (pc : Nat) (loops : List LoopLevel) (extra : Nat) :
    Same m r (State.goOn s e user pc loops extra) := by
  unfold State.goOn
  repeat' (first
    | with_reducible
        first
        | assumption | apply Same.ite | apply State.hzFault_same (mask_sub hm rfl)
        | apply State.commitBundle_same (mask_sub hm rfl) | apply State.userFault_same (mask_sub hm rfl)
    | (extract_lets +onlyGivenNames x
       first
       | (refine Same.cut (m := m) (r := r) (x := x) ?_ ?_ <;> first | (clear_value x; intro hx) | subst x)
       | subst x)
    | split
    | dsimp only)

theorem State.ctlPlain_same {m : Nat} {r s : State} (hm : m &&& 10897416 = 0) (h : Same m r s) (e : Nat) :
    Same m r (State.ctlPlain s e) := by
  unfold State.ctlPlain
  repeat' (first
    | with_reducible first | assumption | apply State.goOn_same (mask_sub hm rfl)
    | (extract_lets +onlyGivenNames x
       first
       | (refine Same.cut (m := m) (r := r) (x := x) ?_ ?_ <;> first | (clear_value x; intro hx) | subst x)
       | subst x)
    | split
    | dsimp only)

theorem State.ctlJump_same {m : Nat} {r s : State} (hm : m &&& 10897416 = 0) (h : Same m r s) (e : Nat)
    (target : Nat) (reads : List RegId) (taken : Ctx → Bool) :
    Same m r (State.ctlJump s e target reads taken) := by
  unfold State.ctlJump
  repeat' (first
    | with_reducible
        first
        | assumption | apply Same.ite | apply State.setEngine_same (mask_sub hm rfl)
        | apply State.hzFault_same (mask_sub hm rfl) | apply State.goOn_same (mask_sub hm rfl)
    | (extract_lets +onlyGivenNames x
       first
       | (refine Same.cut (m := m) (r := r) (x := x) ?_ ?_ <;> first | (clear_value x; intro hx) | subst x)
       | subst x)
    | split
    | dsimp only)

theorem State.ctlLoop_same {m : Nat} {r s : State} (hm : m &&& 10897416 = 0) (h : Same m r s) (e : Nat) (last : Nat) :
    Same m r (State.ctlLoop s e last) := by
  unfold State.ctlLoop
  repeat' (first
    | with_reducible
        first
        | assumption | apply Same.ite | apply State.setEngine_same (mask_sub hm rfl)
        | apply State.hzFault_same (mask_sub hm rfl) | apply State.goOn_same (mask_sub hm rfl)
    | (extract_lets +onlyGivenNames x
       first
       | (refine Same.cut (m := m) (r := r) (x := x) ?_ ?_ <;> first | (clear_value x; intro hx) | subst x)
       | subst x)
    | split
    | dsimp only)

theorem State.endUser_same {m : Nat} {r s : State} (hm : m &&& 10881032 = 0) (h : Same m r s) (e : Nat) (it : Item) :
    Same m r (State.endUser s e it) := by
  unfold State.endUser
  repeat' (first
    | with_reducible
        first
        | assumption | apply Same.ite | apply State.leaveUser_same (mask_sub hm rfl)
        | apply State.userFault_same (mask_sub hm rfl) | apply State.offer_same (mask_sub hm rfl) | apply Same.ite_snd
        | refine Same.snd ‹_ = (_, _)› ?_
    | (extract_lets +onlyGivenNames x
       first
       | (refine Same.cut (m := m) (r := r) (x := x) ?_ ?_ <;> first | (clear_value x; intro hx) | subst x)
       | subst x)
    | split
    | dsimp only)

theorem State.ctlEnd_same {m : Nat} {r s : State} (hm : m &&& 11946028 = 0) (h : Same m r s) (e : Nat) :
    Same m r (State.ctlEnd s e) := by
  unfold State.ctlEnd
  repeat' (first
    | with_reducible
        first
        | assumption | apply Same.ite | apply State.hzFault_same (mask_sub hm rfl)
        | apply State.commitBundle_same (mask_sub hm rfl) | apply State.userFault_same (mask_sub hm rfl)
        | apply State.endUser_same (mask_sub hm rfl) | apply State.dispatch_same (mask_sub hm rfl)
        | apply State.libraryEnd_same (mask_sub hm rfl) | apply State.setEngine_same (mask_sub hm rfl)
    | (extract_lets +onlyGivenNames x
       first
       | (refine Same.cut (m := m) (r := r) (x := x) ?_ ?_ <;> first | (clear_value x; intro hx) | subst x)
       | subst x)
    | split
    | dsimp only)

theorem execCheckpointInstant_same {m : Nat} {r s : State} (hm : m &&& 147458 = 0) (h : Same m r s) (t : Nat)
    (engine : Nat) (item : Nat) :
    SameO m r (execCheckpointInstant t engine item s) := by
  unfold execCheckpointInstant
  repeat' (first
    | with_reducible
        first
        | assumption | apply Same.ite | apply SameO.ite | apply SameO.next | apply State.at_same (mask_sub hm rfl)
        | apply State.halt_same (mask_sub hm rfl)
    | (extract_lets +onlyGivenNames x
       first
       | (refine Same.cut (m := m) (r := r) (x := x) ?_ ?_ <;> first | (clear_value x; intro hx) | subst x)
       | subst x)
    | split
    | dsimp only)

theorem execBudgetExhausted_same {m : Nat} {r s : State} (hm : m &&& 10881034 = 0) (h : Same m r s) (t : Nat)
    (engine : Nat) :
    SameO m r (execBudgetExhausted t engine s) := by
  unfold execBudgetExhausted
  repeat' (first
    | with_reducible
        first
        | assumption | apply SameO.next | apply State.userFault_same (mask_sub hm rfl)
        | apply State.at_same (mask_sub hm rfl))

theorem execUserItemCheckpoint_same {m : Nat} {r s : State} (hm : m &&& 10881034 = 0) (h : Same m r s) (t : Nat)
    (engine : Nat) :
    SameO m r (execUserItemCheckpoint t engine s) := by
  unfold execUserItemCheckpoint
  repeat' (first
    | with_reducible
        first
        | assumption | apply SameO.next | apply State.at_same (mask_sub hm rfl)
        | apply State.abortUser_same (mask_sub hm rfl)
    | (extract_lets +onlyGivenNames x
       first
       | (refine Same.cut (m := m) (r := r) (x := x) ?_ ?_ <;> first | (clear_value x; intro hx) | subst x)
       | subst x)
    | split
    | dsimp only)

/-! ## HazelOps -/

theorem execHzNop_same {m : Nat} {r s : State} (hm : m &&& 10897416 = 0) (h : Same m r s) (e : Nat) :
    SameO m r (execHzNop e s) := by
  unfold execHzNop
  repeat' (first
    | with_reducible first | assumption | apply SameO.next | apply State.ctlPlain_same (mask_sub hm rfl))

theorem execHzLoop_same {m : Nat} {r s : State} (hm : m &&& 10897416 = 0) (h : Same m r s) (e : Nat) (last : Nat) :
    SameO m r (execHzLoop e last s) := by
  unfold execHzLoop
  repeat' (first
    | with_reducible first | assumption | apply SameO.next | apply State.ctlLoop_same (mask_sub hm rfl))

theorem execHzJmp_same {m : Nat} {r s : State} (hm : m &&& 10897416 = 0) (h : Same m r s) (e : Nat) (target : Nat) :
    SameO m r (execHzJmp e target s) := by
  unfold execHzJmp
  repeat' (first
    | with_reducible first | assumption | apply SameO.next | apply State.ctlJump_same (mask_sub hm rfl))

theorem execHzBra_same {m : Nat} {r s : State} (hm : m &&& 10897416 = 0) (h : Same m r s) (e : Nat) (target : Nat) :
    SameO m r (execHzBra e target s) := by
  unfold execHzBra
  repeat' (first
    | with_reducible first | assumption | apply SameO.next | apply State.ctlJump_same (mask_sub hm rfl))

theorem execHzBrn_same {m : Nat} {r s : State} (hm : m &&& 10897416 = 0) (h : Same m r s) (e : Nat) (target : Nat) :
    SameO m r (execHzBrn e target s) := by
  unfold execHzBrn
  repeat' (first
    | with_reducible first | assumption | apply SameO.next | apply State.ctlJump_same (mask_sub hm rfl))

theorem execHzChk_same {m : Nat} {r s : State} (hm : m &&& 10897416 = 0) (h : Same m r s) (e : Nat) (marker : Nat) :
    SameO m r (execHzChk e marker s) := by
  unfold execHzChk
  repeat' (first
    | with_reducible
        first
        | assumption | apply Same.ite | apply SameO.ite | apply SameO.next
        | apply State.ctlPlain_same (mask_sub hm rfl) | apply State.os_same (mask_sub hm rfl))

theorem execHzEnd_same {m : Nat} {r s : State} (hm : m &&& 11946030 = 0) (h : Same m r s) (e : Nat) (t : Nat) :
    SameO m r (execHzEnd e t s) := by
  unfold execHzEnd
  repeat' (first
    | with_reducible
        first
        | assumption | apply SameO.next | apply State.ctlEnd_same (mask_sub hm rfl)
        | apply State.at_same (mask_sub hm rfl))

theorem execHzIllegalBundle_same {m : Nat} {r s : State} (hm : m &&& 10897418 = 0) (h : Same m r s) (e : Nat)
    (t : Nat) (loop : Bool) :
    SameO m r (execHzIllegalBundle e t loop s) := by
  unfold execHzIllegalBundle
  repeat' (first
    | with_reducible
        first
        | assumption | apply Same.ite | apply SameO.ite | apply SameO.next
        | apply State.hzFault_same (mask_sub hm rfl) | apply State.at_same (mask_sub hm rfl))

theorem execHzAddrNop_same {m : Nat} {r s : State} (hm : m &&& 10897416 = 0) (h : Same m r s) (e : Nat) :
    SameO m r (execHzAddrNop e s) := by
  unfold execHzAddrNop
  repeat' (first
    | with_reducible first | assumption | apply SameO.next | apply State.slotOp_same (mask_sub hm rfl))

theorem execHzPadd_same {m : Nat} {r s : State} (hm : m &&& 10897416 = 0) (h : Same m r s) (e : Nat) (k : Nat) :
    SameO m r (execHzPadd e k s) := by
  unfold execHzPadd
  repeat' (first
    | with_reducible first | assumption | apply SameO.next | apply State.slotOp_same (mask_sub hm rfl))

theorem execHzPldp_same {m : Nat} {r s : State} (hm : m &&& 10897416 = 0) (h : Same m r s) (e : Nat) (k : Nat) (imm : Nat) :
    SameO m r (execHzPldp e k imm s) := by
  unfold execHzPldp
  repeat' (first
    | with_reducible first | assumption | apply SameO.next | apply State.slotOp_same (mask_sub hm rfl)
    | (extract_lets +onlyGivenNames x
       first
       | (refine Same.cut (m := m) (r := r) (x := x) ?_ ?_ <;> first | (clear_value x; intro hx) | subst x)
       | subst x)
    | split
    | dsimp only)

theorem execHzPldm_same {m : Nat} {r s : State} (hm : m &&& 10897416 = 0) (h : Same m r s) (e : Nat) (k : Nat) (imm : Nat) :
    SameO m r (execHzPldm e k imm s) := by
  unfold execHzPldm
  repeat' (first
    | with_reducible first | assumption | apply SameO.next | apply State.slotOp_same (mask_sub hm rfl)
    | (extract_lets +onlyGivenNames x
       first
       | (refine Same.cut (m := m) (r := r) (x := x) ?_ ?_ <;> first | (clear_value x; intro hx) | subst x)
       | subst x)
    | split
    | dsimp only)

theorem execHzPldl_same {m : Nat} {r s : State} (hm : m &&& 10897416 = 0) (h : Same m r s) (e : Nat) (k : Nat) (imm : Nat) :
    SameO m r (execHzPldl e k imm s) := by
  unfold execHzPldl
  repeat' (first
    | with_reducible first | assumption | apply SameO.next | apply State.slotOp_same (mask_sub hm rfl)
    | (extract_lets +onlyGivenNames x
       first
       | (refine Same.cut (m := m) (r := r) (x := x) ?_ ?_ <;> first | (clear_value x; intro hx) | subst x)
       | subst x)
    | split
    | dsimp only)

theorem execHzPldz_same {m : Nat} {r s : State} (hm : m &&& 10897416 = 0) (h : Same m r s) (e : Nat) (k : Nat) (imm : Nat) :
    SameO m r (execHzPldz e k imm s) := by
  unfold execHzPldz
  repeat' (first
    | with_reducible first | assumption | apply SameO.next | apply State.slotOp_same (mask_sub hm rfl)
    | (extract_lets +onlyGivenNames x
       first
       | (refine Same.cut (m := m) (r := r) (x := x) ?_ ?_ <;> first | (clear_value x; intro hx) | subst x)
       | subst x)
    | split
    | dsimp only)

theorem execHzPaddi_same {m : Nat} {r s : State} (hm : m &&& 10897416 = 0) (h : Same m r s) (e : Nat) (k : Nat) (imm : Nat) :
    SameO m r (execHzPaddi e k imm s) := by
  unfold execHzPaddi
  repeat' (first
    | with_reducible first | assumption | apply SameO.next | apply State.slotOp_same (mask_sub hm rfl))

theorem execHzPsets_same {m : Nat} {r s : State} (hm : m &&& 10897416 = 0) (h : Same m r s) (e : Nat) (k : Nat) (imm : Nat) :
    SameO m r (execHzPsets e k imm s) := by
  unfold execHzPsets
  repeat' (first
    | with_reducible
        first
        | assumption | apply Same.ite | apply SameO.ite | apply SameO.next | apply State.slotOp_same (mask_sub hm rfl)
    | (extract_lets +onlyGivenNames x
       first
       | (refine Same.cut (m := m) (r := r) (x := x) ?_ ?_ <;> first | (clear_value x; intro hx) | subst x)
       | subst x)
    | split
    | dsimp only)

theorem State.loadEcc_same {m : Nat} {r s : State} (hm : m &&& 2056 = 0) (h : Same m r s) (e : Nat) (o : LsOp)
    (scalar : Bool) (n : Nat) :
    Same m r (State.loadEcc s e o scalar n) := by
  unfold State.loadEcc
  repeat' (first
    | with_reducible
        first
        | assumption | apply Same.ite | apply State.bump_same (mask_sub hm rfl)
        | apply State.eccLost_same (mask_sub hm rfl) | apply State.eccFix_same (mask_sub hm rfl)
    | (extract_lets +onlyGivenNames x
       first
       | (refine Same.cut (m := m) (r := r) (x := x) ?_ ?_ <;> first | (clear_value x; intro hx) | subst x)
       | subst x)
    | split
    | dsimp only)

theorem State.load_same {m : Nat} {r s : State} (hm : m &&& 10897416 = 0) (h : Same m r s) (e : Nat) (o : LsOp)
    (n : Nat) (scalar : Bool) (acc : Bool) (f : Nat → Int) :
    Same m r (State.load s e o n scalar acc f) := by
  unfold State.load
  repeat' (first
    | with_reducible
        first
        | assumption | apply Same.ite | apply State.loadEcc_same (mask_sub hm rfl)
        | apply State.slotOp_same (mask_sub hm rfl)
    | (extract_lets +onlyGivenNames x
       first
       | (refine Same.cut (m := m) (r := r) (x := x) ?_ ?_ <;> first | (clear_value x; intro hx) | subst x)
       | subst x)
    | split
    | dsimp only)

theorem State.store_same {m : Nat} {r s : State} (hm : m &&& 10897416 = 0) (h : Same m r s) (e : Nat) (o : LsOp)
    (n : Nat) (scalar : Bool) (acc : Bool) (reads : List RegId) (f : Regs → Nat → List Byte × Bool) :
    Same m r (State.store s e o n scalar acc reads f) := by
  unfold State.store
  repeat' (first
    | with_reducible
        first
        | assumption | apply Same.ite | apply State.slotOp_same (mask_sub hm rfl)
        | apply State.bump_same (mask_sub hm rfl) | apply Same.ite_snd | refine Same.snd ‹_ = (_, _)› ?_
    | (extract_lets +onlyGivenNames x
       first
       | (refine Same.cut (m := m) (r := r) (x := x) ?_ ?_ <;> first | (clear_value x; intro hx) | subst x)
       | subst x)
    | split
    | dsimp only)

theorem execHzLdstNop_same {m : Nat} {r s : State} (hm : m &&& 10897416 = 0) (h : Same m r s) (e : Nat) (_ls : Bool) :
    SameO m r (execHzLdstNop e _ls s) := by
  unfold execHzLdstNop
  repeat' (first
    | with_reducible first | assumption | apply SameO.next | apply State.slotOp_same (mask_sub hm rfl))

theorem execHzLdw_same {m : Nat} {r s : State} (hm : m &&& 10897416 = 0) (h : Same m r s) (e : Nat) (o : LsOp) :
    SameO m r (execHzLdw e o s) := by
  unfold execHzLdw
  repeat' (first
    | with_reducible first | assumption | apply SameO.next | apply State.load_same (mask_sub hm rfl))

theorem execHzLdb_same {m : Nat} {r s : State} (hm : m &&& 10897416 = 0) (h : Same m r s) (e : Nat) (o : LsOp) :
    SameO m r (execHzLdb e o s) := by
  unfold execHzLdb
  repeat' (first
    | with_reducible first | assumption | apply SameO.next | apply State.load_same (mask_sub hm rfl))

theorem execHzLdh_same {m : Nat} {r s : State} (hm : m &&& 10897416 = 0) (h : Same m r s) (e : Nat) (o : LsOp) :
    SameO m r (execHzLdh e o s) := by
  unfold execHzLdh
  repeat' (first
    | with_reducible first | assumption | apply SameO.next | apply State.load_same (mask_sub hm rfl))

theorem execHzLdhs_same {m : Nat} {r s : State} (hm : m &&& 10897416 = 0) (h : Same m r s) (e : Nat) (o : LsOp) :
    SameO m r (execHzLdhs e o s) := by
  unfold execHzLdhs
  repeat' (first
    | with_reducible first | assumption | apply SameO.next | apply State.load_same (mask_sub hm rfl))

theorem execHzLds_same {m : Nat} {r s : State} (hm : m &&& 10897416 = 0) (h : Same m r s) (e : Nat) (o : LsOp) :
    SameO m r (execHzLds e o s) := by
  unfold execHzLds
  repeat' (first
    | with_reducible first | assumption | apply SameO.next | apply State.load_same (mask_sub hm rfl))

theorem execHzLda_same {m : Nat} {r s : State} (hm : m &&& 10897416 = 0) (h : Same m r s) (e : Nat) (o : LsOp) :
    SameO m r (execHzLda e o s) := by
  unfold execHzLda
  repeat' (first
    | with_reducible first | assumption | apply SameO.next | apply State.load_same (mask_sub hm rfl))

theorem execHzStw_same {m : Nat} {r s : State} (hm : m &&& 10897416 = 0) (h : Same m r s) (e : Nat) (o : LsOp) :
    SameO m r (execHzStw e o s) := by
  unfold execHzStw
  repeat' (first
    | with_reducible
        first
        | assumption | apply SameO.next | apply State.store_same (mask_sub hm rfl) | refine Same.snd ‹_ = (_, _)› ?_)

theorem execHzStb_same {m : Nat} {r s : State} (hm : m &&& 10897416 = 0) (h : Same m r s) (e : Nat) (o : LsOp) :
    SameO m r (execHzStb e o s) := by
  unfold execHzStb
  repeat' (first
    | with_reducible
        first
        | assumption | apply SameO.next | apply State.store_same (mask_sub hm rfl) | refine Same.snd ‹_ = (_, _)› ?_)

theorem execHzSth_same {m : Nat} {r s : State} (hm : m &&& 10897416 = 0) (h : Same m r s) (e : Nat) (o : LsOp) :
    SameO m r (execHzSth e o s) := by
  unfold execHzSth
  repeat' (first
    | with_reducible
        first
        | assumption | apply SameO.next | apply State.store_same (mask_sub hm rfl) | refine Same.snd ‹_ = (_, _)› ?_
    | (extract_lets +onlyGivenNames x
       first
       | (refine Same.cut (m := m) (r := r) (x := x) ?_ ?_ <;> first | (clear_value x; intro hx) | subst x)
       | subst x)
    | split
    | dsimp only)

theorem execHzStbp_same {m : Nat} {r s : State} (hm : m &&& 10897416 = 0) (h : Same m r s) (e : Nat) (o : LsOp) :
    SameO m r (execHzStbp e o s) := by
  unfold execHzStbp
  repeat' (first
    | with_reducible
        first
        | assumption | apply SameO.next | apply State.store_same (mask_sub hm rfl) | refine Same.snd ‹_ = (_, _)› ?_)

theorem execHzSts_same {m : Nat} {r s : State} (hm : m &&& 10897416 = 0) (h : Same m r s) (e : Nat) (o : LsOp) :
    SameO m r (execHzSts e o s) := by
  unfold execHzSts
  repeat' (first
    | with_reducible
        first
        | assumption | apply SameO.next | apply State.store_same (mask_sub hm rfl) | refine Same.snd ‹_ = (_, _)› ?_)

theorem execHzSta_same {m : Nat} {r s : State} (hm : m &&& 10897416 = 0) (h : Same m r s) (e : Nat) (o : LsOp) :
    SameO m r (execHzSta e o s) := by
  unfold execHzSta
  repeat' (first
    | with_reducible
        first
        | assumption | apply SameO.next | apply State.store_same (mask_sub hm rfl) | refine Same.snd ‹_ = (_, _)› ?_
    | (extract_lets +onlyGivenNames x
       first
       | (refine Same.cut (m := m) (r := r) (x := x) ?_ ?_ <;> first | (clear_value x; intro hx) | subst x)
       | subst x)
    | split
    | dsimp only)

theorem execHzStaw_same {m : Nat} {r s : State} (hm : m &&& 10897416 = 0) (h : Same m r s) (e : Nat) (o : LsOp) :
    SameO m r (execHzStaw e o s) := by
  unfold execHzStaw
  repeat' (first
    | with_reducible
        first
        | assumption | apply SameO.next | apply State.store_same (mask_sub hm rfl) | refine Same.snd ‹_ = (_, _)› ?_
    | (extract_lets +onlyGivenNames x
       first
       | (refine Same.cut (m := m) (r := r) (x := x) ?_ ?_ <;> first | (clear_value x; intro hx) | subst x)
       | subst x)
    | split
    | dsimp only)

theorem execHzStaq_same {m : Nat} {r s : State} (hm : m &&& 10897416 = 0) (h : Same m r s) (e : Nat) (o : LsOp) :
    SameO m r (execHzStaq e o s) := by
  unfold execHzStaq
  repeat' (first
    | with_reducible
        first
        | assumption | apply SameO.next | apply State.store_same (mask_sub hm rfl) | refine Same.snd ‹_ = (_, _)› ?_)

theorem State.macForm_same {m : Nat} {r s : State} (hm : m &&& 10897416 = 0) (h : Same m r s) (e : Nat) (o : MacOp)
    (f : Int → Int → Int) :
    Same m r (State.macForm s e o f) := by
  unfold State.macForm
  repeat' (first
    | with_reducible first | assumption | apply State.slotOp_same (mask_sub hm rfl)
    | (extract_lets +onlyGivenNames x
       first
       | (refine Same.cut (m := m) (r := r) (x := x) ?_ ?_ <;> first | (clear_value x; intro hx) | subst x)
       | subst x)
    | split
    | dsimp only)

theorem State.accForm_same {m : Nat} {r s : State} (hm : m &&& 10897416 = 0) (h : Same m r s) (e : Nat) (o : MacOp)
    (legal : Bool) (reads : List RegId) (f : Regs → List Int) :
    Same m r (State.accForm s e o legal reads f) := by
  unfold State.accForm
  repeat' (first
    | with_reducible first | assumption | apply Same.ite | apply State.slotOp_same (mask_sub hm rfl))

theorem State.dForm_same {m : Nat} {r s : State} (hm : m &&& 10897416 = 0) (h : Same m r s) (e : Nat) (o : MacOp)
    (reads : List RegId) (f : Int → Int → Int) (sat : Bool) :
    Same m r (State.dForm s e o reads f sat) := by
  unfold State.dForm
  repeat' (first
    | with_reducible first | assumption | apply Same.ite | apply State.slotOp_same (mask_sub hm rfl)
    | (extract_lets +onlyGivenNames x
       first
       | (refine Same.cut (m := m) (r := r) (x := x) ?_ ?_ <;> first | (clear_value x; intro hx) | subst x)
       | subst x)
    | split
    | dsimp only)

theorem execHzMacNop_same {m : Nat} {r s : State} (hm : m &&& 10897416 = 0) (h : Same m r s) (e : Nat) :
    SameO m r (execHzMacNop e s) := by
  unfold execHzMacNop
  repeat' (first
    | with_reducible first | assumption | apply SameO.next | apply State.slotOp_same (mask_sub hm rfl))

theorem execHzMac_same {m : Nat} {r s : State} (hm : m &&& 10897416 = 0) (h : Same m r s) (e : Nat) (o : MacOp) :
    SameO m r (execHzMac e o s) := by
  unfold execHzMac
  repeat' (first
    | with_reducible first | assumption | apply SameO.next | apply State.macForm_same (mask_sub hm rfl))

theorem execHzMsu_same {m : Nat} {r s : State} (hm : m &&& 10897416 = 0) (h : Same m r s) (e : Nat) (o : MacOp) :
    SameO m r (execHzMsu e o s) := by
  unfold execHzMsu
  repeat' (first
    | with_reducible first | assumption | apply SameO.next | apply State.macForm_same (mask_sub hm rfl))

theorem execHzMpy_same {m : Nat} {r s : State} (hm : m &&& 10897416 = 0) (h : Same m r s) (e : Nat) (o : MacOp) :
    SameO m r (execHzMpy e o s) := by
  unfold execHzMpy
  repeat' (first
    | with_reducible first | assumption | apply SameO.next | apply State.accForm_same (mask_sub hm rfl)
    | dsimp only)

theorem execHzClr_same {m : Nat} {r s : State} (hm : m &&& 10897416 = 0) (h : Same m r s) (e : Nat) (o : MacOp) :
    SameO m r (execHzClr e o s) := by
  unfold execHzClr
  repeat' (first
    | with_reducible first | assumption | apply SameO.next | apply State.accForm_same (mask_sub hm rfl))

theorem execHzAccd_same {m : Nat} {r s : State} (hm : m &&& 10897416 = 0) (h : Same m r s) (e : Nat) (o : MacOp) :
    SameO m r (execHzAccd e o s) := by
  unfold execHzAccd
  repeat' (first
    | with_reducible first | assumption | apply SameO.next | apply State.slotOp_same (mask_sub hm rfl))

theorem execHzSeta_same {m : Nat} {r s : State} (hm : m &&& 10897416 = 0) (h : Same m r s) (e : Nat) (o : MacOp) :
    SameO m r (execHzSeta e o s) := by
  unfold execHzSeta
  repeat' (first
    | with_reducible first | assumption | apply SameO.next | apply State.accForm_same (mask_sub hm rfl))

theorem execHzRsa_same {m : Nat} {r s : State} (hm : m &&& 10897416 = 0) (h : Same m r s) (e : Nat) (o : MacOp) :
    SameO m r (execHzRsa e o s) := by
  unfold execHzRsa
  repeat' (first
    | with_reducible first | assumption | apply SameO.next | apply State.accForm_same (mask_sub hm rfl))

theorem execHzLsa_same {m : Nat} {r s : State} (hm : m &&& 10897416 = 0) (h : Same m r s) (e : Nat) (o : MacOp) :
    SameO m r (execHzLsa e o s) := by
  unfold execHzLsa
  repeat' (first
    | with_reducible first | assumption | apply SameO.next | apply State.accForm_same (mask_sub hm rfl))

theorem execHzDivr_same {m : Nat} {r s : State} (hm : m &&& 10897416 = 0) (h : Same m r s) (e : Nat) (o : MacOp) :
    SameO m r (execHzDivr e o s) := by
  unfold execHzDivr
  repeat' (first
    | with_reducible
        first
        | assumption | apply Same.ite | apply SameO.ite | apply SameO.next | apply State.slotOp_same (mask_sub hm rfl)
    | (extract_lets +onlyGivenNames x
       first
       | (refine Same.cut (m := m) (r := r) (x := x) ?_ ?_ <;> first | (clear_value x; intro hx) | subst x)
       | subst x)
    | split
    | dsimp only)

theorem execHzExt_same {m : Nat} {r s : State} (hm : m &&& 10897416 = 0) (h : Same m r s) (e : Nat) (o : MacOp) :
    SameO m r (execHzExt e o s) := by
  unfold execHzExt
  repeat' (first
    | with_reducible
        first
        | assumption | apply Same.ite | apply SameO.ite | apply SameO.next
        | apply State.slotOp_same (mask_sub hm rfl))

theorem execHzAdd_same {m : Nat} {r s : State} (hm : m &&& 10897416 = 0) (h : Same m r s) (e : Nat) (o : MacOp) :
    SameO m r (execHzAdd e o s) := by
  unfold execHzAdd
  repeat' (first
    | with_reducible first | assumption | apply SameO.next | apply State.dForm_same (mask_sub hm rfl))

theorem execHzSub_same {m : Nat} {r s : State} (hm : m &&& 10897416 = 0) (h : Same m r s) (e : Nat) (o : MacOp) :
    SameO m r (execHzSub e o s) := by
  unfold execHzSub
  repeat' (first
    | with_reducible first | assumption | apply SameO.next | apply State.dForm_same (mask_sub hm rfl))

theorem execHzAdds_same {m : Nat} {r s : State} (hm : m &&& 10897416 = 0) (h : Same m r s) (e : Nat) (o : MacOp) :
    SameO m r (execHzAdds e o s) := by
  unfold execHzAdds
  repeat' (first
    | with_reducible first | assumption | apply SameO.next | apply State.dForm_same (mask_sub hm rfl))

theorem execHzSubs_same {m : Nat} {r s : State} (hm : m &&& 10897416 = 0) (h : Same m r s) (e : Nat) (o : MacOp) :
    SameO m r (execHzSubs e o s) := by
  unfold execHzSubs
  repeat' (first
    | with_reducible first | assumption | apply SameO.next | apply State.dForm_same (mask_sub hm rfl))

theorem execHzMin_same {m : Nat} {r s : State} (hm : m &&& 10897416 = 0) (h : Same m r s) (e : Nat) (o : MacOp) :
    SameO m r (execHzMin e o s) := by
  unfold execHzMin
  repeat' (first
    | with_reducible first | assumption | apply SameO.next | apply State.dForm_same (mask_sub hm rfl))

theorem execHzMax_same {m : Nat} {r s : State} (hm : m &&& 10897416 = 0) (h : Same m r s) (e : Nat) (o : MacOp) :
    SameO m r (execHzMax e o s) := by
  unfold execHzMax
  repeat' (first
    | with_reducible first | assumption | apply SameO.next | apply State.dForm_same (mask_sub hm rfl))

theorem execHzAnd_same {m : Nat} {r s : State} (hm : m &&& 10897416 = 0) (h : Same m r s) (e : Nat) (o : MacOp) :
    SameO m r (execHzAnd e o s) := by
  unfold execHzAnd
  repeat' (first
    | with_reducible first | assumption | apply SameO.next | apply State.dForm_same (mask_sub hm rfl))

theorem execHzOr_same {m : Nat} {r s : State} (hm : m &&& 10897416 = 0) (h : Same m r s) (e : Nat) (o : MacOp) :
    SameO m r (execHzOr e o s) := by
  unfold execHzOr
  repeat' (first
    | with_reducible first | assumption | apply SameO.next | apply State.dForm_same (mask_sub hm rfl))

theorem execHzXor_same {m : Nat} {r s : State} (hm : m &&& 10897416 = 0) (h : Same m r s) (e : Nat) (o : MacOp) :
    SameO m r (execHzXor e o s) := by
  unfold execHzXor
  repeat' (first
    | with_reducible first | assumption | apply SameO.next | apply State.dForm_same (mask_sub hm rfl))

theorem State.shiftForm_same {m : Nat} {r s : State} (hm : m &&& 10897416 = 0) (h : Same m r s) (e : Nat)
    (o : MacOp) (f : Int → Int) :
    Same m r (State.shiftForm s e o f) := by
  unfold State.shiftForm
  repeat' (first
    | with_reducible first | assumption | apply Same.ite | apply State.slotOp_same (mask_sub hm rfl))

theorem execHzRsd_same {m : Nat} {r s : State} (hm : m &&& 10897416 = 0) (h : Same m r s) (e : Nat) (o : MacOp) :
    SameO m r (execHzRsd e o s) := by
  unfold execHzRsd
  repeat' (first
    | with_reducible first | assumption | apply SameO.next | apply State.shiftForm_same (mask_sub hm rfl))

theorem execHzLsd_same {m : Nat} {r s : State} (hm : m &&& 10897416 = 0) (h : Same m r s) (e : Nat) (o : MacOp) :
    SameO m r (execHzLsd e o s) := by
  unfold execHzLsd
  repeat' (first
    | with_reducible first | assumption | apply SameO.next | apply State.shiftForm_same (mask_sub hm rfl))

theorem State.compareForm_same {m : Nat} {r s : State} (hm : m &&& 10897416 = 0) (h : Same m r s) (e : Nat)
    (o : MacOp) (f : Int → Int → Bool) :
    Same m r (State.compareForm s e o f) := by
  unfold State.compareForm
  repeat' (first
    | with_reducible first | assumption | apply Same.ite | apply State.slotOp_same (mask_sub hm rfl)
    | (extract_lets +onlyGivenNames x
       first
       | (refine Same.cut (m := m) (r := r) (x := x) ?_ ?_ <;> first | (clear_value x; intro hx) | subst x)
       | subst x)
    | split
    | dsimp only)

theorem execHzCgt_same {m : Nat} {r s : State} (hm : m &&& 10897416 = 0) (h : Same m r s) (e : Nat) (o : MacOp) :
    SameO m r (execHzCgt e o s) := by
  unfold execHzCgt
  repeat' (first
    | with_reducible first | assumption | apply SameO.next | apply State.compareForm_same (mask_sub hm rfl))

theorem execHzCeq_same {m : Nat} {r s : State} (hm : m &&& 10897416 = 0) (h : Same m r s) (e : Nat) (o : MacOp) :
    SameO m r (execHzCeq e o s) := by
  unfold execHzCeq
  repeat' (first
    | with_reducible first | assumption | apply SameO.next | apply State.compareForm_same (mask_sub hm rfl))

theorem execHzSel_same {m : Nat} {r s : State} (hm : m &&& 10897416 = 0) (h : Same m r s) (e : Nat) (o : MacOp) :
    SameO m r (execHzSel e o s) := by
  unfold execHzSel
  repeat' (first
    | with_reducible
        first
        | assumption | apply Same.ite | apply SameO.ite | apply SameO.next | apply State.slotOp_same (mask_sub hm rfl)
    | (extract_lets +onlyGivenNames x
       first
       | (refine Same.cut (m := m) (r := r) (x := x) ?_ ?_ <;> first | (clear_value x; intro hx) | subst x)
       | subst x)
    | split
    | dsimp only)

theorem execHzMov_same {m : Nat} {r s : State} (hm : m &&& 10897416 = 0) (h : Same m r s) (e : Nat) (o : MacOp) :
    SameO m r (execHzMov e o s) := by
  unfold execHzMov
  repeat' (first
    | with_reducible first | assumption | apply SameO.next | apply State.dForm_same (mask_sub hm rfl))

theorem execHzPrm_same {m : Nat} {r s : State} (hm : m &&& 10897416 = 0) (h : Same m r s) (e : Nat) (o : MacOp) :
    SameO m r (execHzPrm e o s) := by
  unfold execHzPrm
  repeat' (first
    | with_reducible
        first
        | assumption | apply Same.ite | apply SameO.ite | apply SameO.next | apply State.slotOp_same (mask_sub hm rfl)
    | (extract_lets +onlyGivenNames x
       first
       | (refine Same.cut (m := m) (r := r) (x := x) ?_ ?_ <;> first | (clear_value x; intro hx) | subst x)
       | subst x)
    | split
    | dsimp only)

theorem execHzAbs_same {m : Nat} {r s : State} (hm : m &&& 10897416 = 0) (h : Same m r s) (e : Nat) (o : MacOp) :
    SameO m r (execHzAbs e o s) := by
  unfold execHzAbs
  repeat' (first
    | with_reducible
        first
        | assumption | apply Same.ite | apply SameO.ite | apply SameO.next
        | apply State.slotOp_same (mask_sub hm rfl))

end Sys2Proof.Machine
end

