-- ==== Sys2Proof/Laws/SameLanes.lean ====
section
/-! SUPPORT. Which parts each function of the model leaves as they were:
the host lanes, Flax and Almond. -/

namespace Sys2Proof.Machine

open Sys2Proof

set_option linter.unusedSimpArgs false
set_option linter.unusedVariables false

/-! ## Lanes -/

theorem State.setTx_same {m : Nat} {r s : State} (hm : m &&& 4194304 = 0) (h : Same m r s) (n : Nat) (f : TxLane → TxLane) :
    Same m r (State.setTx s n f) := by
  unfold State.setTx
  repeat' (first
    | with_reducible first | assumption
    | (simp only [Same.lit]; with_reducible refine SameLit.of hm ?_ ?_)
    | (refine fun (p : Part) (hp : Nat.testBit _ (Part.ix p) = false) => ?_; cases p <;> first | exact absurd hp (by decide) | (simp only [Part.same, and_self]; done))
    | (extract_lets +onlyGivenNames x
       first
       | (refine Same.cut (m := m) (r := r) (x := x) ?_ ?_ <;> first | (clear_value x; intro hx) | subst x)
       | subst x)
    | split
    | dsimp only)

theorem State.setRx_same {m : Nat} {r s : State} (hm : m &&& 4194304 = 0) (h : Same m r s) (m' : Nat) (f : RxLane → RxLane) :
    Same m r (State.setRx s m' f) := by
  unfold State.setRx
  repeat' (first
    | with_reducible first | assumption
    | (simp only [Same.lit]; with_reducible refine SameLit.of hm ?_ ?_)
    | (refine fun (p : Part) (hp : Nat.testBit _ (Part.ix p) = false) => ?_; cases p <;> first | exact absurd hp (by decide) | (simp only [Part.same, and_self]; done))
    | (extract_lets +onlyGivenNames x
       first
       | (refine Same.cut (m := m) (r := r) (x := x) ?_ ?_ <;> first | (clear_value x; intro hx) | subst x)
       | subst x)
    | split
    | dsimp only)

theorem State.nextFrame_same {m : Nat} {r s : State} (hm : m &&& 10485768 = 0) (h : Same m r s) (lane : Nat) (q : Nat) :
    Same m r (State.nextFrame s lane q).2 := by
  unfold State.nextFrame
  repeat' (first
    | with_reducible
        first
        | assumption | apply Same.ite | apply State.setQueue_same (mask_sub hm rfl)
        | apply State.releaseRegions_same (mask_sub hm rfl) | apply State.releaseBanks_same (mask_sub hm rfl)
        | apply Same.ite_snd | refine Same.snd ‹_ = (_, _)› ?_
    | (simp only [Same.lit]; with_reducible refine SameLit.of hm ?_ ?_)
    | (refine fun (p : Part) (hp : Nat.testBit _ (Part.ix p) = false) => ?_; cases p <;> first | exact absurd hp (by decide) | (simp only [Part.same, and_self]; done))
    | (extract_lets +onlyGivenNames x
       first
       | (refine Same.cut (m := m) (r := r) (x := x) ?_ ?_ <;> first | (clear_value x; intro hx) | subst x)
       | subst x)
    | split
    | dsimp only)

theorem State.sendNew_same {m : Nat} {r s : State} (hm : m &&& 2151677992 = 0) (h : Same m r s) (lane : Nat)
    (f : LaneFrame) :
    Same m r (State.sendNew s lane f) := by
  unfold State.sendNew
  repeat' (first
    | with_reducible
        first
        | assumption | apply State.setTx_same (mask_sub hm rfl) | apply State.sendData_same (mask_sub hm rfl)
        | apply State.bump_same (mask_sub hm rfl)
    | (extract_lets +onlyGivenNames x
       first
       | (refine Same.cut (m := m) (r := r) (x := x) ?_ ?_ <;> first | (clear_value x; intro hx) | subst x)
       | subst x)
    | split
    | dsimp only)

theorem execDataFrame_same {m : Nat} {r s : State} (hm : m &&& 2162165802 = 0) (h : Same m r s) (t : Nat) (lane : Nat) :
    SameO m r (execDataFrame t lane s) := by
  unfold execDataFrame
  repeat' (first
    | with_reducible
        first
        | assumption | apply Same.ite | apply SameO.ite | apply SameO.next | apply State.at_same (mask_sub hm rfl)
        | apply State.setTx_same (mask_sub hm rfl) | apply State.putFrame_same (mask_sub hm rfl)
        | apply State.count_same (mask_sub hm rfl) | apply State.bump_same (mask_sub hm rfl)
        | apply State.nextFrame_same (mask_sub hm rfl) | apply State.sendNew_same (mask_sub hm rfl)
        | apply Same.ite_snd | refine Same.snd ‹_ = (_, _)› ?_
    | (extract_lets +onlyGivenNames x
       first
       | (refine Same.cut (m := m) (r := r) (x := x) ?_ ?_ <;> first | (clear_value x; intro hx) | subst x)
       | subst x)
    | split
    | dsimp only)

theorem execDeviceControlFrame_same {m : Nat} {r s : State} (hm : m &&& 4194346 = 0) (h : Same m r s) (t : Nat)
    (lane : Nat) :
    SameO m r (execDeviceControlFrame t lane s) := by
  unfold execDeviceControlFrame
  repeat' (first
    | with_reducible
        first
        | assumption | apply Same.ite | apply SameO.ite | apply SameO.next | apply State.at_same (mask_sub hm rfl)
        | apply State.setTx_same (mask_sub hm rfl) | apply State.putFrame_same (mask_sub hm rfl)
        | apply State.bump_same (mask_sub hm rfl)
    | (extract_lets +onlyGivenNames x
       first
       | (refine Same.cut (m := m) (r := r) (x := x) ?_ ?_ <;> first | (clear_value x; intro hx) | subst x)
       | subst x)
    | split
    | dsimp only)

theorem State.oweControl_same {m : Nat} {r s : State} (hm : m &&& 4194304 = 0) (h : Same m r s) :
    Same m r (State.oweControl s) := by
  unfold State.oweControl
  repeat' (first
    | with_reducible first | assumption | apply Same.ite
    | (simp only [Same.lit]; with_reducible refine SameLit.of hm ?_ ?_)
    | (refine fun (p : Part) (hp : Nat.testBit _ (Part.ix p) = false) => ?_; cases p <;> first | exact absurd hp (by decide) | (simp only [Part.same, and_self]; done))
    | (extract_lets +onlyGivenNames x
       first
       | (refine Same.cut (m := m) (r := r) (x := x) ?_ ?_ <;> first | (clear_value x; intro hx) | subst x)
       | subst x)
    | split
    | dsimp only)

theorem State.rejectDownload_same {m : Nat} {r s : State} (hm : m &&& 4194304 = 0) (h : Same m r s) :
    Same m r (State.rejectDownload s) := by
  unfold State.rejectDownload
  repeat' (first
    | with_reducible first | assumption | apply State.oweControl_same (mask_sub hm rfl)
    | (simp only [Same.lit]; with_reducible refine SameLit.of hm ?_ ?_)
    | (refine fun (p : Part) (hp : Nat.testBit _ (Part.ix p) = false) => ?_; cases p <;> first | exact absurd hp (by decide) | (simp only [Part.same, and_self]; done))
    | (extract_lets +onlyGivenNames x
       first
       | (refine Same.cut (m := m) (r := r) (x := x) ?_ ?_ <;> first | (clear_value x; intro hx) | subst x)
       | subst x)
    | split
    | dsimp only)

theorem State.received_same {m : Nat} {r s : State} (hm : m &&& 8 = 0) (h : Same m r s) (m' : Nat) :
    Same m r (State.received s m') := by
  unfold State.received
  repeat' (first
    | with_reducible first | assumption | apply State.bump_same (mask_sub hm rfl))

theorem State.creditFrame_same {m : Nat} {r s : State} (hm : m &&& 4194304 = 0) (h : Same m r s) (words : List Nat) :
    Same m r (State.creditFrame s words) := by
  unfold State.creditFrame
  repeat' (first
    | with_reducible first | assumption | apply Same.ite
    | (simp only [Same.lit]; with_reducible refine SameLit.of hm ?_ ?_)
    | (refine fun (p : Part) (hp : Nat.testBit _ (Part.ix p) = false) => ?_; cases p <;> first | exact absurd hp (by decide) | (simp only [Part.same, and_self]; done))
    | (extract_lets +onlyGivenNames x
       first
       | (refine Same.cut (m := m) (r := r) (x := x) ?_ ?_ <;> first | (clear_value x; intro hx) | subst x)
       | subst x)
    | split
    | dsimp only)

theorem State.chargeMiss_same {m : Nat} {r s : State} (hm : m &&& 512 = 0) (h : Same m r s) :
    Same m r (State.chargeMiss s) := by
  unfold State.chargeMiss
  repeat' (first
    | with_reducible first | assumption | apply Same.ite
    | (simp only [Same.lit]; with_reducible refine SameLit.of hm ?_ ?_)
    | (refine fun (p : Part) (hp : Nat.testBit _ (Part.ix p) = false) => ?_; cases p <;> first | exact absurd hp (by decide) | (simp only [Part.same, and_self]; done))
    | (extract_lets +onlyGivenNames x
       first
       | (refine Same.cut (m := m) (r := r) (x := x) ?_ ?_ <;> first | (clear_value x; intro hx) | subst x)
       | subst x)
    | split
    | dsimp only)

theorem State.replayOne_same {m : Nat} {r s : State} (hm : m &&& 4194824 = 0) (h : Same m r s) (n : Nat) (seq : Nat) :
    Same m r (State.replayOne s n seq) := by
  unfold State.replayOne
  repeat' (first
    | with_reducible
        first
        | assumption | apply Same.ite | apply State.setTx_same (mask_sub hm rfl)
        | apply State.bump_same (mask_sub hm rfl) | apply State.chargeMiss_same (mask_sub hm rfl)
        | apply State.oweControl_same (mask_sub hm rfl) | apply Same.ite_snd | refine Same.snd ‹_ = (_, _)› ?_
    | (simp only [Same.lit]; with_reducible refine SameLit.of hm ?_ ?_)
    | (refine fun (p : Part) (hp : Nat.testBit _ (Part.ix p) = false) => ?_; cases p <;> first | exact absurd hp (by decide) | (simp only [Part.same, and_self]; done))
    | (extract_lets +onlyGivenNames x
       first
       | (refine Same.cut (m := m) (r := r) (x := x) ?_ ?_ <;> first | (clear_value x; intro hx) | subst x)
       | subst x)
    | split
    | dsimp only)

theorem State.replayFrame_same {m : Nat} {r s : State} (hm : m &&& 4194824 = 0) (h : Same m r s) (entries : List
    (Nat × Nat × Nat)) :
    Same m r (State.replayFrame s entries) := by
  unfold State.replayFrame
  repeat' (first
    | with_reducible
        first
        | assumption | apply State.replayOne_same (mask_sub hm rfl) | refine Same.foldl (fun _ _ _ => ?_) _ ?_
        | refine Same.snd ‹_ = (_, _)› ?_
    | (extract_lets +onlyGivenNames x
       first
       | (refine Same.cut (m := m) (r := r) (x := x) ?_ ?_ <;> first | (clear_value x; intro hx) | subst x)
       | subst x)
    | split
    | dsimp only
    | (with_reducible intro s1 h1; dsimp only)
    | with_reducible intro s1 h1)

theorem State.moveResends_same {m : Nat} {r s : State} (hm : m &&& 4194304 = 0) (h : Same m r s) :
    Same m r (State.moveResends s) := by
  unfold State.moveResends
  repeat' (first
    | with_reducible
        first
        | assumption | apply Same.ite | apply State.setTx_same (mask_sub hm rfl)
        | refine Same.foldl (fun _ _ _ => ?_) _ ?_
    | (extract_lets +onlyGivenNames x
       first
       | (refine Same.cut (m := m) (r := r) (x := x) ?_ ?_ <;> first | (clear_value x; intro hx) | subst x)
       | subst x)
    | split
    | dsimp only
    | (with_reducible intro s1 h1; dsimp only)
    | with_reducible intro s1 h1)

theorem State.upLanes_same {m : Nat} {r s : State} (hm : m &&& 4194304 = 0) (h : Same m r s) :
    Same m r (State.upLanes s) := by
  unfold State.upLanes
  repeat' (first
    | with_reducible
        first
        | assumption | apply Same.ite | apply State.setTx_same (mask_sub hm rfl)
        | refine Same.foldl (fun _ _ _ => ?_) _ ?_
    | (with_reducible intro s1 h1; dsimp only)
    | with_reducible intro s1 h1)

theorem State.hostStatusFrame_same {m : Nat} {r s : State} (hm : m &&& 4194312 = 0) (h : Same m r s) (mask : Nat) :
    Same m r (State.hostStatusFrame s mask) := by
  unfold State.hostStatusFrame
  repeat' (first
    | with_reducible
        first
        | assumption | apply Same.ite | apply State.os_same (mask_sub hm rfl)
        | apply State.setTx_same (mask_sub hm rfl) | apply State.moveResends_same (mask_sub hm rfl)
        | apply State.upLanes_same (mask_sub hm rfl) | refine Same.foldl (fun _ _ _ => ?_) _ ?_
    | (extract_lets +onlyGivenNames x
       first
       | (refine Same.cut (m := m) (r := r) (x := x) ?_ ?_ <;> first | (clear_value x; intro hx) | subst x)
       | subst x)
    | split
    | dsimp only
    | (with_reducible intro s1 h1; dsimp only)
    | with_reducible intro s1 h1)

theorem execBlockLock_same {m : Nat} {r s : State} (hm : m &&& 4194314 = 0) (h : Same m r s) (t : Nat) (lane : Nat) :
    SameO m r (execBlockLock t lane s) := by
  unfold execBlockLock
  repeat' (first
    | with_reducible
        first
        | assumption | apply Same.ite | apply SameO.ite | apply SameO.next | apply State.at_same (mask_sub hm rfl)
        | apply State.moveResends_same (mask_sub hm rfl) | apply State.upLanes_same (mask_sub hm rfl)
        | apply State.osBit_same (mask_sub hm rfl) | apply State.setRx_same (mask_sub hm rfl)
    | (extract_lets +onlyGivenNames x
       first
       | (refine Same.cut (m := m) (r := r) (x := x) ?_ ?_ <;> first | (clear_value x; intro hx) | subst x)
       | subst x)
    | split
    | dsimp only)

theorem execLockLoss_same {m : Nat} {r s : State} (hm : m &&& 4194314 = 0) (h : Same m r s) (t : Nat) (lane : Nat) :
    SameO m r (execLockLoss t lane s) := by
  unfold execLockLoss
  repeat' (first
    | with_reducible
        first
        | assumption | apply Same.ite | apply SameO.ite | apply SameO.next | apply State.at_same (mask_sub hm rfl)
        | apply State.bump_same (mask_sub hm rfl) | apply State.osBit_same (mask_sub hm rfl)
        | apply State.setRx_same (mask_sub hm rfl)
    | (extract_lets +onlyGivenNames x
       first
       | (refine Same.cut (m := m) (r := r) (x := x) ?_ ?_ <;> first | (clear_value x; intro hx) | subst x)
       | subst x)
    | split
    | dsimp only)

theorem execElectricalIdleEntry_same {m : Nat} {r s : State} (hm : m &&& 4194306 = 0) (h : Same m r s) (t : Nat)
    (lane : Nat) :
    SameO m r (execElectricalIdleEntry t lane s) := by
  unfold execElectricalIdleEntry
  repeat' (first
    | with_reducible
        first
        | assumption | apply Same.ite | apply SameO.ite | apply SameO.next | apply State.at_same (mask_sub hm rfl)
        | apply State.setTx_same (mask_sub hm rfl)
    | (extract_lets +onlyGivenNames x
       first
       | (refine Same.cut (m := m) (r := r) (x := x) ?_ ?_ <;> first | (clear_value x; intro hx) | subst x)
       | subst x)
    | split
    | dsimp only)

theorem State.wakeLane_same {m : Nat} {r s : State} (hm : m &&& 4194304 = 0) (h : Same m r s) (lane : Nat) :
    Same m r (State.wakeLane s lane) := by
  unfold State.wakeLane
  repeat' (first
    | with_reducible first | assumption | apply Same.ite | apply State.setTx_same (mask_sub hm rfl))

theorem execElectricalIdleExit_same {m : Nat} {r s : State} (hm : m &&& 4194306 = 0) (h : Same m r s) (t : Nat)
    (lane : Nat) :
    SameO m r (execElectricalIdleExit t lane s) := by
  unfold execElectricalIdleExit
  repeat' (first
    | with_reducible
        first
        | assumption | apply Same.ite | apply SameO.ite | apply SameO.next | apply State.at_same (mask_sub hm rfl)
        | apply State.wakeLane_same (mask_sub hm rfl)
    | (extract_lets +onlyGivenNames x
       first
       | (refine Same.cut (m := m) (r := r) (x := x) ?_ ?_ <;> first | (clear_value x; intro hx) | subst x)
       | subst x)
    | split
    | dsimp only)

theorem idleDelay_same {m : Nat} {r s : State} (hm : m &&& 4194312 = 0) (h : Same m r s) (v : Nat) :
    SameE m r (idleDelay v s) := by
  unfold idleDelay
  repeat' (first
    | with_reducible
        first
        | assumption | apply Same.ite | apply SameE.ite | apply SameE.ok | apply SameE.error
        | apply State.os_same (mask_sub hm rfl) | apply State.wakeLane_same (mask_sub hm rfl)
        | refine Same.foldl (fun _ _ _ => ?_) _ ?_ | refine Same.ofE ‹_ = Except.ok _› ?_
    | (extract_lets +onlyGivenNames x
       first
       | (refine Same.cut (m := m) (r := r) (x := x) ?_ ?_ <;> first | (clear_value x; intro hx) | subst x)
       | subst x)
    | split
    | dsimp only
    | (with_reducible intro s1 h1; dsimp only)
    | with_reducible intro s1 h1)

theorem execAdaptation_same {m : Nat} {r s : State} (hm : m &&& 4194314 = 0) (h : Same m r s) (t : Nat) (lane : Nat)
    (ctle : Nat) (dfe : List Int) (fom : Nat) :
    SameO m r (execAdaptation t lane ctle dfe fom s) := by
  unfold execAdaptation
  repeat' (first
    | with_reducible
        first
        | assumption | apply Same.ite | apply SameO.ite | apply SameO.next | apply State.at_same (mask_sub hm rfl)
        | apply State.setRx_same (mask_sub hm rfl) | apply State.os_same (mask_sub hm rfl)
        | apply State.osBit_same (mask_sub hm rfl)
    | (extract_lets +onlyGivenNames x
       first
       | (refine Same.cut (m := m) (r := r) (x := x) ?_ ?_ <;> first | (clear_value x; intro hx) | subst x)
       | subst x)
    | split
    | dsimp only)

theorem State.lanesStart_same {m : Nat} {r s : State} (hm : m &&& 4194442 = 0) (h : Same m r s) :
    Same m r (State.lanesStart s) := by
  unfold State.lanesStart
  repeat' (first
    | with_reducible first | assumption | apply State.os_same (mask_sub hm rfl)
    | (simp only [Same.lit]; with_reducible refine SameLit.of hm ?_ ?_)
    | (refine fun (p : Part) (hp : Nat.testBit _ (Part.ix p) = false) => ?_; cases p <;> first | exact absurd hp (by decide) | (simp only [Part.same, and_self]; done))
    | (extract_lets +onlyGivenNames x
       first
       | (refine Same.cut (m := m) (r := r) (x := x) ?_ ?_ <;> first | (clear_value x; intro hx) | subst x)
       | subst x)
    | split
    | dsimp only)

theorem State.lanesStop_same {m : Nat} {r s : State} (hm : m &&& 4194442 = 0) (h : Same m r s) :
    Same m r (State.lanesStop s) := by
  unfold State.lanesStop
  repeat' (first
    | with_reducible first | assumption | apply State.os_same (mask_sub hm rfl)
    | (simp only [Same.lit]; with_reducible refine SameLit.of hm ?_ ?_)
    | (refine fun (p : Part) (hp : Nat.testBit _ (Part.ix p) = false) => ?_; cases p <;> first | exact absurd hp (by decide) | (simp only [Part.same, and_self]; done))
    | (extract_lets +onlyGivenNames x
       first
       | (refine Same.cut (m := m) (r := r) (x := x) ?_ ?_ <;> first | (clear_value x; intro hx) | subst x)
       | subst x)
    | split
    | dsimp only)

/-! ## Flax -/

theorem State.busTouch_same {m : Nat} {r s : State} (hm : m &&& 8388608 = 0) (h : Same m r s) (a : Nat) (n : Nat) :
    Same m r (State.busTouch s a n) := by
  unfold State.busTouch
  repeat' (first
    | with_reducible first | assumption | apply Same.ite | apply State.touch_same (mask_sub hm rfl))

theorem State.busWrite_same {m : Nat} {r s : State} (hm : m &&& 8388608 = 0) (h : Same m r s) (a : Nat) (b : List Byte) :
    Same m r (State.busWrite s a b) := by
  unfold State.busWrite
  repeat' (first
    | with_reducible
        first
        | assumption | apply Same.ite | apply State.dramWrite_same (mask_sub hm rfl)
        | apply State.setMem_same (mask_sub hm rfl) | refine Same.foldl (fun _ _ _ => ?_) _ ?_
    | (extract_lets +onlyGivenNames x
       first
       | (refine Same.cut (m := m) (r := r) (x := x) ?_ ?_ <;> first | (clear_value x; intro hx) | subst x)
       | subst x)
    | split
    | dsimp only
    | (with_reducible intro s1 h1; dsimp only)
    | with_reducible intro s1 h1)

theorem State.setChan_same {m : Nat} {r s : State} (hm : m &&& 16777216 = 0) (h : Same m r s) (ch : Nat)
    (f : FlaxChan → FlaxChan) :
    Same m r (State.setChan s ch f) := by
  unfold State.setChan
  repeat' (first
    | with_reducible first | assumption
    | (simp only [Same.lit]; with_reducible refine SameLit.of hm ?_ ?_)
    | (refine fun (p : Part) (hp : Nat.testBit _ (Part.ix p) = false) => ?_; cases p <;> first | exact absurd hp (by decide) | (simp only [Part.same, and_self]; done))
    | (extract_lets +onlyGivenNames x
       first
       | (refine Same.cut (m := m) (r := r) (x := x) ?_ ?_ <;> first | (clear_value x; intro hx) | subst x)
       | subst x)
    | split
    | dsimp only)

theorem State.chanEnd_same {m : Nat} {r s : State} (hm : m &&& 16777224 = 0) (h : Same m r s) (ch : Nat) (code : Nat) :
    Same m r (State.chanEnd s ch code) := by
  unfold State.chanEnd
  repeat' (first
    | with_reducible
        first
        | assumption | apply Same.ite | apply State.setChan_same (mask_sub hm rfl)
        | apply State.os_same (mask_sub hm rfl)
    | (extract_lets +onlyGivenNames x
       first
       | (refine Same.cut (m := m) (r := r) (x := x) ?_ ?_ <;> first | (clear_value x; intro hx) | subst x)
       | subst x)
    | split
    | dsimp only)

theorem State.chanFault_same {m : Nat} {r s : State} (hm : m &&& 16777224 = 0) (h : Same m r s) (ch : Nat)
    (code : Nat) (at_ : Nat) :
    Same m r (State.chanFault s ch code at_) := by
  unfold State.chanFault
  repeat' (first
    | with_reducible
        first
        | assumption | apply State.chanEnd_same (mask_sub hm rfl) | apply State.os_same (mask_sub hm rfl))

theorem State.flaxStop_same {m : Nat} {r s : State} (hm : m &&& 16777224 = 0) (h : Same m r s) :
    Same m r (State.flaxStop s) := by
  unfold State.flaxStop
  repeat' (first
    | with_reducible
        first
        | assumption | apply State.chanEnd_same (mask_sub hm rfl) | refine Same.foldl (fun _ _ _ => ?_) _ ?_
    | (with_reducible intro s1 h1; dsimp only)
    | with_reducible intro s1 h1)

theorem flaxStart_same {m : Nat} {r s : State} (hm : m &&& 16777224 = 0) (h : Same m r s) (ch : Nat) :
    SameE m r (flaxStart ch s) := by
  unfold flaxStart
  repeat' (first
    | with_reducible
        first
        | assumption | apply SameE.ok | apply SameE.error | apply require_same (mask_sub hm rfl)
        | apply State.os_same (mask_sub hm rfl) | apply State.setChan_same (mask_sub hm rfl)
        | refine Same.ofE ‹_ = Except.ok _› ?_
    | (extract_lets +onlyGivenNames x
       first
       | (refine Same.cut (m := m) (r := r) (x := x) ?_ ?_ <;> first | (clear_value x; intro hx) | subst x)
       | subst x)
    | split
    | dsimp only
    | (with_reducible intro s1 h1; dsimp only)
    | with_reducible intro s1 h1)

theorem execFlaxStart_same {m : Nat} {r s : State} (hm : m &&& 16777514 = 0) (h : Same m r s) (t : Nat) (c : Nat)
    (ch : Nat) :
    SameO m r (execFlaxStart t c ch s) := by
  unfold execFlaxStart
  repeat' (first
    | with_reducible
        first
        | assumption | apply SameE.ok | apply SameE.error | apply SameO.next
        | apply State.hostWrite_same (mask_sub hm rfl) | apply State.at_same (mask_sub hm rfl)
        | apply flaxStart_same (mask_sub hm rfl) | refine Same.ofE ‹_ = Except.ok _› ?_
    | (with_reducible intro s1 h1; dsimp only)
    | with_reducible intro s1 h1)

theorem flaxHalt_same {m : Nat} {r s : State} (hm : m &&& 16777224 = 0) (h : Same m r s) (ch : Nat) :
    SameE m r (flaxHalt ch s) := by
  unfold flaxHalt
  repeat' (first
    | with_reducible
        first
        | assumption | apply Same.ite | apply SameE.ite | apply SameE.ok | apply SameE.error
        | apply require_same (mask_sub hm rfl) | apply State.setChan_same (mask_sub hm rfl)
        | apply State.chanEnd_same (mask_sub hm rfl) | refine Same.ofE ‹_ = Except.ok _› ?_
    | (with_reducible intro s1 h1; dsimp only)
    | with_reducible intro s1 h1)

theorem execFlaxStop_same {m : Nat} {r s : State} (hm : m &&& 16777514 = 0) (h : Same m r s) (t : Nat) (c : Nat) (ch : Nat) :
    SameO m r (execFlaxStop t c ch s) := by
  unfold execFlaxStop
  repeat' (first
    | with_reducible
        first
        | assumption | apply SameE.ok | apply SameE.error | apply SameO.next
        | apply State.hostWrite_same (mask_sub hm rfl) | apply State.at_same (mask_sub hm rfl)
        | apply flaxHalt_same (mask_sub hm rfl) | refine Same.ofE ‹_ = Except.ok _› ?_
    | (with_reducible intro s1 h1; dsimp only)
    | with_reducible intro s1 h1)

theorem State.loadDesc_same {m : Nat} {r s : State} (hm : m &&& 25165832 = 0) (h : Same m r s) (ch : Nat) :
    Same m r (State.loadDesc s ch) := by
  unfold State.loadDesc
  repeat' (first
    | with_reducible
        first
        | assumption | apply Same.ite | apply State.chanFault_same (mask_sub hm rfl)
        | apply State.busTouch_same (mask_sub hm rfl) | apply State.setChan_same (mask_sub hm rfl)
    | (extract_lets +onlyGivenNames x
       first
       | (refine Same.cut (m := m) (r := r) (x := x) ?_ ?_ <;> first | (clear_value x; intro hx) | subst x)
       | subst x)
    | split
    | dsimp only)

theorem State.examine_same {m : Nat} {r s : State} (hm : m &&& 25165832 = 0) (h : Same m r s) :
    Same m r (State.examine s) := by
  unfold State.examine
  repeat' (first
    | with_reducible
        first
        | assumption | apply Same.ite | apply State.chanEnd_same (mask_sub hm rfl)
        | apply State.loadDesc_same (mask_sub hm rfl) | apply State.setChan_same (mask_sub hm rfl)
        | refine Same.foldl (fun _ _ _ => ?_) _ ?_
    | (extract_lets +onlyGivenNames x
       first
       | (refine Same.cut (m := m) (r := r) (x := x) ?_ ?_ <;> first | (clear_value x; intro hx) | subst x)
       | subst x)
    | split
    | dsimp only
    | (with_reducible intro s1 h1; dsimp only)
    | with_reducible intro s1 h1)

theorem State.grant_same {m : Nat} {r s : State} (hm : m &&& 16777224 = 0) (h : Same m r s) :
    Same m r (State.grant s) := by
  unfold State.grant
  repeat' (first
    | with_reducible
        first
        | assumption | apply Same.ite | apply State.os_same (mask_sub hm rfl)
        | apply State.setChan_same (mask_sub hm rfl) | refine Same.foldl (fun _ _ _ => ?_) _ ?_
    | (extract_lets +onlyGivenNames x
       first
       | (refine Same.cut (m := m) (r := r) (x := x) ?_ ?_ <;> first | (clear_value x; intro hx) | subst x)
       | subst x)
    | split
    | dsimp only
    | (with_reducible intro s1 h1; dsimp only)
    | with_reducible intro s1 h1)

theorem State.moveElem_same {m : Nat} {r s : State} (hm : m &&& 25165832 = 0) (h : Same m r s) (ch : Nat) (i : Nat)
    (noise : Nat) :
    Same m r (State.moveElem s ch i noise) := by
  unfold State.moveElem
  repeat' (first
    | with_reducible
        first
        | assumption | apply Same.ite | apply State.busTouch_same (mask_sub hm rfl)
        | apply State.busWrite_same (mask_sub hm rfl) | apply State.os_same (mask_sub hm rfl)
        | apply State.bump_same (mask_sub hm rfl) | apply State.setChan_same (mask_sub hm rfl)
    | (extract_lets +onlyGivenNames x
       first
       | (refine Same.cut (m := m) (r := r) (x := x) ?_ ?_ <;> first | (clear_value x; intro hx) | subst x)
       | subst x)
    | split
    | dsimp only)

theorem State.readLost_same {m : Nat} {r s : State} (hm : m &&& 264200 = 0) (h : Same m r s) (a : Nat) :
    Same m r (State.readLost s a) := by
  unfold State.readLost
  repeat' (first
    | with_reducible
        first
        | assumption | apply Same.ite | apply State.pulse_same (mask_sub hm rfl)
        | apply State.os_same (mask_sub hm rfl) | apply State.bump_same (mask_sub hm rfl)
        | apply State.eccLost_same (mask_sub hm rfl))

theorem State.readFixed_same {m : Nat} {r s : State} (hm : m &&& 2056 = 0) (h : Same m r s) (a : Nat) (n : Nat) :
    Same m r (State.readFixed s a n) := by
  unfold State.readFixed
  repeat' (first
    | with_reducible
        first
        | assumption | apply Same.ite | apply State.dramFixed_same (mask_sub hm rfl)
        | apply State.count_same (mask_sub hm rfl) | apply State.bump_same (mask_sub hm rfl))

theorem State.moveBurst_same {m : Nat} {r : State} (hm : m &&& 25430028 = 0) (ch : Nat) (bad : Option Nat) : ∀ (n off : Nat) {s : State}, Same m r s →
    Same m r (State.moveBurst s ch bad n off)
  | 0, _, _, h => h
  | n + 1, off, s, h => by
    unfold State.moveBurst
    repeat' (first
    | with_reducible
          first
          | assumption | apply Same.ite | apply State.chanFault_same (mask_sub hm rfl)
          | apply State.draw_same (mask_sub hm rfl) | apply State.moveElem_same (mask_sub hm rfl)
          | apply State.readLost_same (mask_sub hm rfl) | apply State.moveBurst_same (mask_sub hm rfl)
          | apply Same.ite_snd | refine Same.snd ‹_ = (_, _)› ?_
      | (extract_lets +onlyGivenNames x
         first
         | (refine Same.cut (m := m) (r := r) (x := x) ?_ ?_ <;> first | (clear_value x; intro hx) | subst x)
         | subst x)
      | split
      | dsimp only)

theorem execFlaxBurst_same {m : Nat} {r s : State} (hm : m &&& 25430030 = 0) (h : Same m r s) (t : Nat)
    (memError : Option Nat) (corrected : Nat) :
    SameO m r (execFlaxBurst t memError corrected s) := by
  unfold execFlaxBurst
  repeat' (first
    | with_reducible
        first
        | assumption | apply Same.ite | apply SameO.ite | apply SameO.next | apply State.at_same (mask_sub hm rfl)
        | apply State.grant_same (mask_sub hm rfl) | apply State.examine_same (mask_sub hm rfl)
        | apply State.moveBurst_same (mask_sub hm rfl) | apply State.readFixed_same (mask_sub hm rfl)
        | apply State.chanFault_same (mask_sub hm rfl)
    | (extract_lets +onlyGivenNames x
       first
       | (refine Same.cut (m := m) (r := r) (x := x) ?_ ?_ <;> first | (clear_value x; intro hx) | subst x)
       | subst x)
    | split
    | dsimp only)

theorem execDescriptorComplete_same {m : Nat} {r s : State} (hm : m &&& 25165834 = 0) (h : Same m r s) (t : Nat) :
    SameO m r (execDescriptorComplete t s) := by
  unfold execDescriptorComplete
  repeat' (first
    | with_reducible
        first
        | assumption | apply Same.ite | apply SameO.ite | apply SameO.next | apply State.at_same (mask_sub hm rfl)
        | apply State.busTouch_same (mask_sub hm rfl) | apply State.chanEnd_same (mask_sub hm rfl)
        | apply State.chanFault_same (mask_sub hm rfl) | apply State.setChan_same (mask_sub hm rfl)
        | apply State.os_same (mask_sub hm rfl)
    | (extract_lets +onlyGivenNames x
       first
       | (refine Same.cut (m := m) (r := r) (x := x) ?_ ?_ <;> first | (clear_value x; intro hx) | subst x)
       | subst x)
    | split
    | dsimp only)

/-! ## Almond -/

theorem State.setAl_same {m : Nat} {r s : State} (hm : m &&& 33554432 = 0) (h : Same m r s) (f : Almond → Almond) :
    Same m r (State.setAl s f) := by
  unfold State.setAl
  repeat' (first
    | with_reducible first | assumption
    | (simp only [Same.lit]; with_reducible refine SameLit.of hm ?_ ?_)
    | (refine fun (p : Part) (hp : Nat.testBit _ (Part.ix p) = false) => ?_; cases p <;> first | exact absurd hp (by decide) | (simp only [Part.same, and_self]; done))
    | dsimp only)

theorem jobStart_same {m : Nat} {r s : State} (hm : m &&& 33554440 = 0) (h : Same m r s) : SameE m r (jobStart s) := by
  unfold jobStart
  repeat' (first
    | with_reducible
        first
        | assumption | apply Same.ite | apply SameE.ite | apply SameE.ok | apply SameE.error
        | apply require_same (mask_sub hm rfl) | apply State.setAl_same (mask_sub hm rfl)
        | apply State.os_same (mask_sub hm rfl) | refine Same.ofE ‹_ = Except.ok _› ?_
    | (extract_lets +onlyGivenNames x
       first
       | (refine Same.cut (m := m) (r := r) (x := x) ?_ ?_ <;> first | (clear_value x; intro hx) | subst x)
       | subst x)
    | split
    | dsimp only
    | (with_reducible intro s1 h1; dsimp only)
    | with_reducible intro s1 h1)

theorem execJobStart_same {m : Nat} {r s : State} (hm : m &&& 33554730 = 0) (h : Same m r s) (t : Nat) (c : Nat) :
    SameO m r (execJobStart t c s) := by
  unfold execJobStart
  repeat' (first
    | with_reducible
        first
        | assumption | apply SameE.ok | apply SameE.error | apply SameO.next
        | apply State.hostWrite_same (mask_sub hm rfl) | apply State.at_same (mask_sub hm rfl)
        | apply jobStart_same (mask_sub hm rfl) | refine Same.ofE ‹_ = Except.ok _› ?_
    | (with_reducible intro s1 h1; dsimp only)
    | with_reducible intro s1 h1)

theorem jobResume_same {m : Nat} {r s : State} (hm : m &&& 33554440 = 0) (h : Same m r s) :
    SameE m r (jobResume s) := by
  unfold jobResume
  repeat' (first
    | with_reducible
        first
        | assumption | apply SameE.ok | apply SameE.error | apply require_same (mask_sub hm rfl)
        | apply State.os_same (mask_sub hm rfl) | apply State.setAl_same (mask_sub hm rfl)
        | refine Same.ofE ‹_ = Except.ok _› ?_
    | split
    | dsimp only
    | (with_reducible intro s1 h1; dsimp only)
    | with_reducible intro s1 h1)

theorem execJobResume_same {m : Nat} {r s : State} (hm : m &&& 33554730 = 0) (h : Same m r s) (t : Nat) (c : Nat) :
    SameO m r (execJobResume t c s) := by
  unfold execJobResume
  repeat' (first
    | with_reducible
        first
        | assumption | apply SameE.ok | apply SameE.error | apply SameO.next
        | apply State.hostWrite_same (mask_sub hm rfl) | apply State.at_same (mask_sub hm rfl)
        | apply jobResume_same (mask_sub hm rfl) | refine Same.ofE ‹_ = Except.ok _› ?_
    | (with_reducible intro s1 h1; dsimp only)
    | with_reducible intro s1 h1)

theorem jobAbandon_same {m : Nat} {r s : State} (hm : m &&& 33554440 = 0) (h : Same m r s) :
    SameE m r (jobAbandon s) := by
  unfold jobAbandon
  repeat' (first
    | with_reducible
        first
        | assumption | apply Same.ite | apply SameE.ite | apply SameE.ok | apply SameE.error
        | apply State.os_same (mask_sub hm rfl) | apply State.setAl_same (mask_sub hm rfl)
        | refine Same.ofE ‹_ = Except.ok _› ?_
    | (with_reducible intro s1 h1; dsimp only)
    | with_reducible intro s1 h1)

theorem execJobAbandon_same {m : Nat} {r s : State} (hm : m &&& 33554730 = 0) (h : Same m r s) (t : Nat) (c : Nat) :
    SameO m r (execJobAbandon t c s) := by
  unfold execJobAbandon
  repeat' (first
    | with_reducible
        first
        | assumption | apply SameE.ok | apply SameE.error | apply SameO.next
        | apply State.hostWrite_same (mask_sub hm rfl) | apply State.at_same (mask_sub hm rfl)
        | apply jobAbandon_same (mask_sub hm rfl) | refine Same.ofE ‹_ = Except.ok _› ?_
    | (with_reducible intro s1 h1; dsimp only)
    | with_reducible intro s1 h1)

theorem State.closeBuf_same {m : Nat} {r s : State} (hm : m &&& 8388608 = 0) (h : Same m r s) (j : Job) (pad : Bool) :
    Same m r (State.closeBuf s j pad) := by
  unfold State.closeBuf
  repeat' (first
    | with_reducible first | assumption | apply Same.ite | apply State.busWrite_same (mask_sub hm rfl)
    | (extract_lets +onlyGivenNames x
       first
       | (refine Same.cut (m := m) (r := r) (x := x) ?_ ?_ <;> first | (clear_value x; intro hx) | subst x)
       | subst x)
    | split
    | dsimp only)

theorem State.fillBufs_same {m : Nat} {r : State} (hm : m &&& 8388608 = 0) (stop : Bool) : ∀ (n : Nat) (j : Job) {s : State}, Same m r s →
    Same m r (State.fillBufs s stop n j).1
  | 0, _, _, h => h
  | n + 1, j, s, h => by
    unfold State.fillBufs
    repeat' (first
    | with_reducible
          first
          | assumption | apply Same.ite | apply State.closeBuf_same (mask_sub hm rfl)
          | apply State.busWrite_same (mask_sub hm rfl) | apply State.fillBufs_same (mask_sub hm rfl)
          | apply Same.ite_snd | refine Same.snd ‹_ = (_, _)› ?_ | refine Same.fst ‹_ = (_, _)› ?_
      | (extract_lets +onlyGivenNames x
         first
         | (refine Same.cut (m := m) (r := r) (x := x) ?_ ?_ <;> first | (clear_value x; intro hx) | subst x)
         | subst x)
      | split
      | dsimp only)

theorem State.jobReport_same {m : Nat} {r s : State} (hm : m &&& 8 = 0) (h : Same m r s) (j : Job) (state : Nat)
    (result : Nat) :
    Same m r (State.jobReport s j state result) := by
  unfold State.jobReport
  repeat' (first
    | with_reducible first | assumption | apply State.os_same (mask_sub hm rfl))

theorem State.compressRun_same {m : Nat} {r s : State} (hm : m &&& 41943052 = 0) (h : Same m r s) (j : Job)
    (readError : Bool) :
    Same m r (State.compressRun s j readError) := by
  unfold State.compressRun
  repeat' (first
    | with_reducible
        first
        | assumption | apply Same.ite | apply State.draw_same (mask_sub hm rfl)
        | apply State.fillBufs_same (mask_sub hm rfl) | apply State.setAl_same (mask_sub hm rfl)
        | apply State.jobReport_same (mask_sub hm rfl) | apply Same.ite_snd | refine Same.snd ‹_ = (_, _)› ?_
        | refine Same.fst ‹_ = (_, _)› ?_
    | (extract_lets +onlyGivenNames x
       first
       | (refine Same.cut (m := m) (r := r) (x := x) ?_ ?_ <;> first | (clear_value x; intro hx) | subst x)
       | subst x)
    | split
    | dsimp only)

theorem execJobDone_same {m : Nat} {r s : State} (hm : m &&& 41945102 = 0) (h : Same m r s) (t : Nat)
    (readError : Bool) (corrected : Nat) (fallbacks : Nat) :
    SameO m r (execJobDone t readError corrected fallbacks s) := by
  unfold execJobDone
  repeat' (first
    | with_reducible
        first
        | assumption | apply Same.ite | apply SameO.ite | apply SameO.next | apply State.at_same (mask_sub hm rfl)
        | apply State.bump_same (mask_sub hm rfl) | apply State.readFixed_same (mask_sub hm rfl)
        | apply State.jobReport_same (mask_sub hm rfl) | apply State.setAl_same (mask_sub hm rfl)
        | apply State.compressRun_same (mask_sub hm rfl) | apply State.busWrite_same (mask_sub hm rfl)
    | (simp only [Same.lit]; with_reducible refine SameLit.of hm ?_ ?_)
    | (refine fun (p : Part) (hp : Nat.testBit _ (Part.ix p) = false) => ?_; cases p <;> first | exact absurd hp (by decide) | (simp only [Part.same, and_self]; done))
    | (extract_lets +onlyGivenNames x
       first
       | (refine Same.cut (m := m) (r := r) (x := x) ?_ ?_ <;> first | (clear_value x; intro hx) | subst x)
       | subst x)
    | split
    | dsimp only)

end Sys2Proof.Machine
end

