-- ==== Sys2Proof/Laws/SameTime.lean ====
section
/-! SUPPORT. Which parts each function of the model leaves as they were:
the time base, Pip and the Darug link. -/

namespace Sys2Proof.Machine

open Sys2Proof

set_option linter.unusedSimpArgs false
set_option linter.unusedVariables false

/-! ## TimeBase -/

theorem State.tdcFall_same {m : Nat} {r s : State} (hm : m &&& 8 = 0) (h : Same m r s) (ch : Nat) :
    Same m r (State.tdcFall s ch) := by
  unfold State.tdcFall
  repeat' (first
    | with_reducible
        first
        | assumption | apply State.osBit_same (mask_sub hm rfl) | apply State.bump_same (mask_sub hm rfl))

theorem State.capture_same {m : Nat} {r s : State} (hm : m &&& 67108866 = 0) (h : Same m r s) (ch : Nat) (at_ : Nat) :
    Same m r (State.capture s ch at_) := by
  unfold State.capture
  repeat' (first
    | with_reducible first | assumption
    | (simp only [Same.lit]; with_reducible refine SameLit.of hm ?_ ?_)
    | (refine fun (p : Part) (hp : Nat.testBit _ (Part.ix p) = false) => ?_; cases p <;> first | exact absurd hp (by decide) | (simp only [Part.same, and_self]; done))
    | (extract_lets +onlyGivenNames x
       first
       | (refine Same.cut (m := m) (r := r) (x := x) ?_ ?_ <;> first | (clear_value x; intro hx) | subst x)
       | subst x)
    | split
    | dsimp only)

theorem State.tdcEdge_same {m : Nat} {r s : State} (hm : m &&& 67108874 = 0) (h : Same m r s) (ch : Nat)
    (code : Nat) (c1 : Nat) (c2 : Nat) (calibrated : Bool) :
    Same m r (State.tdcEdge s ch code c1 c2 calibrated).2.2 := by
  unfold State.tdcEdge
  repeat' (first
    | with_reducible
        first
        | assumption | apply Same.ite | apply State.capture_same (mask_sub hm rfl)
        | apply State.osBit_same (mask_sub hm rfl) | apply State.tdcFall_same (mask_sub hm rfl) | apply Same.ite_snd
        | refine Same.snd ‹_ = (_, _)› ?_
    | (extract_lets +onlyGivenNames x
       first
       | (refine Same.cut (m := m) (r := r) (x := x) ?_ ?_ <;> first | (clear_value x; intro hx) | subst x)
       | subst x)
    | split
    | dsimp only)

theorem execTdcFallback_same {m : Nat} {r s : State} (hm : m &&& 10 = 0) (h : Same m r s) (t : Nat) (ch : Nat) :
    SameO m r (execTdcFallback t ch s) := by
  unfold execTdcFallback
  repeat' (first
    | with_reducible
        first
        | assumption | apply Same.ite | apply SameO.ite | apply SameO.next | apply State.at_same (mask_sub hm rfl)
        | apply State.tdcFall_same (mask_sub hm rfl)
    | (extract_lets +onlyGivenNames x
       first
       | (refine Same.cut (m := m) (r := r) (x := x) ?_ ?_ <;> first | (clear_value x; intro hx) | subst x)
       | subst x)
    | split
    | dsimp only)

theorem State.intervalEdge_same {m : Nat} {r s : State} (hm : m &&& 67108874 = 0) (h : Same m r s) (src : Nat)
    (stamp : Nat) :
    Same m r (State.intervalEdge s src stamp) := by
  unfold State.intervalEdge
  repeat' (first
    | with_reducible first | assumption | apply Same.ite | apply State.os_same (mask_sub hm rfl)
    | (simp only [Same.lit]; with_reducible refine SameLit.of hm ?_ ?_)
    | (refine fun (p : Part) (hp : Nat.testBit _ (Part.ix p) = false) => ?_; cases p <;> first | exact absurd hp (by decide) | (simp only [Part.same, and_self]; done))
    | (extract_lets +onlyGivenNames x
       first
       | (refine Same.cut (m := m) (r := r) (x := x) ?_ ?_ <;> first | (clear_value x; intro hx) | subst x)
       | subst x)
    | split
    | dsimp only)

theorem intervalArm_same {m : Nat} {r s : State} (hm : m &&& 8 = 0) (h : Same m r s) : SameE m r (intervalArm s) := by
  unfold intervalArm
  repeat' (first
    | with_reducible
        first
        | assumption | apply SameE.ok | apply SameE.error | apply require_same (mask_sub hm rfl)
        | apply State.os_same (mask_sub hm rfl) | refine Same.foldl (fun _ _ _ => ?_) _ ?_
        | refine Same.ofE ‹_ = Except.ok _› ?_
    | (with_reducible intro s1 h1; dsimp only)
    | with_reducible intro s1 h1)

theorem execIntervalArm_same {m : Nat} {r s : State} (hm : m &&& 298 = 0) (h : Same m r s) (t : Nat) (c : Nat) :
    SameO m r (execIntervalArm t c s) := by
  unfold execIntervalArm
  repeat' (first
    | with_reducible
        first
        | assumption | apply SameE.ok | apply SameE.error | apply SameO.next
        | apply State.hostWrite_same (mask_sub hm rfl) | apply State.at_same (mask_sub hm rfl)
        | apply intervalArm_same (mask_sub hm rfl) | refine Same.ofE ‹_ = Except.ok _› ?_
    | (with_reducible intro s1 h1; dsimp only)
    | with_reducible intro s1 h1)

theorem intervalDisarm_same {m : Nat} {r s : State} (hm : m &&& 8 = 0) (h : Same m r s) :
    SameE m r (intervalDisarm s) := by
  unfold intervalDisarm
  repeat' (first
    | with_reducible
        first
        | assumption | apply Same.ite | apply SameE.ite | apply SameE.ok | apply SameE.error
        | apply State.os_same (mask_sub hm rfl) | refine Same.ofE ‹_ = Except.ok _› ?_
    | (with_reducible intro s1 h1; dsimp only)
    | with_reducible intro s1 h1)

theorem execIntervalDisarm_same {m : Nat} {r s : State} (hm : m &&& 298 = 0) (h : Same m r s) (t : Nat) (c : Nat) :
    SameO m r (execIntervalDisarm t c s) := by
  unfold execIntervalDisarm
  repeat' (first
    | with_reducible
        first
        | assumption | apply SameE.ok | apply SameE.error | apply SameO.next
        | apply State.hostWrite_same (mask_sub hm rfl) | apply State.at_same (mask_sub hm rfl)
        | apply intervalDisarm_same (mask_sub hm rfl) | refine Same.ofE ‹_ = Except.ok _› ?_
    | (with_reducible intro s1 h1; dsimp only)
    | with_reducible intro s1 h1)

theorem execIntervalTimeout_same {m : Nat} {r s : State} (hm : m &&& 10 = 0) (h : Same m r s) (t : Nat) :
    SameO m r (execIntervalTimeout t s) := by
  unfold execIntervalTimeout
  repeat' (first
    | with_reducible
        first
        | assumption | apply Same.ite | apply SameO.ite | apply SameO.next | apply State.at_same (mask_sub hm rfl)
        | apply State.os_same (mask_sub hm rfl)
    | (extract_lets +onlyGivenNames x
       first
       | (refine Same.cut (m := m) (r := r) (x := x) ?_ ?_ <;> first | (clear_value x; intro hx) | subst x)
       | subst x)
    | split
    | dsimp only)

theorem execTrigInEdge_same {m : Nat} {r s : State} (hm : m &&& 67371018 = 0) (h : Same m r s) (t : Nat) (pin : Nat)
    (code : Nat) (c1 : Nat) (c2 : Nat) (calibrated : Bool) :
    SameO m r (execTrigInEdge t pin code c1 c2 calibrated s) := by
  unfold execTrigInEdge
  repeat' (first
    | with_reducible
        first
        | assumption | apply Same.ite | apply SameO.ite | apply SameO.next | apply State.at_same (mask_sub hm rfl)
        | apply State.tdcEdge_same (mask_sub hm rfl) | apply State.pinEdge_same (mask_sub hm rfl)
        | apply State.intervalEdge_same (mask_sub hm rfl) | apply Same.ite_snd | refine Same.snd ‹_ = (_, _)› ?_
    | (extract_lets +onlyGivenNames x
       first
       | (refine Same.cut (m := m) (r := r) (x := x) ?_ ?_ <;> first | (clear_value x; intro hx) | subst x)
       | subst x)
    | split
    | dsimp only)

theorem State.setTb_same {m : Nat} {r s : State} (hm : m &&& 67108866 = 0) (h : Same m r s) (f : TimeBase → TimeBase) :
    Same m r (State.setTb s f) := by
  unfold State.setTb
  repeat' (first
    | with_reducible first | assumption
    | (simp only [Same.lit]; with_reducible refine SameLit.of hm ?_ ?_)
    | (refine fun (p : Part) (hp : Nat.testBit _ (Part.ix p) = false) => ?_; cases p <;> first | exact absurd hp (by decide) | (simp only [Part.same, and_self]; done))
    | dsimp only)

theorem State.moveT_same {m : Nat} {r s : State} (hm : m &&& 67108866 = 0) (h : Same m r s) (d : Int) :
    Same m r (State.moveT s d) := by
  unfold State.moveT
  repeat' (first
    | with_reducible first | assumption | apply State.setTb_same (mask_sub hm rfl) | refine Same.snd ‹_ = (_, _)› ?_
    | dsimp only)

theorem State.setT_same {m : Nat} {r s : State} (hm : m &&& 67108866 = 0) (h : Same m r s) (t : Nat) :
    Same m r (State.setT s t) := by
  unfold State.setT
  repeat' (first
    | with_reducible
        first
        | assumption | apply State.setTb_same (mask_sub hm rfl) | apply State.moveT_same (mask_sub hm rfl))

theorem memberRefuses_same {m : Nat} {r s : State} (hm : m &&& 0 = 0) (h : Same m r s) (k : Except Nat State)
    (hk : SameE m r k) :
    SameE m r (memberRefuses s k) := by
  unfold memberRefuses
  repeat' (first
    | with_reducible
        first
        | assumption | apply SameE.ok | apply SameE.error | apply require_same (mask_sub hm rfl) | exact hk
        | refine Same.ofE ‹_ = Except.ok _› ?_
    | (with_reducible intro s1 h1; dsimp only)
    | with_reducible intro s1 h1)

theorem deviceTime_same {m : Nat} {r s : State} (hm : m &&& 67108874 = 0) (h : Same m r s) (ns : Nat) :
    SameE m r (deviceTime ns s) := by
  unfold deviceTime
  repeat' (first
    | with_reducible
        first
        | assumption | apply SameE.ok | apply SameE.error | apply memberRefuses_same (mask_sub hm rfl)
        | apply State.os_same (mask_sub hm rfl) | apply State.setTb_same (mask_sub hm rfl)
        | apply State.setT_same (mask_sub hm rfl) | refine Same.ofE ‹_ = Except.ok _› ?_
    | (with_reducible intro s1 h1; dsimp only)
    | with_reducible intro s1 h1)

theorem execDeviceTimeWrite_same {m : Nat} {r s : State} (hm : m &&& 67109162 = 0) (h : Same m r s) (t : Nat)
    (c : Nat) (ns : Nat) :
    SameO m r (execDeviceTimeWrite t c ns s) := by
  unfold execDeviceTimeWrite
  repeat' (first
    | with_reducible
        first
        | assumption | apply SameE.ok | apply SameE.error | apply SameO.next
        | apply State.hostWrite_same (mask_sub hm rfl) | apply State.at_same (mask_sub hm rfl)
        | apply deviceTime_same (mask_sub hm rfl) | refine Same.ofE ‹_ = Except.ok _› ?_
    | (with_reducible intro s1 h1; dsimp only)
    | with_reducible intro s1 h1)

theorem timeAtPps_same {m : Nat} {r s : State} (hm : m &&& 67108866 = 0) (h : Same m r s) (ns : Nat) :
    SameE m r (timeAtPps ns s) := by
  unfold timeAtPps
  repeat' (first
    | with_reducible
        first
        | assumption | apply SameE.ok | apply SameE.error | apply memberRefuses_same (mask_sub hm rfl)
        | apply State.setTb_same (mask_sub hm rfl) | refine Same.ofE ‹_ = Except.ok _› ?_
    | (with_reducible intro s1 h1; dsimp only)
    | with_reducible intro s1 h1)

theorem execTimeAtNextPps_same {m : Nat} {r s : State} (hm : m &&& 67109162 = 0) (h : Same m r s) (t : Nat)
    (c : Nat) (ns : Nat) :
    SameO m r (execTimeAtNextPps t c ns s) := by
  unfold execTimeAtNextPps
  repeat' (first
    | with_reducible
        first
        | assumption | apply SameE.ok | apply SameE.error | apply SameO.next
        | apply State.hostWrite_same (mask_sub hm rfl) | apply State.at_same (mask_sub hm rfl)
        | apply timeAtPps_same (mask_sub hm rfl) | refine Same.ofE ‹_ = Except.ok _› ?_
    | (with_reducible intro s1 h1; dsimp only)
    | with_reducible intro s1 h1)

theorem rateCorrection_same {m : Nat} {r s : State} (hm : m &&& 8 = 0) (h : Same m r s) (r' : Int) :
    SameE m r (rateCorrection r' s) := by
  unfold rateCorrection
  repeat' (first
    | with_reducible
        first
        | assumption | apply SameE.ok | apply SameE.error | apply memberRefuses_same (mask_sub hm rfl)
        | apply require_same (mask_sub hm rfl) | apply State.osI_same (mask_sub hm rfl)
        | refine Same.ofE ‹_ = Except.ok _› ?_
    | (with_reducible intro s1 h1; dsimp only)
    | with_reducible intro s1 h1)

theorem execRateCorrectionWrite_same {m : Nat} {r s : State} (hm : m &&& 298 = 0) (h : Same m r s) (t : Nat)
    (c : Nat) (r' : Int) :
    SameO m r (execRateCorrectionWrite t c r' s) := by
  unfold execRateCorrectionWrite
  repeat' (first
    | with_reducible
        first
        | assumption | apply SameE.ok | apply SameE.error | apply SameO.next
        | apply State.hostWrite_same (mask_sub hm rfl) | apply State.at_same (mask_sub hm rfl)
        | apply rateCorrection_same (mask_sub hm rfl) | refine Same.ofE ‹_ = Except.ok _› ?_
    | (with_reducible intro s1 h1; dsimp only)
    | with_reducible intro s1 h1)

theorem execPpsEdge_same {m : Nat} {r s : State} (hm : m &&& 67371018 = 0) (h : Same m r s) (t : Nat) (code : Nat)
    (c1 : Nat) (c2 : Nat) (calibrated : Bool) :
    SameO m r (execPpsEdge t code c1 c2 calibrated s) := by
  unfold execPpsEdge
  repeat' (first
    | with_reducible
        first
        | assumption | apply Same.ite | apply SameO.ite | apply SameO.next | apply State.at_same (mask_sub hm rfl)
        | apply State.tdcEdge_same (mask_sub hm rfl) | apply State.intervalEdge_same (mask_sub hm rfl)
        | apply State.setTb_same (mask_sub hm rfl) | apply State.os_same (mask_sub hm rfl)
        | apply State.pulse_same (mask_sub hm rfl) | apply State.bump_same (mask_sub hm rfl) | apply Same.ite_snd
        | refine Same.snd ‹_ = (_, _)› ?_
    | (extract_lets +onlyGivenNames x
       first
       | (refine Same.cut (m := m) (r := r) (x := x) ?_ ?_ <;> first | (clear_value x; intro hx) | subst x)
       | subst x)
    | split
    | dsimp only)

theorem State.discipline_same {m : Nat} {r s : State} (hm : m &&& 67108874 = 0) (h : Same m r s) (te : Int) :
    Same m r (State.discipline s te) := by
  unfold State.discipline
  repeat' (first
    | with_reducible
        first
        | assumption | apply Same.ite | apply State.osI_same (mask_sub hm rfl) | apply State.os_same (mask_sub hm rfl)
        | apply State.setTb_same (mask_sub hm rfl) | apply State.moveT_same (mask_sub hm rfl) | apply Same.ite_snd
        | refine Same.snd ‹_ = (_, _)› ?_
    | (extract_lets +onlyGivenNames x
       first
       | (refine Same.cut (m := m) (r := r) (x := x) ?_ ?_ <;> first | (clear_value x; intro hx) | subst x)
       | subst x)
    | split
    | dsimp only)

theorem execPpsProcess_same {m : Nat} {r s : State} (hm : m &&& 67108874 = 0) (h : Same m r s) (t : Nat) :
    SameO m r (execPpsProcess t s) := by
  unfold execPpsProcess
  repeat' (first
    | with_reducible
        first
        | assumption | apply Same.ite | apply SameO.ite | apply SameO.next | apply State.at_same (mask_sub hm rfl)
        | apply State.discipline_same (mask_sub hm rfl)
    | (extract_lets +onlyGivenNames x
       first
       | (refine Same.cut (m := m) (r := r) (x := x) ?_ ?_ <;> first | (clear_value x; intro hx) | subst x)
       | subst x)
    | split
    | dsimp only)

theorem execPpsLoss_same {m : Nat} {r s : State} (hm : m &&& 67108874 = 0) (h : Same m r s) (t : Nat) :
    SameO m r (execPpsLoss t s) := by
  unfold execPpsLoss
  repeat' (first
    | with_reducible
        first
        | assumption | apply Same.ite | apply SameO.ite | apply SameO.next | apply State.at_same (mask_sub hm rfl)
        | apply State.setTb_same (mask_sub hm rfl) | apply State.os_same (mask_sub hm rfl)
    | (extract_lets +onlyGivenNames x
       first
       | (refine Same.cut (m := m) (r := r) (x := x) ?_ ?_ <;> first | (clear_value x; intro hx) | subst x)
       | subst x)
    | split
    | dsimp only)

theorem State.clockStop_same {m : Nat} {r s : State} (hm : m &&& 67108866 = 0) (h : Same m r s) :
    Same m r (State.clockStop s) := by
  unfold State.clockStop
  repeat' (first
    | with_reducible first | assumption | apply State.setTb_same (mask_sub hm rfl))

theorem State.clockStart_same {m : Nat} {r s : State} (hm : m &&& 67108874 = 0) (h : Same m r s) :
    Same m r (State.clockStart s) := by
  unfold State.clockStart
  repeat' (first
    | with_reducible
        first
        | assumption | apply Same.ite | apply State.os_same (mask_sub hm rfl)
        | apply State.setTb_same (mask_sub hm rfl)
    | (extract_lets +onlyGivenNames x
       first
       | (refine Same.cut (m := m) (r := r) (x := x) ?_ ?_ <;> first | (clear_value x; intro hx) | subst x)
       | subst x)
    | split
    | dsimp only)

/-! ## Pip -/

theorem State.setPip_same {m : Nat} {r s : State} (hm : m &&& 134217728 = 0) (h : Same m r s) (f : Pip → Pip) :
    Same m r (State.setPip s f) := by
  unfold State.setPip
  repeat' (first
    | with_reducible first | assumption
    | (simp only [Same.lit]; with_reducible refine SameLit.of hm ?_ ?_)
    | (refine fun (p : Part) (hp : Nat.testBit _ (Part.ix p) = false) => ?_; cases p <;> first | exact absurd hp (by decide) | (simp only [Part.same, and_self]; done))
    | dsimp only)

theorem State.showPip_same {m : Nat} {r s : State} (hm : m &&& 8 = 0) (h : Same m r s) :
    Same m r (State.showPip s) := by
  unfold State.showPip
  repeat' (first
    | with_reducible first | assumption | apply Same.ite | apply State.os_same (mask_sub hm rfl)
    | (extract_lets +onlyGivenNames x
       first
       | (refine Same.cut (m := m) (r := r) (x := x) ?_ ?_ <;> first | (clear_value x; intro hx) | subst x)
       | subst x)
    | split
    | dsimp only)

theorem State.podAdd_same {m : Nat} {r s : State} (hm : m &&& 536870912 = 0) (h : Same m r s) (v : Int) (i : Nat) :
    Same m r (State.podAdd s v i) := by
  unfold State.podAdd
  repeat' (first
    | with_reducible first | assumption | refine Same.snd ‹_ = (_, _)› ?_
    | (simp only [Same.lit]; with_reducible refine SameLit.of hm ?_ ?_)
    | (refine fun (p : Part) (hp : Nat.testBit _ (Part.ix p) = false) => ?_; cases p <;> first | exact absurd hp (by decide) | (simp only [Part.same, and_self]; done))
    | (extract_lets +onlyGivenNames x
       first
       | (refine Same.cut (m := m) (r := r) (x := x) ?_ ?_ <;> first | (clear_value x; intro hx) | subst x)
       | subst x)
    | split
    | dsimp only)

theorem State.podRepeat_same {m : Nat} {r s : State} (hm : m &&& 536870912 = 0) (h : Same m r s) :
    Same m r (State.podRepeat s) := by
  unfold State.podRepeat
  repeat' (first
    | with_reducible first | assumption | apply State.podAdd_same (mask_sub hm rfl))

theorem State.podPass_same {m : Nat} {r s : State} (hm : m &&& 536870912 = 0) (h : Same m r s) (cv : Int) (ci : Int) :
    Same m r (State.podPass s cv ci) := by
  unfold State.podPass
  repeat' (first
    | with_reducible first | assumption | apply State.podAdd_same (mask_sub hm rfl))

theorem State.railCheck_same {m : Nat} {r s : State} (hm : m &&& 776 = 0) (h : Same m r s) (codes : List Int) (i : Nat) :
    Same m r (State.railCheck s codes i) := by
  unfold State.railCheck
  repeat' (first
    | with_reducible
        first
        | assumption | apply Same.ite | apply State.emcy_same (mask_sub hm rfl)
        | apply State.osBit_same (mask_sub hm rfl) | apply State.log_same (mask_sub hm rfl)
    | (simp only [Same.lit]; with_reducible refine SameLit.of hm ?_ ?_)
    | (refine fun (p : Part) (hp : Nat.testBit _ (Part.ix p) = false) => ?_; cases p <;> first | exact absurd hp (by decide) | (simp only [Part.same, and_self]; done))
    | (extract_lets +onlyGivenNames x
       first
       | (refine Same.cut (m := m) (r := r) (x := x) ?_ ?_ <;> first | (clear_value x; intro hx) | subst x)
       | subst x)
    | split
    | dsimp only)

theorem State.monitors_same {m : Nat} {r s : State} (hm : m &&& 4104 = 0) (h : Same m r s) (powers : List Int) :
    Same m r (State.monitors s powers) := by
  unfold State.monitors
  repeat' (first
    | with_reducible
        first
        | assumption | apply Same.ite | apply State.osI_same (mask_sub hm rfl)
        | refine Same.foldl (fun _ _ _ => ?_) _ ?_
    | (simp only [Same.lit]; with_reducible refine SameLit.of hm ?_ ?_)
    | (refine fun (p : Part) (hp : Nat.testBit _ (Part.ix p) = false) => ?_; cases p <;> first | exact absurd hp (by decide) | (simp only [Part.same, and_self]; done))
    | (extract_lets +onlyGivenNames x
       first
       | (refine Same.cut (m := m) (r := r) (x := x) ?_ ?_ <;> first | (clear_value x; intro hx) | subst x)
       | subst x)
    | split
    | dsimp only
    | (with_reducible intro s1 h1; dsimp only)
    | with_reducible intro s1 h1)

theorem State.start1_same {m : Nat} {r s : State} (hm : m &&& 134217736 = 0) (h : Same m r s) :
    Same m r (State.start1 s) := by
  unfold State.start1
  repeat' (first
    | with_reducible
        first
        | assumption | apply State.showPip_same (mask_sub hm rfl) | apply State.setPip_same (mask_sub hm rfl))

theorem State.trigger1_same {m : Nat} {r s : State} (hm : m &&& 134217736 = 0) (h : Same m r s) :
    Same m r (State.trigger1 s) := by
  unfold State.trigger1
  repeat' (first
    | with_reducible
        first
        | assumption | apply Same.ite | apply State.bump_same (mask_sub hm rfl)
        | apply State.showPip_same (mask_sub hm rfl) | apply State.setPip_same (mask_sub hm rfl)
        | apply State.start1_same (mask_sub hm rfl))

theorem execConverter0Pass_same {m : Nat} {r s : State} (hm : m &&& 671088650 = 0) (h : Same m r s) (t : Nat) :
    SameO m r (execConverter0Pass t s) := by
  unfold execConverter0Pass
  repeat' (first
    | with_reducible
        first
        | assumption | apply Same.ite | apply SameO.ite | apply SameO.next | apply State.at_same (mask_sub hm rfl)
        | apply State.showPip_same (mask_sub hm rfl) | apply State.setPip_same (mask_sub hm rfl)
        | apply State.bump_same (mask_sub hm rfl) | apply State.podRepeat_same (mask_sub hm rfl)
    | (extract_lets +onlyGivenNames x
       first
       | (refine Same.cut (m := m) (r := r) (x := x) ?_ ?_ <;> first | (clear_value x; intro hx) | subst x)
       | subst x)
    | split
    | dsimp only)

theorem execConverter1Pass_same {m : Nat} {r s : State} (hm : m &&& 134218026 = 0) (h : Same m r s) (t : Nat) (c : Nat) :
    SameO m r (execConverter1Pass t c s) := by
  unfold execConverter1Pass
  repeat' (first
    | with_reducible
        first
        | assumption | apply SameE.ok | apply SameE.error | apply SameO.next
        | apply State.hostWrite_same (mask_sub hm rfl) | apply State.at_same (mask_sub hm rfl)
        | apply State.trigger1_same (mask_sub hm rfl) | refine Same.ofE ‹_ = Except.ok _› ?_
    | (with_reducible intro s1 h1; dsimp only)
    | with_reducible intro s1 h1)

theorem execConverter1Timer_same {m : Nat} {r s : State} (hm : m &&& 134217738 = 0) (h : Same m r s) (t : Nat) :
    SameO m r (execConverter1Timer t s) := by
  unfold execConverter1Timer
  repeat' (first
    | with_reducible
        first
        | assumption | apply Same.ite | apply SameO.ite | apply SameO.next | apply State.at_same (mask_sub hm rfl)
        | apply State.trigger1_same (mask_sub hm rfl) | apply State.setPip_same (mask_sub hm rfl)
    | (extract_lets +onlyGivenNames x
       first
       | (refine Same.cut (m := m) (r := r) (x := x) ?_ ?_ <;> first | (clear_value x; intro hx) | subst x)
       | subst x)
    | split
    | dsimp only)

theorem State.blankEdge_same {m : Nat} {r s : State} (hm : m &&& 134217728 = 0) (h : Same m r s) :
    Same m r (State.blankEdge s) := by
  unfold State.blankEdge
  repeat' (first
    | with_reducible
        first
        | assumption | apply Same.ite | apply State.setPip_same (mask_sub hm rfl) | apply Same.ite_snd
        | refine Same.snd ‹_ = (_, _)› ?_
    | (extract_lets +onlyGivenNames x
       first
       | (refine Same.cut (m := m) (r := r) (x := x) ?_ ?_ <;> first | (clear_value x; intro hx) | subst x)
       | subst x)
    | split
    | dsimp only)

theorem blankMask_same {m : Nat} {r s : State} (hm : m &&& 134217736 = 0) (h : Same m r s) (v : Nat) :
    SameE m r (blankMask v s) := by
  unfold blankMask
  repeat' (first
    | with_reducible
        first
        | assumption | apply SameE.ok | apply SameE.error | apply State.setPip_same (mask_sub hm rfl)
        | apply State.os_same (mask_sub hm rfl) | refine Same.snd ‹_ = (_, _)› ?_
        | refine Same.ofE ‹_ = Except.ok _› ?_
    | (with_reducible intro s1 h1; dsimp only)
    | with_reducible intro s1 h1)

theorem execBlankIn_same {m : Nat} {r s : State} (hm : m &&& 134217730 = 0) (h : Same m r s) (t : Nat) (level : Bool) :
    SameO m r (execBlankIn t level s) := by
  unfold execBlankIn
  repeat' (first
    | with_reducible
        first
        | assumption | apply SameO.next | apply State.blankEdge_same (mask_sub hm rfl)
        | apply State.setPip_same (mask_sub hm rfl) | apply State.at_same (mask_sub hm rfl))

theorem rtdSetting_same {m : Nat} {r s : State} (hm : m &&& 134217736 = 0) (h : Same m r s) (r' : Nat) (sub : Nat)
    (v : Nat) (phase : Nat) :
    SameE m r (rtdSetting r' sub v phase s) := by
  unfold rtdSetting
  repeat' (first
    | with_reducible
        first
        | assumption | apply Same.ite | apply SameE.ite | apply SameE.ok | apply SameE.error
        | apply State.os_same (mask_sub hm rfl) | apply State.setPip_same (mask_sub hm rfl)
        | apply State.bump_same (mask_sub hm rfl) | apply Same.ite_snd | refine Same.snd ‹_ = (_, _)› ?_
        | refine Same.ofE ‹_ = Except.ok _› ?_
    | (extract_lets +onlyGivenNames x
       first
       | (refine Same.cut (m := m) (r := r) (x := x) ?_ ?_ <;> first | (clear_value x; intro hx) | subst x)
       | subst x)
    | split
    | dsimp only
    | (with_reducible intro s1 h1; dsimp only)
    | with_reducible intro s1 h1)

theorem execRtdSettingWrite_same {m : Nat} {r s : State} (hm : m &&& 134218026 = 0) (h : Same m r s) (t : Nat)
    (c : Nat) (rtd : Nat) (sub : Nat) (value : Nat) (phase : Nat) :
    SameO m r (execRtdSettingWrite t c rtd sub value phase s) := by
  unfold execRtdSettingWrite
  repeat' (first
    | with_reducible
        first
        | assumption | apply Same.ite | apply SameE.ite | apply SameO.ite | apply SameE.ok | apply SameE.error
        | apply SameO.next | apply State.hostWrite_same (mask_sub hm rfl) | apply State.at_same (mask_sub hm rfl)
        | apply rtdSetting_same (mask_sub hm rfl) | refine Same.ofE ‹_ = Except.ok _› ?_
    | (with_reducible intro s1 h1; dsimp only)
    | with_reducible intro s1 h1)

theorem State.switchRef_same {m : Nat} {r s : State} (hm : m &&& 134217728 = 0) (h : Same m r s) :
    Same m r (State.switchRef s) := by
  unfold State.switchRef
  repeat' (first
    | with_reducible first | assumption | apply Same.ite | apply State.setPip_same (mask_sub hm rfl)
    | (extract_lets +onlyGivenNames x
       first
       | (refine Same.cut (m := m) (r := r) (x := x) ?_ ?_ <;> first | (clear_value x; intro hx) | subst x)
       | subst x)
    | split
    | dsimp only)

theorem reference1_same {m : Nat} {r s : State} (hm : m &&& 134217736 = 0) (h : Same m r s) (v : Nat) :
    SameE m r (reference1 v s) := by
  unfold reference1
  repeat' (first
    | with_reducible
        first
        | assumption | apply Same.ite | apply SameE.ite | apply SameE.ok | apply SameE.error
        | apply State.os_same (mask_sub hm rfl) | apply State.switchRef_same (mask_sub hm rfl)
        | refine Same.ofE ‹_ = Except.ok _› ?_
    | (extract_lets +onlyGivenNames x
       first
       | (refine Same.cut (m := m) (r := r) (x := x) ?_ ?_ <;> first | (clear_value x; intro hx) | subst x)
       | subst x)
    | split
    | dsimp only
    | (with_reducible intro s1 h1; dsimp only)
    | with_reducible intro s1 h1)

theorem execConverter1Reference_same {m : Nat} {r s : State} (hm : m &&& 134218026 = 0) (h : Same m r s) (t : Nat)
    (c : Nat) (value : Nat) :
    SameO m r (execConverter1Reference t c value s) := by
  unfold execConverter1Reference
  repeat' (first
    | with_reducible
        first
        | assumption | apply SameE.ok | apply SameE.error | apply SameO.next
        | apply State.hostWrite_same (mask_sub hm rfl) | apply State.at_same (mask_sub hm rfl)
        | apply reference1_same (mask_sub hm rfl) | refine Same.ofE ‹_ = Except.ok _› ?_
    | (with_reducible intro s1 h1; dsimp only)
    | with_reducible intro s1 h1)

theorem State.storeCal_same {m : Nat} {r s : State} (hm : m &&& 134217728 = 0) (h : Same m r s) (c : CalRec) :
    Same m r (State.storeCal s c) := by
  unfold State.storeCal
  repeat' (first
    | with_reducible first | assumption | apply Same.ite | apply State.setPip_same (mask_sub hm rfl))

theorem State.ohms_same {m : Nat} {r s : State} (hm : m &&& 4 = 0) (h : Same m r s) (v : Int) :
    Same m r (State.ohms s v).2 := by
  unfold State.ohms
  repeat' (first
    | with_reducible
        first
        | assumption | apply Same.ite | apply State.draw_same (mask_sub hm rfl) | apply Same.ite_snd
        | refine Same.snd ‹_ = (_, _)› ?_
    | dsimp only)

theorem State.putResult_same {m : Nat} {r s : State} (hm : m &&& 16 = 0) (h : Same m r s) (e : Nat) (v : Nat)
    (v2 : Nat) (flags : Nat) (time : Nat) :
    Same m r (State.putResult s e v v2 flags time) := by
  unfold State.putResult
  repeat' (first
    | with_reducible first | assumption | apply State.ds_same (mask_sub hm rfl))

theorem State.plainEntry_same {m : Nat} {r s : State} (hm : m &&& 16 = 0) (h : Same m r s) (e : Nat) (w : Nat)
    (rd : EntryReading) (forced : Bool) :
    Same m r (State.plainEntry s e w rd forced) := by
  unfold State.plainEntry
  repeat' (first
    | with_reducible first | assumption | apply Same.ite | apply State.putResult_same (mask_sub hm rfl)
    | (extract_lets +onlyGivenNames x
       first
       | (refine Same.cut (m := m) (r := r) (x := x) ?_ ?_ <;> first | (clear_value x; intro hx) | subst x)
       | subst x)
    | split
    | dsimp only)

theorem State.rtdEntry_same {m : Nat} {r s : State} (hm : m &&& 28 = 0) (h : Same m r s) (e : Nat) (w : Nat)
    (rd : EntryReading) (forced : Bool) :
    Same m r (State.rtdEntry s e w rd forced) := by
  unfold State.rtdEntry
  repeat' (first
    | with_reducible
        first
        | assumption | apply Same.ite | apply State.os_same (mask_sub hm rfl)
        | apply State.putResult_same (mask_sub hm rfl) | apply State.bump_same (mask_sub hm rfl)
        | apply State.ohms_same (mask_sub hm rfl) | apply Same.ite_snd | refine Same.snd ‹_ = (_, _)› ?_
    | (extract_lets +onlyGivenNames x
       first
       | (refine Same.cut (m := m) (r := r) (x := x) ?_ ?_ <;> first | (clear_value x; intro hx) | subst x)
       | subst x)
    | split
    | dsimp only)

theorem State.entries_same {m : Nat} {r : State} (hm : m &&& 28 = 0) : ∀ (l : List EntryReading) (e : Nat) {s : State}, Same m r s → Same m r (State.entries s l e)
  | [], _, _, h => h
  | rd :: l, e, s, h => by
    unfold State.entries
    repeat' (first
    | with_reducible
          first
          | assumption | apply Same.ite | apply State.bump_same (mask_sub hm rfl)
          | apply State.rtdEntry_same (mask_sub hm rfl) | apply State.plainEntry_same (mask_sub hm rfl)
          | apply State.entries_same (mask_sub hm rfl)
      | (extract_lets +onlyGivenNames x
         first
         | (refine Same.cut (m := m) (r := r) (x := x) ?_ ?_ <;> first | (clear_value x; intro hx) | subst x)
         | subst x)
      | split
      | dsimp only)

theorem State.failResults_same {m : Nat} {r s : State} (hm : m &&& 65560 = 0) (h : Same m r s) :
    Same m r (State.failResults s) := by
  unfold State.failResults
  repeat' (first
    | with_reducible
        first
        | assumption | apply Same.ite | apply State.setLin_same (mask_sub hm rfl)
        | apply State.ds_same (mask_sub hm rfl) | apply State.os_same (mask_sub hm rfl)
        | refine Same.foldl (fun _ _ _ => ?_) _ ?_
    | (extract_lets +onlyGivenNames x
       first
       | (refine Same.cut (m := m) (r := r) (x := x) ?_ ?_ <;> first | (clear_value x; intro hx) | subst x)
       | subst x)
    | split
    | dsimp only
    | (with_reducible intro s1 h1; dsimp only)
    | with_reducible intro s1 h1)

theorem State.crossCheck_same {m : Nat} {r s : State} (hm : m &&& 134283544 = 0) (h : Same m r s) :
    Same m r (State.crossCheck s).2 := by
  unfold State.crossCheck
  repeat' (first
    | with_reducible
        first
        | assumption | apply Same.ite | apply State.failResults_same (mask_sub hm rfl)
        | apply State.bump_same (mask_sub hm rfl) | apply State.emcy_same (mask_sub hm rfl)
        | apply State.setPip_same (mask_sub hm rfl) | apply Same.ite_snd | refine Same.snd ‹_ = (_, _)› ?_
    | (extract_lets +onlyGivenNames x
       first
       | (refine Same.cut (m := m) (r := r) (x := x) ?_ ?_ <;> first | (clear_value x; intro hx) | subst x)
       | subst x)
    | split
    | dsimp only)

theorem State.end0_same {m : Nat} {r s : State} (hm : m &&& 671159064 = 0) (h : Same m r s) (rd : PassReading) :
    Same m r (State.end0 s rd) := by
  unfold State.end0
  repeat' (first
    | with_reducible
        first
        | assumption | apply Same.ite | apply State.crossCheck_same (mask_sub hm rfl)
        | apply State.setPip_same (mask_sub hm rfl) | apply State.monitors_same (mask_sub hm rfl)
        | apply State.podRepeat_same (mask_sub hm rfl) | apply State.podPass_same (mask_sub hm rfl)
        | apply State.railCheck_same (mask_sub hm rfl) | apply State.showPip_same (mask_sub hm rfl)
        | apply Same.ite_snd | refine Same.foldl (fun _ _ _ => ?_) _ ?_ | refine Same.snd ‹_ = (_, _)› ?_
    | (extract_lets +onlyGivenNames x
       first
       | (refine Same.cut (m := m) (r := r) (x := x) ?_ ?_ <;> first | (clear_value x; intro hx) | subst x)
       | subst x)
    | split
    | dsimp only
    | (with_reducible intro s1 h1; dsimp only)
    | with_reducible intro s1 h1)

theorem State.validTemps_same {m : Nat} {r s : State} (hm : m &&& 65536 = 0) (h : Same m r s) (entries : List EntryReading) :
    Same m r (State.validTemps s entries) := by
  unfold State.validTemps
  repeat' (first
    | with_reducible
        first
        | assumption | apply Same.ite | apply State.dtsTemp_same (mask_sub hm rfl)
        | refine Same.foldl (fun _ _ _ => ?_) _ ?_
    | (extract_lets +onlyGivenNames x
       first
       | (refine Same.cut (m := m) (r := r) (x := x) ?_ ?_ <;> first | (clear_value x; intro hx) | subst x)
       | subst x)
    | split
    | dsimp only
    | (with_reducible intro s1 h1; dsimp only)
    | with_reducible intro s1 h1)

theorem State.end1_same {m : Nat} {r s : State} (hm : m &&& 134283548 = 0) (h : Same m r s) (rd : PassReading) :
    Same m r (State.end1 s rd) := by
  unfold State.end1
  repeat' (first
    | with_reducible
        first
        | assumption | apply Same.ite | apply State.setPip_same (mask_sub hm rfl)
        | apply State.entries_same (mask_sub hm rfl) | apply State.crossCheck_same (mask_sub hm rfl)
        | apply State.validTemps_same (mask_sub hm rfl) | apply State.switchRef_same (mask_sub hm rfl)
        | apply State.showPip_same (mask_sub hm rfl) | apply State.start1_same (mask_sub hm rfl) | apply Same.ite_snd
        | refine Same.snd ‹_ = (_, _)› ?_
    | (extract_lets +onlyGivenNames x
       first
       | (refine Same.cut (m := m) (r := r) (x := x) ?_ ?_ <;> first | (clear_value x; intro hx) | subst x)
       | subst x)
    | split
    | dsimp only)

theorem execPassEnd_same {m : Nat} {r s : State} (hm : m &&& 671159070 = 0) (h : Same m r s) (t : Nat) (conv : Nat)
    (reading : PassReading) :
    SameO m r (execPassEnd t conv reading s) := by
  unfold execPassEnd
  repeat' (first
    | with_reducible
        first
        | assumption | apply Same.ite | apply SameO.ite | apply SameO.next | apply State.at_same (mask_sub hm rfl)
        | apply State.bump_same (mask_sub hm rfl) | apply State.end0_same (mask_sub hm rfl)
        | apply State.end1_same (mask_sub hm rfl)
    | (extract_lets +onlyGivenNames x
       first
       | (refine Same.cut (m := m) (r := r) (x := x) ?_ ?_ <;> first | (clear_value x; intro hx) | subst x)
       | subst x)
    | split
    | dsimp only)

theorem State.pipDoze_same {m : Nat} {r s : State} (hm : m &&& 134217736 = 0) (h : Same m r s) :
    Same m r (State.pipDoze s) := by
  unfold State.pipDoze
  repeat' (first
    | with_reducible
        first
        | assumption | apply State.showPip_same (mask_sub hm rfl) | apply State.setPip_same (mask_sub hm rfl))

theorem State.pipReady_same {m : Nat} {r s : State} (hm : m &&& 134217728 = 0) (h : Same m r s) :
    Same m r (State.pipReady s) := by
  unfold State.pipReady
  repeat' (first
    | with_reducible first | assumption | apply State.setPip_same (mask_sub hm rfl))

theorem calStart_same {m : Nat} {r s : State} (hm : m &&& 136579336 = 0) (h : Same m r s) : SameE m r (calStart s) := by
  unfold calStart
  repeat' (first
    | with_reducible
        first
        | assumption | apply SameE.ok | apply SameE.error | apply State.startLong_same (mask_sub hm rfl)
        | apply State.showPip_same (mask_sub hm rfl) | apply State.setPip_same (mask_sub hm rfl)
        | refine Same.ofE ‹_ = Except.ok _› ?_
    | (with_reducible intro s1 h1; dsimp only)
    | with_reducible intro s1 h1)

theorem execCalibrationStart_same {m : Nat} {r s : State} (hm : m &&& 136579370 = 0) (h : Same m r s) (t : Nat) (c : Nat) :
    SameO m r (execCalibrationStart t c s) := by
  unfold execCalibrationStart
  repeat' (first
    | with_reducible
        first
        | assumption | apply SameE.ok | apply SameE.error | apply SameO.next
        | apply State.hostWrite_same (mask_sub hm rfl) | apply State.at_same (mask_sub hm rfl)
        | apply calStart_same (mask_sub hm rfl) | refine Same.ofE ‹_ = Except.ok _› ?_
    | (with_reducible intro s1 h1; dsimp only)
    | with_reducible intro s1 h1)

theorem State.endCalibration_same {m : Nat} {r s : State} (hm : m &&& 134217736 = 0) (h : Same m r s) (o : LongOutcome) :
    Same m r (State.endCalibration s o).2 := by
  unfold State.endCalibration
  repeat' (first
    | with_reducible
        first
        | assumption | apply Same.ite | apply State.os_same (mask_sub hm rfl)
        | apply State.storeCal_same (mask_sub hm rfl) | apply State.setPip_same (mask_sub hm rfl)
        | apply State.showPip_same (mask_sub hm rfl) | apply State.start1_same (mask_sub hm rfl) | apply Same.ite_snd
        | refine Same.snd ‹_ = (_, _)› ?_
    | (extract_lets +onlyGivenNames x
       first
       | (refine Same.cut (m := m) (r := r) (x := x) ?_ ?_ <;> first | (clear_value x; intro hx) | subst x)
       | subst x)
    | split
    | dsimp only)

/-! ## Darug -/

theorem State.setDr_same {m : Nat} {r s : State} (hm : m &&& 268435456 = 0) (h : Same m r s) (f : Darug → Darug) :
    Same m r (State.setDr s f) := by
  unfold State.setDr
  repeat' (first
    | with_reducible first | assumption
    | (simp only [Same.lit]; with_reducible refine SameLit.of hm ?_ ?_)
    | (refine fun (p : Part) (hp : Nat.testBit _ (Part.ix p) = false) => ?_; cases p <;> first | exact absurd hp (by decide) | (simp only [Part.same, and_self]; done))
    | dsimp only)

theorem State.takePosition_same {m : Nat} {r s : State} (hm : m &&& 268435752 = 0) (h : Same m r s) (pos : Nat) :
    Same m r (State.takePosition s pos) := by
  unfold State.takePosition
  repeat' (first
    | with_reducible
        first
        | assumption | apply Same.ite | apply State.os_same (mask_sub hm rfl)
        | apply State.setDr_same (mask_sub hm rfl) | apply State.emit_same (mask_sub hm rfl)
    | (simp only [Same.lit]; with_reducible refine SameLit.of hm ?_ ?_)
    | (refine fun (p : Part) (hp : Nat.testBit _ (Part.ix p) = false) => ?_; cases p <;> first | exact absurd hp (by decide) | (simp only [Part.same, and_self]; done))
    | (extract_lets +onlyGivenNames x
       first
       | (refine Same.cut (m := m) (r := r) (x := x) ?_ ?_ <;> first | (clear_value x; intro hx) | subst x)
       | subst x)
    | split
    | dsimp only)

theorem execEnum_same {m : Nat} {r s : State} (hm : m &&& 2415919402 = 0) (h : Same m r s) (t : Nat) (sender : Nat) :
    SameO m r (execEnum t sender s) := by
  unfold execEnum
  repeat' (first
    | with_reducible
        first
        | assumption | apply Same.ite | apply SameO.ite | apply SameO.next | apply State.at_same (mask_sub hm rfl)
        | apply State.os_same (mask_sub hm rfl) | apply State.takePosition_same (mask_sub hm rfl)
        | apply State.sendMsg_same (mask_sub hm rfl)
    | (extract_lets +onlyGivenNames x
       first
       | (refine Same.cut (m := m) (r := r) (x := x) ?_ ?_ <;> first | (clear_value x; intro hx) | subst x)
       | subst x)
    | split
    | dsimp only)

theorem execEnumTimeout_same {m : Nat} {r s : State} (hm : m &&& 2415919146 = 0) (h : Same m r s) (t : Nat) :
    SameO m r (execEnumTimeout t s) := by
  unfold execEnumTimeout
  repeat' (first
    | with_reducible
        first
        | assumption | apply Same.ite | apply SameO.ite | apply SameO.next | apply State.at_same (mask_sub hm rfl)
        | apply State.setDr_same (mask_sub hm rfl) | apply State.os_same (mask_sub hm rfl)
        | apply State.sendMsg_same (mask_sub hm rfl)
    | (extract_lets +onlyGivenNames x
       first
       | (refine Same.cut (m := m) (r := r) (x := x) ?_ ?_ <;> first | (clear_value x; intro hx) | subst x)
       | subst x)
    | split
    | dsimp only)

theorem execEnumEnd_same {m : Nat} {r s : State} (hm : m &&& 2147483690 = 0) (h : Same m r s) (t : Nat) (position : Nat) :
    SameO m r (execEnumEnd t position s) := by
  unfold execEnumEnd
  repeat' (first
    | with_reducible
        first
        | assumption | apply Same.ite | apply SameO.ite | apply SameO.next | apply State.at_same (mask_sub hm rfl)
        | apply State.os_same (mask_sub hm rfl) | apply State.relay_same (mask_sub hm rfl)
    | (extract_lets +onlyGivenNames x
       first
       | (refine Same.cut (m := m) (r := r) (x := x) ?_ ?_ <;> first | (clear_value x; intro hx) | subst x)
       | subst x)
    | split
    | dsimp only)

theorem execSideLock_same {m : Nat} {r s : State} (hm : m &&& 2415919146 = 0) (h : Same m r s) (t : Nat) (down : Bool) :
    SameO m r (execSideLock t down s) := by
  unfold execSideLock
  repeat' (first
    | with_reducible
        first
        | assumption | apply Same.ite | apply SameO.ite | apply SameO.next | apply State.at_same (mask_sub hm rfl)
        | apply State.os_same (mask_sub hm rfl) | apply State.sendMsg_same (mask_sub hm rfl)
        | apply State.setDr_same (mask_sub hm rfl)
    | (extract_lets +onlyGivenNames x
       first
       | (refine Same.cut (m := m) (r := r) (x := x) ?_ ?_ <;> first | (clear_value x; intro hx) | subst x)
       | subst x)
    | split
    | dsimp only)

theorem execSideFault_same {m : Nat} {r s : State} (hm : m &&& 268435466 = 0) (h : Same m r s) (t : Nat) (down : Bool) :
    SameO m r (execSideFault t down s) := by
  unfold execSideFault
  repeat' (first
    | with_reducible
        first
        | assumption | apply Same.ite | apply SameO.ite | apply SameO.next | apply State.at_same (mask_sub hm rfl)
        | apply State.bump_same (mask_sub hm rfl) | apply State.os_same (mask_sub hm rfl)
        | apply State.setDr_same (mask_sub hm rfl)
    | (extract_lets +onlyGivenNames x
       first
       | (refine Same.cut (m := m) (r := r) (x := x) ?_ ?_ <;> first | (clear_value x; intro hx) | subst x)
       | subst x)
    | split
    | dsimp only)

theorem execMessageCrcError_same {m : Nat} {r s : State} (hm : m &&& 10 = 0) (h : Same m r s) (t : Nat) (down : Bool) :
    SameO m r (execMessageCrcError t down s) := by
  unfold execMessageCrcError
  repeat' (first
    | with_reducible
        first
        | assumption | apply Same.ite | apply SameO.ite | apply SameO.next | apply State.at_same (mask_sub hm rfl)
        | apply State.bump_same (mask_sub hm rfl)
    | (extract_lets +onlyGivenNames x
       first
       | (refine Same.cut (m := m) (r := r) (x := x) ?_ ?_ <;> first | (clear_value x; intro hx) | subst x)
       | subst x)
    | split
    | dsimp only)

theorem execMarker_same {m : Nat} {r s : State} (hm : m &&& 335544362 = 0) (h : Same m r s) (t : Nat) (code : Nat)
    (c1 : Nat) (c2 : Nat) :
    SameO m r (execMarker t code c1 c2 s) := by
  unfold execMarker
  repeat' (first
    | with_reducible
        first
        | assumption | apply Same.ite | apply SameO.ite | apply SameO.next | apply State.at_same (mask_sub hm rfl)
        | apply State.tdcEdge_same (mask_sub hm rfl) | apply State.emit_same (mask_sub hm rfl)
        | apply State.setDr_same (mask_sub hm rfl) | apply Same.ite_snd | refine Same.snd ‹_ = (_, _)› ?_
    | (extract_lets +onlyGivenNames x
       first
       | (refine Same.cut (m := m) (r := r) (x := x) ?_ ?_ <;> first | (clear_value x; intro hx) | subst x)
       | subst x)
    | split
    | dsimp only)

theorem execMarkerArrival_same {m : Nat} {r s : State} (hm : m &&& 2483028010 = 0) (h : Same m r s) (t : Nat)
    (arrive : Nat) (depart : Nat) :
    SameO m r (execMarkerArrival t arrive depart s) := by
  unfold execMarkerArrival
  repeat' (first
    | with_reducible
        first
        | assumption | apply Same.ite | apply SameO.ite | apply SameO.next | apply State.at_same (mask_sub hm rfl)
        | apply State.setDr_same (mask_sub hm rfl) | apply State.capture_same (mask_sub hm rfl)
        | apply State.emit_same (mask_sub hm rfl) | apply State.sendMsg_same (mask_sub hm rfl)
    | (extract_lets +onlyGivenNames x
       first
       | (refine Same.cut (m := m) (r := r) (x := x) ?_ ?_ <;> first | (clear_value x; intro hx) | subst x)
       | subst x)
    | split
    | dsimp only)

theorem execTurn_same {m : Nat} {r s : State} (hm : m &&& 2214592554 = 0) (h : Same m r s) (t : Nat) (bins : Nat)
    (back : Nat) :
    SameO m r (execTurn t bins back s) := by
  unfold execTurn
  repeat' (first
    | with_reducible
        first
        | assumption | apply Same.ite | apply SameO.ite | apply SameO.next | apply State.at_same (mask_sub hm rfl)
        | apply State.capture_same (mask_sub hm rfl) | apply State.os_same (mask_sub hm rfl)
        | apply State.sendMsg_same (mask_sub hm rfl)
    | (extract_lets +onlyGivenNames x
       first
       | (refine Same.cut (m := m) (r := r) (x := x) ?_ ?_ <;> first | (clear_value x; intro hx) | subst x)
       | subst x)
    | split
    | dsimp only)

theorem State.correct_same {m : Nat} {r s : State} (hm : m &&& 335544330 = 0) (h : Same m r s) :
    Same m r (State.correct s) := by
  unfold State.correct
  repeat' (first
    | with_reducible
        first
        | assumption | apply Same.ite | apply State.osI_same (mask_sub hm rfl)
        | apply State.moveT_same (mask_sub hm rfl) | apply State.setDr_same (mask_sub hm rfl)
    | (extract_lets +onlyGivenNames x
       first
       | (refine Same.cut (m := m) (r := r) (x := x) ?_ ?_ <;> first | (clear_value x; intro hx) | subst x)
       | subst x)
    | split
    | dsimp only)

theorem State.showAlign_same {m : Nat} {r s : State} (hm : m &&& 8 = 0) (h : Same m r s) :
    Same m r (State.showAlign s) := by
  unfold State.showAlign
  repeat' (first
    | with_reducible first | assumption | apply Same.ite | apply State.os_same (mask_sub hm rfl)
    | (extract_lets +onlyGivenNames x
       first
       | (refine Same.cut (m := m) (r := r) (x := x) ?_ ?_ <;> first | (clear_value x; intro hx) | subst x)
       | subst x)
    | split
    | dsimp only)

theorem execSync_same {m : Nat} {r s : State} (hm : m &&& 335544330 = 0) (h : Same m r s) (t : Nat) (ts : Nat)
    (delay : Nat) (rate : Int) (state : Nat) :
    SameO m r (execSync t ts delay rate state s) := by
  unfold execSync
  repeat' (first
    | with_reducible
        first
        | assumption | apply Same.ite | apply SameO.ite | apply SameO.next | apply State.at_same (mask_sub hm rfl)
        | apply State.os_same (mask_sub hm rfl) | apply State.osI_same (mask_sub hm rfl)
        | apply State.setDr_same (mask_sub hm rfl) | apply State.showAlign_same (mask_sub hm rfl)
        | apply State.correct_same (mask_sub hm rfl)
    | (extract_lets +onlyGivenNames x
       first
       | (refine Same.cut (m := m) (r := r) (x := x) ?_ ?_ <;> first | (clear_value x; intro hx) | subst x)
       | subst x)
    | split
    | dsimp only)

theorem execPhaseStep_same {m : Nat} {r s : State} (hm : m &&& 268435466 = 0) (h : Same m r s) (t : Nat) :
    SameO m r (execPhaseStep t s) := by
  unfold execPhaseStep
  repeat' (first
    | with_reducible
        first
        | assumption | apply Same.ite | apply SameO.ite | apply SameO.next | apply State.at_same (mask_sub hm rfl)
        | apply State.setDr_same (mask_sub hm rfl) | apply State.showAlign_same (mask_sub hm rfl)
    | (extract_lets +onlyGivenNames x
       first
       | (refine Same.cut (m := m) (r := r) (x := x) ?_ ?_ <;> first | (clear_value x; intro hx) | subst x)
       | subst x)
    | split
    | dsimp only)

theorem execSyncLoss_same {m : Nat} {r s : State} (hm : m &&& 10 = 0) (h : Same m r s) (t : Nat) :
    SameO m r (execSyncLoss t s) := by
  unfold execSyncLoss
  repeat' (first
    | with_reducible
        first
        | assumption | apply Same.ite | apply SameO.ite | apply SameO.next | apply State.at_same (mask_sub hm rfl)
        | apply State.os_same (mask_sub hm rfl)
    | (extract_lets +onlyGivenNames x
       first
       | (refine Same.cut (m := m) (r := r) (x := x) ?_ ?_ <;> first | (clear_value x; intro hx) | subst x)
       | subst x)
    | split
    | dsimp only)

theorem execBoundary_same {m : Nat} {r s : State} (hm : m &&& 2415921194 = 0) (h : Same m r s) (t : Nat)
    (index : Nat) (stamp : Nat) (period : Nat) :
    SameO m r (execBoundary t index stamp period s) := by
  unfold execBoundary
  repeat' (first
    | with_reducible
        first
        | assumption | apply Same.ite | apply SameO.ite | apply SameO.next | apply State.at_same (mask_sub hm rfl)
        | apply State.relay_same (mask_sub hm rfl) | apply State.setDr_same (mask_sub hm rfl)
        | apply State.os_same (mask_sub hm rfl) | apply State.bump_same (mask_sub hm rfl) | apply Same.ite_snd
        | refine Same.snd ‹_ = (_, _)› ?_
    | (simp only [Same.lit]; with_reducible refine SameLit.of hm ?_ ?_)
    | (refine fun (p : Part) (hp : Nat.testBit _ (Part.ix p) = false) => ?_; cases p <;> first | exact absurd hp (by decide) | (simp only [Part.same, and_self]; done))
    | (extract_lets +onlyGivenNames x
       first
       | (refine Same.cut (m := m) (r := r) (x := x) ?_ ?_ <;> first | (clear_value x; intro hx) | subst x)
       | subst x)
    | split
    | dsimp only)

theorem State.sendBoundary_same {m : Nat} {r s : State} (hm : m &&& 2147483688 = 0) (h : Same m r s) :
    Same m r (State.sendBoundary s) := by
  unfold State.sendBoundary
  repeat' (first
    | with_reducible first | assumption | apply Same.ite | apply State.sendMsg_same (mask_sub hm rfl)
    | split
    | dsimp only)

theorem execInject_same {m : Nat} {r s : State} (hm : m &&& 2415919146 = 0) (h : Same m r s) (t : Nat) (on : Nat)
    (link : Nat) (action : Nat) :
    SameO m r (execInject t on link action s) := by
  unfold execInject
  repeat' (first
    | with_reducible
        first
        | assumption | apply Same.ite | apply SameO.ite | apply SameO.next | apply State.at_same (mask_sub hm rfl)
        | apply State.relay_same (mask_sub hm rfl) | apply State.setDr_same (mask_sub hm rfl)
    | (extract_lets +onlyGivenNames x
       first
       | (refine Same.cut (m := m) (r := r) (x := x) ?_ ?_ <;> first | (clear_value x; intro hx) | subst x)
       | subst x)
    | split
    | dsimp only)

theorem execDrgRefiLoss_same {m : Nat} {r s : State} (hm : m &&& 268435458 = 0) (h : Same m r s) (t : Nat) :
    SameO m r (execDrgRefiLoss t s) := by
  unfold execDrgRefiLoss
  repeat' (first
    | with_reducible
        first
        | assumption | apply Same.ite | apply SameO.ite | apply SameO.next | apply State.at_same (mask_sub hm rfl)
        | apply State.setDr_same (mask_sub hm rfl)
    | (extract_lets +onlyGivenNames x
       first
       | (refine Same.cut (m := m) (r := r) (x := x) ?_ ?_ <;> first | (clear_value x; intro hx) | subst x)
       | subst x)
    | split
    | dsimp only)

theorem State.darugStart_same {m : Nat} {r s : State} (hm : m &&& 268435464 = 0) (h : Same m r s) :
    Same m r (State.darugStart s) := by
  unfold State.darugStart
  repeat' (first
    | with_reducible
        first
        | assumption | apply Same.ite | apply State.os_same (mask_sub hm rfl)
        | apply State.setDr_same (mask_sub hm rfl)
    | (extract_lets +onlyGivenNames x
       first
       | (refine Same.cut (m := m) (r := r) (x := x) ?_ ?_ <;> first | (clear_value x; intro hx) | subst x)
       | subst x)
    | split
    | dsimp only)

theorem State.darugStop_same {m : Nat} {r s : State} (hm : m &&& 268435464 = 0) (h : Same m r s) :
    Same m r (State.darugStop s) := by
  unfold State.darugStop
  repeat' (first
    | with_reducible
        first
        | assumption | apply State.setDr_same (mask_sub hm rfl) | apply State.os_same (mask_sub hm rfl))

end Sys2Proof.Machine
end

