-- ==== Sys2Proof/Laws/SameLadder.lean ====
section
/-! SUPPORT. Which parts each function of the model leaves as they were:
the plan ladder, power transitions and Pod. -/

namespace Sys2Proof.Machine

open Sys2Proof

set_option linter.unusedSimpArgs false
set_option linter.unusedVariables false

/-! ## Ladder -/

theorem State.setLad_same {m : Nat} {r s : State} (hm : m &&& 1024 = 0) (h : Same m r s) (f : Ladder → Ladder) :
    Same m r (State.setLad s f) := by
  unfold State.setLad
  repeat' (first
    | with_reducible first | assumption
    | (simp only [Same.lit]; with_reducible refine SameLit.of hm ?_ ?_)
    | (refine fun (p : Part) (hp : Nat.testBit _ (Part.ix p) = false) => ?_; cases p <;> first | exact absurd hp (by decide) | (simp only [Part.same, and_self]; done))
    | dsimp only)

theorem State.setPower_same {m : Nat} {r s : State} (hm : m &&& 8 = 0) (h : Same m r s) (r' : Nat) :
    Same m r (State.setPower s r') := by
  unfold State.setPower
  repeat' (first
    | with_reducible first | assumption | apply State.os_same (mask_sub hm rfl)
    | split
    | dsimp only)

theorem State.planActive_same {m : Nat} {r s : State} (hm : m &&& 2361352 = 0) (h : Same m r s) (pl : Plan) :
    Same m r (State.planActive s pl) := by
  unfold State.planActive
  repeat' (first
    | with_reducible
        first
        | assumption | apply State.showRungs_same (mask_sub hm rfl) | apply State.queuesTake_same (mask_sub hm rfl))

theorem State.putRung_same {m : Nat} {r s : State} (hm : m &&& 2362376 = 0) (h : Same m r s) (r' : Nat) (pl : Plan)
    (kept : Bool) :
    Same m r (State.putRung s r' pl kept) := by
  unfold State.putRung
  repeat' (first
    | with_reducible
        first
        | assumption | apply Same.ite | apply State.setLad_same (mask_sub hm rfl)
        | apply State.setPower_same (mask_sub hm rfl) | apply State.planActive_same (mask_sub hm rfl)
        | apply State.showRungs_same (mask_sub hm rfl)
    | (extract_lets +onlyGivenNames x
       first
       | (refine Same.cut (m := m) (r := r) (x := x) ?_ ?_ <;> first | (clear_value x; intro hx) | subst x)
       | subst x)
    | split
    | dsimp only)

theorem State.supersede_same {m : Nat} {r s : State} (hm : m &&& 1024 = 0) (h : Same m r s) (r' : Nat) :
    Same m r (State.supersede s r') := by
  unfold State.supersede
  repeat' (first
    | with_reducible first | assumption | apply Same.ite | apply State.setLad_same (mask_sub hm rfl))

theorem State.keepPlan_same {m : Nat} {r s : State} (hm : m &&& 1024 = 0) (h : Same m r s) (r' : Nat) (img : List Byte) :
    Same m r (State.keepPlan s r' img) := by
  unfold State.keepPlan
  repeat' (first
    | with_reducible
        first
        | assumption | apply Same.ite | apply State.setLad_same (mask_sub hm rfl)
        | apply State.supersede_same (mask_sub hm rfl)
    | (extract_lets +onlyGivenNames x
       first
       | (refine Same.cut (m := m) (r := r) (x := x) ?_ ?_ <;> first | (clear_value x; intro hx) | subst x)
       | subst x)
    | split
    | dsimp only)

theorem State.endInstall_same {m : Nat} {r s : State} (hm : m &&& 2362380 = 0) (h : Same m r s) (arg : Nat)
    (img : List Byte) (flashFailed : Bool) :
    Same m r (State.endInstall s arg img flashFailed).2 := by
  unfold State.endInstall
  repeat' (first
    | with_reducible
        first
        | assumption | apply Same.ite | apply State.draw_same (mask_sub hm rfl)
        | apply State.os_same (mask_sub hm rfl) | apply State.keepPlan_same (mask_sub hm rfl)
        | apply State.supersede_same (mask_sub hm rfl) | apply State.putRung_same (mask_sub hm rfl)
        | apply Same.ite_snd | refine Same.snd ‹_ = (_, _)› ?_
    | (extract_lets +onlyGivenNames x
       first
       | (refine Same.cut (m := m) (r := r) (x := x) ?_ ?_ <;> first | (clear_value x; intro hx) | subst x)
       | subst x)
    | split
    | dsimp only)

theorem planInstall_same {m : Nat} {r s : State} (hm : m &&& 2361608 = 0) (h : Same m r s) (v : Nat) :
    SameE m r (planInstall v s) := by
  unfold planInstall
  repeat' (first
    | with_reducible
        first
        | assumption | apply Same.ite | apply SameE.ite | apply SameE.ok | apply SameE.error
        | apply require_same (mask_sub hm rfl) | apply State.startLong_same (mask_sub hm rfl)
        | refine Same.ofE ‹_ = Except.ok _› ?_
    | (with_reducible intro s1 h1; dsimp only)
    | with_reducible intro s1 h1)

theorem execPlanInstall_same {m : Nat} {r s : State} (hm : m &&& 2361642 = 0) (h : Same m r s) (t : Nat) (c : Nat)
    (rung : Nat) :
    SameO m r (execPlanInstall t c rung s) := by
  unfold execPlanInstall
  repeat' (first
    | with_reducible
        first
        | assumption | apply SameE.ok | apply SameE.error | apply SameO.next
        | apply State.hostWrite_same (mask_sub hm rfl) | apply State.at_same (mask_sub hm rfl)
        | apply planInstall_same (mask_sub hm rfl) | refine Same.ofE ‹_ = Except.ok _› ?_
    | (with_reducible intro s1 h1; dsimp only)
    | with_reducible intro s1 h1)

theorem execPlanInstallKeep_same {m : Nat} {r s : State} (hm : m &&& 2361642 = 0) (h : Same m r s) (t : Nat)
    (c : Nat) (rung : Nat) :
    SameO m r (execPlanInstallKeep t c rung s) := by
  unfold execPlanInstallKeep
  repeat' (first
    | with_reducible
        first
        | assumption | apply SameE.ok | apply SameE.error | apply SameO.next
        | apply State.hostWrite_same (mask_sub hm rfl) | apply State.at_same (mask_sub hm rfl)
        | apply planInstall_same (mask_sub hm rfl) | refine Same.ofE ‹_ = Except.ok _› ?_
    | (with_reducible intro s1 h1; dsimp only)
    | with_reducible intro s1 h1)

theorem removeRung_same {m : Nat} {r s : State} (hm : m &&& 1032 = 0) (h : Same m r s) (r' : Nat) :
    SameE m r (removeRung r' s) := by
  unfold removeRung
  repeat' (first
    | with_reducible
        first
        | assumption | apply SameE.ok | apply SameE.error | apply require_same (mask_sub hm rfl)
        | apply State.showRungs_same (mask_sub hm rfl) | apply State.setPower_same (mask_sub hm rfl)
        | apply State.setLad_same (mask_sub hm rfl) | apply State.supersede_same (mask_sub hm rfl)
        | refine Same.ofE ‹_ = Except.ok _› ?_
    | (with_reducible intro s1 h1; dsimp only)
    | with_reducible intro s1 h1)

theorem execRemoveRung_same {m : Nat} {r s : State} (hm : m &&& 1322 = 0) (h : Same m r s) (t : Nat) (c : Nat) (rung : Nat) :
    SameO m r (execRemoveRung t c rung s) := by
  unfold execRemoveRung
  repeat' (first
    | with_reducible
        first
        | assumption | apply SameE.ok | apply SameE.error | apply SameO.next
        | apply State.hostWrite_same (mask_sub hm rfl) | apply State.at_same (mask_sub hm rfl)
        | apply removeRung_same (mask_sub hm rfl) | refine Same.ofE ‹_ = Except.ok _› ?_
    | (with_reducible intro s1 h1; dsimp only)
    | with_reducible intro s1 h1)

theorem State.tellChain_same {m : Nat} {r s : State} (hm : m &&& 2147483688 = 0) (h : Same m r s) (typ : Nat)
    (payload : List Byte) :
    Same m r (State.tellChain s typ payload) := by
  unfold State.tellChain
  repeat' (first
    | with_reducible first | assumption | apply State.sendMsg_same (mask_sub hm rfl))

theorem State.tellHead_same {m : Nat} {r s : State} (hm : m &&& 2147483688 = 0) (h : Same m r s) (typ : Nat)
    (payload : List Byte) :
    Same m r (State.tellHead s typ payload) := by
  unfold State.tellHead
  repeat' (first
    | with_reducible first | assumption | apply State.sendMsg_same (mask_sub hm rfl))

theorem State.chainOutcome_same {m : Nat} {r s : State} (hm : m &&& 1032 = 0) (h : Same m r s) (pos : Nat)
    (code : Nat) (index : Nat) :
    Same m r (State.chainOutcome s pos code index) := by
  unfold State.chainOutcome
  repeat' (first
    | with_reducible
        first
        | assumption | apply Same.ite | apply State.os_same (mask_sub hm rfl)
        | apply State.setLad_same (mask_sub hm rfl)
    | (extract_lets +onlyGivenNames x
       first
       | (refine Same.cut (m := m) (r := r) (x := x) ?_ ?_ <;> first | (clear_value x; intro hx) | subst x)
       | subst x)
    | split
    | dsimp only)

theorem State.report_same {m : Nat} {r s : State} (hm : m &&& 2147484712 = 0) (h : Same m r s) (tag : Nat)
    (code : Nat) (index : Nat) :
    Same m r (State.report s tag code index) := by
  unfold State.report
  repeat' (first
    | with_reducible
        first
        | assumption | apply Same.ite | apply State.chainOutcome_same (mask_sub hm rfl)
        | apply State.tellHead_same (mask_sub hm rfl))

theorem State.countMismatch_same {m : Nat} {r s : State} (hm : m &&& 8 = 0) (h : Same m r s) (n : Nat) :
    Same m r (State.countMismatch s n) := by
  unfold State.countMismatch
  repeat' (first
    | with_reducible first | assumption | apply Same.ite | apply State.os_same (mask_sub hm rfl)
    | (extract_lets +onlyGivenNames x
       first
       | (refine Same.cut (m := m) (r := r) (x := x) ?_ ?_ <;> first | (clear_value x; intro hx) | subst x)
       | subst x)
    | split
    | dsimp only)

theorem State.dropSwitch_same {m : Nat} {r s : State} (hm : m &&& 8393736 = 0) (h : Same m r s) :
    Same m r (State.dropSwitch s) := by
  unfold State.dropSwitch
  repeat' (first
    | with_reducible
        first
        | assumption | apply State.setPort_same (mask_sub hm rfl) | apply State.releaseRegions_same (mask_sub hm rfl)
        | apply State.showOptics_same (mask_sub hm rfl) | apply State.setLad_same (mask_sub hm rfl)
        | apply State.os_same (mask_sub hm rfl) | refine Same.foldl (fun _ _ _ => ?_) _ ?_
    | (extract_lets +onlyGivenNames x
       first
       | (refine Same.cut (m := m) (r := r) (x := x) ?_ ?_ <;> first | (clear_value x; intro hx) | subst x)
       | subst x)
    | split
    | dsimp only
    | (with_reducible intro s1 h1; dsimp only)
    | with_reducible intro s1 h1)

theorem State.cancelChain_same {m : Nat} {r s : State} (hm : m &&& 2155877416 = 0) (h : Same m r s) (own : Nat) :
    Same m r (State.cancelChain s own) := by
  unfold State.cancelChain
  repeat' (first
    | with_reducible
        first
        | assumption | apply Same.ite | apply State.setLad_same (mask_sub hm rfl)
        | apply State.tellChain_same (mask_sub hm rfl) | apply State.chainOutcome_same (mask_sub hm rfl)
        | apply State.dropSwitch_same (mask_sub hm rfl)
    | (extract_lets +onlyGivenNames x
       first
       | (refine Same.cut (m := m) (r := r) (x := x) ?_ ?_ <;> first | (clear_value x; intro hx) | subst x)
       | subst x)
    | split
    | dsimp only)

theorem State.failFrom_same {m : Nat} {r s : State} (hm : m &&& 2155877416 = 0) (h : Same m r s) (pos : Nat) (tag : Nat) :
    Same m r (State.failFrom s pos tag) := by
  unfold State.failFrom
  repeat' (first
    | with_reducible
        first
        | assumption | apply Same.ite | apply State.cancelChain_same (mask_sub hm rfl)
        | apply State.chainOutcome_same (mask_sub hm rfl)
    | (extract_lets +onlyGivenNames x
       first
       | (refine Same.cut (m := m) (r := r) (x := x) ?_ ?_ <;> first | (clear_value x; intro hx) | subst x)
       | subst x)
    | split
    | dsimp only)

theorem State.nakFrom_same {m : Nat} {r s : State} (hm : m &&& 2155877416 = 0) (h : Same m r s) (pos : Nat) (tag : Nat) :
    Same m r (State.nakFrom s pos tag) := by
  unfold State.nakFrom
  repeat' (first
    | with_reducible
        first
        | assumption | apply Same.ite | apply State.cancelChain_same (mask_sub hm rfl)
        | apply State.chainOutcome_same (mask_sub hm rfl)
    | split
    | dsimp only)

theorem State.loseChain_same {m : Nat} {r s : State} (hm : m &&& 2155877416 = 0) (h : Same m r s) (tag : Nat) :
    Same m r (State.loseChain s tag) := by
  unfold State.loseChain
  repeat' (first
    | with_reducible
        first
        | assumption | apply Same.ite | apply State.setLad_same (mask_sub hm rfl)
        | apply State.failFrom_same (mask_sub hm rfl) | apply State.tellHead_same (mask_sub hm rfl)
        | apply State.nakFrom_same (mask_sub hm rfl)
    | (extract_lets +onlyGivenNames x
       first
       | (refine Same.cut (m := m) (r := r) (x := x) ?_ ?_ <;> first | (clear_value x; intro hx) | subst x)
       | subst x)
    | split
    | dsimp only)

theorem State.endMismatch_same {m : Nat} {r s : State} (hm : m &&& 1024 = 0) (h : Same m r s) :
    Same m r (State.endMismatch s) := by
  unfold State.endMismatch
  repeat' (first
    | with_reducible first | assumption | apply State.setLad_same (mask_sub hm rfl))

theorem State.askSwitch_same {m : Nat} {r s : State} (hm : m &&& 2155877416 = 0) (h : Same m r s) (rung : Nat)
    (chain : Option Nat) :
    Same m r (State.askSwitch s rung chain) := by
  unfold State.askSwitch
  repeat' (first
    | with_reducible
        first
        | assumption | apply Same.ite | apply State.dropSwitch_same (mask_sub hm rfl)
        | apply State.bump_same (mask_sub hm rfl) | apply State.loseChain_same (mask_sub hm rfl)
        | apply State.bringUp_same (mask_sub hm rfl) | apply State.setLad_same (mask_sub hm rfl)
        | apply State.os_same (mask_sub hm rfl)
    | (extract_lets +onlyGivenNames x
       first
       | (refine Same.cut (m := m) (r := r) (x := x) ?_ ?_ <;> first | (clear_value x; intro hx) | subst x)
       | subst x)
    | split
    | dsimp only)

theorem requestedRung_same {m : Nat} {r s : State} (hm : m &&& 2155877416 = 0) (h : Same m r s) (r' : Nat) :
    SameE m r (requestedRung r' s) := by
  unfold requestedRung
  repeat' (first
    | with_reducible
        first
        | assumption | apply Same.ite | apply SameE.ite | apply SameE.ok | apply SameE.error
        | apply require_same (mask_sub hm rfl) | apply State.osBit_same (mask_sub hm rfl)
        | apply State.os_same (mask_sub hm rfl) | apply State.endMismatch_same (mask_sub hm rfl)
        | apply State.askSwitch_same (mask_sub hm rfl) | refine Same.ofE ‹_ = Except.ok _› ?_
    | (extract_lets +onlyGivenNames x
       first
       | (refine Same.cut (m := m) (r := r) (x := x) ?_ ?_ <;> first | (clear_value x; intro hx) | subst x)
       | subst x)
    | split
    | dsimp only
    | (with_reducible intro s1 h1; dsimp only)
    | with_reducible intro s1 h1)

theorem execRequestedRung_same {m : Nat} {r s : State} (hm : m &&& 2155877674 = 0) (h : Same m r s) (t : Nat)
    (c : Nat) (rung : Nat) :
    SameO m r (execRequestedRung t c rung s) := by
  unfold execRequestedRung
  repeat' (first
    | with_reducible
        first
        | assumption | apply SameE.ok | apply SameE.error | apply SameO.next
        | apply State.hostWrite_same (mask_sub hm rfl) | apply State.at_same (mask_sub hm rfl)
        | apply requestedRung_same (mask_sub hm rfl) | refine Same.ofE ‹_ = Except.ok _› ?_
    | (with_reducible intro s1 h1; dsimp only)
    | with_reducible intro s1 h1)

theorem State.loadHalf_same {m : Nat} {r s : State} (hm : m &&& 2048 = 0) (h : Same m r s) (pl : Plan) :
    Same m r (State.loadHalf s pl) := by
  unfold State.loadHalf
  repeat' (first
    | with_reducible first | assumption | apply Same.ite
    | (simp only [Same.lit]; with_reducible refine SameLit.of hm ?_ ?_)
    | (refine fun (p : Part) (hp : Nat.testBit _ (Part.ix p) = false) => ?_; cases p <;> first | exact absurd hp (by decide) | (simp only [Part.same, and_self]; done))
    | (extract_lets +onlyGivenNames x
       first
       | (refine Same.cut (m := m) (r := r) (x := x) ?_ ?_ <;> first | (clear_value x; intro hx) | subst x)
       | subst x)
    | split
    | dsimp only)

theorem State.commitChain_same {m : Nat} {r s : State} (hm : m &&& 2147484712 = 0) (h : Same m r s) (c : ChainHead) :
    Same m r (State.commitChain s c) := by
  unfold State.commitChain
  repeat' (first
    | with_reducible
        first
        | assumption | apply State.os_same (mask_sub hm rfl) | apply State.tellChain_same (mask_sub hm rfl)
        | apply State.setLad_same (mask_sub hm rfl)
    | (extract_lets +onlyGivenNames x
       first
       | (refine Same.cut (m := m) (r := r) (x := x) ?_ ?_ <;> first | (clear_value x; intro hx) | subst x)
       | subst x)
    | split
    | dsimp only)

theorem State.ackFrom_same {m : Nat} {r s : State} (hm : m &&& 2147484712 = 0) (h : Same m r s) (pos : Nat) (tag : Nat) :
    Same m r (State.ackFrom s pos tag) := by
  unfold State.ackFrom
  repeat' (first
    | with_reducible
        first
        | assumption | apply Same.ite | apply State.setLad_same (mask_sub hm rfl)
        | apply State.commitChain_same (mask_sub hm rfl)
    | (extract_lets +onlyGivenNames x
       first
       | (refine Same.cut (m := m) (r := r) (x := x) ?_ ?_ <;> first | (clear_value x; intro hx) | subst x)
       | subst x)
    | split
    | dsimp only)

theorem State.failPrepare_same {m : Nat} {r s : State} (hm : m &&& 2155877416 = 0) (h : Same m r s) :
    Same m r (State.failPrepare s) := by
  unfold State.failPrepare
  repeat' (first
    | with_reducible
        first
        | assumption | apply Same.ite | apply State.os_same (mask_sub hm rfl)
        | apply State.dropSwitch_same (mask_sub hm rfl) | apply State.setLad_same (mask_sub hm rfl)
        | apply State.nakFrom_same (mask_sub hm rfl) | apply State.tellHead_same (mask_sub hm rfl)
    | (extract_lets +onlyGivenNames x
       first
       | (refine Same.cut (m := m) (r := r) (x := x) ?_ ?_ <;> first | (clear_value x; intro hx) | subst x)
       | subst x)
    | split
    | dsimp only)

theorem State.donePrepare_same {m : Nat} {r s : State} (hm : m &&& 2147486760 = 0) (h : Same m r s) (w : Switch)
    (pl : Plan) :
    Same m r (State.donePrepare s w pl) := by
  unfold State.donePrepare
  repeat' (first
    | with_reducible
        first
        | assumption | apply Same.ite | apply State.setLad_same (mask_sub hm rfl)
        | apply State.loadHalf_same (mask_sub hm rfl) | apply State.ackFrom_same (mask_sub hm rfl)
        | apply State.tellHead_same (mask_sub hm rfl)
    | (extract_lets +onlyGivenNames x
       first
       | (refine Same.cut (m := m) (r := r) (x := x) ?_ ?_ <;> first | (clear_value x; intro hx) | subst x)
       | subst x)
    | split
    | dsimp only)

theorem execColdEntrySeedCheck_same {m : Nat} {r s : State} (hm : m &&& 2155877802 = 0) (h : Same m r s) (t : Nat)
    (dbm : Int) :
    SameO m r (execColdEntrySeedCheck t dbm s) := by
  unfold execColdEntrySeedCheck
  repeat' (first
    | with_reducible
        first
        | assumption | apply Same.ite | apply SameO.ite | apply SameO.next | apply State.at_same (mask_sub hm rfl)
        | apply State.osI_same (mask_sub hm rfl) | apply State.abandonEntry_same (mask_sub hm rfl)
        | apply State.failPrepare_same (mask_sub hm rfl) | apply State.setLad_same (mask_sub hm rfl)
    | (simp only [Same.lit]; with_reducible refine SameLit.of hm ?_ ?_)
    | (refine fun (p : Part) (hp : Nat.testBit _ (Part.ix p) = false) => ?_; cases p <;> first | exact absurd hp (by decide) | (simp only [Part.same, and_self]; done))
    | (extract_lets +onlyGivenNames x
       first
       | (refine Same.cut (m := m) (r := r) (x := x) ?_ ?_ <;> first | (clear_value x; intro hx) | subst x)
       | subst x)
    | split
    | dsimp only)

theorem execPrepareEnd_same {m : Nat} {r s : State} (hm : m &&& 2155879722 = 0) (h : Same m r s) (t : Nat)
    (ok : Bool) (seedDbm : Int) :
    SameO m r (execPrepareEnd t ok seedDbm s) := by
  unfold execPrepareEnd
  repeat' (first
    | with_reducible
        first
        | assumption | apply Same.ite | apply SameO.ite | apply SameP.some | exact SameP.none | apply Same.getD
        | apply SameO.next | apply State.at_same (mask_sub hm rfl) | apply State.failPrepare_same (mask_sub hm rfl)
        | apply State.reservePlan_same (mask_sub hm rfl) | apply State.showOptics_same (mask_sub hm rfl)
        | apply State.expirePort_same (mask_sub hm rfl) | apply State.donePrepare_same (mask_sub hm rfl)
        | refine Same.foldl (fun _ _ _ => ?_) _ ?_ | refine Same.ofP ‹_ = Option.some _› ?_
    | (extract_lets +onlyGivenNames x
       first
       | (refine Same.cut (m := m) (r := r) (x := x) ?_ ?_ <;> first | (clear_value x; intro hx) | subst x)
       | subst x)
    | split
    | dsimp only
    | (with_reducible intro s1 h1; dsimp only)
    | with_reducible intro s1 h1)

theorem shadowed_same {m : Nat} {r s : State} (hm : m &&& 1024 = 0) (h : Same m r s) (idx : Nat) (sub : Nat)
    (b : List Byte) :
    SameE m r (shadowed idx sub b s) := by
  unfold shadowed
  repeat' (first
    | with_reducible
        first
        | assumption | apply Same.ite | apply SameE.ite | apply SameE.ok | apply SameE.error
        | apply shadow_same (mask_sub hm rfl) | refine Same.ofE ‹_ = Except.ok _› ?_
    | (extract_lets +onlyGivenNames x
       first
       | (refine Same.cut (m := m) (r := r) (x := x) ?_ ?_ <;> first | (clear_value x; intro hx) | subst x)
       | subst x)
    | split
    | dsimp only
    | (with_reducible intro s1 h1; dsimp only)
    | with_reducible intro s1 h1)

theorem execShadowedWrite_same {m : Nat} {r s : State} (hm : m &&& 1322 = 0) (h : Same m r s) (t : Nat) (c : Nat)
    (index : Nat) (sub : Nat) (data : List Byte) :
    SameO m r (execShadowedWrite t c index sub data s) := by
  unfold execShadowedWrite
  repeat' (first
    | with_reducible
        first
        | assumption | apply Same.ite | apply SameE.ite | apply SameO.ite | apply SameE.ok | apply SameE.error
        | apply SameO.next | apply State.at_same (mask_sub hm rfl) | apply State.hostWrite_same (mask_sub hm rfl)
        | apply zoneThreshold_same (mask_sub hm rfl) | apply bankLoad_same (mask_sub hm rfl)
        | apply shadowed_same (mask_sub hm rfl) | refine Same.ofE ‹_ = Except.ok _› ?_
    | (extract_lets +onlyGivenNames x
       first
       | (refine Same.cut (m := m) (r := r) (x := x) ?_ ?_ <;> first | (clear_value x; intro hx) | subst x)
       | subst x)
    | split
    | dsimp only
    | (with_reducible intro s1 h1; dsimp only)
    | with_reducible intro s1 h1)

theorem chainSwitch_same {m : Nat} {r s : State} (hm : m &&& 2155877416 = 0) (h : Same m r s) (r' : Nat) :
    SameE m r (chainSwitch r' s) := by
  unfold chainSwitch
  repeat' (first
    | with_reducible
        first
        | assumption | apply SameE.ok | apply SameE.error | apply require_same (mask_sub hm rfl)
        | apply State.askSwitch_same (mask_sub hm rfl) | apply State.os_same (mask_sub hm rfl)
        | apply State.setLad_same (mask_sub hm rfl) | apply State.tellChain_same (mask_sub hm rfl)
        | refine Same.foldl (fun _ _ _ => ?_) _ ?_ | refine Same.ofE ‹_ = Except.ok _› ?_
    | (extract_lets +onlyGivenNames x
       first
       | (refine Same.cut (m := m) (r := r) (x := x) ?_ ?_ <;> first | (clear_value x; intro hx) | subst x)
       | subst x)
    | split
    | dsimp only
    | (with_reducible intro s1 h1; dsimp only)
    | with_reducible intro s1 h1)

theorem execChainSwitch_same {m : Nat} {r s : State} (hm : m &&& 2155877674 = 0) (h : Same m r s) (t : Nat)
    (c : Nat) (rung : Nat) :
    SameO m r (execChainSwitch t c rung s) := by
  unfold execChainSwitch
  repeat' (first
    | with_reducible
        first
        | assumption | apply SameE.ok | apply SameE.error | apply SameO.next
        | apply State.hostWrite_same (mask_sub hm rfl) | apply State.at_same (mask_sub hm rfl)
        | apply chainSwitch_same (mask_sub hm rfl) | refine Same.ofE ‹_ = Except.ok _› ?_
    | (with_reducible intro s1 h1; dsimp only)
    | with_reducible intro s1 h1)

theorem execPrepare_same {m : Nat} {r s : State} (hm : m &&& 2155877418 = 0) (h : Same m r s) (t : Nat) (rung : Nat)
    (tag : Nat) :
    SameO m r (execPrepare t rung tag s) := by
  unfold execPrepare
  repeat' (first
    | with_reducible
        first
        | assumption | apply Same.ite | apply SameO.ite | apply SameO.next | apply State.at_same (mask_sub hm rfl)
        | apply State.os_same (mask_sub hm rfl) | apply State.relay_same (mask_sub hm rfl)
        | apply State.tellHead_same (mask_sub hm rfl) | apply State.askSwitch_same (mask_sub hm rfl)
        | apply State.setLad_same (mask_sub hm rfl)
    | (extract_lets +onlyGivenNames x
       first
       | (refine Same.cut (m := m) (r := r) (x := x) ?_ ?_ <;> first | (clear_value x; intro hx) | subst x)
       | subst x)
    | split
    | dsimp only)

theorem State.toHead_same {m : Nat} {r s : State} (hm : m &&& 2147483688 = 0) (h : Same m r s) (typ : Nat)
    (src : Nat) (payload : List Byte) (effect : State → State) (he : ∀ s', Same m r s' → Same m r (effect s')) :
    Same m r (State.toHead s typ src payload effect) := by
  unfold State.toHead
  repeat' (first
    | with_reducible first | assumption | apply Same.ite | apply State.relay_same (mask_sub hm rfl) | apply he
    | (with_reducible intro s1 h1; dsimp only)
    | with_reducible intro s1 h1)

theorem execAck_same {m : Nat} {r s : State} (hm : m &&& 2147484714 = 0) (h : Same m r s) (t : Nat) (src : Nat) (tag : Nat) :
    SameO m r (execAck t src tag s) := by
  unfold execAck
  repeat' (first
    | with_reducible
        first
        | assumption | apply SameO.next | apply State.toHead_same (mask_sub hm rfl)
        | apply State.at_same (mask_sub hm rfl) | apply State.ackFrom_same (mask_sub hm rfl)
    | (with_reducible intro s1 h1; dsimp only)
    | with_reducible intro s1 h1)

theorem execNak_same {m : Nat} {r s : State} (hm : m &&& 2155877418 = 0) (h : Same m r s) (t : Nat) (src : Nat) (tag : Nat) :
    SameO m r (execNak t src tag s) := by
  unfold execNak
  repeat' (first
    | with_reducible
        first
        | assumption | apply SameO.next | apply State.toHead_same (mask_sub hm rfl)
        | apply State.at_same (mask_sub hm rfl) | apply State.nakFrom_same (mask_sub hm rfl)
    | (with_reducible intro s1 h1; dsimp only)
    | with_reducible intro s1 h1)

theorem execAckTimeout_same {m : Nat} {r s : State} (hm : m &&& 2155877418 = 0) (h : Same m r s) (t : Nat) :
    SameO m r (execAckTimeout t s) := by
  unfold execAckTimeout
  repeat' (first
    | with_reducible
        first
        | assumption | apply Same.ite | apply SameO.ite | apply SameO.next | apply State.at_same (mask_sub hm rfl)
        | apply State.chainOutcome_same (mask_sub hm rfl) | apply State.cancelChain_same (mask_sub hm rfl)
        | refine Same.foldl (fun _ _ _ => ?_) _ ?_
    | (extract_lets +onlyGivenNames x
       first
       | (refine Same.cut (m := m) (r := r) (x := x) ?_ ?_ <;> first | (clear_value x; intro hx) | subst x)
       | subst x)
    | split
    | dsimp only
    | (with_reducible intro s1 h1; dsimp only)
    | with_reducible intro s1 h1)

theorem execCommit_same {m : Nat} {r s : State} (hm : m &&& 2147484714 = 0) (h : Same m r s) (t : Nat) (tag : Nat)
    (index : Nat) :
    SameO m r (execCommit t tag index s) := by
  unfold execCommit
  repeat' (first
    | with_reducible
        first
        | assumption | apply Same.ite | apply SameO.ite | apply SameO.next | apply State.at_same (mask_sub hm rfl)
        | apply State.relay_same (mask_sub hm rfl) | apply State.setLad_same (mask_sub hm rfl)
    | (extract_lets +onlyGivenNames x
       first
       | (refine Same.cut (m := m) (r := r) (x := x) ?_ ?_ <;> first | (clear_value x; intro hx) | subst x)
       | subst x)
    | split
    | dsimp only)

theorem execCancel_same {m : Nat} {r s : State} (hm : m &&& 2155877418 = 0) (h : Same m r s) (t : Nat) (tag : Nat) :
    SameO m r (execCancel t tag s) := by
  unfold execCancel
  repeat' (first
    | with_reducible
        first
        | assumption | apply Same.ite | apply SameO.ite | apply SameO.next | apply State.at_same (mask_sub hm rfl)
        | apply State.relay_same (mask_sub hm rfl) | apply State.report_same (mask_sub hm rfl)
        | apply State.dropSwitch_same (mask_sub hm rfl) | apply State.setLad_same (mask_sub hm rfl)
    | (extract_lets +onlyGivenNames x
       first
       | (refine Same.cut (m := m) (r := r) (x := x) ?_ ?_ <;> first | (clear_value x; intro hx) | subst x)
       | subst x)
    | split
    | dsimp only)

theorem execFail_same {m : Nat} {r s : State} (hm : m &&& 2155877418 = 0) (h : Same m r s) (t : Nat) (src : Nat)
    (tag : Nat) :
    SameO m r (execFail t src tag s) := by
  unfold execFail
  repeat' (first
    | with_reducible
        first
        | assumption | apply SameO.next | apply State.toHead_same (mask_sub hm rfl)
        | apply State.at_same (mask_sub hm rfl) | apply State.failFrom_same (mask_sub hm rfl)
    | (with_reducible intro s1 h1; dsimp only)
    | with_reducible intro s1 h1)

theorem execOutcome_same {m : Nat} {r s : State} (hm : m &&& 2147484714 = 0) (h : Same m r s) (t : Nat) (src : Nat)
    (tag : Nat) (outcome : Nat) (index : Nat) :
    SameO m r (execOutcome t src tag outcome index s) := by
  unfold execOutcome
  repeat' (first
    | with_reducible
        first
        | assumption | apply Same.ite | apply SameO.ite | apply SameO.next | apply State.toHead_same (mask_sub hm rfl)
        | apply State.at_same (mask_sub hm rfl) | apply State.chainOutcome_same (mask_sub hm rfl)
    | (with_reducible intro s1 h1; dsimp only)
    | with_reducible intro s1 h1)

theorem execCommitLostTimeout_same {m : Nat} {r s : State} (hm : m &&& 2155877418 = 0) (h : Same m r s) (t : Nat) :
    SameO m r (execCommitLostTimeout t s) := by
  unfold execCommitLostTimeout
  repeat' (first
    | with_reducible
        first
        | assumption | apply Same.ite | apply SameO.ite | apply SameO.next | apply State.at_same (mask_sub hm rfl)
        | apply State.report_same (mask_sub hm rfl) | apply State.setLad_same (mask_sub hm rfl)
        | apply State.dropSwitch_same (mask_sub hm rfl)
    | (extract_lets +onlyGivenNames x
       first
       | (refine Same.cut (m := m) (r := r) (x := x) ?_ ?_ <;> first | (clear_value x; intro hx) | subst x)
       | subst x)
    | split
    | dsimp only)

/-! ## Move -/

theorem State.setPw_same {m : Nat} {r s : State} (hm : m &&& 130 = 0) (h : Same m r s) (f : Power → Power) :
    Same m r (State.setPw s f) := by
  unfold State.setPw
  repeat' (first
    | with_reducible first | assumption
    | (simp only [Same.lit]; with_reducible refine SameLit.of hm ?_ ?_)
    | (refine fun (p : Part) (hp : Nat.testBit _ (Part.ix p) = false) => ?_; cases p <;> first | exact absurd hp (by decide) | (simp only [Part.same, and_self]; done))
    | dsimp only)

theorem State.setMg_same {m : Nat} {r s : State} (hm : m &&& 512 = 0) (h : Same m r s) (f : Manage → Manage) :
    Same m r (State.setMg s f) := by
  unfold State.setMg
  repeat' (first
    | with_reducible first | assumption
    | (simp only [Same.lit]; with_reducible refine SameLit.of hm ?_ ?_)
    | (refine fun (p : Part) (hp : Nat.testBit _ (Part.ix p) = false) => ?_; cases p <;> first | exact absurd hp (by decide) | (simp only [Part.same, and_self]; done))
    | dsimp only)

theorem State.account_same {m : Nat} {r s : State} (hm : m &&& 512 = 0) (h : Same m r s) (n : Nat) (causes : List Nat) :
    Same m r (State.account s n causes) := by
  unfold State.account
  repeat' (first
    | with_reducible
        first
        | assumption | apply Same.ite | apply State.setMg_same (mask_sub hm rfl)
        | refine Same.foldl (fun _ _ _ => ?_) _ ?_
    | (extract_lets +onlyGivenNames x
       first
       | (refine Same.cut (m := m) (r := r) (x := x) ?_ ?_ <;> first | (clear_value x; intro hx) | subst x)
       | subst x)
    | split
    | dsimp only
    | (with_reducible intro s1 h1; dsimp only)
    | with_reducible intro s1 h1)

theorem State.outages_same {m : Nat} {r s : State} (hm : m &&& 520 = 0) (h : Same m r s) (n : Nat) (causes : List Nat) :
    Same m r (State.outages s n causes) := by
  unfold State.outages
  repeat' (first
    | with_reducible
        first
        | assumption | apply State.log_same (mask_sub hm rfl) | apply State.setMg_same (mask_sub hm rfl)
        | refine Same.foldl (fun _ _ _ => ?_) _ ?_ | refine Same.snd ‹_ = (_, _)› ?_
    | (extract_lets +onlyGivenNames x
       first
       | (refine Same.cut (m := m) (r := r) (x := x) ?_ ?_ <;> first | (clear_value x; intro hx) | subst x)
       | subst x)
    | split
    | dsimp only
    | (with_reducible intro s1 h1; dsimp only)
    | with_reducible intro s1 h1)

theorem State.settleIdle_same {m : Nat} {r s : State} (hm : m &&& 520 = 0) (h : Same m r s) :
    Same m r (State.settleIdle s) := by
  unfold State.settleIdle
  repeat' (first
    | with_reducible
        first
        | assumption | apply Same.ite | apply State.setMg_same (mask_sub hm rfl)
        | apply State.outages_same (mask_sub hm rfl) | apply State.account_same (mask_sub hm rfl)
    | (extract_lets +onlyGivenNames x
       first
       | (refine Same.cut (m := m) (r := r) (x := x) ?_ ?_ <;> first | (clear_value x; intro hx) | subst x)
       | subst x)
    | split
    | dsimp only)

theorem State.intend_same {m : Nat} {r s : State} (hm : m &&& 520 = 0) (h : Same m r s) :
    Same m r (State.intend s) := by
  unfold State.intend
  repeat' (first
    | with_reducible
        first
        | assumption | apply State.setMg_same (mask_sub hm rfl) | apply State.settleIdle_same (mask_sub hm rfl))

theorem State.unintend_same {m : Nat} {r s : State} (hm : m &&& 520 = 0) (h : Same m r s) :
    Same m r (State.unintend s) := by
  unfold State.unintend
  repeat' (first
    | with_reducible
        first
        | assumption | apply State.setMg_same (mask_sub hm rfl) | apply State.outages_same (mask_sub hm rfl)
        | apply State.settleIdle_same (mask_sub hm rfl))

theorem State.chargeTo_same {m : Nat} {r s : State} (hm : m &&& 520 = 0) (h : Same m r s) (c : Nat) :
    Same m r (State.chargeTo s c) := by
  unfold State.chargeTo
  repeat' (first
    | with_reducible
        first
        | assumption | apply State.setMg_same (mask_sub hm rfl) | apply State.settleIdle_same (mask_sub hm rfl))

theorem State.beginEntry_same {m : Nat} {r s : State} (hm : m &&& 8394890 = 0) (h : Same m r s) :
    SameE m r (State.beginEntry s) := by
  unfold State.beginEntry
  repeat' (first
    | with_reducible
        first
        | assumption | apply Same.ite | apply SameE.ite | apply SameE.ok | apply SameE.error | apply SameP.some
        | exact SameP.none | apply Same.getD | apply State.reserveEntry_same (mask_sub hm rfl)
        | apply State.photonicOn_same (mask_sub hm rfl) | apply State.bringUp_same (mask_sub hm rfl)
        | apply State.setPw_same (mask_sub hm rfl) | apply State.loadHalf_same (mask_sub hm rfl)
        | refine Same.ofE ‹_ = Except.ok _› ?_ | refine Same.ofP ‹_ = Option.some _› ?_
    | (simp only [Same.lit]; with_reducible refine SameLit.of hm ?_ ?_)
    | (refine fun (p : Part) (hp : Nat.testBit _ (Part.ix p) = false) => ?_; cases p <;> first | exact absurd hp (by decide) | (simp only [Part.same, and_self]; done))
    | (extract_lets +onlyGivenNames x
       first
       | (refine Same.cut (m := m) (r := r) (x := x) ?_ ?_ <;> first | (clear_value x; intro hx) | subst x)
       | subst x)
    | split
    | dsimp only
    | (with_reducible intro s1 h1; dsimp only)
    | with_reducible intro s1 h1)

theorem State.judgeEntry_same {m : Nat} {r s : State} (hm : m &&& 8395146 = 0) (h : Same m r s) :
    Same m r (State.judgeEntry s) := by
  unfold State.judgeEntry
  repeat' (first
    | with_reducible
        first
        | assumption | apply SameE.ok | apply SameE.error | apply State.beginEntry_same (mask_sub hm rfl)
        | apply State.transitionDone_same (mask_sub hm rfl) | apply State.emcy_same (mask_sub hm rfl)
        | refine Same.ofE ‹_ = Except.ok _› ?_
    | split
    | dsimp only
    | (with_reducible intro s1 h1; dsimp only)
    | with_reducible intro s1 h1)

theorem State.readyCounts_same {m : Nat} {r s : State} (hm : m &&& 8 = 0) (h : Same m r s) :
    Same m r (State.readyCounts s) := by
  unfold State.readyCounts
  repeat' (first
    | with_reducible
        first
        | assumption | apply State.os_same (mask_sub hm rfl) | refine Same.foldl (fun _ _ _ => ?_) _ ?_
    | (extract_lets +onlyGivenNames x
       first
       | (refine Same.cut (m := m) (r := r) (x := x) ?_ ?_ <;> first | (clear_value x; intro hx) | subst x)
       | subst x)
    | split
    | dsimp only
    | (with_reducible intro s1 h1; dsimp only)
    | with_reducible intro s1 h1)

theorem State.enterReady_same {m : Nat} {r s : State} (hm : m &&& 485759626 = 0) (h : Same m r s) :
    Same m r (State.enterReady s) := by
  unfold State.enterReady
  repeat' (first
    | with_reducible
        first
        | assumption | apply Same.ite | apply State.readyCounts_same (mask_sub hm rfl)
        | apply State.pipReady_same (mask_sub hm rfl) | apply State.sesameStart_same (mask_sub hm rfl)
        | apply State.darugStart_same (mask_sub hm rfl) | apply State.lanesStart_same (mask_sub hm rfl)
        | apply State.emptyQueues_same (mask_sub hm rfl) | apply State.clockStart_same (mask_sub hm rfl)
        | apply State.os_same (mask_sub hm rfl) | apply State.setMem_same (mask_sub hm rfl)
        | apply State.storeSets_same (mask_sub hm rfl) | apply State.setMg_same (mask_sub hm rfl)
        | apply State.enterPower_same (mask_sub hm rfl)
    | (simp only [Same.lit]; with_reducible refine SameLit.of hm ?_ ?_)
    | (refine fun (p : Part) (hp : Nat.testBit _ (Part.ix p) = false) => ?_; cases p <;> first | exact absurd hp (by decide) | (simp only [Part.same, and_self]; done))
    | (extract_lets +onlyGivenNames x
       first
       | (refine Same.cut (m := m) (r := r) (x := x) ?_ ?_ <;> first | (clear_value x; intro hx) | subst x)
       | subst x)
    | split
    | dsimp only)

theorem State.toDoze_same {m : Nat} {r s : State} (hm : m &&& 502536874 = 0) (h : Same m r s) :
    Same m r (State.toDoze s) := by
  unfold State.toDoze
  repeat' (first
    | with_reducible
        first
        | assumption | apply Same.ite | apply State.sunScan_same (mask_sub hm rfl)
        | apply State.photonicOff_same (mask_sub hm rfl) | apply State.clockStop_same (mask_sub hm rfl)
        | apply State.pipDoze_same (mask_sub hm rfl) | apply State.flaxStop_same (mask_sub hm rfl)
        | apply State.sesameStop_same (mask_sub hm rfl) | apply State.darugStop_same (mask_sub hm rfl)
        | apply State.lanesStop_same (mask_sub hm rfl) | apply State.emptyQueues_same (mask_sub hm rfl)
        | apply State.setMem_same (mask_sub hm rfl) | apply State.enterPower_same (mask_sub hm rfl)
    | (simp only [Same.lit]; with_reducible refine SameLit.of hm ?_ ?_)
    | (refine fun (p : Part) (hp : Nat.testBit _ (Part.ix p) = false) => ?_; cases p <;> first | exact absurd hp (by decide) | (simp only [Part.same, and_self]; done))
    | (extract_lets +onlyGivenNames x
       first
       | (refine Same.cut (m := m) (r := r) (x := x) ?_ ?_ <;> first | (clear_value x; intro hx) | subst x)
       | subst x)
    | split
    | dsimp only)

theorem State.onward_same {m : Nat} {r s : State} (hm : m &&& 502537130 = 0) (h : Same m r s) :
    Same m r (State.onward s) := by
  unfold State.onward
  repeat' (first
    | with_reducible
        first
        | assumption | apply State.transitionDone_same (mask_sub hm rfl) | apply State.toDoze_same (mask_sub hm rfl)
        | apply State.setPw_same (mask_sub hm rfl) | apply State.judgeEntry_same (mask_sub hm rfl)
    | split
    | dsimp only)

theorem State.moveDown_same {m : Nat} {r s : State} (hm : m &&& 502537130 = 0) (h : Same m r s) (p : PowerState) :
    Same m r (State.moveDown s p) := by
  unfold State.moveDown
  repeat' (first
    | with_reducible
        first
        | assumption | apply Same.ite | apply State.setPw_same (mask_sub hm rfl)
        | apply State.onward_same (mask_sub hm rfl) | apply State.transitionDone_same (mask_sub hm rfl)
    | (simp only [Same.lit]; with_reducible refine SameLit.of hm ?_ ?_)
    | (refine fun (p : Part) (hp : Nat.testBit _ (Part.ix p) = false) => ?_; cases p <;> first | exact absurd hp (by decide) | (simp only [Part.same, and_self]; done))
    | (extract_lets +onlyGivenNames x
       first
       | (refine Same.cut (m := m) (r := r) (x := x) ?_ ?_ <;> first | (clear_value x; intro hx) | subst x)
       | subst x)
    | split
    | dsimp only)

theorem State.hostEnds_same {m : Nat} {r s : State} (hm : m &&& 650 = 0) (h : Same m r s) :
    Same m r (State.hostEnds s) := by
  unfold State.hostEnds
  repeat' (first
    | with_reducible
        first
        | assumption | apply Same.ite | apply State.unintend_same (mask_sub hm rfl)
        | apply State.setPw_same (mask_sub hm rfl)
    | (extract_lets +onlyGivenNames x
       first
       | (refine Same.cut (m := m) (r := r) (x := x) ?_ ?_ <;> first | (clear_value x; intro hx) | subst x)
       | subst x)
    | split
    | dsimp only)

theorem State.leaveDoze_same {m : Nat} {r s : State} (hm : m &&& 268435586 = 0) (h : Same m r s) (p : PowerState) :
    Same m r (State.leaveDoze s p) := by
  unfold State.leaveDoze
  repeat' (first
    | with_reducible first | assumption | apply Same.ite | apply State.setPw_same (mask_sub hm rfl)
    | (simp only [Same.lit]; with_reducible refine SameLit.of hm ?_ ?_)
    | (refine fun (p : Part) (hp : Nat.testBit _ (Part.ix p) = false) => ?_; cases p <;> first | exact absurd hp (by decide) | (simp only [Part.same, and_self]; done))
    | (extract_lets +onlyGivenNames x
       first
       | (refine Same.cut (m := m) (r := r) (x := x) ?_ ?_ <;> first | (clear_value x; intro hx) | subst x)
       | subst x)
    | split
    | dsimp only)

/-! ## Energy -/

theorem State.setPod_same {m : Nat} {r s : State} (hm : m &&& 536870912 = 0) (h : Same m r s) (f : Pod → Pod) :
    Same m r (State.setPod s f) := by
  unfold State.setPod
  repeat' (first
    | with_reducible first | assumption
    | (simp only [Same.lit]; with_reducible refine SameLit.of hm ?_ ?_)
    | (refine fun (p : Part) (hp : Nat.testBit _ (Part.ix p) = false) => ?_; cases p <;> first | exact absurd hp (by decide) | (simp only [Part.same, and_self]; done))
    | dsimp only)

theorem State.putBalance_same {m : Nat} {r s : State} (hm : m &&& 536870916 = 0) (h : Same m r s) (b : Int) :
    Same m r (State.putBalance s b) := by
  unfold State.putBalance
  repeat' (first
    | with_reducible
        first
        | assumption | apply Same.ite | apply State.setPod_same (mask_sub hm rfl)
        | apply State.draw_same (mask_sub hm rfl) | apply Same.ite_snd | refine Same.snd ‹_ = (_, _)› ?_
    | split
    | dsimp only)

theorem State.post_same {m : Nat} {r s : State} (hm : m &&& 536870916 = 0) (h : Same m r s) (credit : Int) (debit : Int) :
    Same m r (State.post s credit debit) := by
  unfold State.post
  repeat' (first
    | with_reducible first | assumption | apply State.putBalance_same (mask_sub hm rfl))

theorem State.podSleep_same {m : Nat} {r s : State} (hm : m &&& 1039408042 = 0) (h : Same m r s) :
    Same m r (State.podSleep s) := by
  unfold State.podSleep
  repeat' (first
    | with_reducible
        first
        | assumption | apply Same.ite | apply State.setPod_same (mask_sub hm rfl)
        | apply State.os_same (mask_sub hm rfl) | apply State.moveDown_same (mask_sub hm rfl)
        | apply State.unintend_same (mask_sub hm rfl) | apply State.settleIdle_same (mask_sub hm rfl)
    | (extract_lets +onlyGivenNames x
       first
       | (refine Same.cut (m := m) (r := r) (x := x) ?_ ?_ <;> first | (clear_value x; intro hx) | subst x)
       | subst x)
    | split
    | dsimp only)

theorem State.ownSwitch_same {m : Nat} {r s : State} (hm : m &&& 2155877416 = 0) (h : Same m r s) (r' : Nat) :
    Same m r (State.ownSwitch s r') := by
  unfold State.ownSwitch
  repeat' (first
    | with_reducible first | assumption | apply Same.ite | apply State.askSwitch_same (mask_sub hm rfl)
    | split
    | dsimp only)

theorem State.managedEnter_same {m : Nat} {r s : State} (hm : m &&& 276831114 = 0) (h : Same m r s) :
    Same m r (State.managedEnter s) := by
  unfold State.managedEnter
  repeat' (first
    | with_reducible
        first
        | assumption | apply Same.ite | apply State.judgeEntry_same (mask_sub hm rfl)
        | apply State.intend_same (mask_sub hm rfl) | apply State.leaveDoze_same (mask_sub hm rfl)
    | split
    | dsimp only)

theorem State.applyChoice_same {m : Nat} {r s : State} (hm : m &&& 3186892714 = 0) (h : Same m r s) :
    Same m r (State.applyChoice s) := by
  unfold State.applyChoice
  repeat' (first
    | with_reducible
        first
        | assumption | apply Same.ite | apply State.os_same (mask_sub hm rfl)
        | apply State.ownSwitch_same (mask_sub hm rfl) | apply State.setPod_same (mask_sub hm rfl)
        | apply State.managedEnter_same (mask_sub hm rfl) | apply State.podSleep_same (mask_sub hm rfl)
        | apply Same.ite_snd | refine Same.snd ‹_ = (_, _)› ?_
    | (extract_lets +onlyGivenNames x
       first
       | (refine Same.cut (m := m) (r := r) (x := x) ?_ ?_ <;> first | (clear_value x; intro hx) | subst x)
       | subst x)
    | split
    | dsimp only)

theorem State.rechoose_same {m : Nat} {r s : State} (hm : m &&& 3186892714 = 0) (h : Same m r s) :
    Same m r (State.rechoose s) := by
  unfold State.rechoose
  repeat' (first
    | with_reducible first | assumption | apply Same.ite | apply State.applyChoice_same (mask_sub hm rfl))

theorem State.podJudge_same {m : Nat} {r s : State} (hm : m &&& 3186892714 = 0) (h : Same m r s) :
    Same m r (State.podJudge s) := by
  unfold State.podJudge
  repeat' (first
    | with_reducible
        first
        | assumption | apply Same.ite | apply State.setPod_same (mask_sub hm rfl)
        | apply State.osBit_same (mask_sub hm rfl) | apply State.emcy_same (mask_sub hm rfl)
        | apply State.chargeTo_same (mask_sub hm rfl) | apply State.podSleep_same (mask_sub hm rfl)
        | apply State.rechoose_same (mask_sub hm rfl)
    | (extract_lets +onlyGivenNames x
       first
       | (refine Same.cut (m := m) (r := r) (x := x) ?_ ?_ <;> first | (clear_value x; intro hx) | subst x)
       | subst x)
    | split
    | dsimp only)

theorem State.podTick_same {m : Nat} {r s : State} (hm : m &&& 536870924 = 0) (h : Same m r s) :
    Same m r (State.podTick s) := by
  unfold State.podTick
  repeat' (first
    | with_reducible
        first
        | assumption | apply Same.ite | apply State.os_same (mask_sub hm rfl)
        | apply State.setPod_same (mask_sub hm rfl) | apply State.post_same (mask_sub hm rfl)
    | (extract_lets +onlyGivenNames x
       first
       | (refine Same.cut (m := m) (r := r) (x := x) ?_ ?_ <;> first | (clear_value x; intro hx) | subst x)
       | subst x)
    | split
    | dsimp only)

theorem execPodSecond_same {m : Nat} {r s : State} (hm : m &&& 3186892718 = 0) (h : Same m r s) (t : Nat) :
    SameO m r (execPodSecond t s) := by
  unfold execPodSecond
  repeat' (first
    | with_reducible
        first
        | assumption | apply Same.ite | apply SameO.ite | apply SameO.next | apply State.at_same (mask_sub hm rfl)
        | apply State.podJudge_same (mask_sub hm rfl) | apply State.podTick_same (mask_sub hm rfl)
    | (extract_lets +onlyGivenNames x
       first
       | (refine Same.cut (m := m) (r := r) (x := x) ?_ ?_ <;> first | (clear_value x; intro hx) | subst x)
       | subst x)
    | split
    | dsimp only)

theorem incomeCredit_same {m : Nat} {r s : State} (hm : m &&& 3186892718 = 0) (h : Same m r s) (uj : Nat) :
    SameE m r (incomeCredit uj s) := by
  unfold incomeCredit
  repeat' (first
    | with_reducible
        first
        | assumption | apply SameE.ok | apply SameE.error | apply State.rechoose_same (mask_sub hm rfl)
        | apply State.podJudge_same (mask_sub hm rfl) | apply State.post_same (mask_sub hm rfl)
        | refine Same.ofE ‹_ = Except.ok _› ?_
    | (with_reducible intro s1 h1; dsimp only)
    | with_reducible intro s1 h1)

theorem execIncomeCredit_same {m : Nat} {r s : State} (hm : m &&& 3186892718 = 0) (h : Same m r s) (t : Nat)
    (c : Nat) (uj : Nat) :
    SameO m r (execIncomeCredit t c uj s) := by
  unfold execIncomeCredit
  repeat' (first
    | with_reducible
        first
        | assumption | apply SameE.ok | apply SameE.error | apply SameO.next
        | apply State.hostWrite_same (mask_sub hm rfl) | apply State.at_same (mask_sub hm rfl)
        | apply incomeCredit_same (mask_sub hm rfl) | refine Same.ofE ‹_ = Except.ok _› ?_
    | (with_reducible intro s1 h1; dsimp only)
    | with_reducible intro s1 h1)

theorem balanceWrite_same {m : Nat} {r s : State} (hm : m &&& 3186892718 = 0) (h : Same m r s) (uj : Int) :
    SameE m r (balanceWrite uj s) := by
  unfold balanceWrite
  repeat' (first
    | with_reducible
        first
        | assumption | apply SameE.ok | apply SameE.error | apply State.rechoose_same (mask_sub hm rfl)
        | apply State.podJudge_same (mask_sub hm rfl) | apply State.setPod_same (mask_sub hm rfl)
        | apply State.osBit_same (mask_sub hm rfl) | apply State.putBalance_same (mask_sub hm rfl)
        | refine Same.ofE ‹_ = Except.ok _› ?_
    | (with_reducible intro s1 h1; dsimp only)
    | with_reducible intro s1 h1)

theorem execBalanceWrite_same {m : Nat} {r s : State} (hm : m &&& 3186892718 = 0) (h : Same m r s) (t : Nat)
    (c : Nat) (uj : Int) :
    SameO m r (execBalanceWrite t c uj s) := by
  unfold execBalanceWrite
  repeat' (first
    | with_reducible
        first
        | assumption | apply SameE.ok | apply SameE.error | apply SameO.next
        | apply State.hostWrite_same (mask_sub hm rfl) | apply State.at_same (mask_sub hm rfl)
        | apply balanceWrite_same (mask_sub hm rfl) | refine Same.ofE ‹_ = Except.ok _› ?_
    | (with_reducible intro s1 h1; dsimp only)
    | with_reducible intro s1 h1)

theorem managedOperation_same {m : Nat} {r s : State} (hm : m &&& 3186892714 = 0) (h : Same m r s) (v : Nat) :
    SameE m r (managedOperation v s) := by
  unfold managedOperation
  repeat' (first
    | with_reducible
        first
        | assumption | apply SameE.ok | apply SameE.error | apply require_same (mask_sub hm rfl)
        | apply State.rechoose_same (mask_sub hm rfl) | apply State.osBit_same (mask_sub hm rfl)
        | apply State.os_same (mask_sub hm rfl) | refine Same.ofE ‹_ = Except.ok _› ?_
    | (with_reducible intro s1 h1; dsimp only)
    | with_reducible intro s1 h1)

theorem execManagedOperation_same {m : Nat} {r s : State} (hm : m &&& 3186892714 = 0) (h : Same m r s) (t : Nat) (c : Nat) :
    SameO m r (execManagedOperation t c s) := by
  unfold execManagedOperation
  repeat' (first
    | with_reducible
        first
        | assumption | apply SameE.ok | apply SameE.error | apply SameO.next
        | apply State.hostWrite_same (mask_sub hm rfl) | apply State.at_same (mask_sub hm rfl)
        | apply managedOperation_same (mask_sub hm rfl) | refine Same.ofE ‹_ = Except.ok _› ?_
    | (with_reducible intro s1 h1; dsimp only)
    | with_reducible intro s1 h1)

theorem holdWarm_same {m : Nat} {r s : State} (hm : m &&& 3186892714 = 0) (h : Same m r s) (v : Nat) :
    SameE m r (holdWarm v s) := by
  unfold holdWarm
  repeat' (first
    | with_reducible
        first
        | assumption | apply Same.ite | apply SameE.ite | apply SameE.ok | apply SameE.error
        | apply State.os_same (mask_sub hm rfl) | apply State.rechoose_same (mask_sub hm rfl)
        | apply State.warmUp_same (mask_sub hm rfl) | apply State.photonicOff_same (mask_sub hm rfl)
        | refine Same.ofE ‹_ = Except.ok _› ?_
    | (extract_lets +onlyGivenNames x
       first
       | (refine Same.cut (m := m) (r := r) (x := x) ?_ ?_ <;> first | (clear_value x; intro hx) | subst x)
       | subst x)
    | split
    | dsimp only
    | (with_reducible intro s1 h1; dsimp only)
    | with_reducible intro s1 h1)

theorem execHoldWarmOn_same {m : Nat} {r s : State} (hm : m &&& 3186892714 = 0) (h : Same m r s) (t : Nat) (c : Nat) :
    SameO m r (execHoldWarmOn t c s) := by
  unfold execHoldWarmOn
  repeat' (first
    | with_reducible
        first
        | assumption | apply SameE.ok | apply SameE.error | apply SameO.next
        | apply State.hostWrite_same (mask_sub hm rfl) | apply State.at_same (mask_sub hm rfl)
        | apply holdWarm_same (mask_sub hm rfl) | refine Same.ofE ‹_ = Except.ok _› ?_
    | (with_reducible intro s1 h1; dsimp only)
    | with_reducible intro s1 h1)

theorem execHoldWarmOff_same {m : Nat} {r s : State} (hm : m &&& 3186892714 = 0) (h : Same m r s) (t : Nat) (c : Nat) :
    SameO m r (execHoldWarmOff t c s) := by
  unfold execHoldWarmOff
  repeat' (first
    | with_reducible
        first
        | assumption | apply SameE.ok | apply SameE.error | apply SameO.next
        | apply State.hostWrite_same (mask_sub hm rfl) | apply State.at_same (mask_sub hm rfl)
        | apply holdWarm_same (mask_sub hm rfl) | refine Same.ofE ‹_ = Except.ok _› ?_
    | (with_reducible intro s1 h1; dsimp only)
    | with_reducible intro s1 h1)

theorem execRungChoice_same {m : Nat} {r s : State} (hm : m &&& 3186892714 = 0) (h : Same m r s) (t : Nat) :
    SameO m r (execRungChoice t s) := by
  unfold execRungChoice
  repeat' (first
    | with_reducible
        first
        | assumption | apply SameO.next | apply State.rechoose_same (mask_sub hm rfl)
        | apply State.at_same (mask_sub hm rfl))

theorem execEnergyRefine_same {m : Nat} {r s : State} (hm : m &&& 536870922 = 0) (h : Same m r s) (t : Nat) (mean : Nat) :
    SameO m r (execEnergyRefine t mean s) := by
  unfold execEnergyRefine
  repeat' (first
    | with_reducible
        first
        | assumption | apply Same.ite | apply SameO.ite | apply SameO.next | apply State.at_same (mask_sub hm rfl)
        | apply State.setPod_same (mask_sub hm rfl) | apply State.os_same (mask_sub hm rfl) | apply Same.ite_snd
        | refine Same.snd ‹_ = (_, _)› ?_
    | (extract_lets +onlyGivenNames x
       first
       | (refine Same.cut (m := m) (r := r) (x := x) ?_ ?_ <;> first | (clear_value x; intro hx) | subst x)
       | subst x)
    | split
    | dsimp only)

theorem execOnTimeEnd_same {m : Nat} {r s : State} (hm : m &&& 502537130 = 0) (h : Same m r s) (t : Nat) :
    SameO m r (execOnTimeEnd t s) := by
  unfold execOnTimeEnd
  repeat' (first
    | with_reducible
        first
        | assumption | apply Same.ite | apply SameO.ite | apply SameO.next | apply State.at_same (mask_sub hm rfl)
        | apply State.moveDown_same (mask_sub hm rfl) | apply State.unintend_same (mask_sub hm rfl)
    | (extract_lets +onlyGivenNames x
       first
       | (refine Same.cut (m := m) (r := r) (x := x) ?_ ?_ <;> first | (clear_value x; intro hx) | subst x)
       | subst x)
    | split
    | dsimp only)

end Sys2Proof.Machine
end

