-- ==== Sys2Proof/Laws/SameManage.lean ====
section
/-! SUPPORT. Which parts each function of the model leaves as they were:
downloads, received frames, injection, management and update. -/

namespace Sys2Proof.Machine

open Sys2Proof

set_option linter.unusedSimpArgs false
set_option linter.unusedVariables false

/-! ## Download -/

theorem State.setUp_same {m : Nat} {r s : State} (hm : m &&& 1073741824 = 0) (h : Same m r s) (f : Update → Update) :
    Same m r (State.setUp s f) := by
  unfold State.setUp
  repeat' (first
    | with_reducible first | assumption
    | (simp only [Same.lit]; with_reducible refine SameLit.of hm ?_ ?_)
    | (refine fun (p : Part) (hp : Nat.testBit _ (Part.ix p) = false) => ?_; cases p <;> first | exact absurd hp (by decide) | (simp only [Part.same, and_self]; done))
    | dsimp only)

theorem State.programImage_same {m : Nat} {r s : State} (hm : m &&& 1073741828 = 0) (h : Same m r s) (off : Nat)
    (data : List Byte) :
    Same m r (State.programImage s off data) := by
  unfold State.programImage
  repeat' (first
    | with_reducible
        first
        | assumption | apply Same.ite | apply State.draw_same (mask_sub hm rfl)
        | apply State.setArea_same (mask_sub hm rfl) | apply State.setUp_same (mask_sub hm rfl) | apply Same.ite_snd
        | refine Same.foldl (fun _ _ _ => ?_) _ ?_ | refine Same.snd ‹_ = (_, _)› ?_
    | (extract_lets +onlyGivenNames x
       first
       | (refine Same.cut (m := m) (r := r) (x := x) ?_ ?_ <;> first | (clear_value x; intro hx) | subst x)
       | subst x)
    | split
    | dsimp only
    | (with_reducible intro s1 h1; dsimp only)
    | with_reducible intro s1 h1)

theorem State.downloadFrame_same {m : Nat} {r s : State} (hm : m &&& 1086324740 = 0) (h : Same m r s) (target : Nat)
    (seq : Nat) (off : Nat) (data : List Byte) :
    Same m r (State.downloadFrame s target seq off data) := by
  unfold State.downloadFrame
  repeat' (first
    | with_reducible
        first
        | assumption | apply Same.ite | apply State.rejectDownload_same (mask_sub hm rfl)
        | apply State.oweControl_same (mask_sub hm rfl) | apply State.dramWrite_same (mask_sub hm rfl)
        | apply State.programImage_same (mask_sub hm rfl)
    | (simp only [Same.lit]; with_reducible refine SameLit.of hm ?_ ?_)
    | (refine fun (p : Part) (hp : Nat.testBit _ (Part.ix p) = false) => ?_; cases p <;> first | exact absurd hp (by decide) | (simp only [Part.same, and_self]; done))
    | (extract_lets +onlyGivenNames x
       first
       | (refine Same.cut (m := m) (r := r) (x := x) ?_ ?_ <;> first | (clear_value x; intro hx) | subst x)
       | subst x)
    | split
    | dsimp only)

theorem downloadOpen_same {m : Nat} {r s : State} (hm : m &&& 1073741848 = 0) (h : Same m r s) :
    SameE m r (downloadOpen s) := by
  unfold downloadOpen
  repeat' (first
    | with_reducible
        first
        | assumption | apply SameE.ok | apply SameE.error | apply require_same (mask_sub hm rfl)
        | apply State.setUp_same (mask_sub hm rfl) | apply State.ds_same (mask_sub hm rfl)
        | apply State.os_same (mask_sub hm rfl) | refine Same.ofE ‹_ = Except.ok _› ?_
    | (extract_lets +onlyGivenNames x
       first
       | (refine Same.cut (m := m) (r := r) (x := x) ?_ ?_ <;> first | (clear_value x; intro hx) | subst x)
       | subst x)
    | split
    | dsimp only
    | (with_reducible intro s1 h1; dsimp only)
    | with_reducible intro s1 h1)

theorem execDownloadOpen_same {m : Nat} {r s : State} (hm : m &&& 1073742138 = 0) (h : Same m r s) (t : Nat) (c : Nat) :
    SameO m r (execDownloadOpen t c s) := by
  unfold execDownloadOpen
  repeat' (first
    | with_reducible
        first
        | assumption | apply SameE.ok | apply SameE.error | apply SameO.next
        | apply State.hostWrite_same (mask_sub hm rfl) | apply State.at_same (mask_sub hm rfl)
        | apply downloadOpen_same (mask_sub hm rfl) | refine Same.ofE ‹_ = Except.ok _› ?_
    | (with_reducible intro s1 h1; dsimp only)
    | with_reducible intro s1 h1)

theorem downloadClose_same {m : Nat} {r s : State} (hm : m &&& 8 = 0) (h : Same m r s) :
    SameE m r (downloadClose s) := by
  unfold downloadClose
  repeat' (first
    | with_reducible
        first
        | assumption | apply SameE.ok | apply SameE.error | apply require_same (mask_sub hm rfl)
        | apply State.os_same (mask_sub hm rfl) | refine Same.ofE ‹_ = Except.ok _› ?_
    | (with_reducible intro s1 h1; dsimp only)
    | with_reducible intro s1 h1)

theorem execDownloadClose_same {m : Nat} {r s : State} (hm : m &&& 298 = 0) (h : Same m r s) (t : Nat) (c : Nat) :
    SameO m r (execDownloadClose t c s) := by
  unfold execDownloadClose
  repeat' (first
    | with_reducible
        first
        | assumption | apply SameE.ok | apply SameE.error | apply SameO.next
        | apply State.hostWrite_same (mask_sub hm rfl) | apply State.at_same (mask_sub hm rfl)
        | apply downloadClose_same (mask_sub hm rfl) | refine Same.ofE ‹_ = Except.ok _› ?_
    | (with_reducible intro s1 h1; dsimp only)
    | with_reducible intro s1 h1)

theorem downloadAbandon_same {m : Nat} {r s : State} (hm : m &&& 1073741832 = 0) (h : Same m r s) :
    SameE m r (downloadAbandon s) := by
  unfold downloadAbandon
  repeat' (first
    | with_reducible
        first
        | assumption | apply SameE.ok | apply SameE.error | apply State.setUp_same (mask_sub hm rfl)
        | apply State.os_same (mask_sub hm rfl) | refine Same.ofE ‹_ = Except.ok _› ?_
    | (with_reducible intro s1 h1; dsimp only)
    | with_reducible intro s1 h1)

theorem execDownloadAbandon_same {m : Nat} {r s : State} (hm : m &&& 1073742122 = 0) (h : Same m r s) (t : Nat) (c : Nat) :
    SameO m r (execDownloadAbandon t c s) := by
  unfold execDownloadAbandon
  repeat' (first
    | with_reducible
        first
        | assumption | apply SameE.ok | apply SameE.error | apply SameO.next
        | apply State.hostWrite_same (mask_sub hm rfl) | apply State.at_same (mask_sub hm rfl)
        | apply downloadAbandon_same (mask_sub hm rfl) | refine Same.ofE ‹_ = Except.ok _› ?_
    | (with_reducible intro s1 h1; dsimp only)
    | with_reducible intro s1 h1)

theorem canFdData_same {m : Nat} {r s : State} (hm : m &&& 1073741828 = 0) (h : Same m r s) (data : List Byte) :
    SameE m r (canFdData data s) := by
  unfold canFdData
  repeat' (first
    | with_reducible
        first
        | assumption | apply SameE.ok | apply SameE.error | apply require_same (mask_sub hm rfl)
        | apply State.programImage_same (mask_sub hm rfl) | refine Same.ofE ‹_ = Except.ok _› ?_
    | (with_reducible intro s1 h1; dsimp only)
    | with_reducible intro s1 h1)

theorem execCanFdData_same {m : Nat} {r s : State} (hm : m &&& 1073742126 = 0) (h : Same m r s) (t : Nat) (c : Nat)
    (data : List Byte) :
    SameO m r (execCanFdData t c data s) := by
  unfold execCanFdData
  repeat' (first
    | with_reducible
        first
        | assumption | apply SameE.ok | apply SameE.error | apply SameO.next
        | apply State.hostWrite_same (mask_sub hm rfl) | apply State.at_same (mask_sub hm rfl)
        | apply canFdData_same (mask_sub hm rfl) | refine Same.ofE ‹_ = Except.ok _› ?_
    | (with_reducible intro s1 h1; dsimp only)
    | with_reducible intro s1 h1)

theorem execDownloadVerifyEnd_same {m : Nat} {r s : State} (hm : m &&& 1073741850 = 0) (h : Same m r s) (t : Nat) :
    SameO m r (execDownloadVerifyEnd t s) := by
  unfold execDownloadVerifyEnd
  repeat' (first
    | with_reducible
        first
        | assumption | apply Same.ite | apply SameO.ite | apply SameO.next | apply State.at_same (mask_sub hm rfl)
        | apply State.ds_same (mask_sub hm rfl) | apply State.os_same (mask_sub hm rfl)
        | apply State.setUp_same (mask_sub hm rfl) | refine Same.foldl (fun _ _ _ => ?_) _ ?_
    | (extract_lets +onlyGivenNames x
       first
       | (refine Same.cut (m := m) (r := r) (x := x) ?_ ?_ <;> first | (clear_value x; intro hx) | subst x)
       | subst x)
    | split
    | dsimp only
    | (with_reducible intro s1 h1; dsimp only)
    | with_reducible intro s1 h1)

/-! ## RxFrames -/

theorem State.rxProcess_same {m : Nat} {r s : State} (hm : m &&& 1086325260 = 0) (h : Same m r s) (m' : Nat) (f : RxFrame) :
    Same m r (State.rxProcess s m' f) := by
  unfold State.rxProcess
  repeat' (first
    | with_reducible
        first
        | assumption | apply Same.ite | apply State.creditFrame_same (mask_sub hm rfl)
        | apply State.received_same (mask_sub hm rfl) | apply State.replayFrame_same (mask_sub hm rfl)
        | apply State.hostStatusFrame_same (mask_sub hm rfl) | apply State.downloadFrame_same (mask_sub hm rfl)
        | apply State.rejectDownload_same (mask_sub hm rfl) | apply State.bump_same (mask_sub hm rfl)
    | split
    | dsimp only)

theorem State.releaseRx_same {m : Nat} {r s : State} (hm : m &&& 3233808908 = 0) (h : Same m r s) (due : Nat → Bool) :
    Same m r (State.releaseRx s due) := by
  unfold State.releaseRx
  repeat' (first
    | with_reducible
        first
        | assumption | apply State.rxProcess_same (mask_sub hm rfl) | refine Same.foldl (fun _ _ _ => ?_) _ ?_
    | (simp only [Same.lit]; with_reducible refine SameLit.of hm ?_ ?_)
    | (refine fun (p : Part) (hp : Nat.testBit _ (Part.ix p) = false) => ?_; cases p <;> first | exact absurd hp (by decide) | (simp only [Part.same, and_self]; done))
    | (extract_lets +onlyGivenNames x
       first
       | (refine Same.cut (m := m) (r := r) (x := x) ?_ ?_ <;> first | (clear_value x; intro hx) | subst x)
       | subst x)
    | split
    | dsimp only
    | (with_reducible intro s1 h1; dsimp only)
    | with_reducible intro s1 h1)

theorem State.rxFrame_same {m : Nat} {r s : State} (hm : m &&& 3233808940 = 0) (h : Same m r s) (m' : Nat) (f : RxFrame) :
    Same m r (State.rxFrame s m' f) := by
  unfold State.rxFrame
  repeat' (first
    | with_reducible
        first
        | assumption | apply Same.ite | apply State.releaseRx_same (mask_sub hm rfl)
        | apply State.rxProcess_same (mask_sub hm rfl) | apply State.candidate_same (mask_sub hm rfl)
        | apply Same.ite_snd | refine Same.snd ‹_ = (_, _)› ?_
    | (simp only [Same.lit]; with_reducible refine SameLit.of hm ?_ ?_)
    | (refine fun (p : Part) (hp : Nat.testBit _ (Part.ix p) = false) => ?_; cases p <;> first | exact absurd hp (by decide) | (simp only [Part.same, and_self]; done))
    | (extract_lets +onlyGivenNames x
       first
       | (refine Same.cut (m := m) (r := r) (x := x) ?_ ?_ <;> first | (clear_value x; intro hx) | subst x)
       | subst x)
    | split
    | dsimp only)

theorem execCredit_same {m : Nat} {r s : State} (hm : m &&& 3233808942 = 0) (h : Same m r s) (t : Nat) (lane : Nat)
    (words : List Nat) :
    SameO m r (execCredit t lane words s) := by
  unfold execCredit
  repeat' (first
    | with_reducible
        first
        | assumption | apply SameO.next | apply State.rxFrame_same (mask_sub hm rfl)
        | apply State.at_same (mask_sub hm rfl))

theorem execReplayRequest_same {m : Nat} {r s : State} (hm : m &&& 3233808942 = 0) (h : Same m r s) (t : Nat)
    (lane : Nat) (entries : List (Nat × Nat × Nat)) :
    SameO m r (execReplayRequest t lane entries s) := by
  unfold execReplayRequest
  repeat' (first
    | with_reducible
        first
        | assumption | apply SameO.next | apply State.rxFrame_same (mask_sub hm rfl)
        | apply State.at_same (mask_sub hm rfl))

theorem execHostStatus_same {m : Nat} {r s : State} (hm : m &&& 3233808942 = 0) (h : Same m r s) (t : Nat)
    (lane : Nat) (mask : Nat) :
    SameO m r (execHostStatus t lane mask s) := by
  unfold execHostStatus
  repeat' (first
    | with_reducible
        first
        | assumption | apply SameO.next | apply State.rxFrame_same (mask_sub hm rfl)
        | apply State.at_same (mask_sub hm rfl))

theorem execDownload_same {m : Nat} {r s : State} (hm : m &&& 3233808942 = 0) (h : Same m r s) (t : Nat)
    (lane : Nat) (target : Nat) (seq : Nat) (offset : Nat) (data : List Byte) :
    SameO m r (execDownload t lane target seq offset data s) := by
  unfold execDownload
  repeat' (first
    | with_reducible
        first
        | assumption | apply SameO.next | apply State.rxFrame_same (mask_sub hm rfl)
        | apply State.at_same (mask_sub hm rfl))

theorem execHostFrameDrop_same {m : Nat} {r s : State} (hm : m &&& 3233808942 = 0) (h : Same m r s) (t : Nat)
    (lane : Dropped) :
    SameO m r (execHostFrameDrop t lane s) := by
  unfold execHostFrameDrop
  repeat' (first
    | with_reducible
        first
        | assumption | apply SameO.next | apply State.rxFrame_same (mask_sub hm rfl)
        | apply State.at_same (mask_sub hm rfl))

/-! ## Inject -/

theorem State.injectLock_same {m : Nat} {r s : State} (hm : m &&& 3233808940 = 0) (h : Same m r s) :
    Same m r (State.injectLock s) := by
  unfold State.injectLock
  repeat' (first
    | with_reducible
        first
        | assumption | apply Same.ite | apply State.injectTell_same (mask_sub hm rfl)
        | apply State.releaseRx_same (mask_sub hm rfl) | apply State.releaseHeld_same (mask_sub hm rfl)
        | apply State.os_same (mask_sub hm rfl)
    | (extract_lets +onlyGivenNames x
       first
       | (refine Same.cut (m := m) (r := r) (x := x) ?_ ?_ <;> first | (clear_value x; intro hx) | subst x)
       | subst x)
    | split
    | dsimp only)

theorem unlock_same {m : Nat} {r s : State} (hm : m &&& 8 = 0) (h : Same m r s) (v : Nat) : SameE m r (unlock v s) := by
  unfold unlock
  repeat' (first
    | with_reducible
        first
        | assumption | apply Same.ite | apply SameE.ite | apply SameE.ok | apply SameE.error
        | apply require_same (mask_sub hm rfl) | apply State.os_same (mask_sub hm rfl)
        | refine Same.ofE ‹_ = Except.ok _› ?_
    | (with_reducible intro s1 h1; dsimp only)
    | with_reducible intro s1 h1)

theorem execUnlock_same {m : Nat} {r s : State} (hm : m &&& 298 = 0) (h : Same m r s) (t : Nat) (c : Nat) :
    SameO m r (execUnlock t c s) := by
  unfold execUnlock
  repeat' (first
    | with_reducible
        first
        | assumption | apply SameE.ok | apply SameE.error | apply SameO.next
        | apply State.hostWrite_same (mask_sub hm rfl) | apply State.at_same (mask_sub hm rfl)
        | apply unlock_same (mask_sub hm rfl) | refine Same.ofE ‹_ = Except.ok _› ?_
    | (with_reducible intro s1 h1; dsimp only)
    | with_reducible intro s1 h1)

theorem injectionStart_same {m : Nat} {r s : State} (hm : m &&& 2147483688 = 0) (h : Same m r s) :
    SameE m r (injectionStart s) := by
  unfold injectionStart
  repeat' (first
    | with_reducible
        first
        | assumption | apply SameE.ok | apply SameE.error | apply require_same (mask_sub hm rfl)
        | apply State.injectTell_same (mask_sub hm rfl) | apply State.os_same (mask_sub hm rfl)
        | refine Same.ofE ‹_ = Except.ok _› ?_
    | (simp only [Same.lit]; with_reducible refine SameLit.of hm ?_ ?_)
    | (refine fun (p : Part) (hp : Nat.testBit _ (Part.ix p) = false) => ?_; cases p <;> first | exact absurd hp (by decide) | (simp only [Part.same, and_self]; done))
    | (extract_lets +onlyGivenNames x
       first
       | (refine Same.cut (m := m) (r := r) (x := x) ?_ ?_ <;> first | (clear_value x; intro hx) | subst x)
       | subst x)
    | split
    | dsimp only
    | (with_reducible intro s1 h1; dsimp only)
    | with_reducible intro s1 h1)

theorem execInjectionStart_same {m : Nat} {r s : State} (hm : m &&& 2147483946 = 0) (h : Same m r s) (t : Nat) (c : Nat) :
    SameO m r (execInjectionStart t c s) := by
  unfold execInjectionStart
  repeat' (first
    | with_reducible
        first
        | assumption | apply SameE.ok | apply SameE.error | apply SameO.next
        | apply State.hostWrite_same (mask_sub hm rfl) | apply State.at_same (mask_sub hm rfl)
        | apply injectionStart_same (mask_sub hm rfl) | refine Same.ofE ‹_ = Except.ok _› ?_
    | (with_reducible intro s1 h1; dsimp only)
    | with_reducible intro s1 h1)

theorem injectionStop_same {m : Nat} {r s : State} (hm : m &&& 40 = 0) (h : Same m r s) :
    SameE m r (injectionStop s) := by
  unfold injectionStop
  repeat' (first
    | with_reducible
        first
        | assumption | apply Same.ite | apply SameE.ite | apply SameE.ok | apply SameE.error
        | apply require_same (mask_sub hm rfl) | apply State.injectTell_same (mask_sub hm rfl)
        | apply State.os_same (mask_sub hm rfl) | refine Same.ofE ‹_ = Except.ok _› ?_
    | (with_reducible intro s1 h1; dsimp only)
    | with_reducible intro s1 h1)

theorem execInjectionStop_same {m : Nat} {r s : State} (hm : m &&& 298 = 0) (h : Same m r s) (t : Nat) (c : Nat) :
    SameO m r (execInjectionStop t c s) := by
  unfold execInjectionStop
  repeat' (first
    | with_reducible
        first
        | assumption | apply SameE.ok | apply SameE.error | apply SameO.next
        | apply State.hostWrite_same (mask_sub hm rfl) | apply State.at_same (mask_sub hm rfl)
        | apply injectionStop_same (mask_sub hm rfl) | refine Same.ofE ‹_ = Except.ok _› ?_
    | (with_reducible intro s1 h1; dsimp only)
    | with_reducible intro s1 h1)

theorem execReorderHoldTimeout_same {m : Nat} {r s : State} (hm : m &&& 3233808942 = 0) (h : Same m r s) (t : Nat) :
    SameO m r (execReorderHoldTimeout t s) := by
  unfold execReorderHoldTimeout
  repeat' (first
    | with_reducible
        first
        | assumption | apply SameO.next | apply State.at_same (mask_sub hm rfl)
        | apply State.releaseRx_same (mask_sub hm rfl) | apply State.releaseDue_same (mask_sub hm rfl)
    | (extract_lets +onlyGivenNames x
       first
       | (refine Same.cut (m := m) (r := r) (x := x) ?_ ?_ <;> first | (clear_value x; intro hx) | subst x)
       | subst x)
    | split
    | dsimp only)

/-! ## Manage -/

theorem State.putSettings_same {m : Nat} {r s : State} (hm : m &&& 130 = 0) (h : Same m r s) (area : Nat) (l : List
    (Nat × Nat)) :
    Same m r (State.putSettings s area l) := by
  unfold State.putSettings
  repeat' (first
    | with_reducible first | assumption | apply Same.ite | apply State.setPw_same (mask_sub hm rfl))

theorem State.storeSetting_same {m : Nat} {r s : State} (hm : m &&& 130 = 0) (h : Same m r s) (k : Nat) (v : Nat) :
    Same m r (State.storeSetting s k v) := by
  unfold State.storeSetting
  repeat' (first
    | with_reducible first | assumption | apply State.putSettings_same (mask_sub hm rfl))

theorem State.bootKind_same {m : Nat} {r s : State} (hm : m &&& 1073741962 = 0) (h : Same m r s) (data : Bool) :
    Same m r (State.bootKind s data).2 := by
  unfold State.bootKind
  repeat' (first
    | with_reducible
        first
        | assumption | apply Same.ite | apply State.writeBoot_same (mask_sub hm rfl)
        | apply State.putSettings_same (mask_sub hm rfl) | apply State.os_same (mask_sub hm rfl) | apply Same.ite_snd
        | refine Same.snd ‹_ = (_, _)› ?_
    | (extract_lets +onlyGivenNames x
       first
       | (refine Same.cut (m := m) (r := r) (x := x) ?_ ?_ <;> first | (clear_value x; intro hx) | subst x)
       | subst x)
    | split
    | dsimp only)

theorem State.bootWalnut_same {m : Nat} {r s : State} (hm : m &&& 1073741962 = 0) (h : Same m r s) :
    Same m r (State.bootWalnut s) := by
  unfold State.bootWalnut
  repeat' (first
    | with_reducible
        first
        | assumption | apply Same.ite | apply State.bootKind_same (mask_sub hm rfl)
        | apply State.os_same (mask_sub hm rfl) | apply Same.ite_snd | refine Same.snd ‹_ = (_, _)› ?_
    | (extract_lets +onlyGivenNames x
       first
       | (refine Same.cut (m := m) (r := r) (x := x) ?_ ?_ <;> first | (clear_value x; intro hx) | subst x)
       | subst x)
    | split
    | dsimp only)

theorem State.loadLibrary_same {m : Nat} {r s : State} (hm : m &&& 1073741962 = 0) (h : Same m r s) :
    Same m r (State.loadLibrary s) := by
  unfold State.loadLibrary
  repeat' (first
    | with_reducible
        first
        | assumption | apply State.bootKind_same (mask_sub hm rfl) | apply State.setPw_same (mask_sub hm rfl)
        | refine Same.snd ‹_ = (_, _)› ?_
    | split
    | dsimp only)

theorem State.endSession_same {m : Nat} {r s : State} (hm : m &&& 1288 = 0) (h : Same m r s) :
    Same m r (State.endSession s) := by
  unfold State.endSession
  repeat' (first
    | with_reducible first | assumption | apply State.os_same (mask_sub hm rfl)
    | (simp only [Same.lit]; with_reducible refine SameLit.of hm ?_ ?_)
    | (refine fun (p : Part) (hp : Nat.testBit _ (Part.ix p) = false) => ?_; cases p <;> first | exact absurd hp (by decide) | (simp only [Part.same, and_self]; done))
    | (extract_lets +onlyGivenNames x
       first
       | (refine Same.cut (m := m) (r := r) (x := x) ?_ ?_ <;> first | (clear_value x; intro hx) | subst x)
       | subst x)
    | split
    | dsimp only)

theorem State.failLong_same {m : Nat} {r s : State} (hm : m &&& 136583436 = 0) (h : Same m r s) :
    Same m r (State.failLong s) := by
  unfold State.failLong
  repeat' (first
    | with_reducible
        first
        | assumption | apply Same.ite | apply State.draw_same (mask_sub hm rfl)
        | apply State.os_same (mask_sub hm rfl) | apply State.setPip_same (mask_sub hm rfl)
        | apply State.endBiasSearch_same (mask_sub hm rfl) | apply State.showPip_same (mask_sub hm rfl)
        | apply State.endLong_same (mask_sub hm rfl) | apply Same.ite_snd | refine Same.snd ‹_ = (_, _)› ?_
    | (extract_lets +onlyGivenNames x
       first
       | (refine Same.cut (m := m) (r := r) (x := x) ?_ ?_ <;> first | (clear_value x; intro hx) | subst x)
       | subst x)
    | split
    | dsimp only)

theorem State.restartWalnut_same {m : Nat} {r s : State} (hm : m &&& 3370393388 = 0) (h : Same m r s) (cause : Nat) :
    Same m r (State.restartWalnut s cause) := by
  unfold State.restartWalnut
  repeat' (first
    | with_reducible
        first
        | assumption | apply Same.ite | apply State.endSession_same (mask_sub hm rfl)
        | apply State.failLong_same (mask_sub hm rfl) | apply State.failPrepare_same (mask_sub hm rfl)
        | apply State.os_same (mask_sub hm rfl) | apply State.injectLock_same (mask_sub hm rfl)
    | (simp only [Same.lit]; with_reducible refine SameLit.of hm ?_ ?_)
    | (refine fun (p : Part) (hp : Nat.testBit _ (Part.ix p) = false) => ?_; cases p <;> first | exact absurd hp (by decide) | (simp only [Part.same, and_self]; done))
    | (extract_lets +onlyGivenNames x
       first
       | (refine Same.cut (m := m) (r := r) (x := x) ?_ ?_ <;> first | (clear_value x; intro hx) | subst x)
       | subst x)
    | split
    | dsimp only)

theorem execWatchdog_same {m : Nat} {r s : State} (hm : m &&& 3370393390 = 0) (h : Same m r s) (t : Nat) :
    SameO m r (execWatchdog t s) := by
  unfold execWatchdog
  repeat' (first
    | with_reducible
        first
        | assumption | apply SameO.next | apply State.restartWalnut_same (mask_sub hm rfl)
        | apply State.at_same (mask_sub hm rfl))

theorem execRestartWalnut_same {m : Nat} {r s : State} (hm : m &&& 3370393390 = 0) (h : Same m r s) (t : Nat) (c : Nat) :
    SameO m r (execRestartWalnut t c s) := by
  unfold execRestartWalnut
  repeat' (first
    | with_reducible
        first
        | assumption | apply SameE.ok | apply SameE.error | apply SameO.next
        | apply State.hostWrite_same (mask_sub hm rfl) | apply State.at_same (mask_sub hm rfl)
        | apply State.restartWalnut_same (mask_sub hm rfl) | refine Same.ofE ‹_ = Except.ok _› ?_
    | (with_reducible intro s1 h1; dsimp only)
    | with_reducible intro s1 h1)

theorem execWalnutException_same {m : Nat} {r s : State} (hm : m &&& 3370393390 = 0) (h : Same m r s) (t : Nat) :
    SameO m r (execWalnutException t s) := by
  unfold execWalnutException
  repeat' (first
    | with_reducible
        first
        | assumption | apply SameO.next | apply State.restartWalnut_same (mask_sub hm rfl)
        | apply State.at_same (mask_sub hm rfl))

theorem State.bootNode_same {m : Nat} {r s : State} (hm : m &&& 264 = 0) (h : Same m r s) :
    Same m r (State.bootNode s) := by
  unfold State.bootNode
  repeat' (first
    | with_reducible first | assumption | apply State.os_same (mask_sub hm rfl)
    | (simp only [Same.lit]; with_reducible refine SameLit.of hm ?_ ?_)
    | (refine fun (p : Part) (hp : Nat.testBit _ (Part.ix p) = false) => ?_; cases p <;> first | exact absurd hp (by decide) | (simp only [Part.same, and_self]; done))
    | (extract_lets +onlyGivenNames x
       first
       | (refine Same.cut (m := m) (r := r) (x := x) ?_ ?_ <;> first | (clear_value x; intro hx) | subst x)
       | subst x)
    | split
    | dsimp only)

theorem State.walnutBack_same {m : Nat} {r s : State} (hm : m &&& 4260634542 = 0) (h : Same m r s) :
    Same m r (State.walnutBack s) := by
  unfold State.walnutBack
  repeat' (first
    | with_reducible
        first
        | assumption | apply Same.ite | apply State.bootNode_same (mask_sub hm rfl)
        | apply State.bootWalnut_same (mask_sub hm rfl) | apply State.post_same (mask_sub hm rfl)
        | apply State.emcy_same (mask_sub hm rfl) | apply State.bump_same (mask_sub hm rfl)
        | apply State.log_same (mask_sub hm rfl) | apply State.moveDown_same (mask_sub hm rfl)
        | apply State.lanesStart_same (mask_sub hm rfl) | apply State.podJudge_same (mask_sub hm rfl)
    | (simp only [Same.lit]; with_reducible refine SameLit.of hm ?_ ?_)
    | (refine fun (p : Part) (hp : Nat.testBit _ (Part.ix p) = false) => ?_; cases p <;> first | exact absurd hp (by decide) | (simp only [Part.same, and_self]; done))
    | (extract_lets +onlyGivenNames x
       first
       | (refine Same.cut (m := m) (r := r) (x := x) ?_ ?_ <;> first | (clear_value x; intro hx) | subst x)
       | subst x)
    | split
    | dsimp only)

theorem execWalnutRestartDone_same {m : Nat} {r s : State} (hm : m &&& 4260634542 = 0) (h : Same m r s) (t : Nat) :
    SameO m r (execWalnutRestartDone t s) := by
  unfold execWalnutRestartDone
  repeat' (first
    | with_reducible
        first
        | assumption | apply Same.ite | apply SameO.ite | apply SameO.next | apply State.at_same (mask_sub hm rfl)
        | apply State.walnutBack_same (mask_sub hm rfl)
    | (extract_lets +onlyGivenNames x
       first
       | (refine Same.cut (m := m) (r := r) (x := x) ?_ ?_ <;> first | (clear_value x; intro hx) | subst x)
       | subst x)
    | split
    | dsimp only)

theorem State.warnTemp_same {m : Nat} {r s : State} (hm : m &&& 776 = 0) (h : Same m r s) (temps : List Int) :
    Same m r (State.warnTemp s temps) := by
  unfold State.warnTemp
  repeat' (first
    | with_reducible
        first
        | assumption | apply Same.ite | apply State.log_same (mask_sub hm rfl)
        | apply State.emcy_same (mask_sub hm rfl) | apply State.osBit_same (mask_sub hm rfl)
    | (extract_lets +onlyGivenNames x
       first
       | (refine Same.cut (m := m) (r := r) (x := x) ?_ ?_ <;> first | (clear_value x; intro hx) | subst x)
       | subst x)
    | split
    | dsimp only)

theorem State.criticalTemp_same {m : Nat} {r s : State} (hm : m &&& 502537130 = 0) (h : Same m r s) (temps : List Int) :
    Same m r (State.criticalTemp s temps) := by
  unfold State.criticalTemp
  repeat' (first
    | with_reducible
        first
        | assumption | apply Same.ite | apply State.setMg_same (mask_sub hm rfl)
        | apply State.osBit_same (mask_sub hm rfl) | apply State.log_same (mask_sub hm rfl)
        | apply State.emcy_same (mask_sub hm rfl) | apply State.moveDown_same (mask_sub hm rfl)
        | apply State.chargeTo_same (mask_sub hm rfl)
    | (extract_lets +onlyGivenNames x
       first
       | (refine Same.cut (m := m) (r := r) (x := x) ?_ ?_ <;> first | (clear_value x; intro hx) | subst x)
       | subst x)
    | split
    | dsimp only)

theorem execTemperatureReading_same {m : Nat} {r s : State} (hm : m &&& 502537130 = 0) (h : Same m r s) (t : Nat)
    (temps : List Int) :
    SameO m r (execTemperatureReading t temps s) := by
  unfold execTemperatureReading
  repeat' (first
    | with_reducible
        first
        | assumption | apply Same.ite | apply SameO.ite | apply SameO.next | apply State.at_same (mask_sub hm rfl)
        | apply State.osI_same (mask_sub hm rfl) | apply State.criticalTemp_same (mask_sub hm rfl)
        | apply State.warnTemp_same (mask_sub hm rfl) | refine Same.foldl (fun _ _ _ => ?_) _ ?_
    | (extract_lets +onlyGivenNames x
       first
       | (refine Same.cut (m := m) (r := r) (x := x) ?_ ?_ <;> first | (clear_value x; intro hx) | subst x)
       | subst x)
    | split
    | dsimp only
    | (with_reducible intro s1 h1; dsimp only)
    | with_reducible intro s1 h1)

theorem execLogEntry_same {m : Nat} {r s : State} (hm : m &&& 2361866 = 0) (h : Same m r s) (t : Nat) :
    SameO m r (execLogEntry t s) := by
  unfold execLogEntry
  repeat' (first
    | with_reducible
        first
        | assumption | apply Same.ite | apply SameO.ite | apply SameO.next | apply State.at_same (mask_sub hm rfl)
        | apply State.setMg_same (mask_sub hm rfl) | apply State.offer_same (mask_sub hm rfl) | apply Same.ite_snd
        | refine Same.snd ‹_ = (_, _)› ?_
    | (extract_lets +onlyGivenNames x
       first
       | (refine Same.cut (m := m) (r := r) (x := x) ?_ ?_ <;> first | (clear_value x; intro hx) | subst x)
       | subst x)
    | split
    | dsimp only)

theorem logSelect_same {m : Nat} {r s : State} (hm : m &&& 24 = 0) (h : Same m r s) (number : Nat) :
    SameE m r (logSelect number s) := by
  unfold logSelect
  repeat' (first
    | with_reducible
        first
        | assumption | apply SameE.ok | apply SameE.error | apply State.ds_same (mask_sub hm rfl)
        | apply State.os_same (mask_sub hm rfl) | refine Same.ofE ‹_ = Except.ok _› ?_
    | split
    | dsimp only
    | (with_reducible intro s1 h1; dsimp only)
    | with_reducible intro s1 h1)

theorem execLogSelect_same {m : Nat} {r s : State} (hm : m &&& 314 = 0) (h : Same m r s) (t : Nat) (c : Nat) (number : Nat) :
    SameO m r (execLogSelect t c number s) := by
  unfold execLogSelect
  repeat' (first
    | with_reducible
        first
        | assumption | apply SameE.ok | apply SameE.error | apply SameO.next
        | apply State.hostWrite_same (mask_sub hm rfl) | apply State.at_same (mask_sub hm rfl)
        | apply logSelect_same (mask_sub hm rfl) | refine Same.ofE ‹_ = Except.ok _› ?_
    | (with_reducible intro s1 h1; dsimp only)
    | with_reducible intro s1 h1)

theorem State.showMonitor_same {m : Nat} {r s : State} (hm : m &&& 8 = 0) (h : Same m r s) (i : Nat) :
    Same m r (State.showMonitor s i) := by
  unfold State.showMonitor
  repeat' (first
    | with_reducible first | assumption | apply State.osI_same (mask_sub hm rfl) | apply State.os_same (mask_sub hm rfl)
    | (extract_lets +onlyGivenNames x
       first
       | (refine Same.cut (m := m) (r := r) (x := x) ?_ ?_ <;> first | (clear_value x; intro hx) | subst x)
       | subst x)
    | split
    | dsimp only)

theorem State.marginAction_same {m : Nat} {r s : State} (hm : m &&& 524 = 0) (h : Same m r s) (i : Nat) (new : Nat) :
    Same m r (State.marginAction s i new) := by
  unfold State.marginAction
  repeat' (first
    | with_reducible
        first
        | assumption | apply State.draw_same (mask_sub hm rfl) | apply State.log_same (mask_sub hm rfl)
        | apply State.os_same (mask_sub hm rfl) | refine Same.snd ‹_ = (_, _)› ?_
    | split
    | dsimp only)

theorem State.acornAct_same {m : Nat} {r s : State} (hm : m &&& 524 = 0) (h : Same m r s) (i : Nat) :
    Same m r (State.acornAct s i) := by
  unfold State.acornAct
  repeat' (first
    | with_reducible
        first
        | assumption | apply Same.ite | apply State.draw_same (mask_sub hm rfl)
        | apply State.setMg_same (mask_sub hm rfl) | apply State.os_same (mask_sub hm rfl)
        | apply State.marginAction_same (mask_sub hm rfl) | apply Same.ite_snd | refine Same.snd ‹_ = (_, _)› ?_
    | (extract_lets +onlyGivenNames x
       first
       | (refine Same.cut (m := m) (r := r) (x := x) ?_ ?_ <;> first | (clear_value x; intro hx) | subst x)
       | subst x)
    | split
    | dsimp only)

theorem execAcornMeasurement_same {m : Nat} {r s : State} (hm : m &&& 526 = 0) (h : Same m r s) (t : Nat)
    (monitor : Nat) (value : Int) :
    SameO m r (execAcornMeasurement t monitor value s) := by
  unfold execAcornMeasurement
  repeat' (first
    | with_reducible
        first
        | assumption | apply Same.ite | apply SameO.ite | apply SameO.next | apply State.at_same (mask_sub hm rfl)
        | apply State.setMg_same (mask_sub hm rfl) | apply State.showMonitor_same (mask_sub hm rfl)
        | apply State.log_same (mask_sub hm rfl) | apply State.acornAct_same (mask_sub hm rfl) | apply Same.ite_snd
        | refine Same.snd ‹_ = (_, _)› ?_
    | (extract_lets +onlyGivenNames x
       first
       | (refine Same.cut (m := m) (r := r) (x := x) ?_ ?_ <;> first | (clear_value x; intro hx) | subst x)
       | subst x)
    | split
    | dsimp only)

theorem State.setAvs_same {m : Nat} {r s : State} (hm : m &&& 556 = 0) (h : Same m r s) (mv : Nat) :
    Same m r (State.setAvs s mv) := by
  unfold State.setAvs
  repeat' (first
    | with_reducible
        first
        | assumption | apply State.setMg_same (mask_sub hm rfl) | apply State.os_same (mask_sub hm rfl)
        | apply State.marginAction_same (mask_sub hm rfl) | apply State.emit_same (mask_sub hm rfl)
    | (extract_lets +onlyGivenNames x
       first
       | (refine Same.cut (m := m) (r := r) (x := x) ?_ ?_ <;> first | (clear_value x; intro hx) | subst x)
       | subst x)
    | split
    | dsimp only)

theorem execAvsStep_same {m : Nat} {r s : State} (hm : m &&& 558 = 0) (h : Same m r s) (t : Nat) (up : Bool) (acked : Bool) :
    SameO m r (execAvsStep t up acked s) := by
  unfold execAvsStep
  repeat' (first
    | with_reducible
        first
        | assumption | apply Same.ite | apply SameO.ite | apply SameO.next | apply State.at_same (mask_sub hm rfl)
        | apply State.setMg_same (mask_sub hm rfl) | apply State.setAvs_same (mask_sub hm rfl)
    | (extract_lets +onlyGivenNames x
       first
       | (refine Same.cut (m := m) (r := r) (x := x) ?_ ?_ <;> first | (clear_value x; intro hx) | subst x)
       | subst x)
    | split
    | dsimp only)

theorem execPmbusRetry_same {m : Nat} {r s : State} (hm : m &&& 558 = 0) (h : Same m r s) (t : Nat) (acked : Bool) :
    SameO m r (execPmbusRetry t acked s) := by
  unfold execPmbusRetry
  repeat' (first
    | with_reducible
        first
        | assumption | apply Same.ite | apply SameO.ite | apply SameO.next | apply State.at_same (mask_sub hm rfl)
        | apply State.setAvs_same (mask_sub hm rfl) | apply State.log_same (mask_sub hm rfl)
        | apply State.setMg_same (mask_sub hm rfl)
    | (extract_lets +onlyGivenNames x
       first
       | (refine Same.cut (m := m) (r := r) (x := x) ?_ ?_ <;> first | (clear_value x; intro hx) | subst x)
       | subst x)
    | split
    | dsimp only)

theorem execPlanDerating_same {m : Nat} {r s : State} (hm : m &&& 1550 = 0) (h : Same m r s) (t : Nat) :
    SameO m r (execPlanDerating t s) := by
  unfold execPlanDerating
  repeat' (first
    | with_reducible
        first
        | assumption | apply Same.ite | apply SameO.ite | apply SameO.next | apply State.at_same (mask_sub hm rfl)
        | apply State.os_same (mask_sub hm rfl) | apply State.setLad_same (mask_sub hm rfl)
        | apply State.marginAction_same (mask_sub hm rfl)
    | (extract_lets +onlyGivenNames x
       first
       | (refine Same.cut (m := m) (r := r) (x := x) ?_ ?_ <;> first | (clear_value x; intro hx) | subst x)
       | subst x)
    | split
    | dsimp only)

theorem ledgerReset_same {m : Nat} {r s : State} (hm : m &&& 520 = 0) (h : Same m r s) : SameE m r (ledgerReset s) := by
  unfold ledgerReset
  repeat' (first
    | with_reducible
        first
        | assumption | apply SameE.ok | apply SameE.error | apply State.setMg_same (mask_sub hm rfl)
        | apply State.settleIdle_same (mask_sub hm rfl) | refine Same.ofE ‹_ = Except.ok _› ?_
    | (with_reducible intro s1 h1; dsimp only)
    | with_reducible intro s1 h1)

theorem execLedgerReset_same {m : Nat} {r s : State} (hm : m &&& 810 = 0) (h : Same m r s) (t : Nat) (c : Nat) :
    SameO m r (execLedgerReset t c s) := by
  unfold execLedgerReset
  repeat' (first
    | with_reducible
        first
        | assumption | apply SameE.ok | apply SameE.error | apply SameO.next
        | apply State.hostWrite_same (mask_sub hm rfl) | apply State.at_same (mask_sub hm rfl)
        | apply ledgerReset_same (mask_sub hm rfl) | refine Same.ofE ‹_ = Except.ok _› ?_
    | (with_reducible intro s1 h1; dsimp only)
    | with_reducible intro s1 h1)

/-! ## Update -/

theorem State.returnGrant_same {m : Nat} {r s : State} (hm : m &&& 2415919144 = 0) (h : Same m r s) :
    Same m r (State.returnGrant s) := by
  unfold State.returnGrant
  repeat' (first
    | with_reducible
        first
        | assumption | apply Same.ite | apply State.setDr_same (mask_sub hm rfl)
        | apply State.tellHead_same (mask_sub hm rfl))

theorem execUpdate_same {m : Nat} {r s : State} (hm : m &&& 2415919146 = 0) (h : Same m r s) (t : Nat) (src : Nat)
    (give : Nat) :
    SameO m r (execUpdate t src give s) := by
  unfold execUpdate
  repeat' (first
    | with_reducible
        first
        | assumption | apply Same.ite | apply SameO.ite | apply SameO.next | apply State.at_same (mask_sub hm rfl)
        | apply State.setDr_same (mask_sub hm rfl) | apply State.tellChain_same (mask_sub hm rfl)
        | apply State.relay_same (mask_sub hm rfl)
    | (extract_lets +onlyGivenNames x
       first
       | (refine Same.cut (m := m) (r := r) (x := x) ?_ ?_ <;> first | (clear_value x; intro hx) | subst x)
       | subst x)
    | split
    | dsimp only)

theorem imagePrepare_same {m : Nat} {r s : State} (hm : m &&& 2149845288 = 0) (h : Same m r s) :
    SameE m r (imagePrepare s) := by
  unfold imagePrepare
  repeat' (first
    | with_reducible
        first
        | assumption | apply Same.ite | apply SameE.ite | apply SameE.ok | apply SameE.error
        | apply require_same (mask_sub hm rfl) | apply State.tellHead_same (mask_sub hm rfl)
        | apply State.startLong_same (mask_sub hm rfl) | refine Same.ofE ‹_ = Except.ok _› ?_
    | (extract_lets +onlyGivenNames x
       first
       | (refine Same.cut (m := m) (r := r) (x := x) ?_ ?_ <;> first | (clear_value x; intro hx) | subst x)
       | subst x)
    | split
    | dsimp only
    | (with_reducible intro s1 h1; dsimp only)
    | with_reducible intro s1 h1)

theorem execImagePrepare_same {m : Nat} {r s : State} (hm : m &&& 2149845290 = 0) (h : Same m r s) (t : Nat) (c : Nat) :
    SameO m r (execImagePrepare t c s) := by
  unfold execImagePrepare
  repeat' (first
    | with_reducible
        first
        | assumption | apply SameE.ok | apply SameE.error | apply SameO.next
        | apply State.hostWrite_same (mask_sub hm rfl) | apply State.at_same (mask_sub hm rfl)
        | apply imagePrepare_same (mask_sub hm rfl) | refine Same.ofE ‹_ = Except.ok _› ?_
    | (with_reducible intro s1 h1; dsimp only)
    | with_reducible intro s1 h1)

theorem State.prepareResult_same {m : Nat} {r s : State} (hm : m &&& 4 = 0) (h : Same m r s) (kind : Nat)
    (b : List Byte) (flashFailed : Bool) :
    Same m r (State.prepareResult s kind b flashFailed).2 := by
  unfold State.prepareResult
  repeat' (first
    | with_reducible
        first
        | assumption | apply Same.ite | apply State.draw_same (mask_sub hm rfl) | apply Same.ite_snd
        | refine Same.snd ‹_ = (_, _)› ?_
    | (extract_lets +onlyGivenNames x
       first
       | (refine Same.cut (m := m) (r := r) (x := x) ?_ ?_ <;> first | (clear_value x; intro hx) | subst x)
       | subst x)
    | split
    | dsimp only)

theorem State.endPrepare_same {m : Nat} {r s : State} (hm : m &&& 3489660972 = 0) (h : Same m r s) (kind : Nat)
    (b : List Byte) (flashFailed : Bool) :
    Same m r (State.endPrepare s kind b flashFailed).2 := by
  unfold State.endPrepare
  repeat' (first
    | with_reducible
        first
        | assumption | apply Same.ite | apply State.prepareResult_same (mask_sub hm rfl)
        | apply State.os_same (mask_sub hm rfl) | apply State.setUp_same (mask_sub hm rfl)
        | apply State.returnGrant_same (mask_sub hm rfl) | apply Same.ite_snd | refine Same.snd ‹_ = (_, _)› ?_
    | (extract_lets +onlyGivenNames x
       first
       | (refine Same.cut (m := m) (r := r) (x := x) ?_ ?_ <;> first | (clear_value x; intro hx) | subst x)
       | subst x)
    | split
    | dsimp only)

theorem State.takeImage_same {m : Nat} {r s : State} (hm : m &&& 1073741962 = 0) (h : Same m r s) :
    Same m r (State.takeImage s) := by
  unfold State.takeImage
  repeat' (first
    | with_reducible
        first
        | assumption | apply State.setUp_same (mask_sub hm rfl) | apply State.setPw_same (mask_sub hm rfl)
        | apply State.loadLibrary_same (mask_sub hm rfl)
    | split
    | dsimp only)

theorem activate_same {m : Nat} {r s : State} (hm : m &&& 3638828974 = 0) (h : Same m r s) :
    SameE m r (activate s) := by
  unfold activate
  repeat' (first
    | with_reducible
        first
        | assumption | apply Same.ite | apply SameE.ite | apply SameE.ok | apply SameE.error
        | apply require_same (mask_sub hm rfl) | apply State.os_same (mask_sub hm rfl)
        | apply State.writeBoot_same (mask_sub hm rfl) | apply State.setUp_same (mask_sub hm rfl)
        | apply State.setDr_same (mask_sub hm rfl) | apply State.takeImage_same (mask_sub hm rfl)
        | apply State.restartWalnut_same (mask_sub hm rfl) | refine Same.ofE ‹_ = Except.ok _› ?_
    | (extract_lets +onlyGivenNames x
       first
       | (refine Same.cut (m := m) (r := r) (x := x) ?_ ?_ <;> first | (clear_value x; intro hx) | subst x)
       | subst x)
    | split
    | dsimp only
    | (with_reducible intro s1 h1; dsimp only)
    | with_reducible intro s1 h1)

theorem execActivate_same {m : Nat} {r s : State} (hm : m &&& 3638828974 = 0) (h : Same m r s) (t : Nat) (c : Nat) :
    SameO m r (execActivate t c s) := by
  unfold execActivate
  repeat' (first
    | with_reducible
        first
        | assumption | apply SameE.ok | apply SameE.error | apply SameO.next
        | apply State.hostWrite_same (mask_sub hm rfl) | apply State.at_same (mask_sub hm rfl)
        | apply activate_same (mask_sub hm rfl) | refine Same.ofE ‹_ = Except.ok _› ?_
    | (with_reducible intro s1 h1; dsimp only)
    | with_reducible intro s1 h1)

theorem execActivationLoadEnd_same {m : Nat} {r s : State} (hm : m &&& 1576278954 = 0) (h : Same m r s) (t : Nat) :
    SameO m r (execActivationLoadEnd t s) := by
  unfold execActivationLoadEnd
  repeat' (first
    | with_reducible
        first
        | assumption | apply Same.ite | apply SameO.ite | apply SameO.next | apply State.at_same (mask_sub hm rfl)
        | apply State.setPw_same (mask_sub hm rfl) | apply State.setUp_same (mask_sub hm rfl)
        | apply State.onward_same (mask_sub hm rfl) | apply State.holdLoops_same (mask_sub hm rfl)
        | apply State.loadLibrary_same (mask_sub hm rfl)
    | (extract_lets +onlyGivenNames x
       first
       | (refine Same.cut (m := m) (r := r) (x := x) ?_ ?_ <;> first | (clear_value x; intro hx) | subst x)
       | subst x)
    | split
    | dsimp only)

theorem confirm_same {m : Nat} {r s : State} (hm : m &&& 3489661162 = 0) (h : Same m r s) : SameE m r (confirm s) := by
  unfold confirm
  repeat' (first
    | with_reducible
        first
        | assumption | apply Same.ite | apply SameE.ite | apply SameE.ok | apply SameE.error
        | apply require_same (mask_sub hm rfl) | apply State.writeBoot_same (mask_sub hm rfl)
        | apply State.putSettings_same (mask_sub hm rfl) | apply State.setUp_same (mask_sub hm rfl)
        | apply State.returnGrant_same (mask_sub hm rfl) | refine Same.ofE ‹_ = Except.ok _› ?_
    | (simp only [Same.lit]; with_reducible refine SameLit.of hm ?_ ?_)
    | (refine fun (p : Part) (hp : Nat.testBit _ (Part.ix p) = false) => ?_; cases p <;> first | exact absurd hp (by decide) | (simp only [Part.same, and_self]; done))
    | (extract_lets +onlyGivenNames x
       first
       | (refine Same.cut (m := m) (r := r) (x := x) ?_ ?_ <;> first | (clear_value x; intro hx) | subst x)
       | subst x)
    | split
    | dsimp only
    | (with_reducible intro s1 h1; dsimp only)
    | with_reducible intro s1 h1)

theorem execConfirm_same {m : Nat} {r s : State} (hm : m &&& 3489661418 = 0) (h : Same m r s) (t : Nat) (c : Nat) :
    SameO m r (execConfirm t c s) := by
  unfold execConfirm
  repeat' (first
    | with_reducible
        first
        | assumption | apply SameE.ok | apply SameE.error | apply SameO.next
        | apply State.hostWrite_same (mask_sub hm rfl) | apply State.at_same (mask_sub hm rfl)
        | apply confirm_same (mask_sub hm rfl) | refine Same.ofE ‹_ = Except.ok _› ?_
    | (with_reducible intro s1 h1; dsimp only)
    | with_reducible intro s1 h1)

theorem execConfirmTimeout_same {m : Nat} {r s : State} (hm : m &&& 3638828974 = 0) (h : Same m r s) (t : Nat) :
    SameO m r (execConfirmTimeout t s) := by
  unfold execConfirmTimeout
  repeat' (first
    | with_reducible
        first
        | assumption | apply Same.ite | apply SameO.ite | apply SameO.next | apply State.at_same (mask_sub hm rfl)
        | apply State.writeBoot_same (mask_sub hm rfl) | apply State.setUp_same (mask_sub hm rfl)
        | apply State.returnGrant_same (mask_sub hm rfl) | apply State.os_same (mask_sub hm rfl)
        | apply State.takeImage_same (mask_sub hm rfl) | apply State.restartWalnut_same (mask_sub hm rfl)
    | (extract_lets +onlyGivenNames x
       first
       | (refine Same.cut (m := m) (r := r) (x := x) ?_ ?_ <;> first | (clear_value x; intro hx) | subst x)
       | subst x)
    | split
    | dsimp only)

end Sys2Proof.Machine
end

