-- ==== Sys2Proof/Laws/SamePower.lean ====
section
/-! SUPPORT. Which parts each function of the model leaves as they were:
power, resets, boot and the work items. -/

namespace Sys2Proof.Machine

open Sys2Proof

set_option linter.unusedSimpArgs false
set_option linter.unusedVariables false

/-! ## Power -/

theorem State.retain_same {m : Nat} {r s : State} (hm : m &&& 130 = 0) (h : Same m r s) :
    Same m r (State.retain s) := by
  unfold State.retain
  repeat' (first
    | with_reducible first | assumption | apply Same.ite | apply State.setPw_same (mask_sub hm rfl))

theorem execRetentionWrite_same {m : Nat} {r s : State} (hm : m &&& 130 = 0) (h : Same m r s) (t : Nat) :
    SameO m r (execRetentionWrite t s) := by
  unfold execRetentionWrite
  repeat' (first
    | with_reducible
        first
        | assumption | apply Same.ite | apply SameO.ite | apply SameO.next | apply State.at_same (mask_sub hm rfl)
        | apply State.retain_same (mask_sub hm rfl)
    | (extract_lets +onlyGivenNames x
       first
       | (refine Same.cut (m := m) (r := r) (x := x) ?_ ?_ <;> first | (clear_value x; intro hx) | subst x)
       | subst x)
    | split
    | dsimp only)

theorem State.coreDown_same {m : Nat} {r s : State} (hm : m &&& 4294967170 = 0) (h : Same m r s) :
    Same m r (State.coreDown s) := by
  unfold State.coreDown
  repeat' (first
    | with_reducible first | assumption
    | (simp only [Same.lit]; with_reducible refine SameLit.of hm ?_ ?_)
    | (refine fun (p : Part) (hp : Nat.testBit _ (Part.ix p) = false) => ?_; cases p <;> first | exact absurd hp (by decide) | (simp only [Part.same, and_self]; done))
    | dsimp only)

theorem State.restore_same {m : Nat} {r s : State} (hm : m &&& 1048 = 0) (h : Same m r s) (x : Nat × Nat) :
    Same m r (State.restore s x) := by
  unfold State.restore
  repeat' (first
    | with_reducible
        first
        | assumption | apply Same.ite | apply SameE.ok | apply SameE.error | apply State.ds_same (mask_sub hm rfl)
        | apply shadow_same (mask_sub hm rfl) | apply State.os_same (mask_sub hm rfl)
        | refine Same.ofE ‹_ = Except.ok _› ?_
    | (extract_lets +onlyGivenNames x
       first
       | (refine Same.cut (m := m) (r := r) (x := x) ?_ ?_ <;> first | (clear_value x; intro hx) | subst x)
       | subst x)
    | split
    | dsimp only
    | (with_reducible intro s1 h1; dsimp only)
    | with_reducible intro s1 h1)

theorem State.bootObjects_same {m : Nat} {r s : State} (hm : m &&& 8388888 = 0) (h : Same m r s) :
    Same m r (State.bootObjects s) := by
  unfold State.bootObjects
  repeat' (first
    | with_reducible
        first
        | assumption | apply Same.ite | apply State.os_same (mask_sub hm rfl)
        | apply State.setMem_same (mask_sub hm rfl) | refine Same.foldl (fun _ _ _ => ?_) _ ?_
    | (simp only [Same.lit]; with_reducible refine SameLit.of hm ?_ ?_)
    | (refine fun (p : Part) (hp : Nat.testBit _ (Part.ix p) = false) => ?_; cases p <;> first | exact absurd hp (by decide) | (simp only [Part.same, and_self]; done))
    | (extract_lets +onlyGivenNames x
       first
       | (refine Same.cut (m := m) (r := r) (x := x) ?_ ?_ <;> first | (clear_value x; intro hx) | subst x)
       | subst x)
    | split
    | dsimp only
    | (with_reducible intro s1 h1; dsimp only)
    | with_reducible intro s1 h1)

theorem State.recordLost_same {m : Nat} {r s : State} (hm : m &&& 520 = 0) (h : Same m r s) :
    Same m r (State.recordLost s) := by
  unfold State.recordLost
  repeat' (first
    | with_reducible first | assumption | apply State.log_same (mask_sub hm rfl))

theorem State.loadCalibration_same {m : Nat} {r s : State} (hm : m &&& 67115530 = 0) (h : Same m r s) :
    Same m r (State.loadCalibration s) := by
  unfold State.loadCalibration
  repeat' (first
    | with_reducible
        first
        | assumption | apply Same.ite | apply State.recordLost_same (mask_sub hm rfl)
        | apply State.showMonitor_same (mask_sub hm rfl) | apply Same.ite_snd
        | refine Same.foldl (fun _ _ _ => ?_) _ ?_ | refine Same.snd ‹_ = (_, _)› ?_
    | (simp only [Same.lit]; with_reducible refine SameLit.of hm ?_ ?_)
    | (refine fun (p : Part) (hp : Nat.testBit _ (Part.ix p) = false) => ?_; cases p <;> first | exact absurd hp (by decide) | (simp only [Part.same, and_self]; done))
    | (extract_lets +onlyGivenNames x
       first
       | (refine Same.cut (m := m) (r := r) (x := x) ?_ ?_ <;> first | (clear_value x; intro hx) | subst x)
       | subst x)
    | split
    | dsimp only
    | (with_reducible intro s1 h1; dsimp only)
    | with_reducible intro s1 h1)

theorem State.loadStore_same {m : Nat} {r s : State} (hm : m &&& 524 = 0) (h : Same m r s) :
    Same m r (State.loadStore s) := by
  unfold State.loadStore
  repeat' (first
    | with_reducible
        first
        | assumption | apply State.draw_same (mask_sub hm rfl) | apply State.log_same (mask_sub hm rfl)
        | refine Same.foldl (fun _ _ _ => ?_) _ ?_ | refine Same.snd ‹_ = (_, _)› ?_
    | split
    | dsimp only
    | (with_reducible intro s1 h1; dsimp only)
    | with_reducible intro s1 h1)

theorem State.loadLog_same {m : Nat} {r s : State} (hm : m &&& 512 = 0) (h : Same m r s) :
    Same m r (State.loadLog s) := by
  unfold State.loadLog
  repeat' (first
    | with_reducible first | assumption | apply State.setMg_same (mask_sub hm rfl))

theorem State.bootRetention_same {m : Nat} {r s : State} (hm : m &&& 872415498 = 0) (h : Same m r s) (ok : Bool) :
    Same m r (State.bootRetention s ok) := by
  unfold State.bootRetention
  repeat' (first
    | with_reducible
        first
        | assumption | apply Same.ite | apply State.os_same (mask_sub hm rfl)
        | apply State.setDr_same (mask_sub hm rfl) | apply State.setPod_same (mask_sub hm rfl)
        | apply State.osBit_same (mask_sub hm rfl)
    | (simp only [Same.lit]; with_reducible refine SameLit.of hm ?_ ?_)
    | (refine fun (p : Part) (hp : Nat.testBit _ (Part.ix p) = false) => ?_; cases p <;> first | exact absurd hp (by decide) | (simp only [Part.same, and_self]; done))
    | (extract_lets +onlyGivenNames x
       first
       | (refine Same.cut (m := m) (r := r) (x := x) ?_ ?_ <;> first | (clear_value x; intro hx) | subst x)
       | subst x)
    | split
    | dsimp only)

theorem State.bootPost_same {m : Nat} {r s : State} (hm : m &&& 536870924 = 0) (h : Same m r s) :
    Same m r (State.bootPost s) := by
  unfold State.bootPost
  repeat' (first
    | with_reducible
        first
        | assumption | apply State.os_same (mask_sub hm rfl) | apply State.post_same (mask_sub hm rfl)
    | (extract_lets +onlyGivenNames x
       first
       | (refine Same.cut (m := m) (r := r) (x := x) ?_ ?_ <;> first | (clear_value x; intro hx) | subst x)
       | subst x)
    | split
    | dsimp only)

theorem State.keptPower_same {m : Nat} {r s : State} (hm : m &&& 8 = 0) (h : Same m r s) :
    Same m r (State.keptPower s) := by
  unfold State.keptPower
  repeat' (first
    | with_reducible
        first
        | assumption | apply State.os_same (mask_sub hm rfl) | refine Same.foldl (fun _ _ _ => ?_) _ ?_
    | split
    | dsimp only
    | (with_reducible intro s1 h1; dsimp only)
    | with_reducible intro s1 h1)

theorem State.boot_same {m : Nat} {r s : State} (hm : m &&& 4260634558 = 0) (h : Same m r s) :
    Same m r (State.boot s) := by
  unfold State.boot
  repeat' (first
    | with_reducible
        first
        | assumption | apply Same.ite | apply State.setPw_same (mask_sub hm rfl)
        | apply State.bootWalnut_same (mask_sub hm rfl) | apply State.bootObjects_same (mask_sub hm rfl)
        | apply State.bootRetention_same (mask_sub hm rfl) | apply State.loadStore_same (mask_sub hm rfl)
        | apply State.loadLog_same (mask_sub hm rfl) | apply State.loadCalibration_same (mask_sub hm rfl)
        | apply State.bootPost_same (mask_sub hm rfl) | apply State.os_same (mask_sub hm rfl)
        | apply State.restore_same (mask_sub hm rfl) | apply State.osBit_same (mask_sub hm rfl)
        | apply State.keptPower_same (mask_sub hm rfl) | apply State.setUp_same (mask_sub hm rfl)
        | apply State.setPip_same (mask_sub hm rfl) | apply State.enterPower_same (mask_sub hm rfl)
        | apply State.lanesStart_same (mask_sub hm rfl) | apply State.emit_same (mask_sub hm rfl)
        | apply State.setPod_same (mask_sub hm rfl) | apply State.rechoose_same (mask_sub hm rfl)
        | refine Same.foldl (fun _ _ _ => ?_) _ ?_
    | (extract_lets +onlyGivenNames x
       first
       | (refine Same.cut (m := m) (r := r) (x := x) ?_ ?_ <;> first | (clear_value x; intro hx) | subst x)
       | subst x)
    | split
    | dsimp only
    | (with_reducible intro s1 h1; dsimp only)
    | with_reducible intro s1 h1)

theorem execVbatPowerUp_same {m : Nat} {r s : State} (hm : m &&& 138 = 0) (h : Same m r s) (t : Nat) :
    SameO m r (execVbatPowerUp t s) := by
  unfold execVbatPowerUp
  repeat' (first
    | with_reducible
        first
        | assumption | apply Same.ite | apply SameO.ite | apply SameO.next | apply State.at_same (mask_sub hm rfl)
        | apply State.os_same (mask_sub hm rfl) | apply State.setPw_same (mask_sub hm rfl)
    | (extract_lets +onlyGivenNames x
       first
       | (refine Same.cut (m := m) (r := r) (x := x) ?_ ?_ <;> first | (clear_value x; intro hx) | subst x)
       | subst x)
    | split
    | dsimp only)

theorem execCrystalStart_same {m : Nat} {r s : State} (hm : m &&& 130 = 0) (h : Same m r s) (t : Nat) :
    SameO m r (execCrystalStart t s) := by
  unfold execCrystalStart
  repeat' (first
    | with_reducible
        first
        | assumption | apply Same.ite | apply SameO.ite | apply SameO.next | apply State.at_same (mask_sub hm rfl)
        | apply State.setPw_same (mask_sub hm rfl)
    | (extract_lets +onlyGivenNames x
       first
       | (refine Same.cut (m := m) (r := r) (x := x) ?_ ?_ <;> first | (clear_value x; intro hx) | subst x)
       | subst x)
    | split
    | dsimp only)

theorem execVbatLoss_same {m : Nat} {r s : State} (hm : m &&& 268435594 = 0) (h : Same m r s) (t : Nat) :
    SameO m r (execVbatLoss t s) := by
  unfold execVbatLoss
  repeat' (first
    | with_reducible
        first
        | assumption | apply SameO.next | apply State.at_same (mask_sub hm rfl)
        | apply State.setPw_same (mask_sub hm rfl) | apply State.os_same (mask_sub hm rfl)
        | apply State.setDr_same (mask_sub hm rfl)
    | (extract_lets +onlyGivenNames x
       first
       | (refine Same.cut (m := m) (r := r) (x := x) ?_ ?_ <;> first | (clear_value x; intro hx) | subst x)
       | subst x)
    | split
    | dsimp only)

theorem execCorePowerUp_same {m : Nat} {r s : State} (hm : m &&& 130 = 0) (h : Same m r s) (t : Nat) :
    SameO m r (execCorePowerUp t s) := by
  unfold execCorePowerUp
  repeat' (first
    | with_reducible
        first
        | assumption | apply Same.ite | apply SameO.ite | apply SameO.next | apply State.at_same (mask_sub hm rfl)
        | apply State.setPw_same (mask_sub hm rfl)
    | (extract_lets +onlyGivenNames x
       first
       | (refine Same.cut (m := m) (r := r) (x := x) ?_ ?_ <;> first | (clear_value x; intro hx) | subst x)
       | subst x)
    | split
    | dsimp only)

theorem execInternalResetRelease_same {m : Nat} {r s : State} (hm : m &&& 4260634558 = 0) (h : Same m r s) (t : Nat) :
    SameO m r (execInternalResetRelease t s) := by
  unfold execInternalResetRelease
  repeat' (first
    | with_reducible
        first
        | assumption | apply Same.ite | apply SameO.ite | apply SameO.next | apply State.at_same (mask_sub hm rfl)
        | apply State.boot_same (mask_sub hm rfl)
    | (extract_lets +onlyGivenNames x
       first
       | (refine Same.cut (m := m) (r := r) (x := x) ?_ ?_ <;> first | (clear_value x; intro hx) | subst x)
       | subst x)
    | split
    | dsimp only)

theorem State.dropPower_same {m : Nat} {r s : State} (hm : m &&& 4294967214 = 0) (h : Same m r s) :
    Same m r (State.dropPower s) := by
  unfold State.dropPower
  repeat' (first
    | with_reducible
        first
        | assumption | apply State.setPw_same (mask_sub hm rfl) | apply State.coreDown_same (mask_sub hm rfl)
        | apply State.injectLock_same (mask_sub hm rfl))

theorem execPgInFall_same {m : Nat} {r s : State} (hm : m &&& 4294967214 = 0) (h : Same m r s) (t : Nat) :
    SameO m r (execPgInFall t s) := by
  unfold execPgInFall
  repeat' (first
    | with_reducible
        first
        | assumption | apply Same.ite | apply SameO.ite | apply SameO.next | apply State.at_same (mask_sub hm rfl)
        | apply State.setPw_same (mask_sub hm rfl) | apply State.dropPower_same (mask_sub hm rfl)
    | (extract_lets +onlyGivenNames x
       first
       | (refine Same.cut (m := m) (r := r) (x := x) ?_ ?_ <;> first | (clear_value x; intro hx) | subst x)
       | subst x)
    | split
    | dsimp only)

theorem State.coreReset_same {m : Nat} {r s : State} (hm : m &&& 4294967214 = 0) (h : Same m r s) :
    Same m r (State.coreReset s) := by
  unfold State.coreReset
  repeat' (first
    | with_reducible
        first
        | assumption | apply State.setPw_same (mask_sub hm rfl) | apply State.coreDown_same (mask_sub hm rfl)
        | apply State.injectLock_same (mask_sub hm rfl))

theorem execResetL_same {m : Nat} {r s : State} (hm : m &&& 4294967214 = 0) (h : Same m r s) (t : Nat) (low : Nat) :
    SameO m r (execResetL t low s) := by
  unfold execResetL
  repeat' (first
    | with_reducible
        first
        | assumption | apply Same.ite | apply SameO.ite | apply SameO.next | apply State.at_same (mask_sub hm rfl)
        | apply State.coreReset_same (mask_sub hm rfl)
    | (extract_lets +onlyGivenNames x
       first
       | (refine Same.cut (m := m) (r := r) (x := x) ?_ ?_ <;> first | (clear_value x; intro hx) | subst x)
       | subst x)
    | split
    | dsimp only)

theorem State.wake_same {m : Nat} {r s : State} (hm : m &&& 138 = 0) (h : Same m r s) (bits : Nat) :
    Same m r (State.wake s bits) := by
  unfold State.wake
  repeat' (first
    | with_reducible
        first
        | assumption | apply Same.ite | apply State.os_same (mask_sub hm rfl)
        | apply State.setPw_same (mask_sub hm rfl)
    | (extract_lets +onlyGivenNames x
       first
       | (refine Same.cut (m := m) (r := r) (x := x) ?_ ?_ <;> first | (clear_value x; intro hx) | subst x)
       | subst x)
    | split
    | dsimp only)

theorem execWakePin_same {m : Nat} {r s : State} (hm : m &&& 138 = 0) (h : Same m r s) (t : Nat) (pins : Nat) :
    SameO m r (execWakePin t pins s) := by
  unfold execWakePin
  repeat' (first
    | with_reducible
        first
        | assumption | apply Same.ite | apply SameO.ite | apply SameO.next | apply State.at_same (mask_sub hm rfl)
        | apply State.wake_same (mask_sub hm rfl)
    | (extract_lets +onlyGivenNames x
       first
       | (refine Same.cut (m := m) (r := r) (x := x) ?_ ?_ <;> first | (clear_value x; intro hx) | subst x)
       | subst x)
    | split
    | dsimp only)

theorem execWakeTimer_same {m : Nat} {r s : State} (hm : m &&& 138 = 0) (h : Same m r s) (t : Nat) :
    SameO m r (execWakeTimer t s) := by
  unfold execWakeTimer
  repeat' (first
    | with_reducible
        first
        | assumption | apply Same.ite | apply SameO.ite | apply SameO.next | apply State.at_same (mask_sub hm rfl)
        | apply State.wake_same (mask_sub hm rfl)
    | (extract_lets +onlyGivenNames x
       first
       | (refine Same.cut (m := m) (r := r) (x := x) ?_ ?_ <;> first | (clear_value x; intro hx) | subst x)
       | subst x)
    | split
    | dsimp only)

theorem execPwrEnHoldEnd_same {m : Nat} {r s : State} (hm : m &&& 130 = 0) (h : Same m r s) (t : Nat) :
    SameO m r (execPwrEnHoldEnd t s) := by
  unfold execPwrEnHoldEnd
  repeat' (first
    | with_reducible
        first
        | assumption | apply Same.ite | apply SameO.ite | apply SameO.next | apply State.at_same (mask_sub hm rfl)
        | apply State.setPw_same (mask_sub hm rfl)
    | (extract_lets +onlyGivenNames x
       first
       | (refine Same.cut (m := m) (r := r) (x := x) ?_ ?_ <;> first | (clear_value x; intro hx) | subst x)
       | subst x)
    | split
    | dsimp only)

theorem execDormantEntry_same {m : Nat} {r s : State} (hm : m &&& 4294967214 = 0) (h : Same m r s) (t : Nat) :
    SameO m r (execDormantEntry t s) := by
  unfold execDormantEntry
  repeat' (first
    | with_reducible
        first
        | assumption | apply Same.ite | apply SameO.ite | apply SameO.next | apply State.at_same (mask_sub hm rfl)
        | apply State.transitionDone_same (mask_sub hm rfl) | apply State.setPw_same (mask_sub hm rfl)
        | apply State.dropPower_same (mask_sub hm rfl) | apply State.retain_same (mask_sub hm rfl)
    | (extract_lets +onlyGivenNames x
       first
       | (refine Same.cut (m := m) (r := r) (x := x) ?_ ?_ <;> first | (clear_value x; intro hx) | subst x)
       | subst x)
    | split
    | dsimp only)

theorem State.hostLeaves_same {m : Nat} {r s : State} (hm : m &&& 268436098 = 0) (h : Same m r s) (p : PowerState) :
    Same m r (State.hostLeaves s p) := by
  unfold State.hostLeaves
  repeat' (first
    | with_reducible
        first
        | assumption | apply State.leaveDoze_same (mask_sub hm rfl) | apply State.setMg_same (mask_sub hm rfl))

theorem powerCommand_same {m : Nat} {r s : State} (hm : m &&& 502537130 = 0) (h : Same m r s) (v : Nat) :
    SameE m r (powerCommand v s) := by
  unfold powerCommand
  repeat' (first
    | with_reducible
        first
        | assumption | apply SameE.ok | apply SameE.error | apply State.moveDown_same (mask_sub hm rfl)
        | apply State.hostEnds_same (mask_sub hm rfl) | apply require_same (mask_sub hm rfl)
        | apply State.hostLeaves_same (mask_sub hm rfl) | apply State.intend_same (mask_sub hm rfl)
        | apply State.beginEntry_same (mask_sub hm rfl) | refine Same.ofE ‹_ = Except.ok _› ?_
    | split
    | dsimp only
    | (with_reducible intro s1 h1; dsimp only)
    | with_reducible intro s1 h1)

theorem execPowerCommandDormant_same {m : Nat} {r s : State} (hm : m &&& 502537130 = 0) (h : Same m r s) (t : Nat)
    (c : Nat) :
    SameO m r (execPowerCommandDormant t c s) := by
  unfold execPowerCommandDormant
  repeat' (first
    | with_reducible
        first
        | assumption | apply SameE.ok | apply SameE.error | apply SameO.next
        | apply State.hostWrite_same (mask_sub hm rfl) | apply State.at_same (mask_sub hm rfl)
        | apply powerCommand_same (mask_sub hm rfl) | refine Same.ofE ‹_ = Except.ok _› ?_
    | (with_reducible intro s1 h1; dsimp only)
    | with_reducible intro s1 h1)

theorem execPowerCommandDoze_same {m : Nat} {r s : State} (hm : m &&& 502537130 = 0) (h : Same m r s) (t : Nat) (c : Nat) :
    SameO m r (execPowerCommandDoze t c s) := by
  unfold execPowerCommandDoze
  repeat' (first
    | with_reducible
        first
        | assumption | apply SameE.ok | apply SameE.error | apply SameO.next
        | apply State.hostWrite_same (mask_sub hm rfl) | apply State.at_same (mask_sub hm rfl)
        | apply powerCommand_same (mask_sub hm rfl) | refine Same.ofE ‹_ = Except.ok _› ?_
    | (with_reducible intro s1 h1; dsimp only)
    | with_reducible intro s1 h1)

theorem execPowerCommandReady_same {m : Nat} {r s : State} (hm : m &&& 502537130 = 0) (h : Same m r s) (t : Nat) (c : Nat) :
    SameO m r (execPowerCommandReady t c s) := by
  unfold execPowerCommandReady
  repeat' (first
    | with_reducible
        first
        | assumption | apply SameE.ok | apply SameE.error | apply SameO.next
        | apply State.hostWrite_same (mask_sub hm rfl) | apply State.at_same (mask_sub hm rfl)
        | apply powerCommand_same (mask_sub hm rfl) | refine Same.ofE ‹_ = Except.ok _› ?_
    | (with_reducible intro s1 h1; dsimp only)
    | with_reducible intro s1 h1)

theorem execPowerCommandSensing_same {m : Nat} {r s : State} (hm : m &&& 502537130 = 0) (h : Same m r s) (t : Nat)
    (c : Nat) :
    SameO m r (execPowerCommandSensing t c s) := by
  unfold execPowerCommandSensing
  repeat' (first
    | with_reducible
        first
        | assumption | apply SameE.ok | apply SameE.error | apply SameO.next
        | apply State.hostWrite_same (mask_sub hm rfl) | apply State.at_same (mask_sub hm rfl)
        | apply powerCommand_same (mask_sub hm rfl) | refine Same.ofE ‹_ = Except.ok _› ?_
    | (with_reducible intro s1 h1; dsimp only)
    | with_reducible intro s1 h1)

theorem execStartRemoteNode_same {m : Nat} {r s : State} (hm : m &&& 276831114 = 0) (h : Same m r s) (t : Nat) (node : Nat) :
    SameO m r (execStartRemoteNode t node s) := by
  unfold execStartRemoteNode
  repeat' (first
    | with_reducible
        first
        | assumption | apply Same.ite | apply SameO.ite | apply SameO.next | apply State.at_same (mask_sub hm rfl)
        | apply State.setPw_same (mask_sub hm rfl) | apply State.hostLeaves_same (mask_sub hm rfl)
        | apply State.intend_same (mask_sub hm rfl) | apply State.judgeEntry_same (mask_sub hm rfl)
    | (extract_lets +onlyGivenNames x
       first
       | (refine Same.cut (m := m) (r := r) (x := x) ?_ ?_ <;> first | (clear_value x; intro hx) | subst x)
       | subst x)
    | split
    | dsimp only)

theorem execStopRemoteNode_same {m : Nat} {r s : State} (hm : m &&& 502537130 = 0) (h : Same m r s) (t : Nat) (node : Nat) :
    SameO m r (execStopRemoteNode t node s) := by
  unfold execStopRemoteNode
  repeat' (first
    | with_reducible
        first
        | assumption | apply Same.ite | apply SameO.ite | apply SameO.next | apply State.at_same (mask_sub hm rfl)
        | apply State.moveDown_same (mask_sub hm rfl) | apply State.setPw_same (mask_sub hm rfl)
        | apply State.hostEnds_same (mask_sub hm rfl)
    | (extract_lets +onlyGivenNames x
       first
       | (refine Same.cut (m := m) (r := r) (x := x) ?_ ?_ <;> first | (clear_value x; intro hx) | subst x)
       | subst x)
    | split
    | dsimp only)

theorem execEnterPreOperational_same {m : Nat} {r s : State} (hm : m &&& 502537130 = 0) (h : Same m r s) (t : Nat)
    (node : Nat) :
    SameO m r (execEnterPreOperational t node s) := by
  unfold execEnterPreOperational
  repeat' (first
    | with_reducible
        first
        | assumption | apply Same.ite | apply SameO.ite | apply SameO.next | apply State.at_same (mask_sub hm rfl)
        | apply State.setPw_same (mask_sub hm rfl) | apply State.hostLeaves_same (mask_sub hm rfl)
        | apply State.moveDown_same (mask_sub hm rfl) | apply State.hostEnds_same (mask_sub hm rfl)
    | (extract_lets +onlyGivenNames x
       first
       | (refine Same.cut (m := m) (r := r) (x := x) ?_ ?_ <;> first | (clear_value x; intro hx) | subst x)
       | subst x)
    | split
    | dsimp only)

theorem execResetNode_same {m : Nat} {r s : State} (hm : m &&& 4294967214 = 0) (h : Same m r s) (t : Nat) (node : Nat) :
    SameO m r (execResetNode t node s) := by
  unfold execResetNode
  repeat' (first
    | with_reducible
        first
        | assumption | apply Same.ite | apply SameO.ite | apply SameO.next | apply State.at_same (mask_sub hm rfl)
        | apply State.coreReset_same (mask_sub hm rfl)
    | (extract_lets +onlyGivenNames x
       first
       | (refine Same.cut (m := m) (r := r) (x := x) ?_ ?_ <;> first | (clear_value x; intro hx) | subst x)
       | subst x)
    | split
    | dsimp only)

theorem execResetCommunication_same {m : Nat} {r s : State} (hm : m &&& 3233810222 = 0) (h : Same m r s) (t : Nat)
    (node : Nat) :
    SameO m r (execResetCommunication t node s) := by
  unfold execResetCommunication
  repeat' (first
    | with_reducible
        first
        | assumption | apply Same.ite | apply SameO.ite | apply SameO.next | apply State.at_same (mask_sub hm rfl)
        | apply State.injectLock_same (mask_sub hm rfl) | apply State.endSession_same (mask_sub hm rfl)
        | apply State.emit_same (mask_sub hm rfl)
    | (extract_lets +onlyGivenNames x
       first
       | (refine Same.cut (m := m) (r := r) (x := x) ?_ ?_ <;> first | (clear_value x; intro hx) | subst x)
       | subst x)
    | split
    | dsimp only)

theorem State.firstReady_same {m : Nat} {r s : State} (hm : m &&& 8389762 = 0) (h : Same m r s) :
    Same m r (State.firstReady s) := by
  unfold State.firstReady
  repeat' (first
    | with_reducible
        first
        | assumption | apply State.setMem_same (mask_sub hm rfl) | apply State.setPw_same (mask_sub hm rfl)
        | apply State.setLad_same (mask_sub hm rfl) | apply State.reserveFixed_same (mask_sub hm rfl)
    | (extract_lets +onlyGivenNames x
       first
       | (refine Same.cut (m := m) (r := r) (x := x) ?_ ?_ <;> first | (clear_value x; intro hx) | subst x)
       | subst x)
    | split
    | dsimp only)

theorem State.warmIfHeld_same {m : Nat} {r s : State} (hm : m &&& 4234 = 0) (h : Same m r s) :
    Same m r (State.warmIfHeld s) := by
  unfold State.warmIfHeld
  repeat' (first
    | with_reducible first | assumption | apply Same.ite | apply State.warmUp_same (mask_sub hm rfl))

theorem execDozeToReadyDone_same {m : Nat} {r s : State} (hm : m &&& 1559502730 = 0) (h : Same m r s) (t : Nat)
    (fit : DramFit) :
    SameO m r (execDozeToReadyDone t fit s) := by
  unfold execDozeToReadyDone
  repeat' (first
    | with_reducible
        first
        | assumption | apply Same.ite | apply SameO.ite | apply SameO.next | apply State.at_same (mask_sub hm rfl)
        | apply State.transitionDone_same (mask_sub hm rfl) | apply State.emcy_same (mask_sub hm rfl)
        | apply State.showDram_same (mask_sub hm rfl) | apply State.enterReady_same (mask_sub hm rfl)
        | apply State.firstReady_same (mask_sub hm rfl) | apply State.loadLibrary_same (mask_sub hm rfl)
        | apply State.setUp_same (mask_sub hm rfl) | apply State.setPw_same (mask_sub hm rfl)
        | apply State.judgeEntry_same (mask_sub hm rfl) | apply State.warmIfHeld_same (mask_sub hm rfl)
    | (extract_lets +onlyGivenNames x
       first
       | (refine Same.cut (m := m) (r := r) (x := x) ?_ ?_ <;> first | (clear_value x; intro hx) | subst x)
       | subst x)
    | split
    | dsimp only)

theorem State.judgeWaiting_same {m : Nat} {r s : State} (hm : m &&& 8395146 = 0) (h : Same m r s) :
    Same m r (State.judgeWaiting s) := by
  unfold State.judgeWaiting
  repeat' (first
    | with_reducible first | assumption | apply Same.ite | apply State.judgeEntry_same (mask_sub hm rfl)
    | (extract_lets +onlyGivenNames x
       first
       | (refine Same.cut (m := m) (r := r) (x := x) ?_ ?_ <;> first | (clear_value x; intro hx) | subst x)
       | subst x)
    | split
    | dsimp only)

theorem State.reloadRung_same {m : Nat} {r s : State} (hm : m &&& 2362376 = 0) (h : Same m r s) (r' : Nat) :
    Same m r (State.reloadRung s r') := by
  unfold State.reloadRung
  repeat' (first
    | with_reducible first | assumption | apply State.putRung_same (mask_sub hm rfl)
    | split
    | dsimp only)

theorem execActivePlanReload_same {m : Nat} {r s : State} (hm : m &&& 1084497290 = 0) (h : Same m r s) (t : Nat) :
    SameO m r (execActivePlanReload t s) := by
  unfold execActivePlanReload
  repeat' (first
    | with_reducible
        first
        | assumption | apply Same.ite | apply SameO.ite | apply SameO.next | apply State.at_same (mask_sub hm rfl)
        | apply State.loadLibrary_same (mask_sub hm rfl) | apply State.setUp_same (mask_sub hm rfl)
        | apply State.emcy_same (mask_sub hm rfl) | apply State.reloadRung_same (mask_sub hm rfl)
        | apply State.warmIfHeld_same (mask_sub hm rfl) | apply State.judgeWaiting_same (mask_sub hm rfl)
    | (extract_lets +onlyGivenNames x
       first
       | (refine Same.cut (m := m) (r := r) (x := x) ?_ ?_ <;> first | (clear_value x; intro hx) | subst x)
       | subst x)
    | split
    | dsimp only)

theorem execKeptPlanReload_same {m : Nat} {r s : State} (hm : m &&& 10755466 = 0) (h : Same m r s) (t : Nat) (rung : Nat) :
    SameO m r (execKeptPlanReload t rung s) := by
  unfold execKeptPlanReload
  repeat' (first
    | with_reducible
        first
        | assumption | apply Same.ite | apply SameO.ite | apply SameO.next | apply State.at_same (mask_sub hm rfl)
        | apply State.judgeWaiting_same (mask_sub hm rfl) | apply State.reloadRung_same (mask_sub hm rfl)
    | (extract_lets +onlyGivenNames x
       first
       | (refine Same.cut (m := m) (r := r) (x := x) ?_ ?_ <;> first | (clear_value x; intro hx) | subst x)
       | subst x)
    | split
    | dsimp only)

theorem execStopShutdown_same {m : Nat} {r s : State} (hm : m &&& 502537130 = 0) (h : Same m r s) (t : Nat) :
    SameO m r (execStopShutdown t s) := by
  unfold execStopShutdown
  repeat' (first
    | with_reducible
        first
        | assumption | apply Same.ite | apply SameO.ite | apply SameO.next | apply State.at_same (mask_sub hm rfl)
        | apply State.endFiring_same (mask_sub hm rfl) | apply State.holdLoops_same (mask_sub hm rfl)
        | apply State.setPw_same (mask_sub hm rfl) | apply State.onward_same (mask_sub hm rfl)
        | apply State.photonicOff_same (mask_sub hm rfl)
    | (extract_lets +onlyGivenNames x
       first
       | (refine Same.cut (m := m) (r := r) (x := x) ?_ ?_ <;> first | (clear_value x; intro hx) | subst x)
       | subst x)
    | split
    | dsimp only)

theorem execReferenceTimeout_same {m : Nat} {r s : State} (hm : m &&& 502537130 = 0) (h : Same m r s) (t : Nat) :
    SameO m r (execReferenceTimeout t s) := by
  unfold execReferenceTimeout
  repeat' (first
    | with_reducible
        first
        | assumption | apply Same.ite | apply SameO.ite | apply SameO.next | apply State.at_same (mask_sub hm rfl)
        | apply State.transitionDone_same (mask_sub hm rfl) | apply State.emcy_same (mask_sub hm rfl)
        | apply State.setDr_same (mask_sub hm rfl) | apply State.moveDown_same (mask_sub hm rfl)
        | apply State.chargeTo_same (mask_sub hm rfl)
    | (extract_lets +onlyGivenNames x
       first
       | (refine Same.cut (m := m) (r := r) (x := x) ?_ ?_ <;> first | (clear_value x; intro hx) | subst x)
       | subst x)
    | split
    | dsimp only)

theorem execDrgRefiReturn_same {m : Nat} {r s : State} (hm : m &&& 268435466 = 0) (h : Same m r s) (t : Nat) :
    SameO m r (execDrgRefiReturn t s) := by
  unfold execDrgRefiReturn
  repeat' (first
    | with_reducible
        first
        | assumption | apply Same.ite | apply SameO.ite | apply SameO.next | apply State.at_same (mask_sub hm rfl)
        | apply State.setDr_same (mask_sub hm rfl) | apply State.os_same (mask_sub hm rfl)
    | (extract_lets +onlyGivenNames x
       first
       | (refine Same.cut (m := m) (r := r) (x := x) ?_ ?_ <;> first | (clear_value x; intro hx) | subst x)
       | subst x)
    | split
    | dsimp only)

/-! ## Items -/

theorem State.releaseItem_same {m : Nat} {r s : State} (hm : m &&& 8519680 = 0) (h : Same m r s) (e : Nat) (it : Item) :
    Same m r (State.releaseItem s e it) := by
  unfold State.releaseItem
  repeat' (first
    | with_reducible
        first
        | assumption | apply Same.ite | apply State.setEngine_same (mask_sub hm rfl)
        | apply State.startItem_same (mask_sub hm rfl)
    | (extract_lets +onlyGivenNames x
       first
       | (refine Same.cut (m := m) (r := r) (x := x) ?_ ?_ <;> first | (clear_value x; intro hx) | subst x)
       | subst x)
    | split
    | dsimp only)

theorem State.libraryEcc_same {m : Nat} {r s : State} (hm : m &&& 10897416 = 0) (h : Same m r s) (e : Nat) (ecc : EccError) :
    Same m r (State.libraryEcc s e ecc) := by
  unfold State.libraryEcc
  repeat' (first
    | with_reducible
        first
        | assumption | apply State.eccFix_same (mask_sub hm rfl) | apply State.memoryFault_same (mask_sub hm rfl)
        | apply State.eccLost_same (mask_sub hm rfl)
    | split
    | dsimp only)

theorem State.userEcc_same {m : Nat} {r s : State} (hm : m &&& 10881032 = 0) (h : Same m r s) (e : Nat) (it : Item)
    (ecc : EccError) :
    Same m r (State.userEcc s e it ecc) := by
  unfold State.userEcc
  repeat' (first
    | with_reducible
        first
        | assumption | apply State.eccFix_same (mask_sub hm rfl) | apply State.abortUser_same (mask_sub hm rfl)
        | apply State.eccLost_same (mask_sub hm rfl)
    | split
    | dsimp only)

theorem State.releaseLibrary_same {m : Nat} {r s : State} (hm : m &&& 10897416 = 0) (h : Same m r s) (f : Flight)
    (k : Nat) (slot : Nat) (ecc : EccError) (invalid : List Nat) :
    Same m r (State.releaseLibrary s f k slot ecc invalid) := by
  unfold State.releaseLibrary
  repeat' (first
    | with_reducible
        first
        | assumption | apply Same.ite | apply State.libraryEcc_same (mask_sub hm rfl)
        | apply State.releaseItem_same (mask_sub hm rfl) | apply Same.ite_snd | refine Same.snd ‹_ = (_, _)› ?_
    | (extract_lets +onlyGivenNames x
       first
       | (refine Same.cut (m := m) (r := r) (x := x) ?_ ?_ <;> first | (clear_value x; intro hx) | subst x)
       | subst x)
    | split
    | dsimp only)

theorem State.inbox_same {m : Nat} {r s : State} (hm : m &&& 4 = 0) (h : Same m r s) (f : Flight) (n : Nat) (slot : Nat) :
    Same m r (State.inbox s f n slot).2 := by
  unfold State.inbox
  repeat' (first
    | with_reducible
        first
        | assumption | apply Same.ite | apply State.draw_same (mask_sub hm rfl) | apply Same.ite_snd
        | refine Same.snd ‹_ = (_, _)› ?_
    | (extract_lets +onlyGivenNames x
       first
       | (refine Same.cut (m := m) (r := r) (x := x) ?_ ?_ <;> first | (clear_value x; intro hx) | subst x)
       | subst x)
    | split
    | dsimp only)

theorem State.releaseUser_same {m : Nat} {r s : State} (hm : m &&& 10881036 = 0) (h : Same m r s) (f : Flight)
    (n : Nat) (slot : Nat) (ecc : EccError) :
    Same m r (State.releaseUser s f n slot ecc) := by
  unfold State.releaseUser
  repeat' (first
    | with_reducible
        first
        | assumption | apply Same.ite | apply State.bump_same (mask_sub hm rfl)
        | apply State.countAt_same (mask_sub hm rfl) | apply State.count_same (mask_sub hm rfl)
        | apply State.inbox_same (mask_sub hm rfl) | apply State.userEcc_same (mask_sub hm rfl)
        | apply State.releaseItem_same (mask_sub hm rfl) | apply State.hzWrite_same (mask_sub hm rfl)
        | apply Same.ite_snd | refine Same.snd ‹_ = (_, _)› ?_
    | (extract_lets +onlyGivenNames x
       first
       | (refine Same.cut (m := m) (r := r) (x := x) ?_ ?_ <;> first | (clear_value x; intro hx) | subst x)
       | subst x)
    | split
    | dsimp only)

theorem execWorkItemRelease_same {m : Nat} {r s : State} (hm : m &&& 10897422 = 0) (h : Same m r s) (t : Nat)
    (user : Bool) (item : Nat) (sweep : Nat) (slot : Nat) (ecc : EccError) (invalid : List Nat) :
    SameO m r (execWorkItemRelease t user item sweep slot ecc invalid s) := by
  unfold execWorkItemRelease
  repeat' (first
    | with_reducible
        first
        | assumption | apply Same.ite | apply SameO.ite | apply SameO.next | apply State.at_same (mask_sub hm rfl)
        | apply State.releaseUser_same (mask_sub hm rfl) | apply State.releaseLibrary_same (mask_sub hm rfl)
    | (extract_lets +onlyGivenNames x
       first
       | (refine Same.cut (m := m) (r := r) (x := x) ?_ ?_ <;> first | (clear_value x; intro hx) | subst x)
       | subst x)
    | split
    | dsimp only)

theorem userProgram_same {m : Nat} {r s : State} (hm : m &&& 131072 = 0) (h : Same m r s) (data : List Byte) :
    SameE m r (userProgram data s) := by
  unfold userProgram
  repeat' (first
    | with_reducible
        first
        | assumption | apply SameE.ok | apply SameE.error | apply require_same (mask_sub hm rfl)
        | refine Same.ofE ‹_ = Except.ok _› ?_
    | (simp only [Same.lit]; with_reducible refine SameLit.of hm ?_ ?_)
    | (refine fun (p : Part) (hp : Nat.testBit _ (Part.ix p) = false) => ?_; cases p <;> first | exact absurd hp (by decide) | (simp only [Part.same, and_self]; done))
    | (extract_lets +onlyGivenNames x
       first
       | (refine Same.cut (m := m) (r := r) (x := x) ?_ ?_ <;> first | (clear_value x; intro hx) | subst x)
       | subst x)
    | split
    | dsimp only
    | (with_reducible intro s1 h1; dsimp only)
    | with_reducible intro s1 h1)

theorem execUserProgram_same {m : Nat} {r s : State} (hm : m &&& 131370 = 0) (h : Same m r s) (t : Nat) (c : Nat)
    (data : List Byte) :
    SameO m r (execUserProgram t c data s) := by
  unfold execUserProgram
  repeat' (first
    | with_reducible
        first
        | assumption | apply SameE.ok | apply SameE.error | apply SameO.next
        | apply State.hostWrite_same (mask_sub hm rfl) | apply State.at_same (mask_sub hm rfl)
        | apply userProgram_same (mask_sub hm rfl) | refine Same.ofE ‹_ = Except.ok _› ?_
    | (with_reducible intro s1 h1; dsimp only)
    | with_reducible intro s1 h1)

end Sys2Proof.Machine
end

