-- ==== Sys2Proof/Laws/SameSweep.lean ====
section
/-! SUPPORT. Which parts each function of the model leaves as they were:
sweeps, boundaries, memory errors and the object dictionary. -/

namespace Sys2Proof.Machine

open Sys2Proof

set_option linter.unusedSimpArgs false
set_option linter.unusedVariables false

/-! ## Sweep -/

theorem State.setFlight_same {m : Nat} {r s : State} (hm : m &&& 2048 = 0) (h : Same m r s) (n : Nat) (f : Flight → Flight) :
    Same m r (State.setFlight s n f) := by
  unfold State.setFlight
  repeat' (first
    | with_reducible first | assumption | apply Same.ite
    | (simp only [Same.lit]; with_reducible refine SameLit.of hm ?_ ?_)
    | (refine fun (p : Part) (hp : Nat.testBit _ (Part.ix p) = false) => ?_; cases p <;> first | exact absurd hp (by decide) | (simp only [Part.same, and_self]; done))
    | (extract_lets +onlyGivenNames x
       first
       | (refine Same.cut (m := m) (r := r) (x := x) ?_ ?_ <;> first | (clear_value x; intro hx) | subst x)
       | subst x)
    | split
    | dsimp only)

theorem State.playNothing_same {m : Nat} {r s : State} (hm : m &&& 2048 = 0) (h : Same m r s) :
    Same m r (State.playNothing s) := by
  unfold State.playNothing
  repeat' (first
    | with_reducible first | assumption | refine Same.snd ‹_ = (_, _)› ?_
    | (simp only [Same.lit]; with_reducible refine SameLit.of hm ?_ ?_)
    | (refine fun (p : Part) (hp : Nat.testBit _ (Part.ix p) = false) => ?_; cases p <;> first | exact absurd hp (by decide) | (simp only [Part.same, and_self]; done))
    | (extract_lets +onlyGivenNames x
       first
       | (refine Same.cut (m := m) (r := r) (x := x) ?_ ?_ <;> first | (clear_value x; intro hx) | subst x)
       | subst x)
    | split
    | dsimp only)

theorem State.suppress_same {m : Nat} {r s : State} (hm : m &&& 68104 = 0) (h : Same m r s) (f : Flight) (slot : Nat) :
    Same m r (State.suppress s f slot) := by
  unfold State.suppress
  repeat' (first
    | with_reducible
        first
        | assumption | apply State.setFlight_same (mask_sub hm rfl) | apply State.countAt_same (mask_sub hm rfl)
        | apply State.bump_same (mask_sub hm rfl) | apply State.eccLost_same (mask_sub hm rfl)
        | apply State.cause_same (mask_sub hm rfl) | apply State.playNothing_same (mask_sub hm rfl)
        | refine Same.foldl (fun _ _ _ => ?_) _ ?_
    | (simp only [Same.lit]; with_reducible refine SameLit.of hm ?_ ?_)
    | (refine fun (p : Part) (hp : Nat.testBit _ (Part.ix p) = false) => ?_; cases p <;> first | exact absurd hp (by decide) | (simp only [Part.same, and_self]; done))
    | (extract_lets +onlyGivenNames x
       first
       | (refine Same.cut (m := m) (r := r) (x := x) ?_ ?_ <;> first | (clear_value x; intro hx) | subst x)
       | subst x)
    | split
    | dsimp only
    | (with_reducible intro s1 h1; dsimp only)
    | with_reducible intro s1 h1)

theorem State.playWave_same {m : Nat} {r s : State} (hm : m &&& 134223872 = 0) (h : Same m r s) (f : Flight) (slot : Nat) :
    Same m r (State.playWave s f slot) := by
  unfold State.playWave
  repeat' (first
    | with_reducible
        first
        | assumption | apply Same.ite | apply State.noteEmission_same (mask_sub hm rfl)
        | apply State.setPort_same (mask_sub hm rfl) | apply Same.ite_snd | refine Same.foldl (fun _ _ _ => ?_) _ ?_
        | refine Same.snd ‹_ = (_, _)› ?_
    | (simp only [Same.lit]; with_reducible refine SameLit.of hm ?_ ?_)
    | (refine fun (p : Part) (hp : Nat.testBit _ (Part.ix p) = false) => ?_; cases p <;> first | exact absurd hp (by decide) | (simp only [Part.same, and_self]; done))
    | (extract_lets +onlyGivenNames x
       first
       | (refine Same.cut (m := m) (r := r) (x := x) ?_ ?_ <;> first | (clear_value x; intro hx) | subst x)
       | subst x)
    | split
    | dsimp only
    | (with_reducible intro s1 h1; dsimp only)
    | with_reducible intro s1 h1)

theorem State.fireSlot_same {m : Nat} {r s : State} (hm : m &&& 134568456 = 0) (h : Same m r s) (f : Flight)
    (slot : Nat) (corrected : Nat) (bad : Bool) :
    Same m r (State.fireSlot s f slot corrected bad) := by
  unfold State.fireSlot
  repeat' (first
    | with_reducible
        first
        | assumption | apply Same.ite | apply State.setFlight_same (mask_sub hm rfl)
        | apply State.count_same (mask_sub hm rfl) | apply State.suppress_same (mask_sub hm rfl)
        | apply State.playWave_same (mask_sub hm rfl) | apply State.pulse_same (mask_sub hm rfl)
        | apply State.openTicks_same (mask_sub hm rfl)
    | (extract_lets +onlyGivenNames x
       first
       | (refine Same.cut (m := m) (r := r) (x := x) ?_ ?_ <;> first | (clear_value x; intro hx) | subst x)
       | subst x)
    | split
    | dsimp only)

theorem execSlotFiring_same {m : Nat} {r s : State} (hm : m &&& 134568458 = 0) (h : Same m r s) (slot : Nat)
    (corrected : Nat) (bad : Bool) (raman : List (List Nat)) :
    SameO m r (execSlotFiring slot corrected bad raman s) := by
  unfold execSlotFiring
  repeat' (first
    | with_reducible
        first
        | assumption | apply Same.ite | apply SameO.ite | apply SameO.next
        | apply State.fireSlot_same (mask_sub hm rfl) | apply State.settleShots_same (mask_sub hm rfl)
        | apply State.at_same (mask_sub hm rfl) | apply State.dtsShot_same (mask_sub hm rfl)
    | (extract_lets +onlyGivenNames x
       first
       | (refine Same.cut (m := m) (r := r) (x := x) ?_ ?_ <;> first | (clear_value x; intro hx) | subst x)
       | subst x)
    | split
    | dsimp only)

theorem State.latchOptics_same {m : Nat} {r s : State} (hm : m &&& 4108 = 0) (h : Same m r s) (p : Nat) :
    Same m r (State.latchOptics s p) := by
  unfold State.latchOptics
  repeat' (first
    | with_reducible
        first
        | assumption | apply Same.ite | apply State.draw_same (mask_sub hm rfl)
        | apply State.os_same (mask_sub hm rfl) | apply State.osI_same (mask_sub hm rfl)
        | apply State.setPort_same (mask_sub hm rfl) | apply Same.ite_snd | refine Same.snd ‹_ = (_, _)› ?_
    | (extract_lets +onlyGivenNames x
       first
       | (refine Same.cut (m := m) (r := r) (x := x) ?_ ?_ <;> first | (clear_value x; intro hx) | subst x)
       | subst x)
    | split
    | dsimp only)

theorem State.latchFrame_same {m : Nat} {r s : State} (hm : m &&& 2365468 = 0) (h : Same m r s) (fr : Frame) :
    Same m r (State.latchFrame s fr) := by
  unfold State.latchFrame
  repeat' (first
    | with_reducible
        first
        | assumption | apply State.countOwed_same (mask_sub hm rfl) | apply State.ds_same (mask_sub hm rfl)
        | apply State.os_same (mask_sub hm rfl) | apply State.latchOptics_same (mask_sub hm rfl)
        | apply State.pulse_same (mask_sub hm rfl) | apply State.offer_same (mask_sub hm rfl)
        | refine Same.foldl (fun _ _ _ => ?_) _ ?_ | refine Same.snd ‹_ = (_, _)› ?_
    | (simp only [Same.lit]; with_reducible refine SameLit.of hm ?_ ?_)
    | (refine fun (p : Part) (hp : Nat.testBit _ (Part.ix p) = false) => ?_; cases p <;> first | exact absurd hp (by decide) | (simp only [Part.same, and_self]; done))
    | (extract_lets +onlyGivenNames x
       first
       | (refine Same.cut (m := m) (r := r) (x := x) ?_ ?_ <;> first | (clear_value x; intro hx) | subst x)
       | subst x)
    | split
    | dsimp only
    | (with_reducible intro s1 h1; dsimp only)
    | with_reducible intro s1 h1)

theorem State.beginFrame_same {m : Nat} {r s : State} (hm : m &&& 2056 = 0) (h : Same m r s) (pl : Plan) (n : Nat) :
    Same m r (State.beginFrame s pl n) := by
  unfold State.beginFrame
  repeat' (first
    | with_reducible first | assumption | apply State.os_same (mask_sub hm rfl)
    | (simp only [Same.lit]; with_reducible refine SameLit.of hm ?_ ?_)
    | (refine fun (p : Part) (hp : Nat.testBit _ (Part.ix p) = false) => ?_; cases p <;> first | exact absurd hp (by decide) | (simp only [Part.same, and_self]; done))
    | (extract_lets +onlyGivenNames x
       first
       | (refine Same.cut (m := m) (r := r) (x := x) ?_ ?_ <;> first | (clear_value x; intro hx) | subst x)
       | subst x)
    | split
    | dsimp only)

theorem State.joinFrame_same {m : Nat} {r s : State} (hm : m &&& 2056 = 0) (h : Same m r s) (pl : Plan) (n : Nat) :
    Same m r (State.joinFrame s pl n) := by
  unfold State.joinFrame
  repeat' (first
    | with_reducible first | assumption | apply Same.ite | apply State.beginFrame_same (mask_sub hm rfl)
    | (simp only [Same.lit]; with_reducible refine SameLit.of hm ?_ ?_)
    | (refine fun (p : Part) (hp : Nat.testBit _ (Part.ix p) = false) => ?_; cases p <;> first | exact absurd hp (by decide) | (simp only [Part.same, and_self]; done))
    | (extract_lets +onlyGivenNames x
       first
       | (refine Same.cut (m := m) (r := r) (x := x) ?_ ?_ <;> first | (clear_value x; intro hx) | subst x)
       | subst x)
    | split
    | dsimp only)

theorem State.closeFrame_same {m : Nat} {r s : State} (hm : m &&& 2365468 = 0) (h : Same m r s) :
    Same m r (State.closeFrame s) := by
  unfold State.closeFrame
  repeat' (first
    | with_reducible
        first
        | assumption | apply Same.ite | apply State.latchFrame_same (mask_sub hm rfl) | apply Same.ite_snd
        | refine Same.snd ‹_ = (_, _)› ?_
    | (simp only [Same.lit]; with_reducible refine SameLit.of hm ?_ ?_)
    | (refine fun (p : Part) (hp : Nat.testBit _ (Part.ix p) = false) => ?_; cases p <;> first | exact absurd hp (by decide) | (simp only [Part.same, and_self]; done))
    | (extract_lets +onlyGivenNames x
       first
       | (refine Same.cut (m := m) (r := r) (x := x) ?_ ?_ <;> first | (clear_value x; intro hx) | subst x)
       | subst x)
    | split
    | dsimp only)

theorem State.pruneSpans_same {m : Nat} {r s : State} (hm : m &&& 69632 = 0) (h : Same m r s) :
    Same m r (State.pruneSpans s) := by
  unfold State.pruneSpans
  repeat' (first
    | with_reducible first | assumption | refine Same.foldl (fun _ _ _ => ?_) _ ?_
    | (simp only [Same.lit]; with_reducible refine SameLit.of hm ?_ ?_)
    | (refine fun (p : Part) (hp : Nat.testBit _ (Part.ix p) = false) => ?_; cases p <;> first | exact absurd hp (by decide) | (simp only [Part.same, and_self]; done))
    | (extract_lets +onlyGivenNames x
       first
       | (refine Same.cut (m := m) (r := r) (x := x) ?_ ?_ <;> first | (clear_value x; intro hx) | subst x)
       | subst x)
    | split
    | dsimp only
    | (with_reducible intro s1 h1; dsimp only)
    | with_reducible intro s1 h1)

theorem State.complete_same {m : Nat} {r s : State} (hm : m &&& 10876956 = 0) (h : Same m r s) (f : Flight) :
    Same m r (State.complete s f) := by
  unfold State.complete
  repeat' (first
    | with_reducible
        first
        | assumption | apply State.dasComplete_same (mask_sub hm rfl) | apply State.cornerTurn_same (mask_sub hm rfl)
        | apply State.oweUpdates_same (mask_sub hm rfl) | apply State.settleShots_same (mask_sub hm rfl)
        | apply State.popSettle_same (mask_sub hm rfl) | apply State.pruneSpans_same (mask_sub hm rfl)
        | apply State.latchFrame_same (mask_sub hm rfl) | refine Same.foldl (fun _ _ _ => ?_) _ ?_
        | refine Same.snd ‹_ = (_, _)› ?_
    | (simp only [Same.lit]; with_reducible refine SameLit.of hm ?_ ?_)
    | (refine fun (p : Part) (hp : Nat.testBit _ (Part.ix p) = false) => ?_; cases p <;> first | exact absurd hp (by decide) | (simp only [Part.same, and_self]; done))
    | (extract_lets +onlyGivenNames x
       first
       | (refine Same.cut (m := m) (r := r) (x := x) ?_ ?_ <;> first | (clear_value x; intro hx) | subst x)
       | subst x)
    | split
    | dsimp only
    | (with_reducible intro s1 h1; dsimp only)
    | with_reducible intro s1 h1)

theorem execSweepCompletion_same {m : Nat} {r s : State} (hm : m &&& 10876958 = 0) (h : Same m r s) (t : Nat) :
    SameO m r (execSweepCompletion t s) := by
  unfold execSweepCompletion
  repeat' (first
    | with_reducible
        first
        | assumption | apply Same.ite | apply SameO.ite | apply SameO.next | apply State.at_same (mask_sub hm rfl)
        | apply State.complete_same (mask_sub hm rfl)
    | (extract_lets +onlyGivenNames x
       first
       | (refine Same.cut (m := m) (r := r) (x := x) ?_ ?_ <;> first | (clear_value x; intro hx) | subst x)
       | subst x)
    | split
    | dsimp only)

/-! ## Boundary -/

theorem State.failEngine_same {m : Nat} {r s : State} (hm : m &&& 131080 = 0) (h : Same m r s) (e : Nat) :
    Same m r (State.failEngine s e) := by
  unfold State.failEngine
  repeat' (first
    | with_reducible
        first
        | assumption | apply State.setEngine_same (mask_sub hm rfl) | apply State.bump_same (mask_sub hm rfl)
        | apply State.os_same (mask_sub hm rfl) | apply State.osBit_same (mask_sub hm rfl)
    | (extract_lets +onlyGivenNames x
       first
       | (refine Same.cut (m := m) (r := r) (x := x) ?_ ?_ <;> first | (clear_value x; intro hx) | subst x)
       | subst x)
    | split
    | dsimp only)

theorem State.failEngines_same {m : Nat} {r s : State} (hm : m &&& 2156008488 = 0) (h : Same m r s) :
    Same m r (State.failEngines s) := by
  unfold State.failEngines
  repeat' (first
    | with_reducible
        first
        | assumption | apply Same.ite | apply State.failEngine_same (mask_sub hm rfl)
        | apply State.setPower_same (mask_sub hm rfl) | apply State.loseChain_same (mask_sub hm rfl)
        | apply State.dropSwitch_same (mask_sub hm rfl) | refine Same.foldl (fun _ _ _ => ?_) _ ?_
    | (extract_lets +onlyGivenNames x
       first
       | (refine Same.cut (m := m) (r := r) (x := x) ?_ ?_ <;> first | (clear_value x; intro hx) | subst x)
       | subst x)
    | split
    | dsimp only
    | (with_reducible intro s1 h1; dsimp only)
    | with_reducible intro s1 h1)

theorem State.postEngines_same {m : Nat} {r s : State} (hm : m &&& 2362120 = 0) (h : Same m r s) (n : Nat) (l : List
    (Nat × Nat × Nat)) :
    Same m r (State.postEngines s n l) := by
  unfold State.postEngines
  repeat' (first
    | with_reducible
        first
        | assumption | apply State.event_same (mask_sub hm rfl) | apply State.log_same (mask_sub hm rfl)
        | apply State.emcy_same (mask_sub hm rfl) | refine Same.foldl (fun _ _ _ => ?_) _ ?_
    | (extract_lets +onlyGivenNames x
       first
       | (refine Same.cut (m := m) (r := r) (x := x) ?_ ?_ <;> first | (clear_value x; intro hx) | subst x)
       | subst x)
    | split
    | dsimp only
    | (with_reducible intro s1 h1; dsimp only)
    | with_reducible intro s1 h1)

theorem State.chargeSweep_same {m : Nat} {r s : State} (hm : m &&& 520 = 0) (h : Same m r s) :
    Same m r (State.chargeSweep s) := by
  unfold State.chargeSweep
  repeat' (first
    | with_reducible
        first
        | assumption | apply Same.ite | apply State.cause_same (mask_sub hm rfl)
        | apply State.outages_same (mask_sub hm rfl) | apply State.account_same (mask_sub hm rfl)
        | apply State.setMg_same (mask_sub hm rfl) | refine Same.foldl (fun _ _ _ => ?_) _ ?_
    | (extract_lets +onlyGivenNames x
       first
       | (refine Same.cut (m := m) (r := r) (x := x) ?_ ?_ <;> first | (clear_value x; intro hx) | subst x)
       | subst x)
    | split
    | dsimp only
    | (with_reducible intro s1 h1; dsimp only)
    | with_reducible intro s1 h1)

theorem State.rearm_same {m : Nat} {r s : State} (hm : m &&& 4096 = 0) (h : Same m r s) (p : Nat) :
    Same m r (State.rearm s p) := by
  unfold State.rearm
  repeat' (first
    | with_reducible
        first
        | assumption | apply Same.ite | apply State.setPort_same (mask_sub hm rfl) | apply Same.ite_snd
        | refine Same.snd ‹_ = (_, _)› ?_
    | split
    | dsimp only)

theorem State.enableSlots_same {m : Nat} {r s : State} (hm : m &&& 8519688 = 0) (h : Same m r s) (pl : Plan) (v : Nat) :
    Same m r (State.enableSlots s pl v) := by
  unfold State.enableSlots
  repeat' (first
    | with_reducible
        first
        | assumption | apply State.hzWrite_same (mask_sub hm rfl) | apply State.osBit_same (mask_sub hm rfl)
        | apply State.os_same (mask_sub hm rfl) | refine Same.foldl (fun _ _ _ => ?_) _ ?_
    | (extract_lets +onlyGivenNames x
       first
       | (refine Same.cut (m := m) (r := r) (x := x) ?_ ?_ <;> first | (clear_value x; intro hx) | subst x)
       | subst x)
    | split
    | dsimp only
    | (with_reducible intro s1 h1; dsimp only)
    | with_reducible intro s1 h1)

theorem State.transfer_same {m : Nat} {r s : State} (hm : m &&& 8556568 = 0) (h : Same m r s) (pl : Plan) (n : Nat)
    (w : ShadowWrite) :
    Same m r (State.transfer s pl n w) := by
  unfold State.transfer
  repeat' (first
    | with_reducible
        first
        | assumption | apply Same.ite | apply State.poppyTransfer_same (mask_sub hm rfl)
        | apply State.thresholdTransfer_same (mask_sub hm rfl) | apply State.enableSlots_same (mask_sub hm rfl)
        | apply State.ds_same (mask_sub hm rfl) | apply State.rearm_same (mask_sub hm rfl)
        | apply State.os_same (mask_sub hm rfl))

theorem State.transfers_same {m : Nat} {r s : State} (hm : m &&& 8557592 = 0) (h : Same m r s) (pl : Plan) (n : Nat) :
    Same m r (State.transfers s pl n).2 := by
  unfold State.transfers
  repeat' (first
    | with_reducible
        first
        | assumption | apply State.setLad_same (mask_sub hm rfl) | apply State.transfer_same (mask_sub hm rfl)
        | refine Same.foldl (fun _ _ _ => ?_) _ ?_ | refine Same.snd ‹_ = (_, _)› ?_
    | (extract_lets +onlyGivenNames x
       first
       | (refine Same.cut (m := m) (r := r) (x := x) ?_ ?_ <;> first | (clear_value x; intro hx) | subst x)
       | subst x)
    | split
    | dsimp only
    | (with_reducible intro s1 h1; dsimp only)
    | with_reducible intro s1 h1)

theorem State.takePort_same {m : Nat} {r s : State} (hm : m &&& 8556568 = 0) (h : Same m r s) (pl : Plan) (n : Nat)
    (p : Nat) :
    Same m r (State.takePort s pl n p) := by
  unfold State.takePort
  repeat' (first
    | with_reducible
        first
        | assumption | apply Same.ite | apply State.os_same (mask_sub hm rfl)
        | apply State.transfer_same (mask_sub hm rfl) | refine Same.foldl (fun _ _ _ => ?_) _ ?_
    | (extract_lets +onlyGivenNames x
       first
       | (refine Same.cut (m := m) (r := r) (x := x) ?_ ?_ <;> first | (clear_value x; intro hx) | subst x)
       | subst x)
    | split
    | dsimp only
    | (with_reducible intro s1 h1; dsimp only)
    | with_reducible intro s1 h1)

theorem State.slotsTake_same {m : Nat} {r s : State} (hm : m &&& 2361352 = 0) (h : Same m r s) (old : Option Plan)
    (pl : Plan) :
    Same m r (State.slotsTake s old pl) := by
  unfold State.slotsTake
  repeat' (first
    | with_reducible
        first
        | assumption | apply Same.ite | apply State.event_same (mask_sub hm rfl)
        | apply State.osBit_same (mask_sub hm rfl) | refine Same.foldl (fun _ _ _ => ?_) _ ?_
    | (extract_lets +onlyGivenNames x
       first
       | (refine Same.cut (m := m) (r := r) (x := x) ?_ ?_ <;> first | (clear_value x; intro hx) | subst x)
       | subst x)
    | split
    | dsimp only
    | (with_reducible intro s1 h1; dsimp only)
    | with_reducible intro s1 h1)

theorem State.portsTake_same {m : Nat} {r s : State} (hm : m &&& 4104 = 0) (h : Same m r s) (before : Option Plan)
    (pl : Plan) :
    Same m r (State.portsTake s before pl) := by
  unfold State.portsTake
  repeat' (first
    | with_reducible
        first
        | assumption | apply Same.ite | apply State.setPort_same (mask_sub hm rfl)
        | apply State.os_same (mask_sub hm rfl) | refine Same.foldl (fun _ _ _ => ?_) _ ?_
    | (with_reducible intro s1 h1; dsimp only)
    | with_reducible intro s1 h1)

theorem State.take_same {m : Nat} {r s : State} (hm : m &&& 548331036 = 0) (h : Same m r s) (r' : Nat) (pl : Plan)
    (n : Nat) (entry : Bool) (late : Bool) :
    Same m r (State.take s r' pl n entry late) := by
  unfold State.take
  repeat' (first
    | with_reducible
        first
        | assumption | apply Same.ite | apply State.loadHalf_same (mask_sub hm rfl)
        | apply State.setLad_same (mask_sub hm rfl) | apply State.showRungs_same (mask_sub hm rfl)
        | apply State.os_same (mask_sub hm rfl) | apply State.pulse_same (mask_sub hm rfl)
        | apply State.event_same (mask_sub hm rfl) | apply State.log_same (mask_sub hm rfl)
        | apply State.releaseRegions_same (mask_sub hm rfl) | apply State.ownBanks_same (mask_sub hm rfl)
        | apply State.queuesTake_same (mask_sub hm rfl) | apply State.seqTake_same (mask_sub hm rfl)
        | apply State.capturesTake_same (mask_sub hm rfl) | apply State.zonesTake_same (mask_sub hm rfl)
        | apply State.portsTake_same (mask_sub hm rfl) | apply State.slotsTake_same (mask_sub hm rfl)
        | apply State.chainReset_same (mask_sub hm rfl) | apply State.mapChange_same (mask_sub hm rfl)
        | apply State.poppyTake_same (mask_sub hm rfl) | apply State.takePort_same (mask_sub hm rfl)
        | apply Same.ite_snd | refine Same.foldl (fun _ _ _ => ?_) _ ?_ | refine Same.snd ‹_ = (_, _)› ?_
    | (simp only [Same.lit]; with_reducible refine SameLit.of hm ?_ ?_)
    | (refine fun (p : Part) (hp : Nat.testBit _ (Part.ix p) = false) => ?_; cases p <;> first | exact absurd hp (by decide) | (simp only [Part.same, and_self]; done))
    | (extract_lets +onlyGivenNames x
       first
       | (refine Same.cut (m := m) (r := r) (x := x) ?_ ?_ <;> first | (clear_value x; intro hx) | subst x)
       | subst x)
    | split
    | dsimp only
    | (with_reducible intro s1 h1; dsimp only)
    | with_reducible intro s1 h1)

theorem State.tookSwitch_same {m : Nat} {r s : State} (hm : m &&& 2147484712 = 0) (h : Same m r s) (w : Switch)
    (n : Nat) (late : Bool) :
    Same m r (State.tookSwitch s w n late) := by
  unfold State.tookSwitch
  repeat' (first
    | with_reducible
        first
        | assumption | apply Same.ite | apply State.setLad_same (mask_sub hm rfl)
        | apply State.os_same (mask_sub hm rfl) | apply State.report_same (mask_sub hm rfl)
    | (extract_lets +onlyGivenNames x
       first
       | (refine Same.cut (m := m) (r := r) (x := x) ?_ ?_ <;> first | (clear_value x; intro hx) | subst x)
       | subst x)
    | split
    | dsimp only)

theorem State.judgeBias_same {m : Nat} {r s : State} (hm : m &&& 4104 = 0) (h : Same m r s) :
    Same m r (State.judgeBias s) := by
  unfold State.judgeBias
  repeat' (first
    | with_reducible
        first
        | assumption | apply Same.ite | apply State.setPort_same (mask_sub hm rfl)
        | apply State.showOptics_same (mask_sub hm rfl) | apply Same.ite_snd
        | refine Same.foldl (fun _ _ _ => ?_) _ ?_ | refine Same.snd ‹_ = (_, _)› ?_
    | (extract_lets +onlyGivenNames x
       first
       | (refine Same.cut (m := m) (r := r) (x := x) ?_ ?_ <;> first | (clear_value x; intro hx) | subst x)
       | subst x)
    | split
    | dsimp only
    | (with_reducible intro s1 h1; dsimp only)
    | with_reducible intro s1 h1)

theorem State.stampNow_same {m : Nat} {r s : State} (hm : m &&& 4 = 0) (h : Same m r s) :
    Same m r (State.stampNow s).2 := by
  unfold State.stampNow
  repeat' (first
    | with_reducible first | assumption | apply State.draw_same (mask_sub hm rfl) | refine Same.snd ‹_ = (_, _)› ?_
    | (extract_lets +onlyGivenNames x
       first
       | (refine Same.cut (m := m) (r := r) (x := x) ?_ ?_ <;> first | (clear_value x; intro hx) | subst x)
       | subst x)
    | split
    | dsimp only)

theorem State.openBoundary_same {m : Nat} {r s : State} (hm : m &&& 2060 = 0) (h : Same m r s) (pl : Plan) (n : Nat) :
    Same m r (State.openBoundary s pl n) := by
  unfold State.openBoundary
  repeat' (first
    | with_reducible
        first
        | assumption | apply State.stampNow_same (mask_sub hm rfl) | apply State.joinFrame_same (mask_sub hm rfl)
        | refine Same.snd ‹_ = (_, _)› ?_
    | (simp only [Same.lit]; with_reducible refine SameLit.of hm ?_ ?_)
    | (refine fun (p : Part) (hp : Nat.testBit _ (Part.ix p) = false) => ?_; cases p <;> first | exact absurd hp (by decide) | (simp only [Part.same, and_self]; done))
    | (extract_lets +onlyGivenNames x
       first
       | (refine Same.cut (m := m) (r := r) (x := x) ?_ ?_ <;> first | (clear_value x; intro hx) | subst x)
       | subst x)
    | split
    | dsimp only)

theorem State.periodsAt_same {m : Nat} {r s : State} (hm : m &&& 329736 = 0) (h : Same m r s) (f : Flight) (taken : Bool) :
    Same m r (State.periodsAt s f taken) := by
  unfold State.periodsAt
  repeat' (first
    | with_reducible
        first
        | assumption | apply Same.ite | apply State.pulse_same (mask_sub hm rfl)
        | apply State.endPeriod_same (mask_sub hm rfl) | apply State.beginPeriod_same (mask_sub hm rfl)
    | (simp only [Same.lit]; with_reducible refine SameLit.of hm ?_ ?_)
    | (refine fun (p : Part) (hp : Nat.testBit _ (Part.ix p) = false) => ?_; cases p <;> first | exact absurd hp (by decide) | (simp only [Part.same, and_self]; done))
    | (extract_lets +onlyGivenNames x
       first
       | (refine Same.cut (m := m) (r := r) (x := x) ?_ ?_ <;> first | (clear_value x; intro hx) | subst x)
       | subst x)
    | split
    | dsimp only)

theorem State.beginSweep_same {m : Nat} {r s : State} (hm : m &&& 2827484728 = 0) (h : Same m r s) (r' : Nat)
    (pl : Plan) (n : Nat) (taken : Bool) (late : Bool) :
    Same m r (State.beginSweep s r' pl n taken late) := by
  unfold State.beginSweep
  repeat' (first
    | with_reducible
        first
        | assumption | apply Same.ite | apply State.transfers_same (mask_sub hm rfl)
        | apply State.judgeBias_same (mask_sub hm rfl) | apply State.periodsAt_same (mask_sub hm rfl)
        | apply State.setPeriod_same (mask_sub hm rfl) | apply State.burstBoundary_same (mask_sub hm rfl)
        | apply State.os_same (mask_sub hm rfl) | apply State.cause_same (mask_sub hm rfl)
        | apply State.setPod_same (mask_sub hm rfl) | apply State.pulse_same (mask_sub hm rfl)
        | apply State.sendBoundary_same (mask_sub hm rfl) | apply State.countMismatch_same (mask_sub hm rfl)
        | apply State.releaseBanks_same (mask_sub hm rfl) | apply State.fireSlot_same (mask_sub hm rfl)
        | apply Same.ite_snd | refine Same.foldl (fun _ _ _ => ?_) _ ?_ | refine Same.snd ‹_ = (_, _)› ?_
    | (simp only [Same.lit]; with_reducible refine SameLit.of hm ?_ ?_)
    | (refine fun (p : Part) (hp : Nat.testBit _ (Part.ix p) = false) => ?_; cases p <;> first | exact absurd hp (by decide) | (simp only [Part.same, and_self]; done))
    | (extract_lets +onlyGivenNames x
       first
       | (refine Same.cut (m := m) (r := r) (x := x) ?_ ?_ <;> first | (clear_value x; intro hx) | subst x)
       | subst x)
    | split
    | dsimp only
    | (with_reducible intro s1 h1; dsimp only)
    | with_reducible intro s1 h1)

theorem State.stopSensing_same {m : Nat} {r s : State} (hm : m &&& 2965150 = 0) (h : Same m r s) :
    Same m r (State.stopSensing s) := by
  unfold State.stopSensing
  repeat' (first
    | with_reducible
        first
        | assumption | apply Same.ite | apply State.pulse_same (mask_sub hm rfl)
        | apply State.endPeriod_same (mask_sub hm rfl) | apply State.zonesStop_same (mask_sub hm rfl)
        | apply State.capturesStop_same (mask_sub hm rfl) | apply State.closeFrame_same (mask_sub hm rfl)
        | apply State.os_same (mask_sub hm rfl) | apply State.burstsStop_same (mask_sub hm rfl)
        | apply State.playNothing_same (mask_sub hm rfl) | apply State.setLad_same (mask_sub hm rfl)
        | apply State.showOptics_same (mask_sub hm rfl) | apply State.setPw_same (mask_sub hm rfl)
        | apply State.enterPower_same (mask_sub hm rfl) | refine Same.foldl (fun _ _ _ => ?_) _ ?_
    | (simp only [Same.lit]; with_reducible refine SameLit.of hm ?_ ?_)
    | (refine fun (p : Part) (hp : Nat.testBit _ (Part.ix p) = false) => ?_; cases p <;> first | exact absurd hp (by decide) | (simp only [Part.same, and_self]; done))
    | (extract_lets +onlyGivenNames x
       first
       | (refine Same.cut (m := m) (r := r) (x := x) ?_ ?_ <;> first | (clear_value x; intro hx) | subst x)
       | subst x)
    | split
    | dsimp only
    | (with_reducible intro s1 h1; dsimp only)
    | with_reducible intro s1 h1)

theorem State.stopBoundary_same {m : Nat} {r s : State} (hm : m &&& 2965150 = 0) (h : Same m r s) :
    Same m r (State.stopBoundary s) := by
  unfold State.stopBoundary
  repeat' (first
    | with_reducible
        first
        | assumption | apply Same.ite | apply State.stopSensing_same (mask_sub hm rfl)
        | apply State.chargeSweep_same (mask_sub hm rfl) | apply State.chargeTo_same (mask_sub hm rfl)
    | (extract_lets +onlyGivenNames x
       first
       | (refine Same.cut (m := m) (r := r) (x := x) ?_ ?_ <;> first | (clear_value x; intro hx) | subst x)
       | subst x)
    | split
    | dsimp only)

theorem State.healthStop_same {m : Nat} {r s : State} (hm : m &&& 2965406 = 0) (h : Same m r s) :
    Same m r (State.healthStop s) := by
  unfold State.healthStop
  repeat' (first
    | with_reducible
        first
        | assumption | apply State.chargeTo_same (mask_sub hm rfl) | apply State.stopSensing_same (mask_sub hm rfl)
        | apply State.emcy_same (mask_sub hm rfl) | apply State.setPw_same (mask_sub hm rfl)
    | (extract_lets +onlyGivenNames x
       first
       | (refine Same.cut (m := m) (r := r) (x := x) ?_ ?_ <;> first | (clear_value x; intro hx) | subst x)
       | subst x)
    | split
    | dsimp only)

theorem State.hold_same {m : Nat} {r s : State} (hm : m &&& 2048 = 0) (h : Same m r s) (x : Nat) (k : Nat) :
    Same m r (State.hold s x k) := by
  unfold State.hold
  repeat' (first
    | with_reducible first | assumption | refine Same.snd ‹_ = (_, _)› ?_
    | (simp only [Same.lit]; with_reducible refine SameLit.of hm ?_ ?_)
    | (refine fun (p : Part) (hp : Nat.testBit _ (Part.ix p) = false) => ?_; cases p <;> first | exact absurd hp (by decide) | (simp only [Part.same, and_self]; done))
    | (extract_lets +onlyGivenNames x
       first
       | (refine Same.cut (m := m) (r := r) (x := x) ?_ ?_ <;> first | (clear_value x; intro hx) | subst x)
       | subst x)
    | split
    | dsimp only)

theorem State.setSchedule_same {m : Nat} {r s : State} (hm : m &&& 19464 = 0) (h : Same m r s) (pl : Plan) (i : Nat) :
    Same m r (State.setSchedule s pl i) := by
  unfold State.setSchedule
  repeat' (first
    | with_reducible
        first
        | assumption | apply Same.ite | apply State.setLad_same (mask_sub hm rfl)
        | apply State.markLost_same (mask_sub hm rfl) | apply State.os_same (mask_sub hm rfl)
        | refine Same.foldl (fun _ _ _ => ?_) _ ?_
    | (simp only [Same.lit]; with_reducible refine SameLit.of hm ?_ ?_)
    | (refine fun (p : Part) (hp : Nat.testBit _ (Part.ix p) = false) => ?_; cases p <;> first | exact absurd hp (by decide) | (simp only [Part.same, and_self]; done))
    | (extract_lets +onlyGivenNames x
       first
       | (refine Same.cut (m := m) (r := r) (x := x) ?_ ?_ <;> first | (clear_value x; intro hx) | subst x)
       | subst x)
    | split
    | dsimp only
    | (with_reducible intro s1 h1; dsimp only)
    | with_reducible intro s1 h1)

theorem State.dropFaulted_same {m : Nat} {r s : State} (hm : m &&& 131080 = 0) (h : Same m r s) :
    Same m r (State.dropFaulted s) := by
  unfold State.dropFaulted
  repeat' (first
    | with_reducible
        first
        | assumption | apply State.osBit_same (mask_sub hm rfl) | refine Same.foldl (fun _ _ _ => ?_) _ ?_
    | (simp only [Same.lit]; with_reducible refine SameLit.of hm ?_ ?_)
    | (refine fun (p : Part) (hp : Nat.testBit _ (Part.ix p) = false) => ?_; cases p <;> first | exact absurd hp (by decide) | (simp only [Part.same, and_self]; done))
    | (extract_lets +onlyGivenNames x
       first
       | (refine Same.cut (m := m) (r := r) (x := x) ?_ ?_ <;> first | (clear_value x; intro hx) | subst x)
       | subst x)
    | split
    | dsimp only
    | (with_reducible intro s1 h1; dsimp only)
    | with_reducible intro s1 h1)

theorem State.sweepOn_same {m : Nat} {r s : State} (hm : m &&& 2830106558 = 0) (h : Same m r s) (n : Nat) (l : List
    (Nat × Nat × Nat)) :
    Same m r (State.sweepOn s n l) := by
  unfold State.sweepOn
  repeat' (first
    | with_reducible
        first
        | assumption | apply Same.ite | apply SameP.some | exact SameP.none | apply Same.getD
        | apply State.healthStop_same (mask_sub hm rfl) | apply State.postEngines_same (mask_sub hm rfl)
        | apply State.openBoundary_same (mask_sub hm rfl) | apply State.reservePlan_same (mask_sub hm rfl)
        | apply State.take_same (mask_sub hm rfl) | apply State.setLad_same (mask_sub hm rfl)
        | apply State.beginSweep_same (mask_sub hm rfl) | apply State.tookSwitch_same (mask_sub hm rfl)
        | apply State.setSchedule_same (mask_sub hm rfl) | refine Same.ofP ‹_ = Option.some _› ?_
    | (extract_lets +onlyGivenNames x
       first
       | (refine Same.cut (m := m) (r := r) (x := x) ?_ ?_ <;> first | (clear_value x; intro hx) | subst x)
       | subst x)
    | split
    | dsimp only)

theorem State.runBoundary_same {m : Nat} {r s : State} (hm : m &&& 2830106558 = 0) (h : Same m r s) :
    Same m r (State.runBoundary s) := by
  unfold State.runBoundary
  repeat' (first
    | with_reducible
        first
        | assumption | apply Same.ite | apply State.dropFaulted_same (mask_sub hm rfl)
        | apply State.failEngines_same (mask_sub hm rfl) | apply State.stopBoundary_same (mask_sub hm rfl)
        | apply State.postEngines_same (mask_sub hm rfl) | apply State.cause_same (mask_sub hm rfl)
        | apply State.hold_same (mask_sub hm rfl) | apply State.chargeSweep_same (mask_sub hm rfl)
        | apply State.sweepOn_same (mask_sub hm rfl)
    | (simp only [Same.lit]; with_reducible refine SameLit.of hm ?_ ?_)
    | (refine fun (p : Part) (hp : Nat.testBit _ (Part.ix p) = false) => ?_; cases p <;> first | exact absurd hp (by decide) | (simp only [Part.same, and_self]; done))
    | (extract_lets +onlyGivenNames x
       first
       | (refine Same.cut (m := m) (r := r) (x := x) ?_ ?_ <;> first | (clear_value x; intro hx) | subst x)
       | subst x)
    | split
    | dsimp only)

theorem State.enterSensing_same {m : Nat} {r s : State} (hm : m &&& 2830106558 = 0) (h : Same m r s) (r' : Nat)
    (pl : Plan) (n : Nat) (l : List (Nat × Nat × Nat)) :
    Same m r (State.enterSensing s r' pl n l) := by
  unfold State.enterSensing
  repeat' (first
    | with_reducible
        first
        | assumption | apply State.setMg_same (mask_sub hm rfl) | apply State.settleIdle_same (mask_sub hm rfl)
        | apply State.os_same (mask_sub hm rfl) | apply State.postEngines_same (mask_sub hm rfl)
        | apply State.openBoundary_same (mask_sub hm rfl) | apply State.take_same (mask_sub hm rfl)
        | apply State.setPw_same (mask_sub hm rfl) | apply State.enterPower_same (mask_sub hm rfl)
        | apply State.tookSwitch_same (mask_sub hm rfl) | apply State.beginSweep_same (mask_sub hm rfl)
        | apply State.transitionDone_same (mask_sub hm rfl) | refine Same.foldl (fun _ _ _ => ?_) _ ?_
    | (simp only [Same.lit]; with_reducible refine SameLit.of hm ?_ ?_)
    | (refine fun (p : Part) (hp : Nat.testBit _ (Part.ix p) = false) => ?_; cases p <;> first | exact absurd hp (by decide) | (simp only [Part.same, and_self]; done))
    | (extract_lets +onlyGivenNames x
       first
       | (refine Same.cut (m := m) (r := r) (x := x) ?_ ?_ <;> first | (clear_value x; intro hx) | subst x)
       | subst x)
    | split
    | dsimp only
    | (with_reducible intro s1 h1; dsimp only)
    | with_reducible intro s1 h1)

theorem State.entryBoundary_same {m : Nat} {r s : State} (hm : m &&& 2830106558 = 0) (h : Same m r s) (e : Entry) :
    Same m r (State.entryBoundary s e) := by
  unfold State.entryBoundary
  repeat' (first
    | with_reducible
        first
        | assumption | apply Same.ite | apply State.dropFaulted_same (mask_sub hm rfl)
        | apply State.failEngines_same (mask_sub hm rfl) | apply State.postEngines_same (mask_sub hm rfl)
        | apply State.stopSensing_same (mask_sub hm rfl) | apply State.healthStop_same (mask_sub hm rfl)
        | apply State.enterSensing_same (mask_sub hm rfl) | apply State.hold_same (mask_sub hm rfl)
    | (extract_lets +onlyGivenNames x
       first
       | (refine Same.cut (m := m) (r := r) (x := x) ?_ ?_ <;> first | (clear_value x; intro hx) | subst x)
       | subst x)
    | split
    | dsimp only)

theorem State.atBoundary_same {m : Nat} {r s : State} (hm : m &&& 2830106558 = 0) (h : Same m r s) :
    Same m r (State.atBoundary s) := by
  unfold State.atBoundary
  repeat' (first
    | with_reducible
        first
        | assumption | apply Same.ite | apply State.entryBoundary_same (mask_sub hm rfl)
        | apply State.runBoundary_same (mask_sub hm rfl)
    | split
    | dsimp only)

theorem execSweepBoundary_same {m : Nat} {r s : State} (hm : m &&& 2830106558 = 0) (h : Same m r s) :
    SameO m r (execSweepBoundary s) := by
  unfold execSweepBoundary
  repeat' (first
    | with_reducible
        first
        | assumption | apply Same.ite | apply SameO.ite | apply SameO.next
        | apply State.atBoundary_same (mask_sub hm rfl) | apply State.at_same (mask_sub hm rfl))

theorem execChoiceFix_same {m : Nat} {r s : State} (hm : m &&& 2050 = 0) (h :
    Same m r s) (corrected : Nat) (bad : Bool) :
    SameO m r (execChoiceFix corrected bad s) := by
  unfold execChoiceFix
  have hx : Same m r ((s.at (s.sw.next - 2000)).count 53 corrected) :=
    State.count_same (mask_sub hm rfl) (State.at_same (mask_sub hm rfl) h _) _ _
  generalize (s.at (s.sw.next - 2000)).count 53 corrected = x at hx
  dsimp only
  generalize (x.at x.sw.next).atBoundary = y
  refine SameO.ite (SameO.next h) ?_
  cases y.sw.flights.reverse
  all_goals dsimp only
  · exact SameO.next hx
  · repeat' (first
    | with_reducible
          first
          | assumption | apply Same.ite | apply SameO.ite | apply SameO.next
          | apply State.count_same (mask_sub hm rfl) | apply State.at_same (mask_sub hm rfl)
          | apply State.atBoundary_same (mask_sub hm rfl)
      | (simp only [Same.lit]; with_reducible refine SameLit.of hm ?_ ?_)
      | (refine fun (p : Part) (hp : Nat.testBit _ (Part.ix p) = false) => ?_; cases p <;> first | exact absurd hp (by decide) | (simp only [Part.same, and_self]; done))
      | (extract_lets +onlyGivenNames x
         first
         | (refine Same.cut (m := m) (r := r) (x := x) ?_ ?_ <;> first | (clear_value x; intro hx) | subst x)
         | subst x)
      | split
      | dsimp only)

/-! ## MemErrors -/

theorem State.dramError_same {m : Nat} {r s : State} (hm : m &&& 264200 = 0) (h : Same m r s) (addr : Nat) :
    Same m r (State.dramError s addr) := by
  unfold State.dramError
  repeat' (first
    | with_reducible
        first
        | assumption | apply State.pulse_same (mask_sub hm rfl) | apply State.os_same (mask_sub hm rfl)
        | apply State.bump_same (mask_sub hm rfl) | apply State.eccLost_same (mask_sub hm rfl))

theorem State.binError_same {m : Nat} {r s : State} (hm : m &&& 65536 = 0) (h : Same m r s) (port : Nat) (bin : Nat)
    (latest : Bool) :
    Same m r (State.binError s port bin latest) := by
  unfold State.binError
  repeat' (first
    | with_reducible first | assumption | apply Same.ite | apply State.setPeriod_same (mask_sub hm rfl)
    | (extract_lets +onlyGivenNames x
       first
       | (refine Same.cut (m := m) (r := r) (x := x) ?_ ?_ <;> first | (clear_value x; intro hx) | subst x)
       | subst x)
    | split
    | dsimp only)

theorem State.tickError_same {m : Nat} {r s : State} (hm : m &&& 32768 = 0) (h : Same m r s) (port : Nat)
    (pos : Nat) (tick : Nat) :
    Same m r (State.tickError s port pos tick) := by
  unfold State.tickError
  repeat' (first
    | with_reducible first | assumption | apply Same.ite | apply State.setPpop_same (mask_sub hm rfl))

theorem State.stageError_same {m : Nat} {r s : State} (hm : m &&& 2097156 = 0) (h : Same m r s) (q : Nat) :
    Same m r (State.stageError s q) := by
  unfold State.stageError
  repeat' (first
    | with_reducible
        first
        | assumption | apply State.garble_same (mask_sub hm rfl) | apply State.setQueue_same (mask_sub hm rfl)
        | refine Same.snd ‹_ = (_, _)› ?_
    | split
    | dsimp only)

theorem State.replayError_same {m : Nat} {r s : State} (hm : m &&& 4194308 = 0) (h : Same m r s) (lane : Nat) (seq : Nat) :
    Same m r (State.replayError s lane seq) := by
  unfold State.replayError
  repeat' (first
    | with_reducible
        first
        | assumption | apply Same.ite | apply State.garble_same (mask_sub hm rfl)
        | apply State.setTx_same (mask_sub hm rfl) | apply Same.ite_snd | refine Same.snd ‹_ = (_, _)› ?_
    | (extract_lets +onlyGivenNames x
       first
       | (refine Same.cut (m := m) (r := r) (x := x) ?_ ?_ <;> first | (clear_value x; intro hx) | subst x)
       | subst x)
    | split
    | dsimp only)

theorem State.readerError_same {m : Nat} {r s : State} (hm : m &&& 2213542956 = 0) (h : Same m r s) (addr : Nat)
    (rd : DramReader) :
    Same m r (State.readerError s addr rd) := by
  cases rd
  all_goals
    unfold State.readerError
    repeat' (first
    | with_reducible
          first
          | assumption | apply Same.ite | apply State.binError_same (mask_sub hm rfl)
          | apply State.memoryFault_same (mask_sub hm rfl) | apply State.setCap_same (mask_sub hm rfl)
          | apply State.tickError_same (mask_sub hm rfl) | apply State.stageError_same (mask_sub hm rfl)
          | apply State.setBurst_same (mask_sub hm rfl) | apply State.failPrepare_same (mask_sub hm rfl)
          | apply State.chanFault_same (mask_sub hm rfl) | apply State.replayError_same (mask_sub hm rfl)
          | apply State.readerError_same (mask_sub hm rfl)
      | (simp only [Same.lit]; with_reducible refine SameLit.of hm ?_ ?_)
      | (refine fun (p : Part) (hp : Nat.testBit _ (Part.ix p) = false) => ?_; cases p <;> first | exact absurd hp (by decide) | (simp only [Part.same, and_self]; done))
      | (extract_lets +onlyGivenNames x
         first
         | (refine Same.cut (m := m) (r := r) (x := x) ?_ ?_ <;> first | (clear_value x; intro hx) | subst x)
         | subst x)
      | split
      | dsimp only)

theorem State.sramError_same {m : Nat} {r s : State} (hm : m &&& 2213542956 = 0) (h : Same m r s) (addr : Nat)
    (who : DramReader) :
    Same m r (State.sramError s addr who) := by
  unfold State.sramError
  repeat' (first
    | with_reducible
        first
        | assumption | apply Same.ite | apply State.eccFix_same (mask_sub hm rfl)
        | apply State.bump_same (mask_sub hm rfl) | apply State.readerError_same (mask_sub hm rfl)
        | apply State.eccLost_same (mask_sub hm rfl)
    | (extract_lets +onlyGivenNames x
       first
       | (refine Same.cut (m := m) (r := r) (x := x) ?_ ?_ <;> first | (clear_value x; intro hx) | subst x)
       | subst x)
    | split
    | dsimp only)

theorem execDramUncorrectable_same {m : Nat} {r s : State} (hm : m &&& 2213542958 = 0) (h : Same m r s) (t : Nat)
    (addr : Nat) (who : DramReader) :
    SameO m r (execDramUncorrectable t addr who s) := by
  unfold execDramUncorrectable
  repeat' (first
    | with_reducible
        first
        | assumption | apply Same.ite | apply SameO.ite | apply SameO.next | apply State.at_same (mask_sub hm rfl)
        | apply State.sramError_same (mask_sub hm rfl) | apply State.readerError_same (mask_sub hm rfl)
        | apply State.dramError_same (mask_sub hm rfl)
    | (extract_lets +onlyGivenNames x
       first
       | (refine Same.cut (m := m) (r := r) (x := x) ?_ ?_ <;> first | (clear_value x; intro hx) | subst x)
       | subst x)
    | split
    | dsimp only)

theorem execRealTimeOverflow_same {m : Nat} {r s : State} (hm : m &&& 600074 = 0) (h : Same m r s) (t : Nat)
    (who : RtRequester) (stall : Nat) :
    SameO m r (execRealTimeOverflow t who stall s) := by
  unfold execRealTimeOverflow
  repeat' (first
    | with_reducible
        first
        | assumption | apply SameO.next | apply State.bump_same (mask_sub hm rfl)
        | apply State.at_same (mask_sub hm rfl) | apply State.os_same (mask_sub hm rfl)
        | apply State.stallShot_same (mask_sub hm rfl) | apply State.setCap_same (mask_sub hm rfl)
        | apply State.count_same (mask_sub hm rfl)
    | (simp only [Same.lit]; with_reducible refine SameLit.of hm ?_ ?_)
    | (refine fun (p : Part) (hp : Nat.testBit _ (Part.ix p) = false) => ?_; cases p <;> first | exact absurd hp (by decide) | (simp only [Part.same, and_self]; done))
    | (extract_lets +onlyGivenNames x
       first
       | (refine Same.cut (m := m) (r := r) (x := x) ?_ ?_ <;> first | (clear_value x; intro hx) | subst x)
       | subst x)
    | split
    | dsimp only)

theorem State.finishLong_same {m : Nat} {r s : State} (hm : m &&& 3626245164 = 0) (h : Same m r s) (o : LongOp)
    (w : LongOutcome) :
    Same m r (State.finishLong s o w).2 := by
  unfold State.finishLong
  repeat' (first
    | with_reducible
        first
        | assumption | apply State.endInstall_same (mask_sub hm rfl)
        | apply State.endCalibration_same (mask_sub hm rfl) | apply State.endBiasSearch_same (mask_sub hm rfl)
        | apply State.endPrepare_same (mask_sub hm rfl) | apply State.dramFixed_same (mask_sub hm rfl)
        | refine Same.snd ‹_ = (_, _)› ?_
    | split
    | dsimp only)

theorem execLongOperationEnd_same {m : Nat} {r s : State} (hm : m &&& 3626245422 = 0) (h : Same m r s) (t : Nat)
    (outcome : LongOutcome) :
    SameO m r (execLongOperationEnd t outcome s) := by
  unfold execLongOperationEnd
  repeat' (first
    | with_reducible
        first
        | assumption | apply SameO.next | apply State.at_same (mask_sub hm rfl)
        | apply State.finishLong_same (mask_sub hm rfl) | apply State.endLong_same (mask_sub hm rfl)
        | refine Same.snd ‹_ = (_, _)› ?_
    | (extract_lets +onlyGivenNames x
       first
       | (refine Same.cut (m := m) (r := r) (x := x) ?_ ?_ <;> first | (clear_value x; intro hx) | subst x)
       | subst x)
    | split
    | dsimp only)

/-! ## Usdo -/

theorem storeWrite_same {m : Nat} {r s : State} (hm : m &&& 24 = 0) (h : Same m r s) (idx : Nat) (sub : Nat)
    (b : List Byte) :
    SameE m r (storeWrite idx sub b s) := by
  unfold storeWrite
  repeat' (first
    | with_reducible
        first
        | assumption | apply SameE.ok | apply SameE.error | apply State.ds_same (mask_sub hm rfl)
        | apply State.os_same (mask_sub hm rfl) | refine Same.ofE ‹_ = Except.ok _› ?_
    | split
    | dsimp only
    | (with_reducible intro s1 h1; dsimp only)
    | with_reducible intro s1 h1)

theorem clearWrite_same {m : Nat} {r s : State} (hm : m &&& 8 = 0) (h : Same m r s) (k : Nat) (b : List Byte) :
    SameE m r (clearWrite k b s) := by
  unfold clearWrite
  repeat' (first
    | with_reducible
        first
        | assumption | apply SameE.ok | apply SameE.error | apply State.os_same (mask_sub hm rfl)
        | refine Same.ofE ‹_ = Except.ok _› ?_
    | (with_reducible intro s1 h1; dsimp only)
    | with_reducible intro s1 h1)

theorem settingWrite_same {m : Nat} {r s : State} (hm : m &&& 138 = 0) (h : Same m r s) (k : Nat) (b : List Byte) :
    SameE m r (settingWrite k b s) := by
  unfold settingWrite
  repeat' (first
    | with_reducible
        first
        | assumption | apply SameE.ok | apply SameE.error | apply State.storeSetting_same (mask_sub hm rfl)
        | apply State.os_same (mask_sub hm rfl) | refine Same.ofE ‹_ = Except.ok _› ?_
    | (with_reducible intro s1 h1; dsimp only)
    | with_reducible intro s1 h1)

theorem regionResult_same {m : Nat} {r s : State} (hm : m &&& 8 = 0) (h : Same m r s) (k : Nat) (r' : RegionKind)
    (v : Nat) {o : Option State} (ho :
    SameP m r o) :
    SameE m r (regionResult k r' v s o) := by
  cases o with
  | none => exact SameE.error _
  | some s' => exact require_same (mask_sub hm rfl) _ _ (SameE.ok (State.os_same (mask_sub hm rfl) (Same.ite h (ho _ rfl)) _ _))

theorem regionWrite_same {m : Nat} {r s : State} (hm : m &&& 8388616 = 0) (h : Same m r s) (k : Nat)
    (r' : RegionKind) (v : Nat) :
    SameE m r (regionWrite k r' v s) :=
  regionResult_same (mask_sub hm rfl) h k r' v (State.reserve_same (mask_sub hm rfl) h _ _)

theorem writeState_same {m : Nat} {r s : State} (hm : m &&& 502537146 = 0) (h : Same m r s) (sub : Nat) (b : List Byte) :
    SameE m r (writeState sub b s) := by
  unfold writeState
  repeat' (first
    | with_reducible
        first
        | assumption | apply SameE.ok | apply SameE.error | apply powerCommand_same (mask_sub hm rfl)
        | apply biasSearch_same (mask_sub hm rfl) | apply settingWrite_same (mask_sub hm rfl)
        | apply storeWrite_same (mask_sub hm rfl) | refine Same.ofE ‹_ = Except.ok _› ?_
    | split
    | dsimp only
    | (with_reducible intro s1 h1; dsimp only)
    | with_reducible intro s1 h1)

theorem writePower_same {m : Nat} {r s : State} (hm : m &&& 3186892734 = 0) (h : Same m r s) (sub : Nat) (b : List Byte) :
    SameE m r (writePower sub b s) := by
  unfold writePower
  repeat' (first
    | with_reducible
        first
        | assumption | apply SameE.ok | apply SameE.error | apply State.rechoose_same (mask_sub hm rfl)
        | apply managedOperation_same (mask_sub hm rfl) | apply balanceWrite_same (mask_sub hm rfl)
        | apply incomeCredit_same (mask_sub hm rfl) | apply holdWarm_same (mask_sub hm rfl)
        | apply clearWrite_same (mask_sub hm rfl) | apply settingWrite_same (mask_sub hm rfl)
        | apply storeWrite_same (mask_sub hm rfl) | refine Same.ofE ‹_ = Except.ok _› ?_
    | (extract_lets +onlyGivenNames x
       first
       | (refine Same.cut (m := m) (r := r) (x := x) ?_ ?_ <;> first | (clear_value x; intro hx) | subst x)
       | subst x)
    | split
    | dsimp only
    | (with_reducible intro s1 h1; dsimp only)
    | with_reducible intro s1 h1)

theorem writeTime_same {m : Nat} {r s : State} (hm : m &&& 67108890 = 0) (h : Same m r s) (idx : Nat) (sub : Nat)
    (b : List Byte) :
    SameE m r (writeTime idx sub b s) := by
  unfold writeTime
  repeat' (first
    | with_reducible
        first
        | assumption | apply Same.ite | apply SameE.ite | apply SameE.ok | apply SameE.error
        | apply storeWrite_same (mask_sub hm rfl) | apply deviceTime_same (mask_sub hm rfl)
        | apply timeAtPps_same (mask_sub hm rfl) | apply rateCorrection_same (mask_sub hm rfl)
        | apply State.os_same (mask_sub hm rfl) | apply memberRefuses_same (mask_sub hm rfl)
        | apply intervalArm_same (mask_sub hm rfl) | apply intervalDisarm_same (mask_sub hm rfl)
        | apply require_same (mask_sub hm rfl) | refine Same.ofE ‹_ = Except.ok _› ?_
    | (extract_lets +onlyGivenNames x
       first
       | (refine Same.cut (m := m) (r := r) (x := x) ?_ ?_ <;> first | (clear_value x; intro hx) | subst x)
       | subst x)
    | split
    | dsimp only
    | (with_reducible intro s1 h1; dsimp only)
    | with_reducible intro s1 h1)

theorem writePlans_same {m : Nat} {r s : State} (hm : m &&& 2158239032 = 0) (h : Same m r s) (sub : Nat) (b : List Byte) :
    SameE m r (writePlans sub b s) := by
  unfold writePlans
  repeat' (first
    | with_reducible
        first
        | assumption | apply SameE.ok | apply SameE.error | apply requestedRung_same (mask_sub hm rfl)
        | apply planInstall_same (mask_sub hm rfl) | apply stageSet_same (mask_sub hm rfl)
        | apply removeRung_same (mask_sub hm rfl) | apply chainSwitch_same (mask_sub hm rfl)
        | apply storeWrite_same (mask_sub hm rfl) | refine Same.ofE ‹_ = Except.ok _› ?_
    | split
    | dsimp only
    | (with_reducible intro s1 h1; dsimp only)
    | with_reducible intro s1 h1)

theorem writeShadowed_same {m : Nat} {r s : State} (hm : m &&& 1024 = 0) (h : Same m r s) (idx : Nat) (sub : Nat)
    (b : List Byte) :
    SameE m r (writeShadowed idx sub b s) := by
  unfold writeShadowed
  repeat' (first
    | with_reducible
        first
        | assumption | apply Same.ite | apply SameE.ite | apply SameE.ok | apply SameE.error
        | apply zoneThreshold_same (mask_sub hm rfl) | apply bankLoad_same (mask_sub hm rfl)
        | apply shadowed_same (mask_sub hm rfl) | refine Same.ofE ‹_ = Except.ok _› ?_
    | (with_reducible intro s1 h1; dsimp only)
    | with_reducible intro s1 h1)

theorem writeSesame_same {m : Nat} {r s : State} (hm : m &&& 262168 = 0) (h : Same m r s) (idx : Nat) (sub : Nat)
    (b : List Byte) :
    SameE m r (writeSesame idx sub b s) := by
  unfold writeSesame
  repeat' (first
    | with_reducible
        first
        | assumption | apply Same.ite | apply SameE.ite | apply SameE.ok | apply SameE.error
        | apply storeWrite_same (mask_sub hm rfl) | apply seqForce_same (mask_sub hm rfl)
        | apply seqArm_same (mask_sub hm rfl) | apply seqDisarm_same (mask_sub hm rfl)
        | refine Same.ofE ‹_ = Except.ok _› ?_
    | (extract_lets +onlyGivenNames x
       first
       | (refine Same.cut (m := m) (r := r) (x := x) ?_ ?_ <;> first | (clear_value x; intro hx) | subst x)
       | subst x)
    | split
    | dsimp only
    | (with_reducible intro s1 h1; dsimp only)
    | with_reducible intro s1 h1)

theorem writeCapture_same {m : Nat} {r s : State} (hm : m &&& 10223672 = 0) (h : Same m r s) (idx : Nat) (sub : Nat)
    (b : List Byte) :
    SameE m r (writeCapture idx sub b s) := by
  unfold writeCapture
  repeat' (first
    | with_reducible
        first
        | assumption | apply Same.ite | apply SameE.ite | apply SameE.ok | apply SameE.error
        | apply regionWrite_same (mask_sub hm rfl) | apply ownerWrite_same (mask_sub hm rfl)
        | apply sunflowerEnable_same (mask_sub hm rfl) | apply require_same (mask_sub hm rfl)
        | apply storeWrite_same (mask_sub hm rfl) | apply captureArm_same (mask_sub hm rfl)
        | apply captureDisarm_same (mask_sub hm rfl) | apply captureConfig_same (mask_sub hm rfl)
        | apply captureLength_same (mask_sub hm rfl) | refine Same.ofE ‹_ = Except.ok _› ?_
    | (extract_lets +onlyGivenNames x
       first
       | (refine Same.cut (m := m) (r := r) (x := x) ?_ ?_ <;> first | (clear_value x; intro hx) | subst x)
       | subst x)
    | split
    | dsimp only
    | (with_reducible intro s1 h1; dsimp only)
    | with_reducible intro s1 h1)

theorem writeHazel_same {m : Nat} {r s : State} (hm : m &&& 8527896 = 0) (h : Same m r s) (idx : Nat) (sub : Nat)
    (b : List Byte) :
    SameE m r (writeHazel idx sub b s) := by
  unfold writeHazel
  repeat' (first
    | with_reducible
        first
        | assumption | apply Same.ite | apply SameE.ite | apply SameE.ok | apply SameE.error
        | apply require_same (mask_sub hm rfl) | apply storeWrite_same (mask_sub hm rfl)
        | apply burstRequest_same (mask_sub hm rfl) | apply burstAbandon_same (mask_sub hm rfl)
        | apply regionWrite_same (mask_sub hm rfl) | apply userProgram_same (mask_sub hm rfl)
        | refine Same.ofE ‹_ = Except.ok _› ?_
    | (extract_lets +onlyGivenNames x
       first
       | (refine Same.cut (m := m) (r := r) (x := x) ?_ ?_ <;> first | (clear_value x; intro hx) | subst x)
       | subst x)
    | split
    | dsimp only
    | (with_reducible intro s1 h1; dsimp only)
    | with_reducible intro s1 h1)

theorem writeMemory_same {m : Nat} {r s : State} (hm : m &&& 61082010 = 0) (h : Same m r s) (idx : Nat) (sub : Nat)
    (b : List Byte) :
    SameE m r (writeMemory idx sub b s) := by
  unfold writeMemory
  repeat' (first
    | with_reducible
        first
        | assumption | apply Same.ite | apply SameE.ite | apply SameE.ok | apply SameE.error
        | apply storeWrite_same (mask_sub hm rfl) | apply settingWrite_same (mask_sub hm rfl)
        | apply refreshMode_same (mask_sub hm rfl) | apply fullScrub_same (mask_sub hm rfl)
        | apply clearWrite_same (mask_sub hm rfl) | apply require_same (mask_sub hm rfl)
        | apply bankOwner_same (mask_sub hm rfl) | apply jobStart_same (mask_sub hm rfl)
        | apply jobResume_same (mask_sub hm rfl) | apply jobAbandon_same (mask_sub hm rfl)
        | apply flaxStart_same (mask_sub hm rfl) | apply flaxHalt_same (mask_sub hm rfl)
        | refine Same.ofE ‹_ = Except.ok _› ?_
    | (extract_lets +onlyGivenNames x
       first
       | (refine Same.cut (m := m) (r := r) (x := x) ?_ ?_ <;> first | (clear_value x; intro hx) | subst x)
       | subst x)
    | split
    | dsimp only
    | (with_reducible intro s1 h1; dsimp only)
    | with_reducible intro s1 h1)

theorem writePip_same {m : Nat} {r s : State} (hm : m &&& 136579356 = 0) (h : Same m r s) (idx : Nat) (sub : Nat)
    (b : List Byte) :
    SameE m r (writePip idx sub b s) := by
  unfold writePip
  repeat' (first
    | with_reducible
        first
        | assumption | apply Same.ite | apply SameE.ite | apply SameE.ok | apply SameE.error
        | apply storeWrite_same (mask_sub hm rfl) | apply reference1_same (mask_sub hm rfl)
        | apply State.trigger1_same (mask_sub hm rfl) | apply blankMask_same (mask_sub hm rfl)
        | apply State.blankEdge_same (mask_sub hm rfl) | apply State.os_same (mask_sub hm rfl)
        | apply require_same (mask_sub hm rfl) | apply calStart_same (mask_sub hm rfl)
        | apply State.draw_same (mask_sub hm rfl) | apply rtdSetting_same (mask_sub hm rfl) | apply Same.ite_snd
        | refine Same.snd ‹_ = (_, _)› ?_ | refine Same.ofE ‹_ = Except.ok _› ?_
    | (extract_lets +onlyGivenNames x
       first
       | (refine Same.cut (m := m) (r := r) (x := x) ?_ ?_ <;> first | (clear_value x; intro hx) | subst x)
       | subst x)
    | split
    | dsimp only
    | (with_reducible intro s1 h1; dsimp only)
    | with_reducible intro s1 h1)

theorem writeManage_same {m : Nat} {r s : State} (hm : m &&& 3638829054 = 0) (h : Same m r s) (idx : Nat)
    (sub : Nat) (b : List Byte) :
    SameE m r (writeManage idx sub b s) := by
  unfold writeManage
  repeat' (first
    | with_reducible
        first
        | assumption | apply Same.ite | apply SameE.ite | apply SameE.ok | apply SameE.error
        | apply storeWrite_same (mask_sub hm rfl) | apply settingWrite_same (mask_sub hm rfl)
        | apply State.restartWalnut_same (mask_sub hm rfl) | apply clearWrite_same (mask_sub hm rfl)
        | apply ledgerReset_same (mask_sub hm rfl) | apply logSelect_same (mask_sub hm rfl)
        | apply downloadOpen_same (mask_sub hm rfl) | apply downloadClose_same (mask_sub hm rfl)
        | apply downloadAbandon_same (mask_sub hm rfl) | apply canFdData_same (mask_sub hm rfl)
        | apply imagePrepare_same (mask_sub hm rfl) | apply activate_same (mask_sub hm rfl)
        | apply confirm_same (mask_sub hm rfl) | refine Same.ofE ‹_ = Except.ok _› ?_
    | (extract_lets +onlyGivenNames x
       first
       | (refine Same.cut (m := m) (r := r) (x := x) ?_ ?_ <;> first | (clear_value x; intro hx) | subst x)
       | subst x)
    | split
    | dsimp only
    | (with_reducible intro s1 h1; dsimp only)
    | with_reducible intro s1 h1)

theorem writeInject_same {m : Nat} {r s : State} (hm : m &&& 2147483704 = 0) (h : Same m r s) (idx : Nat)
    (sub : Nat) (b : List Byte) :
    SameE m r (writeInject idx sub b s) := by
  unfold writeInject
  repeat' (first
    | with_reducible
        first
        | assumption | apply Same.ite | apply SameE.ite | apply SameE.ok | apply SameE.error
        | apply storeWrite_same (mask_sub hm rfl) | apply unlock_same (mask_sub hm rfl)
        | apply injectionStart_same (mask_sub hm rfl) | apply injectionStop_same (mask_sub hm rfl)
        | apply require_same (mask_sub hm rfl) | refine Same.ofE ‹_ = Except.ok _› ?_
    | (extract_lets +onlyGivenNames x
       first
       | (refine Same.cut (m := m) (r := r) (x := x) ?_ ?_ <;> first | (clear_value x; intro hx) | subst x)
       | subst x)
    | split
    | dsimp only
    | (with_reducible intro s1 h1; dsimp only)
    | with_reducible intro s1 h1)

theorem writeEffect_same {m : Nat} {r s : State} (hm : m &&& 4294852606 = 0) (h : Same m r s) (idx : Nat)
    (sub : Nat) (b : List Byte) :
    SameE m r (writeEffect idx sub b s) := by
  unfold writeEffect
  repeat' (first
    | with_reducible
        first
        | assumption | apply Same.ite | apply SameE.ite | apply SameE.ok | apply SameE.error
        | apply writeShadowed_same (mask_sub hm rfl) | apply writeState_same (mask_sub hm rfl)
        | apply writePower_same (mask_sub hm rfl) | apply writeTime_same (mask_sub hm rfl)
        | apply writePlans_same (mask_sub hm rfl) | apply writeSesame_same (mask_sub hm rfl)
        | apply writeCapture_same (mask_sub hm rfl) | apply overrunClear_same (mask_sub hm rfl)
        | apply idleDelay_same (mask_sub hm rfl) | apply writeHazel_same (mask_sub hm rfl)
        | apply writeMemory_same (mask_sub hm rfl) | apply writePip_same (mask_sub hm rfl)
        | apply writeManage_same (mask_sub hm rfl) | apply writeInject_same (mask_sub hm rfl)
        | apply storeWrite_same (mask_sub hm rfl) | refine Same.ofE ‹_ = Except.ok _› ?_
    | (with_reducible intro s1 h1; dsimp only)
    | with_reducible intro s1 h1)

theorem State.availability_same {m : Nat} {r s : State} (hm : m &&& 4 = 0) (h : Same m r s) :
    Same m r (State.availability s).2 := by
  unfold State.availability
  repeat' (first
    | with_reducible
        first
        | assumption | apply Same.ite | apply State.draw_same (mask_sub hm rfl) | apply Same.ite_snd
        | refine Same.snd ‹_ = (_, _)› ?_
    | dsimp only)

theorem State.readObject_same {m : Nat} {r s : State} (hm : m &&& 524 = 0) (h : Same m r s) (idx : Nat) (sub : Nat)
    (o : Obj) :
    Same m r (State.readObject s idx sub o).2 := by
  unfold State.readObject
  repeat' (first
    | with_reducible
        first
        | assumption | apply Same.ite | apply State.settleIdle_same (mask_sub hm rfl)
        | apply State.availability_same (mask_sub hm rfl) | apply State.os_same (mask_sub hm rfl) | apply Same.ite_snd
        | refine Same.snd ‹_ = (_, _)› ?_
    | (extract_lets +onlyGivenNames x
       first
       | (refine Same.cut (m := m) (r := r) (x := x) ?_ ?_ <;> first | (clear_value x; intro hx) | subst x)
       | subst x)
    | split
    | dsimp only)

theorem State.openTransfer_same {m : Nat} {r s : State} (hm : m &&& 256 = 0) (h : Same m r s) (idx : Nat)
    (sub : Nat) (writing : Bool) (b : List Byte) :
    Same m r (State.openTransfer s idx sub writing b) := by
  unfold State.openTransfer
  repeat' (first
    | with_reducible first | assumption
    | (simp only [Same.lit]; with_reducible refine SameLit.of hm ?_ ?_)
    | (refine fun (p : Part) (hp : Nat.testBit _ (Part.ix p) = false) => ?_; cases p <;> first | exact absurd hp (by decide) | (simp only [Part.same, and_self]; done))
    | (extract_lets +onlyGivenNames x
       first
       | (refine Same.cut (m := m) (r := r) (x := x) ?_ ?_ <;> first | (clear_value x; intro hx) | subst x)
       | subst x)
    | split
    | dsimp only)

theorem State.closeTransfer_same {m : Nat} {r s : State} (hm : m &&& 256 = 0) (h : Same m r s) :
    Same m r (State.closeTransfer s) := by
  unfold State.closeTransfer
  repeat' (first
    | with_reducible first | assumption
    | (simp only [Same.lit]; with_reducible refine SameLit.of hm ?_ ?_)
    | (refine fun (p : Part) (hp : Nat.testBit _ (Part.ix p) = false) => ?_; cases p <;> first | exact absurd hp (by decide) | (simp only [Part.same, and_self]; done))
    | (extract_lets +onlyGivenNames x
       first
       | (refine Same.cut (m := m) (r := r) (x := x) ?_ ?_ <;> first | (clear_value x; intro hx) | subst x)
       | subst x)
    | split
    | dsimp only)

theorem State.hostRead_same {m : Nat} {r s : State} (hm : m &&& 812 = 0) (h : Same m r s) (c : Nat) (idx : Nat)
    (sub : Nat) (segmented : Bool) :
    Same m r (State.hostRead s c idx sub segmented) := by
  unfold State.hostRead
  repeat' (first
    | with_reducible
        first
        | assumption | apply Same.ite | apply State.answer_same (mask_sub hm rfl)
        | apply State.renew_same (mask_sub hm rfl) | apply State.readObject_same (mask_sub hm rfl)
        | apply State.openTransfer_same (mask_sub hm rfl) | apply Same.ite_snd | refine Same.snd ‹_ = (_, _)› ?_
    | (extract_lets +onlyGivenNames x
       first
       | (refine Same.cut (m := m) (r := r) (x := x) ?_ ?_ <;> first | (clear_value x; intro hx) | subst x)
       | subst x)
    | split
    | dsimp only)

theorem State.beginWrite_same {m : Nat} {r s : State} (hm : m &&& 296 = 0) (h : Same m r s) (c : Nat) (idx : Nat)
    (sub : Nat) (b : List Byte) :
    Same m r (State.beginWrite s c idx sub b) := by
  unfold State.beginWrite
  repeat' (first
    | with_reducible
        first
        | assumption | apply Same.ite | apply State.answer_same (mask_sub hm rfl)
        | apply State.renew_same (mask_sub hm rfl) | apply State.openTransfer_same (mask_sub hm rfl)
    | (extract_lets +onlyGivenNames x
       first
       | (refine Same.cut (m := m) (r := r) (x := x) ?_ ?_ <;> first | (clear_value x; intro hx) | subst x)
       | subst x)
    | split
    | dsimp only)

theorem State.segment_same {m : Nat} {r s : State} (hm : m &&& 4294852606 = 0) (h : Same m r s) (c : Nat)
    (b : List Byte) (last : Bool) :
    Same m r (State.segment s c b last) := by
  unfold State.segment
  repeat' (first
    | with_reducible
        first
        | assumption | apply Same.ite | apply SameE.ite | apply SameE.ok | apply SameE.error
        | apply State.answer_same (mask_sub hm rfl) | apply State.renew_same (mask_sub hm rfl)
        | apply State.closeTransfer_same (mask_sub hm rfl) | apply State.hostWrite_same (mask_sub hm rfl)
        | apply writeEffect_same (mask_sub hm rfl) | apply State.openTransfer_same (mask_sub hm rfl)
        | refine Same.ofE ‹_ = Except.ok _› ?_
    | (extract_lets +onlyGivenNames x
       first
       | (refine Same.cut (m := m) (r := r) (x := x) ?_ ?_ <;> first | (clear_value x; intro hx) | subst x)
       | subst x)
    | split
    | dsimp only
    | (with_reducible intro s1 h1; dsimp only)
    | with_reducible intro s1 h1)

theorem execUsdoRequest_same {m : Nat} {r s : State} (hm : m &&& 4294852606 = 0) (h : Same m r s) (t : Nat)
    (c : Nat) (req : UsdoReq) :
    SameO m r (execUsdoRequest t c req s) := by
  unfold execUsdoRequest
  repeat' (first
    | with_reducible
        first
        | assumption | apply SameE.ok | apply SameE.error | apply SameO.next | apply State.at_same (mask_sub hm rfl)
        | apply State.hostRead_same (mask_sub hm rfl) | apply State.hostWrite_same (mask_sub hm rfl)
        | apply writeEffect_same (mask_sub hm rfl) | apply State.beginWrite_same (mask_sub hm rfl)
        | apply State.segment_same (mask_sub hm rfl) | refine Same.ofE ‹_ = Except.ok _› ?_
    | (extract_lets +onlyGivenNames x
       first
       | (refine Same.cut (m := m) (r := r) (x := x) ?_ ?_ <;> first | (clear_value x; intro hx) | subst x)
       | subst x)
    | split
    | dsimp only
    | (with_reducible intro s1 h1; dsimp only)
    | with_reducible intro s1 h1)

theorem execLatestBoundaryRead_same {m : Nat} {r s : State} (hm : m &&& 814 = 0) (h : Same m r s) (t : Nat) (c : Nat) :
    SameO m r (execLatestBoundaryRead t c s) := by
  unfold execLatestBoundaryRead
  repeat' (first
    | with_reducible
        first
        | assumption | apply SameO.next | apply State.hostRead_same (mask_sub hm rfl)
        | apply State.at_same (mask_sub hm rfl))

theorem execSnapshotRead_same {m : Nat} {r s : State} (hm : m &&& 814 = 0) (h : Same m r s) (t : Nat) (c : Nat) :
    SameO m r (execSnapshotRead t c s) := by
  unfold execSnapshotRead
  repeat' (first
    | with_reducible
        first
        | assumption | apply SameO.next | apply State.hostRead_same (mask_sub hm rfl)
        | apply State.at_same (mask_sub hm rfl))

theorem execRegisterWrite_same {m : Nat} {r s : State} (hm : m &&& 4294852606 = 0) (h : Same m r s) (t : Nat)
    (c : Nat) (index : Nat) (sub : Nat) (data : List Byte) :
    SameO m r (execRegisterWrite t c index sub data s) := by
  unfold execRegisterWrite
  repeat' (first
    | with_reducible
        first
        | assumption | apply SameE.ok | apply SameE.error | apply SameO.next
        | apply State.hostWrite_same (mask_sub hm rfl) | apply State.at_same (mask_sub hm rfl)
        | apply writeEffect_same (mask_sub hm rfl) | refine Same.ofE ‹_ = Except.ok _› ?_
    | (with_reducible intro s1 h1; dsimp only)
    | with_reducible intro s1 h1)

theorem execLeaseLapse_same {m : Nat} {r s : State} (hm : m &&& 1290 = 0) (h : Same m r s) (t : Nat) :
    SameO m r (execLeaseLapse t s) := by
  unfold execLeaseLapse
  repeat' (first
    | with_reducible
        first
        | assumption | apply Same.ite | apply SameO.ite | apply SameO.next | apply State.at_same (mask_sub hm rfl)
        | apply State.endSession_same (mask_sub hm rfl)
    | (extract_lets +onlyGivenNames x
       first
       | (refine Same.cut (m := m) (r := r) (x := x) ?_ ?_ <;> first | (clear_value x; intro hx) | subst x)
       | subst x)
    | split
    | dsimp only)

theorem execTransferTimeout_same {m : Nat} {r s : State} (hm : m &&& 290 = 0) (h : Same m r s) (t : Nat) :
    SameO m r (execTransferTimeout t s) := by
  unfold execTransferTimeout
  repeat' (first
    | with_reducible
        first
        | assumption | apply Same.ite | apply SameO.ite | apply SameO.next | apply State.at_same (mask_sub hm rfl)
        | apply State.answer_same (mask_sub hm rfl) | apply State.closeTransfer_same (mask_sub hm rfl)
    | (extract_lets +onlyGivenNames x
       first
       | (refine Same.cut (m := m) (r := r) (x := x) ?_ ?_ <;> first | (clear_value x; intro hx) | subst x)
       | subst x)
    | split
    | dsimp only)

theorem execHeartbeat_same {m : Nat} {r s : State} (hm : m &&& 290 = 0) (h : Same m r s) (t : Nat) :
    SameO m r (execHeartbeat t s) := by
  unfold execHeartbeat
  repeat' (first
    | with_reducible
        first
        | assumption | apply Same.ite | apply SameO.ite | apply SameO.next | apply State.at_same (mask_sub hm rfl)
        | apply State.emit_same (mask_sub hm rfl)
    | (simp only [Same.lit]; with_reducible refine SameLit.of hm ?_ ?_)
    | (refine fun (p : Part) (hp : Nat.testBit _ (Part.ix p) = false) => ?_; cases p <;> first | exact absurd hp (by decide) | (simp only [Part.same, and_self]; done))
    | (extract_lets +onlyGivenNames x
       first
       | (refine Same.cut (m := m) (r := r) (x := x) ?_ ?_ <;> first | (clear_value x; intro hx) | subst x)
       | subst x)
    | split
    | dsimp only)

theorem execEmcy_same {m : Nat} {r s : State} (hm : m &&& 290 = 0) (h : Same m r s) (t : Nat) :
    SameO m r (execEmcy t s) := by
  unfold execEmcy
  repeat' (first
    | with_reducible
        first
        | assumption | apply Same.ite | apply SameO.ite | apply SameO.next | apply State.at_same (mask_sub hm rfl)
        | apply State.emit_same (mask_sub hm rfl)
    | (simp only [Same.lit]; with_reducible refine SameLit.of hm ?_ ?_)
    | (refine fun (p : Part) (hp : Nat.testBit _ (Part.ix p) = false) => ?_; cases p <;> first | exact absurd hp (by decide) | (simp only [Part.same, and_self]; done))
    | (extract_lets +onlyGivenNames x
       first
       | (refine Same.cut (m := m) (r := r) (x := x) ?_ ?_ <;> first | (clear_value x; intro hx) | subst x)
       | subst x)
    | split
    | dsimp only)

end Sys2Proof.Machine
end

