-- ==== Sys2Proof/Machine/Pins.lean ====
section
/-! DEFINITION. The states of the output pins (27, R511, Table 27-4). -/

namespace Sys2Proof.Machine

open Sys2Proof

/-- The output pins of Table 27-4. -/
inductive OutPin where
  | pwrEn
  | canTxd
  | qspiData
  | qspiSelect
  | qspiReset
  | avs
  | probe (n : Nat)
  | htx (lane : Nat)
  | drgUtx
  | drgDtx
  | drgRefo
  | ddr (iface : Nat)
  | ddrReset (iface : Nat)
  | tdo
  deriving DecidableEq, Repr

/-- The entries of Table 27-4. -/
inductive PinState where
  | unpowered
  | low
  | high
  | floating
  | pulledUp
  | released
  | input
  /-- Driven by its unit. -/
  | driven
  /-- Owner 1 with nothing shown: driven at the inactive level of R285. -/
  | inactive (level : Bool)
  /-- The reset state of the DRAM standard. -/
  | dramReset
  | selfRefresh
  deriving DecidableEq, Repr

/-- The inactive level of a Sunflower pin: data and clock low, syncs and enable by their polarity (R285, Table 12-9). -/
def State.inactiveLevel (s : State) (n : Nat) : Bool := decide (25 ≤ n) && bit (s.og 0x3C0007) (n - 25)

/-- PRB0 to PRB27 by their owner; PRB28 to PRB31 always input (R285, R511). -/
def State.probeState (s : State) (n : Nat) : PinState :=
  if 28 ≤ n ∨ s.og 0x3C0001 = 0 then .input
  else if s.sunDrives then .driven
  else .inactive (s.inactiveLevel n)

/-- The state of an output pin (Table 27-4). -/
def State.pinState (s : State) (p : OutPin) : PinState :=
  let reset := s.pw.inReset
  if s.coreLive = false ∧ reset = false then (match p with | .pwrEn => if s.pw.pwrEn then .high else .low | _ => .unpowered)
  else
    match p with
    | .pwrEn => .high
    | .canTxd => if reset then .high else .driven
    | .qspiData => if reset then .floating else .driven
    | .qspiSelect => if reset then .pulledUp else .driven
    | .qspiReset => if reset then .low else .driven
    | .avs => if reset then .released else .driven
    | .probe n => if reset then .input else s.probeState n
    | .htx n => if reset = false ∧ s.queuesLive = true ∧ s.laneCode n ≠ 0 then .driven else .floating
    | .drgUtx | .drgDtx => if reset = false ∧ s.linkLive = true then .driven else .floating
    | .drgRefo => if reset = false ∧ s.refoDriven = true then .driven else .low
    | .ddr i =>
      if reset then .dramReset
      else if s.pw.dramLive = false then .unpowered
      else if s.mem.selfRefresh.getD i false then .selfRefresh
      else .driven
    | .ddrReset _ => if reset then .low else if s.pw.dramLive = false then .unpowered else .driven
    | .tdo => .floating

end Sys2Proof.Machine
end

