-- ==== Sys2Proof/WellFormed.lean ====
section
/-! DEFINITION. Which commands are well formed: every operand lies in the range that the rule of its row gives it. A
command that is not well formed names nothing the device has; its meaning is still total. -/

namespace Sys2Proof

/-- A client node-ID (R468). -/
def wfClient (x : Nat) : Bool := decide (1 ≤ x ∧ x ≤ 127)

/-- The node-ID an NMT command names, 0 for every node (R463). -/
def wfNode (x : Nat) : Bool := decide (x ≤ 127)

/-- A port. -/
def wfPort (x : Nat) : Bool := decide (x < 4)

/-- A bias loop of a port (R86). -/
def wfLoop (x : Nat) : Bool := decide (x < 4)

/-- A slot of a sweep (R9). -/
def wfSlot (x : Nat) : Bool := decide (x < 8)

/-- A rung (R52). -/
def wfRung (x : Nat) : Bool := decide (x < 16)

/-- A zone (R246). -/
def wfZone (x : Nat) : Bool := decide (x < 256)

/-- A sequence (R253). -/
def wfSeq (x : Nat) : Bool := decide (x < 4)

/-- A capture buffer (Table 12-1). -/
def wfBuf (x : Nat) : Bool := decide (x < 8)

/-- A Hazel engine (R215). -/
def wfEngine (x : Nat) : Bool := decide (x < 12)

/-- A Poppy stage (Table 8-3). -/
def wfStage (x : Nat) : Bool := decide (x < 6)

/-- A transmit lane (Table 14-6). -/
def wfTxLane (x : Nat) : Bool := decide (x < 8)

/-- A receive lane (Table 14-6). -/
def wfRxLane (x : Nat) : Bool := decide (x < 2)

/-- A Cashew bank (R332). -/
def wfBank (x : Nat) : Bool := decide (x < 48)

/-- A dword of a Cashew bank of 512 KiB (Table 10-2). -/
def wfDword (x : Nat) : Bool := decide (x < 65536)

/-- A DRAM interface (R341). -/
def wfIface (x : Nat) : Bool := decide (x < 2)

/-- A Flax channel (R358). -/
def wfChannel (x : Nat) : Bool := decide (x < 16)

/-- A TDC channel (Table 17-2). -/
def wfTdc (x : Nat) : Bool := decide (x < 6)

/-- An interpolator code (R384). -/
def wfCode (x : Nat) : Bool := decide (x ≤ 63)

/-- A TRIG_IN pin (R250). -/
def wfPin (x : Nat) : Bool := decide (x < 2)

/-- A Pip converter (R388). -/
def wfConv (x : Nat) : Bool := decide (x < 2)

/-- An RTD (Table 18-3). -/
def wfRtd (x : Nat) : Bool := decide (x < 4)

/-- The subindex of an RTD setting (R399). -/
def wfSetting (x : Nat) : Bool := decide (1 ≤ x ∧ x ≤ 3)

/-- The phase of an RTD entry (R399). -/
def wfPhase (x : Nat) : Bool := decide (x < 3)

/-- An Acorn monitor (Table 21-5). -/
def wfMonitor (x : Nat) : Bool := decide (x < 8)

/-- The eight die temperature readings (R437). -/
def wfTemps (x : List Int) : Bool := decide (x.length = 8)

/-- The eight Raman converters (R190), or nothing for a firing that is no DTS firing. -/
def wfRaman (x : List (List Nat)) : Bool := decide (x.length = 0 ∨ x.length = 8)

/-- A position of a cascade (R408). -/
def wfPosition (x : Nat) : Bool := decide (x < 8)

/-- The byte that carries a sender position (R408). -/
def wfSender (x : Nat) : Bool := decide (x < 256)

/-- A byte. -/
def wfByte (x : Nat) : Bool := decide (x < 2 ^ 8)

/-- A half. -/
def wfHalf (x : Nat) : Bool := decide (x < 2 ^ 16)

/-- A word. -/
def wfWord (x : Nat) : Bool := decide (x < 2 ^ 32)

/-- A dword. -/
def wfDw (x : Nat) : Bool := decide (x < 2 ^ 64)

/-- An INTEGER32. -/
def wfI32 (x : Int) : Bool := decide (-(2 ^ 31) ≤ x ∧ x < 2 ^ 31)

/-- An INTEGER64. -/
def wfI64 (x : Int) : Bool := decide (-(2 ^ 63) ≤ x ∧ x < 2 ^ 63)

/-- The subindex of a held capture value (R271). -/
def wfLength (x : Nat) : Bool := decide (x = 0xE ∨ x = 0x10 ∨ x = 0x11)

/-- The data bytes of a download frame (R329). -/
def wfDownload (x : List Byte) : Bool := decide (x.length ≤ 492)

/-- A download target (R329). -/
def wfTarget (x : Nat) : Bool := decide (x ≤ 1)

/-- The five DFE taps (R328). -/
def wfDfe (x : List Int) : Bool := decide (x.length = 5)

/-- A CTLE setting (Table 14-6). -/
def wfCtle (x : Nat) : Bool := decide (x < 16)

/-- The operand of a control slot (Table 10-3). -/
def wfOperand (x : Nat) : Bool := decide (x < 2048)

/-- An address register index (Table 10-3). -/
def wfP (x : Nat) : Bool := decide (x < 8)

/-- imm4 (Table 10-3). -/
def wfImm (x : Nat) : Bool := decide (x < 16)

/-- The sub-fields of a load/store slot (Table 10-3). -/
def wfLs (x : LsOp) : Bool := decide (x.reg < 16 ∧ x.k < 8)

/-- The sub-fields of the MAC slot (Table 10-3). -/
def wfMac (x : MacOp) : Bool := decide (x.acc < 2 ∧ x.a < 16 ∧ x.b < 16 ∧ x.mod < 4)

/-- A converter container (Table 6-3): bits 3 to 1 are 0, and bit 0 is set exactly at a full-scale sample. -/
def wfContainer (c : BitVec 16) : Bool :=
  decide (c.toNat / 2 % 8 = 0) && (c.toNat % 2 == 1) == (c.toNat / 16 == 2047 || c.toNat / 16 == 2048)

/-- The four containers of an instant. -/
def wfQuad (q : Quad) : Bool := wfContainer q.xi && wfContainer q.xq && wfContainer q.yi && wfContainer q.yq

/-- What the calibration leaves on a converter: an offset within 4 LSB and a gain within 0.1 dB (R80, Table 6-2). -/
def wfTrim (t : Trim) : Bool := decide (-4 ≤ t.left ∧ t.left ≤ 4 ∧ -10 ≤ t.gain ∧ t.gain ≤ 10)

/-- The skews lie within `n` ps of each other (Table 6-2). -/
def wfSkew (n : Int) (l : List Trim) : Bool := l.all fun a => l.all fun b => decide (a.skew - b.skew ≤ n)

/-- The four converters of each of the four ports: skews within 5 ps in a port and 20 ps between ports. -/
def wfTrims (x : List (List Trim)) : Bool :=
  decide (x.length = 4) && wfSkew 20 x.flatten &&
    x.all fun l => decide (l.length = 4) && l.all wfTrim && wfSkew 5 l

/-- The reader names a part the device has. -/
def wfReader : DramReader → Bool
  | .linseed p _ _ => wfPort p
  | .capture b => wfBuf b
  | .poppy p _ _ => wfPort p
  | .queue q => decide (q < 13)
  | .flax ch => wfChannel ch
  | .replay l _ _ => wfTxLane l
  | .storage q _ => decide (q < 16)
  | .linseedSram p _ => wfPort p
  | .hazelSram e _ => wfEngine e
  | .prepare => true
  | .burst => true
  | .almond => true
  | .walnut => true

/-- A DRAM fit names interfaces 0 and 1 (R341). -/
def wfFit (x : DramFit) : Bool := decide (x.ifaces < 4)

/-- The object a request names has a 16-bit index and an 8-bit subindex (R477). -/
def wfReq (x : UsdoReq) : Bool := match x with
  | .read i n _ => decide (i < 65536 ∧ n < 256)
  | .write i n _ _ => decide (i < 65536 ∧ n < 256)
  | .segment _ _ => true

/-- The operands of a command lie in their ranges. -/
def wellFormed : Instr → Bool
  | .vbatPowerUp _ => true
  | .crystalStart _ => true
  | .corePowerUp _ => true
  | .internalResetRelease _ => true
  | .pgInFall _ => true
  | .resetL _ _ => true
  | .wakePin _ pins => wfByte pins
  | .wakeTimer _ => true
  | .pwrEnHoldEnd _ => true
  | .dormantEntry _ => true
  | .retentionWrite _ => true
  | .powerCommandDormant _ c => wfClient c
  | .powerCommandDoze _ c => wfClient c
  | .powerCommandReady _ c => wfClient c
  | .powerCommandSensing _ c => wfClient c
  | .startRemoteNode _ node => wfNode node
  | .stopRemoteNode _ node => wfNode node
  | .enterPreOperational _ node => wfNode node
  | .resetNode _ node => wfNode node
  | .resetCommunication _ node => wfNode node
  | .dozeToReadyDone _ fit => wfFit fit
  | .activePlanReload _ => true
  | .keptPlanReload _ rung => wfRung rung
  | .coldEntrySeedCheck _ dbm => wfI32 dbm
  | .acquisitionDeadline _ => true
  | .offsetTrim _ found => wfTrims found
  | .sweepBoundary => true
  | .choiceFix _ _ => true
  | .slotFiring slot _ _ raman => wfSlot slot && wfRaman raman
  | .inputLimitAssert _ port _ => wfPort port
  | .reflectionTrip _ port peak => wfPort port && wfI32 peak
  | .seedLowSet _ dbm => wfI32 dbm
  | .seedLowClear _ dbm => wfI32 dbm
  | .biasMeasurement _ port loop _ _ _ => wfPort port && wfLoop loop
  | .measurementTimeout _ port loop => wfPort port && wfLoop loop
  | .biasSearch _ c mask => wfClient c && wfByte mask
  | .darkPortPowerDown _ port => wfPort port
  | .stopShutdown _ => true
  | .holdWarmOn _ c => wfClient c
  | .holdWarmOff _ c => wfClient c
  | .chestnutOutput _ port _ slot conts => wfPort port && wfSlot slot && conts.all wfQuad
  | .workItemRelease _ _ _ _ slot _ _ => wfSlot slot
  | .checkpointInstant _ engine _ => wfEngine engine
  | .budgetExhausted _ engine => wfEngine engine
  | .sweepCompletion _ => true
  | .segmentEmit _ port _ slot _ => wfPort port && wfSlot slot
  | .poppyBlock _ port _ _ => wfPort port
  | .inactiveBankLoad _ c stage _ => wfClient c && wfStage stage
  | .poppyResetWrite _ c => wfClient c
  | .poppyModeWrite _ c mode => wfClient c && wfByte mode
  | .linseedBlockAdd _ _ _ => true
  | .dtsDecode _ port => wfPort port
  | .evaluationInstant _ prb trig tb => wfWord prb && wfByte trig && decide (tb < 65536)
  | .levelTimerExpiry _ seq => wfSeq seq
  | .autoTimerExpiry _ seq => wfSeq seq
  | .zoneUpdate _ zone _ slot => wfZone zone && wfSlot slot
  | .sequenceArm _ c seq => wfClient c && wfSeq seq
  | .sequenceDisarm _ c seq => wfClient c && wfSeq seq
  | .sequenceArmAct _ seq => wfSeq seq
  | .force _ c seq => wfClient c && wfSeq seq
  | .forceAct _ seq => wfSeq seq
  | .hostLine _ c level => wfClient c && wfByte level
  | .zoneThresholdWrite _ c zone _ value => wfClient c && wfZone zone && wfWord value
  | .trigInEdge _ pin code c1 c2 _ => wfPin pin && wfCode code && wfCode c1 && wfCode c2
  | .captureArm _ c buf => wfClient c && wfBuf buf
  | .captureDisarm _ c buf => wfClient c && wfBuf buf
  | .fillingEntry _ buf => wfBuf buf
  | .captureLengthWrite _ c buf sub value => wfClient c && wfBuf buf && wfLength sub && wfWord value
  | .rateWindowEnd _ buf => wfBuf buf
  | .postTimeLimit _ buf => wfBuf buf
  | .captureRecordWrite _ buf _ => wfBuf buf
  | .captureRearm _ buf => wfBuf buf
  | .ownerWrite _ c owner => wfClient c && wfByte owner
  | .sunflowerEnable _ c => wfClient c
  | .sunflowerDisable _ c => wfClient c
  | .verticalSync _ => true
  | .underrun _ _ => true
  | .planInstall _ c rung => wfClient c && wfRung rung
  | .planInstallKeep _ c rung => wfClient c && wfRung rung
  | .removeRung _ c rung => wfClient c && wfRung rung
  | .requestedRung _ c rung => wfClient c && wfRung rung
  | .prepareEnd _ _ seedDbm => wfI32 seedDbm
  | .stageOpen _ c => wfClient c
  | .stageApply _ c => wfClient c
  | .stageDiscard _ c => wfClient c
  | .shadowedWrite _ c index sub _ => wfClient c && wfHalf index && wfByte sub
  | .chainSwitch _ c rung => wfClient c && wfRung rung
  | .prepare _ rung tag => wfRung rung && wfHalf tag
  | .ack _ src tag => wfByte src && wfHalf tag
  | .nak _ src tag => wfByte src && wfHalf tag
  | .ackTimeout _ => true
  | .commit _ tag index => wfHalf tag && wfDw index
  | .cancel _ tag => wfHalf tag
  | .fail _ src tag => wfByte src && wfHalf tag
  | .outcome _ src tag outcome index => wfByte src && wfHalf tag && wfByte outcome && wfDw index
  | .commitLostTimeout _ => true
  | .burstRequest _ c => wfClient c
  | .burstAbandon _ c => wfClient c
  | .burstCaptureEnd _ _ _ data _ => data.all fun l => l.all wfQuad
  | .burstReadout _ => true
  | .userProgram _ c _ => wfClient c
  | .hzNop e => wfEngine e
  | .hzLoop e last => wfEngine e && wfOperand last
  | .hzJmp e target => wfEngine e && wfOperand target
  | .hzBra e target => wfEngine e && wfOperand target
  | .hzBrn e target => wfEngine e && wfOperand target
  | .hzChk e marker => wfEngine e && wfByte marker
  | .hzEnd e _ => wfEngine e
  | .hzIllegalBundle e _ _ => wfEngine e
  | .hzAddrNop e => wfEngine e
  | .hzPadd e k => wfEngine e && wfP k
  | .hzPldp e k imm => wfEngine e && wfP k && wfImm imm
  | .hzPldm e k imm => wfEngine e && wfP k && wfImm imm
  | .hzPldl e k imm => wfEngine e && wfP k && wfImm imm
  | .hzPldz e k imm => wfEngine e && wfP k && wfImm imm
  | .hzPaddi e k imm => wfEngine e && wfP k && wfImm imm
  | .hzPsets e k imm => wfEngine e && wfP k && wfImm imm
  | .hzLdstNop e _ => wfEngine e
  | .hzLdw e o => wfEngine e && wfLs o
  | .hzLdb e o => wfEngine e && wfLs o
  | .hzLdh e o => wfEngine e && wfLs o
  | .hzLdhs e o => wfEngine e && wfLs o
  | .hzLds e o => wfEngine e && wfLs o
  | .hzLda e o => wfEngine e && wfLs o
  | .hzStw e o => wfEngine e && wfLs o
  | .hzStb e o => wfEngine e && wfLs o
  | .hzSth e o => wfEngine e && wfLs o
  | .hzStbp e o => wfEngine e && wfLs o
  | .hzSts e o => wfEngine e && wfLs o
  | .hzSta e o => wfEngine e && wfLs o
  | .hzStaw e o => wfEngine e && wfLs o
  | .hzStaq e o => wfEngine e && wfLs o
  | .hzMacNop e => wfEngine e
  | .hzMac e o => wfEngine e && wfMac o
  | .hzMsu e o => wfEngine e && wfMac o
  | .hzMpy e o => wfEngine e && wfMac o
  | .hzClr e o => wfEngine e && wfMac o
  | .hzAccd e o => wfEngine e && wfMac o
  | .hzSeta e o => wfEngine e && wfMac o
  | .hzRsa e o => wfEngine e && wfMac o
  | .hzLsa e o => wfEngine e && wfMac o
  | .hzDivr e o => wfEngine e && wfMac o
  | .hzExt e o => wfEngine e && wfMac o
  | .hzAdd e o => wfEngine e && wfMac o
  | .hzSub e o => wfEngine e && wfMac o
  | .hzAdds e o => wfEngine e && wfMac o
  | .hzSubs e o => wfEngine e && wfMac o
  | .hzMin e o => wfEngine e && wfMac o
  | .hzMax e o => wfEngine e && wfMac o
  | .hzAnd e o => wfEngine e && wfMac o
  | .hzOr e o => wfEngine e && wfMac o
  | .hzXor e o => wfEngine e && wfMac o
  | .hzRsd e o => wfEngine e && wfMac o
  | .hzLsd e o => wfEngine e && wfMac o
  | .hzCgt e o => wfEngine e && wfMac o
  | .hzCeq e o => wfEngine e && wfMac o
  | .hzSel e o => wfEngine e && wfMac o
  | .hzMov e o => wfEngine e && wfMac o
  | .hzPrm e o => wfEngine e && wfMac o
  | .hzAbs e o => wfEngine e && wfMac o
  | .overrunClear _ c mask => wfClient c && wfHalf mask
  | .statusRecord _ => true
  | .dataFrame _ lane => wfTxLane lane
  | .deviceControlFrame _ lane => wfTxLane lane
  | .credit _ lane _ => wfRxLane lane
  | .replayRequest _ lane _ => wfRxLane lane
  | .hostStatus _ lane mask => wfRxLane lane && wfByte mask
  | .download _ lane target seq _ data => wfRxLane lane && wfTarget target && wfHalf seq && wfDownload data
  | .blockLock _ lane => wfRxLane lane
  | .lockLoss _ lane => wfRxLane lane
  | .electricalIdleEntry _ lane => wfTxLane lane
  | .electricalIdleExit _ lane => wfTxLane lane
  | .adaptation _ lane ctle dfe fom => wfRxLane lane && wfCtle ctle && wfDfe dfe && wfByte fom
  | .bankOwnerWrite _ c bank owner => wfClient c && wfBank bank && wfByte owner
  | .busyStrobe _ bank => wfBank bank
  | .cashewScrub _ bank dword _ => wfBank bank && wfDword dword
  | .refresh _ iface _ => wfIface iface
  | .selfRefreshEntry _ iface => wfIface iface
  | .refreshModeWrite _ c mode => wfClient c && wfByte mode
  | .dramUncorrectable _ addr r => wfDw addr && wfReader r
  | .realTimeOverflow _ _ _ => true
  | .fullScrub _ c => wfClient c
  | .flaxStart _ c ch => wfClient c && wfChannel ch
  | .flaxStop _ c ch => wfClient c && wfChannel ch
  | .flaxBurst _ _ _ => true
  | .descriptorComplete _ => true
  | .jobStart _ c => wfClient c
  | .jobResume _ c => wfClient c
  | .jobAbandon _ c => wfClient c
  | .deviceTimeWrite _ c ns => wfClient c && wfDw ns
  | .timeAtNextPps _ c ns => wfClient c && wfDw ns
  | .rateCorrectionWrite _ c r => wfClient c && wfI32 r
  | .ppsEdge _ code c1 c2 _ => wfCode code && wfCode c1 && wfCode c2
  | .ppsProcess _ => true
  | .ppsLoss _ => true
  | .intervalArm _ c => wfClient c
  | .intervalDisarm _ c => wfClient c
  | .intervalTimeout _ => true
  | .tdcFallback _ ch => wfTdc ch
  | .converter0Pass _ => true
  | .converter1Pass _ c => wfClient c
  | .converter1Timer _ => true
  | .passEnd _ conv _ => wfConv conv
  | .blankIn _ _ => true
  | .rtdSettingWrite _ c rtd sub value phase => wfClient c && wfRtd rtd && wfSetting sub && wfByte value && wfPhase phase
  | .converter1Reference _ c value => wfClient c && wfByte value
  | .calibrationStart _ c => wfClient c
  | .longOperationEnd _ _ => true
  | .enum _ sender => wfSender sender
  | .enumTimeout _ => true
  | .enumEnd _ position => wfPosition position
  | .marker _ code c1 c2 => wfCode code && wfCode c1 && wfCode c2
  | .markerArrival _ _ _ => true
  | .turn _ bins _ => wfWord bins
  | .sync _ _ _ rate state => wfI32 rate && wfByte state
  | .phaseStep _ => true
  | .syncLoss _ => true
  | .boundary _ index _ period => wfDw index && wfWord period
  | .update _ src give => wfByte src && wfByte give
  | .inject _ on link action => wfByte on && wfByte link && wfByte action
  | .sideLock _ _ => true
  | .sideFault _ _ => true
  | .drgRefiLoss _ => true
  | .referenceTimeout _ => true
  | .podSecond _ => true
  | .incomeCredit _ c uj => wfClient c && wfDw uj
  | .balanceWrite _ c uj => wfClient c && wfI64 uj
  | .managedOperation _ c => wfClient c
  | .rungChoice _ => true
  | .energyRefine _ _ => true
  | .onTimeEnd _ => true
  | .watchdog _ => true
  | .restartWalnut _ c => wfClient c
  | .walnutException _ => true
  | .temperatureReading _ temps => wfTemps temps
  | .logEntry _ => true
  | .logSelect _ c number => wfClient c && wfWord number
  | .acornMeasurement _ monitor _ => wfMonitor monitor
  | .avsStep _ _ _ => true
  | .planDerating _ => true
  | .ledgerReset _ c => wfClient c
  | .downloadOpen _ c => wfClient c
  | .downloadClose _ c => wfClient c
  | .downloadAbandon _ c => wfClient c
  | .canFdData _ c _ => wfClient c
  | .imagePrepare _ c => wfClient c
  | .activate _ c => wfClient c
  | .confirm _ c => wfClient c
  | .confirmTimeout _ => true
  | .usdoRequest _ c req => wfClient c && wfReq req
  | .latestBoundaryRead _ c => wfClient c
  | .snapshotRead _ c => wfClient c
  | .registerWrite _ c index sub _ => wfClient c && wfHalf index && wfByte sub
  | .leaseLapse _ => true
  | .transferTimeout _ => true
  | .heartbeat _ => true
  | .emcy _ => true
  | .unlock _ c => wfClient c
  | .injectionStart _ c => wfClient c
  | .injectionStop _ c => wfClient c
  | .reorderHoldTimeout _ => true
  | .vbatLoss _ => true
  | .drgRefiReturn _ => true
  | .messageCrcError _ _ => true
  | .hostFrameDrop _ d => wfRxLane d.lane
  | .jobDone _ _ _ _ => true
  | .downloadVerifyEnd _ => true
  | .activationLoadEnd _ => true
  | .walnutRestartDone _ => true
  | .userItemCheckpoint _ engine => wfEngine engine
  | .pmbusRetry _ _ => true

end Sys2Proof
end

