-- ==== Sys2Proof/Tests/Slice0.lean ====
section
/-! SUPPORT. Tests. A witness theorem shows, for a clause of a statement, a concrete state and concrete operands that meet all
of its hypotheses together: it applies the clause to them, so that the statement itself names the hypotheses. The other tests
compare one operation or one step with numbers taken from the spec or worked by hand. -/

namespace Sys2Proof.Tests

open Sys2Proof Sys2Proof.Machine

-- Each theorem waits for the one before it, so that few are elaborated at a time.
set_option Elab.async false

/-- The command c runs in state s. -/
def Runs (c : Instr) (s : State) : Prop := ∃ u, exec c s = .next u

theorem runs {c : Instr} {s u : State} (h : exec c s = .next u) : Runs c s := ⟨u, h⟩

theorem runsTo {c : Instr} {s : State} {p : State → Prop} (h : ∃ u, exec c s = .next u ∧ p u) : Runs c s :=
  h.elim fun u k => ⟨u, k.1⟩

/-- A decidable fact about concrete states, by the kernel's evaluation. -/
theorem ok {p : Prop} [Decidable p] (h : decide p = true := by decide +kernel) : p := of_decide_eq_true h

/-- What `State.Accepts` asks, as one decidable fact. -/
def acceptsB (s : State) (c idx sub : Nat) (seg : Bool) (b : List Byte) : Bool :=
  s.served && (s.gate c).isNone && ((s.renew c).writeAbort idx sub seg b).isNone && s.ctl.transfer.isNone

theorem acc {s : State} {c idx sub : Nat} {seg : Bool} {b : List Byte}
    (h : acceptsB s c idx sub seg b = true := by decide +kernel) : s.Accepts c idx sub seg b := by
  simp only [acceptsB, Bool.and_eq_true, Option.isNone_iff_eq_none] at h
  exact ⟨h.1.1.1, h.1.1.2, h.1.2, h.2⟩

/-- The fifteen counts and the canonical forms of a sound state, as one decidable fact. -/
def soundB (s : State) : Bool :=
  swf odflt s.objects && swf ddflt s.domains && Memory.wf s.mem.dram && Memory.wf s.mem.cashew && Memory.wf s.hz.local_ &&
    Memory.wf s.hz.prog && decide (s.lad.rungs.length = 16) && decide (s.opt.ports.length = 4) && decide (s.das.ports.length = 4) &&
    decide (s.pop.ports.length = 4) && decide (s.hz.engines.length = 12) && decide (s.ses.zones.length = 256) &&
    decide (s.ses.seqs.length = 4) && decide (s.caps.length = 8) && decide (s.qu.qs.length = 16) && decide (s.fx.chans.length = 16) &&
    decide (s.ln.tx.length = 8) && decide (s.ln.rx.length = 2) && decide (s.ctl.waiting.length ≤ 8) &&
    decide (s.mg.buffer.length ≤ 256)

theorem snd {s : State} (h : soundB s = true := by decide +kernel) : s.Sound := by
  simp only [soundB, Bool.and_eq_true, decide_eq_true_eq] at h
  obtain ⟨⟨⟨⟨⟨⟨⟨⟨⟨⟨⟨⟨⟨⟨⟨⟨⟨⟨⟨h1, h2⟩, h3⟩, h4⟩, h5⟩, h6⟩, h7⟩, h8⟩, h9⟩, h10⟩, h11⟩, h12⟩, h13⟩, h14⟩, h15⟩, h16⟩, h17⟩,
    h18⟩, h19⟩, h20⟩ := h
  exact ⟨h1, h2, h3, h4, h5, h6, h7, h8, h9, h10, h11, h12, h13, h14, h15, h16, h17, h18, h19, h20⟩

/-- An effect that is taken. -/
def taken (e : Except Nat State) : Bool := match e with | .ok _ => true | .error _ => false

theorem okE {e : Except Nat State} (h : taken e = true := by decide +kernel) : ∃ v, e = .ok v := by
  cases e with
  | ok v => exact ⟨v, rfl⟩
  | error _ => cases h

theorem okS {α : Type} {o : Option α} (h : o.isSome = true := by decide +kernel) : ∃ v, o = some v := Option.isSome_iff_exists.1 h

/-- The boundary keeps schedule i. -/
def keeps (i : Nat) (x : Target) : Bool := match x with | .keep j => decide (j = i) | _ => false

theorem okK {i : Nat} {x : Target} (h : keeps i x = true := by decide +kernel) : x = .keep i := by
  cases x with
  | keep j => exact congrArg Target.keep (of_decide_eq_true h)
  | _ => cases h

/-- The newest sweep of a list began at n. -/
def newest (n : Nat) (l : List Flight) : Bool := match l.getLast? with | some f => decide (f.start = n) | none => false

theorem okN {n : Nat} {l : List Flight} (h : newest n l = true := by decide +kernel) : ∃ a f, l = a ++ [f] ∧ f.start = n := by
  unfold newest at h
  cases k : l.getLast? with
  | none => rw [k] at h; cases h
  | some f =>
    rw [k] at h
    obtain ⟨a, e⟩ := List.getLast?_eq_some_iff.1 k
    exact ⟨a, f, e, of_decide_eq_true h⟩

/-! ## States to test on -/

/-- Awake in power state p, with every domain that p has live. -/
def awake (p : PowerState) : State :=
  { State.reset with
    pw := { State.reset.pw with
      power := p, readyDone := true, dramLive := true, photonic := true, serial := true, library := true }
    tb := { State.reset.tb with running := true } }

/-- Change objects: key and value. -/
def put (s : State) (l : List (Nat × Nat)) : State := l.foldl (fun s x => s.os x.1 x.2) s

def withPw (s : State) (f : Power → Power) : State := { s with pw := f s.pw }
def withTb (s : State) (f : TimeBase → TimeBase) : State := { s with tb := f s.tb }

/-- Zero bytes with fields laid over them. -/
def bytes (n : Nat) (l : List (Nat × List Byte)) : List Byte := l.foldl (fun b x => patch b x.1 x.2) (rep n 0)

/-- A small plan: S = 4, P = 6400 ns, W = 2 µs, port 0; one schedule entry on engine 0, one Poppy stage of two taps, the program of
sequence 0, the ladder of buffer 0, and streams of types 1 and 4 on queue 0. -/
def plan : Plan :=
  { header := bytes 64 [(0x0E, [1]), (0x10, le 4 7), (0x16, [4]), (0x18, le 4 400), (0x1C, le 2 1)]
    length := 64
    secs := [⟨1, 0, bytes 128 [(3, [1]), (0x0A, le 2 2)]⟩,
      ⟨0x10, 0, bytes 32 [(4, le 4 4), (8, le 2 1), (0x0A, le 2 1), (0x0E, [4]), (0x14, le 2 1), (0x16, [1])]⟩,
      ⟨0x20, 0, bytes 112 [(4, le 2 1), (6, le 2 1), (17, [1])]⟩,
      ⟨0x30, 0, bytes 32 [(3, [3]), (4, [1]), (6, le 2 2), (0xE, le 2 1)]⟩,
      ⟨0x40, 0, bytes 656 []⟩, ⟨0x41, 0, bytes 16 [(3, [1]), (4, le 4 8)]⟩,
      ⟨0x50, 0, bytes 464 [(2, le 2 2), (432, [1, 0, 0, 0]), (440, le 4 3), (448, [4, 0, 0, 0])]⟩] }

def flight : Flight := ⟨1, 1, 1000, 65536, plan, 0, 0, false, false, rep 4 ⟨4, 0, 0, 0, 0, 0, 0, 0⟩, [], rep 4 0, rep 4 0, [], 1⟩

/-- The plan on rung 0, in Ready. -/
def planned : State := { awake .ready with lad := { State.reset.lad with rungs := some ⟨plan, false⟩ :: rep 15 none } }

/-- Sweep 1 in flight, the next boundary at 7.4 µs. -/
def sensing : State :=
  let s := withPw planned fun w => { w with power := .sensing }
  { s with
    lad := { s.lad with inForce := some plan }
    sw := { s.sw with flights := [flight], next := 7400, last := 1000, lastIndex := 1, lastStamp := 65536 }
    ses := { s.ses with running := true } }

def withPort (s : State) (p : Nat) (f : PortOptics → PortOptics) : State := s.setPort p f

/-- A work item due at 5 ns. -/
def item (user : Bool) : Item := ⟨user, 0, 0, 0, 0, 1, 1, 0, 0, 5, if user then 1536 else 0, 0, 0, 0, 100, 0, [], []⟩

def withEngine (s : State) (f : Engine → Engine) : State := s.setEngine 0 f

def hasItem : State := withEngine sensing fun g => { g with item := some (item false) }
def hasUser : State := withEngine sensing fun g => { g with userItem := some (item true) }

/-! ## Witnesses of the whole-machine statements -/

theorem test_front : Obligations.StepTakesTheFront →
    step { awake .ready with pending := [.ppsLoss 7, .ppsLoss 9] } = exec (.ppsLoss 7) { awake .ready with pending := [.ppsLoss 9] } :=
  fun h => h _ _ _ rfl
theorem test_idle : Obligations.IdleStep → step State.reset = .next State.reset := fun h => h.1 _ rfl
theorem test_sound_kept : Obligations.StepKeepsSound → ∀ t, step State.reset = .next t → t.Sound :=
  fun h t e => (h _ t snd e).1
theorem test_completes : Obligations.EveryCommandCompletes → Runs (.crystalStart 5) State.reset :=
  fun h => runsTo (h _ _ snd)
theorem test_parts : Obligations.CommandsChangeOnlyTheirParts → ∀ t, exec (.crystalStart 5) State.reset = .next t → t.mem = State.reset.mem :=
  fun h t e => h _ _ _ e .mem (by decide)

/-! ## Shell, resets, power, NMT -/

def noVbat : State := withPw State.reset fun w => { w with vbat := false, pwrEn := false, power := .dormant }
def asleep : State := withPw State.reset fun w => { w with power := .dormant, pwrEn := false, armed := true }

theorem test_shell_1 : Obligations.ShellCommandsComplete → Runs (.vbatPowerUp 5) noVbat := fun h => runs (h.1 _ 5 ok)
theorem test_shell_2 : Obligations.ShellCommandsComplete → Runs (.crystalStart 5) State.reset :=
  fun h => runs (h.2.1 _ 5 ok)
theorem test_shell_3 : Obligations.ShellCommandsComplete →
    Runs (.corePowerUp 5) (withPw asleep fun w => { w with pwrEn := true, pgIn := false }) :=
  fun h => runs (h.2.2.1 _ 5 ok ok ok)
theorem test_shell_4 : Obligations.ShellCommandsComplete → Runs (.wakePin 5 1) (put asleep [(0x210019, 1)]) :=
  fun h => runs (h.2.2.2.1 _ 5 1 ok ok ok ok)
theorem test_shell_5 : Obligations.ShellCommandsComplete →
    Runs (.wakeTimer 5) (withPw asleep fun w => { w with wakeTime := 1, shellCount := 1 }) :=
  fun h => runs (h.2.2.2.2.1 _ 5 ok ok ok ok)
theorem test_shell_6 : Obligations.ShellCommandsComplete →
    Runs (.pwrEnHoldEnd 5) (withPw asleep fun w => { w with lowHold := true, lowUntil := 5 }) :=
  fun h => runs (h.2.2.2.2.2.1 _ 5 ok ok)
theorem test_shell_7 : Obligations.ShellCommandsComplete → Runs (.vbatLoss 5) State.reset := fun h => runs (h.2.2.2.2.2.2 _ 5)

theorem test_reset_1 : Obligations.ResetCommandsComplete →
    Runs (.internalResetRelease 5) (withPw State.reset fun w => { w with power := .dormant, inReset := true, releaseAt := 5 }) :=
  fun h => runsTo (h.1 _ 5 ok ok ok ok)
theorem test_reset_2 : Obligations.ResetCommandsComplete → Runs (.pgInFall 5) State.reset :=
  fun h => runs (h.2.1 _ 5 ok ok)
theorem test_reset_3 : Obligations.ResetCommandsComplete → Runs (.resetL 5 1000) State.reset :=
  fun h => runs (h.2.2.1 _ 5 1000 ok ok ok)
theorem test_reset_4 : Obligations.ResetCommandsComplete → Runs (.resetNode 5 0) State.reset :=
  fun h => runs (h.2.2.2.1 _ 5 0 ok ok ok)
theorem test_reset_5 : Obligations.ResetCommandsComplete →
    Runs (.dormantEntry 5) (withPw State.reset fun w => { w with goal := some .dormant }) :=
  fun h => runsTo (h.2.2.2.2.1 _ 5 0 ok ok ok ok
    ok ok)
theorem test_reset_6 : Obligations.ResetCommandsComplete → Runs (.retentionWrite 5) State.reset :=
  fun h => runs (h.2.2.2.2.2.1 _ 5 ok ok ok)

theorem test_power_1 : Obligations.PowerCommandsComplete → Runs (.powerCommandDormant 5 9) (awake .sensing) :=
  fun h => runsTo (h.1 _ 5 9 ok acc)
theorem test_power_2 : Obligations.PowerCommandsComplete → Runs (.powerCommandDoze 5 9) (awake .sensing) :=
  fun h => runsTo (h.2.1 _ 5 9 ok acc)
theorem test_power_3 : Obligations.PowerCommandsComplete → Runs (.powerCommandReady 5 9) (awake .sensing) :=
  fun h => runsTo (h.2.2.1 _ 5 9 ok acc)
theorem test_power_4 : Obligations.PowerCommandsComplete → Runs (.powerCommandReady 5 9) State.reset :=
  fun h => runsTo (h.2.2.2.1 _ 5 9 ok ok acc)
theorem test_power_5 : Obligations.PowerCommandsComplete → Runs (.powerCommandSensing 5 9) State.reset :=
  fun h => runsTo (h.2.2.2.2.1 _ 5 9 ok ok acc)

theorem test_nmt_1 : Obligations.NmtCommandsComplete → Runs (.startRemoteNode 5 1) State.reset :=
  fun h => runsTo (h.1 _ 5 1 ok ok ok ok)
theorem test_nmt_2 : Obligations.NmtCommandsComplete → Runs (.stopRemoteNode 5 0) (awake .sensing) :=
  fun h => runsTo (h.2.1 _ 5 0 ok ok)
theorem test_nmt_3 : Obligations.NmtCommandsComplete → Runs (.enterPreOperational 5 0) (awake .sensing) :=
  fun h => runsTo (h.2.2.1 _ 5 0 ok ok ok)
theorem test_nmt_4 : Obligations.NmtCommandsComplete → Runs (.resetCommunication 5 0) State.reset :=
  fun h => runsTo (h.2.2.2 _ 5 0 ok ok)

theorem test_ready_1 : Obligations.ReadyCommandsComplete →
    Runs (.dozeToReadyDone 5 ⟨1, 1, 2, [6400]⟩) (withPw State.reset fun w => { w with goal := some .ready }) :=
  fun h => runsTo (h.1 _ 5 _ (1, 1, 2, 6400) ok ok ok ok rfl)
theorem test_ready_2 : Obligations.ReadyCommandsComplete →
    Runs (.dozeToReadyDone 5 ⟨2, 1, 2, [6400]⟩) (withPw State.reset fun w => { w with goal := some .sensing }) :=
  fun h => runsTo (h.2.1 _ 5 _ 0 ok ok ok ok rfl ok ok)
theorem test_ready_3 : Obligations.ReadyCommandsComplete →
    Runs (.activePlanReload 5) (withPw (awake .ready) fun w => { w with library := false }) :=
  fun h => runsTo (h.2.2.1 _ 5 ok ok ok)
theorem test_ready_4 : Obligations.ReadyCommandsComplete →
    Runs (.keptPlanReload 5 3) { awake .ready with lad := { State.reset.lad with reloading := [3], store := [StoreEntry.make 3 []] } } :=
  fun h => runsTo (h.2.2.2 _ 5 3 (StoreEntry.make 3 []) ok ok ok ok
    ok)
theorem test_power_6 : Obligations.PowerCommandsComplete → Runs (.powerCommandSensing 5 9) planned :=
  fun h => (okE (e := ((planned.at 5).renew 9).intend.beginEntry)).elim fun v k => runs (h.2.2.2.2.2 _ 5 9 v ok acc k).1

/-! ## Optics, the sweep, light, bias -/

def entering : State := withPw planned fun w => { w with entry := some ⟨false, 0, 120000000, false, false⟩, goal := some .sensing }

theorem test_entry_1 : Obligations.OpticsEntryCommandsComplete → Runs (.coldEntrySeedCheck 5 900) entering :=
  fun h => runs (h.1 _ 5 900 _ rfl ok ok ok)
theorem test_entry_2 : Obligations.OpticsEntryCommandsComplete → Runs (.coldEntrySeedCheck 5 899) entering :=
  fun h => runsTo (h.2.1 _ 5 899 _ rfl ok ok ok ok ok)
theorem test_entry_3 : Obligations.OpticsEntryCommandsComplete → Runs (.acquisitionDeadline 5) planned :=
  fun h => runsTo (h.2.2.1 _ 5 ok ok ok)
theorem test_entry_4 : Obligations.OpticsEntryCommandsComplete →
    Runs (.offsetTrim 90000000 [[⟨1, 0, 0, 0⟩]]) (withPort entering 0 fun p => { p with live := true }) :=
  fun h => runsTo (h.2.2.2.1 _ 90000000 _ _ plan rfl ok ok ok ok)
theorem test_entry_5 : Obligations.OpticsEntryCommandsComplete →
    Runs (.stopShutdown 5) (withPw planned fun w => { w with shutting := true, goal := some .ready }) :=
  fun h => runsTo (h.2.2.2.2.1 _ 5 ok ok ok ok ok)
theorem test_entry_6 : Obligations.OpticsEntryCommandsComplete →
    Runs (.darkPortPowerDown 5 0) (withPort sensing 0 fun p => { p with darkAfter := some 0 }) :=
  fun h => runsTo (h.2.2.2.2.2 _ 5 0 0 ok ok ok)

theorem test_sweep_1 : Obligations.SweepCommandsComplete → Runs .sweepBoundary sensing :=
  fun h => runsTo (h.1 _ 0 plan ok ok ok ok ok okK ok)
theorem test_sweep_2 : Obligations.SweepCommandsComplete → Runs .sweepBoundary (withPw sensing fun w => { w with stopWanted := true }) :=
  fun h => runsTo (h.2.1 _ ok ok ok ok)
theorem test_sweep_3 : Obligations.SweepCommandsComplete → Runs .sweepBoundary entering :=
  fun h => runsTo (h.2.2.1 _ _ 0 plan ok rfl ok ok ok ok ok)
theorem test_sweep_4 : Obligations.SweepCommandsComplete → Runs (.slotFiring 1 0 false []) sensing :=
  fun h => runsTo (h.2.2.2.1 _ flight 1 0 false [] ok ok ok)
theorem test_sweep_5 : Obligations.SweepCommandsComplete → Runs (.choiceFix 0 false) sensing :=
  fun h => (okN (n := sensing.sw.next)
    (l := ((((sensing.at (sensing.sw.next - 2000)).count 53 0).at sensing.sw.next).atBoundary).sw.flights)).elim fun a k =>
      k.elim fun f e => runsTo (h.2.2.2.2.1 _ 0 false a f ok e.1 e.2)
theorem test_sweep_6 : Obligations.SweepCommandsComplete →
    Runs (.sweepCompletion 9000) { sensing with sw := { sensing.sw with flights := [{ flight with fired := 4 }] } } :=
  fun h => runsTo (h.2.2.2.2.2 _ 9000 { flight with fired := 4 } [] ok ok ok)

theorem test_light_1 : Obligations.LightCommandsComplete → Runs (.inputLimitAssert 5 3 ⟨-599, 7⟩) sensing :=
  fun h => runs (h.1 _ 5 3 ⟨-599, 7⟩ ok ok)
theorem test_light_2 : Obligations.LightCommandsComplete →
    Runs (.reflectionTrip 1000 0 301) (withPort sensing 0 fun p => { p with live := true, firing := true }) :=
  fun h => runsTo (h.2.1 _ 1000 0 301 ok ok ok ok ok)
theorem test_light_3 : Obligations.LightCommandsComplete → Runs (.seedLowSet 5 799) sensing :=
  fun h => runsTo (h.2.2.1 _ 5 799 ok ok ok ok ok)
theorem test_light_4 : Obligations.LightCommandsComplete →
    Runs (.seedLowClear 5 901) { sensing with opt := { sensing.opt with seedLow := true } } :=
  fun h => runsTo (h.2.2.2 _ 5 901 ok ok ok)

theorem test_bias_1 : Obligations.BiasCommandsComplete →
    Runs (.biasMeasurement 500 0 3 (-7) 0 false) (withPort planned 0 fun p => { p with live := true }) :=
  fun h => runsTo (h.1 _ 500 0 3 (-7) 0 false ok ok ok ok ok)
theorem test_bias_2 : Obligations.BiasCommandsComplete →
    Runs (.measurementTimeout 1000000000 0 0) (withPort planned 0 fun p => { p with loops := rep 4 ⟨3, 0, none, 0, 0⟩ }) :=
  fun h => runsTo (h.2.1 _ 1000000000 0 0 ok ok ok)
theorem test_bias_3 : Obligations.BiasCommandsComplete → Runs (.biasSearch 5 9 1) planned :=
  fun h => runsTo (h.2.2.1 _ 5 9 1 acc ok ok)
theorem test_bias_4 : Obligations.BiasCommandsComplete → Runs (.holdWarmOn 5 9) (withPw planned fun w => { w with photonic := false }) :=
  fun h => runsTo (h.2.2.2.1 _ 5 9 acc ok ok ok ok ok)
theorem test_bias_5 : Obligations.BiasCommandsComplete → Runs (.holdWarmOff 5 9) planned :=
  fun h => runsTo (h.2.2.2.2.1 _ 5 9 acc ok ok ok ok ok)
theorem test_bias_6 : Obligations.BiasCommandsComplete → Runs (.holdWarmOn 5 9) State.reset :=
  fun h => runs (h.2.2.2.2.2.1 _ 5 9 acc ok ok)
theorem test_bias_7 : Obligations.BiasCommandsComplete → Runs (.holdWarmOff 5 9) sensing :=
  fun h => runs (h.2.2.2.2.2.2 _ 5 9 acc ok ok)
/-! ## Chestnut, work items, shadowed writes, blocks -/

theorem test_work_1 : Obligations.WorkCommandsComplete → Runs (.chestnutOutput 1000 0 1 0 []) sensing :=
  fun h => runsTo (h.1 _ 1000 0 1 0 [] flight ok ok ok ok)
theorem test_work_2 : Obligations.WorkCommandsComplete → Runs (.workItemRelease 1000 false 0 1 0 .none []) { sensing with up := { sensing.up with factory := [] } } :=
  fun h => (h.2.1 _ 1000 0 1 0 [] flight _ ok ok ok ok ok rfl).elim fun u k => k.elim fun _ k => ⟨u, k.1⟩
theorem test_work_3 : Obligations.WorkCommandsComplete → Runs (.checkpointInstant 5 0 0) hasItem :=
  fun h => runsTo (h.2.2.1 _ 5 0 0 (item false) ok ok ok)
theorem test_work_4 : Obligations.WorkCommandsComplete → Runs (.budgetExhausted 5 0) hasUser :=
  fun h => runsTo (h.2.2.2.1 _ 5 0 (item true) ok ok)
theorem test_work_5 : Obligations.WorkCommandsComplete → Runs (.userItemCheckpoint 5 0) hasUser :=
  fun h => runsTo (h.2.2.2.2.1 _ 5 0 (item true) ok ok)

/-- A tick of slot 0 whose three outputs have ended. -/
def work : TickWork := ⟨0, 1, 1, 0, true, rep 4 (some ⟨0, false, false, false, false, false⟩), rep 3 (some (5, 0)), [(0, 3, [])], []⟩
def ticked : State := { sensing with das := { sensing.das with ticks := [work] } }
theorem test_work_6 : Obligations.WorkCommandsComplete → Runs (.segmentEmit 5 0 1 0 2) ticked :=
  fun h => runs (h.2.2.2.2.2 _ 5 0 1 0 2 flight work ⟨1, 0, 0, 0, 0, 3⟩ ok ok ok ok ok ok)

def staged (l : List ShadowWrite) : State := { planned with lad := { planned.lad with stage := some l } }

theorem test_shadow_1 : Obligations.ShadowedWritesComplete → ∃ v, shadow 0x3400 3 [1] planned = .ok v := fun h => ⟨_, h.1 _ _ _ _ ok⟩
theorem test_shadow_2 : Obligations.ShadowedWritesComplete →
    ∃ v, shadow 0x3400 3 [1] (staged (rep 63 ⟨0x3400, 3, [0]⟩)) = .ok v := fun h => ⟨_, h.2.1 _ _ _ _ _ rfl ok⟩
theorem test_shadow_3 : Obligations.ShadowedWritesComplete → Runs (.poppyResetWrite 5 9) planned :=
  fun h => runs (h.2.2.1 _ 5 9 _ acc (h.1 _ _ _ _ ok))
theorem test_shadow_4 : Obligations.ShadowedWritesComplete → Runs (.poppyModeWrite 5 9 1) planned :=
  fun h => runs (h.2.2.2.1 _ 5 9 1 _ acc (h.1 _ _ _ _ ok))
theorem test_shadow_5 : Obligations.ShadowedWritesComplete → Runs (.inactiveBankLoad 5 9 0 (bytes 12 [(0, [63])])) planned :=
  fun h => runs (h.2.2.2.2.1 _ 5 9 0 (bytes 12 [(0, [63])]) (bytes 32 [(3, [3]), (4, [1]), (6, le 2 2), (0xE, le 2 1)]) _
    acc ok ok ok ok ok ok (fun pp hp st hs => by
      have e := List.eq_of_mem_replicate (show pp ∈ List.replicate 4 _ from hp)
      subst e
      cases hs) (h.1 _ _ _ _ ok))
theorem test_shadow_6 : Obligations.ShadowedWritesComplete → Runs (.zoneThresholdWrite 5 9 255 false 7) planned :=
  fun h => runs (h.2.2.2.2.2.1 _ 5 9 255 false 7 _ ok acc ok ok (h.1 _ _ _ _ ok))
theorem test_shadow_7 : Obligations.ShadowedWritesComplete → Runs (.shadowedWrite 5 9 0x2800 2 [200]) planned :=
  fun h => runs (h.2.2.2.2.2.2.1 _ 5 9 (rwSh 2 .u1 0 0 200) 0x2800 2 [200] _ ok ok acc ok ok ok (h.1 _ _ _ _ ok))
theorem test_shadow_8 : Obligations.ShadowedWritesComplete → Runs (.stageOpen 5 9) planned :=
  fun h => runs (h.2.2.2.2.2.2.2.1 _ 5 9 acc ok)
theorem test_shadow_9 : Obligations.ShadowedWritesComplete → Runs (.stageApply 5 9) (staged []) :=
  fun h => runs (h.2.2.2.2.2.2.2.2.1 _ 5 9 [] acc ok)
theorem test_shadow_10 : Obligations.ShadowedWritesComplete → Runs (.stageDiscard 5 9) (staged []) :=
  fun h => runs (h.2.2.2.2.2.2.2.2.2 _ 5 9 [] acc ok)

def poppyTicks : State :=
  { sensing with pop := ⟨modAt Poppy.blank.ports 0 fun pp => { pp with ticks := [⟨4, 1, 1, 65536, plan, 0, []⟩] }⟩ }
theorem test_block_1 : Obligations.BlockCommandsComplete → Runs (.poppyBlock 9000 0 4 0) poppyTicks :=
  fun h => runs (h.1 _ 9000 0 4 0 ⟨4, 1, 1, 65536, plan, 0, []⟩ [] [] ok ok ok)

def period (todo : List Nat) : Period := ⟨0, 0, 1, 0, plan, 0, 0, 0, true, [], [], [], [], [], [], [], [], todo⟩
def integrated : State :=
  { planned with lin := { planned.lin with periods := [period [0]], full := [⟨0, 0, 1, [], []⟩] } }
theorem test_block_2 : Obligations.BlockCommandsComplete → Runs (.linseedBlockAdd 5 true 0) integrated :=
  fun h => runs (h.2.1 _ 5 true 0 ⟨0, 0, 1, [], []⟩ [] ok)
theorem test_block_3 : Obligations.BlockCommandsComplete →
    Runs (.dtsDecode 5 0) { integrated with lin := { integrated.lin with full := [] } } :=
  fun h => runsTo (h.2.2 _ 5 0 (period [0]) [] ok ok ok ok ok)

/-! ## Sesame, captures, Sunflower -/

def seqIn (f : Seq → Seq) : State := { sensing with ses := { sensing.ses with seqs := modAt sensing.ses.seqs 0 f } }

theorem test_eval_1 : Obligations.EvaluationCommandsComplete → Runs (.evaluationInstant 1000 0 0 0) sensing :=
  fun h => (h.1 _ 1000 0 0 0 ok ok).elim fun _ k => runs k.2
theorem test_eval_0 : Obligations.EvaluationCommandsComplete →
    ({ sensing with ses := { sensing.ses with fresh := false, at_ := 4 } }.clockTo 13).ses.at_ = 12 :=
  fun h => (h.2.1 _ 13 ok).1
theorem test_eval_2 : Obligations.EvaluationCommandsComplete → Runs (.levelTimerExpiry 8000 0) (seqIn fun q => { q with timer := some 1 }) :=
  fun h => runs (h.2.2.1 _ 8000 0 1 ok ok)
theorem test_eval_3 : Obligations.EvaluationCommandsComplete → Runs (.autoTimerExpiry 8000 0) (seqIn fun q => { q with auto := some 1 }) :=
  fun h => runs (h.2.2.2.1 _ 8000 0 1 ok ok)
theorem test_eval_4 : Obligations.EvaluationCommandsComplete → Runs (.forceAct 1005 0) (seqIn fun q => { q with forces := [5] }) :=
  fun h => runs (h.2.2.2.2.1 _ 1005 0 5 ok ok)
theorem test_eval_5 : Obligations.EvaluationCommandsComplete → Runs (.sequenceArmAct 1005 0) (seqIn fun q => { q with acts := [(5, true)] }) :=
  fun h => runs (h.2.2.2.2.2.1 _ 1005 0 (5, true) ok ok)
theorem test_eval_6 : Obligations.EvaluationCommandsComplete →
    ∃ u, (seqIn fun q => { q with state := 1, forces := [5, 6] }).seqInstant 0 2000 [] [] = u :=
  fun h => ⟨_, h.2.2.2.2.2.2.1 _ 0 2000 [] [] (plan.sec 0x40 0) ok ok ok⟩
theorem test_eval_9 : Obligations.EvaluationCommandsComplete →
    ∃ u, (seqIn fun q => { q with acts := [(5, true)] }).armAct 0 1005 = u :=
  fun h => ⟨_, h.2.2.2.2.2.2.2.1 _ 1005 0 5 (plan.sec 0x40 0) ok ok ok ok ok⟩

def zonePlan : Plan := { plan with secs := ⟨0x11, 0, bytes 48 [(2, le 2 1), (17, [1])]⟩ :: plan.secs }
def zoned (o : Owed) : State :=
  { sensing with
    lad := { sensing.lad with inForce := some zonePlan }
    sw := { sensing.sw with flights := [{ flight with plan := zonePlan }] }
    ses := { sensing.ses with zones := modAt sensing.ses.zones 0 fun z => { z with waiting := [o] } } }
theorem test_eval_7 : Obligations.EvaluationCommandsComplete →
    Runs (.zoneUpdate 60000 0 1 0) (zoned ⟨1, 0, 4, 60000, some (true, false, 9), false⟩) :=
  fun h => runsTo (h.2.2.2.2.2.2.2.2.1 _ 60000 0 1 0 ⟨1, 0, 4, 60000, some (true, false, 9), false⟩ zonePlan true false 9 ok ok ok rfl)
theorem test_eval_10 : Obligations.EvaluationCommandsComplete →
    Runs (.zoneUpdate 60000 0 1 0) (zoned ⟨1, 0, 4, 60000, none, false⟩) :=
  fun h => runsTo (h.2.2.2.2.2.2.2.2.2.1 _ 60000 0 1 0 ⟨1, 0, 4, 60000, none, false⟩ zonePlan ok ok ok rfl)
theorem test_eval_8 : Obligations.EvaluationCommandsComplete → Runs (.trigInEdge 1000 1 16 16 32 false) (withTb sensing fun b => { b with caps := [[], [], [], [999, 995]] }) :=
  fun h => runsTo (h.2.2.2.2.2.2.2.2.2.2 _ 1000 1 16 16 32 false ok ok ok ok)

theorem test_sesame_1 : Obligations.SesameWritesComplete → Runs (.sequenceArm 5 9 0) planned :=
  fun h => runs (h.1 _ 5 9 0 acc ok ok ok)
theorem test_sesame_2 : Obligations.SesameWritesComplete → Runs (.sequenceDisarm 5 9 3) planned := fun h => runs (h.2.1 _ 5 9 3 acc)
theorem test_sesame_3 : Obligations.SesameWritesComplete → Runs (.force 5 9 0) (seqIn fun q => { q with state := 1 }) :=
  fun h => runs (h.2.2.1 _ 5 9 0 acc ok)
theorem test_sesame_4 : Obligations.SesameWritesComplete → Runs (.hostLine 5 9 1) planned :=
  fun h => runs (h.2.2.2.1 _ 5 9 1 acc ok)
theorem test_sesame_5 : Obligations.SesameWritesComplete → Runs (.ownerWrite 5 9 1) planned :=
  fun h => runs (h.2.2.2.2.1 _ 5 9 1 acc ok)
theorem test_sesame_6 : Obligations.SesameWritesComplete → Runs (.sunflowerEnable 5 9) (put planned [(0x3C0001, 1), (0x3C0008, 64)]) :=
  fun h => runs (h.2.2.2.2.2.1 _ 5 9 acc ok ok ok)
theorem test_sesame_7 : Obligations.SesameWritesComplete → Runs (.sunflowerDisable 5 9) planned :=
  fun h => runs (h.2.2.2.2.2.2.1 _ 5 9 acc)
theorem test_sesame_8 : Obligations.SesameWritesComplete → Runs (.captureArm 5 9 0) (put planned [(0x39000E, 16)]) :=
  fun h => runs (h.2.2.2.2.2.2.2.1 _ 5 9 0 acc ok ok ok ok)
theorem test_sesame_9 : Obligations.SesameWritesComplete → Runs (.captureDisarm 5 9 7) planned :=
  fun h => runs (h.2.2.2.2.2.2.2.2.1 _ 5 9 7 acc)
theorem test_sesame_10 : Obligations.SesameWritesComplete → Runs (.captureLengthWrite 5 9 7 0x11 8) planned :=
  fun h => runs (h.2.2.2.2.2.2.2.2.2.1 _ 5 9 7 8 ok acc)
theorem test_sesame_11 : Obligations.SesameWritesComplete →
    Runs (.captureLengthWrite 5 9 0 0x10 4) (put planned [(0x390001, 1), (0x39000E, 16)]) :=
  fun h => runs (h.2.2.2.2.2.2.2.2.2.2.1 _ 5 9 0 4 ok acc ok)
theorem test_sesame_12 : Obligations.SesameWritesComplete → Runs (.captureLengthWrite 5 9 0 0xE 0) planned :=
  fun h => runs (h.2.2.2.2.2.2.2.2.2.2.2 _ 5 9 0 0 ok acc ok ok)

def capIn (l : List (Nat × Nat)) (f : Capture → Capture) : State := { put sensing l with caps := modAt sensing.caps 0 f }

theorem test_capture_1 : Obligations.CaptureCommandsComplete → Runs (.fillingEntry 1005 0) (capIn [(0x39000E, 16)] fun c => { c with arms := [5] }) :=
  fun h => runs (h.1 _ 1005 0 5 [] ok ok ok ok ok ok)
theorem test_capture_2 : Obligations.CaptureCommandsComplete →
    Runs (.captureRearm 1005 0) (capIn [(0x390001, 4)] fun c => { c with rearmAt := some 5 }) :=
  fun h => runs (h.2.1 _ 1005 0 5 ok ok ok ok)
theorem test_capture_3 : Obligations.CaptureCommandsComplete → (sensing.fillCapture 7 5).capState 7 = 1 :=
  fun h => (h.2.2.1 _ 7 5 ok ok).1
theorem test_capture_4 : Obligations.CaptureCommandsComplete → Runs (.rateWindowEnd 65536 0) (capIn [(0x390001, 1)] id) :=
  fun h => runs (h.2.2.2.1 _ 65536 0 1 8 0 ok ok ok)
theorem test_capture_5 : Obligations.CaptureCommandsComplete → Runs (.postTimeLimit 1000 0) (capIn [(0x390001, 2), (0x390011, 1)] id) :=
  fun h => runs (h.2.2.2.2.1 _ 1000 0 ok ok ok)
def handing : State :=
  { capIn [(0x390001, 3)] fun c => { c with entries := rep 2049 ([], 0, false) } with
    qu := { sensing.qu with qs := modAt sensing.qu.qs 0 fun q => { q with capKiB := 64 } } }
theorem test_capture_6 : Obligations.CaptureCommandsComplete → Runs (.captureRecordWrite 5 0 false) handing :=
  fun h => runs (h.2.2.2.2.2.1 _ 5 0 false 0 ok ok ok ok ok ok)
theorem test_capture_9 : Obligations.CaptureCommandsComplete →
    Runs (.captureRecordWrite 5 0 false) { handing with caps := modAt handing.caps 0 fun c => { c with last := some ([0, 0, 0, 0], 1, 65536) } } :=
  fun h => runs (h.2.2.2.2.2.2.1 _ 5 0 false 0 ([0, 0, 0, 0], 1, 65536) ok ok ok ok)
theorem test_capture_7 : Obligations.CaptureCommandsComplete →
    Runs (.verticalSync 5) { planned with sun := { planned.sun with startWanted := true } } :=
  fun h => runsTo (h.2.2.2.2.2.2.2.1 _ 5 ok ok)
theorem test_capture_8 : Obligations.CaptureCommandsComplete →
    Runs (.underrun 5 3) { planned with sun := { planned.sun with scanning := true } } :=
  fun h => runs (h.2.2.2.2.2.2.2.2 _ 5 3 ok)
/-! ## The ladder and chain switches -/

theorem test_ladder_1 : Obligations.LadderCommandsComplete → Runs (.planInstall 5 9 15) planned :=
  fun h => runsTo (h.1 _ 5 9 15 acc ok ok)
theorem test_ladder_2 : Obligations.LadderCommandsComplete → Runs (.planInstallKeep 5 9 15) planned :=
  fun h => runsTo (h.2.1 _ 5 9 15 acc ok ok)
theorem test_ladder_3 : Obligations.LadderCommandsComplete → Runs (.removeRung 5 9 15) planned :=
  fun h => runsTo (h.2.2.1 _ 5 9 15 acc ok ok)
def twoRungs : State := { sensing with lad := { sensing.lad with rungs := some ⟨plan, false⟩ :: some ⟨plan, false⟩ :: rep 14 none } }
theorem test_ladder_4 : Obligations.LadderCommandsComplete → Runs (.requestedRung 5 9 1) twoRungs :=
  fun h => (h.2.2.2.1 _ 5 9 1 acc ok ok ok ok).elim fun u k => k.elim fun _ k => ⟨u, k.1⟩
def switching : State := { twoRungs with lad := { twoRungs.lad with switch := some ⟨1, 0, true, false, 0, [], none, none⟩ } }
theorem test_ladder_5 : Obligations.LadderCommandsComplete → Runs (.prepareEnd 5 true 0) switching :=
  fun h => (okS (o := (switching.at 5).showOptics.reservePlan 1 plan)).elim fun v k =>
    runsTo (h.2.2.2.2.1 _ 5 0 ⟨1, 0, true, false, 0, [], none, none⟩ plan v ok ok ok ok ok ok ok k)
theorem test_ladder_6 : Obligations.LadderCommandsComplete → Runs (.prepareEnd 5 false 0) switching :=
  fun h => runsTo (h.2.2.2.2.2 _ 5 false 0 ⟨1, 0, true, false, 0, [], none, none⟩ plan ok ok ok ok ok (.inl rfl))

/-- A member of a chain: both sides up. -/
def member : State :=
  withPw (put planned [(0x4C0005, 2), (0x4C0006, 2)]) fun w => { w with sensedHead := false }
def asked : State := { member with lad := { member.lad with member := some ⟨0, 6, false, 0, false⟩ } }
theorem test_member_1 : Obligations.ChainMemberCommandsComplete → Runs (.prepare 5 0 6) member :=
  fun h => (h.1 _ 5 0 6 ok ok ok).elim fun u k => k.elim fun _ k => ⟨u, k.1⟩
theorem test_member_2 : Obligations.ChainMemberCommandsComplete → Runs (.commit 5 6 100) member :=
  fun h => runsTo (h.2.1 _ 5 6 100 ok ok)
theorem test_member_3 : Obligations.ChainMemberCommandsComplete → Runs (.cancel 5 6) asked :=
  fun h => runsTo (h.2.2.1 _ 5 6 ⟨0, 6, false, 0, false⟩ ok ok ok ok ok)
theorem test_member_4 : Obligations.ChainMemberCommandsComplete → Runs (.commitLostTimeout 250000000)
    { asked with lad := { asked.lad with member := some ⟨0, 6, true, 0, false⟩, switch := some ⟨0, 0, true, true, 0, [], some 6, none⟩ } } :=
  fun h => runsTo (h.2.2.2.1 _ 250000000 ⟨0, 6, true, 0, false⟩ ⟨0, 0, true, true, 0, [], some 6, none⟩ ok ok ok ok ok ok ok ok)
theorem test_member_5 : Obligations.ChainMemberCommandsComplete → Runs (.ack 5 2 6) member :=
  fun h => runs (h.2.2.2.2 _ 5 2 6 ok ok).1

/-- A head of two devices with a chain switch open. -/
def head : State :=
  let s := put planned [(0x4C0005, 2), (0x4C0006, 2), (0x4C0010, 2)]
  { s with lad := { s.lad with chain := some ⟨0, 6, 0, [], none, false, false, [], 0⟩ } }
theorem test_head_1 : Obligations.ChainHeadCommandsComplete → Runs (.chainSwitch 5 9 0) planned :=
  fun h => (h.1 _ 5 9 0 acc ok ok ok).elim fun u k => k.elim fun _ k => ⟨u, k.1⟩
theorem test_head_2 : Obligations.ChainHeadCommandsComplete → Runs (.ack 5 1 6) head :=
  fun h => runsTo (h.2.1 _ 5 1 6 ⟨0, 6, 0, [], none, false, false, [], 0⟩ ok ok ok ok ok ok ok)
theorem test_head_3 : Obligations.ChainHeadCommandsComplete → Runs (.nak 5 1 6) head :=
  fun h => (h.2.2.1 _ 5 1 6 ⟨0, 6, 0, [], none, false, false, [], 0⟩ ok ok ok ok ok ok ok).elim fun u k => k.elim fun _ k => ⟨u, k.1⟩
theorem test_head_4 : Obligations.ChainHeadCommandsComplete → Runs (.ackTimeout 150000000) head :=
  fun h => (h.2.2.2.1 _ 150000000 ⟨0, 6, 0, [], none, false, false, [], 0⟩ ok ok ok ok).elim fun u k => k.elim fun _ k => ⟨u, k.1⟩
theorem test_head_5 : Obligations.ChainHeadCommandsComplete → Runs (.fail 5 1 6) head :=
  fun h => (h.2.2.2.2.1 _ 5 1 6 ⟨0, 6, 0, [], none, false, false, [], 0⟩ ok ok ok ok ok ok).elim fun u k => k.elim fun _ k => ⟨u, k.1⟩
theorem test_head_6 : Obligations.ChainHeadCommandsComplete → Runs (.outcome 5 1 6 1 0) head :=
  fun h => runs (h.2.2.2.2.2 _ 5 1 6 1 0 ⟨0, 6, 0, [], none, false, false, [], 0⟩ ok ok ok ok)

/-! ## Bursts and Hazel -/

def bursting : State := put sensing [(0x403001, 1), (0x403002, 2), (0x403003, 0), (0x403007, 1)]
def burst : Burst :=
  { source := 0, mask := 1, start := 1, sweeps := 1, slot := 0, n0 := 0, count := 0, begun := true, begins := 0, stop := some 0
    got := false, data := [], base := 0, captured := 0, truncated := false, noFiring := false, abandoned := false, stamp := 0
    variant := 0, planP := 400, planL := 7, planS := 4, sent := 0, headSent := false, endedAt := 0, bad := false }
theorem test_burst_1 : Obligations.BurstCommandsComplete → Runs (.burstRequest 5 9) bursting :=
  fun h => (h.1 _ 5 9 plan acc ok ok ok ok ok ok ok ok).elim fun u k => k.elim fun _ k => ⟨u, k.1⟩
theorem test_burst_2 : Obligations.BurstCommandsComplete → Runs (.burstAbandon 5 9) planned :=
  fun h => runsTo (h.2.1 _ 5 9 acc)
theorem test_burst_3 : Obligations.BurstCommandsComplete → Runs (.burstCaptureEnd 5 false false [] 0)
    { put sensing [(0x403009, 2)] with ch := { sensing.ch with burst01 := some burst } } :=
  fun h => runsTo (h.2.2.1 _ 5 false [] 0 burst ok ok ok ok)
theorem test_burst_6 : Obligations.BurstCommandsComplete → Runs (.burstCaptureEnd 5 true false [] 0)
    { put sensing [(0x40300C, 2)] with ch := { sensing.ch with burst2 := some { burst with source := 2, got := true } } } :=
  fun h => runsTo (h.2.2.2.1 _ 5 false [] 0 { burst with source := 2, got := true } ok ok ok)
def long (n : Nat) : Burst := { burst with source := 2, data := rep (65536 + n) 0, headSent := true }
theorem long_size (n : Nat) : (long n).size = 65536 + n := by
  have h : (rep (65536 + n) (0 : Byte)).length = 65536 + n := List.length_replicate
  unfold long
  generalize rep (65536 + n) (0 : Byte) = d at *
  simp [Burst.size, h]
theorem long_part (s : State) (n : Nat) : (s.burstPayload (long n)).1.length = 65544 := by
  have h : (rep (65536 + n) (0 : Byte)).length = 65536 + n := List.length_replicate
  unfold long
  generalize rep (65536 + n) (0 : Byte) = d at *
  simp [State.burstPayload, State.burstPart, Burst.size, burst, le, h]
theorem long_fits (s t : State) (n : Nat) (h : s.fits 0 65544 = true) : s.fits 0 (t.burstPayload (long n)).1.length = true := by
  rw [long_part]; exact h
theorem long_more (n : Nat) (h : 0 < n) : (long n).sent + 65536 < (long n).size := by
  rw [long_size]; show 0 + 65536 < _; omega
theorem long_last : (long 0).size ≤ (long 0).sent + 65536 := by
  rw [long_size]; show _ ≤ 0 + 65536; omega
/-- A plan whose queue 0 takes the burst records, with room for one. -/
def reading (n : Nat) : State :=
  { sensing with
    ch := { sensing.ch with burst2 := some (long n), order := [true] }
    lad := { sensing.lad with
      rungs := some ⟨{ plan with secs := [⟨0x50, 0, bytes 448 [(2, le 2 1), (432, [5, 0, 0, 0])]⟩] }, false⟩ :: rep 15 none }
    qu := { sensing.qu with qs := modAt sensing.qu.qs 0 fun q => { q with capKiB := 128 } } }
theorem test_burst_4 : Obligations.BurstCommandsComplete → Runs (.burstReadout 5) (reading 1) :=
  fun h => runs ((h.2.2.2.2.1 _ 5 true (long 1) [] 0 rfl rfl rfl ok ok (long_fits _ _ 1 ok)).1 (long_more 1 ok))
theorem test_burst_7 : Obligations.BurstCommandsComplete → Runs (.burstReadout 5) (reading 0) :=
  fun h => runsTo ((h.2.2.2.2.1 _ 5 true (long 0) [] 0 rfl rfl rfl ok ok (long_fits _ _ 0 ok)).2 long_last)
theorem test_burst_8 : Obligations.BurstCommandsComplete →
    Runs (.burstReadout 5) { reading 0 with ch := { sensing.ch with gone := [{ burst with abandoned := true }] } } :=
  fun h => runsTo (h.2.2.2.2.2.1 _ 5 { burst with abandoned := true } [] 0 ok ok ok ok ok)
theorem test_burst_5 : Obligations.BurstCommandsComplete → Runs (.userProgram 5 9 (bytes 16 [])) planned :=
  fun h => runs (h.2.2.2.2.2.2 _ 5 9 (bytes 16 []) acc ok ok)

theorem ctxFits {s : State} {e : Nat} {c : Ctx} {n : Nat} : s.InBudget e false c n := fun _ h => nomatch h

theorem test_hazel_1 : Obligations.HazelControlComplete → Runs (.hzNop 0) hasItem := fun h => runs (h.1 _ 0 false ok ok ctxFits)
theorem test_hazel_2 : Obligations.HazelControlComplete → Runs (.hzChk 0 7) hasItem :=
  fun h => runs (h.2.1 _ 0 7 false ok ok ctxFits)
/-- A user item in its program region with loop count n. -/
def withCount (n : BitVec 16) : State :=
  withEngine hasUser fun g => { g with user := { g.user with pc := 1536, issue := { g.user.issue with lc := rep 4 n } } }
theorem userFits {s : State} {c : Ctx} {n : Nat} (h : (s.engine 0).userItem = some (item true))
    (k : max c.cycle c.stall + 1 + bankStall c.banks + n ≤ 100) : s.InBudget 0 true c n := fun it _ e => by
  rw [h] at e
  cases e
  exact k
theorem test_hazel_3 : Obligations.HazelControlComplete → Runs (.hzLoop 0 1540) (withCount 3) :=
  fun h => runs (h.2.2.1 _ 0 1540 true ok ok ok ok ok ok ok ok ok (userFits ok ok))
theorem test_hazel_4 : Obligations.HazelControlComplete → Runs (.hzLoop 0 1540) (withCount 0) :=
  fun h => runs (h.2.2.2.1 _ 0 1540 true ok ok ok ok ok ok ok ok ok (userFits ok ok))
/-- LOOP to its own bundle. -/
theorem test_hazel_21 : Obligations.HazelControlComplete → Runs (.hzLoop 0 0) hasItem :=
  fun h => runs (h.2.2.2.2.1 _ 0 0 false ok (.inr (.inl ok)))
theorem test_hazel_5 : Obligations.HazelControlComplete → Runs (.hzJmp 0 1535) hasItem :=
  fun h => runs (h.2.2.2.2.2.1 _ 0 1535 false ok ok ok ctxFits)
theorem test_hazel_6 : Obligations.HazelControlComplete → Runs (.hzBra 0 1535) hasItem :=
  fun h => runs (h.2.2.2.2.2.2.1 _ 0 1535 false ok ok ok ctxFits)
theorem test_hazel_7 : Obligations.HazelControlComplete → Runs (.hzBrn 0 1535) hasItem :=
  fun h => runs (h.2.2.2.2.2.2.2.1 _ 0 1535 false ok ok ok ctxFits)
theorem test_hazel_8 : Obligations.HazelControlComplete → Runs (.hzEnd 0 9) hasItem :=
  fun h => runs (h.2.2.2.2.2.2.2.2.1 _ 0 9 (item false) ok ok ok)
/-- A user item whose parameter word 15 holds n. -/
def outbox (n : Nat) : State :=
  let s := { hasUser with hz := { hasUser.hz with local_ := memWrite [] 0x1FFFC (le 4 n) } }
  { s with qu := { s.qu with qs := modAt s.qu.qs 0 fun q => { q with capKiB := 64 } } }
theorem test_hazel_9 : Obligations.HazelControlComplete → Runs (.hzEnd 0 9) (outbox 4) :=
  fun h => runs ((h.2.2.2.2.2.2.2.2.2.1 _ 0 9 (item true) ok ok ok (userFits ok ok)).2.2 ok ok ok ok ok)
theorem test_hazel_22 : Obligations.HazelControlComplete → Runs (.hzEnd 0 9) (outbox 0) :=
  fun h => runs ((h.2.2.2.2.2.2.2.2.2.1 _ 0 9 (item true) ok ok ok (userFits ok ok)).1 ok)
theorem test_hazel_23 : Obligations.HazelControlComplete → Runs (.hzEnd 0 9) (outbox 4100) :=
  fun h => runs ((h.2.2.2.2.2.2.2.2.2.1 _ 0 9 (item true) ok ok ok (userFits ok ok)).2.1 ok)
theorem test_hazel_10 : Obligations.HazelControlComplete → Runs (.hzIllegalBundle 0 9 true) hasItem :=
  fun h => runs (h.2.2.2.2.2.2.2.2.2.2.1 _ 0 9 true (item false) ok ok)
theorem test_hazel_11 : Obligations.HazelControlComplete → Runs (.hzIllegalBundle 0 9 false) hasUser :=
  fun h => runs (h.2.2.2.2.2.2.2.2.2.2.2 _ 0 9 false ok)
theorem test_hazel_12 : Obligations.HazelAddressComplete → Runs (.hzPaddi 0 7 15) hasItem :=
  fun h => runs ((h _ 0 false ok).2.2.1 7 15)
def lsOp (reg : Nat) : LsOp := ⟨false, reg, 7, true, .none, 0⟩
def lsBad (reg : Nat) : LsOp := ⟨true, reg, 7, true, .double, 0⟩
/-- Every pointer at v. -/
def pointing (v : BitVec 32) : State :=
  withEngine hasItem fun g => { g with lib := { g.lib with issue := { g.lib.issue with p := rep 8 v } } }
theorem test_hazel_13 : Obligations.HazelLoadsComplete → Runs (.hzLdw 0 (lsOp 15)) hasItem :=
  fun h => runs (((((h _ 0 false ok).2.1 _ (.head _) (lsOp 15)).2 ok).2 ok))
theorem test_hazel_24 : Obligations.HazelLoadsComplete → Runs (.hzLdw 0 (lsBad 15)) hasItem :=
  fun h => runs (((((h _ 0 false ok).2.1 _ (.head _) (lsBad 15)).2 ok).1 ok))
theorem test_hazel_25 : Obligations.HazelLoadsComplete → Runs (.hzLdw 0 (lsOp 15)) (pointing 2) :=
  fun h => runs (((h _ 0 false ok).2.1 _ (.head _) (lsOp 15)).1 ok)
theorem test_hazel_14 : Obligations.HazelLoadsComplete → Runs (.hzLds 0 (lsOp 15)) hasItem :=
  fun h => runs (((h _ 0 false ok).2.2.1 (lsOp 15)).2 ok |>.2 ok)
theorem test_hazel_26 : Obligations.HazelLoadsComplete → Runs (.hzLds 0 (lsBad 0)) hasItem :=
  fun h => runs (((h _ 0 false ok).2.2.1 (lsBad 0)).2 ok |>.1 ok)
theorem test_hazel_27 : Obligations.HazelLoadsComplete → Runs (.hzLds 0 (lsOp 15)) (pointing 0xF0000) :=
  fun h => runs (((h _ 0 false ok).2.2.1 (lsOp 15)).1 ok)
theorem test_hazel_15 : Obligations.HazelLoadsComplete → Runs (.hzLda 0 (lsOp 1)) hasItem :=
  fun h => runs ((((h _ 0 false ok).2.2.2 (lsOp 1)).2 ok).2 ok |>.2 ok)
theorem test_hazel_28 : Obligations.HazelLoadsComplete → Runs (.hzLda 0 (lsBad 1)) hasItem :=
  fun h => runs ((((h _ 0 false ok).2.2.2 (lsBad 1)).2 ok).2 ok |>.1 ok)
theorem test_hazel_29 : Obligations.HazelLoadsComplete → Runs (.hzLda 0 (lsOp 1)) (pointing 0xFFFC) :=
  fun h => runs ((((h _ 0 false ok).2.2.2 (lsOp 1)).2 ok).1 ok)
theorem test_hazel_30 : Obligations.HazelLoadsComplete → Runs (.hzLda 0 (lsOp 2)) hasItem :=
  fun h => runs (((h _ 0 false ok).2.2.2 (lsOp 2)).1 ok)
theorem test_hazel_16 : Obligations.HazelStoresComplete → Runs (.hzStw 0 (lsOp 15)) hasItem :=
  fun h => (((h _ 0 false ok).1 _ (.head _) (lsOp 15)).2.2 ok ok).elim fun _ k => runs k.1
theorem test_hazel_31 : Obligations.HazelStoresComplete → Runs (.hzStaq 0 (lsOp 2)) hasItem :=
  fun h => runs (((h _ 0 false ok).1 _ (.tail _ (.tail _ (.tail _ (.tail _ (.tail _ (.tail _ (.head _))))))) (lsOp 2)).1 rfl ok)
theorem test_hazel_32 : Obligations.HazelStoresComplete → Runs (.hzStw 0 (lsOp 15)) (pointing 2) :=
  fun h => runs (((h _ 0 false ok).1 _ (.head _) (lsOp 15)).2.1 ok ok)
theorem test_hazel_17 : Obligations.HazelStoresComplete → Runs (.hzSts 0 (lsOp 0)) hasItem :=
  fun h => (((h _ 0 false ok).2 (lsOp 0)).2 ok).elim fun _ k => runs k.1
theorem test_hazel_33 : Obligations.HazelStoresComplete → Runs (.hzSts 0 (lsOp 0)) (pointing 2) :=
  fun h => runs (((h _ 0 false ok).2 (lsOp 0)).1 ok)
/-- A store of 7 to address 0 waits for the end of its bundle. -/
def storing : State := withEngine hasItem fun g => { g with lib := { g.lib with stores := [(0, 7)] } }
theorem test_hazel_18 : Obligations.HazelBundleStores → ∃ v, (storing.commitBundle 0 false 1 [] 0).hzByte 0 false 0 = v :=
  fun h => ⟨_, (h.2.2 _ 0 false 1 [] 0 snd ok ok).1 0 ok⟩
theorem test_hazel_34 : Obligations.HazelBundleStores → ∃ v, (storing.commitBundle 0 false 1 [] 0).hzByte 1 false 0 = v :=
  fun h => ⟨_, (h.2.2 _ 0 false 1 [] 0 snd ok ok).2.1 1 false 0 ok ok ok⟩
theorem test_hazel_19 : Obligations.HazelAccumulatorsComplete → Runs (.hzRsa 0 ⟨1, 15, 15, 3⟩) hasItem :=
  fun h => runs (((h _ 0 false ok).2 ⟨1, 15, 15, 3⟩).2.2.2.2.2.2.1 ok)
theorem test_hazel_35 : Obligations.HazelAccumulatorsComplete → Runs (.hzLsa 0 ⟨1, 15, 0, 4⟩) hasItem :=
  fun h => runs (((h _ 0 false ok).2 ⟨1, 15, 0, 4⟩).2.2.2.2.2.2.2.2.2.1 ok).2
theorem test_hazel_36 : Obligations.HazelAccumulatorsComplete → Runs (.hzExt 0 ⟨0, 1, 0, 1⟩) hasItem :=
  fun h => runs (((h _ 0 false ok).2 ⟨0, 1, 0, 1⟩).2.2.2.2.2.2.2.2.2.2.1 ok)
theorem test_hazel_37 : Obligations.HazelAccumulatorsComplete → Runs (.hzExt 0 ⟨0, 1, 0, 0⟩) hasItem :=
  fun h => runs (((h _ 0 false ok).2 ⟨0, 1, 0, 0⟩).2.2.2.2.2.2.2.2.2.2.2 ok)
theorem test_hazel_20 : Obligations.HazelRegistersComplete → Runs (.hzLsd 0 ⟨0, 15, 7, 1⟩) hasItem :=
  fun h => runs (((h _ 0 false ok).2 ⟨0, 15, 7, 1⟩ ok).2.2.2.2.2.1 ok)
theorem test_hazel_38 : Obligations.HazelRegistersComplete → Runs (.hzPrm 0 ⟨1, 0, 0, 0⟩) hasItem :=
  fun h => runs ((h _ 0 false ok).1 ⟨1, 0, 0, 0⟩ ok _ (by simp))
theorem test_hazel_39 : Obligations.HazelRegistersComplete → Runs (.hzRsd 0 ⟨0, 0, 8, 1⟩) hasItem :=
  fun h => runs (((h _ 0 false ok).2 ⟨0, 0, 8, 1⟩ ok).2.2.2.2.2.2.2.2.2.2.1 ok).1
theorem test_hazel_40 : Obligations.HazelRegistersComplete → Runs (.hzAbs 0 ⟨0, 0, 0, 3⟩) hasItem :=
  fun h => runs (((h _ 0 false ok).2 ⟨0, 0, 0, 3⟩ ok).2.2.2.2.2.2.2.2.2.2.2.1 ok)
theorem test_hazel_41 : Obligations.HazelAccumulatorsComplete → Runs (.hzMac 0 ⟨1, 15, 15, 3⟩) hasItem :=
  fun h => runs ((h _ 0 false ok).2 ⟨1, 15, 15, 3⟩).1
theorem test_hazel_42 : Obligations.HazelRegistersComplete → Runs (.hzAdd 0 ⟨0, 15, 15, 3⟩) hasItem :=
  fun h => runs (((h _ 0 false ok).2 ⟨0, 15, 15, 3⟩ ok).1 _ (.head _))
theorem test_hazel_43 : Obligations.HazelAddressComplete → Runs (.hzPsets 0 1 15) hasItem :=
  fun h => runs ((h _ 0 false ok).2.2.2.2.2.2.2.2 1 15 ok)
theorem test_hazel_44 : Obligations.HazelRegistersComplete → Runs (.hzAbs 0 ⟨0, 0, 0, 0⟩) hasItem :=
  fun h => runs (((h _ 0 false ok).2 ⟨0, 0, 0, 0⟩ ok).2.2.2.2.2.2.2.2.2.2.2.2 ok)

/-! ## Access rules, memory and time -/

theorem test_gate_1 : Obligations.SessionGate → Runs (.usdoRequest 5 9 (.write 0x1017 0 false [1, 0])) State.reset :=
  fun h => (((h _ 5 9 _).2.2 ok ok (Or.inl ok) snd).2.2 _ _ _ rfl).2 ok ok |> runs
theorem test_gate_2 : Obligations.SessionGate → Runs (.usdoRequest 5 9 (.read 0x1000 0 false)) (put State.reset [(0x200009, 3)]) :=
  fun h => runs ((h _ 5 9 _).2.1 ok (Or.inr ok))
theorem test_gate_3 : Obligations.SessionGate → Runs (.usdoRequest 5 9 (.read 0x1000 0 false)) asleep :=
  fun h => runs ((h _ 5 9 _).1 ok)
theorem test_gate_4 : Obligations.SessionGate → Runs (.usdoRequest 5 9 (.write 0x2000 7 false [1])) State.reset :=
  fun h => runs ((((h _ 5 9 _).2.2 ok ok (Or.inl ok) snd).2.2 0x2000 7 [1] rfl).1 0x06010002 ok)
theorem test_subindex_1 : Obligations.SubindexZero → (objRow 0x4040 0).isSome = true :=
  fun h => (okS (o := familyOf 0x4040)).elim fun f k => by rw [(h.1 0x4040 f k (by cases k; decide +kernel)).1]; rfl
theorem test_subindex_2 : Obligations.SubindexZero → State.reset.locate 0x4048 0x99 = .error 0x06090011 :=
  fun h => (okS (o := familyOf 0x4048)).elim fun f k => h.2.2 _ 0x4048 0x99 f ok k (by cases k; decide +kernel) ok
theorem test_subindex_3 : Obligations.SubindexZero → State.reset.locate 0x1002 0 = .error 0x06020000 := fun h => h.2.1 _ 0x1002 0 ok ok
/-- A device of one port without the combined option. -/
def one : State := withPw (awake .ready) fun w => { w with sensedPorts := 1, sensedCombined := false }
theorem test_absent_1 : Obligations.AbsentFamilies → Runs (.registerWrite 5 9 0x2900 4 [1, 0]) one :=
  fun h => (okS (o := objRow 0x2900 4)).elim fun o k => runs (((h one 5 9 0x2900 4 ok ok ok ok).1 o k).1 [1, 0])
theorem test_absent_2 : Obligations.AbsentFamilies → Runs (.usdoRequest 5 9 (.read 0x3000 0xF0 false)) one :=
  fun h => runs (((h one 5 9 0x3000 0xF0 ok ok ok ok).2 ok false []).2)
theorem test_unbonded_1 : Obligations.UnbondedLanes → Runs (.usdoRequest 5 9 (.read 0x4042 1 false)) one :=
  fun h => (okS (o := objRow 0x4042 1)).elim fun o k => runs ((h one 5 9 2 1 ok ok ok ok ok ok).1 o k ok)
theorem test_unbonded_2 : Obligations.UnbondedLanes → Runs (.registerWrite 5 9 0x4047 5 [1]) one :=
  fun h => runs ((h one 5 9 7 5 ok ok ok ok ok ok).2.1 [1] acc)
theorem test_memory_1 : Obligations.MemoryReadAfterWrite → memRead (memWrite [(3, 7)] 2 [1, 0]) 2 2 = [1, 0] :=
  fun h => (h.1 [(3, 7)] 2 [1, 0] ok).2.1

theorem test_memory_2 : Obligations.MemoryReadAfterWrite → Memory.get (memClear [(3, 7), (4, 1)] 3 1) 4 = 1 :=
  fun h => ((h.2 [(3, 7), (4, 1)] 3 1 ok).2 4).trans ok
theorem test_unbonded_3 : Obligations.UnbondedLanes → Runs (.registerWrite 5 9 0x4047 1 [1, 2, 3]) one :=
  fun h => ((h one 5 9 7 1 ok ok ok ok ok ok).2.2 [1, 2, 3]).elim fun _ k => runs k
theorem test_time_rate : Obligations.DeviceTimeAdvances → advanceT 0 0 51200000 1000000000 = (65536000000000 + 13107200000, 0) :=
  fun h => (h.2.1 0 0 51200000 ok ok ok).trans rfl
/-- R381: a rate outside the limits meets the range abort. -/
theorem test_time_range : Obligations.DeviceTimeAdvances → State.reset.writeAbort 0x2200 5 false (le 4 (toU 32 51200001)) = some 0x06090030 :=
  fun h => h.2.2.2.2.2 State.reset 51200001 ok ok ok
theorem test_time_run : Obligations.DeviceTimeAdvances → ∃ p, (((awake .ready).at 3).tb.t, ((awake .ready).at 3).tb.acc) = p :=
  fun h => ⟨_, h.2.2.1 (awake .ready) 3 ok ok⟩
theorem test_time_step : Obligations.DeviceTimeAdvances → (advanceT 0 999999999 (-51200000) 1).2 < 1000000000 :=
  fun h => (h.1 0 999999999 1 (-51200000) ok ok ok ok).2.1
theorem test_time_set : Obligations.DeviceTimeAdvances → ((awake .ready).setT (2 ^ 80)).tb.t = 2 ^ 80 % 2 ^ 80 :=
  fun h => (h.2.2.2.2.1 (awake .ready) (2 ^ 80)).2
theorem test_base_1 : Obligations.TimeCommandsComplete → Runs (.deviceTimeWrite 5 9 7) (awake .ready) :=
  fun h => runs (h.1 _ 5 9 7 acc ok ok)
theorem test_base_2 : Obligations.TimeCommandsComplete → Runs (.timeAtNextPps 5 9 7) (awake .ready) :=
  fun h => runs (h.2.1 _ 5 9 7 acc ok ok)
theorem test_base_3 : Obligations.TimeCommandsComplete → Runs (.rateCorrectionWrite 5 9 (-51200000)) (put (awake .ready) [(0x220004, 0)]) :=
  fun h => runs (h.2.2.1 _ 5 9 (-51200000) acc ok ok ok ok)
/-- One second after an accepted edge, in mode 2. -/
def second : State :=
  let s := withTb (put (awake .ready) [(0x220004, 2), (0x220003, 3), (0x220009, 1000)]) fun b => { b with
    lastEdge := some (0, 0), t := 65536000000000 }
  { s with now := 1000000000 }
theorem test_base_4 : Obligations.TimeCommandsComplete → Runs (.ppsEdge 1000000000 5 20 36 false) second :=
  fun h => runs (h.2.2.2.1 _ 1000000000 5 20 36 false ok ok ok ok ok ok)
theorem test_base_5 : Obligations.TimeCommandsComplete → Runs (.ppsProcess 1000001001) (withTb second fun b => { b with edge := some (7, 1000001001) }) :=
  fun h => runs (h.2.2.2.2.1 _ 1000001001 7 1000001001 ok ok)
theorem test_base_6 : Obligations.TimeCommandsComplete → Runs (.ppsLoss 2500000000) second :=
  fun h => runs (h.2.2.2.2.2.1 _ 2500000000 0 0 ok ok ok ok)
theorem test_base_7 : Obligations.TimeCommandsComplete → Runs (.intervalArm 5 9) (awake .ready) :=
  fun h => runs (h.2.2.2.2.2.2.1 _ 5 9 acc ok ok ok)
theorem test_base_8 : Obligations.TimeCommandsComplete → Runs (.intervalDisarm 5 9) (awake .ready) :=
  fun h => runs (h.2.2.2.2.2.2.2.1 _ 5 9 acc)
theorem test_base_9 : Obligations.TimeCommandsComplete → Runs (.intervalTimeout 1000) (put (awake .ready) [(0x221005, 2), (0x221006, 1)]) :=
  fun h => runs (h.2.2.2.2.2.2.2.2.1 _ 1000 ok ok)
theorem test_base_10 : Obligations.TimeCommandsComplete → Runs (.tdcFallback 5 5) (awake .ready) :=
  fun h => runs (h.2.2.2.2.2.2.2.2.2 _ 5 5 ok ok)
theorem test_tdc_1 : Obligations.TdcStamps → ∃ v, ((awake .ready).tdcEdge 5 63 20 34 true).1 = v :=
  fun h => ⟨_, (h.1 (awake .ready) 5 63 20 34 snd ok ok).1⟩
theorem test_tdc_2 : Obligations.TdcStamps → Runs (.trigInEdge 5 1 0 20 33 true) (awake .ready) :=
  fun h => runsTo (h.2 _ 5 1 0 20 33 ok ok ok ok)

/-! ## Lanes -/

def rec1 : Rec := ⟨1, 13, 0, 0, 0, 1, 65536, 4, [1, 2, 3, 4], 0, 0, none⟩
def frame1 : LaneFrame := ⟨0, 13, 0, 0, 4, 0, [1]⟩
/-- Lanes up, one record in q13, credit for it. -/
def lanes : State :=
  let s := awake .sensing
  { s with
    ln := { s.ln with
      tx := rep 8 ⟨true, false, 0, [], [], 0, false, 0, none⟩, rx := rep 2 ⟨true, false, [0, 0, 0, 0, 0]⟩, credit := rep 16 1 }
    qu := { s.qu with qs := modAt s.qu.qs 13 fun q => { q with recs := [rec1] } } }
def withTx (f : TxLane → TxLane) : State := lanes.setTx 7 f
theorem test_lane_1 : Obligations.LaneCommandsComplete → Runs (.dataFrame 5 7) (withTx fun l => { l with resend := [(frame1, 5)] }) :=
  fun h => runs (h.1 _ 5 7 (frame1, 5) ok ok)
theorem test_lane_2 : Obligations.LaneCommandsComplete → Runs (.dataFrame 5 7) lanes :=
  fun h => runs ((h.2.1 _ 5 7 13 ok ok ok ok ok ok).2.2.2)
theorem test_lane_3 : Obligations.LaneCommandsComplete → Runs (.deviceControlFrame 5 7) lanes :=
  fun h => runs (h.2.2.1 _ 5 7 ok)
def quietLanes : State :=
  put { lanes with qu := { lanes.qu with qs := modAt lanes.qu.qs 13 fun q => { q with recs := [] } } } [(0x400004, 1)]
theorem test_lane_4 : Obligations.LaneCommandsComplete → Runs (.electricalIdleEntry 1000 7) quietLanes :=
  fun h => runs (h.2.2.2.1 _ 1000 7 ok ok ok ok ok ok ok ok ok)
theorem test_lane_5 : Obligations.LaneCommandsComplete → Runs (.electricalIdleExit 5 7) (withTx fun l => { l with idle := true }) :=
  fun h => runs (h.2.2.2.2.1 _ 5 7 ok (.inr (.inr (.inl ok))))
theorem test_lane_6 : Obligations.LaneCommandsComplete → Runs (.blockLock 5 1) lanes := fun h => runs (h.2.2.2.2.2.1 _ 5 1 ok ok)
theorem test_lane_7 : Obligations.LaneCommandsComplete → Runs (.lockLoss 5 1) lanes := fun h => runs (h.2.2.2.2.2.2.1 _ 5 1 ok ok)
theorem test_lane_8 : Obligations.LaneCommandsComplete → Runs (.adaptation 5 1 15 [1, -1, 0, 0, 0] 63) (put lanes [(0x404904, 1)]) :=
  fun h => runs (h.2.2.2.2.2.2.2.1 _ 5 1 15 [1, -1, 0, 0, 0] 63 ok ok ok)
theorem test_lane_9 : Obligations.LaneCommandsComplete → Runs (.adaptation 5 1 15 [1, -1, 0, 0, 0] 64) (put lanes [(0x404904, 0)]) :=
  fun h => runs (h.2.2.2.2.2.2.2.2 _ 5 1 15 [1, -1, 0, 0, 0] 64 ok ok ok)
theorem test_scheduler_none : Obligations.SchedulerServesByClass → ∀ q, q < 16 → quietLanes.servable 7 q = false :=
  fun h => (h quietLanes 7).1.1 ok
theorem test_scheduler : Obligations.SchedulerServesByClass → (lanes.queue 13).cls ≤ (lanes.queue 13).cls :=
  fun h => ((h lanes 7).2 13 ok).2.2.1 13 ok ok

theorem rcv {s : State} {m : Nat} (h : (s.pw.serial && decide (m < 2) && (s.ln.rx.getD m ⟨false, false, []⟩).locked &&
    !(s.inj.heldRx.any fun x => decide (x.1 = m)) && decide (s.og 0x5E0002 ≠ 2) && !(s.inj.heldRx.any fun x => decide (x.2.2 ≤ s.now))) = true := by decide +kernel) :
    s.Receives m := by
  simp only [Bool.and_eq_true, decide_eq_true_eq, Bool.not_eq_true'] at h
  obtain ⟨⟨⟨⟨⟨a, b⟩, c⟩, d⟩, e⟩, f⟩ := h
  exact ⟨a, b, c, d, f, e⟩
theorem test_host_1 : Obligations.HostFramesComplete → Runs (.credit 5 1 [2147483655]) lanes :=
  fun h => runsTo (h.1 _ 5 1 [2147483655] rcv ok)
theorem test_host_2 : Obligations.HostFramesComplete → Runs (.replayRequest 5 1 [(0, 2, 65535)]) lanes :=
  fun h => runs (h.2.1 _ 5 1 _ rcv)
theorem test_host_3 : Obligations.HostFramesComplete → Runs (.hostStatus 5 1 128) lanes :=
  fun h => runsTo (h.2.2.1 _ 5 1 128 rcv ok ok ok)
theorem test_host_4 : Obligations.HostFramesComplete → Runs (.download 5 1 0 0 8388606 [1, 2]) lanes :=
  fun h => runs (h.2.2.2.1 _ 5 1 0 8388606 [1, 2] rcv ok ok ok ok ok (fun _ k => nomatch k) ok)
theorem test_host_5 : Obligations.HostFramesComplete → Runs (.download 5 1 0 16384 0 [1, 2]) lanes :=
  fun h => runs (h.2.2.2.2.1 _ 5 1 0 16384 0 [1, 2] rcv ok)
theorem test_host_6 : Obligations.HostFramesComplete → Runs (.hostFrameDrop 5 ⟨1, false⟩) lanes :=
  fun h => runs (h.2.2.2.2.2.1 _ 5 1 rcv)
theorem test_host_8 : Obligations.HostFramesComplete → Runs (.hostFrameDrop 5 ⟨0, true⟩) lanes :=
  fun h => runs (h.2.2.2.2.2.2.1 _ 5 0 rcv)
theorem test_host_7 : Obligations.HostFramesComplete →
    Runs (.reorderHoldTimeout 5) { lanes with inj := { lanes.inj with heldTx := [(7, frame1, 5)] } } :=
  fun h => runs (h.2.2.2.2.2.2.2 _ 5 7 frame1 5 rfl ok rfl rfl)

/-! ## Memory, Flax, Almond -/

/-- DRAM of two interfaces and ECC. -/
def dram : State := put (awake .ready) [(0x420001, 3), (0x420002, 1), (0x420004, 1), (0x42000B, 1), (0x420009, 1)]
theorem none_all {α : Type} {o : Option α} {q : α → Prop} (h : o = none) : ∀ x, o = some x → q x := by
  subst h; exact fun _ k => nomatch k
theorem rep_none {α : Type} (n r : Nat) : (rep n (none : Option α)).getD r none = none := by
  simp only [rep, List.getD_eq_getElem?_getD, List.getElem?_replicate]
  split <;> rfl
theorem test_mem_1 : Obligations.MemoryCommandsComplete → Runs (.bankOwnerWrite 5 9 47 4) dram :=
  fun h => runs (h.1 _ 5 9 47 4 acc ok ok (none_all ok) (none_all ok))
theorem test_mem_2 : Obligations.MemoryCommandsComplete → Runs (.busyStrobe 5 47) dram := fun h => runs (h.2.1 _ 5 47 ok ok)
theorem test_mem_3 : Obligations.MemoryCommandsComplete → Runs (.cashewScrub 5 47 65535 .double) dram :=
  fun h => runs (h.2.2.1 _ 5 47 65535 .double ok ok ok)
theorem test_mem_4 : Obligations.MemoryCommandsComplete → Runs (.refresh 5 1 true) dram := fun h => runs (h.2.2.2.1 _ 5 1 true ok)
theorem test_mem_5 : Obligations.MemoryCommandsComplete → Runs (.selfRefreshEntry 1000 1) dram :=
  fun h => runs (h.2.2.2.2.1 _ 1000 1 ok ok ok ok)
theorem test_mem_6 : Obligations.MemoryCommandsComplete → Runs (.refreshModeWrite 5 9 0) dram :=
  fun h => runs (h.2.2.2.2.2.1 _ 5 9 0 acc ok (fun k => nomatch k))
theorem test_mem_7 : Obligations.MemoryCommandsComplete → Runs (.refreshModeWrite 5 9 1) dram :=
  fun h => runs (h.2.2.2.2.2.1 _ 5 9 1 acc ok (fun _ r pl k e => by
    have q : ((dram.at 5).renew 9).lad.rungs = rep 16 none := by decide +kernel
    rw [State.rung, q, rep_none] at e
    exact nomatch e))
theorem test_mem_8 : Obligations.MemoryCommandsComplete → Runs (.fullScrub 5 9) dram := fun h => runs (h.2.2.2.2.2.2.1 _ 5 9 acc ok)
theorem test_mem_9 : Obligations.MemoryCommandsComplete → Runs (.dramUncorrectable 5 64 (.capture 7)) dram :=
  fun h => runs (h.2.2.2.2.2.2.2.1 _ 5 64 _ ok ok)
theorem test_mem_11 : Obligations.MemoryCommandsComplete → Runs (.dramUncorrectable 5 64 (.linseedSram 3 11)) integrated :=
  fun h => runs (h.2.2.2.2.2.2.2.2.1 _ 5 64 3 11)
theorem test_mem_12 : Obligations.MemoryCommandsComplete → Runs (.dramUncorrectable 5 64 (.hazelSram 0 true)) hasUser :=
  fun h => runs (h.2.2.2.2.2.2.2.2.2.1 _ 5 64 0 true)
theorem test_mem_13 : Obligations.MemoryCommandsComplete → Runs (.dramUncorrectable 5 64 (.storage 12 false)) dram :=
  fun h => runs (h.2.2.2.2.2.2.2.2.2.2.1 _ 5 64 0 12 false ok).2.1
theorem test_mem_10 : Obligations.MemoryCommandsComplete → Runs (.realTimeOverflow 5 (.sesame 7) 9) dram :=
  fun h => runs (h.2.2.2.2.2.2.2.2.2.2.2 _ 5 9 7).2.2
theorem test_bank_1 : Obligations.BankOwnerCodes → ∃ u, u = ((dram.at 5).renew 9).answer 9 (.abort 0x06090030) :=
  fun h => (h dram 5 9 0 7 acc snd ok ok).elim fun u k => ⟨u, k.2.1 ok⟩
theorem test_bank_2 : Obligations.BankOwnerCodes → ∃ u : State, u = (((put dram [(0x420101, 1)]).at 5).renew 9).answer 9 (.abort 0x08000020) :=
  fun h => (h (put dram [(0x420101, 1)]) 5 9 0 0 acc snd ok ok).elim fun u k => ⟨u, k.2.2.1 ⟨ok, Or.inl ok⟩⟩
theorem test_bank_3 : Obligations.BankOwnerCodes → ∃ u : State, u.og (okey 0x4201 48) = 4 :=
  fun h => (h dram 5 9 47 4 acc snd ok ok).elim fun u k => ⟨u, (k.2.2.2 ⟨ok, ok, fun x => x.elim
    (fun y => y.elim fun _ z => by have : dram.activePlan = none := ok
                                   rw [this] at z; exact nomatch z.1)
    (fun y => y.elim fun _ y => y.elim fun _ z => by have : dram.lad.switch = none := ok
                                                     rw [this] at z; exact nomatch z.1)⟩).1⟩

/-- A fill of four 1-byte elements at DRAM address 256. -/
def desc (next : Nat) (op : Nat) : List Byte :=
  bytes 64 [(0, le 8 next), (8, [0xA5]), (0x10, le 8 256), (0x18, le 4 (op * 2 ^ 30 + 2 ^ 27)), (0x20, le 2 4), (0x22, le 2 1), (0x24, le 2 1), (0x34, le 4 1)]
def chanAt (elem : Nat) (d : List Byte) (busy : Nat) : State :=
  (put dram [(flk 8 1, busy), (0x430001, if busy = 2 then 8 else 255), (flk 8 4, 64)]).setChan 8 fun f =>
    { f with desc := d, loaded := true, elem := elem, asserted := true }
theorem test_flax_1 : Obligations.FlaxCommandsComplete → Runs (.flaxStart 5 9 15) dram := fun h => runs (h.1 _ 5 9 15 acc ok ok ok)
theorem test_flax_2 : Obligations.FlaxCommandsComplete → Runs (.flaxStop 5 9 8) (chanAt 0 (desc 0 1) 2) :=
  fun h => runs (h.2.1 _ 5 9 8 acc ok)
theorem test_flax_3 : Obligations.FlaxCommandsComplete → Runs (.flaxBurst 5 none 0) (chanAt 0 (desc 0 1) 1) :=
  fun h => runs (h.2.2.1 _ 5 8 (Or.inl ok) ok ok)
theorem test_flax_4 : Obligations.FlaxCommandsComplete → Runs (.descriptorComplete 5) (chanAt 4 (desc 0 1) 2) :=
  fun h => runs ((h.2.2.2.1 _ 5 ok ok ok ok).1 ok)
def linked : State := (chanAt 4 (desc 128 1) 2).dramWrite 64 (le 8 128)
theorem test_flax_5 : Obligations.FlaxCommandsComplete → Runs (.descriptorComplete 5) linked :=
  fun h => runs ((h.2.2.2.1 linked 5 ok ok ok ok).2 ok ok ok)
theorem test_flax_6 : Obligations.FlaxCommandsComplete → Runs (.descriptorComplete 5) (put (chanAt 4 (desc 0 2) 2) [(flk 8 9, 1)]) :=
  fun h => runs (h.2.2.2.2 _ 5 ok ok ok ok ok ok)
theorem test_elements_1 : Obligations.FlaxElements → ∃ a n v, ((chanAt 3 (desc 0 1) 2).moveElem 8 3 0).busRead a n = v :=
  fun h => ⟨_, _, _, (h.2 (chanAt 3 (desc 0 1) 2) 8 3 snd ok).2.1 ok⟩
theorem test_elements_2 : Obligations.FlaxElements → ∃ m, ((chanAt 3 (desc 0 2) 2).moveElem 8 3 0).mem.dram = m :=
  fun h => ⟨_, ((h.2 (chanAt 3 (desc 0 2) 2) 8 3 snd ok).2.2.2.1 ok).1⟩
theorem test_fill_address : ((chanAt 3 (desc 0 1) 2).fchan 8).da 3 = 259 := by decide +kernel

def job (kind fail : Nat) : Job := ⟨kind, 0, [], fail, 0, [], [], 0, 0, 0, 0, 0, 0, 0, 0, 0, 0⟩
def withJob (kind fail state : Nat) : State := { put dram [(0x440003, state)] with al := { dram.al with job := some (job kind fail) } }
theorem test_job_1 : Obligations.JobCommandsComplete → Runs (.jobStart 5 9) dram := fun h => runs (h.1 _ 5 9 acc ok ok)
theorem test_job_2 : Obligations.JobCommandsComplete → Runs (.jobResume 5 9) (withJob 1 0 2) :=
  fun h => runs (h.2.1 _ 5 9 (job 1 0) acc ok ok)
theorem test_job_3 : Obligations.JobCommandsComplete → Runs (.jobAbandon 5 9) (withJob 1 0 2) := fun h => runs (h.2.2.1 _ 5 9 acc ok)
theorem fill_done {s : State} {j : Job} {stop : Bool} (h : j.units = []) : s.fillBufs stop j.fuel j = (s.closeBuf j false, j, .done) := by
  show s.fillBufs stop (j.units.length + j.listLeft + 1 + 1) j = _
  unfold State.fillBufs
  rw [h]
theorem test_job_4 : Obligations.JobCommandsComplete → Runs (.jobDone 5 false 0 0) (withJob 1 0 1) :=
  fun h => runs (h.2.2.2.1 _ 5 0 (job 1 0) _ _ ok ok ok ok (fill_done rfl))
theorem test_job_5 : Obligations.JobCommandsComplete → Runs (.jobDone 5 false 0 0) (withJob 2 0 1) :=
  fun h => runs (h.2.2.2.2.1 _ 5 0 (job 2 0) ok ok ok ok)
/-- A state image of an empty window. -/
def image (body : List Byte) : List Byte := le 4 0x54444C41 ++ (le 4 0 ++ (le 4 0 ++ (le 4 (crc32c body) ++ (rep 48 0 ++ body))))
theorem image_loads (body : List Byte) : loadImage (image body) = some ([], 0) := by
  have h : crc32c body < 2 ^ 32 := (~~~ (body.foldl (crcByte 0x82F63B78) 0xFFFFFFFF)).isLt
  have d : (image body).drop 64 = body := rfl
  unfold loadImage
  rw [d]
  unfold image
  generalize crc32c body = v at h
  have z : ∀ x : Byte, rep 0 x = [] := fun _ => rfl
  simp [fld, sliceB, le, unle, byte, z]
  omega
theorem image_length (n : Nat) : (image (rep n 0)).length = 64 + n := by
  simp only [image, rep, List.length_append, List.length_replicate, le, List.length_cons, List.length_nil]
  omega
theorem mem_kept (s : State) : (((s.at 5).readFixed 0 0).bump 0x44000A 0).mem = s.mem :=
  (State.bump_same (by decide) (State.readFixed_same (by decide) (Same.self (2 ^ Part.mem.ix) (s.at 5)) 0 0) 0x44000A 0).parts .mem
    (by decide)
def imageJob (d : Mem) : State := { withJob 3 0 1 with mem := { dram.mem with dram := d } }
theorem imageJob_dram (d : Mem) : (imageJob d).mem.dram = d := rfl
theorem read_split (m : Mem) (k : Nat) : ∀ a n, memRead m a (k + n) = memRead m a k ++ memRead m (a + k) n := by
  induction k with
  | zero => intro a n; rw [Nat.zero_add]; rfl
  | succ k ih =>
    intro a n
    rw [Nat.add_right_comm, memRead, memRead, ih, List.cons_append, Nat.add_right_comm a, Nat.add_assoc a]
theorem access_fits (a n : Nat) (h : n ≠ 0) : 1 ≤ accessSize a n ∧ accessSize a n ≤ n := by
  unfold accessSize
  split
  · omega
  · split
    · omega
    · split <;> omega
/-- A run of bytes in DRAM reads as DRAM does. -/
theorem bus_read (s : State) : ∀ fuel a n, n ≤ fuel → a + n ≤ 2 ^ 63 → ((funnel fuel a n).flatMap fun (a, n) =>
    if a < 2 ^ 63 then s.dramRead a n else memRead s.mem.cashew (a - 2 ^ 63) n) = memRead s.mem.dram a n := by
  intro fuel
  induction fuel with
  | zero =>
    intro a n h _
    obtain rfl : n = 0 := by omega
    rfl
  | succ fuel ih =>
    intro a n h k
    unfold funnel
    split
    · next z => subst z; rfl
    · next z =>
      have f := access_fits a n z
      have e : n = accessSize a n + (n - accessSize a n) := by omega
      rw [List.flatMap_cons, ih _ _ (by omega) (by omega)]
      show (if a < 2 ^ 63 then s.dramRead a (accessSize a n) else _) ++ _ = _
      rw [if_pos (by omega)]
      conv => rhs; rw [e, read_split]
      rfl
theorem test_job_6 : Obligations.MemoryReadAfterWrite → Obligations.JobCommandsComplete →
    Runs (.jobDone 5 false 0 0) (imageJob (memWrite [] 0 (image (rep 131072 0)))) := by
  intro m h
  have r := (m.1 [] 0 (image (rep 131072 0)) rfl).2.1
  have n : 64 + 131072 = 131136 := rfl
  rw [image_length, n] at r
  have e := image_loads (rep 131072 0)
  rw [← r] at e
  refine runs (h.2.2.2.2.2.1 (imageJob _) 5 0 (job 3 0) [] 0 rfl ok ok rfl ok ?_)
  have z : (job 3 0).image = 0 := rfl
  unfold State.busRead
  rw [z, bus_read _ _ _ _ (Nat.le_refl _) (by decide), mem_kept, imageJob_dram]
  exact e
theorem test_job_7 : Obligations.JobCommandsComplete → Runs (.jobDone 5 false 0 0) (withJob 1 3 1) :=
  fun h => runs (h.2.2.2.2.2.2 _ 5 0 (job 1 3) ok ok ok)

/-! ## Housekeeping -/

def pip (f : Pip → Pip) : State := (awake .ready).setPip f
theorem test_pip_1 : Obligations.HousekeepingCommandsComplete → Runs (.converter0Pass 5) (awake .ready) :=
  fun h => runs (h.1 _ 5 ok ok)
theorem test_pip_2 : Obligations.HousekeepingCommandsComplete → Runs (.converter0Pass 5) (pip fun p => { p with run0 := true }) :=
  fun h => runs (h.2.1 _ 5 ok ok ok)
theorem test_pip_14 : Obligations.HousekeepingCommandsComplete →
    Runs (.converter0Pass 5) (pip fun p => { p with run0 := true, pend0 := true }) :=
  fun h => runs (h.2.2.1 _ 5 ok ok ok ok)
theorem test_pip_3 : Obligations.HousekeepingCommandsComplete → Runs (.converter1Pass 5 9) (awake .ready) :=
  fun h => runs (h.2.2.2.1 _ 5 9 acc ok ok ok)
theorem test_pip_4 : Obligations.HousekeepingCommandsComplete →
    Runs (.converter1Pass 5 9) (pip fun p => { p with run1 := true, pend1 := true }) :=
  fun h => runs (h.2.2.2.2.1 _ 5 9 acc ok ok ok)
theorem test_pip_5 : Obligations.HousekeepingCommandsComplete → Runs (.converter1Timer 5) (put (awake .ready) [(0x480005, 1)]) :=
  fun h => runs (h.2.2.2.2.2.1 _ 5 ok ok ok ok ok)
def noReading : PassReading := ⟨[], [], [], [], []⟩
theorem test_pip_6 : Obligations.HousekeepingCommandsComplete → Runs (.passEnd 5 0 noReading) (pip fun p => { p with run0 := true }) :=
  fun h => runs (h.2.2.2.2.2.2.1 _ 5 noReading ok)
theorem test_pip_7 : Obligations.HousekeepingCommandsComplete → Runs (.passEnd 5 1 noReading) (pip fun p => { p with run1 := true }) :=
  fun h => runs (h.2.2.2.2.2.2.2.1 _ 5 noReading ok ok)
theorem test_pip_8 : Obligations.HousekeepingCommandsComplete → Runs (.blankIn 5 true) (awake .ready) :=
  fun h => runs (h.2.2.2.2.2.2.2.2.1 _ 5 true)
theorem test_pip_9 : Obligations.HousekeepingCommandsComplete → Runs (.rtdSettingWrite 5 9 3 1 2 0) (awake .ready) :=
  fun h => runs ((h.2.2.2.2.2.2.2.2.2.1 _ 5 9 3 1 2 0 acc ok ok ok).1 (Or.inr rfl))
def measuring : State := put (pip fun p => { p with run1 := true }) [(0x480010, 1), (0x480020, 769), (0x482301, 2), (0x482303, 1)]
theorem test_pip_10 : Obligations.HousekeepingCommandsComplete → Runs (.rtdSettingWrite 5 9 3 3 2 1) measuring :=
  fun h => runs ((h.2.2.2.2.2.2.2.2.2.1 _ 5 9 3 3 2 1 acc ok ok ok).2.1 ok ok)
theorem test_pip_11 : Obligations.HousekeepingCommandsComplete → Runs (.rtdSettingWrite 5 9 3 3 2 2) measuring :=
  fun h => runs ((h.2.2.2.2.2.2.2.2.2.1 _ 5 9 3 3 2 2 acc ok ok ok).2.2 ok)
theorem test_pip_12 : Obligations.HousekeepingCommandsComplete → Runs (.converter1Reference 5 9 1) (awake .ready) :=
  fun h => runs (h.2.2.2.2.2.2.2.2.2.2.1 _ 5 9 1 acc ok ok ok ok)
theorem test_pip_13 : Obligations.HousekeepingCommandsComplete → Runs (.calibrationStart 5 9) (awake .ready) :=
  fun h => runs (h.2.2.2.2.2.2.2.2.2.2.2 _ 5 9 acc)
def codes : EntryReading := ⟨[], rep 256 (-1), [], false, [], 0, 0⟩
theorem test_plain : Obligations.PlainEntryValue → ∃ v, v = fldI (((awake .ready).plainEntry 47 (8 * 2 ^ 36) codes false).dg (0x480030 + 47)) 0 4 ∧
    256 * v - sumI codes.sense ≤ 128 :=
  fun h => ⟨_, rfl, ((h (awake .ready) 47 (8 * 2 ^ 36) codes false snd ok ok (Or.inl ok)).2 ok ok).1⟩

/-! ## The chain link -/

/-- A member with both sides up and its reference present. -/
def link : State := { member with dr := { member.dr with position := 1 } }
def dr (s : State) (f : Darug → Darug) : State := s.setDr f
theorem test_link_1 : Obligations.ChainLinkComplete → Runs (.enum 5 6) link :=
  fun h => (h.1 _ 5 6 ok ok ok).elim fun u k => ⟨u, k.1⟩
theorem test_link_2 : Obligations.ChainLinkComplete → Runs (.enum 5 7) link := fun h => runs (h.2.1 _ 5 7 ok ok ok)
theorem test_link_3 : Obligations.ChainLinkComplete → Runs (.enumTimeout 20000000)
    (dr (put link [(0x4C0006, 0), (0x4C0001, 1)]) fun d => { d with enumAt := some 0 }) :=
  fun h => runs (h.2.2.1 _ 20000000 0 ok ok ok ok ok)
theorem test_link_4 : Obligations.ChainLinkComplete → Runs (.enumEnd 5 7) link := fun h => runs (h.2.2.2.1 _ 5 7)
theorem test_link_5 : Obligations.ChainLinkComplete → Runs (.sideLock 5 true) link := fun h => runs (h.2.2.2.2.1 _ 5 ok ok)
theorem test_link_6 : Obligations.ChainLinkComplete → Runs (.sideLock 5 false) link := fun h => runs (h.2.2.2.2.2.1 _ 5 ok ok)
theorem test_link_7 : Obligations.ChainLinkComplete → Runs (.sideFault 5 true) link := fun h => runs (h.2.2.2.2.2.2.1 _ 5 ok)
theorem test_link_8 : Obligations.ChainLinkComplete → Runs (.sideFault 5 false) link := fun h => runs (h.2.2.2.2.2.2.2.1 _ 5 ok)
theorem test_link_9 : Obligations.ChainLinkComplete → Runs (.messageCrcError 5 true) link := fun h => runs (h.2.2.2.2.2.2.2.2.1 _ 5 true ok)
theorem test_link_10 : Obligations.ChainLinkComplete → Runs (.inject 5 1 1 2) link :=
  fun h => runs (h.2.2.2.2.2.2.2.2.2.1 _ 5 1 1 2 ok ok)
theorem test_link_11 : Obligations.ChainLinkComplete → Runs (.drgRefiLoss 5) link := fun h => runs (h.2.2.2.2.2.2.2.2.2.2 _ 5 ok ok)

/-- A member in Sensing with both sides up. -/
def linkSensing : State :=
  withPw (put sensing [(0x4C0005, 2), (0x4C0006, 2), (0x4C0001, 1)]) fun w => { w with sensedHead := false }
theorem test_skew_1 : Obligations.ChainTimeComplete → Runs (.marker 5 63 20 36) link := fun h => runs (h.1 _ 5 63 20 36 ok ok)
theorem test_skew_2 : Obligations.ChainTimeComplete → Runs (.markerArrival 5 0 8192) link := fun h => runs (h.2.1 _ 5 0 8192 ok ok)
theorem test_skew_3 : Obligations.ChainTimeComplete → Runs (.turn 5 2 9) link := fun h => runs (h.2.2.1 _ 5 2 9 ok)
theorem test_skew_4 : Obligations.ChainTimeComplete → Runs (.sync 5 0 1 (-1) 3) link := fun h => runs (h.2.2.2.1 _ 5 0 1 (-1) 3 ok ok)
theorem test_skew_5 : Obligations.ChainTimeComplete → Runs (.phaseStep 1000) (dr link fun d => { d with steps := -1 }) :=
  fun h => runs (h.2.2.2.2.1 _ 1000 ok ok)
theorem test_skew_6 : Obligations.ChainTimeComplete → Runs (.syncLoss 2500000000) link := fun h => runs (h.2.2.2.2.2.1 _ 2500000000 ok ok ok)
theorem test_skew_7 : Obligations.ChainTimeComplete → Runs (.boundary 5 1 0 401) linkSensing :=
  fun h => runs ((h.2.2.2.2.2.2 _ 5 1 0 401 plan ok ok ok ok).1 ok)
theorem test_skew_8 : Obligations.ChainTimeComplete → Runs (.boundary 5 1 0 400) linkSensing :=
  fun h => runs (((h.2.2.2.2.2.2 _ 5 1 0 400 plan ok ok ok ok).2 ok).1 ok ok ok)
theorem test_skew_9 : Obligations.ChainTimeComplete → Runs (.boundary 5 2 0 400) linkSensing :=
  fun h => runs (((h.2.2.2.2.2.2 _ 5 2 0 400 plan ok ok ok ok).2 ok).2 ok ok)

theorem test_ref_1 : Obligations.ReferenceAndGrantComplete →
    Runs (.referenceTimeout 10000000) (dr link fun d => { d with refLost := some 0, waiting := true }) :=
  fun h => runs ((h.1 _ 10000000 0 ok ok ok ok).1 ok)
theorem test_ref_2 : Obligations.ReferenceAndGrantComplete → Runs (.referenceTimeout 10000000) (dr link fun d => { d with refLost := some 0 }) :=
  fun h => runs ((h.1 _ 10000000 0 ok ok ok ok).2.1 ok ok ok)
theorem test_ref_3 : Obligations.ReferenceAndGrantComplete →
    Runs (.referenceTimeout 10000000) (dr linkSensing fun d => { d with refLost := some 0 }) :=
  fun h => runs ((h.1 _ 10000000 0 ok ok ok ok).2.2 ok ok ok)
theorem test_ref_4 : Obligations.ReferenceAndGrantComplete → Runs (.drgRefiReturn 5) link := fun h => runs (h.2.1 _ 5 ok)
def grantHead (g : Option Nat) : State := dr (put planned [(0x4C0005, 2), (0x4C0006, 2)]) fun d => { d with grant := g }
theorem test_ref_5 : Obligations.ReferenceAndGrantComplete → Runs (.update 5 7 1) (grantHead none) :=
  fun h => runs ((h.2.2.1 _ 5 7 1 ok ok ok).1 (Or.inl ok))
theorem test_ref_6 : Obligations.ReferenceAndGrantComplete → Runs (.update 5 7 1) (grantHead (some 3)) :=
  fun h => runs ((h.2.2.1 _ 5 7 1 ok ok ok).2 ok ok)
theorem test_ref_7 : Obligations.ReferenceAndGrantComplete → Runs (.update 5 7 0) (grantHead (some 7)) :=
  fun h => runs (h.2.2.2.1 _ 5 7 ok ok ok)
theorem test_ref_8 : Obligations.ReferenceAndGrantComplete → Runs (.update 5 1 1) link := fun h => runs (h.2.2.2.2 _ 5 1 1 ok ok)

/-! ## Supervision, images, Pod, the control node -/

theorem test_sup_1 : Obligations.SupervisionComplete → Runs (.watchdog 5) State.reset := fun h => runs (h.1 _ 5 ok ok).1
theorem test_sup_2 : Obligations.SupervisionComplete → Runs (.walnutException 5) State.reset := fun h => runs (h.1 _ 5 ok ok).2
theorem test_sup_3 : Obligations.SupervisionComplete → Runs (.restartWalnut 5 9) State.reset :=
  fun h => runs (h.2.1 _ 5 9 acc ok ok)
theorem test_sup_4 : Obligations.SupervisionComplete →
    Runs (.walnutRestartDone 5) { State.reset with ctl := { State.reset.ctl with restarting := true } } :=
  fun h => runs (h.2.2.1 _ 5 ok ok)
theorem test_sup_5 : Obligations.SupervisionComplete → Runs (.temperatureReading 5 [1151, 0, 0, 0, 0, 0, 0, -1]) State.reset :=
  fun h => runs (h.2.2.2.1 _ 5 _ ok ok ok)
theorem test_sup_6 : Obligations.SupervisionComplete → Runs (.logEntry 5) State.reset :=
  fun h => runs (h.2.2.2.2.1 _ 5 State.firstLog [] ok ok ok)
def logged : State := { State.reset with mg := { State.reset.mg with ring := [State.firstLog] } }
theorem test_sup_7 : Obligations.SupervisionComplete → Runs (.logSelect 5 9 0) logged :=
  fun h => runs (h.2.2.2.2.2.1 _ 5 9 0 State.firstLog acc ok ok)
theorem test_sup_8 : Obligations.SupervisionComplete → Runs (.ledgerReset 5 9) State.reset :=
  fun h => runs (h.2.2.2.2.2.2 _ 5 9 acc)

theorem test_acorn_1 : Obligations.AcornComplete → Runs (.acornMeasurement 5 7 3) State.reset :=
  fun h => runs (h.1 _ 5 7 3 ok ok ok ok)
def avs (mv : Nat) (retry : Option Nat) : State :=
  let s := put (awake .ready) [(0x500030, mv), (0x500032, 1)]
  { s with mg := { s.mg with monitors := modAt s.mg.monitors 0 fun a => { a with value := 1001 }, avsRetry := retry } }
theorem test_acorn_2 : Obligations.AcornComplete → Runs (.avsStep 10000000 true false) (avs 855 none) :=
  fun h => runs (h.2.1 _ 10000000 true false ok ok ok ok ok ok ok ok)
theorem test_acorn_3 : Obligations.AcornComplete → Runs (.avsStep 10000000 false true) (avs 685 none) :=
  fun h => runs (h.2.1 _ 10000000 false true ok ok ok ok ok ok ok ok)
theorem test_acorn_4 : Obligations.AcornComplete → Runs (.pmbusRetry 10000000 false) (avs 855 (some 860)) :=
  fun h => runs (h.2.2.1 _ 10000000 false 860 ok ok)
def derate : State := { put (avs 860 none) [(0x500031, 15), (0x501002, 999)] with lad := planned.lad }
theorem test_acorn_5 : Obligations.AcornComplete → Runs (.planDerating 5) derate :=
  fun h => runs (h.2.2.2 _ 5 0 ok ok ok ok ok ok)

def withUp (s : State) (f : Update → Update) : State := { s with up := f s.up }
def image_ (l : List (Nat × Nat)) : State := put (withUp (awake .ready) fun u => { u with factory := [] }) l
def trial : State := withUp (awake .ready) fun u => { u with factory := [], boot0 := some ⟨0, 0, 0, 0xFF, 0, 0⟩, confirmBy := some 5 }
theorem test_image_1 : Obligations.ImageCommandsComplete → Runs (.downloadOpen 5 9) (image_ [(0x580005, 2)]) :=
  fun h => runs (h.1 _ 5 9 acc ok ok)
theorem test_image_2 : Obligations.ImageCommandsComplete → Runs (.downloadClose 5 9) (image_ [(0x580005, 3)]) :=
  fun h => runs (h.2.1 _ 5 9 acc ok)
theorem test_image_3 : Obligations.ImageCommandsComplete → Runs (.downloadAbandon 5 9) (image_ []) :=
  fun h => runs (h.2.2.1 _ 5 9 acc)
theorem test_image_4 : Obligations.ImageCommandsComplete →
    Runs (.canFdData 5 9 [1, 2])
      (withUp (image_ [(0x580005, 1), (0x580003, 66), (0x580007, 64)]) fun u => { u with length := 66 }) :=
  fun h => runs (h.2.2.2.1 _ 5 9 [1, 2] acc ok ok)
theorem test_image_5 : Obligations.ImageCommandsComplete → Runs (.downloadVerifyEnd 5) (image_ [(0x580005, 4), (0x580003, 2)]) :=
  fun h => runs (h.2.2.2.2.1 _ 5 ok)
theorem test_image_6 : Obligations.ImageCommandsComplete → Runs (.imagePrepare 5 9) (image_ [(0x580005, 2)]) :=
  fun h => runs (h.2.2.2.2.2.1 _ 5 9 acc ok ok)
theorem test_image_7 : Obligations.ImageCommandsComplete →
    Runs (.activate 5 9) (withUp (image_ [(0x580001, 2)]) fun u => { u with prepared := some 2 }) :=
  fun h => runs (h.2.2.2.2.2.2.1 _ 5 9 acc ok ok ok)
theorem test_image_8 : Obligations.ImageCommandsComplete → Runs (.confirm 5 9) trial :=
  fun h => runs (h.2.2.2.2.2.2.2.1 _ 5 9 acc ok ok)
theorem test_image_9 : Obligations.ImageCommandsComplete → Runs (.confirmTimeout 5) trial :=
  fun h => runs (h.2.2.2.2.2.2.2.2.1 _ 5 5 ok ok ok ok ok)
theorem test_image_10 : Obligations.ImageCommandsComplete →
    Runs (.activationLoadEnd 5) (withUp (withPw (image_ []) fun w => { w with shutting := true }) fun u => { u with pausing := true }) :=
  fun h => runs (h.2.2.2.2.2.2.2.2.2 _ 5 ok ok ok ok)

theorem test_unlock_1 : Obligations.InjectionUnlock → Runs (.registerWrite 5 9 0x5E00 1 (le 2 0xC4A5)) State.reset :=
  fun h => runs (h.2 _ 5 9 0xC4A5 acc ok).1
theorem test_unlock_2 : Obligations.InjectionUnlock → Runs (.registerWrite 5 9 0x5E00 1 (le 2 0xC4A4)) (put State.reset [(0x5E0002, 2)]) :=
  fun h => runs (h.2 _ 5 9 0xC4A4 acc ok).1

theorem test_unlock_3 : Obligations.InjectionUnlock → Runs (.registerWrite 5 9 0x5E00 1 (le 2 0xC4A5)) State.reset :=
  fun h => runsTo ((h.2 _ 5 9 0xC4A5 acc ok).2.2 snd)
theorem test_unlock_4 : Obligations.InjectionUnlock → exec (.unlock 5 9) State.reset = exec (.registerWrite 5 9 0x5E00 1 (le 2 0xC4A5)) State.reset :=
  fun h => (h.2 _ 5 9 0xC4A5 acc ok).2.1 rfl

def podAt (l : List (Nat × Nat)) : State := { planned with objects := (put planned l).objects }
theorem test_pod_1 : Obligations.PodCommandsComplete → ∃ u : State, exec (.podSecond 5) State.reset = .next u.podJudge :=
  fun h => (h.1 _ 5 ok ok).elim fun u k => ⟨u, k.1⟩
theorem test_pod_2 : Obligations.PodCommandsComplete → Runs (.incomeCredit 5 9 (2 ^ 64 - 1)) State.reset :=
  fun h => runs (h.2.1 _ 5 9 (2 ^ 64 - 1) acc ok)
theorem test_pod_3 : Obligations.PodCommandsComplete → Runs (.balanceWrite 5 9 (-(2 ^ 63))) State.reset :=
  fun h => runs (h.2.2.1 _ 5 9 (-(2 ^ 63)) acc ok ok)
theorem test_pod_4 : Obligations.PodCommandsComplete → Runs (.managedOperation 5 9) (podAt [(0x240004, 1)]) :=
  fun h => runs (h.2.2.2.1 _ 5 9 acc ok)
theorem test_pod_5 : Obligations.PodCommandsComplete → Runs (.rungChoice 5) (podAt [(0x240004, 1), (0x210001, 1)]) :=
  fun h => runs (h.2.2.2.2.1 _ 5 0 ok ok ok ok ok ok ok ok ok)
theorem test_pod_6 : Obligations.PodCommandsComplete → Runs (.energyRefine 60000000000 9) sensing :=
  fun h => runs (h.2.2.2.2.2.1 _ 60000000000 9 0 0 0 ok ok ok ok)
theorem test_pod_7 : Obligations.PodCommandsComplete →
    Runs (.onTimeEnd 2000007) { sensing with pod := { sensing.pod with cycle := some (0, 2, some 7) } } :=
  fun h => runs (h.2.2.2.2.2.2 _ 2000007 0 2 7 ok ok ok ok)

/-- An object that may be read, of fixed size or not. -/
def readable (fixed : Bool) (e : Except Nat Obj) : Bool :=
  match e with
  | .ok o => decide (o.acc ≠ .wo) && (decide (o.ty.size ≠ 0) == fixed)
  | .error _ => false
theorem okO {f : Bool} {e : Except Nat Obj} (h : readable f e = true := by decide +kernel) :
    ∃ o, e = .ok o ∧ o.acc ≠ .wo ∧ decide (o.ty.size ≠ 0) = f := by
  cases e with
  | error _ => cases h
  | ok o =>
    simp only [readable, Bool.and_eq_true, decide_eq_true_eq, beq_iff_eq] at h
    exact ⟨o, rfl, h.1, h.2⟩
theorem test_node_1 : Obligations.NodeCommandsComplete → Runs (.usdoRequest 5 9 (.read 0x1000 0 false)) State.reset :=
  fun h => (okO (f := true) (e := ((State.reset.at 5).renew 9).locate 0x1000 0)).elim fun o k =>
    runs ((h.1 _ 5 9 0x1000 0 o ok ok k.1).2.1 ok ok k.2.1 (of_decide_eq_true k.2.2))
theorem test_node_2 : Obligations.NodeCommandsComplete → Runs (.usdoRequest 5 9 (.read 0x1008 0 true)) State.reset :=
  fun h => (okO (f := false) (e := ((State.reset.at 5).renew 9).locate 0x1008 0)).elim fun o k =>
    runs ((h.1 _ 5 9 0x1008 0 o ok ok k.1).2.2 ok ok k.2.1 (Decidable.not_not.1 (of_decide_eq_false k.2.2)))
theorem test_node_16 : Obligations.NodeCommandsComplete → Runs (.usdoRequest 5 9 (.read 0x3000 3 true)) one :=
  fun h => (okO (f := true) (e := ((one.at 5).renew 9).locate 0x3000 3)).elim fun o k =>
    runs ((h.1 _ 5 9 0x3000 3 o ok ok k.1).1 true ok)
theorem test_node_3 : Obligations.NodeCommandsComplete → Runs (.latestBoundaryRead 5 9) State.reset :=
  fun h => (okO (f := true) (e := ((State.reset.at 5).renew 9).locate 0x2200 0xB)).elim fun o k =>
    runs ((h.2.1 _ 5 9 ok ok ok).1 o k.1 k.2.1 (of_decide_eq_true k.2.2))
theorem test_node_4 : Obligations.NodeCommandsComplete → Runs (.snapshotRead 5 9) State.reset :=
  fun h => (okO (f := false) (e := ((State.reset.at 5).renew 9).locate 0x5F00 2)).elim fun o k =>
    runs ((h.2.1 _ 5 9 ok ok ok).2 o k.1 k.2.1 (Decidable.not_not.1 (of_decide_eq_false k.2.2)))
theorem test_node_5 : Obligations.NodeCommandsComplete → Runs (.registerWrite 5 9 0x1017 0 [0xE8, 3]) State.reset :=
  fun h => (okE (e := writeEffect 0x1017 0 [0xE8, 3] ((State.reset.at 5).renew 9))).elim fun u k =>
    runs (h.2.2.1 _ 5 9 0x1017 0 [0xE8, 3] u acc k)
theorem test_node_6 : Obligations.NodeCommandsComplete → Runs (.leaseLapse 5) (put State.reset [(0x200009, 9)]) :=
  fun h => runs (h.2.2.2.1 _ 5 ok ok ok)
theorem test_node_7 : Obligations.NodeCommandsComplete →
    Runs (.transferTimeout 5) { State.reset with ctl := { State.reset.ctl with transfer := some ⟨0x5800, 8, true, [], 5⟩ } } :=
  fun h => runs (h.2.2.2.2.1 _ 5 ⟨0x5800, 8, true, [], 5⟩ ok ok ok)
theorem test_node_17 : Obligations.NodeCommandsComplete →
    Runs (.transferTimeout 5) { asleep with ctl := { State.reset.ctl with transfer := some ⟨0x5800, 8, true, [], 5⟩ } } :=
  fun h => runs (h.2.2.2.2.2.1 _ 5 ⟨0x5800, 8, true, [], 5⟩ ok ok ok)
theorem test_node_8 : Obligations.NodeCommandsComplete → Runs (.heartbeat 5) (put State.reset [(0x101700, 1)]) :=
  fun h => runs (h.2.2.2.2.2.2.1 _ 5 ok ok)
theorem test_node_9 : Obligations.NodeCommandsComplete →
    Runs (.emcy 5) { State.reset with ctl := { State.reset.ctl with waiting := [⟨0x6100, 1, 0⟩] } } :=
  fun h => runs (h.2.2.2.2.2.2.2.1 _ 5 ⟨0x6100, 1, 0⟩ [] ok ok ok ok)
def operating : State := { awake .ready with ctl := { State.reset.ctl with longOp := some ⟨4, 0, 28000, 99, 0, []⟩ } }
theorem test_node_10 : Obligations.NodeCommandsComplete → Runs (.longOperationEnd 5 ⟨[], [], [], false, false, 0⟩) operating :=
  fun h => runs (h.2.2.2.2.2.2.2.2.1 _ 5 _ ⟨4, 0, 28000, 99, 0, []⟩ ok)
theorem test_node_11 : Obligations.NodeCommandsComplete → Runs (.statusRecord 5) operating :=
  fun h => (h.2.2.2.2.2.2.2.2.2.1 _ 5 ⟨4, 0, 28000, 99, 0, []⟩ ok).elim fun _ k => runs k.2.2
theorem test_node_12 : Obligations.NodeCommandsComplete → Runs (.overrunClear 5 9 65535) State.reset :=
  fun h => runs (h.2.2.2.2.2.2.2.2.2.2.1 _ 5 9 65535 acc ok)
theorem test_node_13 : Obligations.NodeCommandsComplete → Runs (.unlock 5 9) State.reset :=
  fun h => runs (h.2.2.2.2.2.2.2.2.2.2.2.1 _ 5 9 acc ok)
theorem test_node_14 : Obligations.NodeCommandsComplete → Runs (.injectionStart 5 9) (put State.reset [(0x5E0002, 1)]) :=
  fun h => runs (h.2.2.2.2.2.2.2.2.2.2.2.2.1 _ 5 9 acc ok)
theorem test_node_15 : Obligations.NodeCommandsComplete → Runs (.injectionStop 5 9) (put State.reset [(0x5E0002, 2)]) :=
  fun h => runs (h.2.2.2.2.2.2.2.2.2.2.2.2.2 _ 5 9 acc ok)

/-! ## The manual's worked examples

Every expected number is the manual's own. -/

/-- Chapter 5 (R106): entries 0, 60 and 200 of the gain table. -/
theorem test_gain : gainRom 0 = 32768 ∧ gainRom 60 = 16423 ∧ gainRom 200 = 3277 := by decide +kernel

/-- Chapter 5 (R115): row 0 of the code of length 31 begins 1111 1000 1101 1101. -/
theorem test_simplex : (List.range 16).map (simplexBit 31 0) = [1, 1, 1, 1, 1, 0, 0, 0, 1, 1, 0, 1, 1, 1, 0, 1] := by decide +kernel

/-- Chapter 7: steps 1 and 2 of channel c at tick 2 after tick 1. -/
def before : ChanState := ⟨0, 500000, 8000000, false, true, 2000, 1000, 1, 0, [0, 100000, 300000, 0], [true, true, true, true]⟩
def portEx : PortParams := ⟨0, 0, 0, 12, 12, 4, 1, 0x600000⟩
theorem test_das_channel :
    let r := chanStep 4 2 (some 1) portEx ⟨1000000, -8000000, 3000, 1000, false, false⟩ before
    r.1.dd = 339602 ∧ r.1.amb = false ∧ r.2.b.getD 2 0 = 300083 := by decide +kernel
/-- Chapter 7: steps 3 to 6 of output c. -/
theorem test_das_output : drift 0 12 2000 256000 = (256062, 255938) ∧ formatValue 2 4 255938 = (62, false) := by decide +kernel

/-- Chapter 13, Table 13-11: the coded bytes of the row and the columns after it. -/
theorem test_coding :
    let r := codeRow 16 [10, 12, 15, 11] true 0 0 [13, 14, 20, 9] [(40, 16), (20, 16), (100, 16), (16, 16)]
    chunkBytes r.1.flatten = [0x1A, 0, 0, 0, 0xA9, 0x2F, 0xFF, 0x80] ∧ r.2 = [(46, 17), (22, 17), (110, 17), (29, 17)] := by
  decide +kernel

/-- Chapter 16 (R371): a match of length 9 at distance 3. -/
theorem test_match : matchToken 9 3 = [0x85, 0x02, 0x00] := by decide +kernel

/-- Chapter 17: the stamp of the example's edge. -/
theorem test_stamp : tdcStamp (5000000001 * 65536 + 0x2A00) 27 15 16 = 5000000000 * 65536 + 0x7000 := by decide +kernel
/-- Chapter 17: what the example's edge does to the loop. -/
def locked : State :=
  withTb (put (awake .ready) [(0x220003, 4), (0x220004, 2), (0x220005, 2 ^ 32 - 768000), (0x220007, 2), (0x220008, 4), (0x22000A, 1000)])
    fun b => { b with fvalid := true, tePrev := 4000000000 * 65536 + 0x5000, good := 8 }
theorem test_discipline :
    let u := locked.discipline ((5000000000 * 65536 + 0x7000 : Nat) : Int)
    u.ogI 32 0x220005 = -768015 ∧ u.ogI 32 0x220006 = 7 ∧ u.og 0x220003 = 4 := by decide +kernel

/-- Chapter 18: the lead and the resistance of the 3-wire PT100, and its temperature in mK among those within 1 mK. -/
theorem test_rtd : rtdRes 1200 5700000 52000 81920000 3 = (969, 107727) ∧ (rtdTemps 1 107727).contains 292979 = true := by decide +kernel

/-- Chapter 19: the one-way delay of the first hop in ps, and the member's offset of 1.7 ns in units of 2^-16 ns. -/
theorem test_hop :
    oneWay (5000000000 * 65536) 1095 (5000000000 * 65536 + 2423 * 4096) = 41500 ∧
    hopOffset (5000000043 * 65536 + 13107) (5000000000 * 65536) 41500 = 111411 := by decide +kernel

/-- Chapter 24: a write of 250 to the attenuation of an absent port, of a present one, and with two bytes. -/
theorem test_three_answers :
    let s := withPw (awake .ready) fun w => { w with sensedPorts := 2, sensedCombined := false }
    s.writeAbort 0x2A00 2 false [250] = some 0x08000020 ∧ s.writeAbort 0x2900 2 false [250] = some 0x06090030 ∧
      s.writeAbort 0x2900 2 false [250, 0] = some 0x06070010 ∧ s.writeAbort 0x2900 2 false [60] = none := by decide +kernel

/-! ## Well-formed commands: an ill-formed one for each check -/

theorem test_wf_good : wellFormed (.planInstall 5 9 15) = true := rfl
theorem test_wf_client : wellFormed (.planInstall 5 0 15) = false := rfl
theorem test_wf_node : wellFormed (.resetNode 5 128) = false := rfl
theorem test_wf_port : wellFormed (.inputLimitAssert 5 4 ⟨0, 1⟩) = false := rfl
theorem test_wf_loop : wellFormed (.measurementTimeout 5 3 4) = false := rfl
theorem test_wf_slot : wellFormed (.slotFiring 8 0 false []) = false := rfl
theorem test_wf_raman : wellFormed (.slotFiring 7 0 false [[]]) = false := rfl
theorem test_wf_rung : wellFormed (.keptPlanReload 5 16) = false := rfl
theorem test_wf_zone : wellFormed (.zoneThresholdWrite 5 9 256 true 0) = false := rfl
theorem test_wf_seq : wellFormed (.forceAct 5 4) = false := rfl
theorem test_wf_buf : wellFormed (.captureArm 5 9 8) = false := rfl
theorem test_wf_length : wellFormed (.captureLengthWrite 5 9 7 15 0) = false := rfl
theorem test_wf_engine : wellFormed (.hzNop 12) = false := rfl
theorem test_wf_operand : wellFormed (.hzJmp 11 2048) = false := rfl
theorem test_wf_p : wellFormed (.hzPadd 11 8) = false := rfl
theorem test_wf_imm : wellFormed (.hzPaddi 11 7 16) = false := rfl
theorem test_wf_ls : wellFormed (.hzLdw 11 ⟨false, 16, 7, true, .none, 0⟩) = false := rfl
theorem test_wf_mac : wellFormed (.hzMac 11 ⟨2, 15, 15, 3⟩) = false := rfl
theorem test_wf_stage : wellFormed (.inactiveBankLoad 5 9 6 []) = false := rfl
theorem test_wf_tx : wellFormed (.dataFrame 5 8) = false := rfl
theorem test_wf_rx : wellFormed (.blockLock 5 2) = false := rfl
theorem test_wf_target : wellFormed (.download 5 1 2 65535 0 []) = false := rfl
theorem test_wf_half : wellFormed (.download 5 1 1 65536 0 []) = false := rfl
theorem test_wf_download : wellFormed (.download 5 1 1 65535 0 (rep 493 0)) = false := by decide +kernel
theorem test_wf_ctle : wellFormed (.adaptation 5 1 16 [0, 0, 0, 0, 0] 255) = false := rfl
theorem test_wf_dfe : wellFormed (.adaptation 5 1 15 [0, 0, 0, 0] 255) = false := rfl
theorem test_wf_byte : wellFormed (.adaptation 5 1 15 [0, 0, 0, 0, 0] 256) = false := rfl
theorem test_wf_bank : wellFormed (.busyStrobe 5 48) = false := rfl
theorem test_wf_dword : wellFormed (.cashewScrub 5 47 65536 .none) = false := rfl
theorem test_wf_iface : wellFormed (.selfRefreshEntry 5 2) = false := rfl
theorem test_wf_fit : wellFormed (.dozeToReadyDone 5 ⟨4, 1, 2, [6400]⟩) = false := rfl
theorem test_wf_channel : wellFormed (.flaxStart 5 9 16) = false := rfl
theorem test_wf_tdc : wellFormed (.tdcFallback 5 6) = false := rfl
theorem test_wf_code : wellFormed (.ppsEdge 5 64 0 0 true) = false := rfl
theorem test_wf_pin : wellFormed (.trigInEdge 5 2 63 0 0 true) = false := rfl
theorem test_wf_conv : wellFormed (.passEnd 5 2 noReading) = false := rfl
theorem test_wf_rtd : wellFormed (.rtdSettingWrite 5 9 4 1 0 0) = false := rfl
theorem test_wf_setting : wellFormed (.rtdSettingWrite 5 9 3 4 0 0) = false := rfl
theorem test_wf_phase : wellFormed (.rtdSettingWrite 5 9 3 3 0 3) = false := rfl
theorem test_wf_sender : wellFormed (.enum 5 256) = false := rfl
theorem test_wf_position : wellFormed (.enumEnd 5 8) = false := rfl
theorem test_wf_dw : wellFormed (.boundary 5 (2 ^ 64) 0 400) = false := by decide +kernel
theorem test_wf_word : wellFormed (.boundary 5 1 0 (2 ^ 32)) = false := by decide +kernel
theorem test_wf_i32 : wellFormed (.rateCorrectionWrite 5 9 (2 ^ 31)) = false := by decide +kernel
theorem test_wf_i64 : wellFormed (.balanceWrite 5 9 (2 ^ 63)) = false := by decide +kernel
theorem test_wf_temps : wellFormed (.temperatureReading 5 []) = false := rfl
theorem test_wf_monitor : wellFormed (.acornMeasurement 5 8 0) = false := rfl
theorem test_wf_req : wellFormed (.usdoRequest 5 9 (.read 65536 0 false)) = false := rfl
/-- An over-range bit on a sample that is not at full scale; full scale without it. -/
theorem test_wf_quad : wellFormed (.chestnutOutput 5 0 1 0 [⟨0x7FE1, 0, 0, 0⟩]) = false ∧
    wellFormed (.chestnutOutput 5 0 1 0 [⟨0x7FF0, 0, 0, 0⟩]) = false ∧ wellFormed (.chestnutOutput 5 0 1 0 [⟨0x7FF1, 0x8001, 0, 16⟩]) = true := by
  decide +kernel
theorem test_wf_trims : wellFormed (.offsetTrim 5 (rep 4 (rep 4 ⟨900, -4, 10, 0⟩))) = true ∧
    wellFormed (.offsetTrim 5 (rep 4 (rep 4 ⟨0, 5, 0, 0⟩))) = false := by decide +kernel
theorem test_wf_reader : wellFormed (.dramUncorrectable 5 64 (.queue 13)) = false ∧
    wellFormed (.dramUncorrectable 5 64 (.storage 13 true)) = true := by decide +kernel
theorem test_wf_unknown_lane : wellFormed (.hostFrameDrop 5 ⟨2, false⟩) = false := rfl

/-- Table 10-14: a context at a bundle that holds the word of bundle 1 536 issues CLR there. -/
def spelling : State :=
  let s := withEngine hasUser fun g => { g with user := { g.user with pc := 1536 } }
  { s with hz := { s.hz with prog := memWrite [] (8 * 1536) (le 8 0x0001000000002000) } }
theorem test_spelled : spelling.Spelled 0 5 (.hzClr 0 ⟨0, 0, 0, 0⟩) :=
  (okS (o := spelling.slotsAt 0 5)).elim fun l k => ⟨l, k, by
    have e : spelling.slotsAt 0 5 = some [.hzClr 0 ⟨0, 0, 0, 0⟩, .hzLdstNop 0 false, .hzLdstNop 0 true, .hzPldp 0 0 0, .hzNop 0] := ok
    rw [e] at k
    cases k
    exact .head _⟩
theorem test_no_bits : decodeTableWord 8 0 = none := rfl

end Sys2Proof.Tests
end

section
/-! SUPPORT. What the power island keeps where the masks of the Same lemmas stop at whole parts; the reset commands (chapter 26). -/

namespace Sys2Proof.Machine

open Sys2Proof

/-! ## What a mask says of a field

Each of these masks is one part's bit: 2 the clock's, 64 the board's, 128 the power island's, 2 048 the sweep unit's, 536 870 912 Pod's. -/

theorem Same.pw_still {r s : State} (h : Same 128 r s) : s.pw.still = r.pw.still := h.parts .pw rfl

/-- Islands that differ in the Shell's count alone hold the same of everything else. -/
theorem Power.eq_of_still {v w : Power} (h : v.still = w.still) :
    v.power = w.power ∧ v.goal = w.goal ∧ v.entry = w.entry ∧ v.shutting = w.shutting ∧ v.stopWanted = w.stopWanted ∧
      v.wakeTime = w.wakeTime ∧ v.retention = w.retention := by
  cases v
  cases w
  simp only [Power.still, Power.mk.injEq] at h
  simp only [h, and_self]

theorem Same.board_eq {r s : State} (h : Same 64 r s) : s.board = r.board := h.parts .board rfl

theorem Same.pod_eq {r s : State} (h : Same 536870912 r s) : s.pod = r.pod := h.parts .pod rfl

theorem Same.now_eq {r s : State} (h : Same 2 r s) : s.now = r.now := (h.parts .clock rfl).1

/-- What a Core power-up senses, and that it is awaited (R25, R495). -/
def Power.sensed (w : Power) : Bool × Nat × Bool × Bool × Bool :=
  (w.inReset, w.sensedPorts, w.sensedCombined, w.sensedKm80, w.sensedHead)

theorem Same.sensed {r s : State} (h : Same 128 r s) : s.pw.sensed = r.pw.sensed :=
  (congrArg Power.sensed h.pw_still :)

/-! ## Boot -/

theorem State.enterPower_still (s : State) (p : PowerState) :
    (s.enterPower p).pw.still = ({ s.pw with power := p } : Power).still := by
  unfold State.enterPower
  split
  · next h => subst h; rfl
  · exact (State.statusNow_same rfl (State.log_same rfl (.self 128 _) _ _ _ _)).pw_still

@[simp] theorem State.enterPower_power (s : State) (p : PowerState) : (s.enterPower p).pw.power = p :=
  (congrArg Power.power (s.enterPower_still p) :)

theorem State.enterPower_sensed (s : State) (p : PowerState) : (s.enterPower p).pw.sensed = s.pw.sensed :=
  (congrArg Power.sensed (s.enterPower_still p) :)

theorem State.writeBoot_sensed (s : State) (f : BootControl → BootControl) : (s.writeBoot f).pw.sensed = s.pw.sensed :=
  (State.writeBoot_same rfl (.self 128 s) f).sensed

theorem State.putSettings_sensed (s : State) (area : Nat) (l : List (Nat × Nat)) :
    (s.putSettings area l).pw.sensed = s.pw.sensed := by
  unfold State.putSettings
  simp only [State.setPw_pw]
  split <;> rfl

/-- The choice of a boot area writes boot control, and at most the settings area besides (R456, R457). -/
theorem State.bootKind_sensed (s : State) (data : Bool) : (s.bootKind data).2.pw.sensed = s.pw.sensed := by
  unfold State.bootKind
  extract_lets b slot this other half count s1 s2 good
  have h2 : s2.pw.sensed = s.pw.sensed := by
    unfold s2 s1
    split
    · rfl
    · split
      · rw [State.putSettings_sensed, State.writeBoot_sensed]
      · rw [State.writeBoot_sensed]
  clear_value s2
  split
  · exact s.writeBoot_sensed _
  · split
    · exact h2
    · split
      · rw [State.os_pw, State.writeBoot_sensed, h2]
      · exact h2

theorem State.bootWalnut_sensed (s : State) : s.bootWalnut.pw.sensed = s.pw.sensed := by
  have h := s.bootKind_sensed false
  unfold State.bootWalnut
  dsimp only
  split
  · exact h
  · split <;> exact h

theorem State.lanesStart_power (s : State) : s.lanesStart.pw.power = s.pw.power := rfl

theorem State.lanesStart_sensed (s : State) : s.lanesStart.pw.sensed = s.pw.sensed := rfl

/-- The variant as the fuses and the strap give it when the internal reset is released (R25, R403, R495). -/
def Board.sensed (b : Board) : Bool × Nat × Bool × Bool × Bool := (false, b.ports, b.combined, b.km80, b.headStrap)

/-- A boot that no wake begins ends in Doze with the variant that the fuses and the strap give. -/
theorem State.boot_cold (s : State) (h : s.pw.fromDormant = false) :
    s.boot.pw.power = .doze ∧ s.boot.pw.sensed = s.board.sensed := by
  unfold State.boot
  extract_lets woke s1 ok s2 s3 s4 s5 s6 managed s7 s8 s9 s10 s11 s12
  have h2 : s2.pw.sensed = s.board.sensed :=
    (State.bootWalnut_sensed _).trans (State.bootObjects_same rfl (.self 128 s1)).sensed
  have h4 : Same 128 s2 s4 := by
    have h3 : Same 128 s2 s3 := State.bootRetention_same rfl (.self 128 s2) ok
    exact State.loadStore_same rfl (State.loadLog_same rfl (State.loadCalibration_same rfl
      (.ite (State.bootPost_same rfl h3) h3)))
  have h6 : Same 128 s2 s6 := by
    have h5 : Same 128 s2 s5 := State.os_same rfl h4 _ _
    exact .ite (.foldl (fun _ x h => State.restore_same rfl h x) _ h5) h5
  have h7 : Same 128 s2 s7 := .ite (State.osBit_same rfl (State.os_same rfl h6 _ _) _ _ _) h6
  have h9 : Same 128 s2 s9 := by
    have h8 : Same 128 s2 s8 := State.keptPower_same rfl h7
    exact .ite (State.setUp_same rfl h8 _) h8
  have h10 : s10.pw.power = .doze ∧ s10.pw.sensed = s.board.sensed := by
    rw [State.setPip_pw, State.enterPower_power, State.enterPower_sensed]
    exact ⟨rfl, h9.sensed.trans h2⟩
  clear_value s10
  have h11 : s11.pw.power = .doze ∧ s11.pw.sensed = s.board.sensed := by
    unfold s11
    split
    · exact s10.lanesStart_power.symm ▸ s10.lanesStart_sensed.symm ▸ h10
    · exact h10
  clear_value s11
  have h12 : s12.pw = s11.pw := by
    unfold s12
    split <;> rfl
  rw [if_neg (by rw [show woke = false from h]; exact Bool.false_ne_true), h12]
  exact h11

/-- INTERNAL_RESET_RELEASE boots once its instant has come (R495). -/
theorem exec_internalResetRelease {s : State} {t : Nat} (hr : s.pw.inReset = true) (hp : s.pw.pgIn = true)
    (ht : s.pw.releaseAt ≤ max s.now t) : exec (.internalResetRelease t) s = .next (s.at t).boot := by
  show execInternalResetRelease t s = _
  unfold execInternalResetRelease
  simp only [State.at_inReset, State.at_pgIn, State.at_releaseAt, State.at_now, hr, hp, ht, and_self, if_true]

/-! ## The Core domain goes down -/

/-- PG_IN_FALL on a live domain (R422). -/
theorem exec_pgInFall {s : State} {t : Nat} (hp : s.pw.pgIn = true) (hc : s.coreLive = true ∨ s.pw.inReset = true) :
    exec (.pgInFall t) s = .next ((s.at t).dropPower.setPw fun w =>
      { w with pgIn := false, wakeTime := fld w.retention 0x28 8 % 2 ^ 48 }) := by
  show execPgInFall t s = _
  unfold execPgInFall
  simp only [State.at_pgIn, State.at_coreLive, State.at_inReset, hp, hc, and_self, if_true]

/-- RESET_L, low long enough that no other outcome is allowed (R502). -/
theorem exec_resetL {s : State} {t low : Nat} (he : s.pw.pwrEn = true) (hp : s.pw.pgIn = true) (hl : 1000 ≤ low) :
    exec (.resetL t low) s = .next (s.at t).coreReset := by
  show execResetL t low s = _
  unfold execResetL
  simp only [State.at_pwrEn, State.at_pgIn, he, hp, hl, decide_true, Bool.true_or, and_self, if_true]

/-- RESET_NODE to this node or to all (R409, R502). -/
theorem exec_resetNode {s : State} {t node : Nat} (hc : s.coreLive = true) (hr : s.ctl.restarting = false)
    (hn : node = 0 ∨ node = s.ctl.nodeId) : exec (.resetNode t node) s = .next (s.at t).coreReset := by
  have h : (s.at t).nmtFor node = true := by
    simp only [State.nmtFor, State.at_coreLive, State.at_ctl, hc, hr, Bool.not_false, Bool.true_and, Bool.or_eq_true, beq_iff_eq]
    exact hn
  show execResetNode t node s = _
  unfold execResetNode
  simp only [h, if_true]

theorem State.coreReset_eq (s : State) (t : Nat) :
    (s.at t).coreReset = { (s.at t).injectLock.coreDown with pw := { (s.at t).injectLock.coreDown.pw with
      inReset := true, pgIn := true, releaseAt := max s.now t + 1000000, fromDormant := false } } := by
  rw [← State.at_now]
  rfl

/-! ## Dormant -/

/-- The state in which the Shell holds a wake time and the wake set has been written (R423, R501). -/
def State.setWake (s : State) (w : Nat) : State := s.setPw fun x => { x with wakeTime := w, wakeSet := s.wakeValues }

/-- DORMANT_ENTRY with nothing in its way (R423). -/
theorem exec_dormantEntry {s : State} {t w : Nat} (hg : s.pw.goal = some .dormant) (hp : s.pw.power = .doze)
    (hl : s.ctl.longOp = none) (hr : s.ctl.restarting = false) (hw : s.pw.woken = false) (hc : (s.at t).wakeCount = some w) :
    exec (.dormantEntry t) s = .next ((s.at t).setWake w).retain.dropPower := by
  show execDormantEntry t s = _
  unfold execDormantEntry
  simp only [State.at_goal, State.at_power, State.at_ctl, State.at_woken, hg, hp, hl, hr, hw, hc, ne_eq, not_true_eq_false,
    Option.isSome_none, Bool.false_eq_true, or_self, if_false]
  rfl

/-- Walnut's write of retention RAM changes nothing else. -/
theorem State.retain_eq (s : State) : ∃ b, s.retain = s.setPw fun w => { w with retention := b } := by
  unfold State.retain
  split
  · exact ⟨_, rfl⟩
  · exact ⟨s.pw.retention, rfl⟩

/-! ## The lock of injection (R487) -/

theorem State.injectLock_wakeTime (s : State) : s.injectLock.pw.wakeTime = s.pw.wakeTime := by
  obtain ⟨-, -, -, -, -, h, -⟩ := Power.eq_of_still (State.injectLock_same rfl (.self 128 s)).pw_still
  exact h

theorem State.injectLock_retention (s : State) : s.injectLock.pw.retention = s.pw.retention := by
  obtain ⟨-, -, -, -, -, -, h⟩ := Power.eq_of_still (State.injectLock_same rfl (.self 128 s)).pw_still
  exact h

theorem State.injectLock_pod (s : State) : s.injectLock.pod = s.pod := (State.injectLock_same rfl (.self 536870912 s)).pod_eq

theorem State.injectLock_now (s : State) : s.injectLock.now = s.now := (State.injectLock_same rfl (.self 2 s)).now_eq

theorem State.injectLock_board (s : State) : s.injectLock.board = s.board := (State.injectLock_same rfl (.self 64 s)).board_eq

/-! ## PWR_EN drops -/

/-- What a loss of the Core domain leaves in the island, with PWR_EN dropped (R422). -/
theorem State.dropPower_eq (s : State) : s.dropPower = { s.injectLock.coreDown with pw := { s.injectLock.coreDown.pw with
    pwrEn := false, lowHold := true, lowUntil := s.now + 20000000, armed := true, woken := false
    armCount := s.injectLock.coreDown.pw.shellCount } } := rfl

/-- A drop of PWR_EN arms the Shell, which keeps its wake time; the balance stays (R422, R423). -/
theorem State.dropPower_arms (s : State) :
    s.dropPower.pw.power = .dormant ∧ s.dropPower.pw.goal = none ∧ s.dropPower.pw.pwrEn = false ∧
      s.dropPower.pw.lowHold = true ∧ s.dropPower.pw.lowUntil = s.now + 20000000 ∧ s.dropPower.pw.armed = true ∧
      s.dropPower.pw.woken = false ∧ s.dropPower.pw.wakeTime = s.pw.wakeTime ∧ s.dropPower.pod.balance = s.pod.balance := by
  have hw := s.injectLock_wakeTime
  have hb := congrArg Pod.balance s.injectLock_pod
  rw [State.dropPower_eq]
  generalize s.injectLock = d at *
  exact ⟨rfl, rfl, rfl, rfl, rfl, rfl, rfl, hw, hb⟩

/-! ## Retention RAM -/

theorem State.retain_held {s : State} (h : s.pw.vbat = true) :
    s.retain = { s with pw := { s.pw with retention := s.retentionBytes } } := if_pos h

/-- RETENTION_WRITE (R497). -/
theorem exec_retentionWrite {s : State} {t : Nat} (hc : s.coreLive = true) (hr : s.ctl.restarting = false)
    (hv : s.pw.vbat = true) : exec (.retentionWrite t) s =
      .next { s.at t with pw := { (s.at t).pw with retention := (s.at t).retentionBytes } } := by
  show execRetentionWrite t s = _
  unfold execRetentionWrite
  have h : (s.at t).coreLive = true ∧ (s.at t).ctl.restarting = false := ⟨hc, hr⟩
  have hb : (s.at t).pw.vbat = true := hv
  dsimp only
  rw [if_pos h, State.retain_held hb]

/-- Settles O13: a boot keeps what the release sensed, and each reset is the Core domain's loss with the Shell's own change. -/
theorem resetCommandsComplete : Obligations.ResetCommandsComplete := by
  unfold Obligations.ResetCommandsComplete
  refine ⟨?_, ?_, ?_, ?_, ?_, ?_, ?_⟩
  · intro s t hr hp ht hd
    obtain ⟨hdoze, hs⟩ := (s.at t).boot_cold hd
    simp only [Power.sensed, Board.sensed, Prod.mk.injEq] at hs
    obtain ⟨hin, hports, hcomb, hkm, hhead⟩ := hs
    exact ⟨_, exec_internalResetRelease hr hp ht, hdoze, hin, hports, hcomb, hkm, hhead⟩
  · intro s t hp hc
    rw [exec_pgInFall hp hc, State.dropPower_eq, State.at_now]
    generalize (s.at t).injectLock.coreDown = d
    rfl
  · intro s t low he hp hl
    rw [exec_resetL he hp hl, State.coreReset_eq]
  · intro s t node hc hr hn
    rw [exec_resetNode hc hr hn, State.coreReset_eq]
  · intro s t w hg hp hl hr hw hc
    obtain ⟨b, hb⟩ := ((s.at t).setWake w).retain_eq
    refine ⟨_, exec_dormantEntry hg hp hl hr hw hc, ?_⟩
    obtain ⟨hpower, hgoal, hpwr, hhold, huntil, harmed, hwoken, hwake, hbal⟩ := ((s.at t).setWake w).retain.dropPower_arms
    refine ⟨hpower, hpwr, hhold, huntil.trans ?_, harmed, hwoken, hwake.trans ?_, hgoal, hbal.trans ?_⟩
    · rw [hb, ← State.at_now]
      rfl
    · rw [hb]
      rfl
    · rw [hb]
      rfl
  · intro s t hc hr hv
    exact exec_retentionWrite hc hr hv
  · intro s
    exact ⟨s.injectLock_now, s.injectLock_retention, s.injectLock_board, rfl, rfl, rfl, rfl, rfl, rfl, rfl, rfl, rfl, rfl, rfl, rfl,
      rfl, rfl⟩

end Sys2Proof.Machine
end

section
/-! SUPPORT. Which operations leave the sweeps in flight and the next boundary as they are; the sweep commands (chapter 1). -/

namespace Sys2Proof.Machine

open Sys2Proof

/-! ## The sweeps in flight -/

/-- A sweep in flight without what later events note in it: suppressed firings (R109) and a schedule that takes over (R233). -/
def Flight.mark (f : Flight) : Flight := { f with suppressed := [], sched := 0 }

/-- What a mark shows of its sweep. -/
theorem Flight.eq_of_mark {f g : Flight} (h : f.mark = g.mark) :
    f.index = g.index ∧ f.ord = g.ord ∧ f.start = g.start ∧ f.plan = g.plan ∧ f.fired = g.fired := by
  simp only [Flight.mark, Flight.mk.injEq] at h
  simp only [h, and_self]

theorem Flight.mark_fired {f g : Flight} (h : f.mark = g.mark) (k : Nat) :
    ({ f with fired := k } : Flight).mark = ({ g with fired := k } : Flight).mark :=
  (congrArg (fun x : Flight => { x with fired := k }) h :)

/-- The next boundary and the sweeps in flight of b are those of a. -/
structure Sweep.Flies (a b : Sweep) : Prop where
  next : b.next = a.next
  flights : b.flights.map Flight.mark = a.flights.map Flight.mark

theorem Sweep.Flies.refl (a : Sweep) : a.Flies a := ⟨rfl, rfl⟩

theorem Sweep.Flies.trans {a b c : Sweep} (h : a.Flies b) (k : b.Flies c) : a.Flies c :=
  ⟨k.next.trans h.next, k.flights.trans h.flights⟩

theorem Sweep.Flies.symm {a b : Sweep} (h : a.Flies b) : b.Flies a := ⟨h.next.symm, h.flights.symm⟩

theorem Same.sw_eq {r s : State} (h : Same 2048 r s) : s.sw = r.sw := h.parts .sw rfl

theorem Same.flies {r s : State} (h : Same 2048 r s) : r.sw.Flies s.sw := h.sw_eq ▸ .refl _

theorem Sweep.Flies.mem {a b : Sweep} (h : a.Flies b) {f : Flight} (hf : f ∈ a.flights) : ∃ g ∈ b.flights, g.mark = f.mark := by
  have hm : f.mark ∈ b.flights.map Flight.mark := h.flights ▸ List.mem_map_of_mem hf
  exact List.mem_map.1 hm

theorem Sweep.Flies.foldl {α : Type} {g : State → α → State} (hg : ∀ (s : State) x, s.sw.Flies (g s x).sw) :
    ∀ (l : List α) (s : State), s.sw.Flies (l.foldl g s).sw
  | [], s => .refl s.sw
  | x :: l, s => (hg s x).trans (Sweep.Flies.foldl hg l (g s x))

/-! ## Counters and records (R17, R292) -/

theorem State.count_flies (s : State) (i n : Nat) : s.sw.Flies (s.count i n).sw := by
  unfold State.count
  split
  · exact .refl _
  · split <;> exact ⟨rfl, rfl⟩

theorem State.countAt_flies (s : State) (sweep i n : Nat) : s.sw.Flies (s.countAt sweep i n).sw := by
  unfold State.countAt
  split
  · exact .refl _
  · split <;> exact ⟨rfl, rfl⟩

theorem State.refuse_flies (s : State) (q : Nat) : s.sw.Flies (s.refuse q).sw := by
  unfold State.refuse
  extract_lets s1 s2 s3
  exact s2.count_flies (36 + q) 1

theorem State.noteRefused_flies (s : State) (q : Nat) : s.sw.Flies (s.noteRefused q).2.sw := by
  unfold State.noteRefused
  split <;> exact ⟨rfl, rfl⟩

theorem State.offerEvent_flies (s : State) (o : Offer) : s.sw.Flies (s.offerEvent o).sw := by
  unfold State.offerEvent
  split
  · exact .refl _
  · split
    · exact .refl _
    · exact s.refuse_flies 15

theorem State.event_flies (s : State) (code prio : Nat) (body : List Byte) : s.sw.Flies (s.event code prio body).sw :=
  s.offerEvent_flies _

theorem State.offer_flies (s : State) (q : Nat) (o : Offer) : s.sw.Flies (s.offer q o).2.sw := by
  unfold State.offer
  split
  · exact .refl _
  · split
    · exact .refl _
    · have h := (s.refuse_flies q).trans ((s.refuse q).noteRefused_flies q)
      dsimp only
      split
      · exact h.trans (State.event_flies _ _ _ _)
      · exact h

theorem State.postEngines_flies (s : State) (n : Nat) (l : List (Nat × Nat × Nat)) : s.sw.Flies (s.postEngines n l).sw :=
  .foldl (fun s _ => (s.event_flies _ _ _).trans
    (State.log_same rfl (State.emcy_same rfl (.self 2048 _) _ _ _) _ _ _ _).flies) l s

/-! ## Frames (R15 to R18) -/

theorem State.beginFrame_flies (s : State) (pl : Plan) (n : Nat) : s.sw.Flies (s.beginFrame pl n).sw := ⟨rfl, rfl⟩

theorem State.joinFrame_flies (s : State) (pl : Plan) (n : Nat) : s.sw.Flies (s.joinFrame pl n).sw := by
  unfold State.joinFrame
  extract_lets s1
  have h : s.sw.Flies s1.sw := by
    unfold s1
    split
    · split
      · exact s.beginFrame_flies pl n
      · exact .refl _
    · exact s.beginFrame_flies pl n
  clear_value s1
  split
  · exact h
  · exact h.trans ⟨rfl, rfl⟩

theorem State.countOwed_flies (s : State) (fr : Frame) : s.sw.Flies (s.countOwed fr).sw := by
  refine Sweep.Flies.foldl (fun s o => ?_) _ s
  unfold State.countUpdate
  split
  · exact s.countAt_flies _ _ _
  · exact .refl _

theorem State.latchFrame_flies (s : State) (fr : Frame) : s.sw.Flies (s.latchFrame fr).sw := by
  unfold State.latchFrame
  extract_lets s1 fr1 pay _ s2 s3 s4 s5
  have h2 : s.sw.Flies s2.sw := (s.countOwed_flies fr).trans ⟨rfl, rfl⟩
  clear_value s2
  have h5 : Same 2048 s2 s5 := .foldl (fun _ p h => State.latchOptics_same rfl h p) _
    (.foldl (fun _ x h => State.os_same rfl h _ _) _ (State.ds_same rfl (State.os_same rfl (.self 2048 s2) _ _) _ _))
  clear_value s5
  exact (h2.trans h5.flies).trans (s5.offer_flies 14 _)

/-! ## Firings (R109, R110, R204) -/

theorem State.settleShot_flies (s : State) (sh : Shot) : s.sw.Flies (s.settleShot sh).sw := by
  unfold State.settleShot
  split
  · exact .refl _
  · extract_lets used lost ok s1 bins ovr s2 s3
    have h1 : s.sw.Flies s1.sw := .foldl (fun s p =>
        ((s.bump (pk 0x30000E p)).countAt_flies sh.sweep (28 + p) 1).trans
          (State.setPeriod_same rfl (.self 2048 _) _ _).flies) lost s
    have h2 : s1.sw.Flies s2.sw := .foldl (fun s p => (s.bump _ _).countAt_flies _ _ _) ok s1
    have h3 : s.sw.Flies s3.sw := h1.trans h2
    split
    · exact h3
    · exact h3.trans (State.addShot_same rfl (.self 2048 s3) _ _ _).flies

theorem State.settleShots_flies (s : State) : s.sw.Flies s.settleShots.sw := by
  unfold State.settleShots
  extract_lets closed due
  exact Sweep.Flies.foldl State.settleShot_flies due (s.setLin _)

/-- A change of flights that their marks do not show. -/
theorem State.setFlight_flies (s : State) (n : Nat) (g : Flight → Flight) (hg : ∀ f, (g f).mark = f.mark) :
    s.sw.Flies (s.setFlight n g).sw := by
  refine ⟨rfl, ?_⟩
  show (s.sw.flights.map _).map Flight.mark = _
  rw [List.map_map]
  refine List.map_congr_left fun f _ => ?_
  show Flight.mark (if f.ord = n then g f else f) = f.mark
  split
  · exact hg f
  · rfl

theorem State.suppress_flies (s : State) (f : Flight) (slot : Nat) : s.sw.Flies (s.suppress f slot).sw := by
  unfold State.suppress
  extract_lets s1 s2 l
  have h1 : s.sw.Flies s1.sw := s.setFlight_flies _ _ fun _ => rfl
  have h2 : s1.sw.Flies s2.sw :=
    (State.count_flies s1 54 1).trans (.foldl (fun s p => (s.bump _).countAt_flies _ _ _) _ _)
  have h3 : s.sw.Flies s2.sw := h1.trans h2
  refine (h3.trans ?_).trans (State.cause_same rfl (.self 2048 _) 4).flies
  exact ⟨rfl, rfl⟩

theorem State.playWave_flies (s : State) (f : Flight) (slot : Nat) : s.sw.Flies (s.playWave f slot).sw := by
  unfold State.playWave
  extract_lets kind hp wave start waves _ s1 s2
  have h1 : s.sw.Flies s1.sw := ⟨rfl, rfl⟩
  have h2 : Same 2048 s1 s2 := .ite (.self _ _) (State.noteEmission_same rfl (.self _ _) _ _)
  exact h1.trans (Same.foldl (fun _ p h => State.setPort_same rfl h p _) _ h2).flies

/-- A firing's effects beside the count of fired slots. -/
theorem State.fireSlot_flies (s : State) (f : Flight) (slot corrected : Nat) (bad : Bool) :
    ((s.count 53 corrected).setFlight f.ord fun x => { x with fired := slot + 1 }).sw.Flies
      (s.fireSlot f slot corrected bad).sw := by
  unfold State.fireSlot
  extract_lets s1 s2
  have h2 : s1.sw.Flies s2.sw := by
    unfold s2
    split
    · exact s1.suppress_flies f slot
    · exact s1.playWave_flies f slot
  split
  · exact h2.trans (State.pulse_same rfl (State.openTicks_same rfl (.self 2048 s2) _ _) 4).flies
  · exact h2

/-- Every sweep in flight stays in flight when a slot fires, one of the firing's ordinal with the slot counted, and the next
boundary stands. -/
theorem State.fireSlot_fired (s : State) (f : Flight) (slot corrected : Nat) (bad : Bool) :
    (s.fireSlot f slot corrected bad).sw.next = s.sw.next ∧
      ∀ g ∈ s.sw.flights, ∃ k ∈ (s.fireSlot f slot corrected bad).sw.flights,
        k.mark = (if g.ord = f.ord then { g with fired := slot + 1 } else g : Flight).mark := by
  have hf := s.fireSlot_flies f slot corrected bad
  have hc := s.count_flies 53 corrected
  refine ⟨hf.next.trans hc.next, fun g hg => ?_⟩
  obtain ⟨g', hg', hm⟩ := hc.mem hg
  obtain ⟨k, hk, hkm⟩ := hf.mem (List.mem_map_of_mem hg')
  obtain ⟨-, hord, -⟩ := Flight.eq_of_mark hm
  refine ⟨k, hk, hkm.trans ?_⟩
  dsimp only
  by_cases ho : g.ord = f.ord
  · rw [if_pos ho, if_pos (hord.trans ho)]
    exact Flight.mark_fired hm (slot + 1)
  · rw [if_neg ho, if_neg (hord.symm ▸ ho)]
    exact hm

/-! ## Slot firings and completion -/

theorem State.inProgress_mem {s : State} {f : Flight} (h : s.inProgress = some f) : f ∈ s.sw.flights := by
  unfold State.inProgress at h
  split at h
  · exact List.mem_reverse.1 (List.mem_of_head? h)
  · cases h

/-- SLOT_FIRING of the slot that is due (R9, R109): of what a firing leaves, a DTS return changes nothing in flight. -/
theorem exec_slotFiring_due {s : State} {f : Flight} {slot corrected : Nat} {bad : Bool} {raman : List (List Nat)}
    (hf : s.inProgress = some f) (hs : slot = f.fired) (hn : slot < f.plan.slots) :
    ∃ u, exec (.slotFiring slot corrected bad raman) s = .next u ∧
      ((s.at (f.start + slot * f.plan.tick)).settleShots.fireSlot f slot corrected bad).sw.Flies u.sw := by
  show ∃ u, execSlotFiring slot corrected bad raman s = .next u ∧ _
  unfold execSlotFiring
  simp only [hf]
  rw [if_pos ⟨hs, hn⟩]
  refine ⟨_, rfl, ?_⟩
  generalize (s.at (f.start + slot * f.plan.tick)).settleShots.fireSlot f slot corrected bad = v
  split
  · split
    · exact (State.dtsShot_same rfl (.self 2048 v) _ _ _ _).flies
    · exact .refl _
  · exact .refl _

/-- Once its slot has fired, the sweep in progress is in flight with one slot more. -/
theorem exec_slotFiring_fired {s : State} {f : Flight} {slot corrected : Nat} {bad : Bool} {raman : List (List Nat)}
    (hf : s.inProgress = some f) (hs : slot = f.fired) (hn : slot < f.plan.slots) :
    ∃ u, exec (.slotFiring slot corrected bad raman) s = .next u ∧
      ∃ g ∈ u.sw.flights, g.index = f.index ∧ g.fired = slot + 1 := by
  obtain ⟨u, hu, hfly⟩ := exec_slotFiring_due (corrected := corrected) (bad := bad) (raman := raman) hf hs hn
  have hset := (s.at (f.start + slot * f.plan.tick)).settleShots_flies
  obtain ⟨f', hf', hm⟩ := hset.mem (s.inProgress_mem hf)
  obtain ⟨-, hfired⟩ := (s.at (f.start + slot * f.plan.tick)).settleShots.fireSlot_fired f slot corrected bad
  obtain ⟨hidx, hord, -⟩ := Flight.eq_of_mark hm
  obtain ⟨k, hk, hkm⟩ := hfired f' hf'
  rw [if_pos hord] at hkm
  obtain ⟨g, hg, hgm⟩ := hfly.mem hk
  obtain ⟨hgi, -, -, -, hgf⟩ := Flight.eq_of_mark (hgm.trans hkm)
  exact ⟨u, hu, g, hg, hgi.trans hidx, hgf⟩

/-- No sweep of the completed one's ordinal stays in flight (R14). -/
theorem State.complete_gone (s : State) (f : Flight) : ∀ x ∈ (s.complete f).sw.flights, x.ord ≠ f.ord := by
  unfold State.complete
  extract_lets s1 _ s2 s3 latch _ s4
  have h3 : s2.sw.Flies s3.sw :=
    (Same.foldl (fun _ p h => State.popSettle_same rfl h p) _ (State.pruneSpans_same rfl (.self 2048 s2))).flies
  have h2 : ∀ g ∈ s2.sw.flights, g.ord ≠ f.ord := fun g hg => of_decide_eq_true (List.mem_filter.1 hg).2
  clear_value s3
  have h4 : s3.sw.Flies s4.sw := ⟨rfl, rfl⟩
  clear_value s4
  have gone : ∀ t : State, s2.sw.Flies t.sw → ∀ x ∈ t.sw.flights, x.ord ≠ f.ord := by
    intro t ht x hx
    obtain ⟨g, hg, hm⟩ := ht.symm.mem hx
    obtain ⟨-, hord, -⟩ := Flight.eq_of_mark hm
    exact hord ▸ h2 g hg
  refine gone _ ?_
  cases latch with
  | none => exact h3.trans h4
  | some fr => exact (h3.trans h4).trans (s4.latchFrame_flies fr)

theorem exec_sweepCompletion {s : State} {t : Nat} {f : Flight} {l : List Flight} (hf : s.sw.flights = f :: l)
    (ho : f.ovr (max s.now t) = true) (hh : (s.at t).inHazel f = false) :
    exec (.sweepCompletion t) s = .next ((s.at t).complete f) := by
  have h : (s.at t).sw.flights = f :: l := hf
  show execSweepCompletion t s = _
  unfold execSweepCompletion
  simp only [h, hh, State.at_now, ho, and_self, if_true]

/-! ## The choice for a boundary -/

theorem exec_choiceFix {s : State} {corrected : Nat} {bad : Bool} {l : List Flight} {f : Flight} (hb : s.boundaryAhead = true)
    (hl : ((((s.at (s.sw.next - 2000)).count 53 corrected).at s.sw.next).atBoundary).sw.flights = l ++ [f])
    (hf : f.start = s.sw.next) :
    ∃ u, exec (.choiceFix corrected bad) s = .next u ∧
      u.sw.choice = some (((((s.at (s.sw.next - 2000)).count 53 corrected).at s.sw.next).atBoundary).choiceFor f bad) := by
  have hn : ((s.at (s.sw.next - 2000)).count 53 corrected).sw.next = s.sw.next :=
    ((s.at (s.sw.next - 2000)).count_flies 53 corrected).next
  show ∃ u, execChoiceFix corrected bad s = .next u ∧ _
  unfold execChoiceFix
  rw [if_neg (by rw [hb]; exact Bool.noConfusion)]
  dsimp only
  rw [hn, hl, List.reverse_append]
  exact ⟨_, if_pos hf, rfl⟩

/-! ## A boundary -/

theorem State.openBoundary_flies (s : State) (pl : Plan) (n : Nat) : s.sw.Flies (s.openBoundary pl n).sw := by
  have h : Same 2048 s s.stampNow.2 := State.stampNow_same rfl (.self _ _)
  unfold State.openBoundary
  generalize s.stampNow = p at h ⊢
  obtain ⟨stamp, s1⟩ := p
  refine (h.flies.trans ?_).trans (State.joinFrame_flies _ pl n)
  exact ⟨rfl, rfl⟩

theorem State.setSchedule_flies (s : State) (pl : Plan) (i : Nat) : s.sw.Flies (s.setSchedule pl i).sw := by
  unfold State.setSchedule
  split
  · exact .refl _
  · extract_lets s1
    have h1 : Same 2048 s s1 :=
      State.setLad_same rfl (.foldl (fun _ f h => State.markLost_same rfl h f) _ (State.os_same rfl (.self _ _) _ _)) _
    clear_value s1
    refine h1.flies.trans ⟨rfl, ?_⟩
    simp only [List.map_map]
    refine List.map_congr_left fun f _ => ?_
    simp only [Function.comp_apply]
    split <;> rfl

theorem State.periodsAt_flies (s : State) (f : Flight) (taken : Bool) : s.sw.Flies (s.periodsAt f taken).sw := by
  unfold State.periodsAt
  extract_lets ovr s1
  split
  · exact .refl _
  · have h1 : Same 2048 s s1 := .ite (State.pulse_same rfl (State.endPeriod_same rfl (.self _ _) _ _) 6) (.self _ _)
    clear_value s1
    refine (h1.flies.trans ?_).trans (State.beginPeriod_same rfl (.self 2048 _) f).flies
    exact ⟨rfl, rfl⟩

/-- In b a sweep n under a plan is in flight that starts at the next boundary of a, and b's next boundary lies P after it (R9). -/
structure Sweep.Begins (a b : Sweep) (n : Nat) (pl : Plan) : Prop where
  next : b.next = a.next + pl.period
  flight : ∃ f ∈ b.flights, f.index = n ∧ f.start = a.next ∧ f.plan = pl

theorem Sweep.Begins.flies {a b c : Sweep} {n : Nat} {pl : Plan} (h : a.Begins b n pl) (k : b.Flies c) : a.Begins c n pl := by
  obtain ⟨f, hf, hn, hs, hp⟩ := h.flight
  obtain ⟨g, hg, hm⟩ := k.mem hf
  obtain ⟨hgn, -, hgs, hgp, -⟩ := Flight.eq_of_mark hm
  exact ⟨k.next.trans h.next, g, hg, hgn.trans hn, hgs.trans hs, hgp.trans hp⟩

theorem Sweep.Flies.begins {a b c : Sweep} {n : Nat} {pl : Plan} (k : a.Flies b) (h : b.Begins c n pl) : a.Begins c n pl := by
  have hnext := h.next
  have hflight := h.flight
  rw [k.next] at hnext hflight
  exact ⟨hnext, hflight⟩

theorem Sweep.Begins.fireSlot {a : Sweep} {s : State} {n : Nat} {pl : Plan} (h : a.Begins s.sw n pl) (f : Flight)
    (slot corrected : Nat) (bad : Bool) : a.Begins (s.fireSlot f slot corrected bad).sw n pl := by
  obtain ⟨g, hg, hn, hs, hp⟩ := h.flight
  obtain ⟨hnext, hfired⟩ := s.fireSlot_fired f slot corrected bad
  obtain ⟨k, hk, hm⟩ := hfired g hg
  obtain ⟨hkn, -, hks, hkp, -⟩ := Flight.eq_of_mark hm
  refine ⟨hnext.trans h.next, k, hk, hkn.trans ?_, hks.trans ?_, hkp.trans ?_⟩
  · split <;> exact hn
  · split <;> exact hs
  · split <;> exact hp

/-- The sweep that a boundary begins is in flight with its index, its start and its plan, and the next boundary lies P ahead
(R9, R110). -/
theorem State.beginSweep_begins (s : State) (r : Nat) (pl : Plan) (n : Nat) (taken late : Bool) :
    s.sw.Begins (s.beginSweep r pl n taken late).sw n pl := by
  unfold State.beginSweep
  extract_lets b
  split
  next changed s1 _ =>
  extract_lets s2 fixed f0 _ s3 s4
  have h3 : s3.sw.next = s.sw.next + pl.period := rfl
  have h4 : s4.sw.next = s.sw.next + pl.period := (s3.periodsAt_flies f0 taken).next.trans h3
  clear_value s4
  split
  next kinds rows c _ =>
  extract_lets f1 s5 _ s6 s7 s8 s9 s10
  have h5 : Same 2048 s4 s5 := by
    refine .foldl (fun v p h => ?_) _ (.self _ _)
    split
    · exact .ite h (State.setPeriod_same rfl h _ _)
    · exact h
  have h6 : s.sw.Begins s6.sw n pl :=
    ⟨h5.flies.next.trans h4, f1, List.mem_append_right _ (List.mem_singleton_self f1), rfl, rfl, rfl⟩
  clear_value s6
  have h8 : Same 2048 s6 s8 := .foldl (fun _ c h => State.cause_same rfl h c) _
    (State.burstBoundary_same rfl (State.os_same rfl (.self _ s6) _ _) _)
  have h9 : Same 2048 s6 s9 := by
    unfold s9
    split
    · exact State.setPod_same rfl h8 _
    · exact h8
  have h10 : Same 2048 s6 s10 :=
    State.pulse_same rfl (State.sendBoundary_same rfl (State.countMismatch_same rfl h9 n)) 3
  clear_value s10
  exact ((h6.flies h10.flies).fireSlot f1 0 0 _).flies (State.releaseBanks_same rfl (.self 2048 _)).flies

/-! ## The boundary in Sensing (R9, R94) -/

theorem State.boundaryAhead_sensing {s : State} (hp : s.pw.power = .sensing) (hs : s.pw.shutting = false) :
    s.boundaryAhead = true := by
  simp only [State.boundaryAhead, hp, hs, decide_true, Bool.not_false, Bool.and_self, Bool.true_or]

theorem State.boundaryAhead_entry {s : State} {e : Entry} (hp : s.pw.power = .ready) (he : s.pw.entry = some e) :
    s.boundaryAhead = true := by
  simp only [State.boundaryAhead, hp, he, decide_true, Option.isSome_some, Bool.and_self, Bool.or_true]

theorem exec_sweepBoundary {s : State} (h : s.boundaryAhead = true) :
    exec .sweepBoundary s = .next (s.at s.sw.next).atBoundary := if_pos h

theorem State.atBoundary_sensing {s : State} (hp : s.pw.power = .sensing) (hs : s.pw.shutting = false)
    (he : s.pw.entry = none) : s.atBoundary = s.runBoundary := by
  unfold State.atBoundary
  simp only [he, hp, hs, and_self, if_true]

theorem State.atBoundary_entry {s : State} {e : Entry} (hp : s.pw.power = .ready) (he : s.pw.entry = some e) :
    s.atBoundary = s.entryBoundary e := by
  unfold State.atBoundary
  simp only [he, hp, if_true]

/-- What a boundary does first, the slots that faulted and the engines that failed (R234, R240), leaves the power island. -/
theorem State.failEngines_pw (s : State) : s.dropFaulted.failEngines.pw.still = s.pw.still :=
  (State.failEngines_same rfl (State.dropFaulted_same rfl (.self 128 s))).pw_still

theorem State.failEngines_sw (s : State) : s.dropFaulted.failEngines.sw = s.sw :=
  (State.failEngines_same rfl (State.dropFaulted_same rfl (.self 2048 s))).sw_eq

theorem State.comingIndex_next {s : State} (he : s.pw.entry = none) (hr : s.sw.realign = none) :
    s.dropFaulted.comingIndex = (s.sw.lastIndex + 1) % 2 ^ 64 := by
  have h : Same 128 s s.dropFaulted := State.dropFaulted_same rfl (.self _ s)
  have hsw : s.dropFaulted.sw = s.sw := (State.dropFaulted_same rfl (.self 2048 s)).sw_eq
  obtain ⟨-, -, hentry, -⟩ := Power.eq_of_still h.pw_still
  unfold State.comingIndex
  rw [hsw, hr, hentry, he]
  rfl

/-- A boundary at which the plan in force goes on begins its next sweep (R9, R54). -/
theorem State.sweepOn_keep {s : State} {n i : Nat} {pl : Plan} (ht : s.target n = .keep i) (hp : s.lad.inForce = some pl)
    (l : List (Nat × Nat × Nat)) : s.sw.Begins (s.sweepOn n l).sw n pl := by
  unfold State.sweepOn
  rw [ht, hp]
  exact (((s.openBoundary_flies pl n).trans (State.postEngines_flies _ n l)).trans (State.setSchedule_flies _ pl i)).begins
    (State.beginSweep_begins _ _ pl n false false)

/-- Where nothing stops and nothing is held, a boundary charges the sweep that ends and goes on. -/
theorem State.runBoundary_goesOn {s : State} (hs : s.pw.stopWanted = false) (hr : s.sw.realign = none) :
    s.runBoundary = s.dropFaulted.failEngines.chargeSweep.sweepOn s.dropFaulted.comingIndex s.dropFaulted.misses := by
  obtain ⟨-, -, -, -, hstop, -⟩ := Power.eq_of_still s.failEngines_pw
  have hre : s.dropFaulted.failEngines.sw.realign = none := by rw [s.failEngines_sw, hr]
  unfold State.runBoundary
  dsimp only
  rw [if_neg (by rw [hstop, hs]; exact Bool.false_ne_true), hre]

theorem State.runBoundary_keep {s : State} {i : Nat} {pl : Plan} (hs : s.pw.stopWanted = false) (hr : s.sw.realign = none)
    (ht : s.dropFaulted.failEngines.chargeSweep.target s.dropFaulted.comingIndex = .keep i)
    (hp : s.dropFaulted.failEngines.chargeSweep.lad.inForce = some pl) :
    s.sw.Begins s.runBoundary.sw s.dropFaulted.comingIndex pl := by
  rw [State.runBoundary_goesOn hs hr]
  have h : s.dropFaulted.failEngines.chargeSweep.sw = s.sw :=
    (State.chargeSweep_same rfl (.self 2048 s.dropFaulted.failEngines)).sw_eq.trans s.failEngines_sw
  have hb := State.sweepOn_keep ht hp s.dropFaulted.misses
  rw [h] at hb
  exact hb

/-! ## The stop (R94) -/

/-- The power island w as a stop boundary leaves v: Ready, with the shut-down ahead and the goal of the stop. -/
structure Power.Stops (v w : Power) : Prop where
  power : w.power = .ready
  shutting : w.shutting = true
  stopWanted : w.stopWanted = false
  goal : w.goal = v.goal

theorem Power.Stops.of_still {u v w x : Power} (h : v.Stops w) (hv : v.still = u.still) (hw : x.still = w.still) : u.Stops x := by
  obtain ⟨-, hg, -⟩ := Power.eq_of_still hv
  obtain ⟨hp, hgoal, -, hs, hst, -⟩ := Power.eq_of_still hw
  exact ⟨hp.trans h.power, hs.trans h.shutting, hst.trans h.stopWanted, (hgoal.trans h.goal).trans hg⟩

theorem Power.still_withPower {v w : Power} (h : v.still = w.still) (p : PowerState) :
    ({ v with power := p } : Power).still = ({ w with power := p } : Power).still :=
  (congrArg (fun x : Power => { x with power := p }) h :)

theorem State.stopSensing_stops (s : State) : s.pw.Stops s.stopSensing.pw := by
  unfold State.stopSensing
  extract_lets s1 s2 s3 s4 _ s5 s6
  have h1 : Same 128 s s1 := .ite (State.pulse_same rfl (State.endPeriod_same rfl (.self _ s) _ _) 6) (.self _ s)
  have h2 : Same 128 s s2 :=
    State.zonesStop_same rfl (State.capturesStop_same rfl (State.closeFrame_same rfl h1))
  have h3 : Same 128 s s3 := .foldl (fun _ p h => State.os_same rfl h _ _) _
    (State.burstsStop_same rfl (State.playNothing_same rfl h2))
  have h4 : Same 128 s s4 := State.setLad_same rfl (State.os_same rfl h3 _ _) _
  clear_value s4
  have h5 : s5.pw.still = s.pw.still := h4.pw_still
  clear_value s5
  have h6 : s6.pw.still = ({ s5.pw with stopWanted := false, shutting := true, entry := none } : Power).still :=
    (State.showOptics_same rfl (.self 128 (s5.setPw _))).pw_still
  have hs : s5.pw.Stops { s5.pw with stopWanted := false, shutting := true, entry := none, power := .ready } :=
    ⟨rfl, rfl, rfl, rfl⟩
  exact hs.of_still h5 ((s6.enterPower_still .ready).trans (Power.still_withPower h6 .ready))

theorem State.stopBoundary_stops (s : State) : s.pw.Stops s.stopBoundary.pw := by
  have h : s.pw.Stops s.chargeSweep.stopSensing.pw :=
    s.chargeSweep.stopSensing_stops.of_still (State.chargeSweep_same rfl (.self 128 s)).pw_still rfl
  unfold State.stopBoundary
  dsimp only
  split
  · exact h.of_still rfl (State.chargeTo_same rfl (.self 128 _) 1).pw_still
  · exact h

theorem State.runBoundary_stops {s : State} (hs : s.pw.stopWanted = true) : s.pw.Stops s.runBoundary.pw := by
  obtain ⟨-, -, -, -, hstop, -⟩ := Power.eq_of_still s.failEngines_pw
  unfold State.runBoundary
  dsimp only
  rw [if_pos (hstop.trans hs)]
  refine (State.stopBoundary_stops _).of_still ?_ rfl
  exact (State.postEngines_same rfl (.self 128 s.dropFaulted.failEngines) _ _).pw_still.trans s.failEngines_pw

/-! ## The boundary of an entry (R91, R92) -/

theorem State.transitionDone_pw (s : State) : s.transitionDone.pw.power = s.pw.power ∧
    s.transitionDone.pw.entry = s.pw.entry ∧ s.transitionDone.pw.goal = none := by
  unfold State.transitionDone
  dsimp only
  split <;> exact ⟨rfl, rfl, rfl⟩

/-- The first boundary of an entry ends it in Sensing, and the transition with it. -/
theorem State.enterSensing_enters (s : State) (r : Nat) (pl : Plan) (n : Nat) (l : List (Nat × Nat × Nat)) :
    (s.enterSensing r pl n l).pw.power = .sensing ∧ (s.enterSensing r pl n l).pw.entry = none ∧
      (s.enterSensing r pl n l).pw.goal = none := by
  unfold State.enterSensing
  extract_lets w late s1 _ _ s2 s3 s4 s5 s6 s7 s8
  clear_value s4
  have h5 : s5.pw.entry = none := by
    have h : Same 128 (s4.setPw fun w => { w with entry := none }) s5 := State.take_same rfl (.self _ _) r pl n true late
    obtain ⟨-, -, he, -⟩ := Power.eq_of_still h.pw_still
    exact he
  clear_value s5
  have h6 : s6.pw.power = .sensing ∧ s6.pw.entry = none := by
    obtain ⟨hp, -, he, -⟩ := Power.eq_of_still (s5.enterPower_still .sensing)
    exact ⟨hp, he.trans h5⟩
  clear_value s6
  clear_value late w
  have h7 : Same 128 s6 s7 := by
    cases w with
    | none => exact .self _ _
    | some w => exact State.tookSwitch_same rfl (.self _ _) w n late
  have h8 : Same 128 s6 s8 := State.beginSweep_same rfl h7 r pl n true late
  clear_value s8
  have h9 := Same.foldl (f := fun (s : State) p => s.os (pk 0x30000A p) (s.og (pk 0x300009 p)))
    (fun _ _ h => State.os_same rfl h _ _) s8.ports h8
  obtain ⟨hp, -, he, -⟩ := Power.eq_of_still h9.pw_still
  obtain ⟨hp', he', hg⟩ := State.transitionDone_pw (s8.ports.foldl (fun s p => s.os (pk 0x30000A p) (s.og (pk 0x300009 p))) s8)
  exact ⟨hp'.trans (hp.trans h6.1), he'.trans (he.trans h6.2), hg⟩

/-- An entry that has a rung to run, and whose member's grid does not hold it, takes its first boundary where it stands. -/
theorem State.entryBoundary_enters {s : State} {e : Entry} {r : Nat} {pl : Plan} (he : e.stop = false)
    (hr : s.sw.realign = none) (ht : s.dropFaulted.failEngines.takeRung = some r)
    (hp : s.dropFaulted.failEngines.rung r = some pl) (hg : s.dropFaulted.failEngines.firstGrid pl = none) :
    s.entryBoundary e = s.dropFaulted.failEngines.enterSensing r pl s.dropFaulted.failEngines.comingIndex
      s.dropFaulted.misses := by
  have hre : s.dropFaulted.failEngines.sw.realign = none := by rw [s.failEngines_sw, hr]
  unfold State.entryBoundary
  simp only [he, ht, hp, hre, hg, Bool.false_eq_true, if_false]

/-- Settles O21: each command is brought to the one operation that acts, and the operations beside it leave the sweeps in flight,
the next boundary and the power island as they are. -/
theorem sweepCommandsComplete : Obligations.SweepCommandsComplete := by
  unfold Obligations.SweepCommandsComplete
  refine ⟨?_, ?_, ?_, ?_, ?_, ?_⟩
  · intro s i pl hp hs he hstop hr
    dsimp only
    intro ht hpl
    have hb := State.runBoundary_keep (s := s.at s.sw.next) hstop hr ht hpl
    have hn := State.comingIndex_next (s := s.at s.sw.next) he hr
    refine ⟨_, exec_sweepBoundary (State.boundaryAhead_sensing hp hs), ?_⟩
    rw [State.atBoundary_sensing (s := s.at s.sw.next) hp hs he]
    exact ⟨hb.next, hn, hb.flight⟩
  · intro s hp hs he hstop
    have h := State.runBoundary_stops (s := s.at s.sw.next) hstop
    refine ⟨_, exec_sweepBoundary (State.boundaryAhead_sensing hp hs), ?_⟩
    rw [State.atBoundary_sensing (s := s.at s.sw.next) hp hs he]
    exact ⟨h.power, h.shutting, h.stopWanted, h.goal⟩
  · intro s e r pl hp he hstop hr
    dsimp only
    intro ht hpl hg
    refine ⟨_, exec_sweepBoundary (State.boundaryAhead_entry hp he), ?_⟩
    rw [State.atBoundary_entry (s := s.at s.sw.next) hp he, State.entryBoundary_enters (s := s.at s.sw.next) hstop hr ht hpl hg]
    exact State.enterSensing_enters _ r pl _ _
  · intro s f slot corrected bad raman hf hs hn
    exact exec_slotFiring_fired hf hs hn
  · intro s corrected bad l f hb hl hf
    exact exec_choiceFix hb hl hf
  · intro s t f l hf ho hh
    exact ⟨_, exec_sweepCompletion hf ho hh, State.complete_gone _ f⟩

end Sys2Proof.Machine
end

section
/-! SUPPORT. What every command keeps: the arms of `exec` brought together, and what a step makes of a sound state. -/

namespace Sys2Proof.Machine

open Sys2Proof

/-- From a state that is kept, every command answers a next state that is kept: one arm per command, each that command's own law. -/
theorem exec_kept {r s : State} (h : Kept r s) : ∀ i : Instr, KeptO r (exec i s)
  | .vbatPowerUp t => execVbatPowerUp_kept h t
  | .crystalStart t => execCrystalStart_kept h t
  | .corePowerUp t => execCorePowerUp_kept h t
  | .internalResetRelease t => execInternalResetRelease_kept h t
  | .pgInFall t => execPgInFall_kept h t
  | .resetL t low => execResetL_kept h t low
  | .wakePin t pins => execWakePin_kept h t pins
  | .wakeTimer t => execWakeTimer_kept h t
  | .pwrEnHoldEnd t => execPwrEnHoldEnd_kept h t
  | .dormantEntry t => execDormantEntry_kept h t
  | .retentionWrite t => execRetentionWrite_kept h t
  | .powerCommandDormant t c => execPowerCommandDormant_kept h t c
  | .powerCommandDoze t c => execPowerCommandDoze_kept h t c
  | .powerCommandReady t c => execPowerCommandReady_kept h t c
  | .powerCommandSensing t c => execPowerCommandSensing_kept h t c
  | .startRemoteNode t node => execStartRemoteNode_kept h t node
  | .stopRemoteNode t node => execStopRemoteNode_kept h t node
  | .enterPreOperational t node => execEnterPreOperational_kept h t node
  | .resetNode t node => execResetNode_kept h t node
  | .resetCommunication t node => execResetCommunication_kept h t node
  | .dozeToReadyDone t fit => execDozeToReadyDone_kept h t fit
  | .activePlanReload t => execActivePlanReload_kept h t
  | .keptPlanReload t rung => execKeptPlanReload_kept h t rung
  | .coldEntrySeedCheck t dbm => execColdEntrySeedCheck_kept h t dbm
  | .acquisitionDeadline t => execAcquisitionDeadline_kept h t
  | .offsetTrim t offsets => execOffsetTrim_kept h t offsets
  | .sweepBoundary => execSweepBoundary_kept h
  | .choiceFix corrected bad => execChoiceFix_kept h corrected bad
  | .slotFiring slot corrected bad raman => execSlotFiring_kept h slot corrected bad raman
  | .inputLimitAssert t port span => execInputLimitAssert_kept h t port span
  | .reflectionTrip t port peak => execReflectionTrip_kept h t port peak
  | .seedLowSet t dbm => execSeedLowSet_kept h t dbm
  | .seedLowClear t dbm => execSeedLowClear_kept h t dbm
  | .biasMeasurement t port loop err setPoint atEnd => execBiasMeasurement_kept h t port loop err setPoint atEnd
  | .measurementTimeout t port loop => execMeasurementTimeout_kept h t port loop
  | .biasSearch t c mask => execBiasSearch_kept h t c mask
  | .darkPortPowerDown t port => execDarkPortPowerDown_kept h t port
  | .stopShutdown t => execStopShutdown_kept h t
  | .holdWarmOn t c => execHoldWarmOn_kept h t c
  | .holdWarmOff t c => execHoldWarmOff_kept h t c
  | .chestnutOutput t port sweep slot conts => execChestnutOutput_kept h t port sweep slot conts
  | .workItemRelease t user item sweep slot ecc invalid => execWorkItemRelease_kept h t user item sweep slot ecc invalid
  | .checkpointInstant t engine item => execCheckpointInstant_kept h t engine item
  | .budgetExhausted t engine => execBudgetExhausted_kept h t engine
  | .sweepCompletion t => execSweepCompletion_kept h t
  | .segmentEmit t port sweep slot first => execSegmentEmit_kept h t port sweep slot first
  | .poppyBlock t port block corrected => execPoppyBlock_kept h t port block corrected
  | .inactiveBankLoad t c stage data => execInactiveBankLoad_kept h t c stage data
  | .poppyResetWrite t c => execPoppyResetWrite_kept h t c
  | .poppyModeWrite t c mode => execPoppyModeWrite_kept h t c mode
  | .linseedBlockAdd t stalled corrected => execLinseedBlockAdd_kept h t stalled corrected
  | .dtsDecode t port => execDtsDecode_kept h t port
  | .evaluationInstant t prb trig tb => execEvaluationInstant_kept h t prb trig tb
  | .levelTimerExpiry t seq => execLevelTimerExpiry_kept h t seq
  | .autoTimerExpiry t seq => execAutoTimerExpiry_kept h t seq
  | .zoneUpdate t zone sweep slot => execZoneUpdate_kept h t zone sweep slot
  | .sequenceArm t c seq => execSequenceArm_kept h t c seq
  | .sequenceDisarm t c seq => execSequenceDisarm_kept h t c seq
  | .sequenceArmAct t seq => execSequenceArmAct_kept h t seq
  | .force t c seq => execForce_kept h t c seq
  | .forceAct t seq => execForceAct_kept h t seq
  | .hostLine t c level => execHostLine_kept h t c level
  | .zoneThresholdWrite t c zone off value => execZoneThresholdWrite_kept h t c zone off value
  | .trigInEdge t pin code c1 c2 calibrated => execTrigInEdge_kept h t pin code c1 c2 calibrated
  | .captureArm t c buf => execCaptureArm_kept h t c buf
  | .captureDisarm t c buf => execCaptureDisarm_kept h t c buf
  | .fillingEntry t buf => execFillingEntry_kept h t buf
  | .captureLengthWrite t c buf sub value => execCaptureLengthWrite_kept h t c buf sub value
  | .rateWindowEnd t buf => execRateWindowEnd_kept h t buf
  | .postTimeLimit t buf => execPostTimeLimit_kept h t buf
  | .captureRecordWrite t buf memError => execCaptureRecordWrite_kept h t buf memError
  | .captureRearm t buf => execCaptureRearm_kept h t buf
  | .ownerWrite t c owner => execOwnerWrite_kept h t c owner
  | .sunflowerEnable t c => execSunflowerEnable_kept h t c
  | .sunflowerDisable t c => execSunflowerDisable_kept h t c
  | .verticalSync t => execVerticalSync_kept h t
  | .underrun t line => execUnderrun_kept h t line
  | .planInstall t c rung => execPlanInstall_kept h t c rung
  | .planInstallKeep t c rung => execPlanInstallKeep_kept h t c rung
  | .removeRung t c rung => execRemoveRung_kept h t c rung
  | .requestedRung t c rung => execRequestedRung_kept h t c rung
  | .prepareEnd t ok seedDbm => execPrepareEnd_kept h t ok seedDbm
  | .stageOpen t c => execStageOpen_kept h t c
  | .stageApply t c => execStageApply_kept h t c
  | .stageDiscard t c => execStageDiscard_kept h t c
  | .shadowedWrite t c index sub data => execShadowedWrite_kept h t c index sub data
  | .chainSwitch t c rung => execChainSwitch_kept h t c rung
  | .prepare t rung tag => execPrepare_kept h t rung tag
  | .ack t src tag => execAck_kept h t src tag
  | .nak t src tag => execNak_kept h t src tag
  | .ackTimeout t => execAckTimeout_kept h t
  | .commit t tag index => execCommit_kept h t tag index
  | .cancel t tag => execCancel_kept h t tag
  | .fail t src tag => execFail_kept h t src tag
  | .outcome t src tag outcome index => execOutcome_kept h t src tag outcome index
  | .commitLostTimeout t => execCommitLostTimeout_kept h t
  | .burstRequest t c => execBurstRequest_kept h t c
  | .burstAbandon t c => execBurstAbandon_kept h t c
  | .burstCaptureEnd t src2 truncated data captured => execBurstCaptureEnd_kept h t src2 truncated data captured
  | .burstReadout t => execBurstReadout_kept h t
  | .userProgram t c data => execUserProgram_kept h t c data
  | .hzNop e => execHzNop_kept h e
  | .hzLoop e last => execHzLoop_kept h e last
  | .hzJmp e target => execHzJmp_kept h e target
  | .hzBra e target => execHzBra_kept h e target
  | .hzBrn e target => execHzBrn_kept h e target
  | .hzChk e marker => execHzChk_kept h e marker
  | .hzEnd e t => execHzEnd_kept h e t
  | .hzIllegalBundle e t loop => execHzIllegalBundle_kept h e t loop
  | .hzAddrNop e => execHzAddrNop_kept h e
  | .hzPadd e k => execHzPadd_kept h e k
  | .hzPldp e k imm => execHzPldp_kept h e k imm
  | .hzPldm e k imm => execHzPldm_kept h e k imm
  | .hzPldl e k imm => execHzPldl_kept h e k imm
  | .hzPldz e k imm => execHzPldz_kept h e k imm
  | .hzPaddi e k imm => execHzPaddi_kept h e k imm
  | .hzPsets e k imm => execHzPsets_kept h e k imm
  | .hzLdstNop e ls => execHzLdstNop_kept h e ls
  | .hzLdw e o => execHzLdw_kept h e o
  | .hzLdb e o => execHzLdb_kept h e o
  | .hzLdh e o => execHzLdh_kept h e o
  | .hzLdhs e o => execHzLdhs_kept h e o
  | .hzLds e o => execHzLds_kept h e o
  | .hzLda e o => execHzLda_kept h e o
  | .hzStw e o => execHzStw_kept h e o
  | .hzStb e o => execHzStb_kept h e o
  | .hzSth e o => execHzSth_kept h e o
  | .hzStbp e o => execHzStbp_kept h e o
  | .hzSts e o => execHzSts_kept h e o
  | .hzSta e o => execHzSta_kept h e o
  | .hzStaw e o => execHzStaw_kept h e o
  | .hzStaq e o => execHzStaq_kept h e o
  | .hzMacNop e => execHzMacNop_kept h e
  | .hzMac e o => execHzMac_kept h e o
  | .hzMsu e o => execHzMsu_kept h e o
  | .hzMpy e o => execHzMpy_kept h e o
  | .hzClr e o => execHzClr_kept h e o
  | .hzAccd e o => execHzAccd_kept h e o
  | .hzSeta e o => execHzSeta_kept h e o
  | .hzRsa e o => execHzRsa_kept h e o
  | .hzLsa e o => execHzLsa_kept h e o
  | .hzDivr e o => execHzDivr_kept h e o
  | .hzExt e o => execHzExt_kept h e o
  | .hzAdd e o => execHzAdd_kept h e o
  | .hzSub e o => execHzSub_kept h e o
  | .hzAdds e o => execHzAdds_kept h e o
  | .hzSubs e o => execHzSubs_kept h e o
  | .hzMin e o => execHzMin_kept h e o
  | .hzMax e o => execHzMax_kept h e o
  | .hzAnd e o => execHzAnd_kept h e o
  | .hzOr e o => execHzOr_kept h e o
  | .hzXor e o => execHzXor_kept h e o
  | .hzRsd e o => execHzRsd_kept h e o
  | .hzLsd e o => execHzLsd_kept h e o
  | .hzCgt e o => execHzCgt_kept h e o
  | .hzCeq e o => execHzCeq_kept h e o
  | .hzSel e o => execHzSel_kept h e o
  | .hzMov e o => execHzMov_kept h e o
  | .hzPrm e o => execHzPrm_kept h e o
  | .hzAbs e o => execHzAbs_kept h e o
  | .overrunClear t c mask => execOverrunClear_kept h t c mask
  | .statusRecord t => execStatusRecord_kept h t
  | .dataFrame t lane => execDataFrame_kept h t lane
  | .deviceControlFrame t lane => execDeviceControlFrame_kept h t lane
  | .credit t lane words => execCredit_kept h t lane words
  | .replayRequest t lane entries => execReplayRequest_kept h t lane entries
  | .hostStatus t lane mask => execHostStatus_kept h t lane mask
  | .download t lane target seq offset data => execDownload_kept h t lane target seq offset data
  | .blockLock t lane => execBlockLock_kept h t lane
  | .lockLoss t lane => execLockLoss_kept h t lane
  | .electricalIdleEntry t lane => execElectricalIdleEntry_kept h t lane
  | .electricalIdleExit t lane => execElectricalIdleExit_kept h t lane
  | .adaptation t lane ctle dfe fom => execAdaptation_kept h t lane ctle dfe fom
  | .bankOwnerWrite t c bank owner => execBankOwnerWrite_kept h t c bank owner
  | .busyStrobe t bank => execBusyStrobe_kept h t bank
  | .cashewScrub t bank dword error => execCashewScrub_kept h t bank dword error
  | .refresh t iface waiting => execRefresh_kept h t iface waiting
  | .selfRefreshEntry t iface => execSelfRefreshEntry_kept h t iface
  | .refreshModeWrite t c mode => execRefreshModeWrite_kept h t c mode
  | .dramUncorrectable t addr who => execDramUncorrectable_kept h t addr who
  | .realTimeOverflow t who stall => execRealTimeOverflow_kept h t who stall
  | .fullScrub t c => execFullScrub_kept h t c
  | .flaxStart t c ch => execFlaxStart_kept h t c ch
  | .flaxStop t c ch => execFlaxStop_kept h t c ch
  | .flaxBurst t memError corrected => execFlaxBurst_kept h t memError corrected
  | .descriptorComplete t => execDescriptorComplete_kept h t
  | .jobStart t c => execJobStart_kept h t c
  | .jobResume t c => execJobResume_kept h t c
  | .jobAbandon t c => execJobAbandon_kept h t c
  | .deviceTimeWrite t c ns => execDeviceTimeWrite_kept h t c ns
  | .timeAtNextPps t c ns => execTimeAtNextPps_kept h t c ns
  | .rateCorrectionWrite t c r => execRateCorrectionWrite_kept h t c r
  | .ppsEdge t code c1 c2 calibrated => execPpsEdge_kept h t code c1 c2 calibrated
  | .ppsProcess t => execPpsProcess_kept h t
  | .ppsLoss t => execPpsLoss_kept h t
  | .intervalArm t c => execIntervalArm_kept h t c
  | .intervalDisarm t c => execIntervalDisarm_kept h t c
  | .intervalTimeout t => execIntervalTimeout_kept h t
  | .tdcFallback t ch => execTdcFallback_kept h t ch
  | .converter0Pass t => execConverter0Pass_kept h t
  | .converter1Pass t c => execConverter1Pass_kept h t c
  | .converter1Timer t => execConverter1Timer_kept h t
  | .passEnd t conv reading => execPassEnd_kept h t conv reading
  | .blankIn t level => execBlankIn_kept h t level
  | .rtdSettingWrite t c rtd sub value phase => execRtdSettingWrite_kept h t c rtd sub value phase
  | .converter1Reference t c value => execConverter1Reference_kept h t c value
  | .calibrationStart t c => execCalibrationStart_kept h t c
  | .longOperationEnd t outcome => execLongOperationEnd_kept h t outcome
  | .enum t sender => execEnum_kept h t sender
  | .enumTimeout t => execEnumTimeout_kept h t
  | .enumEnd t position => execEnumEnd_kept h t position
  | .marker t code c1 c2 => execMarker_kept h t code c1 c2
  | .markerArrival t arrive depart => execMarkerArrival_kept h t arrive depart
  | .turn t bins back => execTurn_kept h t bins back
  | .sync t ts delay rate state => execSync_kept h t ts delay rate state
  | .phaseStep t => execPhaseStep_kept h t
  | .syncLoss t => execSyncLoss_kept h t
  | .boundary t index stamp period => execBoundary_kept h t index stamp period
  | .update t src give => execUpdate_kept h t src give
  | .inject t on link action => execInject_kept h t on link action
  | .sideLock t down => execSideLock_kept h t down
  | .sideFault t down => execSideFault_kept h t down
  | .drgRefiLoss t => execDrgRefiLoss_kept h t
  | .referenceTimeout t => execReferenceTimeout_kept h t
  | .podSecond t => execPodSecond_kept h t
  | .incomeCredit t c uj => execIncomeCredit_kept h t c uj
  | .balanceWrite t c uj => execBalanceWrite_kept h t c uj
  | .managedOperation t c => execManagedOperation_kept h t c
  | .rungChoice t => execRungChoice_kept h t
  | .energyRefine t mean => execEnergyRefine_kept h t mean
  | .onTimeEnd t => execOnTimeEnd_kept h t
  | .watchdog t => execWatchdog_kept h t
  | .restartWalnut t c => execRestartWalnut_kept h t c
  | .walnutException t => execWalnutException_kept h t
  | .temperatureReading t temps => execTemperatureReading_kept h t temps
  | .logEntry t => execLogEntry_kept h t
  | .logSelect t c number => execLogSelect_kept h t c number
  | .acornMeasurement t monitor value => execAcornMeasurement_kept h t monitor value
  | .avsStep t up acked => execAvsStep_kept h t up acked
  | .planDerating t => execPlanDerating_kept h t
  | .ledgerReset t c => execLedgerReset_kept h t c
  | .downloadOpen t c => execDownloadOpen_kept h t c
  | .downloadClose t c => execDownloadClose_kept h t c
  | .downloadAbandon t c => execDownloadAbandon_kept h t c
  | .canFdData t c data => execCanFdData_kept h t c data
  | .imagePrepare t c => execImagePrepare_kept h t c
  | .activate t c => execActivate_kept h t c
  | .confirm t c => execConfirm_kept h t c
  | .confirmTimeout t => execConfirmTimeout_kept h t
  | .usdoRequest t c req => execUsdoRequest_kept h t c req
  | .latestBoundaryRead t c => execLatestBoundaryRead_kept h t c
  | .snapshotRead t c => execSnapshotRead_kept h t c
  | .registerWrite t c index sub data => execRegisterWrite_kept h t c index sub data
  | .leaseLapse t => execLeaseLapse_kept h t
  | .transferTimeout t => execTransferTimeout_kept h t
  | .heartbeat t => execHeartbeat_kept h t
  | .emcy t => execEmcy_kept h t
  | .unlock t c => execUnlock_kept h t c
  | .injectionStart t c => execInjectionStart_kept h t c
  | .injectionStop t c => execInjectionStop_kept h t c
  | .reorderHoldTimeout t => execReorderHoldTimeout_kept h t
  | .vbatLoss t => execVbatLoss_kept h t
  | .drgRefiReturn t => execDrgRefiReturn_kept h t
  | .messageCrcError t down => execMessageCrcError_kept h t down
  | .hostFrameDrop t lane => execHostFrameDrop_kept h t lane
  | .jobDone t readError corrected fallbacks => execJobDone_kept h t readError corrected fallbacks
  | .downloadVerifyEnd t => execDownloadVerifyEnd_kept h t
  | .activationLoadEnd t => execActivationLoadEnd_kept h t
  | .walnutRestartDone t => execWalnutRestartDone_kept h t
  | .userItemCheckpoint t engine => execUserItemCheckpoint_kept h t engine
  | .pmbusRetry t acked => execPmbusRetry_kept h t acked

/-- Soundness does not speak of the queue. -/
theorem State.Sound.withPending {s : State} (h : s.Sound) (l : List Instr) : ({ s with pending := l } : State).Sound := { h with }

/-- What a step answers from a sound state is kept from that state without the front of its queue. -/
theorem step_kept {s : State} (h : s.Sound) : KeptO { s with pending := s.pending.tail } (step s) := by
  unfold step
  split
  next hp => exact KeptO.next { Kept.self h with pending := by simp [hp] }
  next c l hp =>
    have hk := exec_kept (Kept.self (h.withPending l)) c
    simpa only [hp, List.tail_cons] using hk

/-- Settles O5: an idle step answers the state itself, and a command at the front keeps, by its own law, all that `Kept` speaks of in
the state with the rest of the queue. -/
theorem stepKeepsSound : Obligations.StepKeepsSound := by
  intro s t hs ht
  obtain ⟨u, hu, hk⟩ := step_kept hs
  obtain rfl : u = t := Host.Outcome.next.inj (hu.symm.trans ht)
  exact ⟨hk.toSound, hk.fixed, hk.walnut, hk.data_, hk.pending⟩

end Sys2Proof.Machine
end

section
/-! SUPPORT. What a port family that is not fitted answers (chapter 2, R34, R35). -/

namespace Sys2Proof.Machine

open Sys2Proof

/-! ## The tables of the port families -/

/-- The twelve indexes that name a port family (R479): four ports of each of the three. -/
theorem eq_of_portFamily {idx : Nat} (h : (portFamily idx).isSome = true) : ∃ p < 12, idx = 0x2800 + 0x100 * p := by
  unfold portFamily at h
  split at h
  · refine ⟨(idx - 0x2800) / 0x100, ?_⟩
    split at h
    · omega
    · split at h
      · omega
      · split at h
        · omega
        · simp at h
  · simp at h

/-- The index of a port family belongs to one of the families of Tables 24-6, 24-7 and 9-4. -/
theorem familyOf_of_portFamily {idx : Nat} (h : (portFamily idx).isSome = true) : ∃ f ∈ famPorts, familyOf idx = some f := by
  have hall : ∀ p < 12, ∃ f ∈ famPorts, familyOf (0x2800 + 0x100 * p) = some f := by decide
  obtain ⟨p, hp, rfl⟩ := eq_of_portFamily h
  exact hall p hp

/-- The port families hold numbers alone. -/
theorem size_pos_of_mem_famPorts : ∀ f ∈ famPorts, ∀ o ∈ f.rows, 0 < o.ty.size := by decide

/-- Every subindex of a port family, subindex 0 among them, is a number. -/
theorem size_pos_of_portFamily {idx sub : Nat} {o : Obj} (h : (portFamily idx).isSome = true) (ho : objRow idx sub = some o) :
    0 < o.ty.size := by
  obtain ⟨f, hf, hidx⟩ := familyOf_of_portFamily h
  unfold objRow at ho
  rw [hidx] at ho
  dsimp only at ho
  split at ho
  next o' hrow =>
    cases ho
    exact size_pos_of_mem_famPorts f hf o (List.mem_of_find?_eq_some hrow)
  next =>
    split at ho
    · cases ho
      exact Nat.one_pos
    · cases ho

/-! ## The judgement of a request -/

theorem State.portFamily_of_absent {s : State} {idx : Nat} (h : s.absent idx = true) : (portFamily idx).isSome = true := by
  unfold State.absent at h
  split at h
  next => cases h
  next hp => rw [hp]; rfl

/-- Outside recovery mode the tables alone say where a request to a port family is judged. -/
theorem State.locate_of_portFamily {s : State} {idx : Nat} (sub : Nat) (hrec : s.og 0x500001 ≠ 1)
    (h : (portFamily idx).isSome = true) :
    s.locate idx sub = (objRow idx sub).elim (.error 0x06090011) .ok := by
  obtain ⟨f, -, hidx⟩ := familyOf_of_portFamily h
  cases hrow : objRow idx sub <;>
    simp only [State.locate, hrec, false_and, if_false, hidx, Option.isNone_some, Bool.false_eq_true, hrow, Option.elim]

/-- What a served request, which neither the gate nor recovery mode meets, finds of an absent family. -/
structure State.MeetsAbsent (s : State) (c idx : Nat) : Prop where
  served : s.served = true
  gate : s.gate c = none
  recovery : s.og 0x500001 ≠ 1
  absent : s.absent idx = true

/-- The passing of time changes nothing of that. -/
theorem State.MeetsAbsent.at {s : State} {c idx : Nat} (h : s.MeetsAbsent c idx) (t : Nat) : (s.at t).MeetsAbsent c idx :=
  ⟨h.served, h.gate, h.recovery, h.absent⟩

/-- The abort that a write to an absent family meets (R34, R35; before it only orders 1 and 2 of Table 23-3 stand, R480). -/
def absentAbort (idx sub : Nat) : Nat := if (objRow idx sub).isSome then 0x08000020 else 0x06090011

namespace State.MeetsAbsent

variable {s : State} {c idx : Nat}

theorem locate (h : s.MeetsAbsent c idx) (sub : Nat) :
    (s.renew c).locate idx sub = (objRow idx sub).elim (.error 0x06090011) .ok :=
  State.locate_of_portFamily sub (by rw [State.og_renew_of_ne _ _ (by decide)]; exact h.recovery)
    (State.portFamily_of_absent h.absent)

theorem absent_renew (h : s.MeetsAbsent c idx) : (s.renew c).absent idx = true := h.absent

/-- An absent family meets every write with its abort, whatever the value and the access rights of the row. -/
theorem writeAbort (h : s.MeetsAbsent c idx) (sub : Nat) (seg : Bool) (b : List Byte) :
    (s.renew c).writeAbort idx sub seg b = some (absentAbort idx sub) := by
  cases hrow : objRow idx sub <;>
    simp [State.writeAbort, h.locate, hrow, absentAbort, h.absent_renew]

/-- A whole write is answered with that abort and changes nothing but the lease. -/
theorem hostWrite (h : s.MeetsAbsent c idx) (sub : Nat) (seg : Bool) (b : List Byte) (f : State → Except Nat State) :
    s.hostWrite c idx sub seg b f = (s.renew c).answer c (.abort (absentAbort idx sub)) := by
  simp [State.hostWrite, h.served, h.gate, h.writeAbort]

/-- So is the first segment of a write: the abort does not wait for the last. -/
theorem beginWrite (h : s.MeetsAbsent c idx) (sub : Nat) (b : List Byte) :
    s.beginWrite c idx sub b = (s.renew c).answer c (.abort (absentAbort idx sub)) := by
  have hlate : (absentAbort idx sub == 0x06070010 || absentAbort idx sub == 0x06090030) = false := by
    unfold absentAbort
    split <;> rfl
  simp [State.beginWrite, h.served, h.gate, h.writeAbort, hlate]

/-- A read of a subindex that the table holds is answered with zero in every byte, expedited or segmented. -/
theorem hostRead_row (h : s.MeetsAbsent c idx) {sub : Nat} {o : Obj} (ho : objRow idx sub = some o) (seg : Bool) :
    s.hostRead c idx sub seg = (s.renew c).answer c (.value (rep o.ty.size 0)) := by
  simp [State.hostRead, h.served, h.gate, State.readAbort, h.locate, ho, h.absent_renew]

/-- A read of a subindex that the table does not hold. -/
theorem hostRead_none (h : s.MeetsAbsent c idx) {sub : Nat} (ho : objRow idx sub = none) (seg : Bool) :
    s.hostRead c idx sub seg = (s.renew c).answer c (.abort 0x06090011) := by
  simp [State.hostRead, h.served, h.gate, State.readAbort, h.locate, ho]

end State.MeetsAbsent

/-! ## The commands -/

/-- USDO_REQUEST with a write, as a whole or by its first segment, to an absent family. -/
theorem exec_usdoRequest_write_absent {s : State} {c idx : Nat} (h : s.MeetsAbsent c idx) (t sub : Nat) (seg : Bool)
    (b : List Byte) :
    exec (.usdoRequest t c (.write idx sub seg b)) s =
      .next (((s.at t).renew c).answer c (.abort (absentAbort idx sub))) := by
  cases seg with
  | false => exact congrArg Host.Outcome.next ((h.at t).hostWrite sub false b (writeEffect idx sub b))
  | true => exact congrArg Host.Outcome.next ((h.at t).beginWrite sub b)

/-- Settles O10: the tables hold every index of a port family as numbers, so that a request is judged by its row and then by the
absence, before anything of the value, the access rights or the power state. -/
theorem absentFamilies : Obligations.AbsentFamilies := by
  intro s t c idx sub hserved hgate hrec habsent
  have h : s.MeetsAbsent c idx := ⟨hserved, hgate, hrec, habsent⟩
  have hwrite := exec_usdoRequest_write_absent h t sub
  refine ⟨fun o ho => ?_, fun ho seg b => ?_⟩
  · have hab : absentAbort idx sub = 0x08000020 := by simp [absentAbort, ho]
    rw [hab] at hwrite
    refine ⟨fun b => ?_, hwrite, size_pos_of_portFamily (State.portFamily_of_absent habsent) ho, fun seg => ?_⟩
    · rw [← hab]
      exact congrArg Host.Outcome.next ((h.at t).hostWrite sub _ b (writeEffect idx sub b))
    · exact congrArg Host.Outcome.next ((h.at t).hostRead_row ho seg)
  · have hab : absentAbort idx sub = 0x06090011 := by simp [absentAbort, ho]
    rw [hab] at hwrite
    exact ⟨hwrite seg b, congrArg Host.Outcome.next ((h.at t).hostRead_none ho seg)⟩

end Sys2Proof.Machine
end

section
/-! SUPPORT. What a mask of the Same lemmas says of the ladder, the objects, the wire and the control session; the shadowed writes and
the stage set (R59, R60). -/

namespace Sys2Proof.Machine

open Sys2Proof

/-! ## What a mask says of a part

Each of these masks is one part's bit: 8 the objects', 32 the wire's, 256 the control session's, 1 024 the ladder's. -/

theorem Same.objects_eq {r s : State} (h : Same 8 r s) : s.objects = r.objects := h.parts .objects rfl

theorem Same.wire_eq {r s : State} (h : Same 32 r s) : s.wire = r.wire := h.parts .wire rfl

theorem Same.ctl_eq {r s : State} (h : Same 256 r s) : s.ctl = r.ctl := h.parts .ctl rfl

theorem Same.lad_eq {r s : State} (h : Same 1024 r s) : s.lad = r.lad := h.parts .lad rfl

/-! ## Acceptance of a shadowed write -/

/-- With no stage set open, a shadowed write waits as a unit of its own. -/
theorem shadow_alone {s : State} (idx sub : Nat) (b : List Byte) (h : s.lad.stage = none) :
    shadow idx sub b s =
      .ok { s with lad := { s.lad with pend := s.lad.pend ++ [⟨s.now, false, [⟨idx, sub, b⟩]⟩] } } := by
  simp only [shadow, h]

/-- An open stage set with room takes a shadowed write as its last. -/
theorem shadow_staged {s : State} (idx sub : Nat) (b : List Byte) {l : List ShadowWrite} (h : s.lad.stage = some l)
    (hl : l.length < 64) :
    shadow idx sub b s = .ok { s with lad := { s.lad with stage := some (l ++ [⟨idx, sub, b⟩]) } } := by
  simp only [shadow, h]
  exact require_pass (decide_eq_true hl)

/-! ## The rules of the shadowed objects -/

/-- A bank load that its rules let pass is a shadowed write (R184). -/
theorem bankLoad_pass {s : State} {j : Nat} {b sec : List Byte}
    (hsec : (s.planNow.bind fun pl => (pl.poppy 0).secs[j]?) = some sec) (htyp : PSec.typ sec ≠ 1 ∨ b.length ≤ 4)
    (hlen : b.length = 4 + 4 * PSec.words sec) (hsh : fld b 0 4 ≤ 63)
    (hwords : ∀ w ∈ wordsAt b 4 (PSec.words sec), -8388608 ≤ w ∧ w ≤ 8388607) (hsel : s.selectPending j = false)
    (hfade : ∀ pp ∈ s.pop.ports, ∀ st, pp.stages[j]? = some st → st.fading = false) :
    bankLoad j b s = shadow 0x3400 (0x14 + 0x10 * j) b s := by
  have hcic : (!(decide (PSec.typ sec = 1) && decide (4 < b.length))) = true := by
    simpa only [Bool.not_eq_true', Bool.and_eq_false_iff, decide_eq_false_iff_not, Nat.not_lt] using htyp
  have hrange : (decide (fld b 0 4 ≤ 63) &&
      (wordsAt b 4 (PSec.words sec)).all fun w => decide (-8388608 ≤ w ∧ w ≤ 8388607)) = true := by
    simpa only [Bool.and_eq_true, decide_eq_true_eq, List.all_eq_true] using And.intro hsh hwords
  have hquiet : (s.pop.ports.any fun pp => match pp.stages[j]? with | some st => st.fading | none => false) = false := by
    refine List.any_eq_false.2 fun pp hpp => ?_
    cases hst : pp.stages[j]? with
    | none => exact Bool.false_ne_true
    | some st => simp only [hfade pp hpp st hst, Bool.false_eq_true, not_false_eq_true]
  unfold bankLoad
  rw [hsec]
  dsimp only
  rw [require_pass hcic, require_pass (decide_eq_true hlen), require_pass hrange, hsel]
  refine require_pass ?_
  exact congrArg (!·) hquiet

/-- A threshold that stands on its side of the other's coming value is a shadowed write (R247). -/
theorem zoneThreshold_pass {s : State} {z v : Nat} {off : Bool} (hoff : off = true → v ≤ s.comingValue (0x3A00 + z) 3)
    (hon : off = false → s.comingValue (0x3A00 + z) 4 ≤ v) :
    zoneThreshold z off v s = shadow (0x3A00 + z) (if off then 4 else 3) (le 4 v) s := by
  refine require_pass ?_
  cases off with
  | false => exact decide_eq_true (hon rfl)
  | true => exact decide_eq_true (hoff rfl)

/-- SHADOWED_WRITE to an object with neither a threshold's nor a bank load's checks is a write with the one check of R237. -/
theorem exec_shadowedWrite {s : State} {t c idx sub : Nat} {b : List Byte} {o : Obj} (ho : objRow idx sub = some o)
    (hsh : o.sh = true) (hzone : ¬ (0x3A00 ≤ idx ∧ idx < 0x3B00)) (hbank : ¬ (idx = 0x3400 ∧ sub % 16 = 4)) :
    exec (.shadowedWrite t c idx sub b) s =
      .next ((s.at t).hostWrite c idx sub (o.ty.size == 0) b (shadowed idx sub b)) := by
  have hs : isShadowed idx sub = true := by
    unfold isShadowed
    rw [ho]
    exact hsh
  show execShadowedWrite t c idx sub b s = _
  unfold execShadowedWrite
  rw [if_neg (by rw [hs]; exact Bool.noConfusion), if_neg hzone, if_neg hbank, ho]

/-! ## The stage set -/

theorem stageSet_open {s : State} (h : s.lad.stage = none) :
    stageSet 1 s = .ok { s with lad := { s.lad with stage := some [] } } := by
  simp only [stageSet, h]

theorem stageSet_apply {s : State} {l : List ShadowWrite} (h : s.lad.stage = some l) :
    stageSet 2 s = .ok { s with lad := { s.lad with stage := none, pend := s.lad.pend ++ [⟨s.now, true, l⟩] } } := by
  simp only [stageSet, h]

theorem stageSet_discard {s : State} {l : List ShadowWrite} (h : s.lad.stage = some l) :
    stageSet 3 s = .ok { s with lad := { s.lad with stage := none } } := by
  simp only [stageSet, h]

/-- Settles O25: each command is a host write whose object's rules come down to `shadow` or to one line of `stageSet`. -/
theorem shadowedWritesComplete : Obligations.ShadowedWritesComplete := by
  unfold Obligations.ShadowedWritesComplete
  refine ⟨?_, ?_, ?_, ?_, ?_, ?_, ?_, ?_, ?_, ?_⟩
  · intro w idx sub b h
    exact shadow_alone idx sub b h
  · intro w idx sub b l h hl
    exact shadow_staged idx sub b h hl
  · intro s t c v hacc hv
    exact congrArg Host.Outcome.next (State.hostWrite_ok hacc hv)
  · intro s t c mode v hacc hv
    exact congrArg Host.Outcome.next (State.hostWrite_ok hacc hv)
  · intro s t c j b sec v hacc
    dsimp only
    intro hsec htyp hlen hsh hwords hsel hfade hv
    exact congrArg Host.Outcome.next
      (State.hostWrite_ok hacc ((bankLoad_pass hsec htyp hlen hsh hwords hsel hfade).trans hv))
  · intro s t c z off value v hval hacc hoff hon hv
    have hmod : value % 2 ^ 32 = value := Nat.mod_eq_of_lt hval
    refine congrArg Host.Outcome.next (State.hostWrite_ok hacc ?_)
    rw [hmod]
    exact (zoneThreshold_pass hoff hon).trans hv
  · intro s t c o idx sub b v ho hsh hacc hzone hbank hslot hv
    rw [exec_shadowedWrite ho hsh hzone hbank]
    exact congrArg Host.Outcome.next (State.hostWrite_ok hacc ((if_neg hslot).trans hv))
  · intro s t c hacc h
    exact congrArg Host.Outcome.next (State.hostWrite_ok hacc (stageSet_open h))
  · intro s t c l hacc h
    rw [← State.at_now]
    exact congrArg Host.Outcome.next (State.hostWrite_ok hacc (stageSet_apply h))
  · intro s t c l hacc h
    exact congrArg Host.Outcome.next (State.hostWrite_ok hacc (stageSet_discard h))

end Sys2Proof.Machine
end

section
/-! SUPPORT. The plan ladder (R48 to R58, R108): installs, the removal of a rung, the request of a switch and the end of its prepare. -/

namespace Sys2Proof.Machine

open Sys2Proof

/-! ## Installs (R48, R473) -/

theorem State.startLong_longOp (s : State) (code maximum arg : Nat) (image : List Byte) :
    (s.startLong code maximum arg image).ctl.longOp = some ⟨code, s.now, maximum, 0, arg, image⟩ := by
  unfold State.startLong
  exact congrArg Control.longOp
    (State.statusNow_same rfl (State.os_same rfl (State.os_same rfl (.self 256 _) _ _) _ _)).ctl_eq

theorem State.startLong_wire (s : State) (code maximum arg : Nat) (image : List Byte) :
    (s.startLong code maximum arg image).wire = s.wire := (State.startLong_same rfl (.self 32 s) _ _ _ _).wire_eq

theorem planInstall_starts {s : State} (v : Nat) (h : s.pw.power = .ready ∨ s.pw.power = .sensing) :
    planInstall v s = .ok (s.startLong 1 (if 256 ≤ v then 40000 else 1500) v s.installImage) :=
  require_pass (decide_eq_true h)

/-- An accepted install command is answered as done, and its long operation starts at that instant. -/
theorem State.hostWrite_install {s : State} {c v : Nat} {b : List Byte} (h : s.Accepts c 0x2400 8 false b)
    (hp : s.pw.power = .ready ∨ s.pw.power = .sensing) :
    (s.hostWrite c 0x2400 8 false b (planInstall v)).wire = s.wire ++ [.answer c .done] ∧
      (s.hostWrite c 0x2400 8 false b (planInstall v)).ctl.longOp =
        some ⟨1, s.now, if 256 ≤ v then 40000 else 1500, 0, v, (s.renew c).installImage⟩ := by
  rw [State.hostWrite_ok h (planInstall_starts v hp), State.answer_wire, State.startLong_wire]
  exact ⟨rfl, State.startLong_longOp _ _ _ _ _⟩

theorem exec_planInstall {r : Nat} (hr : r < 16) (s : State) (t c : Nat) :
    exec (.planInstall t c r) s = .next ((s.at t).hostWrite c 0x2400 8 false (le 2 r) (planInstall r)) := by
  show execPlanInstall t c r s = _
  unfold execPlanInstall
  rw [Nat.mod_eq_of_lt hr]

theorem exec_planInstallKeep {r : Nat} (hr : r < 16) (s : State) (t c : Nat) :
    exec (.planInstallKeep t c r) s =
      .next ((s.at t).hostWrite c 0x2400 8 false (le 2 (256 + r)) (planInstall (256 + r))) := by
  show execPlanInstallKeep t c r s = _
  unfold execPlanInstallKeep
  rw [Nat.mod_eq_of_lt hr]

/-! ## Rungs (R51) -/

/-- The plans of a ladder whose rung r has been emptied. -/
theorem State.rung_of_rungs_set {s u : State} {r : Nat} (h : u.lad.rungs = s.lad.rungs.set r none) :
    u.rung r = none ∧ ∀ k, k ≠ r → u.rung k = s.rung k := by
  unfold State.rung
  rw [h]
  refine ⟨?_, fun k hk => ?_⟩
  · rw [List.getD_eq_getElem?_getD, List.getElem?_set_self']
    cases s.lad.rungs[r]? <;> rfl
  · rw [List.getD_eq_getElem?_getD, List.getElem?_set_ne hk.symm, ← List.getD_eq_getElem?_getD]

/-- Removal leaves the list of the rungs with the one rung empty, and tells nobody. -/
theorem removeRung_free {s : State} {r : Nat} (h : s.rungFree r = true) :
    ∃ u, removeRung r s = .ok u ∧ u.lad.rungs = s.lad.rungs.set r none ∧ u.wire = s.wire := by
  have hs : ∀ v : State, Same 1056 v (v.setPower r).showRungs := fun v =>
    State.showRungs_same rfl (State.setPower_same rfl (.self _ v) r)
  refine ⟨_, require_pass h, ?_, ?_⟩
  · exact congrArg Ladder.rungs ((hs _).parts .lad rfl)
  · exact (hs _).parts .wire rfl

theorem exec_removeRung {r : Nat} (hr : r < 16) (s : State) (t c : Nat) :
    exec (.removeRung t c r) s = .next ((s.at t).hostWrite c 0x2400 0xF false (le 1 r) (removeRung r)) := by
  show execRemoveRung t c r s = _
  unfold execRemoveRung
  rw [Nat.mod_eq_of_lt (show r < 256 by omega)]

/-! ## The pending switch (R56, R58) -/

/-- Ports that go dark change nothing but the optics. -/
theorem State.powerDown_same (s : State) {m : Nat} (hm : m &&& 4096 = 0) (l : List Nat) :
    Same m s (l.foldl (fun s p => s.setPort p PortOptics.powerDown) s) :=
  .foldl (fun _ p h => State.setPort_same hm h p _) _ (.self _ s)

/-- Of the ladder, the drop of a switch changes the switch alone. -/
theorem State.dropSwitch_lad (s : State) : s.dropSwitch.lad = { s.lad with switch := none } := by
  unfold State.dropSwitch
  cases hw : s.lad.switch with
  | none =>
    show s.lad = _
    rw [← hw]
  | some w =>
    dsimp only
    have h1 := s.powerDown_same (m := 1024) rfl w.bringUp
    rw [(State.releaseRegions_same rfl (State.showOptics_same rfl (.self 1024 _))).lad_eq, State.setLad_lad, State.os_lad,
      h1.lad_eq]

/-- The table of the objects stays canonical when a switch is dropped. -/
theorem State.dropSwitch_objects {s : State} (h : swf odflt s.objects = true) : swf odflt s.dropSwitch.objects = true := by
  unfold State.dropSwitch
  cases hw : s.lad.switch with
  | none => exact h
  | some w =>
    dsimp only
    have h1 := s.powerDown_same (m := 8) rfl w.bringUp
    rw [(State.releaseRegions_same rfl (.self 8 _)).objects_eq]
    refine List.foldlRecOn (motive := fun v : State => swf odflt v.objects = true) _ _ ?_ fun v hv p _ =>
      swf_sput _ _ _ _ (swf_sput _ _ _ _ hv)
    rw [State.setLad_objects, State.os_objects, h1.objects_eq]
    exact swf_sput _ _ _ _ h

/-- Whatever switch it replaces, the switch asked for begins its prepare now. -/
theorem State.askSwitch_switch (s : State) (r : Nat) (chain : Option Nat) :
    ∃ dark, (s.askSwitch r chain).lad.switch = some ⟨r, s.now, false, false, 0, dark, chain, none⟩ := by
  have hnow : (s.askSwitch r chain).now = s.now := (State.askSwitch_same rfl (.self 2 s) r chain).now_eq
  rw [← hnow]
  exact ⟨_, rfl⟩

theorem State.rungReady_of_lad {s u : State} (h : u.lad = s.lad) (r : Nat) : u.rungReady r = s.rungReady r := by
  unfold State.rungReady State.rung
  rw [h]

/-- A write to 0x2400:03 that its rules let pass, and that changes anything, asks for the switch. -/
theorem requestedRung_asks {s : State} {r : Nat} (hmode : s.og 0x240004 ≠ 2) (hready : s.rungReady r = true)
    (hnew : s.og 0x240001 ≠ r ∨ s.lad.switch.isSome = true) :
    ∃ v : State, v.now = s.now ∧ requestedRung r s = .ok (v.askSwitch r none).endMismatch := by
  have hog : ((s.os 0x240003 r).osBit 0x500013 2 (decide (s.og 0x500031 < r))).og 0x240001 = s.og 0x240001 :=
    (State.og_os_of_ne _ _ (by decide)).trans (State.og_os_of_ne _ _ (by decide))
  refine ⟨(s.os 0x240003 r).osBit 0x500013 2 (decide (s.og 0x500031 < r)), rfl, ?_⟩
  have hlive : ¬ (s.og 0x240001 = r ∧ s.lad.switch.isNone = true) := by
    rintro ⟨heq, hnone⟩
    rcases hnew with hne | hsome
    · exact hne heq
    · rw [Option.isNone_iff_eq_none.1 hnone] at hsome
      exact Bool.false_ne_true hsome
  unfold requestedRung
  rw [require_pass (bne_iff_ne.2 hmode), require_pass hready]
  exact congrArg (fun v : State => Except.ok v.endMismatch) (if_neg (by rw [hog]; exact hlive))

theorem exec_requestedRung {r : Nat} (hr : r < 16) (s : State) (t c : Nat) :
    exec (.requestedRung t c r) s = .next ((s.at t).hostWrite c 0x2400 3 false (le 1 r) (requestedRung r)) := by
  show execRequestedRung t c r s = _
  unfold execRequestedRung
  rw [Nat.mod_eq_of_lt (show r < 256 by omega)]

/-! ## The end of a prepare (R56, R58, R108) -/

/-- A switch to plan pl on its rung, asked for by the host, is being prepared in Sensing. -/
structure State.Prepares (s : State) (w : Switch) (pl : Plan) : Prop where
  switch : s.lad.switch = some w
  prepared : w.prepared = false
  chain : w.chain = none
  power : s.pw.power = .sensing
  rung : s.rung w.rung = some pl

theorem State.Prepares.at {s : State} {w : Switch} {pl : Plan} (h : s.Prepares w pl) (t : Nat) : (s.at t).Prepares w pl :=
  ⟨h.switch, h.prepared, h.chain, h.power, h.rung⟩

theorem State.Prepares.goesOn {s : State} {w : Switch} {pl : Plan} (h : s.Prepares w pl) :
    ¬ (w.prepared = true ∨ (s.pw.power ≠ .sensing ∧ w.chain.isNone = true)) := by
  simp only [h.prepared, h.power, Bool.false_eq_true, ne_eq, not_true_eq_false, false_and, or_self, not_false_eq_true]

theorem exec_prepareEnd_failed {s : State} {w : Switch} {pl : Plan} {t : Nat} {ok : Bool} {seed : Int} (h : s.Prepares w pl)
    (hf : ok = false ∨ w.seedFails seed (max s.now t) = true) :
    exec (.prepareEnd t ok seed) s = .next (s.at t).failPrepare := by
  have k := h.at t
  show execPrepareEnd t ok seed s = _
  unfold execPrepareEnd
  simp only [k.switch, if_neg k.goesOn, k.rung, State.at_now, if_pos hf]

theorem exec_prepareEnd_done {s v : State} {w : Switch} {pl : Plan} {t : Nat} {seed : Int} (h : s.Prepares w pl)
    (hseed : w.seedFails seed (max s.now t) = false) (hup : w.comingUp (max s.now t) = false)
    (hres : (w.bringUp.foldl State.expirePort (s.at t)).showOptics.reservePlan w.rung pl = some v) :
    exec (.prepareEnd t true seed) s = .next (v.donePrepare w pl) := by
  have k := h.at t
  show execPrepareEnd t true seed s = _
  unfold execPrepareEnd
  simp only [k.switch, if_neg k.goesOn, k.rung, State.at_now, hseed, hup, hres, Bool.true_eq_false, Bool.false_eq_true, or_self,
    if_false]

/-- The regions that a prepare reserves and the ports that it brings up take no time. -/
theorem State.reservePlan_now {s v : State} {l : List Nat} {r : Nat} {pl : Plan}
    (h : (l.foldl State.expirePort s).showOptics.reservePlan r pl = some v) : v.now = s.now := by
  have hs : Same 2 s (l.foldl State.expirePort s).showOptics :=
    State.showOptics_same rfl (.foldl (fun _ p h => State.expirePort_same rfl h p) _ (.self _ _))
  exact (State.reservePlan_same rfl hs _ _ v h).now_eq

theorem State.donePrepare_switch {s : State} {w : Switch} (h : w.chain = none) (pl : Plan) :
    (s.donePrepare w pl).lad.switch = some { w with prepared := true, readyAt := s.now } := by
  unfold State.donePrepare
  rw [h]
  rfl

/-- A failed prepare of the host's own switch drops it and shows the code. -/
theorem State.failPrepare_host {s : State} {w : Switch} (hw : s.lad.switch = some w) (hc : w.chain = none) :
    s.failPrepare = s.dropSwitch.os 0x240009 5 := by
  unfold State.failPrepare
  simp only [hw, hc]

/-- Settles O30: the installs start their long operation, and the other commands come down to `removeRung`, `askSwitch`,
`donePrepare` and `failPrepare`. -/
theorem ladderCommandsComplete : Obligations.LadderCommandsComplete := by
  unfold Obligations.LadderCommandsComplete
  refine ⟨?_, ?_, ?_, ?_, ?_, ?_⟩
  · intro s t c r hacc hr hp
    obtain ⟨hwire, hop⟩ := State.hostWrite_install (v := r) hacc hp
    refine ⟨_, exec_planInstall hr s t c, hwire, ?_⟩
    rw [hop, if_neg (by omega), State.at_now]
  · intro s t c r hacc hr hp
    obtain ⟨hwire, hop⟩ := State.hostWrite_install (v := 256 + r) hacc hp
    refine ⟨_, exec_planInstallKeep hr s t c, hwire, ?_⟩
    rw [hop, if_pos (by omega), State.at_now]
  · intro s t c r hacc hr hfree
    obtain ⟨u, hu, hrungs, hwire⟩ := removeRung_free hfree
    refine ⟨_, exec_removeRung hr s t c, ?_⟩
    rw [State.hostWrite_ok hacc hu, State.answer_wire, hwire]
    obtain ⟨hempty, hothers⟩ := State.rung_of_rungs_set (s := (s.at t).renew c) hrungs
    exact ⟨hempty, hothers, rfl⟩
  · intro s t c r hacc hr hmode hready hnew
    have hog : ∀ k, k ≠ 0x200009 → ((s.at t).renew c).og k = s.og k := fun k hk => State.og_renew_of_ne _ c hk
    obtain ⟨v, hv, hask⟩ := requestedRung_asks (s := (s.at t).renew c) (r := r) (by rwa [hog _ (by decide)]) hready
      (by rwa [hog _ (by decide)])
    obtain ⟨dark, hdark⟩ := v.askSwitch_switch r none
    refine ⟨_, dark, exec_requestedRung hr s t c, ?_⟩
    rw [State.hostWrite_ok hacc hask, ← State.at_now]
    exact hv ▸ hdark
  · intro s t seed w pl v hw hprep hchain hp hrung hseed hup hres
    refine ⟨_, exec_prepareEnd_done ⟨hw, hprep, hchain, hp, hrung⟩ hseed hup hres, ?_⟩
    rw [State.donePrepare_switch hchain, State.reservePlan_now hres, State.at_now]
  · intro s t ok seed w pl hw hprep hchain hp hrung hfail
    refine ⟨_, exec_prepareEnd_failed ⟨hw, hprep, hchain, hp, hrung⟩ hfail, ?_⟩
    rw [State.failPrepare_host (s := s.at t) hw hchain, State.os_lad, State.dropSwitch_lad]
    exact ⟨rfl, fun h => State.og_os_self _ _ _ (State.dropSwitch_objects (s := s.at t) h)⟩

end Sys2Proof.Machine
end

section
/-! SUPPORT. The chain switch (R61 to R64): what an outcome, a cancellation and a message leave of the ladder; a member's commands. -/

namespace Sys2Proof.Machine

open Sys2Proof

/-! ## Messages leave the ladder (Table 19-3, R407) -/

@[simp] theorem State.relay_lad (s : State) (down : Bool) (typ src dst : Nat) (payload : List Byte) :
    (s.relay down typ src dst payload).lad = s.lad := (State.relay_same rfl (.self 1024 s) _ _ _ _ _).lad_eq

@[simp] theorem State.tellChain_lad (s : State) (typ : Nat) (payload : List Byte) : (s.tellChain typ payload).lad = s.lad :=
  (State.tellChain_same rfl (.self 1024 s) _ _).lad_eq

@[simp] theorem State.tellHead_lad (s : State) (typ : Nat) (payload : List Byte) : (s.tellHead typ payload).lad = s.lad :=
  (State.tellHead_same rfl (.self 1024 s) _ _).lad_eq

/-- A message for the head goes on from a member, and comes about at the head. -/
theorem State.toHead_member {s : State} (hh : s.isHead = false) (hup : s.sideUp true = true) (typ src : Nat)
    (payload : List Byte) (effect : State → State) : s.toHead typ src payload effect = s.relay false typ src 0 payload := by
  simp only [State.toHead, hup, hh, Bool.true_eq_false, Bool.false_eq_true, if_false]

theorem State.toHead_head {s : State} (hh : s.isHead = true) (hup : s.sideUp true = true) (typ src : Nat)
    (payload : List Byte) (effect : State → State) : s.toHead typ src payload effect = effect s := by
  simp only [State.toHead, hup, hh, Bool.true_eq_false, if_false, if_true]

/-! ## Outcomes (R64) -/

/-- What an outcome of a position adds to a chain switch: with 1, 2 and 6 the position runs the target plan. -/
def ChainHead.heard (c : ChainHead) (pos code index : Nat) : ChainHead :=
  if code = 1 ∨ code = 2 ∨ code = 6 then
    { c with missing := c.missing.filter (· ≠ pos), window := max c.window (index - c.commit.getD index) }
  else c

@[simp] theorem ChainHead.heard_tag (c : ChainHead) (pos code index : Nat) : (c.heard pos code index).tag = c.tag := by
  unfold ChainHead.heard
  split <;> rfl

@[simp] theorem ChainHead.heard_ovr (c : ChainHead) (pos code index : Nat) : (c.heard pos code index).ovr = c.ovr := by
  unfold ChainHead.heard
  split <;> rfl

/-- Of the ladder, an outcome changes the chain switch alone. -/
theorem State.chainOutcome_lad (s : State) (pos code index : Nat) :
    (s.chainOutcome pos code index).lad = { s.lad with chain := s.lad.chain.map (·.heard pos code index) } := by
  unfold State.chainOutcome
  cases hc : s.lad.chain with
  | none =>
    show s.lad = { s.lad with chain := none }
    rw [← hc]
  | some c =>
    dsimp only
    simp only [apply_ite State.lad, State.os_lad, State.setLad_lad, ite_self, Option.map_some, ChainHead.heard,
      decide_eq_true_eq]

/-- A device that reports its outcome keeps its switch and its member's state. -/
theorem State.report_lad (s : State) (tag code index : Nat) :
    (s.report tag code index).lad.switch = s.lad.switch ∧ (s.report tag code index).lad.member = s.lad.member := by
  unfold State.report
  split
  · rw [State.chainOutcome_lad]
    exact ⟨rfl, rfl⟩
  · rw [State.tellHead_lad]
    exact ⟨rfl, rfl⟩

/-! ## A member's commands (R61, R63) -/

/-- A message of the chain reaches the device as a member. -/
theorem State.member_goesOn {s : State} (hh : s.isHead = false) (hup : s.sideUp false = true) :
    ¬ (s.isHead = true ∨ s.sideUp false = false) := by
  simp only [hh, hup, Bool.false_eq_true, Bool.true_eq_false, or_self, not_false_eq_true]

/-- PREPARE for a rung that holds a plan asks for the switch under the tag. -/
theorem exec_prepare {s : State} {r : Nat} (t tag : Nat) (hh : s.isHead = false) (hup : s.sideUp false = true)
    (hr : s.rungReady r = true) : ∃ v : State, v.now = max s.now t ∧
      exec (.prepare t r tag) s =
        .next ((v.askSwitch r (some tag)).setLad fun l => { l with member := some ⟨r, tag, false, 0, false⟩ }) := by
  have hready : (((s.at t).relay true 0x10 0 0xFF ([byte r] ++ le 2 tag)).os 0x240013 (tag % 65536)).rungReady r = true :=
    (State.rungReady_of_lad (State.relay_lad (s.at t) _ _ _ _ _) r).trans hr
  refine ⟨((s.at t).relay true 0x10 0 0xFF ([byte r] ++ le 2 tag)).os 0x240013 (tag % 65536), ?_, ?_⟩
  · rw [State.os_now, (State.relay_same rfl (.self 2 (s.at t)) _ _ _ _ _).now_eq, State.at_now]
  · show execPrepare t r tag s = _
    unfold execPrepare
    dsimp only
    rw [if_neg (State.member_goesOn (s := s.at t) hh hup), if_neg (by rw [hready]; exact Bool.noConfusion)]

theorem exec_commit {s : State} (t tag index : Nat) (hh : s.isHead = false) (hup : s.sideUp false = true) :
    exec (.commit t tag index) s = .next (((s.at t).relay true 0x13 0 0xFF (le 2 tag ++ le 8 index)).setLad fun l =>
      { l with switch := l.switch.map (Switch.commitAt · tag index) }) :=
  if_neg (State.member_goesOn (s := s.at t) hh hup)

/-- The ladder without the prepared state of a chain switch. -/
def Ladder.discard (l : Ladder) (tag : Nat) : Ladder :=
  { l with member := none, switch := if l.switch.bind (·.chain) = some tag then none else l.switch }

/-- CANCEL of the tag that the member prepared for discards what it prepared, and the member reports it. -/
theorem exec_cancel {s : State} {m : ChainMember} (t : Nat) (hh : s.isHead = false) (hup : s.sideUp false = true)
    (hm : s.lad.member = some m) (hs : m.switched = false) :
    ∃ v : State, v.lad = s.lad.discard m.tag ∧ exec (.cancel t m.tag) s = .next (v.report m.tag 4 0) := by
  have hlad := State.relay_lad (s.at t) true 0x14 0 0xFF (le 2 m.tag)
  generalize hx : (s.at t).relay true 0x14 0 0xFF (le 2 m.tag) = x at hlad
  rw [State.at_lad] at hlad
  refine ⟨(if (x.lad.switch.bind (·.chain)) = some m.tag then x.dropSwitch else x).setLad fun l => { l with member := none },
    ?_, ?_⟩
  · unfold Ladder.discard
    rw [← hlad, State.setLad_lad]
    split
    · rw [State.dropSwitch_lad]
    · rfl
  · show execCancel t m.tag s = _
    unfold execCancel
    dsimp only
    rw [if_neg (State.member_goesOn (s := s.at t) hh hup), hx, hlad, hm]
    dsimp only
    rw [if_neg (not_not_intro rfl), hs]
    rfl

/-- COMMIT_LOST_TIMEOUT drops the switch that waits for its commit, and the member reports it. -/
theorem exec_commitLostTimeout {s : State} {t : Nat} {m : ChainMember} {w : Switch} (hh : s.isHead = false)
    (hm : s.lad.member = some m) (hw : s.lad.switch = some w) (hack : m.acked = true) (hs : m.switched = false)
    (hc : w.chain = some m.tag) (hk : w.commit = none) (ht : m.ackAt + 250000000 ≤ max s.now t) :
    exec (.commitLostTimeout t) s =
      .next (((s.at t).dropSwitch.setLad fun l => { l with member := none }).report m.tag 5 0) := by
  have hh' : (s.at t).isHead = false := hh
  show execCommitLostTimeout t s = _
  unfold execCommitLostTimeout
  simp only [State.at_lad, State.at_now, hm, hw, hack, hs, hc, hk, hh', ht, Bool.not_false, Option.isNone_none, decide_true,
    Bool.and_self, if_true]

/-- Settles O31: a member's commands come down to `askSwitch`, `Switch.commitAt` and `dropSwitch`, and the relayed message and the
report leave the switch and the prepared state as they are. -/
theorem chainMemberCommandsComplete : Obligations.ChainMemberCommandsComplete := by
  unfold Obligations.ChainMemberCommandsComplete
  refine ⟨?_, ?_, ?_, ?_, ?_⟩
  · intro s t r tag hh hup hr
    obtain ⟨v, hnow, hv⟩ := exec_prepare t tag hh hup hr
    obtain ⟨dark, hdark⟩ := v.askSwitch_switch r (some tag)
    exact ⟨_, dark, hv, hnow ▸ hdark, rfl⟩
  · intro s t tag index hh hup
    refine ⟨_, exec_commit t tag index hh hup, ?_⟩
    rw [State.setLad_lad, State.relay_lad, State.at_lad]
  · intro s t tag m hh hup hm htag hs
    subst htag
    obtain ⟨v, hlad, hv⟩ := exec_cancel t hh hup hm hs
    obtain ⟨hswitch, hmember⟩ := v.report_lad m.tag 4 0
    refine ⟨_, hv, ?_, ?_⟩
    · rw [hmember, hlad]
      rfl
    · rw [hswitch, hlad]
      rfl
  · intro s t m w hh hm hw hack hs hc hk ht
    obtain ⟨hswitch, hmember⟩ := ((s.at t).dropSwitch.setLad fun l => { l with member := none }).report_lad m.tag 5 0
    refine ⟨_, exec_commitLostTimeout hh hm hw hack hs hc hk ht, hmember, hswitch.trans ?_⟩
    rw [State.setLad_lad, State.dropSwitch_lad]
  · intro s t src tag hh hup
    have hgo := State.toHead_member (s := s.at t) hh hup
    exact ⟨congrArg Host.Outcome.next (hgo _ _ _ _), congrArg Host.Outcome.next (hgo _ _ _ _),
      congrArg Host.Outcome.next (hgo _ _ _ _), fun code index => congrArg Host.Outcome.next (hgo _ _ _ _)⟩

end Sys2Proof.Machine
end

section
/-! SUPPORT. The chain switch at the head (R61 to R64): its opening, the last ACK, and what cancels it. -/

namespace Sys2Proof.Machine

open Sys2Proof

/-! ## The opening (R61) -/

/-- A ladder on which the head has opened a chain switch to rung r under a tag at an instant, its own switch asked for. -/
structure Ladder.Opened (l : Ladder) (r tag now : Nat) : Prop where
  switch : ∃ dark, l.switch = some ⟨r, now, false, false, 0, dark, some tag, none⟩
  chain : l.chain = some ⟨r, tag, now, [], none, false, false, [], 0⟩
  member : l.member = some ⟨r, tag, false, 0, false⟩

/-- A write to 0x2400:10 that its rules let pass opens the chain switch under the next tag. -/
theorem chainSwitch_opens {s : State} {r : Nat} (hh : s.isHead = true) (hr : s.rungReady r = true) :
    ∃ u, chainSwitch r s = .ok u ∧ u.lad.Opened r ((s.og 0x240013 + 1) % 65536) s.now := by
  unfold chainSwitch
  rw [require_pass hh, require_pass hr]
  extract_lets tag s1 s2 s3
  have h2 : Same 1024 s1 s2 :=
    .foldl (fun _ _ h => State.os_same rfl h _ _) _ (State.os_same rfl (.self _ s1) _ _)
  have hnow : s2.now = s.now :=
    (Same.foldl (fun _ _ h => State.os_same rfl h _ _) _
      (State.os_same rfl (State.askSwitch_same rfl (.self 2 s) r (some tag)) _ _)).now_eq
  have hswitch := s.askSwitch_switch r (some tag)
  refine ⟨_, rfl, ?_⟩
  rw [State.tellChain_lad, State.setLad_lad, h2.lad_eq, hnow]
  exact ⟨hswitch, rfl, rfl⟩

theorem exec_chainSwitch {r : Nat} (hr : r < 16) (s : State) (t c : Nat) :
    exec (.chainSwitch t c r) s = .next ((s.at t).hostWrite c 0x2400 0x10 false (le 1 r) (chainSwitch r)) := by
  show execChainSwitch t c r s = _
  unfold execChainSwitch
  rw [Nat.mod_eq_of_lt (show r < 256 by omega)]

/-! ## Acknowledgement (R61) -/

/-- A chain switch still open for ACKs counts each position once; the last one commits it. -/
theorem State.ackFrom_open {s : State} {c : ChainHead} {pos : Nat} (hc : s.lad.chain = some c) (ho : c.ovr = false)
    (hk : c.commit = none) (hp : pos ∉ c.acks) :
    s.ackFrom pos c.tag =
      let v := s.setLad fun l => { l with chain := some { c with acks := c.acks ++ [pos] } }
      if (List.range s.chainLen).all (c.acks ++ [pos]).contains = true then v.commitChain { c with acks := c.acks ++ [pos] }
      else v := by
  have hnew : c.acks.contains pos = false := by
    rw [← Bool.not_eq_true, List.contains_iff_mem]
    exact hp
  unfold State.ackFrom
  simp only [hc, ho, hk, hnew, ne_eq, not_true_eq_false, Option.isSome_none, Bool.false_eq_true, or_self, if_false]
  rfl

theorem State.commitChain_chain (s : State) (c : ChainHead) :
    ∃ o, (s.commitChain c).lad.chain = some o ∧ o.commit.isSome = true := ⟨_, rfl, rfl⟩

/-! ## Cancellation (R61, R62) -/

/-- The head has cancelled the chain switch with this tag. -/
def State.Cancelled (s : State) (tag : Nat) : Prop := ∃ o, s.lad.chain = some o ∧ o.tag = tag ∧ o.ovr = true

theorem State.Cancelled.of_chain {s u : State} {tag : Nat} (h : s.Cancelled tag) (e : u.lad.chain = s.lad.chain) :
    u.Cancelled tag := by
  obtain ⟨o, ho, htag, hovr⟩ := h
  exact ⟨o, e.trans ho, htag, hovr⟩

/-- No outcome undoes a cancellation. -/
theorem State.Cancelled.chainOutcome {s : State} {tag : Nat} (h : s.Cancelled tag) (pos code index : Nat) :
    (s.chainOutcome pos code index).Cancelled tag := by
  obtain ⟨o, ho, htag, hovr⟩ := h
  refine ⟨o.heard pos code index, ?_, (o.heard_tag _ _ _).trans htag, (o.heard_ovr _ _ _).trans hovr⟩
  rw [State.chainOutcome_lad, ho]
  rfl

theorem State.cancelChain_cancelled {s : State} {c : ChainHead} (hc : s.lad.chain = some c) (own : Nat) :
    (s.cancelChain own).Cancelled c.tag := by
  unfold State.cancelChain
  simp only [hc]
  generalize hv : (s.tellChain 0x14 (le 2 c.tag)).setLad (fun l => { l with chain := some { c with ovr := true } }) = v
  have h : v.Cancelled c.tag := by
    subst hv
    exact ⟨_, rfl, rfl, rfl⟩
  split
  · refine (h.of_chain ?_).chainOutcome 0 own 0
    rw [State.setLad_lad, State.dropSwitch_lad]
  · split
    · split <;> exact h.chainOutcome _ _ _
    · exact h.chainOutcome _ _ _

/-- A chain switch that is neither cancelled nor committed. -/
structure State.Waits (s : State) (c : ChainHead) : Prop where
  chain : s.lad.chain = some c
  ovr : c.ovr = false
  commit : c.commit = none

theorem State.Waits.at {s : State} {c : ChainHead} (h : s.Waits c) (t : Nat) : (s.at t).Waits c := ⟨h.chain, h.ovr, h.commit⟩

theorem State.Waits.live {s : State} {c : ChainHead} (h : s.Waits c) : ¬ (c.tag ≠ c.tag ∨ c.ovr = true) := by
  simp only [h.ovr, ne_eq, not_true_eq_false, Bool.false_eq_true, or_self, not_false_eq_true]

/-- A NAK of another position cancels a chain switch that waits for its ACKs. -/
theorem State.nakFrom_cancelled {s : State} {c : ChainHead} {pos : Nat} (h : s.Waits c) (hp : pos ≠ 0) :
    (s.nakFrom pos c.tag).Cancelled c.tag := by
  unfold State.nakFrom
  simp only [h.chain]
  rw [if_neg h.live, if_neg hp]
  exact (State.cancelChain_cancelled h.chain 4).chainOutcome _ _ _

/-- So does a FAIL of any position. -/
theorem State.failFrom_cancelled {s : State} {c : ChainHead} (h : s.Waits c) (pos : Nat) :
    (s.failFrom pos c.tag).Cancelled c.tag := by
  unfold State.failFrom
  simp only [h.chain]
  rw [if_neg h.live]
  simp only [h.commit]
  exact State.cancelChain_cancelled h.chain 4

/-- So does the end of the 150 ms; every position that is late has the outcome of a NAK. -/
theorem exec_ackTimeout {s : State} {t : Nat} {c : ChainHead} (h : s.Waits c) (ht : c.sentAt + 150000000 ≤ max s.now t) :
    ∃ u, exec (.ackTimeout t) s = .next u ∧ u.Cancelled c.tag := by
  have k := h.at t
  have hgo : ¬ (c.ovr = true ∨ c.commit.isSome = true ∨ (s.at t).now < c.sentAt + 150000000) := by
    simp only [h.ovr, h.commit, State.at_now, Nat.not_lt.2 ht, Option.isSome_none, Bool.false_eq_true, or_self, not_false_eq_true]
  show ∃ u, execAckTimeout t s = .next u ∧ _
  unfold execAckTimeout
  simp only [k.chain]
  refine ⟨_, if_neg hgo, ?_⟩
  exact List.foldlRecOn (motive := (State.Cancelled · c.tag)) _ _ (State.cancelChain_cancelled k.chain _) fun _ hv p _ =>
    hv.chainOutcome p 3 0

/-- Settles O32: at the head a message comes about as `ackFrom`, `nakFrom`, `failFrom` or `chainOutcome`, and what cancels the chain
switch does so through `cancelChain`, which no later outcome undoes. -/
theorem chainHeadCommandsComplete : Obligations.ChainHeadCommandsComplete := by
  unfold Obligations.ChainHeadCommandsComplete
  refine ⟨?_, ?_, ?_, ?_, ?_, ?_⟩
  · intro s t c r hacc hr hh hready
    dsimp only
    obtain ⟨u, hu, hopen⟩ := chainSwitch_opens (s := (s.at t).renew c) hh hready
    rw [State.og_renew_of_ne _ _ (by decide), State.at_og, State.renew_now, State.at_now] at hopen
    obtain ⟨⟨dark, hdark⟩, hchain, hmember⟩ := hopen
    refine ⟨_, dark, exec_chainSwitch hr s t c, ?_⟩
    rw [State.hostWrite_ok hacc hu]
    exact ⟨hdark, hchain, hmember⟩
  · intro s t src tag c hup hh hc htag ho hk hp
    subst htag
    refine ⟨_, congrArg Host.Outcome.next (State.toHead_head (s := s.at t) hh hup _ _ _ _), ?_⟩
    rw [State.ackFrom_open (s := s.at t) hc ho hk hp, show (s.at t).chainLen = s.chainLen from rfl]
    by_cases hall : (List.range s.chainLen).all (c.acks ++ [src]).contains = true
    · simp only [if_pos hall]
      exact State.commitChain_chain _ _
    · simp only [if_neg hall]
      rfl
  · intro s t src tag c hup hh hc htag ho hk hsrc
    subst htag
    obtain ⟨o, hcancel⟩ := State.nakFrom_cancelled (State.Waits.at ⟨hc, ho, hk⟩ t) hsrc
    exact ⟨_, o, congrArg Host.Outcome.next (State.toHead_head (s := s.at t) hh hup _ _ _ _), hcancel⟩
  · intro s t c hc ho hk ht
    obtain ⟨u, hu, o, hcancel⟩ := exec_ackTimeout ⟨hc, ho, hk⟩ ht
    exact ⟨u, o, hu, hcancel⟩
  · intro s t src tag c hup hh hc htag ho hk
    subst htag
    obtain ⟨o, hcancel⟩ := State.failFrom_cancelled (State.Waits.at ⟨hc, ho, hk⟩ t) src
    exact ⟨_, o, congrArg Host.Outcome.next (State.toHead_head (s := s.at t) hh hup _ _ _ _), hcancel⟩
  · intro s t src tag code index c hup hh hc htag
    refine congrArg Host.Outcome.next ((State.toHead_head (s := s.at t) hh hup _ _ _ _).trans (if_pos ?_))
    rw [State.at_lad, hc, ← htag]
    rfl

end Sys2Proof.Machine
end

section
/-! SUPPORT. The optical front end (chapter 4): the ports, the waiting EMCYs and the loops after the operations of the optics; the
light commands. -/

namespace Sys2Proof.Machine

open Sys2Proof

/-! ## Ports

The mask 4 096 is the bit of the optics. -/

theorem Same.opt_eq {r s : State} (h : Same 4096 r s) : s.opt = r.opt := h.parts .opt rfl

theorem State.po_of_opt {r s : State} (h : s.opt = r.opt) (p : Nat) : s.po p = r.po p :=
  congrArg (fun o : Optics => o.ports.getD p PortOptics.blank) h

/-- The objects that show the loops and the ports are objects alone (R86, R90). -/
@[simp] theorem State.showOptics_opt (s : State) : s.showOptics.opt = s.opt := (State.showOptics_same rfl (.self 4096 s)).opt_eq

@[simp] theorem State.showOptics_po (s : State) (p : Nat) : s.showOptics.po p = s.po p := State.po_of_opt s.showOptics_opt p

@[simp] theorem State.showOptics_ctl (s : State) : s.showOptics.ctl = s.ctl := (State.showOptics_same rfl (.self 256 s)).ctl_eq

theorem State.showOptics_still (s : State) : s.showOptics.pw.still = s.pw.still :=
  (State.showOptics_same rfl (.self 128 s)).pw_still

theorem State.po_setPort_self {s : State} {p : Nat} (hp : p < s.opt.ports.length) (f : PortOptics → PortOptics) :
    (s.setPort p f).po p = f (s.po p) := by
  simp only [State.po, State.setPort, modAt, List.getD_eq_getElem?_getD, List.getElem?_modify_eq,
    List.getElem?_eq_getElem hp, Option.map_eq_map, Option.map_some, Option.getD_some]

theorem State.po_setPort_of_ne (s : State) {p q : Nat} (h : q ≠ p) (f : PortOptics → PortOptics) :
    (s.setPort p f).po q = s.po q := by
  simp only [State.po, State.setPort, modAt, List.getD_eq_getElem?_getD, List.getElem?_modify_ne f _ h.symm]

/-! ## EMCY -/

theorem toU_lt (w : Nat) (v : Int) : toU w v < 2 ^ w := by
  have hpos : (0 : Int) < 2 ^ w := Int.pow_pos (by decide)
  have hlt : v % 2 ^ w < ((2 ^ w : Nat) : Int) := by
    rw [Int.natCast_pow]
    exact Int.emod_lt_of_pos v hpos
  exact (Int.toNat_lt (Int.emod_nonneg v (Int.ne_of_gt hpos))).2 hlt

/-- Outside NMT Stopped an EMCY that finds room waits as the last. -/
theorem State.emcy_waiting {s : State} (hn : s.pw.nmtStopped = false) (hw : s.ctl.waiting.length < 8) (code detail arg : Nat) :
    (s.emcy code detail arg).ctl.waiting = s.ctl.waiting ++ [⟨code, detail, arg % 2 ^ 32⟩] := by
  unfold State.emcy
  simp only [State.osBit_pw, State.osBit_ctl, hn, Nat.not_le.2 hw, Bool.false_eq_true, if_false]

/-- An EMCY, an event of q15 and the cause that the sweep in progress bears (R302, Table 21-6). -/
def State.alarm (s : State) (code detail arg : Nat) (ev prio : Nat) (body : List Byte) : State :=
  ((s.emcy code detail arg).event ev prio body).cause 8

theorem State.alarm_opt (s : State) (code detail arg ev prio : Nat) (body : List Byte) :
    (s.alarm code detail arg ev prio body).opt = s.opt :=
  (State.cause_same rfl (State.event_same rfl (State.emcy_same rfl (.self 4096 s) _ _ _) _ _ _) _).opt_eq

theorem State.alarm_po (s : State) (code detail arg ev prio : Nat) (body : List Byte) (p : Nat) :
    (s.alarm code detail arg ev prio body).po p = s.po p := State.po_of_opt (s.alarm_opt code detail arg ev prio body) p

/-- Of the control session, an alarm changes what its EMCY does. -/
theorem State.alarm_waiting {s : State} (hn : s.pw.nmtStopped = false) (hw : s.ctl.waiting.length < 8)
    (code detail arg ev prio : Nat) (body : List Byte) :
    (s.alarm code detail arg ev prio body).ctl.waiting = s.ctl.waiting ++ [⟨code, detail, arg % 2 ^ 32⟩] := by
  have h : Same 256 (s.emcy code detail arg) (s.alarm code detail arg ev prio body) :=
    State.cause_same rfl (State.event_same rfl (.self 256 _) _ _ _) _
  rw [h.ctl_eq, State.emcy_waiting hn hw]

/-! ## Input limit and trip (R79, R82) -/

/-- INPUT_LIMIT_ASSERT above the limit of the receiver gain range. -/
theorem exec_inputLimitAssert {s : State} {p : Nat} {x : Excess} (t : Nat) (hp : s.portOn p = true)
    (hx : inputLimit (s.og (pk 0x280003 p)) < x.peak) :
    exec (.inputLimitAssert t p x) s = .next (((s.at t).setPort p fun po =>
      { po with forced := po.forced ++ [(max s.now t, some (max s.now t + x.span + 40), 0)] }).bump (pk 0x28000C p)) := by
  rw [← State.at_now]
  exact if_pos ⟨hp, hx⟩

/-- A port that the protection trips at an instant. -/
def PortOptics.trip (po : PortOptics) (now : Nat) : PortOptics :=
  { po with tripped := true, forced := po.forced ++ [(now, none, 1)] }

/-- A port has tripped, and its trips are counted (R82). -/
def State.tripPort (s : State) (p : Nat) : State := (s.setPort p (PortOptics.trip · s.now)).cutEmission.bump (pk 0x280005 p)

theorem State.tripPort_po (s : State) (p q : Nat) : (s.tripPort p).po q = (s.setPort p (PortOptics.trip · s.now)).po q :=
  State.po_of_opt (State.cutEmission_same rfl (.self 4096 _)).opt_eq q

theorem State.tripPort_ctl (s : State) (p : Nat) : (s.tripPort p).ctl = s.ctl :=
  (State.cutEmission_same rfl (State.setPort_same rfl (.self 256 s) p _)).ctl_eq

theorem State.tripPort_nmtStopped (s : State) (p : Nat) : (s.tripPort p).pw.nmtStopped = s.pw.nmtStopped :=
  (congrArg Power.nmtStopped (State.cutEmission_same rfl (State.setPort_same rfl (.self 128 s) p _)).pw_still :)

/-- REFLECTION_TRIP above the trip level with the gate open. -/
theorem exec_reflectionTrip {s : State} {t p : Nat} {peak : Int} (hg : s.gateOpenAt p (max s.now t) = true)
    (hl : 10 * s.ogI 16 (pk 0x280004 p) < peak) :
    let n := s.sweepAt (max s.now t)
    exec (.reflectionTrip t p peak) s =
      .next (((s.at t).tripPort p).alarm 0x5020 p n 0x0003 0 (byte p :: rep 7 0 ++ le 8 n)).showOptics := by
  rw [← State.at_now] at hg ⊢
  exact if_pos ⟨hg, hl⟩

/-! ## The seed monitor (R69, R70) -/

theorem Loop.hold_code (l : Loop) (limit : Option Nat) : (l.hold limit).code ≠ 2 ∧ (l.hold limit).code ≠ 3 := by
  unfold Loop.hold
  split
  · exact ⟨(by decide : 4 ≠ 2), (by decide : 4 ≠ 3)⟩
  · next h => exact not_or.1 h

/-- A port whose loops hold if it is live. -/
def PortOptics.held (po : PortOptics) : PortOptics :=
  if po.live then { po with loops := po.loops.map (Loop.hold · po.limit) } else po

theorem PortOptics.held_loops {po : PortOptics} (h : po.held.live = true) : ∀ l ∈ po.held.loops, l.code ≠ 2 ∧ l.code ≠ 3 := by
  have hlive : po.live = true := by
    unfold PortOptics.held at h
    split at h
    · assumption
    · exact h
  unfold PortOptics.held
  rw [if_pos hlive]
  intro l hl
  obtain ⟨k, -, rfl⟩ := List.mem_map.1 hl
  exact k.hold_code _

theorem State.holdLoops_opt (s : State) : s.holdLoops.opt = { s.opt with ports := s.opt.ports.map PortOptics.held } :=
  State.showOptics_opt _

/-- The seed-low condition stands from now on, at a power that the device shows (R69). -/
def State.lowSeed (s : State) (dbm : Int) : State :=
  { s with opt := { s.opt with seedLow := true, seedDbm := dbm, seedSpans := s.opt.seedSpans ++ [(s.now, none)] } }.osI
    16 0x28000B dbm

/-- SEED_LOW_SET below +8.0 dBm. -/
theorem exec_seedLowSet {s : State} {dbm : Int} (t : Nat) (hp : s.pw.photonic = true) (hl : s.opt.seedLow = false)
    (hd : dbm < 800) :
    exec (.seedLowSet t dbm) s =
      .next (((s.at t).lowSeed dbm).holdLoops.alarm 0x5010 0 (toU 32 dbm) 0x0002 1 (seedBody 1 dbm)) := if_pos ⟨hp, hl, hd⟩

/-- SEED_LOW_CLEAR above +9.0 dBm ends the condition. -/
theorem exec_seedLowClear {s : State} {dbm : Int} (t : Nat) (hp : s.pw.photonic = true) (hl : s.opt.seedLow = true)
    (hd : 900 < dbm) : ∃ u, exec (.seedLowClear t dbm) s = .next u ∧ u.opt.seedLow = false ∧ u.opt.seedDbm = dbm := by
  refine ⟨_, if_pos ⟨hp, hl, hd⟩, ?_⟩
  rw [State.showOptics_opt, (State.event_same rfl (.self 4096 _) _ _ _).opt_eq]
  exact ⟨rfl, rfl⟩

/-- Settles O22: what a command records and shows beside its own effect leaves the optics and the waiting EMCYs as `tripPort`,
`holdLoops` and `alarm` make them. -/
theorem lightCommandsComplete : Obligations.LightCommandsComplete := by
  unfold Obligations.LightCommandsComplete
  refine ⟨?_, ?_, ?_, ?_⟩
  · intro s t p x hp hx
    exact exec_inputLimitAssert t hp hx
  · intro s t p peak hg hl hp hn hw
    have hstop : ((s.at t).tripPort p).pw.nmtStopped = false := ((s.at t).tripPort_nmtStopped p).trans hn
    have hctl : ((s.at t).tripPort p).ctl = s.ctl := (s.at t).tripPort_ctl p
    refine ⟨_, exec_reflectionTrip hg hl, ?_, fun q hq => ?_, ?_⟩
    · rw [State.showOptics_po, State.alarm_po, State.tripPort_po, State.po_setPort_self (s := s.at t) hp]
      rfl
    · rw [State.showOptics_po, State.alarm_po, State.tripPort_po, State.po_setPort_of_ne _ hq]
      rfl
    · rw [State.showOptics_ctl, State.alarm_waiting hstop (by rwa [hctl]), hctl]
  · intro s t dbm hp hl hd hn hw
    have hstop : ((s.at t).lowSeed dbm).holdLoops.pw.nmtStopped = false :=
      (congrArg Power.nmtStopped (State.showOptics_still _) :).trans hn
    have hctl : ((s.at t).lowSeed dbm).holdLoops.ctl = s.ctl := State.showOptics_ctl _
    refine ⟨_, exec_seedLowSet t hp hl hd, ?_⟩
    rw [State.alarm_opt, State.alarm_waiting hstop (by rwa [hctl]), hctl, Nat.mod_eq_of_lt (toU_lt 32 dbm), State.holdLoops_opt]
    refine ⟨rfl, rfl, fun po hpo hlive => ?_, rfl⟩
    obtain ⟨po', -, rfl⟩ := List.mem_map.1 hpo
    exact PortOptics.held_loops hlive
  · intro s t dbm hp hl hd
    exact exec_seedLowClear t hp hl hd

end Sys2Proof.Machine
end

section
/-! SUPPORT. Bias control and hold-warm (R85 to R89, R420): what a measurement, its absence and a search do to the loops, and what
hold warm does to the photonic domain. -/

namespace Sys2Proof.Machine

open Sys2Proof

/-! ## Loops (R85, R87, Table 4-6) -/

/-- Changes that agree on entry i make the same list. -/
theorem modAt_congr {α : Type} {l : List α} {i : Nat} {f g : α → α} (h : ∀ x, l[i]? = some x → f x = g x) :
    modAt l i f = modAt l i g := by
  refine List.ext_getElem? fun j => ?_
  simp only [modAt, List.getElem?_modify]
  by_cases hj : i = j
  · subst hj
    cases hx : l[i]? with
    | none => rfl
    | some x => simp only [if_true, Option.map_eq_map, Option.map_some, h x hx]
  · simp only [if_neg hj]

/-- A port on which loop i has become `new`; in Ready, `warm`, a port whose loops all hold is no longer starting (R420). -/
def PortOptics.measured (po : PortOptics) (i : Nat) (new : Loop) (warm : Bool) : PortOptics :=
  if warm then ({ po with loops := modAt po.loops i fun _ => new } : PortOptics).settle
  else { po with loops := modAt po.loops i fun _ => new }

theorem PortOptics.measured_loops (po : PortOptics) (i : Nat) (new : Loop) (warm : Bool) :
    (po.measured i new warm).loops = modAt po.loops i fun _ => new := by
  unfold PortOptics.measured PortOptics.settle
  split
  · split <;> rfl
  · rfl

/-- BIAS_MEASUREMENT clear of the gate changes the optics of its port alone, and there the one loop as Table 4-6 says. -/
theorem exec_biasMeasurement {s : State} {t p i : Nat} (err set : Int) (atEnd : Bool) (hon : s.portOn p = true)
    (hlive : (s.po p).live = true) (hi : i < 4) (hm : s.measurable p (max s.now t) = true) :
    let warm := decide (s.pw.power = .ready) && s.pw.entry.isNone
    let new := ((s.po p).loops.getD i ⟨0, 0, none, 0, 0⟩).measure (max s.now t) err set atEnd s.opt.seedLow warm (s.po p).limit
    ∃ u, exec (.biasMeasurement t p i err set atEnd) s = .next u ∧
      u.opt = (s.setPort p (PortOptics.measured · i new warm)).opt := by
  rw [← State.at_now] at hm ⊢
  refine ⟨_, if_pos ⟨hon, hlive, hi, hm⟩, ?_⟩
  rw [State.showOptics_opt]
  split
  · exact (State.biasEmcy_same rfl (.self 4096 _) p).opt_eq
  · rfl

theorem Loop.hold_locked {l : Loop} (h : l.code = 3) (limit : Option Nat) :
    l.hold limit = { l with code := 4, run := 0, deadline := limit } := if_pos (.inr h)

/-- MEASUREMENT_TIMEOUT of a loop that is Locked for 1 s without a measurement. -/
theorem exec_measurementTimeout {s : State} {t p i : Nat} (hc : ((s.po p).loops.getD i ⟨0, 0, none, 0, 0⟩).code = 3)
    (ht : ((s.po p).loops.getD i ⟨0, 0, none, 0, 0⟩).lastMeas + 1000000000 ≤ max s.now t) :
    exec (.measurementTimeout t p i) s = .next ((s.at t).setPort p fun po =>
      { po with loops := modAt po.loops i fun l => l.hold po.limit }).showOptics := by
  rw [← State.at_now] at ht
  exact if_pos ⟨hc, ht⟩

/-! ## The bias search (R89) -/

theorem exec_biasSearch {mask : Nat} (hm : mask < 256) (s : State) (t c : Nat) :
    exec (.biasSearch t c mask) s = .next ((s.at t).hostWrite c 0x2000 8 false (le 1 mask) (biasSearch mask)) := by
  show execBiasSearch t c mask s = _
  unfold execBiasSearch
  rw [Nat.mod_eq_of_lt hm]

/-- A search on ports that the variant enables starts long operation 3 at once; the change of the ports tells nobody. -/
theorem biasSearch_starts {s : State} {mask : Nat} (h : mask &&& s.portMask = mask) :
    ∃ v : State, v.now = s.now ∧ v.wire = s.wire ∧ biasSearch mask s = .ok (v.startLong 3 20000 mask []) := by
  have hv : ∀ {m : Nat} {v : State} {f : Nat → PortOptics → PortOptics}, m &&& 4104 = 0 → Same m s v → ∀ l : List Nat,
      Same m s (l.foldl (fun s p => s.setPort p (f p)) v).showOptics := fun hm hv l =>
    State.showOptics_same (mask_sub hm rfl) (.foldl (fun _ p h => State.setPort_same (mask_sub hm rfl) h p _) l hv)
  refine ⟨_, ?_, ?_, require_pass (decide_eq_true h)⟩
  · exact (hv rfl (State.os_same rfl (.self 2 s) _ _) _).now_eq
  · exact (hv rfl (State.os_same rfl (.self 32 s) _ _) _).wire_eq

/-! ## Hold-warm (R420) -/

theorem State.rechoose_off {s : State} (h : s.og 0x210001 ≠ 1) : s.rechoose = s := if_neg fun k => h k.1

/-- The objects of the optics lie from 0x2800:00 on. -/
theorem State.showOptics_og (s : State) {k : Nat} (hk : k < 0x280000) : s.showOptics.og k = s.og k := by
  refine List.foldlRecOn (motive := fun v : State => v.og k = s.og k) _ _ rfl fun v hv p _ => ?_
  rw [State.og_os_of_ne _ _ (by unfold pk; omega), State.og_os_of_ne _ _ (by unfold pk; omega), hv]

theorem State.og_of_objects {r s : State} (h : s.objects = r.objects) (k : Nat) : s.og k = r.og k :=
  congrArg (sget odflt · k) h

theorem State.bringUp_og (s : State) (l : List Nat) (limit : Nat) {k : Nat} (hk : k < 0x280000) :
    (s.bringUp l limit).og k = s.og k := by
  refine (State.showOptics_og _ hk).trans (State.og_of_objects (Same.objects_eq (.foldl (fun _ p h => ?_) l (.self 8 s))) k)
  exact .ite (State.setPort_same rfl h p _) h

theorem State.warmUp_og (s : State) {k : Nat} (hk : k < 0x280000) : s.warmUp.og k = s.og k := by
  unfold State.warmUp
  dsimp only
  split
  · exact State.bringUp_og _ _ _ hk
  · rfl

theorem State.photonicOff_og (s : State) {k : Nat} (hk : k < 0x280000) : s.photonicOff.og k = s.og k :=
  (State.showOptics_og _ hk).trans (State.og_os_of_ne _ _ (by omega))

theorem State.warmUp_photonic (s : State) : s.warmUp.pw.photonic = true := by
  unfold State.warmUp
  dsimp only
  split
  · exact (congrArg Power.photonic (State.bringUp_same rfl (.self 128 s.photonicOn) _ _).pw_still :)
  · rfl

theorem State.photonicOff_photonic (s : State) : s.photonicOff.pw.photonic = false :=
  (congrArg Power.photonic (State.showOptics_still _) :)

/-- Ready, with no entry and no other transition under way: where hold warm acts at once. -/
structure State.AtRest (s : State) : Prop where
  power : s.pw.power = .ready
  entry : s.pw.entry = none
  transition : s.inTransition = false

theorem holdWarm_on {s : State} (hs : s.AtRest) (hc : s.pw.photonic = false) (hm : s.og 0x210001 ≠ 1) :
    holdWarm 1 s = .ok (s.os 0x210011 1).warmUp := by
  have hm' : (s.os 0x210011 1).warmUp.og 0x210001 ≠ 1 := by
    rwa [State.warmUp_og _ (by decide), State.og_os_of_ne _ _ (by decide)]
  refine (if_pos ⟨hs.power, hs.entry, hs.transition⟩).trans ((if_pos ⟨rfl, hc⟩).trans ?_)
  rw [State.rechoose_off hm']

theorem holdWarm_off {s : State} (hs : s.AtRest) (hc : s.pw.photonic = true) (hm : s.og 0x210001 ≠ 1) :
    holdWarm 0 s = .ok (s.os 0x210011 0).photonicOff := by
  have hm' : (s.os 0x210011 0).photonicOff.og 0x210001 ≠ 1 := by
    rwa [State.photonicOff_og _ (by decide), State.og_os_of_ne _ _ (by decide)]
  refine (if_pos ⟨hs.power, hs.entry, hs.transition⟩).trans ((if_neg fun h => Nat.zero_ne_one h.1).trans
    ((if_pos ⟨rfl, hc⟩).trans ?_))
  rw [State.rechoose_off hm']

/-- Outside Ready the object alone is set. -/
theorem holdWarm_elsewhere {s : State} (v : Nat) (hp : s.pw.power ≠ .ready) (hm : s.og 0x210001 ≠ 1) :
    holdWarm v s = .ok (s.os 0x210011 v) := by
  refine (if_neg fun h => hp h.1).trans ?_
  rw [State.rechoose_off (by rwa [State.og_os_of_ne _ _ (by decide)])]

/-- Settles O23: a measurement and a timeout change one loop of one port, a search starts its long operation, and hold warm comes
down to `warmUp`, `photonicOff` or the object alone, since Pod's choice is off. -/
theorem biasCommandsComplete : Obligations.BiasCommandsComplete := by
  unfold Obligations.BiasCommandsComplete
  have hog : ∀ {s : State} (t c : Nat), s.og 0x210001 ≠ 1 → ((s.at t).renew c).og 0x210001 ≠ 1 := fun {s} t c h => by
    rwa [State.og_renew_of_ne _ _ (by decide)]
  refine ⟨?_, ?_, ?_, ?_, ?_, ?_, ?_⟩
  · intro s t p i err set atEnd hon hlive hi hm hp
    obtain ⟨u, hu, hopt⟩ := exec_biasMeasurement err set atEnd hon hlive hi hm
    refine ⟨u, hu, ?_, fun q hq => (State.po_of_opt hopt q).trans (s.po_setPort_of_ne hq _)⟩
    rw [State.po_of_opt hopt p, State.po_setPort_self hp, PortOptics.measured_loops]
    exact modAt_congr fun x hx => by rw [List.getD_eq_getElem?_getD, hx, Option.getD_some]
  · intro s t p i hc ht hp
    refine ⟨_, exec_measurementTimeout hc ht, ?_⟩
    rw [State.showOptics_po, State.po_setPort_self (s := s.at t) hp]
    refine modAt_congr fun x hx => Loop.hold_locked ?_ _
    have hx' : (s.po p).loops[i]? = some x := hx
    rwa [List.getD_eq_getElem?_getD, hx', Option.getD_some] at hc
  · intro s t c mask hacc hm hmask
    obtain ⟨v, hnow, hwire, hv⟩ := biasSearch_starts (s := (s.at t).renew c) hmask
    refine ⟨_, exec_biasSearch hm s t c, ?_⟩
    rw [State.hostWrite_ok hacc hv, State.answer_wire, State.startLong_wire, hwire, ← State.at_now]
    exact ⟨hnow ▸ v.startLong_longOp 3 20000 mask [], rfl⟩
  · intro s t c hacc hm hp he htr hc
    have hv := holdWarm_on (s := (s.at t).renew c) ⟨hp, he, htr⟩ hc (hog t c hm)
    refine ⟨_, congrArg Host.Outcome.next (State.hostWrite_ok hacc hv), State.warmUp_photonic _, ?_⟩
    rw [State.answer_wire, (State.warmUp_same rfl (.self 32 _)).wire_eq]
    rfl
  · intro s t c hacc hm hp he htr hc
    have hv := holdWarm_off (s := (s.at t).renew c) ⟨hp, he, htr⟩ hc (hog t c hm)
    refine ⟨_, congrArg Host.Outcome.next (State.hostWrite_ok hacc hv), State.photonicOff_photonic _, ?_⟩
    rw [State.answer_wire, (State.photonicOff_same rfl (.self 32 _)).wire_eq]
    rfl
  · intro s t c hacc hm hp
    exact congrArg Host.Outcome.next (State.hostWrite_ok hacc (holdWarm_elsewhere (s := (s.at t).renew c) 1 hp (hog t c hm)))
  · intro s t c hacc hm hp
    exact congrArg Host.Outcome.next (State.hostWrite_ok hacc (holdWarm_elsewhere (s := (s.at t).renew c) 0 hp (hog t c hm)))

end Sys2Proof.Machine
end

section
/-! SUPPORT. Work items on their engines (R231 to R240): what a start, a release, a halt and an abort make of an engine and of the
slots to drop; the commands of Chestnut, the work items and the segments. -/

namespace Sys2Proof.Machine

open Sys2Proof

/-! ## Engines

The masks 8 192 and 131 072 are the bits of Chestnut and of Hazel. -/

theorem Same.ch_eq {r s : State} (h : Same 8192 r s) : s.ch = r.ch := h.parts .ch rfl

theorem Same.hz_eq {r s : State} (h : Same 131072 r s) : s.hz = r.hz := h.parts .hz rfl

theorem State.engine_of_engines {r s : State} (h : s.hz.engines = r.hz.engines) (e : Nat) : s.engine e = r.engine e :=
  congrArg (fun l : List Engine => l.getD e Engine.idle) h

theorem State.engine_setEngine_self {s : State} {e : Nat} (he : e < s.hz.engines.length) (f : Engine → Engine) :
    (s.setEngine e f).engine e = f (s.engine e) := by
  simp only [State.engine, State.setEngine, modAt, List.getD_eq_getElem?_getD, List.getElem?_modify_eq,
    List.getElem?_eq_getElem he, Option.map_eq_map, Option.map_some, Option.getD_some]

@[simp] theorem State.setEngine_engines_length (s : State) (e : Nat) (f : Engine → Engine) :
    (s.setEngine e f).hz.engines.length = s.hz.engines.length := List.length_modify f _ e

/-- A write to data memory leaves the engines and the slots to drop (R218). -/
theorem State.hzWrite_engines (s : State) (e : Nat) (user : Bool) (a : Nat) (b : List Byte) :
    (s.hzWrite e user a b).hz.engines = s.hz.engines ∧ (s.hzWrite e user a b).hz.dropSlots = s.hz.dropSlots := by
  refine List.foldlRecOn (motive := fun v : State => v.hz.engines = s.hz.engines ∧ v.hz.dropSlots = s.hz.dropSlots) _ _
    ⟨rfl, rfl⟩ fun v hv x _ => ?_
  show (v.hzPutByte e user (a + x.2) x.1).hz.engines = _ ∧ (v.hzPutByte e user (a + x.2) x.1).hz.dropSlots = _
  unfold State.hzPutByte
  split <;> exact hv

/-! ## The start of an item (R231, R232) -/

/-- An engine on which an item starts. -/
def Engine.starts (g : Engine) (it : Item) : Engine :=
  let g := g.setCtx it.user ((g.ctx it.user).start it.user it.bundle)
  if it.user then { g with userItem := some it } else { g with item := some it }

theorem Engine.starts_item {it : Item} (h : it.user = false) (g : Engine) : (g.starts it).item = some it := by
  simp only [Engine.starts, h, Bool.false_eq_true, if_false]

theorem Engine.starts_userItem {it : Item} (h : it.user = true) (g : Engine) : (g.starts it).userItem = some it := by
  simp only [Engine.starts, h, if_true]

theorem State.engine_startItem {s : State} {e : Nat} (he : e < s.hz.engines.length) (it : Item) :
    (s.startItem e it).engine e = (s.engine e).starts it := by
  obtain ⟨heng, -⟩ := s.hzWrite_engines e it.user 0xFFC0 it.params
  refine (State.engine_setEngine_self (by rwa [heng]) (Engine.starts · it)).trans ?_
  rw [State.engine_of_engines heng]

theorem State.startItem_dropSlots (s : State) (e : Nat) (it : Item) : (s.startItem e it).hz.dropSlots = s.hz.dropSlots :=
  (s.hzWrite_engines e it.user 0xFFC0 it.params).2

/-- The next item is one of the list. -/
theorem nextItem_mem {l : List Item} {it : Item} (h : nextItem l = some it) : it ∈ l := by
  refine List.foldlRecOn (motive := fun best : Option Item => ∀ i, best = some i → i ∈ l) l _
    (fun i hi => absurd hi (Option.some_ne_none i).symm) ?_ it h
  intro best hb x hx i hi
  split at hi
  · exact Option.some.inj hi ▸ hx
  · split at hi
    · exact Option.some.inj hi ▸ hx
    · exact hb i hi

/-! ## The release of a library item (R230 to R233) -/

/-- On an engine that has not halted a library item starts where no other runs, and waits as the last otherwise. -/
theorem State.releaseItem_library {s : State} {e : Nat} {it : Item} (hu : it.user = false) (he : e < s.hz.engines.length)
    (hh : (s.engine e).halted = false) :
    let g := (s.releaseItem e it).engine e
    if (s.engine e).item = none then g.item = some it
    else g.item = (s.engine e).item ∧ g.released = (s.engine e).released ++ [it] := by
  unfold State.releaseItem
  simp only [hu, hh, Bool.or_false, Bool.false_eq_true, if_false]
  cases hi : (s.engine e).item with
  | none =>
    simp only [Option.isSome_none, Bool.false_eq_true, if_false, if_true]
    rw [State.engine_startItem he, Engine.starts_item hu]
  | some j =>
    simp only [Option.isSome_some, if_true, reduceCtorEq, if_false]
    rw [State.engine_setEngine_self he]
    exact ⟨hi, rfl⟩

/-- A library item whose event has occurred is released to the engine that its entry names. -/
theorem State.releaseLibrary_releases {s : State} {f : Flight} {k slot instant : Nat} (invalid : List Nat)
    (hk : k < f.plan.schedCount f.sched) (hh : (s.engine (f.plan.entry f.sched k 0 1)).halted = false)
    (hx : f.plan.entry f.sched k 1 1 = 0 → f.plan.entry f.sched k 2 1 < 4 →
      (s.elementsOf (f.plan.entry f.sched k 2 1) f.ord slot).isSome = true)
    (hr : s.reference f (f.plan.entry f.sched k 1 1) slot = some instant) :
    ∃ it : Item, it.user = false ∧ it.entry = k ∧ it.sweep = f.index ∧ it.due = instant + f.plan.entry f.sched k 0x10 4 ∧
      s.releaseLibrary f k slot .none invalid = s.releaseItem (f.plan.entry f.sched k 0 1) it := by
  have hrun : ¬ (f.plan.schedCount f.sched ≤ k ∨ (s.engine (f.plan.entry f.sched k 0 1)).halted = true) :=
    not_or.2 ⟨Nat.not_le.2 hk, Bool.eq_false_iff.1 hh⟩
  have hdata : ¬ (f.plan.entry f.sched k 1 1 = 0 ∧ f.plan.entry f.sched k 2 1 < 4 ∧
      (s.elementsOf (f.plan.entry f.sched k 2 1) f.ord slot).isNone = true) := by
    rintro ⟨h0, h4, hn⟩
    rw [Option.isNone_iff_eq_none.1 hn] at hx
    exact Bool.false_ne_true (hx h0 h4)
  unfold State.releaseLibrary
  dsimp only
  rw [if_neg hrun, if_neg hdata, hr]
  exact ⟨_, rfl, rfl, rfl, rfl, rfl⟩

theorem State.flight_index {s : State} {n : Nat} {f : Flight} (h : s.flight n = some f) : f.index = n :=
  of_decide_eq_true (List.find?_some h :)

theorem exec_workItemRelease_library {s : State} {n : Nat} {f : Flight} (h : s.flight n = some f) (t k slot : Nat) (ecc : EccError)
    (invalid : List Nat) :
    exec (.workItemRelease t false k n slot ecc invalid) s = .next ((s.at t).releaseLibrary f k slot ecc invalid) := by
  have hf : (s.at t).flight n = some f := h
  show execWorkItemRelease t false k n slot ecc invalid s = _
  unfold execWorkItemRelease
  dsimp only
  rw [hf]
  rfl

/-! ## A halt (R234) -/

/-- An engine that has halted keeps its user items alone. -/
def Engine.halts (g : Engine) (cause kernel : Nat) : Engine :=
  { g with
    halted := true, mid := false, report := some (cause, kernel), item := none, released := g.released.filter fun it => it.user }

theorem State.engine_halt {s : State} {e : Nat} (he : e < s.hz.engines.length) (cause kernel : Nat) :
    (s.halt e cause kernel).engine e = (s.engine e).halts cause kernel := by
  unfold State.halt
  extract_lets g s1
  have h1 : s1.hz = s.hz := Same.hz_eq (.foldl (fun _ it h => State.loseItem_same rfl h it) _ (.self 131072 s))
  have he1 : e < s1.hz.engines.length := by rwa [h1]
  rw [State.engine_setEngine_self he1, State.engine_of_engines (congrArg Hazel.engines h1)]
  rfl

theorem exec_checkpointInstant {s : State} {t e k : Nat} {i : Item} (hh : (s.engine e).halted = false)
    (hi : nextItem (((s.engine e).item.toList ++ (s.engine e).released).filter fun i =>
      !i.user && decide (i.entry = k) && decide (i.due ≤ max s.now t)) = some i) :
    exec (.checkpointInstant t e k) s = .next ((s.at t).halt e 1 i.kernel) := by
  have hg : (s.at t).engine e = s.engine e := rfl
  show execCheckpointInstant t e k s = _
  unfold execCheckpointInstant
  dsimp only
  rw [hg, State.at_now, if_neg (Bool.eq_false_iff.1 hh), hi]

/-! ## A user item is aborted (R240) -/

theorem State.leaveUser_dropSlots (s : State) (e : Nat) : (s.leaveUser e).hz.dropSlots = s.hz.dropSlots := by
  unfold State.leaveUser
  dsimp only
  split
  · rfl
  · split
    · rfl
    · exact State.startItem_dropSlots _ _ _

/-- The next released user item takes the place of the one that is over, unless the engine has halted. -/
theorem State.leaveUser_userItem {s : State} {e : Nat} (he : e < s.hz.engines.length) :
    ((s.leaveUser e).engine e).userItem =
      if (s.engine e).halted then none else nextItem ((s.engine e).released.filter fun i => i.user) := by
  have hg := State.engine_setEngine_self he fun g => { g with userItem := none, mid := false }
  unfold State.leaveUser
  dsimp only
  rw [hg]
  split
  · exact congrArg Engine.userItem hg
  · cases hn : nextItem ((s.engine e).released.filter fun i => i.user) with
    | none => exact congrArg Engine.userItem hg
    | some it =>
      have hu : it.user = true := (List.mem_filter.1 (nextItem_mem hn)).2
      dsimp only
      rw [State.engine_startItem (by simpa using he), Engine.starts_userItem hu]

/-- A user item is off its engine: it no longer runs, or is no longer released. -/
def State.dropUser (s : State) (e : Nat) (it : Item) : State :=
  if (s.engine e).userItem = some it then s.leaveUser e
  else s.setEngine e fun g => { g with released := g.released.erase it }

theorem State.dropUser_dropSlots (s : State) (e : Nat) (it : Item) : (s.dropUser e it).hz.dropSlots = s.hz.dropSlots := by
  unfold State.dropUser
  split
  · exact s.leaveUser_dropSlots e
  · rfl

/-- The fault bit of an open slot is set, and its enable drops at the next boundary. -/
def State.noteDrop (s : State) (slot : Nat) : State :=
  { s.osBit 0x410013 slot true with hz := { s.hz with dropSlots := s.hz.dropSlots ++ [slot] } }

/-- An abort takes the item off its engine and adds its slot to those to drop. -/
theorem State.abortUser_engines (s : State) (e : Nat) (it : Item) (cause : Nat) :
    (s.abortUser e it cause).hz.engines = (s.dropUser e it).hz.engines ∧
      (s.abortUser e it cause).hz.dropSlots = s.hz.dropSlots ++ [it.entry] := by
  have hz : (s.abortUser e it cause).hz = ((s.dropUser e it).noteDrop it.entry).hz := by
    unfold State.abortUser
    dsimp only
    exact Same.hz_eq (State.event_same rfl (.ite (State.count_same rfl (.self 131072 _) _ _)
      (State.countAt_same rfl (.self 131072 _) _ _ _)) _ _ _)
  rw [hz, ← s.dropUser_dropSlots e it]
  exact ⟨rfl, rfl⟩

theorem State.abortUser_dropSlots (s : State) (e : Nat) (it : Item) (cause : Nat) :
    (s.abortUser e it cause).hz.dropSlots = s.hz.dropSlots ++ [it.entry] := (s.abortUser_engines e it cause).2

theorem State.engine_abortUser (s : State) (e : Nat) (it : Item) (cause : Nat) :
    (s.abortUser e it cause).engine e = (s.dropUser e it).engine e :=
  State.engine_of_engines (s.abortUser_engines e it cause).1 e

/-- The abort of the user item that runs starts the next one. -/
theorem State.abortUser_running {s : State} {e : Nat} {it : Item} (he : e < s.hz.engines.length)
    (hr : (s.engine e).userItem = some it) (cause : Nat) :
    ((s.abortUser e it cause).engine e).userItem =
      if (s.engine e).halted then none else nextItem ((s.engine e).released.filter fun i => i.user) := by
  rw [State.engine_abortUser, State.dropUser, if_pos hr, State.leaveUser_userItem he]

/-- The abort of a released user item leaves the one that runs. -/
theorem State.abortUser_released {s : State} {e : Nat} {it : Item} (he : e < s.hz.engines.length)
    (hr : (s.engine e).userItem ≠ some it) (cause : Nat) :
    (s.abortUser e it cause).engine e = { s.engine e with released := (s.engine e).released.erase it } := by
  rw [State.engine_abortUser, State.dropUser, if_neg hr, State.engine_setEngine_self he]

theorem exec_budgetExhausted {s : State} {e : Nat} {it : Item} (t : Nat) (hr : (s.engine e).userItem = some it) :
    exec (.budgetExhausted t e) s = .next ((s.at t).abortUser e it 6) := by
  have hr' : ((s.at t).engine e).userItem = some it := hr
  show Host.Outcome.next ((s.at t).userFault e 6) = _
  unfold State.userFault
  rw [hr']

theorem exec_userItemCheckpoint {s : State} {t e : Nat} {it : Item}
    (hi : nextItem (((s.engine e).userItem.toList ++ (s.engine e).released.filter fun i => i.user).filter fun i =>
      decide (i.due ≤ max s.now t)) = some it) :
    exec (.userItemCheckpoint t e) s = .next ((s.at t).abortUser e it 7) := by
  have hg : (s.at t).engine e = s.engine e := rfl
  show execUserItemCheckpoint t e s = _
  unfold execUserItemCheckpoint
  dsimp only
  rw [hg, State.at_now, hi]

/-! ## Chestnut's output (R118, R128 to R142) -/

/-- The samples of a firing's containers, from sample -N_c of its slot on (R125, R128). -/
def State.firingSamples (s : State) (f : Flight) (p slot : Nat) (conts : List Quad) : List Samples :=
  let e0 : Int := f.start + slot * f.plan.tick
  conts.zipIdx.map fun (q, i) => s.samplesAt p q (e0 + 2 * ((i : Int) - f.plan.nc))

section
variable {s : State} {p n slot : Nat} {f : Flight} (hf : s.flight n = some f) (hp : s.portOn p = true)
  (hu : f.plan.uses p = true) (hs : slot < f.fired)
include hf hp hu hs

/-- A code firing adds its elements (R128 to R140, R151). -/
theorem exec_chestnutOutput_code (t : Nat) (conts : List Quad) (hk : f.kinds.getD slot 0 = 0) :
    ∃ u, exec (.chestnutOutput t p n slot conts) s = .next u ∧
      u.ch.outs = s.ch.outs ++ [(chestnut f p slot (s.firingSamples f p slot conts)).1] := by
  have hf' : (s.at t).flight n = some f := hf
  have hon : (s.at t).portOn p = true ∧ f.plan.uses p = true ∧ slot < f.fired := ⟨hp, hu, hs⟩
  show ∃ u, execChestnutOutput t p n slot conts s = .next u ∧ _
  unfold execChestnutOutput
  dsimp only
  rw [hf']
  dsimp only
  rw [if_pos hon, if_pos hk]
  refine ⟨_, rfl, congrArg (fun c : Chestnut => c.outs ++ [_]) (Same.ch_eq (r := s.at t) ?_)⟩
  exact State.countAt_same rfl (State.countAt_same rfl (State.bump_same rfl (.self 8192 _) _ _) _ _ _) _ _ _

/-- A DTS firing's over-range samples count (R118, R142). -/
theorem exec_chestnutOutput_dts (t : Nat) (conts : List Quad) (hk : f.kinds.getD slot 0 ≠ 0) :
    let ovr := (((s.firingSamples f p slot conts).drop f.plan.nc).take f.plan.nw).countP Samples.ovr
    exec (.chestnutOutput t p n slot conts) s = .next (((s.at t).bump (pk 0x2C0004 p) ovr).countAt n p ovr) := by
  have hf' : (s.at t).flight n = some f := hf
  have hon : (s.at t).portOn p = true ∧ f.plan.uses p = true ∧ slot < f.fired := ⟨hp, hu, hs⟩
  show execChestnutOutput t p n slot conts s = _
  unfold execChestnutOutput
  dsimp only
  rw [hf']
  dsimp only
  rw [if_pos hon, if_neg hk]
  rfl

end

/-! ## Segments (R164, R165) -/

theorem State.tickOf_eq {s : State} {p n slot : Nat} {f : Flight} {w : TickWork} (hf : s.flight n = some f)
    (hw : s.tick? p f.ord slot = some w) : s.tickOf p n slot = some (f, w) := by
  unfold State.tickOf
  rw [hf, Option.bind_some, hw, Option.map_some]

/-- A literal record is offered as it is (R299, R312). -/
theorem State.offerStream_literal {e : Stream} (h : e.coding = 0) (s : State) (pl : Plan) (first sweep stamp width : Nat)
    (head : List Byte) (rows : List (List Int)) (flags : List Byte) (gen : Nat) :
    let body := head ++ literal width rows ++ flags
    s.offerStream pl e first sweep stamp width head rows flags gen =
      (s.offer e.queue { typ := e.typ, sweep := sweep, stamp := stamp, olen := body.length, payload := body }).2 :=
  if_neg fun h1 => Nat.zero_ne_one (h.symm.trans h1)

theorem exec_segmentEmit_literal {s : State} {t p n slot first : Nat} {f : Flight} {w : TickWork} {e : Stream}
    (hf : s.flight n = some f) (hw : s.tick? p f.ord slot = some w) (he : f.plan.streamOf 1 p first = some e)
    (hfirst : (first - e.first) % max 1 (f.plan.segLen p) = 0)
    (hall : (segRange f.plan e p first).all ((s.at t).settled f w) = true) (hc : e.coding = 0) :
    let outs := (segRange f.plan e p first).map ((s.at t).outValue f w)
    let lost := outs.any fun v => bit v.2 6
    let body := dasHead f p slot first outs ((s.at t).dasFlags f w lost) ++ literal (f.plan.width p) [outs.map (·.1)] ++
      (if f.plan.flagMode p = 0 then padTo 4 (outs.map fun v => byte v.2) else [])
    exec (.segmentEmit t p n slot first) s = .next ((if lost = true then (s.at t).cause 0 else s.at t).offer e.queue
      { typ := e.typ, sweep := n, stamp := f.stamp, olen := body.length, payload := body }).2 := by
  have htick : (s.at t).tickOf p n slot = some (f, w) := State.tickOf_eq (s := s.at t) hf hw
  have hready : ¬ ((first - e.first) % max 1 (f.plan.segLen p) ≠ 0 ∨
      (segRange f.plan e p first).all ((s.at t).settled f w) = false) :=
    not_or.2 ⟨not_not_intro hfirst, ne_false_of_eq_true hall⟩
  show execSegmentEmit t p n slot first s = _
  unfold execSegmentEmit
  dsimp only
  rw [htick]
  dsimp only
  rw [he]
  dsimp only
  rw [if_neg hready, State.offerStream_literal hc]

/-- Settles O24: an item's release, its engine's halt and its abort change the engine as `starts`, `halts` and `dropUser` say, a
firing's output comes to Chestnut's list or counters, and a literal segment is one offer. -/
theorem workCommandsComplete : Obligations.WorkCommandsComplete := by
  unfold Obligations.WorkCommandsComplete
  refine ⟨?_, ?_, ?_, ?_, ?_, ?_⟩
  · intro s t p n slot conts f hf hp hu hs
    dsimp only
    split
    · next hk => exact exec_chestnutOutput_code hf hp hu hs t conts hk
    · next hk => exact exec_chestnutOutput_dts hf hp hu hs t conts hk
  · intro s t k n slot invalid f instant hf hk en e he hh hx hr
    obtain ⟨it, huser, hentry, hsweep, hdue, hrel⟩ :=
      State.releaseLibrary_releases (s := s.at t) (f := f) (slot := slot) invalid hk hh hx hr
    refine ⟨_, it, exec_workItemRelease_library hf t k slot .none invalid, huser, hentry,
      hsweep.trans (State.flight_index hf), hdue, ?_⟩
    rw [hrel]
    exact State.releaseItem_library (s := s.at t) huser he hh
  · intro s t e k i hh he hi
    have hg : ((s.at t).halt e 1 i.kernel).engine e = (s.engine e).halts 1 i.kernel := State.engine_halt (s := s.at t) he 1 i.kernel
    refine ⟨_, exec_checkpointInstant hh hi, ?_⟩
    rw [hg]
    exact ⟨rfl, rfl, rfl, rfl⟩
  · intro s t e it hr he
    exact ⟨_, exec_budgetExhausted t hr, (s.at t).abortUser_dropSlots e it 6, State.abortUser_running (s := s.at t) he hr 6⟩
  · intro s t e it he hi
    refine ⟨_, exec_userItemCheckpoint hi, (s.at t).abortUser_dropSlots e it 7, ?_⟩
    split
    · next hr => exact State.abortUser_running (s := s.at t) he hr 7
    · next hr =>
      have hg : ((s.at t).abortUser e it 7).engine e = { s.engine e with released := (s.engine e).released.erase it } :=
        State.abortUser_released (s := s.at t) he hr 7
      rw [hg]
      exact ⟨rfl, rfl⟩
  · intro s t p n slot first f w e hf hw he hfirst hall hc
    exact exec_segmentEmit_literal hf hw he hfirst hall hc

end Sys2Proof.Machine
end

section
/-! SUPPORT. Raw bursts (R144 to R147) and user programs (R236): the burst of a kind after the operations of chapter 6, and what a
request, an abandonment, the end of a capture and a readout make of Chestnut and of the queue. -/

namespace Sys2Proof.Machine

open Sys2Proof

/-! ## The outstanding burst of a kind -/

@[simp] theorem State.burst_setBurst_self (s : State) (src2 : Bool) (b : Option Burst) : (s.setBurst src2 b).burst src2 = b := by
  cases src2 <;> rfl

@[simp] theorem State.burst_setBurst_not (s : State) (src2 : Bool) (b : Option Burst) :
    (s.setBurst src2 b).burst (!src2) = s.burst (!src2) := by
  cases src2 <;> rfl

/-! ## BURST_REQUEST (R144) -/

/-- What a burst request under a plan in force asks of the configuration and of the device (R143, R144, Table 6-8). -/
structure State.TakesBurst (s : State) (pl : Plan) : Prop where
  power : s.pw.power = .sensing
  plan : s.lad.inForce = some pl
  ports : s.og 0x403001 &&& s.portMask = s.og 0x403001
  window : s.og 0x403006 + s.og 0x403007 ≤ 392000
  onePort : decide (s.og 0x403002 = 2) = true → popPorts (s.og 0x403001) = 1
  free : s.burst (decide (s.og 0x403002 = 2)) = none
  start : s.og 0x403003 = 0 ∨ s.nextSweep2us ≤ s.og 0x403003
  demand : decide (s.og 0x403002 = 2) = false →
    burstBytes pl.period (s.og 0x403004) (s.og 0x403002) (s.og 0x403001) ≤ s.og 0x40300A * 2 ^ 20 ∧
      burstRate (s.og 0x403002) * popPorts (s.og 0x403001) ≤ pl.rawDemand

/-- The burst of the configuration is outstanding, and its kind shows it as requested. -/
def State.requestBurst (s : State) : State :=
  let src2 := decide (s.og 0x403002 = 2)
  let start := if s.og 0x403003 = 0 then s.nextSweep2us else s.og 0x403003
  ((s.os (burstKey src2) 1).os (burstCount src2) 0).setBurst src2 (some (s.burstSetup start (s.regionBase .burst)))

theorem State.TakesBurst.request {s : State} {pl : Plan} (h : s.TakesBurst pl) : burstRequest s = .ok s.requestBurst := by
  obtain ⟨hpower, hplan, hports, hwindow, hone, hfree, hstart, hdemand⟩ := h
  have hconfig : (decide (s.og 0x403001 &&& s.portMask = s.og 0x403001) &&
      (!decide (s.og 0x403002 = 2) || decide (popPorts (s.og 0x403001) = 1)) &&
      decide (s.og 0x403006 + s.og 0x403007 ≤ 392000)) = true := by
    simp only [Bool.and_eq_true, decide_eq_true_eq, hports, hwindow, and_true, true_and]
    cases hsrc : decide (s.og 0x403002 = 2) with
    | false => rfl
    | true => exact decide_eq_true (hone hsrc)
  have hroom : ((s.burst (decide (s.og 0x403002 = 2))).isNone &&
      (decide (s.og 0x403003 = 0) || decide (s.nextSweep2us ≤ s.og 0x403003)) &&
      (decide (s.og 0x403002 = 2) ||
        (decide (burstBytes pl.period (s.og 0x403004) (s.og 0x403002) (s.og 0x403001) ≤ s.og 0x40300A * 2 ^ 20) &&
          decide (burstRate (s.og 0x403002) * popPorts (s.og 0x403001) ≤ pl.rawDemand)))) = true := by
    simp only [Bool.and_eq_true, Bool.or_eq_true (decide (s.og 0x403003 = 0)), decide_eq_true_eq, hfree, hstart,
      Option.isNone_none, true_and]
    cases hsrc : decide (s.og 0x403002 = 2) with
    | true => rfl
    | false =>
      obtain ⟨hbytes, hrate⟩ := hdemand hsrc
      simp only [Bool.false_or, Bool.and_eq_true, decide_eq_true_eq]
      exact ⟨hbytes, hrate⟩
  unfold burstRequest
  rw [require_pass hconfig, hpower, hplan]
  exact require_pass hroom

theorem exec_burstRequest {s : State} {t c : Nat} {pl : Plan} (h : (s.at t).Accepts c 0x4030 8 false (le 1 1))
    (hb : ((s.at t).renew c).TakesBurst pl) :
    exec (.burstRequest t c) s = .next (((s.at t).renew c).requestBurst.answer c .done) :=
  congrArg Host.Outcome.next (State.hostWrite_ok h hb.request)

/-! ## BURST_ABANDON (R144) -/

/-- What is left of a burst abandoned before its head left (assumption log 85). -/
def Burst.quit (b : Burst) : Burst := { b with abandoned := true, data := [], captured := 0 }

/-- Bursts of a list that leave their heads when they are abandoned. -/
def unsentHeads (l : List Burst) : List Burst := (l.filter fun b => !b.headSent).map Burst.quit

theorem unsentHeads_append (l m : List Burst) : unsentHeads (l ++ m) = unsentHeads l ++ unsentHeads m := by
  unfold unsentHeads
  rw [List.filter_append, List.map_append]

/-- An abandonment empties the place of its kind and leaves the head of a burst that has sent none. -/
theorem State.abandon_ch (s : State) (src2 : Bool) :
    (s.abandon src2).ch = { (s.setBurst src2 none).ch with gone := s.ch.gone ++ unsentHeads (s.burst src2).toList } := by
  unfold State.abandon
  cases hb : s.burst src2 with
  | none =>
    have hnone : (s.setBurst src2 none).ch = s.ch := by
      rw [← hb]
      cases src2 <;> rfl
    rw [hnone]
    exact congrArg (fun g => ({ s.ch with gone := g } : Chestnut)) (List.append_nil _).symm
  | some b =>
    dsimp only
    cases hh : b.headSent <;> cases src2 <;> simp [hh, unsentHeads, State.setBurst, Burst.quit]

theorem State.abandon_source01_ch (s : State) :
    (s.abandon false).ch = { s.ch with burst01 := none, gone := s.ch.gone ++ unsentHeads s.ch.burst01.toList } :=
  s.abandon_ch false

theorem State.abandon_source2_ch (s : State) :
    (s.abandon true).ch = { s.ch with burst2 := none, gone := s.ch.gone ++ unsentHeads s.ch.burst2.toList } :=
  s.abandon_ch true

/-- Both kinds are abandoned, and none stands in line any more. -/
theorem burstAbandon_empties (s : State) : ∃ u, burstAbandon s = .ok u ∧ u.ch =
    { s.ch with burst01 := none, burst2 := none, order := [],
                gone := s.ch.gone ++ unsentHeads (s.ch.burst01.toList ++ s.ch.burst2.toList) } := by
  refine ⟨_, rfl, ?_⟩
  rw [State.abandon_source2_ch, State.abandon_source01_ch, unsentHeads_append, ← List.append_assoc]

/-! ## BURST_CAPTURE_END (R145, R146) -/

/-- The end of a source 0 or 1 capture puts its burst in line as the last. -/
theorem State.captureEnds_source01 (s : State) (b : Burst) :
    (s.captureEnds false b).ch =
      { s.ch with burst01 := some { b with endedAt := s.now }, order := s.ch.order ++ [false] } := rfl

theorem State.captureEnds_source2 (s : State) (b : Burst) :
    (s.captureEnds true b).ch.burst2 = some { b with endedAt := s.now } := rfl

/-- The end of a source 2 capture puts its burst in line as the first, where it ties, or as the last. -/
theorem State.captureEnds_order (s : State) (b : Burst) :
    (s.captureEnds true b).ch.order = true :: s.ch.order ∨ (s.captureEnds true b).ch.order = s.ch.order ++ [true] := by
  unfold State.captureEnds
  exact iteInduction (motive := fun o => o = true :: s.ch.order ∨ o = s.ch.order ++ [true]) (fun _ => .inl rfl) fun _ => .inr rfl

theorem State.dramWrite_ch (s : State) (a : Nat) (b : List Byte) : (s.dramWrite a b).ch = s.ch :=
  (State.dramWrite_same rfl (.self 8192 s) a b).ch_eq

theorem State.endCapture01_ch (s : State) (b : Burst) (n : Nat) (data : List (List Quad)) :
    (s.endCapture01 b n data).ch =
      { s.ch with
        burst01 := some { b with captured := n, truncated := decide (n < 8 * b.planP * b.sweeps), endedAt := s.now }
        order := s.ch.order ++ [false] } := by
  unfold State.endCapture01
  rw [State.captureEnds_source01, State.dramWrite_ch]
  rfl

theorem exec_burstCaptureEnd_source01 {s : State} {t n : Nat} {trunc : Bool} {data : List (List Quad)} {b : Burst}
    (hb : s.ch.burst01 = some b) (hs : s.og 0x403009 = 2) :
    let now := max s.now t
    let seen := min (s.burstTotal b) ((min now (b.stop.getD now) - b.begins + 1) / 2)
    let stalled := trunc || b.truncated
    let k := if stalled = true then min n seen else seen
    stalled = true ∨ b.stop.isSome = true ∨ seen = s.burstTotal b → k ≤ data.length →
      exec (.burstCaptureEnd t false trunc data n) s = .next ((s.at t).endCapture01 b k data) := by
  rw [← State.at_now]
  intro now seen stalled k hover hdata
  have hb' : (s.at t).burst false = some b := hb
  have hs' : ¬ (s.at t).og (burstKey false) ≠ 2 := not_not_intro hs
  show execBurstCaptureEnd t false trunc data n s = _
  unfold execBurstCaptureEnd
  dsimp only
  rw [hb']
  dsimp only
  rw [if_neg hs', if_neg Bool.false_ne_true]
  exact if_pos ⟨hover, hdata⟩

theorem exec_burstCaptureEnd_source2 {s : State} {b : Burst} (hb : s.ch.burst2 = some b) (hs : s.og 0x40300C = 2)
    (hover : b.got = true ∨ b.noFiring = true) (t n : Nat) (trunc : Bool) (data : List (List Quad)) :
    exec (.burstCaptureEnd t true trunc data n) s = .next ((s.at t).captureEnds true b) := by
  have hb' : (s.at t).burst true = some b := hb
  have hs' : ¬ (s.at t).og (burstKey true) ≠ 2 := not_not_intro hs
  show execBurstCaptureEnd t true trunc data n s = _
  unfold execBurstCaptureEnd
  dsimp only
  rw [hb']
  dsimp only
  rw [if_neg hs', if_pos rfl, if_pos hover]

/-! ## BURST_READOUT (R146, R147) -/

/-- A live queue with room takes what it is offered (R291, R292). -/
theorem State.offer_accepted {s : State} {q : Nat} {o : Offer} (hl : s.queuesLive = true) (hf : s.fits q o.payload.length = true) :
    (s.offer q o).2 = s.accept q o := by
  unfold State.offer
  rw [if_neg (ne_false_of_eq_true hl), if_pos hf]

theorem State.burstRecord_accepted {s : State} {q : Nat} {b : Burst} {payload : List Byte} (hl : s.queuesLive = true)
    (hf : s.fits q payload.length = true) :
    s.burstRecord q b payload = s.accept q
      { typ := if b.headSent = true then 6 else 5, sweep := b.start, stamp := b.stamp, olen := payload.length, payload := payload } :=
  State.offer_accepted hl hf

/-- Making up a payload, which may take a free value (R356), leaves the queues, the power state and Chestnut. -/
theorem State.burstPayload_parts (s : State) (b : Burst) :
    (s.burstPayload b).2.qu = s.qu ∧ (s.burstPayload b).2.pw.still = s.pw.still ∧ (s.burstPayload b).2.ch = s.ch := by
  have h : Same (2097152 + 8192 + 128) s (s.burstPayload b).2 := State.burstPayload_same rfl (.self _ s) b
  exact ⟨h.parts .qu rfl, h.parts .pw rfl, h.parts .ch rfl⟩

theorem State.burstPayload_fits (s : State) (b : Burst) (q n : Nat) : (s.burstPayload b).2.fits q n = s.fits q n := by
  obtain ⟨hqu, -, -⟩ := s.burstPayload_parts b
  unfold State.fits State.queue
  rw [hqu]

theorem State.burstPayload_queuesLive (s : State) (b : Burst) : (s.burstPayload b).2.queuesLive = s.queuesLive := by
  obtain ⟨-, hpw, -⟩ := s.burstPayload_parts b
  have hpower : (s.burstPayload b).2.pw.power = s.pw.power := (congrArg Power.power hpw :)
  unfold State.queuesLive
  rw [hpower]

/-- The readout of a burst is over: its kind is free and the next in line stands first. -/
theorem State.endReadout_over (s : State) (src2 : Bool) (b : Burst) :
    (s.endReadout src2 b).burst src2 = none ∧ (s.endReadout src2 b).ch.order = s.ch.order.drop 1 ∧
      (s.endReadout src2 b).qu = s.qu := by
  cases src2 <;> exact ⟨rfl, rfl, rfl⟩

/-- A burst of which one more data record has left. -/
def Burst.advance (b : Burst) : Burst := { b with sent := min b.size (b.sent + 65536), headSent := true, bad := false }

/-- What the record just accepted makes of its burst: more is to be sent, or its readout is over. -/
def State.readOn (s : State) (src2 : Bool) (b : Burst) : State :=
  if b.size ≤ b.sent then s.endReadout src2 b else s.setBurst src2 (some b)

theorem State.readOn_more {s : State} {src2 : Bool} {b : Burst} (h : b.sent + 65536 < b.size) :
    s.readOn src2 b.advance =
      s.setBurst src2 (some { b with sent := b.sent + 65536, headSent := true, bad := false }) := by
  have hsent : min b.size (b.sent + 65536) = b.sent + 65536 := Nat.min_eq_right (Nat.le_of_lt h)
  unfold State.readOn Burst.advance
  rw [hsent]
  exact if_neg (Nat.not_le.2 h)

theorem State.readOn_last {s : State} {src2 : Bool} {b : Burst} (h : b.size ≤ b.sent + 65536) :
    s.readOn src2 b.advance = s.endReadout src2 b.advance := by
  have hsent : b.size ≤ min b.size (b.sent + 65536) := Nat.le_min.2 ⟨Nat.le_refl _, h⟩
  exact if_pos hsent

/-- The first burst in line offers its next record where the queue has room. -/
theorem exec_burstReadout_next {s : State} {src2 : Bool} {b : Burst} {l : List Bool} {q : Nat} (t : Nat) (hg : s.ch.gone = [])
    (ho : s.ch.order = src2 :: l) (hb : s.burst src2 = some b)
    (hq : (s.activePlan.bind fun pl => pl.queueOf 5 0) = some q) (hl : s.queuesLive = true)
    (hf : s.fits q ((s.at t).burstPayload b).1.length = true) :
    let r := (s.at t).burstPayload b
    exec (.burstReadout t) s = .next ((r.2.accept q
      { typ := if b.headSent = true then 6 else 5, sweep := b.start, stamp := b.stamp, olen := r.1.length, payload := r.1 }).readOn
        src2 b.advance) := by
  intro r
  have hg' : (s.at t).ch.gone = [] := hg
  have ho' : (s.at t).ch.order = src2 :: l := ho
  have hb' : (s.at t).burst src2 = some b := hb
  have hq' : ((s.at t).activePlan.bind fun pl => pl.queueOf 5 0) = some q := hq
  have hroom : ((s.at t).queuesLive && (s.at t).fits q r.1.length) = true := Bool.and_eq_true_iff.2 ⟨hl, hf⟩
  have hlr : r.2.queuesLive = true := ((s.at t).burstPayload_queuesLive b).trans hl
  have hfr : r.2.fits q r.1.length = true := ((s.at t).burstPayload_fits b q _).trans hf
  show execBurstReadout t s = _
  unfold execBurstReadout
  dsimp only
  rw [hg', ho']
  dsimp only
  rw [hb', hq']
  dsimp only
  rw [if_pos hroom, State.burstRecord_accepted hlr hfr]
  rfl

/-- The head of the first abandoned burst leaves where the queue has room. -/
theorem exec_burstReadout_gone {s : State} {b : Burst} {l : List Burst} {q : Nat} (t : Nat) (hg : s.ch.gone = b :: l)
    (hq : (s.activePlan.bind fun pl => pl.queueOf 5 0) = some q) (hl : s.queuesLive = true)
    (hf : s.fits q b.head.length = true) :
    exec (.burstReadout t) s = .next
      { (s.at t).burstRecord q b b.head with ch := { ((s.at t).burstRecord q b b.head).ch with gone := l } } := by
  have hg' : (s.at t).ch.gone = b :: l := hg
  have hq' : ((s.at t).activePlan.bind fun pl => pl.queueOf 5 0) = some q := hq
  have hroom : ((s.at t).queuesLive && (s.at t).fits q b.head.length) = true := Bool.and_eq_true_iff.2 ⟨hl, hf⟩
  show execBurstReadout t s = _
  unfold execBurstReadout
  dsimp only
  rw [hg', hq']
  exact if_pos hroom

/-! ## USER_PROGRAM (R236) -/

/-- The named engine takes a program while it runs and no open slot uses it. -/
theorem userProgram_loads {s : State} {data : List Byte} (hh : (s.engine (s.og 0x410010)).halted = false)
    (hu : s.slotsUse (s.og 0x410010) = false) :
    userProgram data s = .ok
      { s with hz := { s.hz with prog := memWrite s.hz.prog (s.og 0x410010 * 0x4000 + 8 * 1536) data } } := by
  have hfree : (!(s.engine (s.og 0x410010)).halted && !s.slotsUse (s.og 0x410010)) = true := by rw [hh, hu]; rfl
  exact require_pass hfree

/-- Settles O33: a request and an abandonment are host writes with the effects `requestBurst` and `burstAbandon_empties`, a capture
ends in `captureEnds`, and each readout accepts one record and then goes on or is over. -/
theorem burstCommandsComplete : Obligations.BurstCommandsComplete := by
  unfold Obligations.BurstCommandsComplete
  refine ⟨?_, ?_, ?_, ?_, ?_, ?_, ?_⟩
  · intro s t c pl hacc hpower hplan w src2 want hports hwindow hone hfree hstart hdemand
    have hb : w.TakesBurst pl := ⟨hpower, hplan, hports, hwindow, hone, hfree, hstart, hdemand⟩
    refine ⟨_, _, exec_burstRequest hacc hb, State.burst_setBurst_self _ _ _, State.burst_setBurst_not _ _ _, ?_⟩
    exact ⟨rfl, rfl, rfl, rfl, rfl, rfl, rfl, rfl⟩
  · intro s t c hacc
    obtain ⟨v, hv, hch⟩ := burstAbandon_empties ((s.at t).renew c)
    refine ⟨_, congrArg Host.Outcome.next (State.hostWrite_ok hacc hv), ?_⟩
    rw [show (v.answer c .done).ch = _ from hch]
    exact ⟨rfl, rfl, rfl, rfl⟩
  · intro s t trunc data n b hb hs now seen stalled k hover hdata
    have hch := (s.at t).endCapture01_ch b k data
    rw [State.at_now] at hch
    refine ⟨_, exec_burstCaptureEnd_source01 hb hs hover hdata, ?_⟩
    rw [hch]
    exact ⟨rfl, rfl⟩
  · intro s t trunc data n b hb hs hover
    rw [← State.at_now]
    exact ⟨_, exec_burstCaptureEnd_source2 hb hs hover t n trunc data, (s.at t).captureEnds_source2 b,
      (s.at t).captureEnds_order b⟩
  · intro s t src2 b l q hg ho hb hq hl r hf w
    have hex := exec_burstReadout_next t hg ho hb hq hl hf
    refine ⟨fun hmore => ?_, fun hlast => ?_⟩
    · rw [hex, State.readOn_more hmore]
    · obtain ⟨hnone, horder, hqu⟩ := w.endReadout_over src2 b.advance
      have hch : w.ch = s.ch := ((s.at t).burstPayload_parts b).2.2
      rw [hch, ho] at horder
      rw [hex, State.readOn_last hlast]
      exact ⟨_, rfl, hnone, horder, hqu⟩
  · intro s t b l q hg hq hl hf hhead
    refine ⟨_, exec_burstReadout_gone t hg hq hl hf, rfl, ?_⟩
    rw [State.burstRecord_accepted (s := s.at t) hl hf, hhead]
    rfl
  · intro s t c data hacc w hh hu
    exact congrArg Host.Outcome.next (State.hostWrite_ok hacc (userProgram_loads hh hu))

end Sys2Proof.Machine
end

section
/-! SUPPORT. The blocks of the slow paths: a block of Poppy's corner buffer (chapter 8), a completed block of Linseed and a port's
decode (chapter 9). -/

namespace Sys2Proof.Machine

open Sys2Proof

/-! ## A corner buffer block (R174 to R189) -/

/-- The ticks of a block have left the corner buffer: the ticks after them wait, and the channel that reads it has moved the block. -/
def State.readBlock (s : State) (p : Nat) (mine rest : List PTick) : State :=
  (s.setPpop p fun pp => { pp with ticks := rest }).planMove p true true true
    (5 * sumN (mine.map fun k => (k.plan.decimList p).length))

/-- The records of a block's groups are offered, under the identity of the plan that governs its last input. -/
def State.offerBlock (s : State) (p : Nat) (mine : List PTick) (events : List PChange) (gs : List PGroup) : State :=
  gs.foldl (fun z g => z.offerGroup p ((mine.getLast?.map fun k => k.plan.ident).getD 0) (eventFlags events) g) s

/-- A block that is over goes from the corner buffer through the chain, and its records are offered. -/
theorem exec_poppyBlock {s : State} {p block corrected : Nat} {k : PTick} {l rest : List PTick} (t : Nat)
    (hsplit : splitBlock (((s.at t).dramFixed corrected).ppop p).ticks = (k :: l, rest))
    (hblock : k.index / max 1 k.plan.cornerDepth = block)
    (hover : ((s.at t).dramFixed corrected).blockOver p (k :: l) rest = true) :
    let w := (s.at t).dramFixed corrected
    let r := (w.readBlock p (k :: l) rest).runTicks p (k :: l) []
    exec (.poppyBlock t p block corrected) s =
      .next ((r.1.offerBlock p (k :: l) ((w.ppop p).within (k :: l) rest) r.2).popSettle p).showPoppy := by
  show execPoppyBlock t p block corrected s = _
  unfold execPoppyBlock
  dsimp only
  rw [hsplit]
  exact if_pos ⟨hblock, hover⟩

/-! ## A completed block of Linseed (R201 to R203) -/

/-- The block that is being filled is complete once the last shot of its period has settled. -/
def State.closeSettled (s : State) : State :=
  if (s.lin.block.any fun b => (s.period b.period).all s.periodDone) = true then s.closeBlock else s

/-- What becomes of the oldest completed block, if there is one: it goes into its set, and a stalled one costs the DTS firing that
waits for it. -/
def State.addOldest (s : State) (stalled : Bool) : Host.Outcome State Fault Refusal :=
  match s.lin.full with
  | [] => .next s
  | b :: l =>
    let u := (s.setLin fun x => { x with full := l }).addBlock b
    .next (if stalled = true then u.stallShot else u)

theorem State.addOldest_cons {s : State} {b : LBlock} {l : List LBlock} (h : s.lin.full = b :: l) (stalled : Bool) :
    let u := (s.setLin fun x => { x with full := l }).addBlock b
    s.addOldest stalled = .next (if stalled = true then u.stallShot else u) := by
  unfold State.addOldest
  rw [h]

theorem exec_linseedBlockAdd (s : State) (t : Nat) (stalled : Bool) (corrected : Nat) :
    exec (.linseedBlockAdd t stalled corrected) s =
      ((s.at t).dramFixed corrected).settleShots.closeSettled.addOldest stalled := by
  show execLinseedBlockAdd t stalled corrected s = _
  unfold execLinseedBlockAdd State.closeSettled
  generalize ((s.at t).dramFixed corrected).settleShots = w
  refine congrArg (fun done : Bool => (if done = true then w.closeBlock else w).addOldest stalled) ?_
  cases w.lin.block with
  | none => rfl
  | some b => cases h : w.period b.period <;> simp [h]

/-! ## The decode of a port (R206 to R214) -/

theorem State.showDts_lin (s : State) : s.showDts.lin = s.lin :=
  (State.showDts_same (m := 65536) rfl (.self _ s)).parts .lin rfl

/-- The periods that begin with a sweep owe a port no more, and an ended period that owes none has gone. -/
def State.portDecoded (s : State) (n p : Nat) : State :=
  ((s.setPeriod n fun q => { q with todo := q.todo.filter (· ≠ p) }).setLin fun l =>
    { l with periods := l.periods.filter fun q => !(q.ended && q.todo.isEmpty) }).showDts

theorem State.portDecoded_todo {s : State} {n p : Nat} {o : Period} (ho : o ∈ (s.portDecoded n p).lin.periods) (hn : o.ord = n) :
    p ∉ o.todo := by
  unfold State.portDecoded at ho
  rw [State.showDts_lin] at ho
  obtain ⟨q, -, hq⟩ := List.mem_map.1 (List.mem_filter.1 ho).1
  split at hq
  · subst hq
    simp
  · next hne => exact absurd (hq ▸ hn) hne

/-- The oldest period has ended, its shots have settled and its blocks have been added. -/
structure State.Decodes (s : State) (q : Period) : Prop where
  done : s.periodDone q = true
  added : ∀ b ∈ s.lin.full, b.period ≠ q.ord
  filled : ∀ b, s.lin.block = some b → b.period ≠ q.ord

theorem exec_dtsDecode {s : State} {t p : Nat} {q : Period} {l : List Period} (hl : (s.at t).settleShots.lin.periods = q :: l)
    (hq : (s.at t).settleShots.Decodes q) (hp : p ∈ q.todo) :
    ∃ v : State, exec (.dtsDecode t p) s = .next (v.portDecoded q.ord p) := by
  obtain ⟨hdone, hadded, hfilled⟩ := hq
  have htodo : q.todo.contains p = true := List.contains_iff_mem.2 hp
  have hfull : ((s.at t).settleShots.lin.full.any fun b => decide (b.period = q.ord)) = false :=
    List.any_eq_false.2 fun b hb => by simpa using hadded b hb
  show ∃ v : State, execDtsDecode t p s = _
  unfold execDtsDecode
  dsimp only
  rw [hl]
  dsimp only
  rw [hfull, if_pos]
  · exact ⟨_, rfl⟩
  · refine ⟨hdone, ?_, htodo⟩
    cases hb : (s.at t).settleShots.lin.block with
    | none => rfl
    | some b => exact decide_eq_false (hfilled b hb)

/-- Settles O26: a Poppy block is read, run and offered as `exec_poppyBlock` says, a Linseed block goes into its set, and a decoded
port is owed no more by `portDecoded_todo`. -/
theorem blockCommandsComplete : Obligations.BlockCommandsComplete := by
  unfold Obligations.BlockCommandsComplete
  refine ⟨?_, ?_, ?_⟩
  · intro s t p block corrected k l rest w hsplit hblock hover
    exact exec_poppyBlock t hsplit hblock hover
  · intro s t stalled corrected b l w v hfull
    exact (exec_linseedBlockAdd s t stalled corrected).trans (State.addOldest_cons hfull stalled)
  · intro s t p q l w hl hdone hfilled hadded hp
    obtain ⟨v, hv⟩ := exec_dtsDecode hl ⟨hdone, hadded, hfilled⟩ hp
    exact ⟨_, hv, fun _ ho hn => State.portDecoded_todo ho hn⟩

end Sys2Proof.Machine
end

section
/-! SUPPORT. Cashew and DRAM (chapter 15): the owner of a bank, the modes of refresh, and an error that a memory does not correct
(R205, R220, R356); the memory commands. -/

namespace Sys2Proof.Machine

open Sys2Proof

/-! ## The owner of a bank (R333, R334) -/

/-- The hand-over of bank b begins: it serves its new owner 50 ns from now. -/
def State.handOver (s : State) (b : Nat) : State :=
  { s with mem := { s.mem with
    handover := (s.mem.handover.filter fun h => decide (s.now < h.2) && decide (h.1 ≠ b)) ++ [(b, s.now + 50)] } }

/-- Neither the active plan nor the plan of a pending switch names bank b. -/
structure State.NoPlanNames (s : State) (b : Nat) : Prop where
  active : ∀ pl, s.activePlan = some pl → pl.bankCode b = 0
  pending : ∀ pl, (s.lad.switch.bind fun x => s.rung x.rung) = some pl → pl.bankCode b = 0

/-- A bank that no plan names, and that a host code holds, takes a host code. -/
theorem bankOwner_sets {s : State} {b v : Nat} (hv : v = 0 ∨ v = 4)
    (ho : s.og (okey 0x4201 (b + 1)) = 0 ∨ s.og (okey 0x4201 (b + 1)) = 4) (hn : s.NoPlanNames b) :
    bankOwner b v s = .ok ((s.os (okey 0x4201 (b + 1)) v).handOver b) := by
  refine (require_pass (decide_eq_true hv)).trans (require_pass ?_)
  simp only [Bool.and_eq_true, Bool.not_eq_true']
  refine ⟨⟨decide_eq_true ho, ?_⟩, ?_⟩
  · split
    · next pl hpl => exact decide_eq_false (not_not_intro (hn.active pl hpl))
    · rfl
  · split
    · next pl hpl => exact decide_eq_false (not_not_intro (hn.pending pl hpl))
    · rfl

/-- BANK_OWNER_WRITE of one byte. -/
theorem exec_bankOwnerWrite {v : Nat} (hv : v < 256) (s : State) (t c b : Nat) :
    exec (.bankOwnerWrite t c b v) s =
      .next ((s.at t).hostWrite c 0x4201 (b + 1) false (le 1 v) (bankOwner b v)) := by
  show execBankOwnerWrite t c b v s = _
  unfold execBankOwnerWrite
  rw [Nat.mod_eq_of_lt hv]

/-! ## Cashew events (R336 to R339) -/

theorem exec_busyStrobe {s : State} {b : Nat} (t : Nat) (hb : b < 48) (hl : s.coreLive = true) :
    exec (.busyStrobe t b) s = .next ((((s.at t).bump 0x420012).count 55).osBit 0x420013 b true) := if_pos ⟨hb, hl⟩

theorem exec_cashewScrub {s : State} {b d : Nat} (t : Nat) (e : EccError) (hb : b < 48) (hd : d < 65536)
    (hl : s.coreLive = true) :
    exec (.cashewScrub t b d e) s = .next (match e with
      | .none => s.at t
      | .single => ((s.at t).bump 0x420014).count 53
      | .double => ((s.at t).bump 0x420015).count 54) := by
  refine (if_pos ⟨hb, hd, hl⟩).trans ?_
  cases e <;> rfl

/-! ## Refresh and self-refresh (R350 to R352) -/

theorem exec_refresh {s : State} {i : Nat} (t : Nat) (waiting : Bool) (hl : s.ifaceLive i = true) :
    exec (.refresh t i waiting) s = .next ((s.at t).setMem fun m => { m with
      selfRefresh := modAt m.selfRefresh i fun x => x && !waiting
      used := modAt m.used i fun x => if waiting then max s.now t else x
      postponed := modAt m.postponed i fun _ =>
        if s.og 0x420009 = 1 ∧ waiting = true ∧ s.mem.postponed.getD i 0 < 8 then s.mem.postponed.getD i 0 + 1 else 0 }) := by
  rw [← State.at_now]
  exact if_pos hl

theorem exec_selfRefreshEntry {s : State} {t i : Nat} (hl : s.ifaceLive i = true) (he : s.og 0x42000B ≠ 0)
    (hr : s.realTimeOn = false) (hu : s.mem.used.getD i 0 + 1000 * s.og 0x42000B ≤ max s.now t) :
    exec (.selfRefreshEntry t i) s = .next ((s.at t).setMem fun m => { m with
      selfRefresh := modAt m.selfRefresh i fun _ => true, postponed := modAt m.postponed i fun _ => 0 }) := by
  rw [← State.at_now] at hu
  exact if_pos ⟨hl, he, hr, hu⟩

/-- HY36-compatible refresh is taken where the demand of every plan fits it, and the other mode always. -/
theorem refreshMode_sets {s : State} {v : Nat}
    (h : v = 1 → ∀ r pl, r < 16 → s.rung r = some pl → s.demandOk pl 1 = true) :
    refreshMode v s = .ok ((s.os 0x420009 v).setMem fun m => { m with postponed := [0, 0] }).showUsable := by
  refine require_pass ?_
  rw [Bool.or_eq_true]
  by_cases hv : v = 1
  · refine .inr (List.all_eq_true.2 fun r hr => ?_)
    split
    · next pl hpl => exact h hv r pl (List.mem_range.1 hr) hpl
    · rfl
  · exact .inl (decide_eq_true hv)

/-- REFRESH_MODE_WRITE of one byte. -/
theorem exec_refreshModeWrite {v : Nat} (hv : v < 256) (s : State) (t c : Nat) :
    exec (.refreshModeWrite t c v) s =
      .next ((s.at t).hostWrite c 0x4200 9 false (le 1 v) (refreshMode v)) := by
  show execRefreshModeWrite t c v s = _
  unfold execRefreshModeWrite
  rw [Nat.mod_eq_of_lt hv]

/-- A full scrub takes DRAM with inline ECC on (R357). -/
theorem fullScrub_starts {s : State} (h : s.og 0x420004 = 1) : fullScrub s = .ok (s.startLong 4 28000 0 []) :=
  require_pass (decide_eq_true h)

/-! ## Uncorrectable errors (R205, R220, R356) -/

theorem exec_dramUncorrectable_dram {s : State} {who : DramReader} (t addr : Nat) (hw : who.dram = true)
    (he : s.og 0x420004 = 1) :
    exec (.dramUncorrectable t addr who) s = .next (((s.at t).dramError addr).readerError addr who) :=
  congrArg Host.Outcome.next ((if_neg (ne_false_of_eq_true hw)).trans (if_pos he))

theorem exec_dramUncorrectable_sram {who : DramReader} (s : State) (t addr : Nat) (hw : who.dram = false) :
    exec (.dramUncorrectable t addr who) s = .next ((s.at t).sramError addr who) :=
  congrArg Host.Outcome.next (if_pos hw)

/-- A record store in Cashew counts in Cashew's own objects too, and corrects a single-bit error. -/
theorem State.sramError_storage (s : State) (addr : Nat) {q : Nat} (hq : q < 13) (single : Bool) :
    s.sramError addr (.storage q single) =
      if single = true then (s.bump 0x420014).eccFix else (s.bump 0x420015).eccLost.stageError q := by
  have hc : decide (q < 13) = true := decide_eq_true hq
  unfold State.sramError
  simp only [hc, DramReader.single, if_true, State.readerError]

/-- A replay buffer does not count in Cashew's objects. -/
theorem State.sramError_replay (s : State) (addr lane seq : Nat) (single : Bool) :
    s.sramError addr (.replay lane seq single) =
      if single = true then s.eccFix else s.eccLost.replayError lane seq := rfl

/-- Settles O45: a host write has the effect that its object takes (`bankOwner_sets`, `refreshMode_sets`, `fullScrub_starts`), an
event on live memory acts as its command says, and an error of a word goes the way of the memory that holds it. An overflow is the
meaning of its command, requester by requester. -/
theorem memoryCommandsComplete : Obligations.MemoryCommandsComplete := by
  unfold Obligations.MemoryCommandsComplete
  refine ⟨?_, ?_, ?_, ?_, ?_, ?_, ?_, ?_, ?_, ?_, ?_, ?_⟩
  · intro s t c b v hacc hv w ho hactive hpending
    have hsets := bankOwner_sets (s := w) hv ho ⟨hactive, hpending⟩
    rw [exec_bankOwnerWrite (by omega), State.hostWrite_ok hacc hsets]
    rfl
  · intro s t b hb hl
    exact exec_busyStrobe t hb hl
  · intro s t b d e hb hd hl
    exact exec_cashewScrub t e hb hd hl
  · intro s t i waiting hl
    exact exec_refresh t waiting hl
  · intro s t i hl he hr hu
    exact exec_selfRefreshEntry hl he hr hu
  · intro s t c v hacc hv w hdemand
    rw [exec_refreshModeWrite hv, State.hostWrite_ok hacc (refreshMode_sets hdemand)]
  · intro s t c hacc he
    exact congrArg Host.Outcome.next (State.hostWrite_ok hacc (fullScrub_starts he))
  · intro s t addr who hw he
    exact exec_dramUncorrectable_dram t addr hw he
  · intro s t addr port bin
    exact exec_dramUncorrectable_sram s t addr rfl
  · intro s t addr e user
    exact exec_dramUncorrectable_sram s t addr rfl
  · intro s t addr n q one hq
    have hstorage (single : Bool) := (exec_dramUncorrectable_sram s t addr rfl).trans
      (congrArg Host.Outcome.next ((s.at t).sramError_storage addr hq single))
    have hreplay := (exec_dramUncorrectable_sram s t addr rfl).trans
      (congrArg Host.Outcome.next ((s.at t).sramError_replay addr n q one))
    exact ⟨hstorage true, hstorage false, hreplay⟩
  · intro s t stall buf
    exact ⟨rfl, rfl, rfl⟩

end Sys2Proof.Machine
end

section
/-! SUPPORT. One slot of a Hazel bundle (R221, R222): what an operation makes of the context that runs; the address slot
(Table 10-5) and the MAC slot (Table 10-7). -/

namespace Sys2Proof.Machine

open Sys2Proof

/-! ## A slot operation -/

/-- The Cashew banks of the item that a context runs (R218). -/
def State.itemBanks (s : State) (e : Nat) (user : Bool) : Nat := (((s.engine e).current user).map (·.banks)).getD 0

section
variable {s : State} {e : Nat} {user : Bool} {f : Bool → Nat → Ctx → Except Nat Ctx}
  (hr : (s.engine e).running = some user)
include hr

/-- An operation that completes leaves its context. -/
theorem State.slotOp_ok {c : Ctx} (hf : f user (s.itemBanks e user) ((s.engine e).ctx user) = .ok c) :
    s.slotOp e f = s.putSlot e user c := by
  have hf' : f user ((((s.engine e).current user).map (·.banks)).getD 0) ((s.engine e).ctx user) = .ok c := hf
  unfold State.slotOp
  dsimp only
  rw [hr]
  dsimp only
  rw [hf']
  rfl

/-- An operation that does not complete is a fault of the context that runs. -/
theorem State.slotOp_error {cause : Nat} (hf : f user (s.itemBanks e user) ((s.engine e).ctx user) = .error cause) :
    s.slotOp e f = s.hzFault e cause := by
  have hf' : f user ((((s.engine e).current user).map (·.banks)).getD 0) ((s.engine e).ctx user) = .error cause := hf
  unfold State.slotOp
  dsimp only
  rw [hr]
  dsimp only
  rw [hf']

/-- A command that is a slot operation completes with the context that the operation answers. -/
theorem exec_slot_completes {i : Instr} {c : Ctx} (hi : exec i s = .next (s.slotOp e f))
    (hf : f user (s.itemBanks e user) ((s.engine e).ctx user) = .ok c) : exec i s = .next (s.putSlot e user c) := by
  rw [hi, State.slotOp_ok hr hf]

/-- A command that is a slot operation faults with the cause that the operation answers. -/
theorem exec_slot_faults {i : Instr} {cause : Nat} (hi : exec i s = .next (s.slotOp e f))
    (hf : f user (s.itemBanks e user) ((s.engine e).ctx user) = .error cause) : exec i s = .next (s.hzFault e cause) := by
  rw [hi, State.slotOp_error hr hf]

end

/-! ## The address slot (Table 10-5) -/

/-- Settles O35: every address operation completes, but PSETS where k is not 0. -/
theorem hazelAddressComplete : Obligations.HazelAddressComplete := by
  unfold Obligations.HazelAddressComplete
  intro s e user hr c
  refine ⟨?_, ?_, ?_, ?_, ?_, ?_, ?_, ?_, ?_⟩
  · exact exec_slot_completes hr rfl rfl
  · exact fun k => exec_slot_completes hr rfl rfl
  · exact fun k imm => exec_slot_completes hr rfl rfl
  · exact fun k imm => exec_slot_completes hr rfl rfl
  · exact fun k imm => exec_slot_completes hr rfl rfl
  · exact fun k imm => exec_slot_completes hr rfl rfl
  · exact fun k imm => exec_slot_completes hr rfl rfl
  · exact fun imm => exec_slot_completes hr rfl rfl
  · exact fun k imm hk => exec_slot_faults hr rfl (if_pos hk)

/-! ## The MAC slot: accumulators (R225) -/

/-- The factor A of MAC, MSU and MPY, as mod reads it. -/
def Regs.factorA (r : Regs) (o : MacOp) : List Int := if o.mod = 2 then (r.dv o.a).map (· % 2 ^ 24) else r.dv o.a

/-- The factor B of MAC, MSU and MPY, as mod reads it: at 3 lane 0 of dB in every lane. -/
def Regs.factorB (r : Regs) (o : MacOp) : List Int :=
  if o.mod = 0 then r.dv o.b
  else if o.mod = 1 ∨ o.mod = 2 then (r.dv o.b).map (· % 2 ^ 24)
  else (r.dv o.a).map fun _ => (r.dv o.b).getD 0 0

/-- The products of a MAC slot, lane by lane. -/
def Regs.products (r : Regs) (o : MacOp) : List Int := List.zipWith (· * ·) (r.factorA o) (r.factorB o)

theorem factors_eq_zip (o : MacOp) (r : Regs) : factors o r = List.zip (r.factorA o) (r.factorB o) := by
  obtain ⟨acc, a, b, mod⟩ := o
  match mod with
  | 0 => rfl
  | 1 => rfl
  | 2 => rfl
  | n + 3 =>
    have hB : r.factorB ⟨acc, a, b, n + 3⟩ = (r.dv a).map fun _ => (r.dv b).getD 0 0 := by simp [Regs.factorB]
    have hA : r.factorA ⟨acc, a, b, n + 3⟩ = r.dv a := by simp [Regs.factorA]
    rw [hA, hB, List.zip_eq_zipWith, List.zipWith_map_right, List.zipWith_self]
    rfl

theorem factors_products (o : MacOp) (r : Regs) : ((factors o r).map fun x => x.1 * x.2) = r.products o := by
  rw [factors_eq_zip]
  exact List.map_uncurry_zip_eq_zipWith

theorem factors_zipWith (o : MacOp) (r : Regs) (f : Int → Int → Int) :
    ((List.zip (r.av o.acc) (factors o r)).map fun x => f x.1 (x.2.1 * x.2.2)) = List.zipWith f (r.av o.acc) (r.products o) := by
  rw [← factors_products, List.zipWith_map_right]
  exact List.map_uncurry_zip_eq_zipWith (f := fun a (x : Int × Int) => f a (x.1 * x.2))

section
variable {s : State} {e : Nat} {user : Bool} (hr : (s.engine e).running = some user)
include hr

/-- A multiply-accumulate form acts on the accumulator and the products, saturated. -/
theorem State.macForm_eq (o : MacOp) (f : Int → Int → Int) :
    s.macForm e o f = s.putSlot e user
      (((((s.engine e).ctx user).wait true [.a o.acc]).wait false [.d o.a, .d o.b]).satA o.acc 1
        (List.zipWith f (((s.engine e).ctx user).issue.av o.acc) (((s.engine e).ctx user).issue.products o))) :=
  State.slotOp_ok hr (congrArg
    (fun v => Except.ok (((((s.engine e).ctx user).wait true [.a o.acc]).wait false [.d o.a, .d o.b]).satA o.acc 1 v))
    (factors_zipWith o ((s.engine e).ctx user).issue f))

theorem State.accForm_legal {legal : Bool} (h : legal = true) (o : MacOp) (reads : List RegId) (f : Regs → List Int) :
    s.accForm e o legal reads f = s.putSlot e user
      ((((s.engine e).ctx user).wait false reads).satA o.acc 3 (f ((s.engine e).ctx user).issue)) :=
  State.slotOp_ok hr (if_pos h)

theorem State.accForm_illegal {legal : Bool} (h : legal = false) (o : MacOp) (reads : List RegId) (f : Regs → List Int) :
    s.accForm e o legal reads f = s.hzFault e 2 :=
  State.slotOp_error hr (if_neg (by rw [h]; exact Bool.false_ne_true))

end

/-- Settles O39: the accumulator operations are multiply-accumulate forms, whose products `factors_zipWith` gives, forms that replace the
accumulator, and slot operations of their own. -/
theorem hazelAccumulatorsComplete : Obligations.HazelAccumulatorsComplete := by
  unfold Obligations.HazelAccumulatorsComplete
  intro s e user hr c r
  refine ⟨exec_slot_completes hr rfl rfl, ?_⟩
  intro o n uns x y prod sat
  refine ⟨?_, ?_, ?_, ?_, ?_, ?_, ?_, ?_, ?_, ?_, ?_, ?_⟩
  · exact congrArg Host.Outcome.next (State.macForm_eq hr o _)
  · exact congrArg Host.Outcome.next (State.macForm_eq hr o _)
  · have hprod : ((factors o r).map fun x => x.1 * x.2) = prod := factors_products o r
    rw [← hprod]
    exact congrArg Host.Outcome.next (State.accForm_legal hr rfl o _ _)
  · exact congrArg Host.Outcome.next (State.accForm_legal hr rfl o _ _)
  · exact exec_slot_completes hr rfl rfl
  · exact congrArg Host.Outcome.next (State.accForm_legal hr rfl o _ _)
  · exact fun hn => congrArg Host.Outcome.next (State.accForm_legal hr (decide_eq_true hn) o _ _)
  · exact fun hn => congrArg Host.Outcome.next (State.accForm_legal hr (decide_eq_true hn) o _ _)
  · exact exec_slot_completes hr rfl rfl
  · intro hn
    have hlong : decide (countN o ≤ 63) = false := decide_eq_false (Nat.not_le.2 hn)
    exact ⟨congrArg Host.Outcome.next (State.accForm_illegal hr hlong o _ _),
      congrArg Host.Outcome.next (State.accForm_illegal hr hlong o _ _)⟩
  · exact fun hm => exec_slot_faults hr rfl (if_pos hm)
  · exact fun hm => exec_slot_completes hr rfl (if_neg (not_not_intro hm))

/-! ## The MAC slot: d registers (R225, R226) -/

section
variable {s : State} {e : Nat} {user : Bool} {o : MacOp} (hr : (s.engine e).running = some user)
include hr

theorem State.dForm_wraps (ho : o.acc = 0) (reads : List RegId) (f : Int → Int → Int) :
    s.dForm e o reads f false = s.putSlot e user ((((s.engine e).ctx user).wait false reads).putD o.a 1
      (List.zipWith f (((s.engine e).ctx user).issue.dv o.a) (((s.engine e).ctx user).issue.dv o.b))) :=
  State.slotOp_ok hr (if_neg (not_not_intro ho))

theorem State.dForm_saturates (ho : o.acc = 0) (reads : List RegId) (f : Int → Int → Int) :
    s.dForm e o reads f true = s.putSlot e user ((((s.engine e).ctx user).wait false reads).satD o.a
      (List.zipWith f (((s.engine e).ctx user).issue.dv o.a) (((s.engine e).ctx user).issue.dv o.b))) :=
  State.slotOp_ok hr (if_neg (not_not_intro ho))

theorem State.dForm_illegal (ho : o.acc ≠ 0) (reads : List RegId) (f : Int → Int → Int) (sat : Bool) :
    s.dForm e o reads f sat = s.hzFault e 2 :=
  State.slotOp_error hr (if_pos ho)

theorem State.shiftForm_legal (ho : o.acc = 0) (hn : countN o ≤ 23) (f : Int → Int) :
    s.shiftForm e o f = s.putSlot e user
      ((((s.engine e).ctx user).wait false [.d o.a]).putD o.a 1 ((((s.engine e).ctx user).issue.dv o.a).map f)) :=
  State.slotOp_ok hr (if_neg (not_or.2 ⟨not_not_intro ho, Nat.not_lt.2 hn⟩))

theorem State.shiftForm_illegal (h : o.acc ≠ 0 ∨ 23 < countN o) (f : Int → Int) : s.shiftForm e o f = s.hzFault e 2 :=
  State.slotOp_error hr (if_pos h)

theorem State.compareForm_legal (ho : o.acc = 0) (f : Int → Int → Bool) :
    s.compareForm e o f = s.putSlot e user (((((s.engine e).ctx user).wait false [.d o.a, .d o.b]).setRegs fun r =>
      { r with pred := List.zipWith f (((s.engine e).ctx user).issue.dv o.a) (((s.engine e).ctx user).issue.dv o.b) }).note
        .pred 1 1) :=
  State.slotOp_ok hr (if_neg (not_not_intro ho))

theorem State.compareForm_illegal (ho : o.acc ≠ 0) (f : Int → Int → Bool) : s.compareForm e o f = s.hzFault e 2 :=
  State.slotOp_error hr (if_pos ho)

end

theorem permLane_eq (mod i : Nat) :
    permLane mod i = if mod = 0 then i ^^^ 1 else if mod = 1 then i ^^^ 2 else if mod = 2 then i ^^^ 4 else 0 := by
  match mod with
  | 0 => rfl
  | 1 => rfl
  | 2 => rfl
  | n + 3 => simp [permLane]

/-- An operation with the acc bit 1 is illegal, whatever it is (R225). -/
theorem exec_registers_accBit {s : State} {e : Nat} {user : Bool} {o : MacOp} (hr : (s.engine e).running = some user)
    (ho : o.acc ≠ 0) : ∀ i ∈ [Instr.hzAdd e o, .hzSub e o, .hzAdds e o, .hzSubs e o, .hzMin e o, .hzMax e o, .hzAnd e o,
      .hzOr e o, .hzXor e o, .hzRsd e o, .hzLsd e o, .hzCgt e o, .hzCeq e o, .hzSel e o, .hzMov e o, .hzPrm e o, .hzAbs e o],
      exec i s = .next (s.hzFault e 2) := by
  have hd (reads : List RegId) (f : Int → Int → Int) (sat : Bool) :
      Host.Outcome.next (φ := Fault) (ρ := Refusal) (s.dForm e o reads f sat) = .next (s.hzFault e 2) :=
    congrArg Host.Outcome.next (State.dForm_illegal hr ho reads f sat)
  have hs (f : Int → Int) : Host.Outcome.next (φ := Fault) (ρ := Refusal) (s.shiftForm e o f) = .next (s.hzFault e 2) :=
    congrArg Host.Outcome.next (State.shiftForm_illegal hr (.inl ho) f)
  have hc (f : Int → Int → Bool) :
      Host.Outcome.next (φ := Fault) (ρ := Refusal) (s.compareForm e o f) = .next (s.hzFault e 2) :=
    congrArg Host.Outcome.next (State.compareForm_illegal hr ho f)
  simp only [List.forall_mem_cons]
  refine ⟨hd _ _ _, hd _ _ _, hd _ _ _, hd _ _ _, hd _ _ _, hd _ _ _, hd _ _ _, hd _ _ _, hd _ _ _, hs _, hs _, hc _, hc _,
    exec_slot_faults hr rfl (if_pos ho), hd _ _ _, exec_slot_faults hr rfl (if_pos ho),
    exec_slot_faults hr rfl (if_pos (.inl ho)), List.forall_mem_nil _⟩

/-- Settles O40: the d-register operations are two-operand forms, shifts, compares and slot operations of their own, all of them with
the acc bit 0. -/
theorem hazelRegistersComplete : Obligations.HazelRegistersComplete := by
  unfold Obligations.HazelRegistersComplete
  intro s e user hr c r
  refine ⟨fun o ho => exec_registers_accBit hr ho, ?_⟩
  intro o ho n c2 sat
  have hno : ¬ o.acc ≠ 0 := not_not_intro ho
  have hd (reads : List RegId) (f : Int → Int → Int) :=
    congrArg (Host.Outcome.next (φ := Fault) (ρ := Refusal)) (State.dForm_wraps hr ho reads f)
  refine ⟨?_, ?_, ?_, ?_, ?_, ?_, ?_, ?_, ?_, ?_, ?_, ?_, ?_⟩
  · simp only [List.forall_mem_cons]
    exact ⟨hd _ _, hd _ _, hd _ _, hd _ _, hd _ _, hd _ _, hd _ _, List.forall_mem_nil _⟩
  · exact hd _ _
  · exact congrArg Host.Outcome.next (State.dForm_saturates hr ho _ _)
  · exact congrArg Host.Outcome.next (State.dForm_saturates hr ho _ _)
  · exact fun hn => congrArg Host.Outcome.next (State.shiftForm_legal hr ho hn _)
  · exact fun hn => congrArg Host.Outcome.next (State.shiftForm_legal hr ho hn _)
  · exact congrArg Host.Outcome.next (State.compareForm_legal hr ho _)
  · exact congrArg Host.Outcome.next (State.compareForm_legal hr ho _)
  · refine exec_slot_completes hr rfl ((if_neg hno).trans ?_)
    rw [← List.map_uncurry_zip_eq_zipWith]
    rfl
  · simp only [← permLane_eq]
    exact exec_slot_completes hr rfl (if_neg hno)
  · intro hn
    exact ⟨congrArg Host.Outcome.next (State.shiftForm_illegal hr (.inr hn) _),
      congrArg Host.Outcome.next (State.shiftForm_illegal hr (.inr hn) _)⟩
  · exact fun hm => exec_slot_faults hr rfl (if_pos (.inr hm))
  · exact fun hm => exec_slot_completes hr rfl (if_neg (not_or.2 ⟨hno, not_not_intro hm⟩))

end Sys2Proof.Machine
end

section
/-! SUPPORT. The load/store slots of Hazel (R218 to R224, Table 10-6): the addresses of an access, what an error of the words it fetches
counts, and the outcomes of a load and of a store. -/

namespace Sys2Proof.Machine

open Sys2Proof

/-! ## The addresses of an access (R218, R223) -/

/-- The addresses of an access of natural size n: p_k alone, or the lanes'. -/
def Ctx.accessAddrs (c : Ctx) (o : LsOp) (n : Nat) (scalar : Bool) : List Nat :=
  if scalar then [c.issue.pv o.k] else c.laneAddrs o n

/-- The address map gives every address of an access to the context, and every one is aligned. -/
def State.Accessible (s : State) (e : Nat) (user : Bool) (n : Nat) (addrs : List Nat) : Prop :=
  ∀ a ∈ addrs, accessOk user (s.itemBanks e user) a n = true

theorem State.all_accessOk {s : State} {e n : Nat} {user : Bool} {addrs : List Nat} (h : s.Accessible e user n addrs) :
    addrs.all (fun a => accessOk user (s.itemBanks e user) a n) = true := List.all_eq_true.2 h

theorem State.not_all_accessOk {s : State} {e n : Nat} {user : Bool} {addrs : List Nat}
    (h : ∃ a ∈ addrs, accessOk user (s.itemBanks e user) a n = false) :
    addrs.all (fun a => accessOk user (s.itemBanks e user) a n) = false := by
  obtain ⟨a, ha, hno⟩ := h
  exact List.all_eq_false.2 ⟨a, ha, Bool.eq_false_iff.1 hno⟩

/-- The accumulator that an access names, if it names one, is one of the two. -/
theorem accumulator_named {acc : Bool} {n : Nat} (h : acc = true → n < 2) : (acc && decide (2 ≤ n)) ≠ true := by
  rw [Ne, Bool.and_eq_true, decide_eq_true_eq]
  exact fun k => absurd (h k.1) (Nat.not_lt.2 k.2)

/-! ## Loads (R220, R226, R332) -/

/-- The cycles after which the value of an access is ready: `near` from the local memory, 10 and the waits from Cashew. -/
def accessLat (o : LsOp) (addrs : List Nat) (near : Nat) : Nat := if ∃ a ∈ addrs, 0x10000 ≤ a then 10 + o.waits else near

theorem accessLat_of_any (o : LsOp) (addrs : List Nat) :
    (if addrs.any (0x10000 ≤ ·) = true then 10 + o.waits else 2) = accessLat o addrs 2 := by
  simp only [accessLat, List.any_eq_true, decide_eq_true_eq]

theorem max_accessLat (o : LsOp) (addrs : List Nat) : max 3 (accessLat o addrs 2) = accessLat o addrs 3 := by
  unfold accessLat
  split <;> omega

/-- A context whose load has taken the lanes into its register. -/
def Ctx.loaded (c : Ctx) (o : LsOp) (n : Nat) (scalar acc : Bool) (lanes : List Int) : Ctx :=
  let addrs := c.accessAddrs o n scalar
  let d := ((c.wait false (addrRegs o scalar)).touch addrs n).post o
  if acc then d.putA o.reg (accessLat o addrs 3) (accessLat o addrs 3) lanes else d.putD o.reg (accessLat o addrs 2) lanes

theorem Ctx.loaded_d (c : Ctx) (o : LsOp) (n : Nat) (scalar : Bool) (lanes : List Int) :
    c.loaded o n scalar false lanes = (((c.wait false (addrRegs o scalar)).touch (c.accessAddrs o n scalar) n).post o).putD o.reg
      (accessLat o (c.accessAddrs o n scalar) 2) lanes := rfl

/-- The error counts of a load change neither the engines nor the memories. -/
theorem State.loadEcc_parts (s : State) (e : Nat) (o : LsOp) (scalar : Bool) (n : Nat) :
    (s.loadEcc e o scalar n).hz = s.hz ∧ (s.loadEcc e o scalar n).mem = s.mem := by
  have h : Same 8519680 s (s.loadEcc e o scalar n) := State.loadEcc_same rfl (.self _ s) e o scalar n
  exact ⟨h.parts .hz rfl, h.parts .mem rfl⟩

theorem State.loadEcc_engine (s : State) (e : Nat) (o : LsOp) (scalar : Bool) (n f : Nat) :
    (s.loadEcc e o scalar n).engine f = s.engine f :=
  State.engine_of_engines (congrArg Hazel.engines (s.loadEcc_parts e o scalar n).1) f

theorem State.loadEcc_hzRead (s : State) (e : Nat) (o : LsOp) (scalar : Bool) (n f : Nat) (user : Bool) (a k : Nat) :
    (s.loadEcc e o scalar n).hzRead f user a k = s.hzRead f user a k := by
  obtain ⟨hhz, hmem⟩ := s.loadEcc_parts e o scalar n
  unfold State.hzRead State.hzByte
  rw [hhz, hmem]

/-- What a load makes of the context that runs: in the order of its tests, a fault, or the register with its lanes' values. -/
def State.loadOp (s : State) (e : Nat) (o : LsOp) (n : Nat) (scalar acc : Bool) (f : Nat → Int) (user : Bool) (banks : Nat)
    (c : Ctx) : Except Nat Ctx :=
  let addrs := c.accessAddrs o n scalar
  let vals := addrs.map fun a => f (s.hzRead e user a n)
  if (acc && decide (2 ≤ o.reg)) = true then .error 2
  else if addrs.all (fun a => accessOk user banks a n) = false then .error 4
  else if loadFault o user addrs = true then .error 5
  else .ok (c.loaded o n scalar acc (if scalar = true then rep 8 (vals.getD 0 0) else vals))

theorem State.load_eq (s : State) (e : Nat) (o : LsOp) (n : Nat) (scalar acc : Bool) (f : Nat → Int) :
    s.load e o n scalar acc f = (s.loadEcc e o scalar n).slotOp e (s.loadOp e o n scalar acc f) := by
  unfold State.load State.loadOp Ctx.loaded
  simp only [State.loadEcc_hzRead, accessLat_of_any, max_accessLat]
  rfl

section
variable {s : State} {e n : Nat} {user scalar acc : Bool} {o : LsOp} {f : Nat → Int} {i : Instr}
  (hr : (s.engine e).running = some user) (hi : exec i s = .next (s.load e o n scalar acc f))
include hr hi

theorem exec_load_faults {cause : Nat}
    (hf : s.loadOp e o n scalar acc f user (s.itemBanks e user) ((s.engine e).ctx user) = .error cause) :
    exec i s = .next ((s.loadEcc e o scalar n).hzFault e cause) := by
  have hr' : ((s.loadEcc e o scalar n).engine e).running = some user := by rwa [State.loadEcc_engine]
  rw [hi, State.load_eq, State.slotOp_error hr']
  rwa [State.itemBanks, State.loadEcc_engine]

theorem exec_load_noAccumulator (ha : acc = true) (hreg : 2 ≤ o.reg) :
    exec i s = .next ((s.loadEcc e o scalar n).hzFault e 2) :=
  exec_load_faults hr hi (if_pos (Bool.and_eq_true_iff.2 ⟨ha, decide_eq_true hreg⟩))

variable (hacc : acc = true → o.reg < 2)
include hacc

theorem exec_load_denied
    (hno : ∃ a ∈ ((s.engine e).ctx user).accessAddrs o n scalar, accessOk user (s.itemBanks e user) a n = false) :
    exec i s = .next ((s.loadEcc e o scalar n).hzFault e 4) :=
  exec_load_faults hr hi ((if_neg (accumulator_named hacc)).trans (if_pos (State.not_all_accessOk hno)))

variable (hok : s.Accessible e user n (((s.engine e).ctx user).accessAddrs o n scalar))
include hok

theorem exec_load_damaged (hbad : loadFault o user (((s.engine e).ctx user).accessAddrs o n scalar) = true) :
    exec i s = .next ((s.loadEcc e o scalar n).hzFault e 5) :=
  exec_load_faults hr hi ((if_neg (accumulator_named hacc)).trans
    ((if_neg (ne_false_of_eq_true (State.all_accessOk hok))).trans (if_pos hbad)))

/-- A load without a fault gives every lane its value, a scalar one the same to all. -/
theorem exec_load_completes (hgood : loadFault o user (((s.engine e).ctx user).accessAddrs o n scalar) = false) :
    let vals := (((s.engine e).ctx user).accessAddrs o n scalar).map fun a => f (s.hzRead e user a n)
    exec i s = .next ((s.loadEcc e o scalar n).putSlot e user
      (((s.engine e).ctx user).loaded o n scalar acc (if scalar = true then rep 8 (vals.getD 0 0) else vals))) := by
  intro vals
  have hr' : ((s.loadEcc e o scalar n).engine e).running = some user := by rwa [State.loadEcc_engine]
  rw [hi, State.load_eq]
  refine congrArg Host.Outcome.next (State.slotOp_ok hr' ?_)
  rw [State.itemBanks, State.loadEcc_engine]
  exact (if_neg (accumulator_named hacc)).trans ((if_neg (ne_false_of_eq_true (State.all_accessOk hok))).trans
    (if_neg (ne_true_of_eq_false hgood)))

end

/-- A scalar load gives every lane the value at p_k. -/
theorem exec_load_scalar {s : State} {e n : Nat} {user : Bool} {o : LsOp} {f : Nat → Int} {i : Instr}
    (hr : (s.engine e).running = some user) (hi : exec i s = .next (s.load e o n true false f))
    (hok : s.Accessible e user n [((s.engine e).ctx user).issue.pv o.k])
    (hgood : loadFault o user [((s.engine e).ctx user).issue.pv o.k] = false) :
    exec i s = .next ((s.loadEcc e o true n).putSlot e user (((s.engine e).ctx user).loaded o n true false
      (rep 8 (f (s.hzRead e user (((s.engine e).ctx user).issue.pv o.k) n))))) :=
  exec_load_completes hr hi (fun h => absurd h Bool.false_ne_true) hok hgood

/-- Settles O36: each load is the shared load at its size and with its meaning of the bytes, and that faults or completes as the four
`exec_load` lemmas say. -/
theorem hazelLoadsComplete : Obligations.HazelLoadsComplete := by
  unfold Obligations.HazelLoadsComplete
  intro s e user hr c banks
  have hd {reg : Nat} : false = true → reg < 2 := fun h => absurd h Bool.false_ne_true
  refine ⟨fun ls => exec_slot_completes hr rfl rfl, ?_, ?_, ?_⟩
  · intro x hx o z addrs
    have hi : exec (x.1 e o) s = .next (s.load e o x.2.1 false false x.2.2) := by
      simp only [List.mem_cons, List.not_mem_nil, or_false] at hx
      obtain rfl | rfl | rfl | rfl := hx <;> dsimp only <;> rfl
    exact ⟨exec_load_denied hr hi hd, fun hok => ⟨exec_load_damaged hr hi hd hok, exec_load_completes hr hi hd hok⟩⟩
  · intro o a
    have hi : exec (.hzLds e o) s = .next (s.load e o 4 true false fun w => toI 24 (w / 256)) := rfl
    refine ⟨fun hno => exec_load_denied hr hi hd ⟨a, .head _, hno⟩, fun hone => ?_⟩
    have hok : s.Accessible e user 4 [a] := List.forall_mem_singleton.2 hone
    refine ⟨exec_load_damaged hr hi hd hok, fun hgood => ?_⟩
    have hlat : accessLat o [a] 2 = if 0x10000 ≤ a then 10 + o.waits else 2 := by simp [accessLat]
    rw [← hlat, exec_load_scalar hr hi hok hgood, Ctx.loaded_d]
    rfl
  · intro o z addrs
    have hi : exec (.hzLda e o) s = .next (s.load e o 8 false true fun w => toI 56 w) := rfl
    refine ⟨fun hreg => exec_load_noAccumulator hr hi rfl hreg, fun hreg => ?_⟩
    have ha : true = true → o.reg < 2 := fun _ => hreg
    exact ⟨exec_load_denied hr hi ha, fun hok => ⟨exec_load_damaged hr hi ha hok, exec_load_completes hr hi ha hok⟩⟩

end Sys2Proof.Machine
end

section
/-! SUPPORT. The stores of Hazel (R218, R222 to R224, Table 10-6): what a store leaves for the end of its bundle, what it counts, and its
faults. -/

namespace Sys2Proof.Machine

open Sys2Proof

/-! ## The context after a store -/

/-- The bytes that lanes put from their addresses upwards. -/
def laneStores (addrs : List Nat) (out : List (List Byte × Bool)) : List (Nat × Byte) :=
  (List.zip addrs out).flatMap fun y => y.2.1.zipIdx.map fun v => (y.1 + v.2, v.1)

/-- A context whose store of `out` to its addresses waits for the end of the bundle; it has waited for the registers it reads. -/
def Ctx.stored (c : Ctx) (o : LsOp) (n : Nat) (reads : List RegId) (addrs : List Nat) (out : List (List Byte × Bool)) : Ctx :=
  let d := (((c.wait false reads).hold (addrs.any (0x10000 ≤ ·)) o.waits).touch addrs n).post o
  ({ d with stores := d.stores ++ laneStores addrs out } : Ctx).satLanes (out.map (·.2))

/-- A bundle held for a bank port keeps its registers and its stores. -/
theorem Ctx.hold_parts (c : Ctx) (cashew : Bool) (waits : Nat) :
    (c.hold cashew waits).regs = c.regs ∧ (c.hold cashew waits).issue = c.issue ∧ (c.hold cashew waits).stores = c.stores := by
  unfold Ctx.hold
  split <;> exact ⟨rfl, rfl, rfl⟩

theorem Ctx.post_stores (c : Ctx) (o : LsOp) : (c.post o).stores = c.stores := by
  unfold Ctx.post
  split <;> rfl

theorem Ctx.post_sat (c : Ctx) (o : LsOp) : (c.post o).regs.sat = c.regs.sat := by
  unfold Ctx.post
  split <;> rfl

/-- Of a context a post-modification sees the registers alone. -/
theorem Ctx.post_regs_congr {c d : Ctx} (hr : d.regs = c.regs) (hi : d.issue = c.issue) (o : LsOp) :
    (d.post o).regs = (c.post o).regs := by
  unfold Ctx.post Ctx.addP Ctx.note Ctx.setRegs
  rw [hi]
  split <;> simp only [hr]

section
variable (c : Ctx) (o : LsOp) (n : Nat) (reads : List RegId) (addrs : List Nat) (out : List (List Byte × Bool))

theorem Ctx.stored_stores : (c.stored o n reads addrs out).stores = c.stores ++ laneStores addrs out := by
  obtain ⟨-, -, hstores⟩ := (c.wait false reads).hold_parts (addrs.any (0x10000 ≤ ·)) o.waits
  exact congrArg (· ++ laneStores addrs out) ((Ctx.post_stores _ o).trans hstores)

/-- Of the registers a store changes the post-modified pointer and the sat bits of the lanes in which a saturation acted. -/
theorem Ctx.stored_regs :
    (c.stored o n reads addrs out).regs = { (c.post o).regs with sat := (c.satLanes (out.map (·.2))).regs.sat } := by
  obtain ⟨hregs, hissue, -⟩ := (c.wait false reads).hold_parts (addrs.any (0x10000 ≤ ·)) o.waits
  have hpost := Ctx.post_regs_congr (c := c)
    (d := ((c.wait false reads).hold (addrs.any (0x10000 ≤ ·)) o.waits).touch addrs n) hregs hissue o
  unfold Ctx.stored Ctx.satLanes Ctx.setRegs
  dsimp only
  rw [hpost, c.post_sat o]

end

/-! ## The outcomes of a store -/

section
variable {s : State} {e : Nat} {user : Bool} {f : Bool → Nat → Ctx → Except Nat Ctx} (hr : (s.engine e).running = some user)
include hr

/-- A count leaves what a slot operation sees. -/
theorem State.bump_slotOp_ok {d : Ctx} (k n : Nat) (hf : f user (s.itemBanks e user) ((s.engine e).ctx user) = .ok d) :
    (s.bump k n).slotOp e f = (s.bump k n).putSlot e user d := State.slotOp_ok (s := s.bump k n) hr hf

theorem State.bump_slotOp_error {cause : Nat} (k n : Nat)
    (hf : f user (s.itemBanks e user) ((s.engine e).ctx user) = .error cause) :
    (s.bump k n).slotOp e f = (s.bump k n).hzFault e cause := State.slotOp_error (s := s.bump k n) hr hf

end

section
variable {s : State} {e n : Nat} {user scalar acc : Bool} {o : LsOp} {reads : List RegId} {f : Regs → Nat → List Byte × Bool}
  {i : Instr} (hr : (s.engine e).running = some user) (hi : exec i s = .next (s.store e o n scalar acc reads f))
include hr hi

/-- A store counts its saturations where it faults neither on its register nor on its addresses, and is a slot operation then. -/
theorem exec_store {ok : Bool}
    (hok : ((((s.engine e).ctx user).accessAddrs o n scalar).all fun a => accessOk user (s.itemBanks e user) a n) = ok) :
    let addrs := ((s.engine e).ctx user).accessAddrs o n scalar
    let out := (List.range addrs.length).map (f ((s.engine e).ctx user).issue)
    exec i s = .next ((s.bump 0x410005 (if (ok && !(acc && decide (2 ≤ o.reg))) = true then out.countP (·.2) else 0)).slotOp e
      fun _ _ c => if (acc && decide (2 ≤ o.reg)) = true then .error 2 else if ok = false then .error 4
        else .ok (c.stored o n (addrRegs o scalar ++ reads) addrs out)) := by
  subst hok
  rw [hi]
  unfold State.store
  dsimp only
  rw [hr]
  rfl

theorem exec_store_noAccumulator (ha : acc = true) (hreg : 2 ≤ o.reg) : exec i s = .next ((s.bump 0x410005 0).hzFault e 2) := by
  have hno : (acc && decide (2 ≤ o.reg)) = true := Bool.and_eq_true_iff.2 ⟨ha, decide_eq_true hreg⟩
  rw [exec_store hr hi rfl, hno, Bool.not_true, Bool.and_false]
  exact congrArg Host.Outcome.next (State.bump_slotOp_error hr _ _ rfl)

variable (hacc : acc = true → o.reg < 2)
include hacc

theorem exec_store_denied
    (hno : ∃ a ∈ ((s.engine e).ctx user).accessAddrs o n scalar, accessOk user (s.itemBanks e user) a n = false) :
    exec i s = .next ((s.bump 0x410005 0).hzFault e 4) := by
  rw [exec_store hr hi (State.not_all_accessOk hno), Bool.false_and]
  exact congrArg Host.Outcome.next (State.bump_slotOp_error hr _ _ (if_neg (accumulator_named hacc)))

theorem exec_store_completes (hok : s.Accessible e user n (((s.engine e).ctx user).accessAddrs o n scalar)) :
    let c := (s.engine e).ctx user
    let addrs := c.accessAddrs o n scalar
    let out := (List.range addrs.length).map (f c.issue)
    exec i s = .next ((s.bump 0x410005 (out.countP (·.2))).putSlot e user
      (c.stored o n (addrRegs o scalar ++ reads) addrs out)) := by
  intro c addrs out
  have hcount : (true && !(acc && decide (2 ≤ o.reg))) = true := by
    rw [Bool.eq_false_iff.2 (accumulator_named hacc)]
    rfl
  rw [exec_store hr hi (State.all_accessOk hok), if_pos hcount]
  exact congrArg Host.Outcome.next (State.bump_slotOp_ok hr _ _ ((if_neg (accumulator_named hacc)).trans rfl))

end

/-- Settles O37: each store is the shared store at its size and with its bytes, which faults or completes as the three `exec_store_`
lemmas say; what it leaves is `stored_stores` and `stored_regs`. -/
theorem hazelStoresComplete : Obligations.HazelStoresComplete := by
  unfold Obligations.HazelStoresComplete
  intro s e user hr c banks
  refine ⟨?_, ?_⟩
  · intro x hx o z addrs out
    have hi : ∃ reads, exec (x.1 e o) s = .next (s.store e o x.2.1 false x.2.2.1 reads fun r i => x.2.2.2 r o.reg i) := by
      simp only [List.mem_cons, List.not_mem_nil, or_false] at hx
      obtain rfl | rfl | rfl | rfl | rfl | rfl | rfl := hx <;> dsimp only <;> exact ⟨_, rfl⟩
    obtain ⟨reads, hi⟩ := hi
    refine ⟨exec_store_noAccumulator hr hi, exec_store_denied hr hi, fun hacc hok => ?_⟩
    have hdone := exec_store_completes hr hi hacc hok
    exact ⟨_, hdone, Ctx.stored_stores _ _ _ _ _ _, Ctx.stored_regs _ _ _ _ _ _⟩
  · intro o a
    have hi : exec (.hzSts e o) s =
      .next (s.store e o 4 true false [.d o.reg] fun r _ => (le 4 (toU 32 (r.lane o.reg 0)), false)) := rfl
    have hd : false = true → o.reg < 2 := fun h => absurd h Bool.false_ne_true
    refine ⟨fun hno => exec_store_denied hr hi hd ⟨a, .head _, hno⟩, fun hone => ?_⟩
    have hok : s.Accessible e user 4 [a] := List.forall_mem_singleton.2 hone
    have hdone := exec_store_completes hr hi hd hok
    refine ⟨_, hdone, ?_, ?_⟩
    · rw [Ctx.stored_stores]
      exact congrArg (c.stores ++ ·) (List.append_nil _)
    · have hsat : { (c.post o).regs with sat := c.regs.sat } = (c.post o).regs := by rw [← c.post_sat o]
      exact (Ctx.stored_regs _ _ _ _ _ _).trans hsat

end Sys2Proof.Machine
end

section
/-! SUPPORT. The bundle encoding of Hazel (R221, Table 10-3) and the end of a bundle (R218, R222): the illegal words, and what the waiting
stores leave in memory. -/

namespace Sys2Proof.Machine

open Sys2Proof

/-! ## Illegal bundles (Tables 10-3 to 10-7) -/

theorem bits_lt (n hi lo : Nat) : bits n hi lo < 2 ^ (hi + 1 - lo) := Nat.mod_lt _ (Nat.two_pow_pos _)

/-- The bits of a field are those of the word. -/
theorem bits_bits {n hi lo h l : Nat} (hh : lo + h ≤ hi) (hl : l ≤ h) : bits (bits n hi lo) h l = bits n (lo + h) (lo + l) := by
  have hsplit : 2 ^ (hi + 1 - lo) = 2 ^ l * 2 ^ (hi + 1 - lo - l) := by
    rw [← Nat.pow_add]
    congr 1
    omega
  have hwidth : lo + h + 1 - (lo + l) = h + 1 - l := by omega
  have hdvd : 2 ^ (h + 1 - l) ∣ 2 ^ (hi + 1 - lo - l) := Nat.pow_dvd_pow 2 (by omega)
  unfold bits
  rw [hsplit, Nat.mod_mul_right_div_self, Nat.mod_mod_of_dvd _ hdvd, Nat.div_div_eq_div_mul, ← Nat.pow_add, hwidth]

theorem macSlot_none (e w : Nat) : macSlot e w = none ↔ 0x1C ≤ bits w 15 11 := by
  have hlt : bits w 15 11 < 2 ^ 5 := bits_lt w 15 11
  unfold macSlot
  generalize bits w 15 11 = op at *
  dsimp only
  split
  case h_29 => exact ⟨fun _ => by grind, fun _ => rfl⟩
  all_goals exact ⟨fun h => absurd h (Option.some_ne_none _), fun h => absurd h (by decide)⟩

theorem ldstSlot_none (e : Nat) (slot1 : Bool) (w : Nat) : ldstSlot e slot1 w = none ↔ bits w 11 8 = 7 := by
  have hlt : bits w 11 8 < 2 ^ 4 := bits_lt w 11 8
  unfold ldstSlot
  generalize bits w 11 8 = op at *
  dsimp only
  split
  case h_16 => exact ⟨fun _ => by grind, fun _ => rfl⟩
  all_goals exact ⟨fun h => absurd h (Option.some_ne_none _), fun h => absurd h (by decide)⟩

theorem controlSlot_none (e t w : Nat) : controlSlot e t w = none ↔ bits w 63 61 = 6 := by
  have hlt : bits w 63 61 < 2 ^ 3 := bits_lt w 63 61
  unfold controlSlot
  generalize bits w 63 61 = op at *
  dsimp only
  split
  case h_8 => exact ⟨fun _ => by grind, fun _ => rfl⟩
  all_goals exact ⟨fun h => absurd h (Option.some_ne_none _), fun h => absurd h (by decide)⟩

theorem bundleSlots_none (e t w : Nat) : bundleSlots e t w = none ↔
    bits w 63 61 = 6 ∨ bits w 39 36 = 7 ∨ bits w 27 24 = 7 ∨ 0x1C ≤ bits w 15 11 := by
  have h0 : bits (bits w 27 16) 11 8 = bits w 27 24 := bits_bits (by omega) (by omega)
  have h1 : bits (bits w 39 28) 11 8 = bits w 39 36 := bits_bits (by omega) (by omega)
  rw [← controlSlot_none e t, ← h0, ← h1, ← ldstSlot_none e false (bits w 27 16), ← ldstSlot_none e true (bits w 39 28),
    ← macSlot_none e]
  unfold bundleSlots
  cases macSlot e w with
  | none => simp
  | some m =>
    cases ldstSlot e false (bits w 27 16) with
    | none => simp
    | some a =>
      cases ldstSlot e true (bits w 39 28) with
      | none => simp
      | some b => cases controlSlot e t w <;> simp

/-! ## Data memory after one byte (R218) -/

/-- An address that Table 10-2 or a Cashew bank can hold. -/
def DataAddr (a : Nat) : Prop := a < 0x10000 ∨ 0x100000 ≤ a

/-- Local addresses of one context have keys of their own. -/
theorem localKey_inj {e : Nat} {user : Bool} {a b : Nat} (ha : a < 0x10000) (hb : b < 0x10000)
    (h : localKey e user a = localKey e user b) : a = b := by
  unfold localKey at h
  split at h <;> split at h <;> omega

/-- The keys of two engines differ. -/
theorem localKey_ne {e f : Nat} {user v : Bool} {a b : Nat} (ha : a < 0x10000) (hb : b < 0x10000) (hf : f ≠ e) :
    localKey f v b ≠ localKey e user a := by
  unfold localKey
  split <;> split <;> omega

section
variable {s : State} {e : Nat} {user : Bool} {a : Nat}

/-- The byte just put is read back. -/
theorem State.hzByte_hzPutByte_self (hs : s.Sound) (b : Byte) : (s.hzPutByte e user a b).hzByte e user a = b := by
  unfold State.hzPutByte State.hzByte
  split
  · exact sget_sput_self memZero s.hz.local_ _ b hs.data
  · exact sget_sput_self memZero s.mem.cashew _ b hs.cashew

/-- A byte at another address of the context reads as before. -/
theorem State.hzByte_hzPutByte_of_ne {a' : Nat} (ha : DataAddr a) (ha' : DataAddr a') (h : a' ≠ a) (b : Byte) :
    (s.hzPutByte e user a b).hzByte e user a' = s.hzByte e user a' := by
  unfold DataAddr at ha ha'
  unfold State.hzPutByte State.hzByte
  by_cases hl : a < 0x10000
  · rw [if_pos hl]
    by_cases hl' : a' < 0x10000
    · rw [if_pos hl', if_pos hl']
      exact sget_sput_of_ne memZero b (fun k => h (localKey_inj hl' hl k)) s.hz.local_
    · rw [if_neg hl', if_neg hl']
  · rw [if_neg hl]
    split
    · rfl
    · exact sget_sput_of_ne memZero b (by omega) s.mem.cashew

/-- A byte of another engine's local memory reads as before. -/
theorem State.hzByte_hzPutByte_engine {f a' : Nat} {v : Bool} (hf : f ≠ e) (ha' : a' < 0x10000) (b : Byte) :
    (s.hzPutByte e user a b).hzByte f v a' = s.hzByte f v a' := by
  unfold State.hzPutByte State.hzByte
  rw [if_pos ha', if_pos ha']
  split
  · next ha => exact sget_sput_of_ne memZero b (localKey_ne ha ha' hf) s.hz.local_
  · rfl

end

/-! ## The end of a bundle (R222, R226) -/

/-- The stores of a bundle reach memory, in order. -/
def State.putStores (s : State) (e : Nat) (user : Bool) (l : List (Nat × Byte)) : State :=
  l.foldl (fun s x => s.hzPutByte e user x.1 x.2) s

theorem State.putStores_append (s : State) (e : Nat) (user : Bool) (l : List (Nat × Byte)) (x : Nat × Byte) :
    s.putStores e user (l ++ [x]) = (s.putStores e user l).hzPutByte e user x.1 x.2 := by
  rw [State.putStores, List.foldl_append]
  rfl

theorem State.putStores_sound {s : State} (hs : s.Sound) (e : Nat) (user : Bool) (l : List (Nat × Byte)) :
    (s.putStores e user l).Sound :=
  (Kept.foldl (fun _ x h => State.hzPutByte_kept h e user x.1 x.2) l (Kept.self hs)).toSound

/-- A byte of the context reads what the last store to it put, or as before; the stores stand newest first. -/
theorem State.hzByte_putStores_reverse {s : State} (hs : s.Sound) (e : Nat) (user : Bool) {a : Nat} (ha : DataAddr a)
    (l : List (Nat × Byte)) (hl : ∀ x ∈ l, DataAddr x.1) :
    (s.putStores e user l.reverse).hzByte e user a =
      ((l.find? fun x => decide (x.1 = a)).map (·.2)).getD (s.hzByte e user a) := by
  induction l with
  | nil => rfl
  | cons x l ih =>
    have hx : DataAddr x.1 := hl x (.head _)
    have ih' := ih fun y hy => hl y (.tail _ hy)
    rw [List.reverse_cons, State.putStores_append, List.find?_cons]
    by_cases hxa : x.1 = a
    · subst hxa
      rw [State.hzByte_hzPutByte_self (State.putStores_sound hs e user l.reverse), decide_eq_true rfl]
      rfl
    · rw [State.hzByte_hzPutByte_of_ne hx ha (Ne.symm hxa), ih', decide_eq_false hxa]

theorem State.hzByte_putStores {s : State} (hs : s.Sound) (e : Nat) (user : Bool) {a : Nat} (ha : DataAddr a)
    (l : List (Nat × Byte)) (hl : ∀ x ∈ l, DataAddr x.1) :
    (s.putStores e user l).hzByte e user a =
      ((l.reverse.find? fun x => decide (x.1 = a)).map (·.2)).getD (s.hzByte e user a) := by
  have h := State.hzByte_putStores_reverse hs e user ha l.reverse fun x hx => hl x (List.mem_reverse.1 hx)
  rwa [List.reverse_reverse] at h

theorem State.hzByte_putStores_engine (s : State) {e f : Nat} (user v : Bool) {a : Nat} (hf : f ≠ e) (ha : a < 0x10000)
    (l : List (Nat × Byte)) : (s.putStores e user l).hzByte f v a = s.hzByte f v a :=
  List.foldlRecOn (motive := fun u : State => u.hzByte f v a = s.hzByte f v a) l _ rfl fun _ hu x _ =>
    (State.hzByte_hzPutByte_engine hf ha x.2).trans hu

theorem State.putStores_engines (s : State) (e : Nat) (user : Bool) (l : List (Nat × Byte)) :
    (s.putStores e user l).hz.engines = s.hz.engines := by
  refine List.foldlRecOn (motive := fun u : State => u.hz.engines = s.hz.engines) l _ rfl fun u hu x _ => ?_
  unfold State.hzPutByte
  split <;> exact hu

/-- A context whose bundle has ended, with the next bundle and the loop levels then open. -/
def Ctx.endBundle (c : Ctx) (pc : Nat) (loops : List LoopLevel) (extra : Nat) : Ctx :=
  let issued := max c.cycle c.stall
  let fresh := c.writes.map fun w => (w.1, issued + w.2.1, issued + w.2.2)
  { c with
    issue := c.regs, pc := pc, loops := loops, cycle := issued + 1 + bankStall c.banks + extra, stall := 0
    ready := (c.ready.filter fun r => !(fresh.any fun f => decide (f.1 = r.1))) ++ fresh.reverse
    writes := [], stores := [], banks := [] }

/-- The end of a bundle: its stores reach memory, and its context goes on. -/
theorem State.commitBundle_eq (s : State) (e : Nat) (user : Bool) (pc : Nat) (loops : List LoopLevel) (extra : Nat) :
    s.commitBundle e user pc loops extra = (s.putStores e user ((s.engine e).ctx user).stores).setEngine e fun g =>
      { g.setCtx user (((s.engine e).ctx user).endBundle pc loops extra) with mid := false } := rfl

theorem Engine.ctx_setCtx (g : Engine) (user : Bool) (c : Ctx) : (g.setCtx user c).ctx user = c := by
  cases user <;> rfl

/-- The engine after the end of a bundle. -/
theorem State.engine_commitBundle {s : State} {e : Nat} (he : e < s.hz.engines.length) (user : Bool) (pc : Nat)
    (loops : List LoopLevel) (extra : Nat) : (s.commitBundle e user pc loops extra).engine e =
      { (s.engine e).setCtx user (((s.engine e).ctx user).endBundle pc loops extra) with mid := false } := by
  have hput := s.putStores_engines e user ((s.engine e).ctx user).stores
  rw [State.commitBundle_eq, State.engine_setEngine_self (by rwa [hput]), State.engine_of_engines hput]

theorem State.ctx_commitBundle {s : State} {e : Nat} (he : e < s.hz.engines.length) (user : Bool) (pc : Nat)
    (loops : List LoopLevel) (extra : Nat) : ((s.commitBundle e user pc loops extra).engine e).ctx user =
      ((s.engine e).ctx user).endBundle pc loops extra := by
  rw [State.engine_commitBundle he]
  exact Engine.ctx_setCtx _ _ _

/-- Settles O38: Table 10-14's words are evaluated, `bundleSlots_none` names the words that spell no bundle, and the end of a bundle is
`putStores` on memory and `endBundle` on the context. -/
theorem hazelBundleStores : Obligations.HazelBundleStores := by
  unfold Obligations.HazelBundleStores
  refine ⟨?_, bundleSlots_none, ?_⟩
  · intro e t p0 p1 m n o
    exact ⟨rfl, rfl, rfl, rfl, rfl, rfl, rfl, rfl, rfl, rfl, rfl⟩
  · intro s e user pc loops extra hs he c hstores u
    have hctx : (u.engine e).ctx user = c.endBundle pc loops extra := State.ctx_commitBundle (by rwa [hs.engines]) user pc loops extra
    refine ⟨fun a ha => State.hzByte_putStores hs e user ha c.stores hstores, fun f v a hf _ ha =>
      s.hzByte_putStores_engine user v hf ha c.stores, ?_⟩
    rw [hctx]
    exact ⟨rfl, rfl, rfl, rfl⟩

end Sys2Proof.Machine
end

section
/-! SUPPORT. The control slot of Hazel (R227 to R229, R234, R239, Table 10-4): where a bundle goes on, the loop levels, and the end of an
item. -/

namespace Sys2Proof.Machine

open Sys2Proof

/-! ## The context that runs -/

/-- Only one of the engines runs a context. -/
theorem State.lt_of_running {s : State} {e : Nat} {user : Bool} (hr : (s.engine e).running = some user) :
    e < s.hz.engines.length := by
  refine Nat.lt_of_not_le fun he => ?_
  have hidle : s.engine e = Engine.idle := by
    rw [State.engine, List.getD_eq_getElem?_getD, List.getElem?_eq_none he, Option.getD_none]
  rw [hidle] at hr
  exact absurd hr (Option.some_ne_none user).symm

theorem State.engine_putCtx {s : State} {e : Nat} (he : e < s.hz.engines.length) (user : Bool) (c : Ctx) :
    (s.putCtx e user c).engine e = (s.engine e).setCtx user c := State.engine_setEngine_self he _

theorem Engine.setCtx_userItem (g : Engine) (user : Bool) (c : Ctx) : (g.setCtx user c).userItem = g.userItem := by
  cases user <;> rfl

/-! ## Where a bundle goes on (R227, R240) -/

/-- A bundle that goes on inside its program region, within the budget of a user item, just ends. -/
theorem State.goOn_completes {s : State} {e pc extra : Nat} {user : Bool} {c : Ctx} {loops : List LoopLevel}
    (he : e < s.hz.engines.length) (hc : (s.engine e).ctx user = c) (hp : inProgram user pc = true)
    (hb : s.InBudget e user c extra) : s.goOn e user pc loops extra = s.commitBundle e user pc loops extra := by
  subst hc
  have hcycle := congrArg Ctx.cycle (State.ctx_commitBundle he user pc loops extra)
  have hitem : ((s.commitBundle e user pc loops extra).engine e).userItem = (s.engine e).userItem := by
    rw [State.engine_commitBundle he]
    exact Engine.setCtx_userItem _ _ _
  unfold State.goOn
  dsimp only
  rw [if_neg (ne_false_of_eq_true hp), hitem]
  cases user with
  | false => rfl
  | true =>
    cases hu : (s.engine e).userItem with
    | none => rfl
    | some it =>
      refine if_neg (Nat.not_lt.2 ?_)
      exact Nat.le_trans (Nat.le_of_eq hcycle) (hb it rfl hu)

/-- The same after the context has waited for what its control slot reads. -/
theorem State.goOn_putCtx {s : State} {e pc extra : Nat} {user : Bool} {c : Ctx} {loops : List LoopLevel}
    (he : e < s.hz.engines.length) (hp : inProgram user pc = true) (hb : s.InBudget e user c extra) :
    (s.putCtx e user c).goOn e user pc loops extra = (s.putCtx e user c).commitBundle e user pc loops extra := by
  have hg := State.engine_putCtx he user c
  refine State.goOn_completes (c := c) (by rwa [State.putCtx, State.setEngine_engines_length]) ?_ hp fun it hu hi => hb it hu ?_
  · rw [hg]
    exact Engine.ctx_setCtx _ _ _
  · rwa [hg, Engine.setCtx_userItem] at hi

section
variable {s : State} {e : Nat} {user : Bool} (hr : (s.engine e).running = some user)
include hr

theorem State.ctlPlain_eq :
    let n := afterBundle ((s.engine e).ctx user).pc ((s.engine e).ctx user).loops
    s.ctlPlain e = s.goOn e user n.1 n.2 0 := by
  unfold State.ctlPlain
  dsimp only
  rw [hr]

/-! ## Jumps (R229) -/

/-- A jump that is taken goes to its target, away from the end of an open body. -/
theorem State.ctlJump_taken {target : Nat} {reads : List RegId} {taken : Ctx → Bool} :
    let c := ((s.engine e).ctx user).wait false reads
    c.atEnd = false → taken c = true → inProgram user target = true → s.InBudget e user c 2 →
      s.ctlJump e target reads taken = (s.putCtx e user c).commitBundle e user target (keepLevels target c.loops) 2 := by
  intro c hend ht hp hb
  unfold State.ctlJump
  dsimp only
  rw [hr]
  exact (if_neg (ne_true_of_eq_false hend)).trans ((if_pos ht).trans (State.goOn_putCtx (State.lt_of_running hr) hp hb))

theorem State.ctlJump_notTaken {target : Nat} {reads : List RegId} {taken : Ctx → Bool} :
    let c := ((s.engine e).ctx user).wait false reads
    let n := afterBundle c.pc c.loops
    c.atEnd = false → taken c = false → inProgram user n.1 = true → s.InBudget e user c 0 →
      s.ctlJump e target reads taken = (s.putCtx e user c).commitBundle e user n.1 n.2 0 := by
  intro c n hend ht hp hb
  unfold State.ctlJump
  dsimp only
  rw [hr]
  exact (if_neg (ne_true_of_eq_false hend)).trans
    ((if_neg (ne_true_of_eq_false ht)).trans (State.goOn_putCtx (State.lt_of_running hr) hp hb))

end

/-! ## Loops (R227, R228) -/

/-- What makes a loop to the end bundle `last` illegal. -/
def State.IllegalLoop (s : State) (e : Nat) (user : Bool) (c : Ctx) (last : Nat) : Prop :=
  c.atEnd = true ∨ last ≤ c.pc ∨ inProgram user last = false ∨ (∃ l ∈ c.loops.head?, l.last < last) ∨ 4 ≤ c.loops.length ∨
    (s.controlOp e last ≠ 0 ∧ s.controlOp e last ≠ 5)

theorem State.not_illegalLoop {s : State} {e last : Nat} {user : Bool} {c : Ctx} (hend : c.atEnd = false) (hlast : c.pc < last)
    (hin : inProgram user last = true) (houter : ∀ l ∈ c.loops.head?, last ≤ l.last) (hfour : c.loops.length < 4)
    (hop : s.controlOp e last = 0 ∨ s.controlOp e last = 5) : ¬ s.IllegalLoop e user c last := by
  rintro (h | h | h | ⟨l, hl, h⟩ | h | ⟨h0, h5⟩)
  · exact Bool.false_ne_true (hend.symm.trans h)
  · omega
  · exact Bool.false_ne_true (h.symm.trans hin)
  · exact absurd (houter l hl) (Nat.not_le.2 h)
  · omega
  · exact hop.elim h0 h5

/-- The context that LOOP leaves: it has waited for the loop count of its level. -/
def Ctx.waitCount (c : Ctx) : Ctx := c.wait false [.lc c.loops.length]

section
variable {s : State} {e last : Nat} {user : Bool} (hr : (s.engine e).running = some user)
include hr

theorem State.ctlLoop_illegal (h : s.IllegalLoop e user ((s.engine e).ctx user).waitCount last) :
    s.ctlLoop e last = (s.putCtx e user ((s.engine e).ctx user).waitCount).hzFault e 3 := by
  unfold State.ctlLoop
  dsimp only
  rw [hr]
  refine if_pos ?_
  obtain h | h | h | ⟨l, hl, h⟩ | h | h := h
  · exact .inl h
  · exact .inr (.inl h)
  · exact .inr (.inr (.inl h))
  · obtain ⟨r, hloops⟩ := List.head?_eq_some_iff.1 hl
    refine .inr (.inr (.inr (.inl ?_)))
    rw [← Ctx.waitCount, hloops]
    exact decide_eq_true h
  · exact .inr (.inr (.inr (.inr (.inl h))))
  · exact .inr (.inr (.inr (.inr (.inr (not_or.2 h)))))

/-- A legal loop opens a level at the next bundle, or skips its body where its count is 0. -/
theorem State.ctlLoop_legal (h : ¬ s.IllegalLoop e user ((s.engine e).ctx user).waitCount last) :
    let c := ((s.engine e).ctx user).waitCount
    let n := (c.issue.lc.getD c.loops.length 0).toNat
    s.ctlLoop e last =
      if n = 0 then (s.putCtx e user c).goOn e user (afterBundle last c.loops).1 (afterBundle last c.loops).2 0
      else (s.putCtx e user c).goOn e user (c.pc + 1) (⟨c.pc + 1, last, n⟩ :: c.loops) 0 := by
  intro c n
  unfold State.ctlLoop
  dsimp only
  rw [hr]
  refine if_neg fun k => h ?_
  obtain k | k | k | k | k | k := k
  · exact .inl k
  · exact .inr (.inl k)
  · exact .inr (.inr (.inl k))
  · refine .inr (.inr (.inr (.inl ?_)))
    split at k
    · next l r hloops => exact ⟨l, List.head?_eq_some_iff.2 ⟨r, hloops⟩, of_decide_eq_true k⟩
    · exact absurd k Bool.false_ne_true
  · exact .inr (.inr (.inr (.inr (.inl k))))
  · exact .inr (.inr (.inr (.inr (.inr (not_or.1 k)))))

end

/-! ## The end of an item (R229, R232, R239) -/

section
variable {s : State} {e : Nat} {it : Item}

/-- END of a library item. -/
theorem State.ctlEnd_library (hr : (s.engine e).running = some false) (hi : (s.engine e).item = some it)
    (hend : ((s.engine e).ctx false).atEnd = false) : s.ctlEnd e =
      (((s.commitBundle e false ((s.engine e).ctx false).pc [] 0).setEngine e fun g => { g with item := none }).libraryEnd
        it).dispatch e := by
  unfold State.ctlEnd
  dsimp only
  rw [hr]
  dsimp only
  rw [if_neg (ne_true_of_eq_false hend), hi]

/-- END of a user item within its budget. -/
theorem State.ctlEnd_user (hr : (s.engine e).running = some true) (hi : (s.engine e).userItem = some it)
    (hend : ((s.engine e).ctx true).atEnd = false) (hb : s.InBudget e true ((s.engine e).ctx true) 0) :
    s.ctlEnd e = (s.commitBundle e true ((s.engine e).ctx true).pc [] 0).endUser e it := by
  have hcycle := congrArg Ctx.cycle (State.ctx_commitBundle (State.lt_of_running hr) true ((s.engine e).ctx true).pc [] 0)
  unfold State.ctlEnd
  dsimp only
  rw [hr]
  dsimp only
  rw [if_neg (ne_true_of_eq_false hend), hi]
  refine if_neg (Nat.not_lt.2 ?_)
  exact Nat.le_trans (Nat.le_of_eq hcycle) (hb it rfl hi)

/-- A user item without an outbox just leaves. -/
theorem State.endUser_none (h : s.paramWord e true 15 = 0) : s.endUser e it = s.leaveUser e := if_pos h

theorem State.endUser_invalid (h : 4096 < s.paramWord e true 15 ∨ s.paramWord e true 15 % 4 ≠ 0) :
    s.endUser e it = s.userFault e 8 := by
  have h0 : s.paramWord e true 15 ≠ 0 := by omega
  exact (if_neg h0).trans (if_pos h)

/-- Leaving its engine, a user item changes neither the queues nor the power state. -/
theorem State.leaveUser_offers (s : State) (e q n : Nat) :
    (s.leaveUser e).queuesLive = s.queuesLive ∧ (s.leaveUser e).fits q n = s.fits q n := by
  have h : Same (2097152 + 128) s (s.leaveUser e) := State.leaveUser_same rfl (.self _ s) e
  have hpower : (s.leaveUser e).pw.power = s.pw.power := (congrArg Power.power (h.parts .pw rfl) :)
  have hqu : (s.leaveUser e).qu = s.qu := h.parts .qu rfl
  unfold State.queuesLive State.fits State.queue
  rw [hpower, hqu]
  exact ⟨rfl, rfl⟩

/-- A user item with an outbox leaves, and its record is accepted where its queue has room. -/
theorem State.endUser_sends {n : Nat} (hn : s.paramWord e true 15 = n) (h0 : 0 < n) (hmax : n ≤ 4096) (h4 : n % 4 = 0)
    (hl : s.queuesLive = true) (hf : s.fits it.queue n = true) :
    s.endUser e it = (s.leaveUser e).accept it.queue
      { typ := 7, sweep := it.sweep, stamp := it.stamp, olen := n
        payload := (List.range n).map fun i => s.hzByte e true (0xE000 + i) } := by
  subst hn
  obtain ⟨hlive, hfits⟩ := s.leaveUser_offers e it.queue (s.paramWord e true 15)
  refine (if_neg (by omega)).trans ((if_neg (by omega)).trans (State.offer_accepted (hlive.trans hl) ?_))
  rw [List.length_map, List.length_range]
  exact hfits.trans hf

end

/-! ## Faults (R234, R240) -/

/-- A fault of the library context halts the engine at the kernel that runs. -/
theorem State.hzFault_library {s : State} {e : Nat} {it : Item} (hr : (s.engine e).running = some false)
    (hi : (s.engine e).item = some it) (cause : Nat) : s.hzFault e cause = s.halt e cause it.kernel := by
  unfold State.hzFault
  dsimp only
  rw [hr, Engine.kernel, hi]
  rfl

theorem State.hzFault_user {s : State} {e : Nat} (hr : (s.engine e).running = some true) (cause : Nat) :
    s.hzFault e cause = s.userFault e cause := by
  unfold State.hzFault
  dsimp only
  rw [hr]

/-- Settles O34: a control slot goes on by `goOn` inside its region and budget, from `ctlPlain_eq`, `ctlJump_taken`,
`ctlJump_notTaken` and `ctlLoop_legal`; an END is `ctlEnd_library` or `ctlEnd_user`, and what is illegal is a fault. -/
theorem hazelControlComplete : Obligations.HazelControlComplete := by
  unfold Obligations.HazelControlComplete
  refine ⟨?_, ?_, ?_, ?_, ?_, ?_, ?_, ?_, ?_, ?_, ?_, ?_⟩
  · intro s e user hr c n hp hb
    refine congrArg Host.Outcome.next ((State.ctlPlain_eq hr).trans ?_)
    exact State.goOn_completes (State.lt_of_running hr) rfl hp hb
  · intro s e marker user hr c n hp hb
    refine (if_pos (Option.isSome_iff_exists.2 ⟨user, hr⟩)).trans (congrArg Host.Outcome.next ?_)
    refine (State.ctlPlain_eq (s := s.os _ _) hr).trans ?_
    exact State.goOn_completes (State.lt_of_running hr) rfl hp hb
  · intro s e last user hr c n hend hlast hin houter hfour hop hn hp hb
    have hlegal : ¬ s.IllegalLoop e user c last := State.not_illegalLoop hend hlast hin houter hfour hop
    refine congrArg Host.Outcome.next ((State.ctlLoop_legal hr hlegal).trans ((if_neg hn).trans ?_))
    exact State.goOn_putCtx (State.lt_of_running hr) hp hb
  · intro s e last user hr c n hend hlast hin houter hfour hop hn hp hb
    have hlegal : ¬ s.IllegalLoop e user c last := State.not_illegalLoop hend hlast hin houter hfour hop
    refine congrArg Host.Outcome.next ((State.ctlLoop_legal hr hlegal).trans ((if_pos hn).trans ?_))
    exact State.goOn_putCtx (State.lt_of_running hr) hp hb
  · intro s e last user hr c h
    exact congrArg Host.Outcome.next (State.ctlLoop_illegal hr h)
  · intro s e target user hr c hend hp hb
    exact congrArg Host.Outcome.next (State.ctlJump_taken hr hend rfl hp hb)
  · intro s e target user hr c n hend hp hb
    by_cases h : true ∈ c.issue.pred
    · have hn : n = (target, keepLevels target c.loops, 2) := if_pos h
      have ht : c.issue.pred.any id = true := List.any_eq_true.2 ⟨true, h, rfl⟩
      rw [hn] at hp hb ⊢
      exact congrArg Host.Outcome.next (State.ctlJump_taken hr hend ht hp hb)
    · have hn : n = ((afterBundle c.pc c.loops).1, (afterBundle c.pc c.loops).2, 0) := if_neg h
      have ht : c.issue.pred.any id = false := List.any_eq_false.2 fun x hx hxt => h ((show x = true from hxt) ▸ hx)
      rw [hn] at hp hb ⊢
      exact congrArg Host.Outcome.next (State.ctlJump_notTaken hr hend ht hp hb)
  · intro s e target user hr c n hend hp hb
    by_cases h : true ∈ c.issue.pred
    · have hn : n = ((afterBundle c.pc c.loops).1, (afterBundle c.pc c.loops).2, 0) := if_pos h
      have ht : c.issue.pred.all (!·) = false := List.all_eq_false.2 ⟨true, h, Bool.false_ne_true⟩
      rw [hn] at hp hb ⊢
      exact congrArg Host.Outcome.next (State.ctlJump_notTaken hr hend ht hp hb)
    · have hn : n = (target, keepLevels target c.loops, 2) := if_neg h
      have ht : c.issue.pred.all (!·) = true := List.all_eq_true.2 fun x hx => by
        cases x with
        | false => rfl
        | true => exact absurd hx h
      rw [hn] at hp hb ⊢
      exact congrArg Host.Outcome.next (State.ctlJump_taken hr hend ht hp hb)
  · intro s e t it hr hi hend
    exact congrArg Host.Outcome.next (State.ctlEnd_library (s := s.at t) hr hi hend)
  · intro s e t it hr hi c w n hend hb
    have hex : exec (.hzEnd e t) s = .next (w.endUser e it) :=
      congrArg Host.Outcome.next (State.ctlEnd_user (s := s.at t) hr hi hend hb)
    refine ⟨fun h0 => ?_, fun hbad => ?_, fun h0 hmax h4 hl hf => ?_⟩
    · rw [hex, State.endUser_none h0]
    · rw [hex, State.endUser_invalid hbad]
    · rw [hex, State.endUser_sends rfl h0 hmax h4 hl hf]
  · intro s e t loop it hr hi
    exact congrArg Host.Outcome.next (State.hzFault_library (s := s.at t) hr hi _)
  · intro s e t loop hr
    exact congrArg Host.Outcome.next (State.hzFault_user (s := s.at t) hr _)

end Sys2Proof.Machine
end

section
/-! SUPPORT. The host writes of Sesame, its captures and Sunflower (R256, R258, R267, R269, R271, R285, R286): what each object's rules
make of a write that they let pass. -/

namespace Sys2Proof.Machine

open Sys2Proof

/-! ## Sequences (R256, R258) -/

/-- An arm that its judgement lets pass waits with the instant it was accepted. -/
theorem seqArm_pass {s : State} {i : Nat} (hstate : (s.seq i).state ≠ 1) (hprog : (s.program i).isSome = true)
    (hlive : s.queuesLive = true) :
    seqArm i s = .ok (s.setSeq i fun q => { q with acts := q.acts ++ [(s.now, true)] }) := by
  refine require_pass ?_
  rw [decide_eq_true hstate, hprog, hlive]
  rfl

theorem seqForce_pass {s : State} {i : Nat} (hstate : (s.seq i).state = 1) :
    seqForce i s = .ok (s.setSeq i fun q => { q with forces := q.forces ++ [s.now] }) :=
  require_pass (decide_eq_true hstate)

theorem exec_hostLine {v : Nat} (hv : v < 256) (s : State) (t c : Nat) :
    exec (.hostLine t c v) s = .next ((s.at t).hostWrite c 0x3800 1 false (le 1 v) fun s => .ok (s.os 0x380001 v)) := by
  show execHostLine t c v s = _
  rw [execHostLine, Nat.mod_eq_of_lt hv]

/-! ## Sunflower (R285, R286) -/

theorem Same.ses_eq {r s : State} (h : Same 262144 r s) : s.ses = r.ses := h.parts .ses rfl

/-- An owner write shows the lines that have ended and, where it changes the owner, closes the probe lines. -/
theorem ownerWrite_eq (v : Nat) (s : State) :
    ownerWrite v s = .ok { s.sunScan.os 0x3C0001 v with
      ses := if v = s.og 0x3C0001 then s.ses else { s.ses with ownerUntil := s.now + 1000 } } := by
  have hses : s.sunScan.ses = s.ses := (State.sunScan_same rfl (.self 262144 s)).ses_eq
  rw [← hses]
  by_cases h : v = s.og 0x3C0001
  · simp only [ownerWrite, if_pos h]
    rfl
  · simp only [ownerWrite, if_neg h, State.os_ses]

theorem exec_ownerWrite {v : Nat} (hv : v < 256) (s : State) (t c : Nat) :
    exec (.ownerWrite t c v) s = .next ((s.at t).hostWrite c 0x3C00 1 false (le 1 v) (ownerWrite v)) := by
  show execOwnerWrite t c v s = _
  rw [execOwnerWrite, Nat.mod_eq_of_lt hv]

/-- An enable of a port that Sunflower owns, with room for a frame, waits for the vertical sync. -/
theorem sunflowerEnable_on {s : State} (howner : s.og 0x3C0001 = 1) (hsize : s.sunV * s.sunPitch ≤ s.og 0x3C0008 * 2 ^ 20)
    (hlive : s.queuesLive = true) :
    sunflowerEnable 1 s =
      .ok { s.os 0x3C0002 1 with sun := { s.sun with startWanted := !s.sun.scanning, stopWanted := false } } := by
  refine (if_pos rfl).trans (require_pass ?_)
  rw [decide_eq_true howner, decide_eq_true hsize, hlive]
  rfl

theorem sunflowerEnable_off (s : State) :
    sunflowerEnable 0 s =
      .ok { s.os 0x3C0002 0 with sun := { s.sun with stopWanted := s.sun.scanning, startWanted := false } } :=
  if_neg Nat.zero_ne_one

/-! ## Captures (R267, R269, R271) -/

theorem captureArm_pass {s : State} {k : Nat} (hrest : s.capState k = 0 ∨ s.capState k = 5) (hlive : s.queuesLive = true)
    (hlen : s.og (ck k 0xE) ≠ 0) (hsec : (s.ladderSec k).isSome = true) :
    captureArm k s = .ok (s.setCap k fun x => { x with arms := x.arms ++ [s.now] }) := by
  refine require_pass ?_
  rw [← Bool.decide_or, decide_eq_true hrest, hlive, decide_eq_true hlen, hsec]
  rfl

/-- Each of the three objects is one that CAPTURE_LENGTH_WRITE writes, and an UNSIGNED32 value is taken as it stands. -/
theorem exec_captureLengthWrite {sub v : Nat} (hsub : sub = 0xE ∨ sub = 0x10 ∨ sub = 0x11) (hv : v < 2 ^ 32) (s : State)
    (t c k : Nat) : exec (.captureLengthWrite t c k sub v) s =
      .next ((s.at t).hostWrite c (0x3900 + k) sub false (le 4 v) (captureLength k sub v)) := by
  show execCaptureLengthWrite t c k sub v s = _
  simp only [execCaptureLengthWrite, if_pos hsub, Nat.mod_eq_of_lt hv]

/-- A post time limit has no rule beside its range (R271). -/
theorem captureLength_limit (s : State) (k v : Nat) :
    captureLength k 0x11 v s = .ok (if s.capState k = 0 ∨ s.capState k = 5 then
        ((s.os (ck k 0x11) v).unhold k 0x11).idleCapture k
      else s.setCap k fun x => { x with heldLimit := some v }) := by
  refine (require_pass rfl).trans ?_
  by_cases h : s.capState k = 0 ∨ s.capState k = 5
  · simp only [← Bool.decide_or, decide_eq_true h, if_pos h, if_true]
  · simp only [← Bool.decide_or, decide_eq_false h, if_neg h, Bool.false_eq_true, if_false]
    rfl

/-- A post count of no more than the length to come is taken (R271). -/
theorem captureLength_post {s : State} {k v : Nat} (hlen : v ≤ (s.cap k).heldLen.getD (s.og (ck k 0xE))) :
    captureLength k 0x10 v s = .ok (if s.capState k = 0 ∨ s.capState k = 5 then
        ((s.os (ck k 0x10) v).unhold k 0x10).idleCapture k
      else s.setCap k fun x => { x with heldPost := some v }) := by
  refine (require_pass (decide_eq_true hlen)).trans ?_
  by_cases h : s.capState k = 0 ∨ s.capState k = 5
  · simp only [← Bool.decide_or, decide_eq_true h, if_pos h, if_true]
  · simp only [← Bool.decide_or, decide_eq_false h, if_neg h, Bool.false_eq_true, if_false]
    rfl

/-- The state in which a written length is judged: an idle or done buffer has it, a busy one holds it (R267, R271). -/
def State.tryLength (s : State) (k v : Nat) : State :=
  if s.capState k = 0 ∨ s.capState k = 5 then (s.os (ck k 0xE) v).unhold k 0xE
  else (s.os (ck k 0xF) v).setCap k fun x => { x with heldLen := some v }

/-- A length that the capture region holds, of 0 or of no less than the post count to come, is taken (R267, R271). -/
theorem captureLength_length {s : State} {k v : Nat} (hfit : (s.tryLength k v).capsFit = true)
    (hpost : v = 0 ∨ (s.cap k).heldPost.getD (s.og (ck k 0x10)) ≤ v) :
    captureLength k 0xE v s = .ok (if s.capState k = 0 ∨ s.capState k = 5 then (s.tryLength k v).idleCapture k
      else s.tryLength k v) := by
  have hok : ((s.tryLength k v).capsFit &&
      (decide (v = 0) || decide ((s.cap k).heldPost.getD (s.og (ck k 0x10)) ≤ v))) = true := by
    rw [← Bool.decide_or, decide_eq_true hpost, hfit]
    rfl
  by_cases h : s.capState k = 0 ∨ s.capState k = 5
  · rw [State.tryLength, if_pos h] at hok ⊢
    simp only [captureLength, ← Bool.decide_or, decide_eq_true h, if_pos h, if_true]
    exact require_pass hok
  · rw [State.tryLength, if_neg h] at hok ⊢
    simp only [captureLength, ← Bool.decide_or, decide_eq_false h, if_neg h, Bool.false_eq_true, if_false, if_true]
    exact require_pass hok

/-- Settles O28: every command is a host write whose object's rules, passed, come down to one change of the sequence, the buffer or
the port; the instant of the write is the device's own, and the session is no object that a rule reads. -/
theorem sesameWritesComplete : Obligations.SesameWritesComplete := by
  unfold Obligations.SesameWritesComplete
  refine ⟨?_, ?_, ?_, ?_, ?_, ?_, ?_, ?_, ?_, ?_, ?_, ?_⟩
  · intro s t c i hacc hstate hprog hlive
    rw [← State.at_now]
    exact congrArg Host.Outcome.next
      (State.hostWrite_ok hacc (seqArm_pass (s := (s.at t).renew c) hstate hprog hlive))
  · intro s t c i hacc
    rw [← State.at_now]
    exact congrArg Host.Outcome.next (State.hostWrite_ok hacc rfl)
  · intro s t c i hacc hstate
    rw [← State.at_now]
    exact congrArg Host.Outcome.next (State.hostWrite_ok hacc (seqForce_pass (s := (s.at t).renew c) hstate))
  · intro s t c v hacc hv
    exact (exec_hostLine hv s t c).trans (congrArg Host.Outcome.next (State.hostWrite_ok hacc rfl))
  · intro s t c v hacc hv
    have howner : s.og 0x3C0001 = ((s.at t).renew c).og 0x3C0001 := ((s.at t).og_renew_of_ne c (by decide)).symm
    rw [← State.at_now, howner]
    exact (exec_ownerWrite hv s t c).trans
      (congrArg Host.Outcome.next (State.hostWrite_ok hacc (ownerWrite_eq v ((s.at t).renew c))))
  · intro s t c hacc howner hsize hlive
    refine congrArg Host.Outcome.next
      (State.hostWrite_ok hacc (sunflowerEnable_on (s := (s.at t).renew c) ?_ ?_ hlive))
    · rw [State.og_renew_of_ne _ _ (by decide)]
      exact howner
    · rw [State.og_renew_of_ne _ _ (by decide)]
      exact hsize
  · intro s t c hacc
    exact congrArg Host.Outcome.next (State.hostWrite_ok hacc (sunflowerEnable_off ((s.at t).renew c)))
  · intro s t c k hacc w hrest hlive hlen hsec
    rw [← State.at_now]
    exact congrArg Host.Outcome.next
      (State.hostWrite_ok hacc (captureArm_pass (s := (s.at t).renew c) hrest hlive hlen hsec))
  · intro s t c k hacc
    rw [← State.at_now]
    exact congrArg Host.Outcome.next (State.hostWrite_ok hacc rfl)
  · intro s t c k v hv hacc
    exact (exec_captureLengthWrite (.inr (.inr rfl)) hv s t c k).trans
      (congrArg Host.Outcome.next (State.hostWrite_ok hacc (captureLength_limit ((s.at t).renew c) k v)))
  · intro s t c k v hv hacc w hlen
    exact (exec_captureLengthWrite (.inr (.inl rfl)) hv s t c k).trans
      (congrArg Host.Outcome.next (State.hostWrite_ok hacc (captureLength_post (s := (s.at t).renew c) hlen)))
  · intro s t c k v hv hacc w u hfit hpost
    exact (exec_captureLengthWrite (.inl rfl) hv s t c k).trans
      (congrArg Host.Outcome.next (State.hostWrite_ok hacc (captureLength_length (s := (s.at t).renew c) hfit hpost)))

end Sys2Proof.Machine
end

section
/-! SUPPORT. Sesame at an evaluation instant (R242, R248, R250, R253 to R259, R265): the timers, the sequences, the zones and the TRIG_IN
pins after what one instant or one edge does to them. -/

namespace Sys2Proof.Machine

open Sys2Proof

/-! ## Sequences and zones -/

/-- Entry i, where there is one, reads after a change of it as its image. -/
theorem getD_modAt_self {α : Type} {l : List α} {i : Nat} (hi : i < l.length) (f : α → α) (d : α) :
    (modAt l i f).getD i d = f (l.getD i d) := by
  simp only [modAt, List.getD_eq_getElem?_getD, List.getElem?_modify_eq, List.getElem?_eq_getElem hi, Option.map_eq_map,
    Option.map_some, Option.getD_some]

theorem State.seq_setSeq_self {s : State} {i : Nat} (hi : i < s.ses.seqs.length) (f : Seq → Seq) :
    (s.setSeq i f).seq i = f (s.seq i) := getD_modAt_self hi f Seq.idle

theorem State.zone_setZone_self {s : State} {z : Nat} (hz : z < s.ses.zones.length) (f : Zone → Zone) :
    (s.setZone z f).zone z = f (s.zone z) := getD_modAt_self hz f Zone.fresh

/-- Changes that agree on the sequence itself make the same state. -/
theorem State.setSeq_congr {s : State} {i : Nat} {f g : Seq → Seq} (h : f (s.seq i) = g (s.seq i)) :
    s.setSeq i f = s.setSeq i g := by
  have hl : modAt s.ses.seqs i f = modAt s.ses.seqs i g := modAt_congr fun q hq => by
    rwa [State.seq, List.getD_eq_getElem?_getD, hq, Option.getD_some] at h
  rw [State.setSeq, hl, State.setSeq]

theorem State.setSeq_setSeq (s : State) (i : Nat) (f g : Seq → Seq) :
    (s.setSeq i f).setSeq i g = s.setSeq i fun q => g (f q) := by
  have hl : modAt (modAt s.ses.seqs i f) i g = modAt s.ses.seqs i fun q => g (f q) := List.modify_modify_eq f g i s.ses.seqs
  rw [State.setSeq, State.setSeq, State.setSeq, hl]

/-! ## Timers (R242, R255, R258) -/

theorem State.elapsed_of_ticking {s : State} (h : s.ses.fresh = false) (t : Nat) : s.elapsed t = (t - s.ses.at_) / 4 := by
  rw [State.elapsed, h]
  exact Nat.zero_max _

/-- Every sequence's timers count down by the instants that have passed; a sequence that does not exist has none. -/
theorem State.clockTo_seq (s : State) (t i : Nat) : (s.clockTo t).seq i =
    { s.seq i with timer := (s.seq i).timer.map (· - s.elapsed t), auto := (s.seq i).auto.map (· - s.elapsed t) } := by
  simp only [State.clockTo, State.seq, List.getD_eq_getElem?_getD, List.getElem?_map]
  cases s.ses.seqs[i]? <;> rfl

theorem State.clockTo_at {s : State} (h : s.ses.fresh = false) (t : Nat) :
    (s.clockTo t).ses.at_ = s.ses.at_ + 4 * s.elapsed t := by
  simp only [State.clockTo, h, Bool.false_eq_true, if_false]

/-- A timer that has no more instants left than have passed has run out. -/
theorem State.ranOut_of_le {s : State} {timer : Option Nat} {k t : Nat} (h : timer = some k) (hk : k ≤ s.elapsed t) :
    s.ranOut timer t = true := by
  subst h
  exact decide_eq_true hk

/-! ## Evaluation (R242, R253 to R261, R276) -/

theorem State.samplePins_getLast (s : State) (t prb trig tb : Nat) :
    (s.samplePins t prb trig tb).ses.pins.getLast? = some (t, prb % 2 ^ 32, trig % 4) := List.getLast?_concat

theorem exec_evaluationInstant {s : State} (h : s.ses.running = true) (t prb trig tb : Nat) :
    exec (.evaluationInstant t prb trig tb) s =
      .next (((s.at t).samplePins (max s.now t) prb trig tb).evaluate (max s.now t)) := by
  rw [← State.at_now]
  refine congrArg Host.Outcome.next (if_neg ?_)
  rw [show (s.at t).ses.running = true from h]
  exact Bool.noConfusion

/-! ## A sequence at an instant (R254, R256, R258, R259) -/

/-- Sequence i as its verdict at t leaves it, with a trigger where that names a cause (R254, R259). -/
def State.takeVerdict (s : State) (i t : Nat) (b : List Byte) (v : Verdict) : State :=
  match v.cause with
  | some c => (s.setSeq i fun _ => v.seq).trigger i t b v c
  | none => s.setSeq i fun _ => v.seq

/-- A sequence that runs takes the judgement of its level, all the forces due among its causes. -/
theorem State.seqInstant_running {s : State} {i t : Nat} {g prev : List Nat} {b : List Byte} (hb : s.program i = some b)
    (hrun : (s.seq i).state = 1) (hi : i < s.ses.seqs.length) :
    s.seqInstant i t g prev = s.takeVerdict i t b
      (({ s.seq i with forces := (s.seq i).forces.filter fun a => decide (t < a + 1000) } : Seq).judge b g prev
        ((s.seq i).forces.countP fun a => decide (a + 1000 ≤ t))) := by
  have hp : (s.setSeq i fun q => { q with forces := q.forces.filter fun a => decide (t < a + 1000) }).program i = some b := hb
  simp only [State.seqInstant, hp, if_pos hrun, State.seq_setSeq_self hi, State.setSeq_setSeq]
  rfl

/-- An arm that is judged well when it acts begins the program (R256). -/
theorem State.actOne_arms {s : State} {i : Nat} {b : List Byte} (hb : s.program i = some b) (hidle : (s.seq i).state ≠ 1) :
    s.actOne i true = (s.setSeq i fun q =>
      { ({ q with state := 1, number := 0 } : Seq).enter b 0 0 with auto := autoLoad b }).os (okey (0x3810 + i) 9) s.devNs := by
  simp only [State.actOne, hb, if_neg hidle, if_true]

/-- An arm alone, due and let through, begins the program at level 0. -/
theorem State.armAct_starts {s : State} {i t a : Nat} {b : List Byte} (hacts : (s.seq i).acts = [(a, true)]) (ha : a + 1000 ≤ t)
    (hidle : (s.seq i).state ≠ 1) (hb : s.program i = some b) (hi : i < s.ses.seqs.length) :
    s.armAct i t = ((s.setSeq i fun q => { q with acts := [] }).setSeq i fun q =>
      { ({ q with state := 1, number := 0 } : Seq).enter b 0 0 with auto := autoLoad b }).os (okey (0x3810 + i) 9) s.devNs := by
  have hdue : (s.seq i).acts.filter (fun x => decide (x.1 + 1000 ≤ t)) = [(a, true)] := by
    rw [hacts]
    exact List.filter_cons_of_pos (decide_eq_true ha)
  have hrest : (s.seq i).acts.filter (fun x => decide (t < x.1 + 1000)) = [] := by
    rw [hacts]
    exact List.filter_cons_of_neg (by simpa only [decide_eq_true_eq, Nat.not_lt] using ha)
  have hused : (s.setSeq i fun q => { q with acts := q.acts.filter fun x => decide (t < x.1 + 1000) }) =
      s.setSeq i fun q => { q with acts := [] } := State.setSeq_congr (congrArg (fun l => { s.seq i with acts := l }) hrest)
  have hidle' : ((s.setSeq i fun q => { q with acts := [] }).seq i).state ≠ 1 := by
    rwa [State.seq_setSeq_self hi]
  unfold State.armAct
  rw [hdue, hused]
  exact State.actOne_arms (s := s.setSeq i fun q => { q with acts := [] }) hb hidle'

/-! ## A zone's update (R248, R265) -/

/-- An update counts once (R265). -/
def State.countOnce (s : State) (o : Owed) : State := if o.counted then s else s.countUpdate o.sweep o.result

/-- What an update counts changes the sweep's counters alone. -/
theorem State.countOnce_same {m : Nat} (hm : m &&& 2048 = 0) (s : State) (o : Owed) : Same m s (s.countOnce o) := by
  unfold State.countOnce
  exact .ite (.self m s) (State.countUpdate_same hm (.self m s) o.sweep o.result)

theorem State.countOnce_ses (s : State) (o : Owed) : (s.countOnce o).ses = s.ses := (s.countOnce_same rfl o).ses_eq

theorem State.countOnce_power (s : State) (o : Owed) : (s.countOnce o).pw.power = s.pw.power :=
  (congrArg Power.power (s.countOnce_same rfl o).pw_still :)

theorem State.countOnce_zone (s : State) (o : Owed) (z : Nat) : (s.countOnce o).zone z = s.zone z := by
  rw [State.zone, State.countOnce_ses, State.zone]

/-- The zone takes the result of its detector; its line is 0 outside Sensing (R244). -/
theorem State.updateZone_result {s : State} {z : Nat} {o : Owed} {line blind : Bool} {e : Nat} (hz : z < s.ses.zones.length)
    (hr : o.result = some (line, blind, e)) :
    (s.updateZone z o).zone z = { s.zone z with
      line := line && decide (s.pw.power = .sensing), e := e, stale := false, blind := blind, lastTick := o.tick
      waiting := (s.zone z).waiting.filter fun x => !x.isAt o.sweep o.slot } := by
  have he : (s.updateZone z o).zone z = ((s.countOnce o).setZone z fun x => { x with
      line := line && decide ((s.countOnce o).pw.power = .sensing), e := e, stale := false, blind := blind, lastTick := o.tick
      waiting := x.waiting.filter fun x => !x.isAt o.sweep o.slot }).zone z := by
    simp only [State.updateZone, State.countOnce, hr]
    rfl
  rw [he, State.zone_setZone_self (by rwa [State.countOnce_ses]), State.countOnce_zone, State.countOnce_power]

theorem State.updateZone_zoneTick {s : State} {o : Owed} {r : Bool × Bool × Nat} (hr : o.result = some r) (z : Nat) :
    (s.updateZone z o).ses.zoneTick = some o.tick := by
  simp only [State.updateZone, hr]

/-- A zone whose detector has no result is stale and keeps the rest (R248). -/
theorem State.updateZone_stale {s : State} {z : Nat} {o : Owed} (hz : z < s.ses.zones.length) (hr : o.result = none) :
    (s.updateZone z o).zone z = { s.zone z with
      stale := true, waiting := (s.zone z).waiting.filter fun x => !x.isAt o.sweep o.slot } := by
  have he : s.updateZone z o = (s.countOnce o).setZone z fun x => { x with
      stale := true, waiting := x.waiting.filter fun x => !x.isAt o.sweep o.slot } := by
    simp only [State.updateZone, State.countOnce, hr]
  rw [he, State.zone_setZone_self (by rwa [State.countOnce_ses]), State.countOnce_zone]

/-- ZONE_UPDATE of an update that is owed is that update, beside a clock-0 instant for the captures (R275). -/
theorem exec_zoneUpdate {s : State} {t z n slot : Nat} {o : Owed} {pl : Plan} (ho : (s.at t).owedAt z n slot = some o)
    (hpl : s.planNow = some pl) :
    ∃ v : State, v.pw = (s.at t).pw ∧ v.ses.zones = s.ses.zones ∧ exec (.zoneUpdate t z n slot) s = .next (v.updateZone z o) := by
  have hpl' : (s.at t).planNow = some pl := hpl
  have he : exec (.zoneUpdate t z n slot) s = execZoneUpdate t z n slot s := rfl
  simp only [execZoneUpdate, ho, hpl'] at he
  refine ⟨_, ?_, ?_, he⟩ <;> split <;> rfl

/-! ## A TRIG_IN edge (R250, R384) -/

theorem State.tdcEdge_uncalibrated {s : State} {ch : Nat} {calibrated : Bool} (h : s.interpReady ch calibrated = false)
    (code c1 c2 : Nat) : s.tdcEdge ch code c1 c2 calibrated = ((s.capture ch s.now).coarseStamp, true, s.capture ch s.now) := by
  simp only [State.tdcEdge, h, if_true]

/-- An edge that met no calibrated interpolator shows the coarse stamp. -/
theorem State.pinEdge_uncalibrated (s : State) (pin stamp : Nat) : s.pinEdge pin stamp true = (s.coarseStamp, { s with
    ses := { s.ses with stamps := modAt s.ses.stamps pin fun l => (s.now, stamp, s.coarseStamp, true) :: l.take 3 } }) := by
  simp only [State.pinEdge, Bool.true_or, if_true]

/-- Interval mode leaves Sesame as it was (R387). -/
theorem State.intervalEdge_ses (s : State) (src stamp : Nat) : (s.intervalEdge src stamp).ses = s.ses :=
  (State.intervalEdge_same rfl (.self 262144 s) src stamp).ses_eq

/-- TRIG_IN_EDGE without a calibrated interpolator notes the coarse stamp, both as the edge's time and as what it shows. -/
theorem exec_trigInEdge_coarse {s : State} {t pin : Nat} {calibrated : Bool} (hrun : s.tb.running = true) (hpin : pin < 2)
    (h : (s.at t).interpReady (2 + pin) calibrated = false) (code c1 c2 : Nat) :
    ∃ u, exec (.trigInEdge t pin code c1 c2 calibrated) s = .next u ∧
      u.ses.stamps = modAt s.ses.stamps pin fun l =>
        ((s.at t).now, (s.at t).coarseStamp, (s.at t).coarseStamp, true) :: l.take 3 := by
  have he : exec (.trigInEdge t pin code c1 c2 calibrated) s = execTrigInEdge t pin code c1 c2 calibrated s := rfl
  have hrun' : (s.at t).tb.running = true ∧ pin < 2 := ⟨hrun, hpin⟩
  simp only [execTrigInEdge, if_pos hrun', State.tdcEdge_uncalibrated h, State.pinEdge_uncalibrated] at he
  refine ⟨_, he, ?_⟩
  rw [State.intervalEdge_ses]
  rfl

/-- Settles O27: an instant is counted and evaluated from the pins as sampled, a timer that ran out and a waiting act that is
due have theirs evaluated, a sequence takes its verdict or its arm at the instant, and a zone's update and a pin's edge change their own
entry. -/
theorem evaluationCommandsComplete : Obligations.EvaluationCommandsComplete := by
  unfold Obligations.EvaluationCommandsComplete
  refine ⟨?_, ?_, ?_, ?_, ?_, ?_, ?_, ?_, ?_, ?_, ?_⟩
  · intro s t prb trig tb hrun hel
    refine ⟨(s.at t).samplePins (max s.now t) prb trig tb, ⟨hrun, rfl, State.samplePins_getLast _ _ _ _ _, rfl⟩, ?_⟩
    refine (exec_evaluationInstant hrun t prb trig tb).trans (congrArg Host.Outcome.next (if_neg ?_))
    rintro (hstop | hzero)
    · exact Bool.false_ne_true (hstop.symm.trans hrun)
    · exact hel hzero
  · intro s t hfresh
    rw [← State.elapsed_of_ticking hfresh]
    exact ⟨State.clockTo_at hfresh t, State.clockTo_seq s t⟩
  · intro s t i k htimer hk
    rw [← State.at_now] at hk ⊢
    exact congrArg Host.Outcome.next (if_pos (State.ranOut_of_le (s := s.at t) htimer hk))
  · intro s t i k hauto hk
    rw [← State.at_now] at hk ⊢
    exact congrArg Host.Outcome.next (if_pos (State.ranOut_of_le (s := s.at t) hauto hk))
  · intro s t i a ha hdue
    rw [← State.at_now] at hdue ⊢
    exact congrArg Host.Outcome.next (if_pos (List.any_eq_true.2 ⟨a, ha, decide_eq_true hdue⟩))
  · intro s t i a ha hdue
    rw [← State.at_now] at hdue ⊢
    exact congrArg Host.Outcome.next (if_pos (List.any_eq_true.2 ⟨a, ha, decide_eq_true hdue⟩))
  · intro s i t g prev b hb hrun hi
    exact State.seqInstant_running hb hrun hi
  · intro s t i a b hi hacts ha hidle hb
    exact State.armAct_starts hacts ha hidle hb hi
  · intro s t z n slot o pl line blind e ho hpl hz hr
    obtain ⟨v, hpw, hzones, hv⟩ := exec_zoneUpdate ho hpl
    refine ⟨_, hv, ?_⟩
    rw [State.updateZone_result (by rwa [hzones]) hr, State.updateZone_zoneTick hr, hpw]
    exact ⟨rfl, rfl, rfl, rfl, rfl, rfl⟩
  · intro s t z n slot o pl ho hpl hz hr
    obtain ⟨v, -, hzones, hv⟩ := exec_zoneUpdate ho hpl
    refine ⟨_, hv, ?_⟩
    rw [State.updateZone_stale (by rwa [hzones]) hr, State.zone, hzones]
    exact ⟨rfl, rfl, rfl⟩
  · intro s t pin code c1 c2 calibrated hrun hpin hlen h
    obtain ⟨u, hu, hstamps⟩ := exec_trigInEdge_coarse hrun hpin h code c1 c2
    refine ⟨u, hu, ?_⟩
    rw [hstamps, getD_modAt_self hlen, State.at_now]

end Sys2Proof.Machine
end

section
/-! SUPPORT. The captures and Sunflower as they run (R269 to R274, R280, R282, R284, R286 to R289): what an entry into Filling, a rate
window, the end of Post, a record and a vertical sync leave. -/

namespace Sys2Proof.Machine

open Sys2Proof

/-! ## Entry into Filling (R269 to R271, R274) -/

theorem State.cap_setCap_self {s : State} {k : Nat} (hk : k < s.caps.length) (f : Capture → Capture) :
    (s.setCap k f).cap k = f (s.cap k) := getD_modAt_self hk f Capture.blank

theorem State.os_swf {s : State} (h : swf odflt s.objects = true) (k v : Nat) : swf odflt (s.os k v).objects = true :=
  swf_sput odflt s.objects k v h

theorem State.unhold_swf {s : State} (h : swf odflt s.objects = true) (k sub : Nat) :
    swf odflt (s.unhold k sub).objects = true := by
  show swf odflt (if sub = 0xE then s.os (ck k 0xF) 0 else s).objects = true
  split
  · exact State.os_swf h _ _
  · exact h

theorem State.unhold_caps_length (s : State) (k sub : Nat) : (s.unhold k sub).caps.length = s.caps.length := by
  refine (length_modAt _ _ _).trans ?_
  split <;> rfl

/-- One held value applies, where there is one (R271). -/
def State.takeHeld (s : State) (k sub : Nat) (held : Option Nat) : State :=
  match held with
  | some v => (s.os (ck k sub) v).unhold k sub
  | none => s

theorem State.applyHeld_eq (s : State) (k : Nat) : s.applyHeld k =
    ((s.takeHeld k 0xE (s.cap k).heldLen).takeHeld k 0x10 (s.cap k).heldPost).takeHeld k 0x11 (s.cap k).heldLimit := rfl

theorem State.takeHeld_swf {s : State} (h : swf odflt s.objects = true) (k sub : Nat) (held : Option Nat) :
    swf odflt (s.takeHeld k sub held).objects = true := by
  cases held with
  | none => exact h
  | some v => exact State.unhold_swf (State.os_swf h _ _) _ _

theorem State.takeHeld_caps_length (s : State) (k sub : Nat) (held : Option Nat) :
    (s.takeHeld k sub held).caps.length = s.caps.length := by
  cases held with
  | none => rfl
  | some v => exact State.unhold_caps_length _ _ _

theorem State.applyHeld_swf {s : State} (h : swf odflt s.objects = true) (k : Nat) : swf odflt (s.applyHeld k).objects = true := by
  rw [State.applyHeld_eq]
  exact State.takeHeld_swf (State.takeHeld_swf (State.takeHeld_swf h _ _ _) _ _ _) _ _ _

theorem State.applyHeld_caps_length (s : State) (k : Nat) : (s.applyHeld k).caps.length = s.caps.length := by
  rw [State.applyHeld_eq, State.takeHeld_caps_length, State.takeHeld_caps_length, State.takeHeld_caps_length]

/-- The state code and the step are objects of their own. -/
theorem ck_state_ne_step (k : Nat) : ck k 1 ≠ ck k 0x15 := by
  unfold ck okey
  omega

theorem State.fillCapture_capState {s : State} (h : swf odflt s.objects = true) (k f : Nat) : (s.fillCapture k f).capState k = 1 :=
  (State.og_os_of_ne _ _ (ck_state_ne_step k)).trans (State.og_os_self _ _ _ (State.applyHeld_swf h k))

/-- A buffer that enters Filling holds nothing, and its first rate window begins (R270). -/
theorem State.fillCapture_cap {s : State} {k : Nat} (hk : k < s.caps.length) (f : Nat) :
    ((s.fillCapture k f).cap k).entries = [] ∧ ((s.fillCapture k f).cap k).winBytes = 0 ∧ ((s.fillCapture k f).cap k).f = f := by
  have hk' : k < (((s.applyHeld k).os (ck k 1) 1).os (ck k 0x15) 0).caps.length := by
    rwa [State.os_caps, State.os_caps, State.applyHeld_caps_length]
  unfold State.fillCapture
  dsimp only
  rw [State.cap_setCap_self hk']
  exact ⟨rfl, rfl, rfl⟩

theorem exec_fillingEntry {s : State} {t k a : Nat} {l : List Nat} (harms : (s.cap k).arms = a :: l) (hrun : s.ses.running = true)
    (ha : a + 1000 ≤ (s.at t).now) :
    let w := ((s.at t).setCap k fun x => { x with arms := l }).evaluate (s.at t).now
    (w.capState k = 0 ∨ w.capState k = 5) ∧ w.og (ck k 0xE) ≠ 0 ∧ (w.ladderSec k).isSome = true →
    exec (.fillingEntry t k) s = .next (w.fillCapture k w.ses.at_) := by
  intro w hfree
  have harms' : ((s.at t).cap k).arms = a :: l := harms
  have hdue : (s.at t).ses.running = true ∧ a + 1000 ≤ (s.at t).now := ⟨hrun, ha⟩
  show execFillingEntry t k s = _
  unfold execFillingEntry
  dsimp only
  rw [harms']
  dsimp only
  rw [if_pos hdue]
  exact if_pos hfree

theorem exec_captureRearm {s : State} {t k a : Nat} (hat : (s.cap k).rearmAt = some a) (hrun : s.ses.running = true)
    (ha : a + 1000 ≤ (s.at t).now) (hstate : s.capState k = 4) :
    let w := (s.at t).evaluate (s.at t).now
    exec (.captureRearm t k) s = .next (w.fillCapture k w.ses.at_) := by
  have hat' : ((s.at t).cap k).rearmAt = some a := hat
  have hdue : (s.at t).capState k = 4 ∧ (s.at t).ses.running = true ∧ a + 1000 ≤ (s.at t).now := ⟨hstate, hrun, ha⟩
  show execCaptureRearm t k s = _
  unfold execCaptureRearm
  dsimp only
  rw [hat']
  exact congrArg Host.Outcome.next (if_pos hdue)

/-! ## Rate windows and the end of Post (R273, R280) -/

/-- A rate window that has run gives way to the next one at the step that the ladder gives. -/
theorem State.rollWindow_ends {s : State} {k steps budget hold : Nat} (hsec : s.ladderSec k = some (steps, budget, hold))
    (hrun : (s.cap k).winStart + 65536 ≤ s.now) :
    let r := nextStep steps hold (s.capStep k) (s.cap k).quiet (s.cap k).winDrop (decide (4 * (s.cap k).winBytes ≤ budget))
    s.rollWindow k = (s.os (ck k 0x15) r.1).setCap k fun x =>
      { x with winStart := x.winStart + 65536, winBytes := 0, winDrop := false, quiet := r.2
               lowStep := min x.lowStep r.1, highStep := max x.highStep r.1 } := by
  unfold State.rollWindow
  rw [hsec]
  exact if_pos hrun

theorem State.postOver_of_le {s : State} {k t : Nat} (hstate : s.capState k = 2) (hlim : s.og (ck k 0x11) ≠ 0)
    (ht : (s.cap k).trigAt + 1000 * s.og (ck k 0x11) ≤ t) : s.postOver k t = true := by
  unfold State.postOver
  dsimp only
  rw [decide_eq_true hstate, decide_eq_true hlim, decide_eq_true ht]
  rfl

/-! ## Records of a capture (R282, R284) -/

/-- Making up a payload, which may take a free value (R356), leaves the queues and the power state. -/
theorem State.capturePayload_parts (s : State) (k extra : Nat) :
    (s.capturePayload k extra).2.qu = s.qu ∧ (s.capturePayload k extra).2.pw.power = s.pw.power := by
  have h : Same (2097152 + 128) s (s.capturePayload k extra).2 := State.capturePayload_same rfl (.self _ s) k extra
  have hpw : (s.capturePayload k extra).2.pw.still = s.pw.still := h.parts .pw rfl
  exact ⟨h.parts .qu rfl, (congrArg Power.power hpw :)⟩

theorem State.capturePayload_fits (s : State) (k extra q n : Nat) : (s.capturePayload k extra).2.fits q n = s.fits q n := by
  obtain ⟨hqu, -⟩ := s.capturePayload_parts k extra
  unfold State.fits State.queue
  rw [hqu]

theorem State.capturePayload_queuesLive (s : State) (k extra : Nat) : (s.capturePayload k extra).2.queuesLive = s.queuesLive := by
  obtain ⟨-, hpower⟩ := s.capturePayload_parts k extra
  unfold State.queuesLive
  rw [hpower]

theorem State.captureRecord_accepted {s : State} {q : Nat} {p : List Byte} (hl : s.queuesLive = true)
    (hf : s.fits q p.length = true) (sweep stamp : Nat) :
    s.captureRecord q p sweep stamp = s.accept q { typ := 4, sweep := sweep, stamp := stamp, olen := p.length, payload := p } :=
  State.offer_accepted hl hf

/-- With room for it the next record enters, and the readout goes on while entries are left. -/
theorem State.writeNext_accepted {s : State} {k q extra : Nat} (hl : s.queuesLive = true)
    (hf : s.fits q (s.capturePayload k extra).1.length = true) (hmore : (s.cap k).sent + 2048 < (s.cap k).entries.length) :
    s.writeNext k q extra = ((s.capturePayload k extra).2.accept q
        { typ := 4, sweep := (s.cap k).trigSweep, stamp := (s.cap k).trigStamp
          olen := (s.capturePayload k extra).1.length, payload := (s.capturePayload k extra).1 }).setCap k
      fun x => { x with sent := (s.cap k).sent + 2048, flags := clearBits x.flags 64 } := by
  have hroom : (s.queuesLive && s.fits q (s.capturePayload k extra).1.length) = true := by rw [hl, hf]; rfl
  unfold State.writeNext
  dsimp only
  rw [if_pos hroom, Nat.min_eq_right (Nat.le_of_lt hmore), if_neg (Nat.not_le_of_lt hmore),
    State.captureRecord_accepted (by rwa [State.capturePayload_queuesLive]) (by rwa [State.capturePayload_fits])]

theorem State.writeLast_accepted {s : State} {q : Nat} {r : List Byte × Nat × Nat} (k : Nat) (hl : s.queuesLive = true)
    (hf : s.fits q r.1.length = true) :
    s.writeLast k q r = (s.setCap k fun x => { x with last := none }).accept q
      { typ := 4, sweep := r.2.1, stamp := r.2.2, olen := r.1.length, payload := r.1 } := by
  have hroom : (s.queuesLive && s.fits q r.1.length) = true := by rw [hl, hf]; rfl
  exact (if_pos hroom).trans (State.captureRecord_accepted (s := s.setCap k _) hl hf r.2.1 r.2.2)

theorem exec_captureRecordWrite_next {s : State} {t k q : Nat} (e : Bool) (hstate : s.capState k = 3) (hlast : (s.cap k).last = none)
    (hq : ((s.at t).planNow.bind fun pl => pl.queueOf 4 0) = some q) :
    exec (.captureRecordWrite t k e) s = .next ((s.at t).writeNext k q (if e = true ∧ s.og 0x420004 = 1 then 64 else 0)) := by
  have hlast' : ((s.at t).cap k).last = none := hlast
  show execCaptureRecordWrite t k e s = _
  unfold execCaptureRecordWrite
  dsimp only
  rw [hlast', hq]
  refine congrArg Host.Outcome.next ((if_pos hstate).trans
    (congrArg ((s.at t).writeNext k q) (ite_congr ?_ (fun _ => rfl) fun _ => rfl)))
  rw [Bool.and_eq_true, decide_eq_true_eq, State.at_og]

theorem exec_captureRecordWrite_last {s : State} {t k q : Nat} {r : List Byte × Nat × Nat} (e : Bool)
    (hlast : (s.cap k).last = some r) (hq : ((s.at t).planNow.bind fun pl => pl.queueOf 4 0) = some q) :
    exec (.captureRecordWrite t k e) s = .next ((s.at t).writeLast k q r) := by
  have hlast' : ((s.at t).cap k).last = some r := hlast
  show execCaptureRecordWrite t k e s = _
  unfold execCaptureRecordWrite
  dsimp only
  rw [hlast', hq]

/-! ## Sunflower (R286, R288) -/

/-- Lines that end while a frame is scanned leave the wish to stop as it was. -/
theorem State.sunScan_stopWanted (s : State) : s.sunScan.sun.stopWanted = s.sun.stopWanted := by
  unfold State.sunScan
  split
  · refine List.foldlRecOn (motive := fun v : State => v.sun.stopWanted = s.sun.stopWanted) _ _ rfl fun v hv _ _ => ?_
    dsimp only
    by_cases hend : v.lineStart v.sun.shown + v.sunH * v.pixelNs ≤ v.now
    · rw [if_pos hend]
      split <;> exact hv
    · rw [if_neg hend]
      exact hv
  · rfl

/-- The frame in progress, where there is one, is over and counted. -/
def State.finishFrame (s : State) : State := if s.sun.scanning then s.sunScan.bump 0x3C000A else s

theorem State.finishFrame_stopWanted (s : State) : s.finishFrame.sun.stopWanted = s.sun.stopWanted := by
  unfold State.finishFrame
  split
  · exact s.sunScan_stopWanted
  · rfl

theorem State.finishFrame_now (s : State) : s.finishFrame.now = s.now := by
  unfold State.finishFrame
  split
  · exact (State.sunScan_same rfl (.self 2 s)).now_eq
  · rfl

/-- The end of a frame counts it and leaves every other object. -/
theorem State.finishFrame_og {j : Nat} (hj : j ≠ 0x3C000A) (s : State) : s.finishFrame.og j = s.og j := by
  unfold State.finishFrame
  split
  · have hobj : s.sunScan.objects = s.objects := (State.sunScan_same rfl (.self 8 s)).objects_eq
    exact (State.og_os_of_ne _ _ hj).trans (congrArg (sget odflt · j) hobj)
  · rfl

/-- A frame that is over, or a start that is wanted, brings the next frame where no stop is wanted. -/
theorem exec_verticalSync {s : State} {t : Nat}
    (hdue : (s.sun.scanning = true ∧ (s.at t).frameOver = true) ∨ (s.sun.scanning = false ∧ s.sun.startWanted = true))
    (hstop : s.sun.stopWanted = false) :
    let w := (s.at t).finishFrame
    exec (.verticalSync t) s = .next { w with
      sun := { w.sun with scanning := true, startWanted := false, latched := w.og 0x3C0009, since := w.now, shown := 0
                          cut := none } } := by
  have hsync : ¬ (((s.at t).sun.scanning && !(s.at t).frameOver ||
      !((s.at t).sun.scanning || (s.at t).sun.startWanted)) = true) := by
    rw [State.at_sun]
    obtain ⟨hscan, hover⟩ | ⟨hscan, hstart⟩ := hdue
    · rw [hscan, hover]
      exact Bool.false_ne_true
    · rw [hscan, hstart, Bool.false_and]
      exact Bool.false_ne_true
  have hgo : ¬ ((s.at t).finishFrame.sun.stopWanted = true) := by
    rw [State.finishFrame_stopWanted, State.at_sun, hstop]
    exact Bool.false_ne_true
  exact congrArg Host.Outcome.next ((if_neg hsync).trans (if_neg hgo))

/-- Settles O29: a filling entry and a re-arm evaluate their instant and empty the buffer, a rate window and a post time limit that
have run are taken, a record with room enters its queue, and a vertical sync and an underrun change the frame in progress. -/
theorem captureCommandsComplete : Obligations.CaptureCommandsComplete := by
  unfold Obligations.CaptureCommandsComplete
  refine ⟨?_, ?_, ?_, ?_, ?_, ?_, ?_, ?_, ?_⟩
  · intro s t k a l harms hrun ha w hfree hlen hsec
    rw [← State.at_now] at ha
    have hw : w = ((s.at t).setCap k fun x => { x with arms := l }).evaluate (s.at t).now := by rw [State.at_now]
    rw [hw] at hfree hlen hsec ⊢
    exact exec_fillingEntry harms hrun ha ⟨hfree, hlen, hsec⟩
  · intro s t k a hat hrun ha hstate
    rw [← State.at_now] at ha ⊢
    exact exec_captureRearm hat hrun ha hstate
  · intro s k f hk hswf
    exact ⟨State.fillCapture_capState hswf k f, State.fillCapture_cap hk f⟩
  · intro s t k steps budget hold hsec hstate hrun
    rw [← State.at_now] at hrun
    exact congrArg Host.Outcome.next ((if_pos hstate).trans (State.rollWindow_ends hsec hrun))
  · intro s t k hstate hlim hover
    rw [← State.at_now] at hover
    exact congrArg Host.Outcome.next (if_pos (State.postOver_of_le (s := s.at t) hstate hlim hover))
  · intro s t k e q hstate hlast hq hlive r hfits hmore
    exact (exec_captureRecordWrite_next e hstate hlast hq).trans
      (congrArg Host.Outcome.next (State.writeNext_accepted (s := s.at t) hlive hfits hmore))
  · intro s t k e q r hlast hq hlive hfits
    exact (exec_captureRecordWrite_last e hlast hq).trans
      (congrArg Host.Outcome.next (State.writeLast_accepted (s := s.at t) k hlive hfits))
  · intro s t hdue hstop
    refine ⟨_, exec_verticalSync hdue hstop, rfl, rfl, ?_, ?_, rfl⟩
    · exact (s.at t).finishFrame_og (by decide)
    · exact (s.at t).finishFrame_now.trans (s.at_now t)
  · intro s t line hscan
    exact congrArg Host.Outcome.next (if_pos hscan)

end Sys2Proof.Machine
end

section
/-! SUPPORT. What holds of every command at once: a command's frame, its completion, a step at the front of the queue, and the state
right after the first power-up. -/

namespace Sys2Proof.Machine

open Sys2Proof

/-! ## Steps -/

/-- Settles O1: a step is a match on the queue. -/
theorem stepTakesTheFront : Obligations.StepTakesTheFront := by
  intro s c r h
  simp only [step, h]

/-- Settles O2: the other arm of that match, and no word of the table has a meaning. -/
theorem idleStep : Obligations.IdleStep := by
  refine ⟨fun s h => ?_, fun s nbits w => ⟨rfl, rfl⟩⟩
  simp only [step, h]

/-- Settles O6: what a command answers from a sound state is kept from it, and the queue is part of what is kept. -/
theorem everyCommandCompletes : Obligations.EveryCommandCompletes := by
  intro s c hs
  obtain ⟨t, ht, hk⟩ := exec_kept (Kept.self hs) c
  exact ⟨t, ht, hk.pending⟩

/-! ## The frame of a command -/

/-- A law that leaves every mask clear of the parts k as it was leaves the parts outside the command's list, where the list has all
of k. -/
theorem SameO.frame {i : Instr} {k : Nat} {s : State} (h : ∀ m, m &&& k = 0 → SameO m s (exec i s))
    (hk : outside i.writes &&& k = 0 := by simp only [Instr.writes]; rfl) : SameO (outside i.writes) s (exec i s) := h _ hk

/-- Every command leaves the parts outside its list of writes: one arm per command, each that command's own law. -/
theorem exec_same (s : State) : ∀ i : Instr, SameO (outside i.writes) s (exec i s)
  | .vbatPowerUp t => .frame fun _ hm => execVbatPowerUp_same hm (.self _ s) t
  | .crystalStart t => .frame fun _ hm => execCrystalStart_same hm (.self _ s) t
  | .corePowerUp t => .frame fun _ hm => execCorePowerUp_same hm (.self _ s) t
  | .internalResetRelease t => .frame fun _ hm => execInternalResetRelease_same hm (.self _ s) t
  | .pgInFall t => .frame fun _ hm => execPgInFall_same hm (.self _ s) t
  | .resetL t low => .frame fun _ hm => execResetL_same hm (.self _ s) t low
  | .wakePin t pins => .frame fun _ hm => execWakePin_same hm (.self _ s) t pins
  | .wakeTimer t => .frame fun _ hm => execWakeTimer_same hm (.self _ s) t
  | .pwrEnHoldEnd t => .frame fun _ hm => execPwrEnHoldEnd_same hm (.self _ s) t
  | .dormantEntry t => .frame fun _ hm => execDormantEntry_same hm (.self _ s) t
  | .retentionWrite t => .frame fun _ hm => execRetentionWrite_same hm (.self _ s) t
  | .powerCommandDormant t c => .frame fun _ hm => execPowerCommandDormant_same hm (.self _ s) t c
  | .powerCommandDoze t c => .frame fun _ hm => execPowerCommandDoze_same hm (.self _ s) t c
  | .powerCommandReady t c => .frame fun _ hm => execPowerCommandReady_same hm (.self _ s) t c
  | .powerCommandSensing t c => .frame fun _ hm => execPowerCommandSensing_same hm (.self _ s) t c
  | .startRemoteNode t node => .frame fun _ hm => execStartRemoteNode_same hm (.self _ s) t node
  | .stopRemoteNode t node => .frame fun _ hm => execStopRemoteNode_same hm (.self _ s) t node
  | .enterPreOperational t node => .frame fun _ hm => execEnterPreOperational_same hm (.self _ s) t node
  | .resetNode t node => .frame fun _ hm => execResetNode_same hm (.self _ s) t node
  | .resetCommunication t node => .frame fun _ hm => execResetCommunication_same hm (.self _ s) t node
  | .dozeToReadyDone t fit => .frame fun _ hm => execDozeToReadyDone_same hm (.self _ s) t fit
  | .activePlanReload t => .frame fun _ hm => execActivePlanReload_same hm (.self _ s) t
  | .keptPlanReload t rung => .frame fun _ hm => execKeptPlanReload_same hm (.self _ s) t rung
  | .coldEntrySeedCheck t dbm => .frame fun _ hm => execColdEntrySeedCheck_same hm (.self _ s) t dbm
  | .acquisitionDeadline t => .frame fun _ hm => execAcquisitionDeadline_same hm (.self _ s) t
  | .offsetTrim t offsets => .frame fun _ hm => execOffsetTrim_same hm (.self _ s) t offsets
  | .sweepBoundary => .frame fun _ hm => execSweepBoundary_same hm (.self _ s)
  | .choiceFix corrected bad => .frame fun _ hm => execChoiceFix_same hm (.self _ s) corrected bad
  | .slotFiring slot corrected bad raman => .frame fun _ hm => execSlotFiring_same hm (.self _ s) slot corrected bad raman
  | .inputLimitAssert t port span => .frame fun _ hm => execInputLimitAssert_same hm (.self _ s) t port span
  | .reflectionTrip t port peak => .frame fun _ hm => execReflectionTrip_same hm (.self _ s) t port peak
  | .seedLowSet t dbm => .frame fun _ hm => execSeedLowSet_same hm (.self _ s) t dbm
  | .seedLowClear t dbm => .frame fun _ hm => execSeedLowClear_same hm (.self _ s) t dbm
  | .biasMeasurement t port loop err setPoint atEnd => .frame fun _ hm =>
    execBiasMeasurement_same hm (.self _ s) t port loop err setPoint atEnd
  | .measurementTimeout t port loop => .frame fun _ hm => execMeasurementTimeout_same hm (.self _ s) t port loop
  | .biasSearch t c mask => .frame fun _ hm => execBiasSearch_same hm (.self _ s) t c mask
  | .darkPortPowerDown t port => .frame fun _ hm => execDarkPortPowerDown_same hm (.self _ s) t port
  | .stopShutdown t => .frame fun _ hm => execStopShutdown_same hm (.self _ s) t
  | .holdWarmOn t c => .frame fun _ hm => execHoldWarmOn_same hm (.self _ s) t c
  | .holdWarmOff t c => .frame fun _ hm => execHoldWarmOff_same hm (.self _ s) t c
  | .chestnutOutput t port sweep slot conts => .frame fun _ hm => execChestnutOutput_same hm (.self _ s) t port sweep slot conts
  | .workItemRelease t user item sweep slot ecc invalid => .frame fun _ hm =>
    execWorkItemRelease_same hm (.self _ s) t user item sweep slot ecc invalid
  | .checkpointInstant t engine item => .frame fun _ hm => execCheckpointInstant_same hm (.self _ s) t engine item
  | .budgetExhausted t engine => .frame fun _ hm => execBudgetExhausted_same hm (.self _ s) t engine
  | .sweepCompletion t => .frame fun _ hm => execSweepCompletion_same hm (.self _ s) t
  | .segmentEmit t port sweep slot first => .frame fun _ hm => execSegmentEmit_same hm (.self _ s) t port sweep slot first
  | .poppyBlock t port block corrected => .frame fun _ hm => execPoppyBlock_same hm (.self _ s) t port block corrected
  | .inactiveBankLoad t c stage data => .frame fun _ hm => execInactiveBankLoad_same hm (.self _ s) t c stage data
  | .poppyResetWrite t c => .frame fun _ hm => execPoppyResetWrite_same hm (.self _ s) t c
  | .poppyModeWrite t c mode => .frame fun _ hm => execPoppyModeWrite_same hm (.self _ s) t c mode
  | .linseedBlockAdd t stalled corrected => .frame fun _ hm => execLinseedBlockAdd_same hm (.self _ s) t stalled corrected
  | .dtsDecode t port => .frame fun _ hm => execDtsDecode_same hm (.self _ s) t port
  | .evaluationInstant t prb trig tb => .frame fun _ hm => execEvaluationInstant_same hm (.self _ s) t prb trig tb
  | .levelTimerExpiry t seq => .frame fun _ hm => execLevelTimerExpiry_same hm (.self _ s) t seq
  | .autoTimerExpiry t seq => .frame fun _ hm => execAutoTimerExpiry_same hm (.self _ s) t seq
  | .zoneUpdate t zone sweep slot => .frame fun _ hm => execZoneUpdate_same hm (.self _ s) t zone sweep slot
  | .sequenceArm t c seq => .frame fun _ hm => execSequenceArm_same hm (.self _ s) t c seq
  | .sequenceDisarm t c seq => .frame fun _ hm => execSequenceDisarm_same hm (.self _ s) t c seq
  | .sequenceArmAct t seq => .frame fun _ hm => execSequenceArmAct_same hm (.self _ s) t seq
  | .force t c seq => .frame fun _ hm => execForce_same hm (.self _ s) t c seq
  | .forceAct t seq => .frame fun _ hm => execForceAct_same hm (.self _ s) t seq
  | .hostLine t c level => .frame fun _ hm => execHostLine_same hm (.self _ s) t c level
  | .zoneThresholdWrite t c zone off value => .frame fun _ hm => execZoneThresholdWrite_same hm (.self _ s) t c zone off value
  | .trigInEdge t pin code c1 c2 calibrated => .frame fun _ hm => execTrigInEdge_same hm (.self _ s) t pin code c1 c2 calibrated
  | .captureArm t c buf => .frame fun _ hm => execCaptureArm_same hm (.self _ s) t c buf
  | .captureDisarm t c buf => .frame fun _ hm => execCaptureDisarm_same hm (.self _ s) t c buf
  | .fillingEntry t buf => .frame fun _ hm => execFillingEntry_same hm (.self _ s) t buf
  | .captureLengthWrite t c buf sub value => .frame fun _ hm => execCaptureLengthWrite_same hm (.self _ s) t c buf sub value
  | .rateWindowEnd t buf => .frame fun _ hm => execRateWindowEnd_same hm (.self _ s) t buf
  | .postTimeLimit t buf => .frame fun _ hm => execPostTimeLimit_same hm (.self _ s) t buf
  | .captureRecordWrite t buf memError => .frame fun _ hm => execCaptureRecordWrite_same hm (.self _ s) t buf memError
  | .captureRearm t buf => .frame fun _ hm => execCaptureRearm_same hm (.self _ s) t buf
  | .ownerWrite t c owner => .frame fun _ hm => execOwnerWrite_same hm (.self _ s) t c owner
  | .sunflowerEnable t c => .frame fun _ hm => execSunflowerEnable_same hm (.self _ s) t c
  | .sunflowerDisable t c => .frame fun _ hm => execSunflowerDisable_same hm (.self _ s) t c
  | .verticalSync t => .frame fun _ hm => execVerticalSync_same hm (.self _ s) t
  | .underrun t line => .frame fun _ hm => execUnderrun_same hm (.self _ s) t line
  | .planInstall t c rung => .frame fun _ hm => execPlanInstall_same hm (.self _ s) t c rung
  | .planInstallKeep t c rung => .frame fun _ hm => execPlanInstallKeep_same hm (.self _ s) t c rung
  | .removeRung t c rung => .frame fun _ hm => execRemoveRung_same hm (.self _ s) t c rung
  | .requestedRung t c rung => .frame fun _ hm => execRequestedRung_same hm (.self _ s) t c rung
  | .prepareEnd t ok seedDbm => .frame fun _ hm => execPrepareEnd_same hm (.self _ s) t ok seedDbm
  | .stageOpen t c => .frame fun _ hm => execStageOpen_same hm (.self _ s) t c
  | .stageApply t c => .frame fun _ hm => execStageApply_same hm (.self _ s) t c
  | .stageDiscard t c => .frame fun _ hm => execStageDiscard_same hm (.self _ s) t c
  | .shadowedWrite t c index sub data => .frame fun _ hm => execShadowedWrite_same hm (.self _ s) t c index sub data
  | .chainSwitch t c rung => .frame fun _ hm => execChainSwitch_same hm (.self _ s) t c rung
  | .prepare t rung tag => .frame fun _ hm => execPrepare_same hm (.self _ s) t rung tag
  | .ack t src tag => .frame fun _ hm => execAck_same hm (.self _ s) t src tag
  | .nak t src tag => .frame fun _ hm => execNak_same hm (.self _ s) t src tag
  | .ackTimeout t => .frame fun _ hm => execAckTimeout_same hm (.self _ s) t
  | .commit t tag index => .frame fun _ hm => execCommit_same hm (.self _ s) t tag index
  | .cancel t tag => .frame fun _ hm => execCancel_same hm (.self _ s) t tag
  | .fail t src tag => .frame fun _ hm => execFail_same hm (.self _ s) t src tag
  | .outcome t src tag outcome index => .frame fun _ hm => execOutcome_same hm (.self _ s) t src tag outcome index
  | .commitLostTimeout t => .frame fun _ hm => execCommitLostTimeout_same hm (.self _ s) t
  | .burstRequest t c => .frame fun _ hm => execBurstRequest_same hm (.self _ s) t c
  | .burstAbandon t c => .frame fun _ hm => execBurstAbandon_same hm (.self _ s) t c
  | .burstCaptureEnd t src2 truncated data captured => .frame fun _ hm =>
    execBurstCaptureEnd_same hm (.self _ s) t src2 truncated data captured
  | .burstReadout t => .frame fun _ hm => execBurstReadout_same hm (.self _ s) t
  | .userProgram t c data => .frame fun _ hm => execUserProgram_same hm (.self _ s) t c data
  | .hzNop e => .frame fun _ hm => execHzNop_same hm (.self _ s) e
  | .hzLoop e last => .frame fun _ hm => execHzLoop_same hm (.self _ s) e last
  | .hzJmp e target => .frame fun _ hm => execHzJmp_same hm (.self _ s) e target
  | .hzBra e target => .frame fun _ hm => execHzBra_same hm (.self _ s) e target
  | .hzBrn e target => .frame fun _ hm => execHzBrn_same hm (.self _ s) e target
  | .hzChk e marker => .frame fun _ hm => execHzChk_same hm (.self _ s) e marker
  | .hzEnd e t => .frame fun _ hm => execHzEnd_same hm (.self _ s) e t
  | .hzIllegalBundle e t loop => .frame fun _ hm => execHzIllegalBundle_same hm (.self _ s) e t loop
  | .hzAddrNop e => .frame fun _ hm => execHzAddrNop_same hm (.self _ s) e
  | .hzPadd e k => .frame fun _ hm => execHzPadd_same hm (.self _ s) e k
  | .hzPldp e k imm => .frame fun _ hm => execHzPldp_same hm (.self _ s) e k imm
  | .hzPldm e k imm => .frame fun _ hm => execHzPldm_same hm (.self _ s) e k imm
  | .hzPldl e k imm => .frame fun _ hm => execHzPldl_same hm (.self _ s) e k imm
  | .hzPldz e k imm => .frame fun _ hm => execHzPldz_same hm (.self _ s) e k imm
  | .hzPaddi e k imm => .frame fun _ hm => execHzPaddi_same hm (.self _ s) e k imm
  | .hzPsets e k imm => .frame fun _ hm => execHzPsets_same hm (.self _ s) e k imm
  | .hzLdstNop e ls => .frame fun _ hm => execHzLdstNop_same hm (.self _ s) e ls
  | .hzLdw e o => .frame fun _ hm => execHzLdw_same hm (.self _ s) e o
  | .hzLdb e o => .frame fun _ hm => execHzLdb_same hm (.self _ s) e o
  | .hzLdh e o => .frame fun _ hm => execHzLdh_same hm (.self _ s) e o
  | .hzLdhs e o => .frame fun _ hm => execHzLdhs_same hm (.self _ s) e o
  | .hzLds e o => .frame fun _ hm => execHzLds_same hm (.self _ s) e o
  | .hzLda e o => .frame fun _ hm => execHzLda_same hm (.self _ s) e o
  | .hzStw e o => .frame fun _ hm => execHzStw_same hm (.self _ s) e o
  | .hzStb e o => .frame fun _ hm => execHzStb_same hm (.self _ s) e o
  | .hzSth e o => .frame fun _ hm => execHzSth_same hm (.self _ s) e o
  | .hzStbp e o => .frame fun _ hm => execHzStbp_same hm (.self _ s) e o
  | .hzSts e o => .frame fun _ hm => execHzSts_same hm (.self _ s) e o
  | .hzSta e o => .frame fun _ hm => execHzSta_same hm (.self _ s) e o
  | .hzStaw e o => .frame fun _ hm => execHzStaw_same hm (.self _ s) e o
  | .hzStaq e o => .frame fun _ hm => execHzStaq_same hm (.self _ s) e o
  | .hzMacNop e => .frame fun _ hm => execHzMacNop_same hm (.self _ s) e
  | .hzMac e o => .frame fun _ hm => execHzMac_same hm (.self _ s) e o
  | .hzMsu e o => .frame fun _ hm => execHzMsu_same hm (.self _ s) e o
  | .hzMpy e o => .frame fun _ hm => execHzMpy_same hm (.self _ s) e o
  | .hzClr e o => .frame fun _ hm => execHzClr_same hm (.self _ s) e o
  | .hzAccd e o => .frame fun _ hm => execHzAccd_same hm (.self _ s) e o
  | .hzSeta e o => .frame fun _ hm => execHzSeta_same hm (.self _ s) e o
  | .hzRsa e o => .frame fun _ hm => execHzRsa_same hm (.self _ s) e o
  | .hzLsa e o => .frame fun _ hm => execHzLsa_same hm (.self _ s) e o
  | .hzDivr e o => .frame fun _ hm => execHzDivr_same hm (.self _ s) e o
  | .hzExt e o => .frame fun _ hm => execHzExt_same hm (.self _ s) e o
  | .hzAdd e o => .frame fun _ hm => execHzAdd_same hm (.self _ s) e o
  | .hzSub e o => .frame fun _ hm => execHzSub_same hm (.self _ s) e o
  | .hzAdds e o => .frame fun _ hm => execHzAdds_same hm (.self _ s) e o
  | .hzSubs e o => .frame fun _ hm => execHzSubs_same hm (.self _ s) e o
  | .hzMin e o => .frame fun _ hm => execHzMin_same hm (.self _ s) e o
  | .hzMax e o => .frame fun _ hm => execHzMax_same hm (.self _ s) e o
  | .hzAnd e o => .frame fun _ hm => execHzAnd_same hm (.self _ s) e o
  | .hzOr e o => .frame fun _ hm => execHzOr_same hm (.self _ s) e o
  | .hzXor e o => .frame fun _ hm => execHzXor_same hm (.self _ s) e o
  | .hzRsd e o => .frame fun _ hm => execHzRsd_same hm (.self _ s) e o
  | .hzLsd e o => .frame fun _ hm => execHzLsd_same hm (.self _ s) e o
  | .hzCgt e o => .frame fun _ hm => execHzCgt_same hm (.self _ s) e o
  | .hzCeq e o => .frame fun _ hm => execHzCeq_same hm (.self _ s) e o
  | .hzSel e o => .frame fun _ hm => execHzSel_same hm (.self _ s) e o
  | .hzMov e o => .frame fun _ hm => execHzMov_same hm (.self _ s) e o
  | .hzPrm e o => .frame fun _ hm => execHzPrm_same hm (.self _ s) e o
  | .hzAbs e o => .frame fun _ hm => execHzAbs_same hm (.self _ s) e o
  | .overrunClear t c mask => .frame fun _ hm => execOverrunClear_same hm (.self _ s) t c mask
  | .statusRecord t => .frame fun _ hm => execStatusRecord_same hm (.self _ s) t
  | .dataFrame t lane => .frame fun _ hm => execDataFrame_same hm (.self _ s) t lane
  | .deviceControlFrame t lane => .frame fun _ hm => execDeviceControlFrame_same hm (.self _ s) t lane
  | .credit t lane words => .frame fun _ hm => execCredit_same hm (.self _ s) t lane words
  | .replayRequest t lane entries => .frame fun _ hm => execReplayRequest_same hm (.self _ s) t lane entries
  | .hostStatus t lane mask => .frame fun _ hm => execHostStatus_same hm (.self _ s) t lane mask
  | .download t lane target seq offset data => .frame fun _ hm => execDownload_same hm (.self _ s) t lane target seq offset data
  | .blockLock t lane => .frame fun _ hm => execBlockLock_same hm (.self _ s) t lane
  | .lockLoss t lane => .frame fun _ hm => execLockLoss_same hm (.self _ s) t lane
  | .electricalIdleEntry t lane => .frame fun _ hm => execElectricalIdleEntry_same hm (.self _ s) t lane
  | .electricalIdleExit t lane => .frame fun _ hm => execElectricalIdleExit_same hm (.self _ s) t lane
  | .adaptation t lane ctle dfe fom => .frame fun _ hm => execAdaptation_same hm (.self _ s) t lane ctle dfe fom
  | .bankOwnerWrite t c bank owner => .frame fun _ hm => execBankOwnerWrite_same hm (.self _ s) t c bank owner
  | .busyStrobe t bank => .frame fun _ hm => execBusyStrobe_same hm (.self _ s) t bank
  | .cashewScrub t bank dword error => .frame fun _ hm => execCashewScrub_same hm (.self _ s) t bank dword error
  | .refresh t iface waiting => .frame fun _ hm => execRefresh_same hm (.self _ s) t iface waiting
  | .selfRefreshEntry t iface => .frame fun _ hm => execSelfRefreshEntry_same hm (.self _ s) t iface
  | .refreshModeWrite t c mode => .frame fun _ hm => execRefreshModeWrite_same hm (.self _ s) t c mode
  | .dramUncorrectable t addr who => .frame fun _ hm => execDramUncorrectable_same hm (.self _ s) t addr who
  | .realTimeOverflow t who stall => .frame fun _ hm => execRealTimeOverflow_same hm (.self _ s) t who stall
  | .fullScrub t c => .frame fun _ hm => execFullScrub_same hm (.self _ s) t c
  | .flaxStart t c ch => .frame fun _ hm => execFlaxStart_same hm (.self _ s) t c ch
  | .flaxStop t c ch => .frame fun _ hm => execFlaxStop_same hm (.self _ s) t c ch
  | .flaxBurst t memError corrected => .frame fun _ hm => execFlaxBurst_same hm (.self _ s) t memError corrected
  | .descriptorComplete t => .frame fun _ hm => execDescriptorComplete_same hm (.self _ s) t
  | .jobStart t c => .frame fun _ hm => execJobStart_same hm (.self _ s) t c
  | .jobResume t c => .frame fun _ hm => execJobResume_same hm (.self _ s) t c
  | .jobAbandon t c => .frame fun _ hm => execJobAbandon_same hm (.self _ s) t c
  | .deviceTimeWrite t c ns => .frame fun _ hm => execDeviceTimeWrite_same hm (.self _ s) t c ns
  | .timeAtNextPps t c ns => .frame fun _ hm => execTimeAtNextPps_same hm (.self _ s) t c ns
  | .rateCorrectionWrite t c r => .frame fun _ hm => execRateCorrectionWrite_same hm (.self _ s) t c r
  | .ppsEdge t code c1 c2 calibrated => .frame fun _ hm => execPpsEdge_same hm (.self _ s) t code c1 c2 calibrated
  | .ppsProcess t => .frame fun _ hm => execPpsProcess_same hm (.self _ s) t
  | .ppsLoss t => .frame fun _ hm => execPpsLoss_same hm (.self _ s) t
  | .intervalArm t c => .frame fun _ hm => execIntervalArm_same hm (.self _ s) t c
  | .intervalDisarm t c => .frame fun _ hm => execIntervalDisarm_same hm (.self _ s) t c
  | .intervalTimeout t => .frame fun _ hm => execIntervalTimeout_same hm (.self _ s) t
  | .tdcFallback t ch => .frame fun _ hm => execTdcFallback_same hm (.self _ s) t ch
  | .converter0Pass t => .frame fun _ hm => execConverter0Pass_same hm (.self _ s) t
  | .converter1Pass t c => .frame fun _ hm => execConverter1Pass_same hm (.self _ s) t c
  | .converter1Timer t => .frame fun _ hm => execConverter1Timer_same hm (.self _ s) t
  | .passEnd t conv reading => .frame fun _ hm => execPassEnd_same hm (.self _ s) t conv reading
  | .blankIn t level => .frame fun _ hm => execBlankIn_same hm (.self _ s) t level
  | .rtdSettingWrite t c rtd sub value phase => .frame fun _ hm => execRtdSettingWrite_same hm (.self _ s) t c rtd sub value phase
  | .converter1Reference t c value => .frame fun _ hm => execConverter1Reference_same hm (.self _ s) t c value
  | .calibrationStart t c => .frame fun _ hm => execCalibrationStart_same hm (.self _ s) t c
  | .longOperationEnd t outcome => .frame fun _ hm => execLongOperationEnd_same hm (.self _ s) t outcome
  | .enum t sender => .frame fun _ hm => execEnum_same hm (.self _ s) t sender
  | .enumTimeout t => .frame fun _ hm => execEnumTimeout_same hm (.self _ s) t
  | .enumEnd t position => .frame fun _ hm => execEnumEnd_same hm (.self _ s) t position
  | .marker t code c1 c2 => .frame fun _ hm => execMarker_same hm (.self _ s) t code c1 c2
  | .markerArrival t arrive depart => .frame fun _ hm => execMarkerArrival_same hm (.self _ s) t arrive depart
  | .turn t bins back => .frame fun _ hm => execTurn_same hm (.self _ s) t bins back
  | .sync t ts delay rate state => .frame fun _ hm => execSync_same hm (.self _ s) t ts delay rate state
  | .phaseStep t => .frame fun _ hm => execPhaseStep_same hm (.self _ s) t
  | .syncLoss t => .frame fun _ hm => execSyncLoss_same hm (.self _ s) t
  | .boundary t index stamp period => .frame fun _ hm => execBoundary_same hm (.self _ s) t index stamp period
  | .update t src give => .frame fun _ hm => execUpdate_same hm (.self _ s) t src give
  | .inject t on link action => .frame fun _ hm => execInject_same hm (.self _ s) t on link action
  | .sideLock t down => .frame fun _ hm => execSideLock_same hm (.self _ s) t down
  | .sideFault t down => .frame fun _ hm => execSideFault_same hm (.self _ s) t down
  | .drgRefiLoss t => .frame fun _ hm => execDrgRefiLoss_same hm (.self _ s) t
  | .referenceTimeout t => .frame fun _ hm => execReferenceTimeout_same hm (.self _ s) t
  | .podSecond t => .frame fun _ hm => execPodSecond_same hm (.self _ s) t
  | .incomeCredit t c uj => .frame fun _ hm => execIncomeCredit_same hm (.self _ s) t c uj
  | .balanceWrite t c uj => .frame fun _ hm => execBalanceWrite_same hm (.self _ s) t c uj
  | .managedOperation t c => .frame fun _ hm => execManagedOperation_same hm (.self _ s) t c
  | .rungChoice t => .frame fun _ hm => execRungChoice_same hm (.self _ s) t
  | .energyRefine t mean => .frame fun _ hm => execEnergyRefine_same hm (.self _ s) t mean
  | .onTimeEnd t => .frame fun _ hm => execOnTimeEnd_same hm (.self _ s) t
  | .watchdog t => .frame fun _ hm => execWatchdog_same hm (.self _ s) t
  | .restartWalnut t c => .frame fun _ hm => execRestartWalnut_same hm (.self _ s) t c
  | .walnutException t => .frame fun _ hm => execWalnutException_same hm (.self _ s) t
  | .temperatureReading t temps => .frame fun _ hm => execTemperatureReading_same hm (.self _ s) t temps
  | .logEntry t => .frame fun _ hm => execLogEntry_same hm (.self _ s) t
  | .logSelect t c number => .frame fun _ hm => execLogSelect_same hm (.self _ s) t c number
  | .acornMeasurement t monitor value => .frame fun _ hm => execAcornMeasurement_same hm (.self _ s) t monitor value
  | .avsStep t up acked => .frame fun _ hm => execAvsStep_same hm (.self _ s) t up acked
  | .planDerating t => .frame fun _ hm => execPlanDerating_same hm (.self _ s) t
  | .ledgerReset t c => .frame fun _ hm => execLedgerReset_same hm (.self _ s) t c
  | .downloadOpen t c => .frame fun _ hm => execDownloadOpen_same hm (.self _ s) t c
  | .downloadClose t c => .frame fun _ hm => execDownloadClose_same hm (.self _ s) t c
  | .downloadAbandon t c => .frame fun _ hm => execDownloadAbandon_same hm (.self _ s) t c
  | .canFdData t c data => .frame fun _ hm => execCanFdData_same hm (.self _ s) t c data
  | .imagePrepare t c => .frame fun _ hm => execImagePrepare_same hm (.self _ s) t c
  | .activate t c => .frame fun _ hm => execActivate_same hm (.self _ s) t c
  | .confirm t c => .frame fun _ hm => execConfirm_same hm (.self _ s) t c
  | .confirmTimeout t => .frame fun _ hm => execConfirmTimeout_same hm (.self _ s) t
  | .usdoRequest t c req => .frame fun _ hm => execUsdoRequest_same hm (.self _ s) t c req
  | .latestBoundaryRead t c => .frame fun _ hm => execLatestBoundaryRead_same hm (.self _ s) t c
  | .snapshotRead t c => .frame fun _ hm => execSnapshotRead_same hm (.self _ s) t c
  | .registerWrite t c index sub data => .frame fun _ hm => execRegisterWrite_same hm (.self _ s) t c index sub data
  | .leaseLapse t => .frame fun _ hm => execLeaseLapse_same hm (.self _ s) t
  | .transferTimeout t => .frame fun _ hm => execTransferTimeout_same hm (.self _ s) t
  | .heartbeat t => .frame fun _ hm => execHeartbeat_same hm (.self _ s) t
  | .emcy t => .frame fun _ hm => execEmcy_same hm (.self _ s) t
  | .unlock t c => .frame fun _ hm => execUnlock_same hm (.self _ s) t c
  | .injectionStart t c => .frame fun _ hm => execInjectionStart_same hm (.self _ s) t c
  | .injectionStop t c => .frame fun _ hm => execInjectionStop_same hm (.self _ s) t c
  | .reorderHoldTimeout t => .frame fun _ hm => execReorderHoldTimeout_same hm (.self _ s) t
  | .vbatLoss t => .frame fun _ hm => execVbatLoss_same hm (.self _ s) t
  | .drgRefiReturn t => .frame fun _ hm => execDrgRefiReturn_same hm (.self _ s) t
  | .messageCrcError t down => .frame fun _ hm => execMessageCrcError_same hm (.self _ s) t down
  | .hostFrameDrop t lane => .frame fun _ hm => execHostFrameDrop_same hm (.self _ s) t lane
  | .jobDone t readError corrected fallbacks => .frame fun _ hm => execJobDone_same hm (.self _ s) t readError corrected fallbacks
  | .downloadVerifyEnd t => .frame fun _ hm => execDownloadVerifyEnd_same hm (.self _ s) t
  | .activationLoadEnd t => .frame fun _ hm => execActivationLoadEnd_same hm (.self _ s) t
  | .walnutRestartDone t => .frame fun _ hm => execWalnutRestartDone_same hm (.self _ s) t
  | .userItemCheckpoint t engine => .frame fun _ hm => execUserItemCheckpoint_same hm (.self _ s) t engine
  | .pmbusRetry t acked => .frame fun _ hm => execPmbusRetry_same hm (.self _ s) t acked

/-- Settles O7: a part outside the list of a command is one of the mask that `exec_same` speaks of. -/
theorem commandsChangeOnlyTheirParts : Obligations.CommandsChangeOnlyTheirParts := by
  intro s t c ht p hp
  exact (exec_same s c t ht).out p hp

/-! ## The state after the first power-up -/

/-- Settles O3: the four cells of the dictionary that differ from their defaults stand in rising order, every other table is empty, and
the units are made with their number of instances. -/
theorem resetIsSound : Obligations.ResetIsSound where
  objects := by decide +kernel
  domains := rfl
  dram := rfl
  cashew := rfl
  data := rfl
  program := rfl
  rungs := rfl
  optics := rfl
  das := rfl
  poppy := rfl
  engines := rfl
  zones := List.length_replicate
  seqs := rfl
  captures := rfl
  queues := rfl
  flax := rfl
  tx := rfl
  rx := rfl
  emcy := by decide
  log := by decide

/-- A cell of the dictionary that the power-up does not list reads its default. -/
theorem reset_og_unlisted {k : Nat} (h₁ : k ≠ 0x210014) (h₂ : k ≠ 0x210018) (h₃ : k ≠ 0x4C0001) (h₄ : k ≠ 0x4C0002) :
    State.reset.og k = odflt k := by
  simp only [State.og, State.reset, sget, if_neg h₁.symm, if_neg h₂.symm, if_neg h₃.symm, if_neg h₄.symm]

/-- Settles O4: each value stands in `State.reset`, but for 0x2200:03 and 0x5E00:02, which read their default of 0. -/
theorem resetValues : Obligations.ResetValues := by
  have htime : State.reset.og 0x220003 = 0 := by decide +kernel
  have hlock : State.reset.og 0x5E0002 = 0 := by decide +kernel
  refine ⟨rfl, rfl, rfl, rfl, rfl, rfl, rfl, rfl, htime, rfl, rfl, rfl, hlock, ?_, fun a => ⟨rfl, rfl, rfl, rfl⟩⟩
  exact fun k h₁ h₂ h₃ h₄ => reset_og_unlisted h₁ h₂ h₃ h₄

end Sys2Proof.Machine
end

section
/-! SUPPORT. The control node (chapter 23): the tables' subindex 0, the gate of a request, what a read and a write answer, and the
node's own commands. -/

namespace Sys2Proof.Machine

open Sys2Proof

/-! ## Subindex 0 (R478) -/

theorem rowOf_mem {f : Family} {sub : Nat} {o : Obj} (h : rowOf f sub = some o) : o ∈ f.rows ∧ o.sub ≤ sub ∧ sub < o.sub + o.run := by
  have hp := List.find?_some h
  simp only [Bool.and_eq_true, decide_eq_true_eq] at hp
  exact ⟨List.mem_of_find?_eq_some h, hp⟩

/-- A running maximum only rises, and reaches what it has passed. -/
theorem foldl_max_le {α : Type} (g : α → Nat) : ∀ (l : List α) (m : Nat),
    m ≤ l.foldl (fun m x => max m (g x)) m ∧ ∀ x ∈ l, g x ≤ l.foldl (fun m x => max m (g x)) m
  | [], m => ⟨le_rfl, fun x hx => nomatch hx⟩
  | y :: l, m => by
    obtain ⟨hstart, hmem⟩ := foldl_max_le g l (max m (g y))
    refine ⟨(le_max_left _ _).trans hstart, fun x hx => ?_⟩
    obtain rfl | hx := List.mem_cons.1 hx
    · exact (le_max_right _ _).trans hstart
    · exact hmem x hx

/-- No row of a family lies above its highest subindex. -/
theorem rowOf_le_topSub {f : Family} {sub : Nat} {o : Obj} (h : rowOf f sub = some o) : sub ≤ topSub f := by
  obtain ⟨hmem, -, hlt⟩ := rowOf_mem h
  exact (Nat.le_sub_one_of_lt hlt).trans ((foldl_max_le (fun o : Obj => o.sub + o.run - 1) f.rows 0).2 o hmem)

/-- Every table holds its highest subindex, which is a byte. -/
theorem topSub_held : ∀ f ∈ families, topSub f < 256 ∧ (rowOf f (topSub f)).isSome = true := by decide +kernel

theorem objRow_of_rowOf {idx sub : Nat} {f : Family} {o : Obj} (hf : familyOf idx = some f) (ho : rowOf f sub = some o) :
    objRow idx sub = some o := by
  simp only [objRow, hf, ho]

theorem objRow_zero {idx : Nat} {f : Family} (hf : familyOf idx = some f) (ho : rowOf f 0 = none) :
    objRow idx 0 = some (cst 0 .u1 (topSub f)) := by
  simp only [objRow, hf, ho, if_true]

theorem objRow_none {idx sub : Nat} {f : Family} (hf : familyOf idx = some f) (ho : rowOf f sub = none) (hsub : sub ≠ 0) :
    objRow idx sub = none := by
  simp only [objRow, hf, ho, if_neg hsub]

/-- A row of the dictionary is its family's, or the const of subindex 0. -/
theorem objRow_cases {idx sub : Nat} {f : Family} {o : Obj} (hf : familyOf idx = some f) (ho : objRow idx sub = some o) :
    rowOf f sub = some o ∨ sub = 0 ∧ o = cst 0 .u1 (topSub f) := by
  cases hrow : rowOf f sub with
  | some o' => exact .inl ((objRow_of_rowOf hf hrow).symm.trans ho)
  | none =>
    by_cases hsub : sub = 0
    · subst hsub
      exact .inr ⟨rfl, Option.some.inj (ho.symm.trans (objRow_zero hf hrow))⟩
    · exact absurd (ho.symm.trans (objRow_none hf hrow hsub)) nofun

/-- Outside recovery mode the tables alone say where a request is judged. -/
theorem State.locate_eq {s : State} {idx : Nat} (sub : Nat) {f : Family} (hrec : s.og 0x500001 ≠ 1) (hf : familyOf idx = some f) :
    s.locate idx sub = (objRow idx sub).elim (.error 0x06090011) .ok := by
  cases hrow : objRow idx sub <;>
    simp only [State.locate, hrec, false_and, if_false, hf, Option.isNone_some, Bool.false_eq_true, hrow, Option.elim]

/-- Settles O9: a table without a row for subindex 0 answers the const of `objRow_zero`, and `locate` asks for the family first and
for the row then. -/
theorem subindexZero : Obligations.SubindexZero := by
  refine ⟨fun idx f hf hzero => ?_, fun s idx sub hrec hf => ?_, fun s idx sub f hrec hf hrow hsub => ?_⟩
  · obtain ⟨hbyte, hheld⟩ := topSub_held f (List.mem_of_find?_eq_some hf)
    obtain ⟨o, ho⟩ := Option.isSome_iff_exists.1 hheld
    refine ⟨objRow_zero hf hzero, hbyte, Option.isSome_iff_exists.2 ⟨o, objRow_of_rowOf hf ho⟩, fun sub hsub => ?_⟩
    obtain ⟨o', ho'⟩ := Option.isSome_iff_exists.1 hsub
    obtain hrow | ⟨rfl, -⟩ := objRow_cases hf ho'
    · exact rowOf_le_topSub hrow
    · exact Nat.zero_le _
  · simp only [State.locate, hrec, false_and, if_false, hf, Option.isNone_none, if_true]
  · rw [State.locate_eq sub hrec hf, objRow_none hf hrow hsub]
    rfl

/-! ## The gate (R468, R474) -/

/-- A long operation and another client's session turn a request away. -/
theorem State.gate_shut {s : State} {c : Nat} (h : s.ctl.longOp.isSome = true ∨ (s.og 0x200009 ≠ 0 ∧ s.og 0x200009 ≠ c)) :
    s.gate c = some 0x08000022 := by
  unfold State.gate
  by_cases hl : s.ctl.longOp.isSome = true
  · exact if_pos hl
  · rw [if_neg hl, if_pos (h.resolve_left hl)]

theorem State.gate_open {s : State} {c : Nat} (hl : s.ctl.longOp = none) (h : s.og 0x200009 = 0 ∨ s.og 0x200009 = c) :
    s.gate c = none := by
  unfold State.gate
  rw [if_neg (by rw [hl]; exact Bool.false_ne_true), if_neg fun k => h.elim k.1 k.2]

/-- A node that does not answer takes no request. -/
theorem exec_usdoRequest_silent {s : State} (t c : Nat) (req : UsdoReq) (h : s.served = false) :
    exec (.usdoRequest t c req) s = .next (s.at t) := by
  have h' : (s.at t).served = false := h
  refine congrArg Host.Outcome.next ?_
  cases req with
  | read idx sub seg => exact if_pos h'
  | write idx sub seg b =>
    cases seg with
    | false => exact State.hostWrite_silent _ h'
    | true => exact if_pos h'
  | segment b last => exact if_pos h'

/-- A request that the gate turns away is answered with its abort. -/
theorem exec_usdoRequest_shut {s : State} {c a : Nat} (t : Nat) (req : UsdoReq) (h : s.served = true) (hg : s.gate c = some a) :
    exec (.usdoRequest t c req) s = .next ((s.at t).answer c (.abort a)) := by
  have h' : ¬ (s.at t).served = false := fun k => Bool.false_ne_true (k.symm.trans h)
  have hg' : (s.at t).gate c = some a := hg
  refine congrArg Host.Outcome.next ?_
  cases req with
  | read idx sub seg =>
    refine (if_neg h').trans ?_
    rw [hg']
  | write idx sub seg b =>
    cases seg with
    | false => exact State.hostWrite_gated _ h hg'
    | true =>
      refine (if_neg h').trans ?_
      rw [hg']
  | segment b last =>
    refine (if_neg h').trans ?_
    rw [hg']

/-- A write that the tables refuse changes nothing but the session, and is answered with the abort. -/
theorem State.hostWrite_aborted {s : State} {c idx sub a : Nat} {seg : Bool} {b : List Byte} (f : State → Except Nat State)
    (h : s.served = true) (hg : s.gate c = none) (ha : (s.renew c).writeAbort idx sub seg b = some a) :
    s.hostWrite c idx sub seg b f = (s.renew c).answer c (.abort a) := by
  simp only [State.hostWrite, h, hg, ha, Bool.true_eq_false, if_false]

/-- Settles O8: a request of a client that the gate turns away is answered with its abort, and one that it lets pass renews the lease,
is judged by the tables, and has its effect. -/
theorem sessionGate : Obligations.SessionGate := by
  intro s t c req
  refine ⟨fun h => exec_usdoRequest_silent t c req h, fun h hg => exec_usdoRequest_shut t req h (State.gate_shut hg), ?_⟩
  intro h hl hc hsound
  have hg : (s.at t).gate c = none := State.gate_open hl hc
  have h' : (s.at t).served = true := h
  refine ⟨State.og_os_self _ _ _ hsound.objects, ?_, ?_⟩
  · rw [← State.at_now]
    rfl
  · rintro idx sub b rfl
    refine ⟨fun a ha => congrArg Host.Outcome.next (State.hostWrite_aborted _ h' hg ha), fun ha ht => ?_⟩
    have hacc : (s.at t).Accepts c idx sub false b := ⟨h', hg, ha, ht⟩
    refine congrArg Host.Outcome.next ?_
    cases he : writeEffect idx sub b ((s.at t).renew c) with
    | error a => exact State.hostWrite_refused hacc he
    | ok u => exact State.hostWrite_ok hacc he

/-! ## Reads (R469, R471) -/

/-- A read of an absent family is answered with zero, whatever its kind and whatever transfer is open (R34). -/
theorem State.hostRead_absent {s : State} {c idx sub : Nat} {o : Obj} (seg : Bool) (h : s.served = true) (hg : s.gate c = none)
    (ho : (s.renew c).locate idx sub = .ok o) (ha : (s.renew c).absent idx = true) :
    s.hostRead c idx sub seg = (s.renew c).answer c (.value (rep o.ty.size 0)) := by
  simp only [State.hostRead, State.readAbort, h, hg, ho, ha, Bool.true_eq_false, if_false, if_true]

/-- A read that the tables let pass, its kind that of the object: the answer, or the first segment of a transfer. -/
theorem State.hostRead_passes {s : State} {c idx sub : Nat} {o : Obj} {seg : Bool} (h : s.served = true) (hg : s.gate c = none)
    (ht : s.ctl.transfer = none) (ho : (s.renew c).locate idx sub = .ok o) (ha : (s.renew c).absent idx = false) (hwo : o.acc ≠ .wo)
    (hk : seg = (o.ty.size == 0)) :
    s.hostRead c idx sub seg = if seg = true then
        (((s.renew c).readObject idx sub o).2.openTransfer idx sub false ((s.renew c).readObject idx sub o).1).answer c .more
      else ((s.renew c).readObject idx sub o).2.answer c (.value ((s.renew c).readObject idx sub o).1) := by
  have ht' : (s.renew c).ctl.transfer = none := ht
  subst hk
  simp only [State.hostRead, State.readAbort, h, hg, ho, ha, ht', hwo, Bool.true_eq_false, Bool.false_eq_true, if_false,
    bne_self_eq_false, Option.isSome_none]

theorem State.hostRead_expedited {s : State} {c idx sub : Nat} {o : Obj} (h : s.served = true) (hg : s.gate c = none)
    (ht : s.ctl.transfer = none) (ho : (s.renew c).locate idx sub = .ok o) (ha : (s.renew c).absent idx = false) (hwo : o.acc ≠ .wo)
    (hk : o.ty.size ≠ 0) : s.hostRead c idx sub false =
      ((s.renew c).readObject idx sub o).2.answer c (.value ((s.renew c).readObject idx sub o).1) := by
  refine (State.hostRead_passes h hg ht ho ha hwo ?_).trans (if_neg Bool.false_ne_true)
  exact (beq_eq_false_iff_ne.2 hk).symm

theorem State.hostRead_segmented {s : State} {c idx sub : Nat} {o : Obj} (h : s.served = true) (hg : s.gate c = none)
    (ht : s.ctl.transfer = none) (ho : (s.renew c).locate idx sub = .ok o) (ha : (s.renew c).absent idx = false) (hwo : o.acc ≠ .wo)
    (hk : o.ty.size = 0) : s.hostRead c idx sub true =
      (((s.renew c).readObject idx sub o).2.openTransfer idx sub false ((s.renew c).readObject idx sub o).1).answer c .more := by
  refine (State.hostRead_passes h hg ht ho ha hwo ?_).trans (if_pos rfl)
  rw [hk]
  rfl

/-! ## Injection (R485) -/

theorem byte_toNat (n : Nat) : (byte n).toNat = n % 256 := BitVec.toNat_ofNat n 8

/-- Little-endian bytes read back what they hold. -/
theorem unle_le : ∀ n v : Nat, unle (le n v) = v % 256 ^ n
  | 0, v => (Nat.mod_one v).symm
  | n + 1, v => by
    rw [le, unle, unle_le n, byte_toNat, Nat.pow_succ', Nat.mod_mul]

theorem unle_le_of_lt {n v : Nat} (h : v < 256 ^ n) : unle (le n v) = v := (unle_le n v).trans (Nat.mod_eq_of_lt h)

/-- A write to 0x5E00:01 unlocks with the one value, and is refused with any other. -/
theorem writeEffect_unlock (v : Nat) (hv : v < 2 ^ 16) (s : State) : writeEffect 0x5E00 1 (le 2 v) s = unlock v s := by
  show unlock (unle (le 2 v)) s = _
  rw [unle_le_of_lt hv]

theorem unlock_pass (s : State) : unlock 0xC4A5 s = .ok (if s.og 0x5E0002 = 0 then s.os 0x5E0002 1 else s) := require_pass rfl

theorem unlock_stop {v : Nat} (h : v ≠ 0xC4A5) (s : State) : unlock v s = .error 0x06090030 := require_stop (decide_eq_false h)

/-- REGISTER_WRITE to 0x5E00:01 (R485). -/
theorem exec_registerWrite_unlock {s : State} {t c v : Nat} (h : (s.at t).Accepts c 0x5E00 1 false (le 2 v)) (hv : v < 2 ^ 16) :
    exec (.registerWrite t c 0x5E00 1 (le 2 v)) s = .next
      (if v = 0xC4A5 then (if s.og 0x5E0002 = 0 then ((s.at t).renew c).os 0x5E0002 1 else (s.at t).renew c).answer c .done
        else ((s.at t).renew c).answer c (.abort 0x06090030)) := by
  have heff := writeEffect_unlock v hv ((s.at t).renew c)
  have hog : ((s.at t).renew c).og 0x5E0002 = s.og 0x5E0002 := (s.at t).og_renew_of_ne c (by decide)
  refine congrArg Host.Outcome.next ?_
  by_cases hu : v = 0xC4A5
  · subst hu
    rw [if_pos rfl, ← hog]
    exact State.hostWrite_ok h (heff.trans (unlock_pass _))
  · rw [if_neg hu]
    exact State.hostWrite_refused h (heff.trans (unlock_stop hu _))

/-- Settles O58: the one value unlocks a locked injection, any other is refused, and UNLOCK is the write of that value. -/
theorem injectionUnlock : Obligations.InjectionUnlock := by
  refine ⟨by decide +kernel, fun s t c v hacc hv => ?_⟩
  have hexec := exec_registerWrite_unlock hacc hv
  refine ⟨hexec, ?_, fun hs => ⟨_, hexec, ?_⟩⟩
  · rintro rfl
    refine congrArg Host.Outcome.next ?_
    exact congrArg (fun f => State.hostWrite (s.at t) c 0x5E00 1 false (le 2 0xC4A5) f)
      (funext fun w => (writeEffect_unlock 0xC4A5 hv w).symm)
  · have hog : ((s.at t).renew c).og 0x5E0002 = s.og 0x5E0002 := (s.at t).og_renew_of_ne c (by decide)
    have hwf : swf odflt ((s.at t).renew c).objects = true := State.os_swf hs.objects _ _
    by_cases hu : v = 0xC4A5
    · by_cases hz : s.og 0x5E0002 = 0
      · rw [if_pos hu, if_pos hz, if_pos ⟨hu, hz⟩, State.answer_og, State.og_os_self _ _ _ hwf]
      · rw [if_pos hu, if_neg hz, if_neg fun k => hz k.2, State.answer_og, hog]
    · rw [if_neg hu, if_neg fun k => hu k.1, State.answer_og, hog]

/-! ## The node's own commands (R306, R469, R475, R476) -/

/-- TRANSFER_TIMEOUT of a transfer whose deadline has come (R469). -/
theorem exec_transferTimeout {s : State} {t : Nat} {x : Transfer} (hx : s.ctl.transfer = some x) (hd : x.deadline ≤ max s.now t) :
    exec (.transferTimeout t) s = .next (if (s.at t).served then
        (s.at t).closeTransfer.answer (s.og 0x200009) (.abort 0x05040000)
      else (s.at t).closeTransfer) := by
  have hx' : (s.at t).ctl.transfer = some x := hx
  rw [← State.at_now] at hd
  show execTransferTimeout t s = _
  unfold execTransferTimeout
  dsimp only
  rw [hx']
  exact congrArg Host.Outcome.next (if_neg (Nat.not_lt.2 hd))

/-- EMCY of the oldest that waits, once the inhibit time is over (R476). -/
theorem exec_emcy {s : State} {t : Nat} {e : Emcy} {r : List Emcy} (hw : s.ctl.waiting = e :: r) (hbus : s.onBus = true)
    (hn : s.pw.nmtStopped = false) (hi : s.ctl.emcyFrom ≤ max s.now t) :
    exec (.emcy t) s = .next { (s.at t).emit (.emcy (le 2 e.code ++ [byte (s.og 0x100100), byte e.detail] ++ le 4 e.argument)) with
      ctl := { s.ctl with waiting := r, emcyFrom := max s.now t + 100000 * s.og 0x101500 } } := by
  have hw' : (s.at t).ctl.waiting = e :: r := hw
  rw [← State.at_now] at hi ⊢
  show execEmcy t s = _
  unfold execEmcy
  dsimp only
  rw [hw']
  exact congrArg Host.Outcome.next (if_pos ⟨hbus, hn, hi⟩)

/-- The progress that STATUS_RECORD shows of a long operation (assumption log 13). -/
def LongOp.shown (o : LongOp) (now : Nat) : Nat := max o.progress (min 99 ((now - o.start) / 10000 / max 1 o.maximum))

theorem exec_statusRecord {s : State} {o : LongOp} (t : Nat) (ho : s.ctl.longOp = some o) :
    exec (.statusRecord t) s = .next (({ s.at t with ctl := { s.ctl with
      longOp := some { o with progress := o.shown (s.at t).now } } }.os 0x200006 (o.shown (s.at t).now)).statusNow) := by
  have ho' : (s.at t).ctl.longOp = some o := ho
  show execStatusRecord t s = _
  unfold execStatusRecord
  dsimp only
  rw [ho']
  rfl

theorem exec_longOperationEnd {s : State} {o : LongOp} (t : Nat) (out : LongOutcome) (ho : s.ctl.longOp = some o) :
    exec (.longOperationEnd t out) s = .next (((s.at t).finishLong o out).2.endLong ((s.at t).finishLong o out).1) := by
  have ho' : (s.at t).ctl.longOp = some o := ho
  show execLongOperationEnd t out s = _
  unfold execLongOperationEnd
  dsimp only
  rw [ho']

/-- OVERRUN_CLEAR of a mask of 16 bits (R292). -/
theorem exec_overrunClear {mask : Nat} (hm : mask < 65536) (s : State) (t c : Nat) :
    exec (.overrunClear t c mask) s = .next ((s.at t).hostWrite c 0x4000 3 false (le 2 mask) (overrunClear mask)) := by
  show execOverrunClear t c mask s = _
  rw [execOverrunClear, Nat.mod_eq_of_lt hm]

theorem injectionStart_pass {s : State} (h : s.og 0x5E0002 = 1) :
    injectionStart s = .ok ({ s.os 0x5E0002 2 with inj := { s.inj with x := 0x2545F491 } }.injectTell true) :=
  require_pass (decide_eq_true h)

theorem injectionStop_running {s : State} (h : s.og 0x5E0002 = 2) :
    injectionStop s = .ok ((s.os 0x5E0002 1).injectTell false) := by
  refine (require_pass (decide_eq_true ?_)).trans (congrArg Except.ok (if_pos h))
  rw [h]
  decide

/-- Settles O60: a read answers or opens its transfer, a write has the effect of its object, and each command of the node's own acts
where its condition holds. -/
theorem nodeCommandsComplete : Obligations.NodeCommandsComplete := by
  unfold Obligations.NodeCommandsComplete
  refine ⟨?_, ?_, ?_, ?_, ?_, ?_, ?_, ?_, ?_, ?_, ?_, ?_, ?_, ?_⟩
  · intro s t c idx sub o hserved hgate w hloc
    refine ⟨fun seg ha => ?_, fun ht ha hwo hk => ?_, fun ht ha hwo hk => ?_⟩
    · exact congrArg Host.Outcome.next (State.hostRead_absent seg hserved hgate hloc ha)
    · exact congrArg Host.Outcome.next (State.hostRead_expedited hserved hgate ht hloc ha hwo hk)
    · exact congrArg Host.Outcome.next (State.hostRead_segmented hserved hgate ht hloc ha hwo hk)
  · intro s t c hserved hgate ht w
    refine ⟨fun o hloc hwo hk => ?_, fun o hloc hwo hk => ?_⟩
    · exact congrArg Host.Outcome.next (State.hostRead_expedited hserved hgate ht hloc rfl hwo hk)
    · exact congrArg Host.Outcome.next (State.hostRead_segmented hserved hgate ht hloc rfl hwo hk)
  · intro s t c idx sub b u hacc hu
    exact congrArg Host.Outcome.next (State.hostWrite_ok hacc hu)
  · intro s t hc hl hd
    rw [← State.at_now] at hd
    exact congrArg Host.Outcome.next (if_pos ⟨hc, Option.isNone_iff_eq_none.2 hl, hd⟩)
  · intro s t x hx hd hserved
    exact (exec_transferTimeout hx hd).trans (congrArg Host.Outcome.next (if_pos hserved))
  · intro s t x hx hd hserved
    exact (exec_transferTimeout hx hd).trans
      (congrArg Host.Outcome.next (if_neg fun k => Bool.false_ne_true (hserved.symm.trans k)))
  · intro s t hbus hperiod
    exact congrArg Host.Outcome.next (if_pos ⟨hbus, hperiod⟩)
  · intro s t e r hw hbus hn hi
    exact exec_emcy hw hbus hn hi
  · intro s t out o ho
    exact exec_longOperationEnd t out ho
  · intro s t o ho
    refine ⟨o.shown (s.at t).now, le_max_left _ _, fun h => max_le h (min_le_left _ _), exec_statusRecord t ho⟩
  · intro s t c mask hacc hm
    exact (exec_overrunClear hm s t c).trans (congrArg Host.Outcome.next (State.hostWrite_ok hacc rfl))
  · intro s t c hacc hz
    exact congrArg Host.Outcome.next (State.hostWrite_ok hacc ((unlock_pass _).trans (congrArg Except.ok (if_pos hz))))
  · intro s t c hacc hone
    exact congrArg Host.Outcome.next (State.hostWrite_ok hacc (injectionStart_pass hone))
  · intro s t c hacc htwo
    exact congrArg Host.Outcome.next (State.hostWrite_ok hacc (injectionStop_running htwo))

end Sys2Proof.Machine
end

section
/-! SUPPORT. The host lanes (chapter 14): the transmit scheduler, what a lane sends, what the host's frames do, and the objects of a
lane that is not bonded. -/

namespace Sys2Proof.Machine

open Sys2Proof

/-! ## The transmit scheduler (R295, R320) -/

/-- A fold that keeps the lower class, once it has one. -/
theorem foldl_lowest_some {g : Option Nat → Nat → Option Nat} {cls : Nat → Nat} (hg : ∀ c q, g (some c) q = some (min c (cls q))) :
    ∀ (l : List Nat) (c : Nat), ∃ d, l.foldl g (some c) = some d ∧ d ≤ c ∧ (∀ q ∈ l, d ≤ cls q) ∧ (d = c ∨ ∃ q ∈ l, cls q = d)
  | [], c => ⟨c, rfl, le_rfl, nofun, .inl rfl⟩
  | x :: l, c => by
    obtain ⟨d, hd, hle, hall, hmem⟩ := foldl_lowest_some hg l (min c (cls x))
    refine ⟨d, (congrArg (l.foldl g) (hg c x)).trans hd, hle.trans (min_le_left _ _), ?_, ?_⟩
    · exact List.forall_mem_cons.2 ⟨hle.trans (min_le_right _ _), hall⟩
    · obtain rfl | ⟨q, hq, e⟩ := hmem
      · obtain h | h := min_choice c (cls x)
        · exact .inl h
        · exact .inr ⟨x, List.mem_cons_self, h.symm⟩
      · exact .inr ⟨q, List.mem_cons_of_mem _ hq, e⟩

/-- The same fold from nothing: the lowest class of a list, where it has a member. -/
theorem foldl_lowest {g : Option Nat → Nat → Option Nat} {cls : Nat → Nat} {l : List Nat} {m : Option Nat} (hm : l.foldl g none = m)
    (h0 : ∀ q, g none q = some (cls q)) (hg : ∀ c q, g (some c) q = some (min c (cls q))) (hl : l ≠ []) :
    ∃ d, m = some d ∧ (∀ q ∈ l, d ≤ cls q) ∧ ∃ q ∈ l, cls q = d := by
  subst hm
  obtain ⟨x, l, rfl⟩ := List.exists_cons_of_ne_nil hl
  obtain ⟨d, hd, hle, hall, hmem⟩ := foldl_lowest_some hg l (cls x)
  refine ⟨d, (congrArg (l.foldl g) (h0 x)).trans hd, List.forall_mem_cons.2 ⟨hle, hall⟩, ?_⟩
  obtain rfl | ⟨q, hq, e⟩ := hmem
  · exact ⟨x, List.mem_cons_self, rfl⟩
  · exact ⟨q, List.mem_cons_of_mem _ hq, e⟩

/-- What a rising list shows first of those that a predicate names is the least of them. -/
theorem le_of_find?_eq_some {p : Nat → Bool} : ∀ {l : List Nat} {q : Nat}, l.Pairwise (· < ·) → l.find? p = some q →
    ∀ r ∈ l, p r = true → q ≤ r
  | x :: l, q, hl, h, r, hr, hp => by
    obtain ⟨hx, hl⟩ := List.pairwise_cons.1 hl
    rw [List.find?_cons] at h
    split at h
    next => cases h; exact (List.mem_cons.1 hr).elim (fun e => e ▸ le_rfl) fun hr => (hx r hr).le
    next hpx =>
      obtain rfl | hr := List.mem_cons.1 hr
      · rw [hp] at hpx
        cases hpx
      · exact le_of_find?_eq_some hl h r hr hp

theorem le_of_head?_eq_some {l : List Nat} {q : Nat} (hl : l.Pairwise (· < ·)) (h : l.head? = some q) : ∀ r ∈ l, q ≤ r := by
  obtain ⟨l', rfl⟩ := List.head?_eq_some_iff.1 h
  exact List.forall_mem_cons.2 ⟨le_rfl, fun r hr => ((List.pairwise_cons.1 hl).1 r hr).le⟩

/-- The queues that can be served on a lane, in ascending order. -/
def State.candidates (s : State) (lane : Nat) : List Nat := (List.range 16).filter (s.servable lane)

theorem State.mem_candidates {s : State} {lane q : Nat} : q ∈ s.candidates lane ↔ q < 16 ∧ s.servable lane q = true := by
  rw [State.candidates, List.mem_filter, List.mem_range]

theorem State.candidates_sorted (s : State) (lane : Nat) : (s.candidates lane).Pairwise (· < ·) :=
  List.Pairwise.filter _ List.pairwise_lt_range

/-- Of the candidates of the lowest class, `pickQueue` takes the first from the turn of that class on, else the first. -/
theorem State.pickQueue_of_candidates {s : State} {lane : Nat} (h : s.candidates lane ≠ []) :
    ∃ c, (∀ q ∈ s.candidates lane, c ≤ (s.queue q).cls) ∧ (∃ q ∈ s.candidates lane, (s.queue q).cls = c) ∧
      s.pickQueue lane =
        (((s.candidates lane).filter fun q => decide ((s.queue q).cls = c)).find? fun q => decide (s.qu.turn.getD c 0 ≤ q)).or
          ((s.candidates lane).filter fun q => decide ((s.queue q).cls = c)).head? := by
  unfold State.pickQueue
  dsimp only
  rw [← State.candidates]
  split
  next hnone =>
    obtain ⟨c, hc, -⟩ := foldl_lowest (cls := fun q => (s.queue q).cls) hnone (fun _ => rfl) (fun _ _ => rfl) h
    cases hc
  next d hd =>
    obtain ⟨c, hc, hall, hmem⟩ := foldl_lowest (cls := fun q => (s.queue q).cls) hd (fun _ => rfl) (fun _ _ => rfl) h
    cases hc
    refine ⟨d, hall, hmem, ?_⟩
    split
    next q hq => rw [hq, Option.some_or]
    next hq => rw [hq, Option.none_or]

theorem State.pickQueue_eq_none {s : State} {lane : Nat} : s.pickQueue lane = none ↔ s.candidates lane = [] := by
  refine ⟨fun h => by_contra fun hne => ?_, fun h => ?_⟩
  · obtain ⟨c, -, ⟨q, hq, hcls⟩, hpick⟩ := State.pickQueue_of_candidates hne
    obtain ⟨-, hhead⟩ := Option.or_eq_none_iff.1 (hpick.symm.trans h)
    have hmine := List.head?_eq_none_iff.1 hhead
    exact List.not_mem_nil (hmine ▸ List.mem_filter.2 ⟨hq, decide_eq_true hcls⟩)
  · unfold State.pickQueue
    dsimp only
    rw [← State.candidates, h]
    rfl

/-- The queue that a lane serves, against any other that could be served there. -/
theorem State.pickQueue_eq_some {s : State} {lane q : Nat} (h : s.pickQueue lane = some q) :
    q ∈ s.candidates lane ∧ (∀ r ∈ s.candidates lane, (s.queue q).cls ≤ (s.queue r).cls) ∧
      ∀ r ∈ s.candidates lane, (s.queue r).cls = (s.queue q).cls →
        let turn := s.qu.turn.getD (s.queue q).cls 0
        if turn ≤ q then turn ≤ r → q ≤ r else r < turn ∧ q ≤ r := by
  have hne : s.candidates lane ≠ [] := fun k => by
    rw [State.pickQueue_eq_none.2 k] at h
    cases h
  obtain ⟨c, hall, -, hpick⟩ := State.pickQueue_of_candidates hne
  have hsorted : ((s.candidates lane).filter fun q => decide ((s.queue q).cls = c)).Pairwise (· < ·) :=
    (s.candidates_sorted lane).filter _
  have hmine {r : Nat} : r ∈ ((s.candidates lane).filter fun q => decide ((s.queue q).cls = c)) ↔
      r ∈ s.candidates lane ∧ (s.queue r).cls = c := by rw [List.mem_filter, decide_eq_true_iff]
  obtain hfind | ⟨hfind, hhead⟩ := Option.or_eq_some_iff.1 (hpick.symm.trans h)
  · obtain ⟨hq, rfl⟩ := hmine.1 (List.mem_of_find?_eq_some hfind)
    refine ⟨hq, hall, fun r hr hcls => ?_⟩
    dsimp only
    have hturn : s.qu.turn.getD (s.queue q).cls 0 ≤ q := by simpa only [decide_eq_true_eq] using List.find?_some hfind
    rw [if_pos hturn]
    exact fun hle => le_of_find?_eq_some hsorted hfind r (hmine.2 ⟨hr, hcls⟩) (decide_eq_true hle)
  · obtain ⟨hq, rfl⟩ := hmine.1 (List.mem_of_mem_head? hhead)
    have hbelow (r : Nat) (hr : r ∈ s.candidates lane) (hcls : (s.queue r).cls = (s.queue q).cls) :
        ¬ s.qu.turn.getD (s.queue q).cls 0 ≤ r := fun k => List.find?_eq_none.1 hfind r (hmine.2 ⟨hr, hcls⟩) (decide_eq_true k)
    refine ⟨hq, hall, fun r hr hcls => ?_⟩
    dsimp only
    rw [if_neg (hbelow q hq rfl)]
    exact ⟨Nat.lt_of_not_le (hbelow r hr hcls), le_of_head?_eq_some hsorted hhead r (hmine.2 ⟨hr, hcls⟩)⟩

/-- Settles O42: the scheduler's queue is `pickQueue_eq_some` of the candidates of the lane. -/
theorem schedulerServesByClass : Obligations.SchedulerServesByClass := by
  intro s lane
  refine ⟨State.pickQueue_eq_none.trans ?_, fun q h => ?_⟩
  · rw [State.candidates, List.filter_eq_nil_iff]
    simp only [List.mem_range, Bool.not_eq_true]
  · obtain ⟨hq, hclass, hturn⟩ := State.pickQueue_eq_some h
    obtain ⟨hlt, hserv⟩ := State.mem_candidates.1 hq
    exact ⟨hlt, hserv, fun r hr hs => hclass r (State.mem_candidates.2 ⟨hr, hs⟩),
      fun r hr hs => hturn r (State.mem_candidates.2 ⟨hr, hs⟩)⟩

/-! ## A lane that is not bonded (R331) -/

/-- Table 14-6 of a transmit lane. -/
def txFamily : Family :=
  ⟨0x4040, 1, 8, [ro 1 .u1, ro 2 .u4, ro 3 .u4, ro 4 .u4, rw_ 5 .u1 2 0 15, rw_ 6 .u1 8 0 31, rw_ 7 .u1 1 0 2]⟩

theorem familyOf_tx : ∀ n < 8, familyOf (0x4040 + n) = some txFamily := by decide

theorem portFamily_tx : ∀ n < 8, portFamily (0x4040 + n) = none := by decide

/-- Every object of a transmit lane is a number that can be read. -/
theorem txRow_number {n sub : Nat} {o : Obj} (hn : n < 8) (ho : objRow (0x4040 + n) sub = some o) : o.ty.size ≠ 0 ∧ o.acc ≠ .wo := by
  have hrows : ∀ o ∈ txFamily.rows, o.ty.size ≠ 0 ∧ o.acc ≠ .wo := by decide
  obtain hrow | ⟨-, rfl⟩ := objRow_cases (familyOf_tx n hn) ho
  · exact hrows o (rowOf_mem hrow).1
  · decide

theorem State.absent_tx (s : State) {n : Nat} (hn : n < 8) : s.absent (0x4040 + n) = false := by
  rw [State.absent, portFamily_tx n hn]

theorem State.unbondedLane_tx {s : State} {n : Nat} (hn : n < 8) (h : s.lanesBonded ≤ n) : s.unbondedLane (0x4040 + n) = true :=
  decide_eq_true ⟨by omega, by omega, by omega⟩

theorem segmentedKind_tx {n : Nat} (hn : n < 8) (sub : Nat) : segmentedKind (0x4040 + n) sub = false := by
  unfold segmentedKind
  split
  next o ho => exact beq_eq_false_iff_ne.2 (txRow_number hn ho).1
  next => rfl

/-- A write that reaches an object of an unbonded lane is refused there. -/
theorem writeEffect_unbonded {s : State} {n : Nat} (sub : Nat) (b : List Byte) (hn : n < 8) (h : s.lanesBonded ≤ n) :
    writeEffect (0x4040 + n) sub b s = .error 0x08000020 := if_pos (State.unbondedLane_tx hn h)

/-- An object of an unbonded lane other than subindex 0 reads zero. -/
theorem State.readObject_unbonded {s : State} {n sub : Nat} (o : Obj) (hn : n < 8) (h : s.lanesBonded ≤ n) (hsub : sub ≠ 0) :
    s.readObject (0x4040 + n) sub o = (rep o.ty.size 0, s) := if_pos (.inr ⟨State.unbondedLane_tx hn h, hsub⟩)

/-- Settles O43: a read finds the lane unbonded, and a write is refused by the tables or, past them, by `writeEffect_unbonded`. -/
theorem unbondedLanes : Obligations.UnbondedLanes := by
  intro s t c n sub hn hbond hserved hgate hrec htrans w
  have heff (b : List Byte) : writeEffect (0x4040 + n) sub b w = .error 0x08000020 := writeEffect_unbonded sub b hn hbond
  have hwrite (b : List Byte) (hacc : (s.at t).Accepts c (0x4040 + n) sub false b) :
      exec (.registerWrite t c (0x4040 + n) sub b) s = .next (w.answer c (.abort 0x08000020)) := by
    rw [← segmentedKind_tx hn sub] at hacc
    exact congrArg Host.Outcome.next (State.hostWrite_refused hacc (heff b))
  refine ⟨fun o ho hsub => ?_, hwrite, fun b => ?_⟩
  · obtain ⟨hsize, hwo⟩ := txRow_number hn ho
    have hrec' : w.og 0x500001 ≠ 1 := by rwa [State.og_renew_of_ne _ _ (by decide)]
    have hloc : w.locate (0x4040 + n) sub = .ok o := by
      rw [State.locate_eq sub hrec' (familyOf_tx n hn), ho]
      rfl
    have hread : w.readObject (0x4040 + n) sub o = (rep o.ty.size 0, w) := State.readObject_unbonded o hn hbond hsub
    exact congrArg Host.Outcome.next
      ((State.hostRead_expedited (s := s.at t) hserved hgate htrans hloc (w.absent_tx hn) hwo hsize).trans
        (congrArg (fun r : List Byte × State => r.2.answer c (.value r.1)) hread))
  · cases ha : w.writeAbort (0x4040 + n) sub false b with
    | none => exact ⟨_, hwrite b ⟨hserved, hgate, ha, htrans⟩⟩
    | some a =>
      rw [← segmentedKind_tx hn sub] at ha
      exact ⟨a, congrArg Host.Outcome.next (State.hostWrite_aborted (s := s.at t) _ hserved hgate ha)⟩

/-! ## Injection leaves what it does not touch (R488, R489) -/

theorem State.candidate_quiet {s : State} (h : s.og 0x5E0002 ≠ 2) (link : Nat) : s.candidate link = (none, s) := if_neg fun k => h k.1

/-- A release keeps what is held and not due. -/
theorem State.releaseHeld_inj (s : State) (due : Nat → Bool) : (s.releaseHeld due).inj = { s.inj with
    heldTx := s.inj.heldTx.filter fun h => !due h.2.2, heldMsg := s.inj.heldMsg.filter fun h => !due h.2.2 } := by
  unfold State.releaseHeld
  extract_lets w v
  have hw : w.inj = s.inj := List.foldlRecOn (motive := fun z : State => z.inj = s.inj) _ _ rfl fun _ hz _ _ => hz
  have hv : v.inj = s.inj := List.foldlRecOn (motive := fun z : State => z.inj = s.inj) _ _ hw fun _ hz _ _ => hz
  exact congrArg (fun i : Inject => { i with
    heldTx := i.heldTx.filter fun h => !due h.2.2, heldMsg := i.heldMsg.filter fun h => !due h.2.2 }) hv

/-- With no frame of the lane held and no injection, a new data frame goes out after what is due. -/
theorem State.sendData_quiet {s : State} {n : Nat} (hheld : (s.inj.heldTx.any fun h => decide (h.1 = n)) = false)
    (hq : s.og 0x5E0002 ≠ 2) (f : LaneFrame) : s.sendData n f = s.releaseDue.emit (.frame n f.bytes) := by
  have hobj : s.releaseDue.objects = s.objects := (State.releaseDue_same rfl (.self 8 s)).objects_eq
  have hfind : (s.releaseDue.inj.heldTx.find? fun h => decide (h.1 = n)) = none := by
    refine List.find?_eq_none.2 fun x hx => ?_
    rw [State.releaseDue, State.releaseHeld_inj] at hx
    exact List.any_eq_false.1 hheld x (List.mem_of_mem_filter hx)
  unfold State.sendData
  dsimp only
  rw [hfind]
  dsimp only
  rw [State.candidate_quiet (by rwa [State.og_of_objects hobj])]
  rfl

/-! ## What a lane sends (R319 to R324) -/

theorem State.releaseBanks_og (s : State) {k : Nat} (hk : 0x420200 ≤ k) : s.releaseBanks.og k = s.og k := by
  unfold State.releaseBanks
  split
  · next pl =>
    refine List.foldlRecOn (motive := fun z : State => z.og k = s.og k) (List.range 48) _ rfl fun z hz b hb => ?_
    have hb := List.mem_range.1 hb
    split
    · exact (State.og_os_of_ne _ _ (by unfold okey; omega)).trans hz
    · exact hz
  · rfl

/-- Taking a frame from its queue changes no object above those of the banks. -/
theorem State.nextFrame_og (s : State) (n q : Nat) {k : Nat} (hk : 0x420200 ≤ k) : (s.nextFrame n q).2.og k = s.og k := by
  unfold State.nextFrame
  extract_lets qq recs
  split
  dsimp only
  split
  · exact State.releaseBanks_og _ hk
  · rfl

theorem State.nextFrame_frame (s : State) (n q : Nat) :
    (s.nextFrame n q).1.queue = q ∧ (s.nextFrame n q).1.qseq = (s.queue q).frameSeq ∧ (s.nextFrame n q).1.lseq = (s.tx n).lseq :=
  ⟨rfl, rfl, rfl⟩

theorem exec_dataFrame_resend {s : State} {t n : Nat} {r : LaneFrame × Nat} (hc : (s.at t).canSend n = true)
    (hr : ((s.tx n).resend.find? fun r => decide (r.2 ≤ max s.now t)) = some r) :
    exec (.dataFrame t n) s = .next ((((((s.at t).setTx n fun l => { l with
      resend := l.resend.erase r, lastSent := max s.now t, wake := none }).bump (tk n 3)).count 52)).emit (.frame n r.1.bytes)) := by
  rw [← State.at_now] at hr ⊢
  have hr' : (((s.at t).tx n).resend.find? fun r => decide (r.2 ≤ (s.at t).now)) = some r := hr
  refine (if_neg (ne_false_of_eq_true hc)).trans ?_
  rw [hr']
  rfl

theorem exec_dataFrame_new {s : State} {t n q : Nat} (hc : (s.at t).canSend n = true)
    (hr : ((s.tx n).resend.find? fun r => decide (r.2 ≤ max s.now t)) = none) (hq : s.pickQueue n = some q) :
    exec (.dataFrame t n) s = .next (((s.at t).nextFrame n q).2.sendNew n ((s.at t).nextFrame n q).1) := by
  rw [← State.at_now] at hr
  have hr' : (((s.at t).tx n).resend.find? fun r => decide (r.2 ≤ (s.at t).now)) = none := hr
  have hq' : (s.at t).pickQueue n = some q := hq
  refine (if_neg (ne_false_of_eq_true hc)).trans ?_
  rw [hr']
  dsimp only
  rw [hq']

/-- The state in which a new data frame has entered the lane's replay buffer (R323). -/
def State.keepFrame (s : State) (n : Nat) (f : LaneFrame) : State :=
  (s.setTx n fun l => { l with lseq := (l.lseq + 1) % 65536, replay := (l.replay ++ [f]).drop (l.replay.length + 1 - 1024)
                               lastSent := s.now, wake := none }).bump (tk n 2)

theorem State.sendNew_quiet {s : State} {n : Nat} (hn : n < 8) (hheld : (s.inj.heldTx.any fun h => decide (h.1 = n)) = false)
    (hq : s.og 0x5E0002 ≠ 2) (f : LaneFrame) : s.sendNew n f = (s.keepFrame n f).releaseDue.emit (.frame n f.bytes) := by
  refine State.sendData_quiet (s := s.keepFrame n f) hheld ?_ f
  unfold State.keepFrame State.bump
  rwa [State.og_os_of_ne _ _ (by unfold tk okey; omega)]

/-! ## Electrical idle and lock (R325 to R328) -/

/-- A lane with nothing to send and nothing due. -/
theorem State.laneQuiet_iff {s : State} {n : Nat} : s.laneQuiet n = true ↔
    (s.tx n).resend = [] ∧ s.pickQueue n = none ∧ (s.tx n).due = false ∧ s.now < (s.tx n).control + 100000 := by
  unfold State.laneQuiet
  simp only [Bool.and_eq_true, List.isEmpty_iff, Option.isNone_iff_eq_none, Bool.not_eq_true', decide_eq_true_eq, and_assoc]

theorem exec_electricalIdleExit {s : State} {t n : Nat} (hi : (s.tx n).idle = true)
    (h : (s.at t).laneQuiet n = false ∨ s.og 0x400004 = 0) :
    exec (.electricalIdleExit t n) s = .next ((s.at t).setTx n fun l =>
      { l with idle := false, lastSent := max s.now t, wake := some (max s.now t) }) := by
  rw [← State.at_now]
  exact congrArg Host.Outcome.next ((if_pos h).trans (if_pos hi))

theorem exec_adaptation {s : State} {m : Nat} (t ctle : Nat) (dfe : List Int) (fom : Nat) (hs : s.pw.serial = true) (hm : m < 2)
    {w : State} (hw : w = if s.og (rk m 4) = 0 then
      ((s.at t).os (rk m 3) (ctle % 16)).setRx m fun r => { r with dfe := dfe, training := true } else s.at t) :
    exec (.adaptation t m ctle dfe fom) s = .next (((w.osBit (rk m 1) 1 (w.ln.rx.getD m ⟨false, false, []⟩).training).os
      (rk m 2) (fom % 256)).osBit (rk m 1) 2 (decide (fom % 256 < 64))) := by
  subst hw
  exact if_pos ⟨hs, hm⟩

/-- Settles O41: each command acts where its condition holds, and a frame goes out unheld where no injection touches it. -/
theorem laneCommandsComplete : Obligations.LaneCommandsComplete := by
  unfold Obligations.LaneCommandsComplete
  refine ⟨?_, ?_, ?_, ?_, ?_, ?_, ?_, ?_, ?_⟩
  · intro s t n r hc hr
    exact exec_dataFrame_resend hc hr
  · intro s t n q hc hn hr hq hheld hinj f w
    obtain ⟨hfq, hfs, hfl⟩ := (s.at t).nextFrame_frame n q
    have hinj' : w.inj = s.inj := ((s.at t).nextFrame_same rfl (.self 2147483648 _) n q).parts .inj rfl
    refine ⟨hfq, hfs, hfl, (exec_dataFrame_new hc hr hq).trans (congrArg Host.Outcome.next ?_)⟩
    exact State.sendNew_quiet (s := w) hn (by rw [hinj']; exact hheld) (by rw [State.nextFrame_og _ _ _ (by decide)]; exact hinj) f
  · intro s t n hc p
    rw [← State.at_now]
    exact if_neg (ne_false_of_eq_true hc)
  · intro s t n hn hup hidle hd hres hpick hdue hctl hlast
    rw [← State.at_now] at hctl hlast
    have hquiet : (s.at t).laneQuiet n = true := State.laneQuiet_iff.2 ⟨hres, hpick, hdue, hctl⟩
    exact if_pos ⟨hn, hup, hidle, hd, hquiet, hlast⟩
  · intro s t n hidle h
    refine exec_electricalIdleExit hidle (or_iff_not_imp_right.2 fun hz => eq_false_of_ne_true fun hquiet => ?_)
    obtain ⟨hres, hpick, hdue, hctl⟩ := State.laneQuiet_iff.1 hquiet
    rw [State.at_now] at hctl
    obtain h | h | h | h | h := h
    · exact hz h
    · exact h hres
    · exact h hpick
    · exact Bool.false_ne_true (hdue.symm.trans h)
    · exact Nat.not_le.2 hctl h
  · intro s t m hs hm
    exact if_pos ⟨hs, hm⟩
  · intro s t m hm hl
    exact if_pos ⟨hm, hl⟩
  · intro s t m ctle dfe fom hs hm hz
    exact exec_adaptation t ctle dfe fom hs hm (if_neg hz).symm
  · intro s t m ctle dfe fom hs hm hz w
    exact exec_adaptation t ctle dfe fom hs hm (if_pos hz).symm

/-! ## The host's frames (R320 to R330) -/

/-- With nothing of the predicate held, nothing leaves. -/
theorem State.releaseRx_none {s : State} {due : Nat → Bool} (h : (s.inj.heldRx.any fun h => due h.2.2) = false) :
    s.releaseRx due = s := by
  have hall := List.any_eq_false.1 h
  have hout : (s.inj.heldRx.filter fun h => due h.2.2) = [] := List.filter_eq_nil_iff.2 hall
  have hstay : (s.inj.heldRx.filter fun h => !due h.2.2) = s.inj.heldRx :=
    List.filter_eq_self.2 fun x hx => by rw [eq_false_of_ne_true (hall x hx)]; rfl
  unfold State.releaseRx
  dsimp only
  rw [hout, hstay]
  rfl

/-- A frame that injection does not touch has its effect. -/
theorem State.Receives.rxFrame {s : State} {m : Nat} (h : s.Receives m) (f : RxFrame) : s.rxFrame m f = s.rxProcess m f := by
  have hgo : ¬ (s.pw.serial = false ∨ 2 ≤ m ∨ (s.ln.rx.getD m ⟨false, false, []⟩).locked = false) := by
    rw [h.serial, h.locked]
    simpa using h.two
  have hfind : (s.inj.heldRx.find? fun h => decide (h.1 = m)) = none :=
    List.find?_eq_none.2 (List.any_eq_false.1 h.alone)
  unfold State.rxFrame
  dsimp only
  rw [State.releaseRx_none h.later, if_neg hgo, hfind]
  dsimp only
  rw [State.candidate_quiet h.quiet]

/-- The limit that a credit frame leaves a queue (R320). -/
theorem State.creditFrame_credit {s : State} (words : List Nat) (hl : s.ln.credit.length = 16) {q : Nat} (hq : q < 16) :
    (s.creditFrame words).ln.credit.getD q 0 =
      if bit (words.getD q 0) 31 then words.getD q 0 % 65536 else s.ln.credit.getD q 0 := by
  have hq' : q < s.ln.credit.length := hl ▸ hq
  have hlen : q < (s.ln.credit.zipIdx.map fun x =>
      if bit (words.getD x.2 0) 31 then words.getD x.2 0 % 65536 else x.1).length := by
    rwa [List.length_map, List.length_zipIdx]
  refine (List.getD_eq_getElem _ _ hlen).trans ?_
  rw [List.getElem_map, List.getElem_zipIdx, List.getD_eq_getElem _ 0 hq', Nat.zero_add]

/-! ## Lanes up and down (R325) -/

theorem getD_modAt_of_ne {α : Type} {l : List α} {i j : Nat} (h : j ≠ i) (f : α → α) (d : α) :
    (modAt l i f).getD j d = l.getD j d := by
  simp only [modAt, List.getD_eq_getElem?_getD, List.getElem?_modify_ne f _ h.symm]

theorem State.tx_setTx_self {s : State} {n : Nat} (hn : n < s.ln.tx.length) (f : TxLane → TxLane) : (s.setTx n f).tx n = f (s.tx n) :=
  getD_modAt_self hn f _

theorem State.tx_setTx_of_ne (s : State) {n k : Nat} (h : k ≠ n) (f : TxLane → TxLane) : (s.setTx n f).tx k = s.tx k :=
  getD_modAt_of_ne h f _

theorem State.setTx_tx_length (s : State) (n : Nat) (f : TxLane → TxLane) : (s.setTx n f).ln.tx.length = s.ln.tx.length :=
  length_modAt _ _ _

/-- Lanes of which each is changed by a function of its own, in ascending order. -/
def State.eachTx (s : State) (g : Nat → TxLane → TxLane) (n : Nat) : State := (List.range n).foldl (fun z k => z.setTx k (g k)) s

theorem State.eachTx_succ (s : State) (g : Nat → TxLane → TxLane) (n : Nat) : s.eachTx g (n + 1) = (s.eachTx g n).setTx n (g n) := by
  rw [State.eachTx, List.range_succ, List.foldl_append]
  rfl

theorem State.eachTx_tx {s : State} (g : Nat → TxLane → TxLane) : ∀ {n : Nat}, n ≤ s.ln.tx.length →
    (s.eachTx g n).ln.tx.length = s.ln.tx.length ∧ ∀ k, (s.eachTx g n).tx k = if k < n then g k (s.tx k) else s.tx k
  | 0, _ => ⟨rfl, fun k => (if_neg (Nat.not_lt_zero k)).symm⟩
  | n + 1, hn => by
    obtain ⟨hlen, htx⟩ := State.eachTx_tx g (Nat.le_of_succ_le hn)
    rw [State.eachTx_succ]
    refine ⟨(State.setTx_tx_length _ _ _).trans hlen, fun k => ?_⟩
    by_cases hk : k = n
    · subst hk
      rw [State.tx_setTx_self (hlen ▸ hn), htx, if_neg (Nat.lt_irrefl k), if_pos (Nat.lt_succ_self k)]
    · rw [State.tx_setTx_of_ne _ hk, htx]
      exact if_congr (by omega) rfl rfl

theorem State.eachTx_rest (s : State) (g : Nat → TxLane → TxLane) (n : Nat) : (s.eachTx g n).objects = s.objects ∧
    (s.eachTx g n).now = s.now ∧ (s.eachTx g n).pw = s.pw ∧ (s.eachTx g n).ln.rx = s.ln.rx :=
  List.foldlRecOn (motive := fun z : State => z.objects = s.objects ∧ z.now = s.now ∧ z.pw = s.pw ∧ z.ln.rx = s.ln.rx) (List.range n) _
    ⟨rfl, rfl, rfl, rfl⟩ fun _ hz _ _ => hz

/-- A lane without the resends that wait on it. -/
def TxLane.clear (l : TxLane) : TxLane := { l with resend := [] }

/-- Moving resends leaves everything else of a lane. -/
theorem State.moveResends_clear (s : State) (n : Nat) : (s.moveResends.tx n).clear = (s.tx n).clear := by
  have hset (z : State) (k : Nat) (f : TxLane → TxLane) (hf : ∀ l, (f l).clear = l.clear) :
      ((z.setTx k f).tx n).clear = (z.tx n).clear := by
    by_cases hk : n = k
    · subst hk
      by_cases hn : n < z.ln.tx.length
      · rw [State.tx_setTx_self hn, hf]
      · have hout (y : State) (hy : y.ln.tx.length = z.ln.tx.length) : y.tx n = TxLane.blank 0 :=
          List.getD_eq_default _ _ (by omega)
        rw [hout z rfl, hout _ (State.setTx_tx_length z n f)]
    · rw [State.tx_setTx_of_ne _ hk]
  unfold State.moveResends
  refine List.foldlRecOn (motive := fun z : State => (z.tx n).clear = (s.tx n).clear) _ _ rfl fun z hz k _ => ?_
  dsimp only
  split
  · exact hz
  · refine List.foldlRecOn (motive := fun y : State => (y.tx n).clear = (s.tx n).clear) _ _ ?_ fun y hy x _ => ?_
    · refine Eq.trans ?_ hz
      exact hset z k _ fun _ => rfl
    · refine Eq.trans ?_ hy
      exact hset y _ _ fun _ => rfl

theorem bit_mod {mask n k : Nat} (h : n < k) : bit (mask % 2 ^ k) n = bit mask n := by
  have e : mask % 2 ^ k / 2 ^ n % 2 = mask / 2 ^ n % 2 := by
    rw [show 2 ^ k = 2 ^ n * 2 ^ (k - n) by rw [← Nat.pow_add]; congr 1; omega, Nat.mod_mul_right_div_self,
      Nat.mod_mod_of_dvd _ (dvd_pow_self 2 (by omega))]
  rw [bit, bit, e]

/-- A lane that the host's mask shows comes up (R325). -/
def TxLane.raise (l : TxLane) (shown : Bool) (now : Nat) : TxLane := if shown && !l.up then { l with up := true, control := now } else l

/-- With a receive lane locked, the lanes of the host's mask come up. -/
theorem State.upLanes_eq {s : State} (h : s.ln.rx.any (·.locked) = true) :
    s.upLanes = s.eachTx (fun n l => l.raise (bit (s.og 0x400005) n) s.now) s.lanesBonded := by
  refine (if_pos h).trans ?_
  generalize hg : (fun n l => TxLane.raise l (bit (s.og 0x400005) n) s.now) = g
  generalize s.lanesBonded = b
  induction b with
  | zero => rfl
  | succ b ih =>
    obtain ⟨hobj, hnow, -, -⟩ := s.eachTx_rest g b
    rw [State.eachTx_succ, List.range_succ, List.foldl_append, ih]
    show (s.eachTx g b).setTx b (TxLane.raise · (bit ((s.eachTx g b).og 0x400005) b) (s.eachTx g b).now) = _
    rw [State.og_of_objects hobj, hnow, ← hg]

/-- A host status takes the lanes that its mask clears down. -/
def TxLane.lower (l : TxLane) (shown : Bool) : TxLane := if shown then l else { l with up := false, idle := false, wake := none }

theorem bool_any_of_getD {α : Type} {l : List α} {p : α → Bool} {i : Nat} {d : α} (hd : p d = false) (h : p (l.getD i d) = true) :
    l.any p = true := by
  by_cases hi : i < l.length
  · rw [List.getD_eq_getElem _ _ hi] at h
    exact List.any_eq_true.2 ⟨_, List.getElem_mem hi, h⟩
  · rw [List.getD_eq_default _ _ (Nat.le_of_not_lt hi), hd] at h
    cases h

theorem State.hostStatusFrame_clear {s : State} {m : Nat} (mask : Nat) (hm : (s.ln.rx.getD m ⟨false, false, []⟩).locked = true)
    (hlen : s.ln.tx.length = 8) (hb : s.lanesBonded ≤ 8) (hwf : swf odflt s.objects = true) (n : Nat) :
    ((s.hostStatusFrame mask).tx n).clear =
      (if n < s.lanesBonded then ((s.tx n).lower (bit mask n)).raise (bit mask n) s.now else s.tx n).clear := by
  have hany : s.ln.rx.any (·.locked) = true := bool_any_of_getD (i := m) rfl hm
  let w := (s.os 0x400005 (mask % 256)).eachTx (fun n l => l.lower (bit mask n)) s.lanesBonded
  obtain ⟨hlow, htx⟩ : w.ln.tx.length = s.ln.tx.length ∧ ∀ k, w.tx k = if k < s.lanesBonded then (s.tx k).lower (bit mask k) else s.tx k :=
    State.eachTx_tx (s := s.os 0x400005 (mask % 256)) _ (hb.trans hlen.ge)
  obtain ⟨hobj, hnow, hpw, hrx⟩ := (s.os 0x400005 (mask % 256)).eachTx_rest (fun n l => l.lower (bit mask n)) s.lanesBonded
  have hog : w.og 0x400005 = mask % 256 := (State.og_of_objects hobj _).trans (State.og_os_self _ _ _ hwf)
  have hbond : w.lanesBonded = s.lanesBonded := congrArg (fun p : Power => 2 * p.sensedPorts) hpw
  have hup := State.upLanes_eq (s := w) (hrx ▸ hany)
  rw [hbond, hog, show w.now = s.now from hnow] at hup
  refine (State.moveResends_clear w.upLanes n).trans (congrArg TxLane.clear ?_)
  rw [hup, (State.eachTx_tx (s := w) _ (hb.trans (hlow.trans hlen).ge)).2, htx]
  by_cases hn : n < s.lanesBonded
  · rw [if_pos hn, if_pos hn, if_pos hn, show (256 : Nat) = 2 ^ 8 from rfl, bit_mod (by omega)]
  · rw [if_neg hn, if_neg hn, if_neg hn]

/-- A lane that the mask shows is up, one that it clears is not, and no more than a lane's state and its control instant changes. -/
theorem TxLane.lower_raise (l : TxLane) (shown : Bool) (now : Nat) :
    ((l.lower shown).raise shown now).up = shown ∧
      (shown = true → ((l.lower shown).raise shown now).idle = l.idle ∧ ((l.lower shown).raise shown now).wake = l.wake) ∧
      { (l.lower shown).raise shown now with up := l.up, idle := l.idle, wake := l.wake, control := l.control } = l := by
  obtain ⟨up, idle, lseq, replay, resend, lastSent, due, control, wake⟩ := l
  cases shown
  · exact ⟨rfl, nofun, rfl⟩
  · cases up <;> exact ⟨rfl, fun _ => ⟨rfl, rfl⟩, rfl⟩

/-- The same of a lane known up to its resends, raised and lowered on a condition. -/
theorem TxLane.of_clear {u l : TxLane} {p : Prop} [Decidable p] {shown : Bool} {now : Nat}
    (h : u.clear = (if p then (l.lower shown).raise shown now else l).clear) :
    (p → u.up = shown) ∧ (¬ p → u.up = l.up) ∧ (shown = true → u.idle = l.idle ∧ u.wake = l.wake) ∧
      { u with up := l.up, idle := l.idle, wake := l.wake, control := l.control, resend := l.resend } = l := by
  have hup := congrArg TxLane.up h
  have hidle := congrArg TxLane.idle h
  have hwake := congrArg TxLane.wake h
  have hrest := congrArg
    (fun x : TxLane => { x with up := l.up, idle := l.idle, wake := l.wake, control := l.control, resend := l.resend }) h
  obtain ⟨hshown, hkeep, hlane⟩ := TxLane.lower_raise l shown now
  by_cases hp : p
  · simp only [if_pos hp] at hup hidle hwake hrest
    exact ⟨fun _ => hup.trans hshown, fun k => absurd hp k, fun k => ⟨hidle.trans (hkeep k).1, hwake.trans (hkeep k).2⟩,
      hrest.trans (congrArg (fun x : TxLane => { x with resend := l.resend }) hlane)⟩
  · simp only [if_neg hp] at hup hidle hwake hrest
    exact ⟨fun k => absurd k hp, fun _ => hup, fun _ => ⟨hidle, hwake⟩, hrest⟩

/-- HOST_STATUS on a lane that injection does not touch. -/
theorem exec_hostStatus {s : State} {t m : Nat} (mask : Nat) (h : (s.at t).Receives m) :
    exec (.hostStatus t m mask) s = .next (((s.at t).received m).hostStatusFrame mask) :=
  congrArg Host.Outcome.next (h.rxFrame _)

/-! ## Downloads (R329, R330) -/

/-- A frame with credit to the install buffer: accepted, counted, and one credit given back (assumption log 16). -/
theorem State.downloadFrame_install {s : State} {seq off : Nat} {data : List Byte}
    (hroom : 1 ≤ (s.ln.dlCredit.getD 0 0 + 65536 - seq % 65536) % 65536)
    (hroom' : (s.ln.dlCredit.getD 0 0 + 65536 - seq % 65536) % 65536 ≤ 32768) (hlen : data.length ≤ 492) (hd : s.pw.dramLive = true)
    (hrec : s.recovery = false) (hop : ∀ o, s.ctl.longOp = some o → o.code ≠ 1) (hoff : off + data.length ≤ 8 * mib) :
    s.downloadFrame 0 seq off data = { s with ln := { s.ln with
      dlAccepted := modAt s.ln.dlAccepted 0 fun v => (v + 1) % 2 ^ 32
      dlCredit := modAt s.ln.dlCredit 0 fun v => (v + 1) % 65536
      tx := s.ln.tx.map fun (l : TxLane) => if l.up then { l with due := true } else l } }.dramWrite
        (s.regionBase .install + off) data := by
  unfold State.downloadFrame
  extract_lets room installing credit fine l w l' x
  have hinst : installing = false := by
    unfold installing
    split
    next o ho => exact beq_eq_false_iff_ne.2 (hop o ho)
    next => rfl
  have hcredit : credit = true := decide_eq_true (p := 1 ≤ room ∧ room ≤ 32768) ⟨hroom, hroom'⟩
  have hfine : fine = true := by
    simp only [fine, hcredit, hinst, hlen, hd, hrec, hoff, decide_true, Bool.not_false, Bool.and_self, if_true]
  have hw : w = { s with ln := { s.ln with dlCredit := modAt s.ln.dlCredit 0 fun v => (v + 1) % 65536 } } := if_pos hcredit
  rw [if_neg (ne_false_of_eq_true hfine), if_pos rfl]
  have hx : x = { s with ln := { s.ln with
      dlAccepted := modAt s.ln.dlAccepted 0 fun v => (v + 1) % 2 ^ 32
      dlCredit := modAt s.ln.dlCredit 0 fun v => (v + 1) % 65536
      tx := s.ln.tx.map fun (l : TxLane) => if l.up then { l with due := true } else l } } := by
    unfold x l'
    rw [hw]
    rfl
  rw [hx]
  rfl

/-- A frame without credit is rejected. -/
theorem State.downloadFrame_noCredit {s : State} {target seq : Nat} (off : Nat) (data : List Byte)
    (h : s.ln.dlCredit.getD target 0 % 65536 = seq % 65536) : s.downloadFrame target seq off data = s.rejectDownload := by
  have hroom : (s.ln.dlCredit.getD target 0 + 65536 - seq % 65536) % 65536 = 0 := by omega
  unfold State.downloadFrame
  extract_lets room installing credit fine l w
  have hcredit : credit = false := by
    unfold credit room
    rw [hroom, decide_eq_false (p := 1 ≤ 0 ∧ 0 ≤ 32768) (fun k => nomatch k.1), Bool.and_false]
  have hfine : fine = false := by
    unfold fine
    rw [hcredit, Bool.false_and, Bool.false_and]
  rw [if_pos hfine]
  exact congrArg State.rejectDownload (if_neg (by rw [hcredit]; exact Bool.false_ne_true))

/-- A frame counted at its lane leaves the object of recovery mode. -/
theorem State.recovery_received (s : State) (m : Nat) : (s.received m).recovery = s.recovery := by
  have hne : (0x500001 : Nat) ≠ rk m 5 := by
    unfold rk okey
    omega
  exact congrArg (· == 1) (State.og_os_of_ne s _ hne)

/-! ## Held frames (R489) -/

/-- One frame held, and due: it goes out alone. -/
theorem State.releaseDue_one {s : State} {n d : Nat} {f : LaneFrame} (h : s.inj.heldTx = [(n, f, d)]) (hm : s.inj.heldMsg = [])
    (hd : d ≤ s.now) : s.releaseDue = { s.emit (.frame n f.bytes) with inj := { s.inj with heldTx := [] } } := by
  simp only [State.releaseDue, State.releaseHeld, State.putFrame, h, hm, hd, decide_true, List.filter_cons, List.filter_nil, if_true,
    List.foldl_cons, List.foldl_nil, State.emit_inj, Bool.not_true, Bool.false_eq_true, if_false]

/-- Settles O44: on a lane that injection does not touch a frame has the effect of its kind, and a held frame goes out when it is due. -/
theorem hostFramesComplete : Obligations.HostFramesComplete := by
  unfold Obligations.HostFramesComplete
  refine ⟨?_, ?_, ?_, ?_, ?_, ?_, ?_, ?_⟩
  · intro s t m words h hl
    refine ⟨_, congrArg Host.Outcome.next (h.rxFrame _), fun q hq => ?_, rfl, rfl⟩
    exact State.creditFrame_credit (s := (s.at t).received m) words hl hq
  · intro s t m entries h
    exact congrArg Host.Outcome.next (h.rxFrame _)
  · intro s t m mask h hlen hb hwf
    have hlane (n : Nat) := TxLane.of_clear
      (State.hostStatusFrame_clear (s := (s.at t).received m) mask h.locked hlen hb (State.os_swf hwf _ _) n)
    exact ⟨_, exec_hostStatus mask h, fun n => (hlane n).1, fun n hn => (hlane n).2.1 (Nat.not_lt.2 hn), fun n => (hlane n).2.2.1,
      fun n => (hlane n).2.2.2⟩
  · intro s t m seq off data h room hroom hroom' hlen hd hrec hop hoff
    exact congrArg Host.Outcome.next ((h.rxFrame _).trans
      (State.downloadFrame_install (s := (s.at t).received m) hroom hroom' hlen hd ((State.recovery_received _ m).trans hrec)
        hop hoff))
  · intro s t m target seq off data h hseq
    exact congrArg Host.Outcome.next ((h.rxFrame _).trans
      (State.downloadFrame_noCredit (s := (s.at t).received m) off data hseq))
  · intro s t m h
    exact congrArg Host.Outcome.next (h.rxFrame _)
  · intro s t m h
    exact congrArg Host.Outcome.next (h.rxFrame _)
  · intro s t n f d hheld hd hmsg hrx
    have hdue := State.releaseDue_one (s := s.at t) hheld hmsg (by rw [State.at_now]; exact le_max_of_le_right hd)
    refine congrArg Host.Outcome.next ((congrArg (fun z => State.releaseRx z _) hdue).trans (State.releaseRx_none ?_))
    show (s.inj.heldRx.any _) = false
    rw [hrx]
    rfl

end Sys2Proof.Machine
end

section
/-! SUPPORT. The memories: the owner of a Cashew bank (R333) and the byte memories (R332, R359, Table 10-2). -/

namespace Sys2Proof.Machine

open Sys2Proof

/-! ## The owner of a bank (R333) -/

/-- Renewing the session moves no rung. -/
theorem State.activePlan_renew (s : State) (c : Nat) : (s.renew c).activePlan = s.activePlan :=
  congrArg s.rung (s.og_renew_of_ne c (by decide))

/-- A value that is no host code is refused by its range. -/
theorem bankOwner_range {s : State} {b v : Nat} (hv : ¬ (v = 0 ∨ v = 4)) : bankOwner b v s = .error 0x06090030 :=
  require_stop (decide_eq_false hv)

/-- A bank that a plan's code holds, or that a plan names, keeps its owner. -/
theorem bankOwner_refused {s : State} {b v : Nat} (hv : v = 0 ∨ v = 4)
    (h : (s.og (okey 0x4201 (b + 1)) ≠ 0 ∧ s.og (okey 0x4201 (b + 1)) ≠ 4) ∨ (∃ pl, s.activePlan = some pl ∧ pl.bankCode b ≠ 0) ∨
      ∃ pl, (s.lad.switch.bind fun x => s.rung x.rung) = some pl ∧ pl.bankCode b ≠ 0) :
    bankOwner b v s = .error 0x08000020 := by
  refine (require_pass (decide_eq_true hv)).trans (require_stop ?_)
  dsimp only
  rcases h with ⟨h0, h4⟩ | ⟨pl, hpl, hcode⟩ | ⟨pl, hpl, hcode⟩
  · rw [decide_eq_false (p := _ ∨ _) (fun k => k.elim h0 h4), Bool.false_and, Bool.false_and]
  · simp only [hpl, decide_eq_true hcode, Bool.not_true, Bool.and_false, Bool.false_and]
  · simp only [hpl, decide_eq_true hcode, Bool.not_true, Bool.and_false]

/-- Settles O46: the three outcomes of `bankOwner` (`bankOwner_range`, `bankOwner_refused`, `bankOwner_sets`) are those of the write. -/
theorem bankOwnerCodes : Obligations.BankOwnerCodes := by
  intro s t c b v hacc hs hb hv held named
  have hog {k : Nat} (hk : k ≠ 0x200009) : ((s.at t).renew c).og k = s.og k := (s.at t).og_renew_of_ne c hk
  have hbank (d : Nat) : okey 0x4201 (d + 1) ≠ 0x200009 := by
    unfold okey
    omega
  have hactive : ((s.at t).renew c).activePlan = s.activePlan := (s.at t).activePlan_renew c
  refine ⟨_, exec_bankOwnerWrite hv s t c b, fun hcode => ?_, fun ⟨hcode, hkept⟩ => ?_, fun ⟨hcode, hheld, hfree⟩ => ?_⟩
  · exact State.hostWrite_refused hacc (bankOwner_range fun k => k.elim hcode.1 hcode.2)
  · refine State.hostWrite_refused hacc (bankOwner_refused hcode ?_)
    rw [hog (hbank b), hactive]
    refine hkept.imp_right (Or.imp_right ?_)
    rintro ⟨w, pl, hw, hpl, hne⟩
    refine ⟨pl, ?_, hne⟩
    show s.lad.switch.bind _ = some pl
    rw [hw]
    exact hpl
  · have hsets := bankOwner_sets (s := (s.at t).renew c) hcode ((hog (hbank b)).symm ▸ hheld)
      ⟨fun pl hpl => by_contra fun hne => hfree (.inl ⟨pl, hactive.symm.trans hpl, hne⟩), fun pl hpl => by_contra fun hne => ?_⟩
    · rw [State.hostWrite_ok hacc hsets]
      refine ⟨?_, ?_, fun d hd _ => ?_⟩
      · exact State.og_os_self _ _ _ (State.os_swf hs.objects _ _)
      · rw [State.answer_wire, List.getLast?_append, List.getLast?_singleton, Option.some_or]
      · have hne : okey 0x4201 (d + 1) ≠ okey 0x4201 (b + 1) := by
          unfold okey
          omega
        exact (State.og_os_of_ne _ _ hne).trans (hog (hbank d))
    · obtain ⟨w, hw, hrung⟩ := Option.bind_eq_some_iff.1 hpl
      exact hfree (.inr ⟨w, pl, hw, hrung, hne⟩)

/-! ## The byte memories (R332, R359) -/

/-- A byte of a run that was just stored reads as stored, any other as before. -/
theorem get_memWrite : ∀ (b : List Byte) (m : Mem) (a x : Nat), Memory.wf m = true →
    Memory.get (memWrite m a b) x = if a ≤ x ∧ x < a + b.length then b.getD (x - a) 0 else Memory.get m x
  | [], _, a, x, _ => (if_neg (by simp only [List.length_nil]; omega)).symm
  | v :: r, m, a, x, h => by
    refine (get_memWrite r (Memory.put m a v) (a + 1) x (swf_sput _ _ _ _ h)).trans ?_
    by_cases hx : x = a
    · subst hx
      rw [if_neg (by omega), if_pos ⟨Nat.le_refl _, by simp only [List.length_cons]; omega⟩, Nat.sub_self, List.getD_cons_zero]
      exact sget_sput_self _ _ _ _ h
    · have hput : Memory.get (Memory.put m a v) x = Memory.get m x := sget_sput_of_ne _ _ hx _
      by_cases hin : a + 1 ≤ x ∧ x < a + 1 + r.length
      · rw [if_pos hin, if_pos (by simp only [List.length_cons]; omega), show x - a = x - (a + 1) + 1 by omega, List.getD_cons_succ]
      · rw [if_neg hin, if_neg (by simp only [List.length_cons]; omega), hput]

theorem memRead_eq (m : Mem) : ∀ (n a : Nat), memRead m a n = (List.range n).map fun i => Memory.get m (a + i)
  | 0, _ => rfl
  | n + 1, a => by
    rw [List.range_succ_eq_map, List.map_cons, List.map_map]
    refine congrArg (_ :: ·) ((memRead_eq m n (a + 1)).trans (List.map_congr_left fun i _ => ?_))
    rw [Function.comp_apply, Nat.succ_eq_add_one, Nat.add_right_comm, Nat.add_assoc a i 1]

theorem map_getD_range {α : Type} (l : List α) (d : α) : (List.range l.length).map (fun i => l.getD i d) = l :=
  List.ext_getElem (by rw [List.length_map, List.length_range]) fun i _ hi => by
    rw [List.getElem_map, List.getElem_range, List.getD_eq_getElem _ _ hi]

theorem memRead_memWrite (m : Mem) (a : Nat) (b : List Byte) (h : Memory.wf m = true) : memRead (memWrite m a b) a b.length = b := by
  rw [memRead_eq]
  refine (List.map_congr_left fun i hi => ?_).trans (map_getD_range b 0)
  rw [get_memWrite _ _ _ _ h, if_pos ⟨Nat.le_add_right _ _, Nat.add_lt_add_left (List.mem_range.1 hi) a⟩, Nat.add_sub_cancel_left]

/-- Dropping keys leaves the reading of the others and makes the dropped ones unlisted. -/
theorem sget_filter {α : Type} (d : Nat → α) (p : Nat → Bool) (x : Nat) : ∀ l : List (Nat × α),
    sget d (l.filter fun y => !p y.1) x = if p x then d x else sget d l x
  | [] => (ite_self _).symm
  | (k, v) :: r => by
    have ih := sget_filter d p x r
    by_cases hk : k = x
    · subst hk
      cases hp : p k
      · simp only [List.filter_cons, hp, Bool.not_false, if_true, sget, Bool.false_eq_true, if_false]
      · simp only [List.filter_cons, hp, Bool.not_true, if_true, Bool.false_eq_true, if_false, ih]
    · cases hp : p k
      · simp only [List.filter_cons, hp, Bool.not_false, if_true, sget, hk, if_false, ih]
      · simp only [List.filter_cons, hp, Bool.not_true, Bool.false_eq_true, sget, hk, if_false, ih]

/-- Settles O11: a stored run reads as stored (`get_memWrite`), a cleared span as zero (`sget_filter`), both keep the canonical form. -/
theorem memoryReadAfterWrite : Obligations.MemoryReadAfterWrite := by
  refine ⟨fun m a b h => ⟨swf_memWrite b m a h, memRead_memWrite m a b h, fun x hx => ?_⟩,
    fun m a n h => ⟨swf_memClear m a n h, fun x => ?_⟩⟩
  · rw [get_memWrite _ _ _ _ h, if_neg (by omega)]
  · refine (sget_filter memZero (fun k => decide (a ≤ k) && decide (k < a + n)) x m).trans ?_
    simp only [Bool.and_eq_true, decide_eq_true_eq]
    rfl

end Sys2Proof.Machine
end

section
/-! SUPPORT. Numbers: little-endian fields, signed patterns and rounding; the value of a plain entry (R393), the advance of device time
(R377) and the stamps of the TDC (R385, R386). -/

namespace Sys2Proof.Machine

open Sys2Proof

/-! ## Fields and patterns (R4) -/

theorem length_of_le : ∀ n v : Nat, (le n v).length = n
  | 0, _ => rfl
  | n + 1, v => congrArg (· + 1) (length_of_le n (v / 256))

theorem sliceB_prefix (a r : List Byte) : sliceB (a ++ r) 0 a.length = a := by
  simp only [sliceB, List.drop_zero, List.take_left, Nat.sub_self, rep, List.replicate_zero, List.append_nil]

/-- The number at the head of a record that opens with it. -/
theorem fld_le_append {n v : Nat} (h : v < 256 ^ n) (r : List Byte) : fld (le n v ++ r) 0 n = v := by
  have hslice := sliceB_prefix (le n v) r
  rw [length_of_le] at hslice
  rw [fld, hslice, unle_le_of_lt h]

theorem toI_toU32 {v : Int} (h₁ : -2 ^ 31 ≤ v) (h₂ : v < 2 ^ 31) : toI 32 (toU 32 v) = v := by
  unfold toI toU wrapS
  dsimp only
  split <;> omega

theorem toU_natCast (w n : Nat) : toU w (n : Int) = n % 2 ^ w := by
  have h : (n : Int) % 2 ^ w = ((n % 2 ^ w : Nat) : Int) := by
    rw [Int.natCast_mod, Int.natCast_pow]
    rfl
  rw [toU, h, Int.toNat_natCast]

/-! ## Rounding (R5) -/

theorem ediv_bounds {a b m : Int} (hb : 0 < b) (h₁ : -m ≤ a) (h₂ : a ≤ m) : -m ≤ a / b ∧ a / b ≤ m := by
  have hm : 0 ≤ m := by omega
  have hmb : m ≤ m * b := le_mul_of_one_le_right hm hb
  exact ⟨(Int.le_ediv_iff_mul_le hb).2 (by rw [Int.neg_mul]; omega), Int.ediv_le_of_le_mul hb (h₂.trans hmb)⟩

/-- The nearest multiple lies at most half the divisor off, and is even where two lie so. -/
theorem rdiv_nearest (a : Int) {b : Int} (hb : 0 < b) :
    2 * (b * rdiv a b - a) ≤ b ∧ -b ≤ 2 * (b * rdiv a b - a) ∧
      (2 * (b * rdiv a b - a) = b ∨ 2 * (b * rdiv a b - a) = -b → rdiv a b % 2 = 0) := by
  have hq := Int.mul_ediv_add_emod a b
  have hr := Int.emod_nonneg a (Int.ne_of_gt hb)
  have hlt := Int.emod_lt_of_pos a hb
  unfold rdiv
  generalize a / b = q at hq
  generalize a % b = r at hq hr hlt
  dsimp only
  split
  · exact ⟨by omega, by omega, by omega⟩
  · split
    · rw [Int.mul_add, Int.mul_one]
      exact ⟨by omega, by omega, by omega⟩
    · split
      · exact ⟨by omega, by omega, by omega⟩
      · rw [Int.mul_add, Int.mul_one]
        exact ⟨by omega, by omega, by omega⟩

theorem rdiv_bounds {a b m : Int} (hb : 0 < b) (h₁ : -m ≤ a) (h₂ : a ≤ m) : -m ≤ rdiv a b ∧ rdiv a b ≤ m + 1 := by
  obtain ⟨hlo, hhi⟩ := ediv_bounds hb h₁ h₂
  unfold rdiv
  dsimp only
  repeat' split
  all_goals omega

theorem rhe_bounds {v m : Int} (h₁ : -m ≤ v) (h₂ : v ≤ m) (k : Nat) : -m ≤ rhe v k ∧ rhe v k ≤ m + 1 :=
  rdiv_bounds (Int.pow_pos (by decide)) h₁ h₂

/-- A sum lies within its length times the bound of its terms. -/
theorem sumI_bounds {m : Int} {l : List Int} (h : ∀ c ∈ l, -m ≤ c ∧ c ≤ m) : -(m * l.length) ≤ sumI l ∧ sumI l ≤ m * l.length := by
  rw [sumI, ← List.sum_eq_foldl]
  induction l with
  | nil => simp
  | cons x r ih =>
    obtain ⟨hx₁, hx₂⟩ := h x List.mem_cons_self
    obtain ⟨hr₁, hr₂⟩ := ih fun c hc => h c (List.mem_cons_of_mem _ hc)
    rw [List.sum_cons, List.length_cons, Int.natCast_succ, Int.mul_add, Int.mul_one]
    exact ⟨by omega, by omega⟩

/-! ## A plain entry of the user sequence (R393) -/

/-- On an input that is not off, the result opens with the rounded sum. -/
theorem State.plainEntry_value {s : State} {e w : Nat} {rd : EntryReading} {forced : Bool} (hwf : swf ddflt s.domains = true)
    (hon : s.pw.photonic = true ∨ bits w 15 8 < 8 ∨ 16 < bits w 15 8) :
    fldI ((s.plainEntry e w rd forced).dg (0x480030 + e)) 0 4 = toI 32 (toU 32 (rhe (sumI rd.sense) (bits w 39 36))) := by
  have hoff : (decide (8 ≤ bits w 15 8 ∧ bits w 15 8 ≤ 16) && !s.pw.photonic) = false := by
    rcases hon with h | h
    · rw [h, Bool.not_true, Bool.and_false]
    · rw [decide_eq_false (by omega), Bool.false_and]
  simp only [State.plainEntry, hoff, Bool.false_eq_true, if_false, State.putResult, State.dg_ds_self _ _ _ hwf, userResult,
    List.append_assoc, fldI]
  exact congrArg (toI 32) (fld_le_append (toU_lt 32 _) _)

/-- Settles O51: the sum of 256 codes stays far inside an INTEGER32, so the value is the rounded sum itself. -/
theorem plainEntryValue : Obligations.PlainEntryValue := by
  intro s e w rd forced hs hlen hcodes hon v
  obtain ⟨hlo, hhi⟩ := sumI_bounds (m := 32768) (l := rd.sense) fun c hc => ⟨(hcodes c hc).1, by have := (hcodes c hc).2; omega⟩
  obtain ⟨hv₁, hv₂⟩ := rhe_bounds (m := 2 ^ 23) (v := sumI rd.sense) (by omega) (by omega) (bits w 39 36)
  have hv : v = rhe (sumI rd.sense) (bits w 39 36) := (State.plainEntry_value hs.domains hon).trans (toI_toU32 (by omega) (by omega))
  refine ⟨hv, fun _ hsh => ?_⟩
  obtain ⟨hnear₁, hnear₂, heven⟩ := rdiv_nearest (sumI rd.sense) (b := 256) (by decide)
  have hmean : v = rdiv (sumI rd.sense) 256 := hv.trans (by rw [hsh]; rfl)
  rw [← hmean] at hnear₁ hnear₂ heven
  exact ⟨by omega, by omega, fun hd => heven (by omega)⟩

/-! ## Device time (R377) -/

/-- T after n cycles and the one that follows. -/
theorem advanceT_step {t acc : Nat} {r : Int} (hacc : acc < 1000000000) (h₁ : -51200000 ≤ r) (h₂ : r ≤ 51200000) (n : Nat) :
    (advanceT t acc r n).2 < 1000000000 ∧
      advanceT t acc r (n + 1) =
        (((((advanceT t acc r n).1 + 65536 : Nat) : Int) + ((advanceT t acc r n).2 + r * 256) / 1000000000).toNat % 2 ^ 80,
          (((advanceT t acc r n).2 + r * 256) % 1000000000).toNat) := by
  have hsucc : ((n + 1 : Nat) : Int) * r = n * r + r := by rw [Int.natCast_succ, Int.add_mul, Int.one_mul]
  have hlow : -51200000 * (n : Int) ≤ n * r := by
    rw [Int.mul_comm]
    exact Int.mul_le_mul_of_nonneg_left h₁ (Int.natCast_nonneg n)
  unfold advanceT
  rw [hsucc]
  generalize (n : Int) * r = x at hlow
  dsimp only
  refine ⟨by omega, Prod.ext ?_ ?_⟩ <;> dsimp only <;> omega

theorem State.at_tb_of_running {s : State} {t : Nat} (h : s.tb.running = true) :
    ((s.at t).tb.t, (s.at t).tb.acc) = advanceT s.tb.t s.tb.acc (s.ogI 32 0x220005) (t - s.now) := by
  simp only [State.at, h, if_true]

/-- Setting device time sets it, modulo its range, and clears the accumulator. -/
theorem State.setT_tb (s : State) (t : Nat) : (s.setT t).tb.acc = 0 ∧ (s.setT t).tb.t = t % 2 ^ 80 := by
  refine ⟨rfl, ?_⟩
  show toU 80 ((s.tb.t : Int) + ((t : Int) - s.tb.t)) = _
  rw [add_sub_cancel, toU_natCast]

theorem objRow_rate : objRow 0x2200 5 = some ⟨5, 1, .i4, .rw, false, 0, -51200000, 51200000⟩ := by decide +kernel

theorem familyOf_time : (familyOf 0x2200).isNone = false := by decide +kernel

/-- The rate correction is judged by its range alone. -/
theorem State.writeAbort_rate {s : State} {r : Int} (hrec : s.og 0x500001 ≠ 1) (h₁ : -2 ^ 31 ≤ r) (h₂ : r < 2 ^ 31) :
    s.writeAbort 0x2200 5 false (le 4 (toU 32 r)) = if -51200000 ≤ r ∧ r ≤ 51200000 then none else some 0x06090030 := by
  have hloc : s.locate 0x2200 5 = .ok ⟨5, 1, .i4, .rw, false, 0, -51200000, 51200000⟩ := by
    rw [State.locate, if_neg fun k => hrec k.1, familyOf_time, if_neg (by decide), objRow_rate]
  have hval : valueOf .i4 (le 4 (toU 32 r)) = r := by
    simp only [valueOf, Ty.signed, Ty.size, if_true, unle_le_of_lt (n := 4) (toU_lt 32 r), Nat.reduceMul]
    exact toI_toU32 h₁ h₂
  have hok : valueOk 0x2200 5 r = true := by simp [valueOk]
  have hcheck : tableCheck 0x2200 5 ⟨5, 1, .i4, .rw, false, 0, -51200000, 51200000⟩ false (le 4 (toU 32 r)) =
      if -51200000 ≤ r ∧ r ≤ 51200000 then none else some 0x06090030 := by
    simp only [tableCheck, Bool.false_eq_true, if_false, length_of_le, Ty.size, ne_eq, not_true, hval, hok, Bool.true_eq_false, or_false]
    by_cases hr : -51200000 ≤ r ∧ r ≤ 51200000
    · rw [if_neg (by omega), if_pos hr]
    · rw [if_pos (by omega), if_neg hr]
  have habs : s.absent 0x2200 = false := rfl
  simp only [State.writeAbort, hloc, habs, hcheck]
  by_cases hr : -51200000 ≤ r ∧ r ≤ 51200000
  · simp [hr]
  · simp [hr]

/-- Settles O18: the closed form of `advanceT` satisfies the step of one cycle and closes a whole 10^9 of them; the rest is what
the functions of device time say. -/
theorem deviceTimeAdvances : Obligations.DeviceTimeAdvances := by
  refine ⟨fun t acc n r ht hacc h₁ h₂ => ?_, fun t acc r hacc h₁ h₂ => ?_, fun s t hrun _ => State.at_tb_of_running hrun, fun _ => rfl,
    State.setT_tb, fun s r hrec h₁ h₂ => State.writeAbort_rate hrec h₁ h₂⟩
  · refine ⟨?_, advanceT_step hacc h₁ h₂ n⟩
    unfold advanceT
    refine Prod.ext ?_ ?_ <;> dsimp only <;> omega
  · unfold advanceT
    refine Prod.ext ?_ ?_ <;> dsimp only <;> omega

/-! ## The stamps of the TDC (R385, R386) -/

theorem tdcStamp_aligned (tn : Nat) (c a b : Int) : tdcStamp tn c a b % 0x1000 = 0 := by
  unfold tdcStamp toU
  generalize rhe tn 12 - rdiv (16 * (c - a)) b = x
  omega

/-- An edge that meets a calibrated interpolator: its own pair where it is in bounds, else the factory pair of the channel. -/
theorem State.tdcEdge_calibrated (s : State) (ch code c1 c2 : Nat) :
    s.tdcEdge ch code c1 c2 true =
      if pairOk (2 * c1 - c2) (c2 - c1) then
        (tdcStamp s.tb.t (code % 64 : Nat) (2 * c1 - c2) (c2 - c1), false, (s.capture ch s.now).osBit 0x220010 ch false)
      else
        (tdcStamp s.tb.t (code % 64 : Nat) (s.tb.factory.getD ch (16, 16)).1 (s.tb.factory.getD ch (16, 16)).2, false, (s.capture ch s.now).tdcFall ch) := by
  simp only [State.tdcEdge, State.interpReady, Bool.true_or, Bool.true_eq_false, if_false]
  rfl

/-- Such an edge has no coarse stamp, and leaves Sesame and the clock. -/
theorem State.tdcEdge_keeps (s : State) (ch code c1 c2 : Nat) : (s.tdcEdge ch code c1 c2 true).2.1 = false ∧
    (s.tdcEdge ch code c1 c2 true).2.2.ses = s.ses ∧ (s.tdcEdge ch code c1 c2 true).2.2.now = s.now := by
  rw [State.tdcEdge_calibrated]
  split <;> exact ⟨rfl, rfl, rfl⟩

/-- Interval mode writes its own objects only. -/
theorem State.intervalEdge_og (s : State) (src stamp : Nat) {k : Nat} (hk : k < 0x221000) : (s.intervalEdge src stamp).og k = s.og k := by
  have hos (z : State) {j : Nat} (v : Nat) (hj : 0x221000 ≤ j) : (z.os j v).og k = z.og k := State.og_os_of_ne z v (by omega)
  unfold State.intervalEdge
  dsimp only
  split
  · split
    · exact hos s 2 (by decide)
    · rfl
  · split
    · split
      · rw [hos _ _ (by decide), hos _ _ (by decide), hos _ _ (by omega)]
      · rw [hos _ _ (by decide), hos _ _ (by omega)]
    · rfl

/-- An edge 8 ns or more after the pin's last keeps its stamp. -/
theorem State.pinEdge_apart {s : State} {pin stamp : Nat}
    (h : ∀ x ∈ (s.ses.stamps.getD pin []).head?, x.1 + 8 < s.now ∨ x.2.1 + 8 * 65536 ≤ stamp) :
    s.pinEdge pin stamp false = (stamp, { s with
      ses := { s.ses with stamps := modAt s.ses.stamps pin fun l => (s.now, stamp, stamp, false) :: l.take 3 } }) := by
  simp only [State.pinEdge, Bool.false_or]
  cases hl : s.ses.stamps.getD pin [] with
  | nil => simp only [Bool.false_eq_true, if_false]
  | cons x r =>
    rw [hl] at h
    have hx := h x rfl
    have hclose : (decide (s.now ≤ x.1 + 8) && decide (stamp < x.2.1 + 8 * 65536)) = false := by
      rw [Bool.and_eq_false_iff, decide_eq_false_iff_not, decide_eq_false_iff_not]
      omega
    simp only [hclose, Bool.false_eq_true, if_false]

theorem State.osBit_og_of_ne (s : State) {k j : Nat} (i : Nat) (on : Bool) (h : j ≠ k) : (s.osBit k i on).og j = s.og j :=
  State.og_os_of_ne s _ h

theorem State.osBit_og_self {s : State} (k i : Nat) (on : Bool) (h : swf odflt s.objects = true) :
    (s.osBit k i on).og k = if on then setBit (s.og k) i else clearBits (s.og k) (2 ^ i) := State.og_os_self _ _ _ h

/-- What an edge of a calibrated channel shows of the fall-backs. -/
theorem State.tdcEdge_shows {s : State} {ch code c1 c2 : Nat} (hwf : swf odflt s.objects = true) :
    let u := (s.tdcEdge ch code c1 c2 true).2.2
    u.og 0x220011 = (if pairOk (2 * c1 - c2) (c2 - c1) then s.og 0x220011 else (s.og 0x220011 + 1) % 2 ^ 32) ∧
      u.og 0x220010 = (if pairOk (2 * c1 - c2) (c2 - c1) then clearBits (s.og 0x220010) (2 ^ ch) else setBit (s.og 0x220010) ch) := by
  have hcap : swf odflt (s.capture ch s.now).objects = true := hwf
  rw [State.tdcEdge_calibrated]
  split
  · exact ⟨State.osBit_og_of_ne _ ch false (by decide), State.osBit_og_self 0x220010 ch false hcap⟩
  · refine ⟨(State.osBit_og_of_ne _ ch true (by decide)).trans (State.og_os_self _ _ _ hcap),
      (State.osBit_og_self 0x220010 ch true (State.os_swf hcap _ _)).trans ?_⟩
    exact congrArg (setBit · ch) (State.og_os_of_ne (s.capture ch s.now) _ (by decide))

/-- TRIG_IN_EDGE of a calibrated channel, 8 ns or more after the pin's last edge. -/
theorem exec_trigInEdge_apart {s : State} {t pin code c1 c2 : Nat} (hrun : s.tb.running = true) (hpin : pin < 2)
    {stamp : Nat} {w : State} (he : (s.at t).tdcEdge (2 + pin) code c1 c2 true = (stamp, false, w)) (hses : w.ses = s.ses)
    (hnow : w.now = max s.now t)
    (h : ∀ x ∈ (s.ses.stamps.getD pin []).head?, x.1 + 8 < max s.now t ∨ x.2.1 + 8 * 65536 ≤ stamp) :
    exec (.trigInEdge t pin code c1 c2 true) s = .next (State.intervalEdge { w with
      ses := { w.ses with stamps := modAt w.ses.stamps pin fun l => (w.now, stamp, stamp, false) :: l.take 3 } } (2 + pin) stamp) := by
  have hexec : exec (.trigInEdge t pin code c1 c2 true) s = execTrigInEdge t pin code c1 c2 true s := rfl
  have hrun' : (s.at t).tb.running = true ∧ pin < 2 := ⟨hrun, hpin⟩
  rw [← hnow, ← hses] at h
  rw [hexec]
  simp only [execTrigInEdge, if_pos hrun', he, State.pinEdge_apart h]

/-- Settles O20: the stamp and the fall-back follow the pair of the channel (`State.tdcEdge_shows`), and a pin's edge far enough from the
last keeps that stamp (`exec_trigInEdge_apart`). -/
theorem tdcStamps : Obligations.TdcStamps := by
  refine ⟨fun s ch code c1 c2 hs _ hcode => ?_, fun s t pin code c1 c2 hrun hpin hlen => ?_⟩
  · intro a b good p stamp u
    have hpair : pairOk a b = decide good := rfl
    have hstamp : (s.tdcEdge ch code c1 c2 true).1 = stamp := by
      rw [State.tdcEdge_calibrated, Nat.mod_eq_of_lt hcode]
      change (if pairOk a b = true then _ else _ : Nat × Bool × State).1 = _
      by_cases hg : good
      · rw [hpair, if_pos (decide_eq_true hg)]
        simp only [stamp, p, if_pos hg]
        rfl
      · rw [hpair, if_neg (ne_true_of_eq_false (decide_eq_false hg))]
        simp only [stamp, p, if_neg hg]
        rfl
    obtain ⟨hcount, hbit⟩ := State.tdcEdge_shows (ch := ch) (c1 := c1) (code := code) (c2 := c2) hs.objects
    have hif {α : Type} (x y : α) : (if pairOk a b = true then x else y) = if good then x else y := by
      rw [hpair]
      simp only [decide_eq_true_eq]
    exact ⟨hstamp, tdcStamp_aligned _ _ p.1 p.2, hcount.trans (hif _ _), hbit.trans (hif _ _)⟩
  · intro e happart
    obtain ⟨hfine, hses, hnow⟩ := (s.at t).tdcEdge_keeps (2 + pin) code c1 c2
    rw [State.at_now] at hnow
    have hcal : e = (e.1, false, e.2.2) := Prod.ext rfl (Prod.ext hfine rfl)
    refine ⟨_, exec_trigInEdge_apart hrun hpin hcal hses hnow happart, ?_, State.intervalEdge_og _ _ _ (by decide),
      State.intervalEdge_og _ _ _ (by decide)⟩
    rw [State.intervalEdge_ses]
    show (modAt e.2.2.ses.stamps pin _).getD pin [] = _
    rw [hses, hnow]
    exact getD_modAt_self hlen _ _

end Sys2Proof.Machine
end

section
/-! SUPPORT. Flax (chapter 16): bytes at a Flax address, the elements of a descriptor (R361, R362), and the channel commands (R364 to
R368). -/

namespace Sys2Proof.Machine

open Sys2Proof

/-! ## Bytes at a Flax address (R359, R363) -/

/-- The byte that a Flax address reads: DRAM below 2^63, Cashew from there on. -/
def State.busByte (s : State) (x : Nat) : Byte :=
  if x < 2 ^ 63 then Memory.get s.mem.dram x else Memory.get s.mem.cashew (x - 2 ^ 63)

/-- Store one aligned run of the funnel. -/
def State.busPut (s : State) (x : Nat) (b : List Byte) : State :=
  if x < 2 ^ 63 then s.dramWrite x b else s.setMem fun m => { m with cashew := memWrite m.cashew (x - 2 ^ 63) b }

/-- What of a state a bus access leaves alone: its objects, the channels, and the Hazel memories. -/
structure State.BusRest (s u : State) : Prop where
  objects : u.objects = s.objects
  chans : u.fx = s.fx
  hazel : u.hz = s.hz

/-- Both memories that the bus reaches are in canonical form. -/
structure State.BusWf (s : State) : Prop where
  dram : Memory.wf s.mem.dram = true
  cashew : Memory.wf s.mem.cashew = true

/-- An access of the funnel takes at least a byte, no more than are left, and does not cross from DRAM into Cashew. -/
theorem accessSize_spec (a : Nat) {n : Nat} (hn : n ≠ 0) :
    1 ≤ accessSize a n ∧ accessSize a n ≤ n ∧ (a < 2 ^ 63 → a + accessSize a n ≤ 2 ^ 63) := by
  unfold accessSize
  repeat' split
  all_goals exact ⟨by omega, by omega, by omega⟩

theorem State.busByte_run (s : State) {a k : Nat} (h : a < 2 ^ 63 → a + k ≤ 2 ^ 63) :
    (if a < 2 ^ 63 then s.dramRead a k else memRead s.mem.cashew (a - 2 ^ 63) k) = (List.range k).map fun i => s.busByte (a + i) := by
  split
  next ha =>
    refine (memRead_eq _ k a).trans (List.map_congr_left fun i hi => ?_)
    rw [State.busByte, if_pos (by have := List.mem_range.1 hi; have := h ha; omega)]
  next ha =>
    refine (memRead_eq _ k _).trans (List.map_congr_left fun i _ => ?_)
    rw [State.busByte, if_neg (by omega), show a - 2 ^ 63 + i = a + i - 2 ^ 63 by omega]

/-- The funnel reads byte after byte. -/
theorem State.busRead_eq (s : State) (a n : Nat) : s.busRead a n = (List.range n).map fun i => s.busByte (a + i) := by
  have hfuel : ∀ fuel a n, n ≤ fuel → ((funnel fuel a n).flatMap fun x =>
      if x.1 < 2 ^ 63 then s.dramRead x.1 x.2 else memRead s.mem.cashew (x.1 - 2 ^ 63) x.2) =
        (List.range n).map fun i => s.busByte (a + i) := by
    intro fuel
    induction fuel with
    | zero =>
      intro a n hn
      rw [Nat.le_zero.1 hn]
      rfl
    | succ fuel ih =>
      intro a n hn
      rw [funnel]
      by_cases hz : n = 0
      · rw [if_pos hz, hz]
        rfl
      · obtain ⟨h1, hle, hcross⟩ := accessSize_spec a hz
        rw [if_neg hz, List.flatMap_cons, ih _ _ (by omega), s.busByte_run hcross]
        generalize accessSize a n = k at h1 hle
        obtain ⟨m, rfl⟩ := Nat.exists_eq_add_of_le hle
        rw [List.range_add, List.map_append, List.map_map, Nat.add_sub_cancel_left]
        refine congrArg _ (List.map_congr_left fun i _ => ?_)
        rw [Function.comp_apply, Nat.add_assoc]
  exact hfuel n a n (Nat.le_refl n)

theorem State.busRead_one (s : State) (a : Nat) : s.busRead a 1 = [s.busByte a] := s.busRead_eq a 1

theorem State.busRead_length (s : State) (a n : Nat) : (s.busRead a n).length = n := by
  rw [State.busRead_eq, List.length_map, List.length_range]

/-- One run stored: its bytes read as stored, every other as before. -/
theorem State.busByte_busPut {s : State} {a : Nat} {b : List Byte} (h : s.BusWf) (hcross : a < 2 ^ 63 → a + b.length ≤ 2 ^ 63) (x : Nat) :
    (s.busPut a b).busByte x = if a ≤ x ∧ x < a + b.length then b.getD (x - a) 0 else s.busByte x := by
  unfold State.busPut
  split
  next ha =>
    by_cases hx : x < 2 ^ 63
    · simp only [State.busByte, if_pos hx]
      exact get_memWrite b s.mem.dram a x h.dram
    · simp only [State.busByte, if_neg hx]
      exact (if_neg (by have := hcross ha; omega)).symm
  next ha =>
    by_cases hx : x < 2 ^ 63
    · simp only [State.busByte, if_pos hx]
      exact (if_neg (by omega)).symm
    · simp only [State.busByte, if_neg hx]
      refine (get_memWrite b s.mem.cashew (a - 2 ^ 63) (x - 2 ^ 63) h.cashew).trans ?_
      rw [show x - 2 ^ 63 - (a - 2 ^ 63) = x - a by omega]
      by_cases hin : a ≤ x ∧ x < a + b.length
      · rw [if_pos hin, if_pos (by omega)]
      · rw [if_neg hin, if_neg (by omega)]

theorem State.busPut_wf {s : State} (h : s.BusWf) (a : Nat) (b : List Byte) : (s.busPut a b).BusWf := by
  unfold State.busPut
  split
  · exact ⟨swf_memWrite _ _ _ h.dram, h.cashew⟩
  · exact ⟨h.dram, swf_memWrite _ _ _ h.cashew⟩

theorem State.busPut_rest {r s : State} (h : r.BusRest s) (a : Nat) (b : List Byte) : r.BusRest (s.busPut a b) := by
  unfold State.busPut
  split
  · exact ⟨h.objects, h.chans, h.hazel⟩
  · exact ⟨h.objects, h.chans, h.hazel⟩

/-- A run stored at a Flax address: its bytes read as stored, every other as before, and nothing else changes. -/
theorem State.busWrite_spec {s : State} (h : s.BusWf) (a : Nat) (b : List Byte) : s.BusRest (s.busWrite a b) ∧
    ∀ x, (s.busWrite a b).busByte x = if a ≤ x ∧ x < a + b.length then b.getD (x - a) 0 else s.busByte x := by
  have hfuel : ∀ fuel c n (r s : State), n ≤ fuel → a ≤ c → c + n = a + b.length → s.BusWf → r.BusRest s →
      let u := (funnel fuel c n).foldl (fun (s : State) x => s.busPut x.1 ((b.drop (x.1 - a)).take x.2)) s
      r.BusRest u ∧ ∀ x, u.busByte x = if c ≤ x ∧ x < c + n then b.getD (x - a) 0 else s.busByte x := by
    intro fuel
    induction fuel with
    | zero =>
      intro c n r s hn _ _ _ hr
      exact ⟨hr, fun x => (if_neg (by omega)).symm⟩
    | succ fuel ih =>
      intro c n r s hn hc hend hs hr
      rw [funnel]
      by_cases hz : n = 0
      · rw [if_pos hz]
        exact ⟨hr, fun x => (if_neg (by omega)).symm⟩
      · obtain ⟨h1, hle, hcross⟩ := accessSize_spec c hz
        rw [if_neg hz, List.foldl_cons]
        generalize hk : accessSize c n = k at h1 hle hcross
        have hlen : ((b.drop (c - a)).take k).length = k := by
          rw [List.length_take, List.length_drop]
          omega
        obtain ⟨hrest, hbyte⟩ := ih (c + k) (n - k) r (s.busPut c ((b.drop (c - a)).take k)) (by omega) (by omega) (by omega)
          (State.busPut_wf hs _ _) (State.busPut_rest hr _ _)
        refine ⟨hrest, fun x => (hbyte x).trans ?_⟩
        rw [State.busByte_busPut hs (by rwa [hlen]), hlen]
        by_cases hlow : c ≤ x ∧ x < c + k
        · have hget : ((b.drop (c - a)).take k).getD (x - c) 0 = b.getD (x - a) 0 := by
            rw [List.getD_eq_getElem?_getD, List.getElem?_take_of_lt (by omega), List.getElem?_drop,
              show c - a + (x - c) = x - a by omega, ← List.getD_eq_getElem?_getD]
          rw [if_neg (by omega), if_pos hlow, if_pos (by omega), hget]
        · rw [if_neg hlow]
          by_cases hhigh : c + k ≤ x ∧ x < c + k + (n - k)
          · rw [if_pos hhigh, if_pos (by omega)]
          · rw [if_neg hhigh, if_neg (by omega)]
  exact hfuel b.length a b.length s s (Nat.le_refl _) (Nat.le_refl _) rfl h ⟨rfl, rfl, rfl⟩

theorem State.busRead_busWrite {s : State} (h : s.BusWf) (a : Nat) (b : List Byte) : (s.busWrite a b).busRead a b.length = b := by
  rw [State.busRead_eq]
  refine (List.map_congr_left fun i hi => ?_).trans (map_getD_range b 0)
  rw [(State.busWrite_spec h a b).2, if_pos ⟨Nat.le_add_right _ _, Nat.add_lt_add_left (List.mem_range.1 hi) a⟩, Nat.add_sub_cancel_left]

/-- A read leaves every byte, and all but what keeps an interface awake. -/
theorem State.busTouch_spec (s : State) (a n : Nat) : (s.busTouch a n).mem.dram = s.mem.dram ∧ (s.busTouch a n).mem.cashew = s.mem.cashew ∧
    s.BusRest (s.busTouch a n) := by
  unfold State.busTouch
  split <;> exact ⟨rfl, rfl, rfl, rfl, rfl⟩

/-! ## The elements of a descriptor (R361, R362) -/

/-- The loop counters of an element number. -/
theorem element_counters {n0 n1 i0 i1 : Nat} (h0 : i0 < n0) (h1 : i1 < n1) (i2 : Nat) :
    (i0 + n0 * (i1 + n1 * i2)) % n0 = i0 ∧ (i0 + n0 * (i1 + n1 * i2)) / n0 % n1 = i1 ∧ (i0 + n0 * (i1 + n1 * i2)) / n0 / n1 = i2 := by
  have hpass : (i0 + n0 * (i1 + n1 * i2)) / n0 = i1 + n1 * i2 := by
    rw [Nat.add_mul_div_left _ _ (by omega), Nat.div_eq_of_lt h0, Nat.zero_add]
  refine ⟨by rw [Nat.add_mul_mod_self_left, Nat.mod_eq_of_lt h0], ?_, ?_⟩
  · rw [hpass, Nat.add_mul_mod_self_left, Nat.mod_eq_of_lt h1]
  · rw [hpass, Nat.add_mul_div_left _ _ (by omega), Nat.div_eq_of_lt h1, Nat.zero_add]

theorem le_unle : ∀ l : List Byte, le l.length (unle l) = l
  | [] => rfl
  | b :: r => by
    have hb := b.isLt
    have hbyte : byte (b.toNat + 256 * unle r) = b := BitVec.eq_of_toNat_eq (by rw [byte_toNat]; omega)
    have hdiv : (b.toNat + 256 * unle r) / 256 = unle r := by omega
    show byte (b.toNat + 256 * unle r) :: le r.length ((b.toNat + 256 * unle r) / 256) = b :: r
    rw [hbyte, hdiv, le_unle r]

/-- Bytes read without an error are what stands there. -/
theorem State.busRead_value (s : State) (a n : Nat) : le n (unle (s.busRead a n) ^^^ 0) = s.busRead a n := by
  have h := le_unle (s.busRead a n)
  rwa [State.busRead_length, ← Nat.xor_zero (unle _)] at h

/-- An element counted and done. -/
def State.elemDone (s : State) (ch i n : Nat) : State :=
  (s.os (flk ch 5) ((s.og (flk ch 5) + n) % 2 ^ 64)).setChan ch fun f => { f with elem := i + 1 }

/-- A difference counted; the first one is kept. -/
def State.elemDiffers (s : State) (ch i : Nat) : State :=
  (if s.og (flk ch 9) = 0 then s.os (flk ch 8) i else s).bump (flk ch 9)

theorem State.moveElem_eq (s : State) (ch i : Nat) :
    s.moveElem ch i 0 =
      let f := s.fchan ch
      let w := s.busTouch (f.sa i).toNat f.esize
      let v := s.busRead (f.sa i).toNat f.esize
      State.elemDone (if f.op = 0 then w.busWrite (f.da i).toNat v
        else if f.op = 1 then s.busWrite (f.da i).toNat (le f.esize (f.fieldOf 8 8))
        else if v = s.busRead (f.da i).toNat f.esize then w else w.elemDiffers ch i) ch i f.esize := by
  have hread (a n b k : Nat) : (s.busTouch a n).busRead b k = s.busRead b k := by
    obtain ⟨hd, hc, -⟩ := s.busTouch_spec a n
    simp only [State.busRead_eq, State.busByte, hd, hc]
  simp only [State.moveElem, State.elemDone, State.elemDiffers, State.busRead_value]
  by_cases h0 : (s.fchan ch).op = 0
  · simp [h0, hread]
  · by_cases h1 : (s.fchan ch).op = 1
    · simp [h1]
    · simp [h0, h1, hread]

theorem flk_ne {ch a b : Nat} (h : a ≠ b) : flk ch a ≠ flk ch b := by
  unfold flk okey
  omega

/-- An element done has counted its bytes, stands one further, and has left all but its channel. -/
theorem State.elemDone_spec {r s : State} (h : r.BusRest s) {ch : Nat} (hch : ch < s.fx.chans.length) (hwf : swf odflt s.objects = true)
    (i n : Nat) :
    (s.elemDone ch i n).og (flk ch 5) = (r.og (flk ch 5) + n) % 2 ^ 64 ∧ ((s.elemDone ch i n).fchan ch).elem = i + 1 ∧
      (s.elemDone ch i n).hz = r.hz := by
  have hog : s.og (flk ch 5) = r.og (flk ch 5) := State.og_of_objects h.objects _
  refine ⟨?_, ?_, h.hazel⟩
  · rw [← hog]
    exact State.og_os_self s _ _ hwf
  · show ((modAt s.fx.chans ch _).getD ch _).elem = _
    rw [getD_modAt_self hch]

/-- A difference counted, and its element kept where it is the first. -/
theorem State.elemDiffers_spec {s : State} (hwf : swf odflt s.objects = true) (ch i : Nat) :
    (s.elemDiffers ch i).og (flk ch 9) = (s.og (flk ch 9) + 1) % 2 ^ 32 ∧
      (s.elemDiffers ch i).og (flk ch 8) = (if s.og (flk ch 9) = 0 then i else s.og (flk ch 8)) ∧
      (s.elemDiffers ch i).og (flk ch 5) = s.og (flk ch 5) ∧ swf odflt (s.elemDiffers ch i).objects = true ∧
      (s.elemDiffers ch i).mem = s.mem ∧ (s.elemDiffers ch i).fx = s.fx ∧ (s.elemDiffers ch i).hz = s.hz := by
  unfold State.elemDiffers State.bump
  split
  next hz =>
    have hwf' : swf odflt (s.os (flk ch 8) i).objects = true := State.os_swf hwf _ _
    refine ⟨?_, ?_, ?_, State.os_swf hwf' _ _, rfl, rfl, rfl⟩
    · rw [State.og_os_self _ _ _ hwf', State.og_os_of_ne _ _ (flk_ne (by decide))]
    · rw [State.og_os_of_ne _ _ (flk_ne (by decide)), State.og_os_self _ _ _ hwf]
    · rw [State.og_os_of_ne _ _ (flk_ne (by decide)), State.og_os_of_ne _ _ (flk_ne (by decide))]
  next hz =>
    refine ⟨State.og_os_self _ _ _ hwf, ?_, ?_, State.os_swf hwf _ _, rfl, rfl, rfl⟩
    · rw [State.og_os_of_ne _ _ (flk_ne (by decide))]
    · rw [State.og_os_of_ne _ _ (flk_ne (by decide))]

/-- An element written: what its destination holds, and what it leaves. -/
theorem State.elemWritten {s : State} (hs : s.Sound) {ch : Nat} (hch : ch < 16) (i d : Nat) (v : List Byte) :
    let u := (s.busWrite d v).elemDone ch i v.length
    u.busRead d v.length = v ∧ (∀ a, a < d ∨ d + v.length ≤ a → u.busRead a 1 = s.busRead a 1) ∧
      u.og (flk ch 5) = (s.og (flk ch 5) + v.length) % 2 ^ 64 ∧ (u.fchan ch).elem = i + 1 ∧ u.hz = s.hz := by
  have hwf : s.BusWf := ⟨hs.dram, hs.cashew⟩
  obtain ⟨hrest, hbyte⟩ := State.busWrite_spec hwf d v
  refine ⟨State.busRead_busWrite hwf d v, fun a ha => ?_,
    State.elemDone_spec hrest (by rw [hrest.chans, hs.flax]; exact hch) (by rw [hrest.objects]; exact hs.objects) i v.length⟩
  refine (State.busRead_one (s.busWrite d v) a).trans ((congrArg (fun b => [b]) ?_).trans (s.busRead_one a).symm)
  rw [hbyte, if_neg (by omega)]

/-- Two elements compared: no byte changes, a difference is counted and the first kept. -/
theorem State.elemCompared {s : State} (hs : s.Sound) {ch : Nat} (hch : ch < 16) (i n : Nat) {same : Prop} [Decidable same] :
    let u := (if same then s else s.elemDiffers ch i).elemDone ch i n
    u.mem = s.mem ∧ u.og (flk ch 9) = (if ¬ same then (s.og (flk ch 9) + 1) % 2 ^ 32 else s.og (flk ch 9)) ∧
      u.og (flk ch 8) = (if ¬ same ∧ s.og (flk ch 9) = 0 then i else s.og (flk ch 8)) ∧
      u.og (flk ch 5) = (s.og (flk ch 5) + n) % 2 ^ 64 ∧ (u.fchan ch).elem = i + 1 ∧ u.hz = s.hz := by
  have hdone (z : State) {k : Nat} (hk : k ≠ flk ch 5) : (z.elemDone ch i n).og k = z.og k := State.og_os_of_ne z _ hk
  by_cases h : same
  · rw [if_pos h]
    obtain ⟨hcount, helem, hhz⟩ := State.elemDone_spec (s := s) ⟨rfl, rfl, rfl⟩ (hs.flax.symm ▸ hch) hs.objects i n
    refine ⟨rfl, ?_, ?_, hcount, helem, hhz⟩
    · rw [if_neg (not_not_intro h), hdone s (flk_ne (by decide))]
    · rw [if_neg fun k => k.1 h, hdone s (flk_ne (by decide))]
  · rw [if_neg h]
    obtain ⟨h9, h8, h5, hwf, hmem, hfx, hhz⟩ := State.elemDiffers_spec hs.objects ch i
    obtain ⟨hcount, helem, hhz'⟩ := State.elemDone_spec (s := s.elemDiffers ch i) ⟨rfl, rfl, rfl⟩
      (by rw [hfx, hs.flax]; exact hch) hwf i n
    refine ⟨hmem, ?_, ?_, by rw [hcount, h5], helem, hhz'.trans hhz⟩
    · rw [if_pos h, hdone _ (flk_ne (by decide)), h9]
    · rw [hdone _ (flk_ne (by decide)), h8]
      simp only [h, not_false_eq_true, true_and]

theorem State.busTouch_sound {s : State} (hs : s.Sound) (a n : Nat) : (s.busTouch a n).Sound :=
  (State.busTouch_kept (Kept.self hs) a n).toSound

theorem State.busTouch_busRead (s : State) (a n b k : Nat) : (s.busTouch a n).busRead b k = s.busRead b k := by
  obtain ⟨hd, hc, -⟩ := s.busTouch_spec a n
  simp only [State.busRead_eq, State.busByte, hd, hc]

/-- Settles O48: `element_counters` for where an element lies, and one lemma for what each operation does of it. -/
theorem flaxElements : Obligations.FlaxElements := by
  refine ⟨fun f i0 i1 i2 h0 h1 => ?_, fun s ch i hs hch => ?_⟩
  · obtain ⟨e0, e1, e2⟩ := element_counters h0 h1 i2
    rw [FlaxChan.sa, FlaxChan.da, e0, e1, e2]
    exact ⟨rfl, rfl⟩
  · intro f src dst u differs
    have hu : u = s.moveElem ch i 0 := rfl
    rw [State.moveElem_eq] at hu
    obtain ⟨htd, htc, htouch⟩ := s.busTouch_spec src f.esize
    have htwf := State.busTouch_sound hs src f.esize
    by_cases h0 : f.op = 0
    · have hv : (s.busRead src f.esize).length = f.esize := s.busRead_length src f.esize
      obtain ⟨hread, hkeep, hcount, helem, hhz⟩ := State.elemWritten htwf hch i dst (s.busRead src f.esize)
      rw [hv] at hread hkeep hcount helem hhz
      rw [show u = _ from hu.trans (congrArg (State.elemDone · ch i f.esize) (if_pos h0))]
      refine ⟨fun _ => hread, fun h => absurd (h0.symm.trans h) (by decide), fun a _ ha => ?_,
        fun h => absurd (h0.symm.trans h) (by decide), ?_, helem, hhz.trans htouch.hazel⟩
      · exact (hkeep a ha).trans (s.busTouch_busRead ..)
      · exact hcount.trans (by rw [State.og_of_objects htouch.objects])
    · by_cases h1 : f.op = 1
      · have hv : (le f.esize (f.fieldOf 8 8)).length = f.esize := length_of_le ..
        obtain ⟨hread, hkeep, hcount, helem, hhz⟩ := State.elemWritten hs hch i dst (le f.esize (f.fieldOf 8 8))
        rw [hv] at hread hkeep hcount helem hhz
        rw [show u = _ from hu.trans (congrArg (State.elemDone · ch i f.esize) ((if_neg h0).trans (if_pos h1)))]
        exact ⟨fun h => absurd h h0, fun _ => hread, fun a _ ha => hkeep a ha, fun h => absurd (h1.symm.trans h) (by decide), hcount,
          helem, hhz⟩
      · obtain ⟨hmem, h9, h8, hcount, helem, hhz⟩ := State.elemCompared (same := s.busRead src f.esize = s.busRead dst f.esize) htwf hch i f.esize
        have hog := State.og_of_objects htouch.objects
        rw [hog] at h9 h8 hcount
        rw [hog] at h8
        rw [show u = _ from hu.trans (congrArg (State.elemDone · ch i f.esize) ((if_neg h0).trans (if_neg h1)))]
        exact ⟨fun h => absurd h h0, fun h => absurd h h1, fun _ h => absurd h (by omega),
          fun _ => ⟨(congrArg Memory.dram hmem).trans htd, (congrArg Memory.cashew hmem).trans htc, h9, h8⟩, hcount, helem,
          hhz.trans htouch.hazel⟩

/-! ## The channel commands (R364 to R368) -/

/-- A free host channel with an aligned address starts. -/
theorem flaxStart_pass {s : State} {ch : Nat} (hch : 8 ≤ ch) (hfree : s.chanBusy ch = false) (ha : s.og (flk ch 2) % 64 = 0) :
    flaxStart ch s = .ok ((((((((s.os (flk ch 1) 1).os (flk ch 4) (s.og (flk ch 2))).os (flk ch 5) 0).os (flk ch 6) 0).os (flk ch 7) 0).os
      (flk ch 8) 0xFFFFFFFFFFFFFFFF).os (flk ch 9) 0).setChan ch fun _ => ⟨[], false, 0, false, false, false⟩) :=
  (require_pass (decide_eq_true ha)).trans (require_pass (by rw [decide_eq_true hch, hfree]; rfl))

/-- A stop waits for the burst boundary of a running channel and ends a waiting or paused one. -/
theorem flaxHalt_pass {s : State} {ch : Nat} (hch : 8 ≤ ch) :
    flaxHalt ch s = .ok (if s.og (flk ch 1) = 2 then s.setChan ch fun f => { f with stop := true }
      else if s.og (flk ch 1) = 1 ∨ s.og (flk ch 1) = 3 then s.chanEnd ch 0 else s) := by
  refine (require_pass (decide_eq_true hch)).trans ?_
  by_cases h2 : s.og (flk ch 1) = 2
  · rw [if_pos h2, if_pos h2]
  · rw [if_neg h2, if_neg h2]
    have hbusy : s.chanBusy ch = true ↔ s.og (flk ch 1) = 1 ∨ s.og (flk ch 1) = 3 :=
      decide_eq_true_iff.trans (by omega)
    by_cases h13 : s.og (flk ch 1) = 1 ∨ s.og (flk ch 1) = 3
    · rw [if_pos h13, if_pos (hbusy.2 h13)]
    · rw [if_neg h13, if_neg fun k => h13 (hbusy.1 k)]

/-- FLAX_BURST whose reads meet no error and whose banks serve the channel granted. -/
theorem exec_flaxBurst {s : State} {t ch : Nat} (hp : s.pw.power = .ready ∨ s.pw.power = .sensing) {w : State}
    (hw : ((s.at t).examine).grant = w) (hg : w.granted = some ch) {n : Nat}
    (hn : (w.fchan ch).burstLen (256 / (w.fchan ch).esize) (w.fchan ch).elem = n)
    (hfree : ((List.range n).any fun k => w.spanWaits ((w.fchan ch).da ((w.fchan ch).elem + k)).toNat (w.fchan ch).esize ||
      (decide ((w.fchan ch).op ≠ 1) && w.spanWaits ((w.fchan ch).sa ((w.fchan ch).elem + k)).toNat (w.fchan ch).esize)) = false) :
    exec (.flaxBurst t none 0) s = .next ((if (w.fchan ch).op = 1 then w
      else w.readFixed ((w.fchan ch).sa (w.fchan ch).elem).toNat 0).moveBurst ch none n (w.fchan ch).elem) := by
  have hp' : (s.at t).pw.power = .ready ∨ (s.at t).pw.power = .sensing := hp
  have hexec : exec (.flaxBurst t none 0) s = execFlaxBurst t none 0 s := rfl
  rw [hexec]
  simp only [execFlaxBurst, if_pos hp', hw, hg, hn, hfree, Bool.false_eq_true, if_false, ite_not]

/-- DESCRIPTOR_COMPLETE of a descriptor whose last element is moved. -/
theorem exec_descriptorComplete {s : State} {t ch : Nat} {f : FlaxChan} (hc : s.og 0x430001 = ch) (hch : ch < 16)
    (hf : s.fchan ch = f) (hl : f.loaded = true) (hd : f.total ≤ f.elem) {w : State}
    (hw : (s.at t).busTouch (s.og (flk ch 4)) 8 = w) :
    exec (.descriptorComplete t) s =
      if bit f.control 27 = true ∧ f.op = 2 ∧ w.og (flk ch 9) ≠ 0 then .next (w.chanEnd ch 4)
      else if unle (w.busRead (w.og (flk ch 4)) 8) = 0 then .next (w.chanEnd ch 4)
      else if unle (w.busRead (w.og (flk ch 4)) 8) % 64 ≠ 0 ∨ w.spanFault (unle (w.busRead (w.og (flk ch 4)) 8)) 64 false = 3 then
        .next (w.chanFault ch 1 (unle (w.busRead (w.og (flk ch 4)) 8)))
      else .next ((w.os (flk ch 4) (unle (w.busRead (w.og (flk ch 4)) 8))).setChan ch fun f => { f with loaded := false, elem := 0 }) := by
  subst hc hf hw
  exact if_pos ⟨hch, hl, hd⟩

/-- Settles O47: a start and a stop have the effect of their object, a burst moves on, and a descriptor done goes to the next, or ends
the chain at a next field of 0 or at a mismatch that stops it. -/
theorem flaxCommandsComplete : Obligations.FlaxCommandsComplete := by
  refine ⟨?_, ?_, ?_, ?_, ?_⟩
  · intro s t c ch hacc hch w hfree ha
    exact congrArg Host.Outcome.next (State.hostWrite_ok hacc (flaxStart_pass hch hfree ha))
  · intro s t c ch hacc hch w
    exact congrArg Host.Outcome.next (State.hostWrite_ok hacc (flaxHalt_pass hch))
  · intro s t ch hp w hg f n hfree
    refine exec_flaxBurst (w := w) (n := n) hp rfl hg rfl (List.any_eq_false.2 fun k hk => ?_)
    obtain ⟨hd, hs⟩ := hfree k (List.mem_range.1 hk)
    rw [hd, Bool.false_or, Bool.and_eq_true, decide_eq_true_eq]
    rintro ⟨hop, hwait⟩
    exact Bool.false_ne_true ((hs hop).symm.trans hwait)
  · intro s t ch f w next hch hl hd hgo
    have hexec := exec_descriptorComplete (s := s) (t := t) rfl hch rfl hl hd rfl
    refine ⟨fun h0 => hexec.trans ((if_neg hgo).trans (if_pos h0)), fun h0 h64 h3 => hexec.trans ?_⟩
    exact (if_neg hgo).trans ((if_neg h0).trans (if_neg fun k => k.elim (absurd h64) h3))
  · intro s t ch f w hch hl hd h27 hop h9
    exact (exec_descriptorComplete (s := s) (t := t) rfl hch rfl hl hd rfl).trans (if_pos ⟨h27, hop, h9⟩)

end Sys2Proof.Machine
end

section
/-! SUPPORT. Almond's jobs (R371 to R375). -/

namespace Sys2Proof.Machine

open Sys2Proof

/-- A job outside Running and Stopped starts: the descriptor is read into it. -/
theorem jobStart_pass {s : State} (h₁ : s.og 0x440003 ≠ 1) (h₂ : s.og 0x440003 ≠ 2) {j : Job} (hj : s.makeJob (s.og 0x440001) = j) :
    jobStart s = .ok (((((({ s with al := { s.al with
      job := some j, restart := s.al.restart && !(decide (j.kind = 1) && decide (j.fail = 0)) } }.os 0x440003 1).os 0x440004 0).os
      0x440005 0).os 0x440006 0).os 0x440007 0)) := by
  refine (require_pass (decide_eq_true ⟨h₁, h₂⟩)).trans ?_
  simp only [hj]
  by_cases hc : j.kind = 1 ∧ j.fail = 0
  · rw [if_pos hc, decide_eq_true hc.1, decide_eq_true hc.2, Bool.and_self, Bool.not_true, Bool.and_false]
    rfl
  · have hno : (decide (j.kind = 1) && decide (j.fail = 0)) = false := by
      rwa [Bool.and_eq_false_iff, decide_eq_false_iff_not, decide_eq_false_iff_not, ← not_and_or]
    rw [if_neg hc, hno, Bool.not_false, Bool.and_true]
    rfl

theorem jobResume_pass {s : State} {j : Job} (hj : s.al.job = some j) (h : s.og 0x440003 = 2) :
    jobResume s = .ok (({ s with al := { s.al with
      job := some { j with listAt := s.og 0x440008, listLeft := s.og 0x440009, bufCap := 0 } } }.os 0x440003 1).os 0x440004 0) := by
  simp only [jobResume, hj]
  exact require_pass (decide_eq_true h)

theorem jobAbandon_pass {s : State} (h : s.al.job.isSome = true) :
    jobAbandon s = .ok ({ s with al := { s.al with job := none, restart := true } }.os 0x440003 0) := if_pos h

/-- What JOB_DONE answers for a job whose falling tokens are counted (R371). -/
def State.jobEnd (s : State) (j : Job) : Host.Outcome State Fault Refusal :=
  if j.fail ≠ 0 then .next ((s.setAl fun a => { a with job := none }).jobReport j 4 j.fail)
  else if j.kind = 1 then .next (s.compressRun j false)
  else if j.kind = 2 then
    let v := s.busWrite j.image s.stateImage
    .next (({ v with free := v.free + 1 }.setAl fun a => { a with job := none }).jobReport j 3 0)
  else match loadImage (s.busRead j.image 131136) with
    | some (w, p) => .next ((s.setAl fun a => { a with job := none, window := w, pos := p, restart := false }).jobReport j 3 0)
    | none => .next ((s.setAl fun a => { a with job := none, window := [], restart := true }).jobReport j 4 6)

/-- JOB_DONE of a running job whose reads meet no error. -/
theorem exec_jobDone {s : State} {j : Job} (t fb : Nat) (hj : s.al.job = some j) (hrun : s.og 0x440003 = 1) :
    let fell := if j.kind = 1 then min fb (j.units.countP isMatch) else 0
    let v := ((s.at t).readFixed j.image 0).bump 0x44000A fell
    let k := { j with units := fallBack v.free fell j.units (j.input.drop j.consumed) }
    exec (.jobDone t false 0 fb) s = (if fell = 0 then v else { v with free := v.free + k.units.length + 1 }).jobEnd k := by
  intro fell v k
  show execJobDone t false 0 fb s = _
  unfold execJobDone
  extract_lets z
  have hj' : z.al.job = some j := hj
  have hrun' : z.og 0x440003 = 1 := hrun
  rw [hj', hrun']
  rfl

theorem fallBack_zero (key : Nat) (us : List (List Byte × Nat)) (input : List Byte) : fallBack key 0 us input = us := by
  cases us <;> rfl

/-- JOB_DONE of a job other than a compress job: no token falls. -/
theorem exec_jobDone_image {s : State} {j : Job} (t fb : Nat) (hj : s.al.job = some j) (hrun : s.og 0x440003 = 1) (hkind : j.kind ≠ 1) :
    exec (.jobDone t false 0 fb) s = (((s.at t).readFixed j.image 0).bump 0x44000A 0).jobEnd j := by
  have hexec := exec_jobDone t fb hj hrun
  simp only [if_neg hkind, if_true, fallBack_zero] at hexec
  exact hexec

/-- A state image is stored where its job says. -/
theorem State.jobEnd_store {s v : State} {j : Job} (hfail : j.fail = 0) (hkind : j.kind = 2) (hv : s.busWrite j.image s.stateImage = v) :
    s.jobEnd j = .next ({ v with free := v.free + 1, al := { v.al with job := none } }.jobReport j 3 0) := by
  refine (if_neg (not_not_intro hfail)).trans ((if_neg (by omega)).trans ((if_pos hkind).trans ?_))
  rw [hv]
  rfl

/-- A whole run without a read error: what its buffers' end makes of it. -/
theorem State.compressRun_done {s : State} {j : Job} {x : State} {y : Job} (h : s.fillBufs (s.stopMode j) j.fuel j = (x, y, .done)) :
    s.compressRun j false = { x with al := { x.al with job := none, window := y.after, pos := y.afterPos } }.jobReport y 3 0 := by
  have hunits : ({ j with units := j.units.take j.units.length } : Job) = j := by rw [List.take_length]
  simp only [State.compressRun, Bool.false_eq_true, if_false, hunits, h, List.drop_length, List.append_nil]
  rfl

/-- Settles O49: a start, a resume and an abandon have the effect of their object, and a job done ends as its kind and its run say
(`State.jobEnd`). -/
theorem jobCommandsComplete : Obligations.JobCommandsComplete := by
  unfold Obligations.JobCommandsComplete
  refine ⟨?_, ?_, ?_, ?_, ?_, ?_, ?_⟩
  · intro s t c hacc w h₁ h₂ j
    exact congrArg Host.Outcome.next (State.hostWrite_ok hacc (jobStart_pass h₁ h₂ rfl))
  · intro s t c j hacc hj w h
    exact congrArg Host.Outcome.next (State.hostWrite_ok hacc (jobResume_pass (s := (s.at t).renew c) hj h))
  · intro s t c hacc hj w
    exact congrArg Host.Outcome.next (State.hostWrite_ok hacc (jobAbandon_pass (s := (s.at t).renew c) hj))
  · intro s t fb j x y hj hkind hfail fell v k w hrun hfill
    have hexec := exec_jobDone t fb hj hrun
    rw [if_pos hkind] at hexec
    refine hexec.trans ((if_neg (not_not_intro hfail)).trans ((if_pos hkind).trans ?_))
    exact congrArg Host.Outcome.next (State.compressRun_done hfill)
  · intro s t fb j hj hkind hfail w hrun v
    exact (exec_jobDone_image t fb hj hrun (by omega)).trans (State.jobEnd_store hfail hkind rfl)
  · intro s t fb j win p hj h₁ h₂ hfail w hrun himg
    refine (exec_jobDone_image t fb hj hrun h₁).trans ((if_neg (not_not_intro hfail)).trans ((if_neg h₁).trans ((if_neg h₂).trans ?_)))
    change (match loadImage (w.busRead j.image 131136) with | some (a, b) => _ | none => _ : Host.Outcome State Fault Refusal) = _
    rw [himg]
    rfl
  · intro s t fb j hj hfail fell v k w hrun
    exact (exec_jobDone t fb hj hrun).trans (if_pos hfail)

end Sys2Proof.Machine
end

section
/-! SUPPORT. The power island: what the shared operations leave of it and of the time base; the Shell (R417 to R423, R494, R495), the
commands of the host (R463 to R467), and the way to Ready (R341, R466, R498, R500). -/

namespace Sys2Proof.Machine

open Sys2Proof

/-! ## The island and the time base across operations

The mask 130 is the clock's part and the island's, 67 108 866 the clock's and the time base's. -/

theorem Same.pw_eq {r s : State} (h : Same 130 r s) : s.pw = r.pw := by
  have hstill : s.pw.still = r.pw.still := h.parts .pw rfl
  obtain ⟨-, hcount, hrem, -⟩ := h.parts .clock rfl
  generalize s.pw = v at *
  generalize r.pw = w at *
  cases v
  cases w
  simp only [Power.still, Power.mk.injEq] at hstill hcount hrem ⊢
  simp only [hstill, hcount, hrem, and_self]

theorem Same.tb_eq {r s : State} (h : Same 67108866 r s) : s.tb = r.tb := by
  have hstill : s.tb.still = r.tb.still := h.parts .tb rfl
  obtain ⟨-, -, -, ht, hacc⟩ := h.parts .clock rfl
  generalize s.tb = v at *
  generalize r.tb = w at *
  cases v
  cases w
  simp only [TimeBase.still, TimeBase.mk.injEq] at hstill ht hacc ⊢
  simp only [hstill, ht, hacc, and_self]

theorem Same.mg_eq {r s : State} (h : Same 512 r s) : s.mg = r.mg := h.parts .mg rfl

theorem State.enterPower_pw (s : State) (p : PowerState) : (s.enterPower p).pw = { s.pw with power := p } := by
  unfold State.enterPower
  split
  · next h => subst h; rfl
  · exact (State.statusNow_same rfl (State.log_same rfl (.self 130 _) _ _ _ _)).pw_eq

theorem State.enterPower_tb (s : State) (p : PowerState) : (s.enterPower p).tb = s.tb := by
  unfold State.enterPower
  split
  · rfl
  · exact (State.statusNow_same rfl (State.log_same rfl (.self 67108866 _) _ _ _ _)).tb_eq

theorem State.transitionDone_tb (s : State) : s.transitionDone.tb = s.tb := by
  unfold State.transitionDone
  dsimp only
  split <;> rfl

theorem State.warmUp_pw (s : State) : s.warmUp.pw = { s.pw with photonic := true } := by
  unfold State.warmUp
  dsimp only
  split
  · exact (State.bringUp_same rfl (.self 130 s.photonicOn) _ _).pw_eq
  · rfl

theorem State.warmUp_tb (s : State) : s.warmUp.tb = s.tb := by
  unfold State.warmUp
  dsimp only
  split
  · exact (State.bringUp_same rfl (.self 67108866 s.photonicOn) _ _).tb_eq
  · rfl

theorem State.warmIfHeld_pw (s : State) : s.warmIfHeld.pw.power = s.pw.power ∧ s.warmIfHeld.pw.goal = s.pw.goal ∧
    s.warmIfHeld.pw.readyDone = s.pw.readyDone ∧ s.warmIfHeld.pw.library = s.pw.library ∧
    s.warmIfHeld.pw.enterWanted = s.pw.enterWanted := by
  unfold State.warmIfHeld
  split
  · rw [State.warmUp_pw]
    exact ⟨rfl, rfl, rfl, rfl, rfl⟩
  · exact ⟨rfl, rfl, rfl, rfl, rfl⟩

theorem State.warmIfHeld_tb (s : State) : s.warmIfHeld.tb = s.tb := by
  unfold State.warmIfHeld
  split
  · exact s.warmUp_tb
  · rfl

/-! ## The Shell (R417 to R423, R494, R495) -/

/-- A wake cause in Dormant is latched; it raises PWR_EN, or waits for the end of the hold (R422, R423). -/
theorem State.wake_dormant {s : State} (ha : s.pw.armed = true) (hp : s.pw.pwrEn = false) (bits : Nat) :
    s.wake bits = { s.os 0x210018 (s.og 0x210018 ||| bits) with
      pw := let w := { s.pw with wokeAt := if s.pw.woken then s.pw.wokeAt else s.now }
        if s.pw.lowHold then { w with woken := true } else { w with pwrEn := true, armed := false, woken := false, fromDormant := true } } := by
  have hdorm : (s.os 0x210018 (s.og 0x210018 ||| bits)).pw.armed = true ∧ (s.os 0x210018 (s.og 0x210018 ||| bits)).pw.pwrEn = false :=
    ⟨ha, hp⟩
  have hwoke (x : State) : (if x.pw.woken = true then x else x.setPw fun w => { w with wokeAt := x.now }) =
      { x with pw := { x.pw with wokeAt := if x.pw.woken then x.pw.wokeAt else x.now } } := by
    split <;> rfl
  refine (if_pos hdorm).trans ?_
  rw [hwoke]
  by_cases hl : s.pw.lowHold = true
  · rw [if_pos hl]
    exact if_pos hl
  · rw [if_neg hl]
    exact if_neg hl

/-- Settles O12: each command has its conditions met, and a wake cause in Dormant goes the way of `State.wake_dormant`. -/
theorem shellCommandsComplete : Obligations.ShellCommandsComplete := by
  refine ⟨?_, ?_, ?_, ?_, ?_, ?_, ?_⟩
  · intro s t hv
    exact if_neg (ne_true_of_eq_false (b := (s.at t).pw.vbat) hv)
  · intro s t hv
    exact congrArg Host.Outcome.next (if_pos (c := (s.at t).pw.vbat = true) hv)
  · intro s t hp hd hr
    rw [← State.at_now]
    exact if_pos (c := (s.at t).pw.pwrEn = true ∧ (s.at t).pw.power = .dormant ∧ (s.at t).pw.inReset = false) ⟨hp, hd, hr⟩
  · intro s t pins active hv hact ha hp
    rw [← State.at_now]
    exact (if_pos (c := (s.at t).pw.vbat = true ∧ active ≠ 0) ⟨hv, hact⟩).trans
      (congrArg Host.Outcome.next (State.wake_dormant (s := s.at t) ha hp active))
  · intro s t hv ha hp hdue
    rw [← State.at_now]
    exact (if_pos (c := (s.at t).pw.vbat = true ∧ (s.at t).pw.armed = true ∧ (s.at t).pw.timerDue = true) ⟨hv, ha, hdue⟩).trans
      (congrArg Host.Outcome.next (State.wake_dormant (s := s.at t) ha hp 256))
  · intro s t hh hu
    rw [← State.at_now] at hu
    refine (if_pos (c := (s.at t).pw.lowHold = true ∧ (s.at t).pw.lowUntil ≤ (s.at t).now) ⟨hh, hu⟩).trans (congrArg Host.Outcome.next ?_)
    by_cases hw : s.pw.woken = true
    · rw [if_pos hw]
      exact if_pos hw
    · rw [if_neg hw]
      exact if_neg hw
  · intro s t
    rfl

/-! ## Commands of the host (R463 to R467) -/

theorem State.unintend_spec (s : State) : s.unintend.pw = s.pw ∧ s.unintend.wire = s.wire ∧ s.unintend.mg.intended = false :=
  ⟨(State.unintend_same rfl (.self 130 s)).pw_eq, (State.unintend_same rfl (.self 32 s)).wire_eq, rfl⟩

/-- A host command that ends Sensing ends intended service, and moves nothing else than the clearing of managed operation (R428). -/
theorem State.hostEnds_spec (s : State) : s.hostEnds.pw.power = s.pw.power ∧ s.hostEnds.wire = s.wire ∧
    s.hostEnds.mg.intended = false ∧ s.hostEnds.pw.nmtStopWanted = s.pw.nmtStopWanted := by
  obtain ⟨hpw, hwire, hmg⟩ := s.unintend_spec
  unfold State.hostEnds
  dsimp only
  split <;> exact ⟨(congrArg Power.power hpw :), hwire, hmg, (congrArg Power.nmtStopWanted hpw :)⟩

/-- A move down in Sensing waits for its next boundary. -/
theorem State.moveDown_sensing {s : State} (h : s.pw.power = .sensing) (p : PowerState) :
    (s.moveDown p).pw = { s.pw with stopWanted := true, goal := some p } ∧ (s.moveDown p).mg = s.mg ∧ (s.moveDown p).wire = s.wire := by
  unfold State.moveDown
  rw [h]
  exact ⟨rfl, rfl, rfl⟩

theorem State.intend_spec (s : State) : s.intend.pw = s.pw ∧ s.intend.wire = s.wire ∧ s.intend.mg.intended = true :=
  ⟨(State.intend_same rfl (.self 130 s)).pw_eq, (State.intend_same rfl (.self 32 s)).wire_eq, rfl⟩

theorem State.hostLeaves_spec (s : State) (p : PowerState) : (s.hostLeaves p).pw = { s.pw with goal := some p } ∧
    (s.hostLeaves p).wire = s.wire ∧ (s.hostLeaves p).mg.intended = s.mg.intended := by
  unfold State.hostLeaves State.leaveDoze
  dsimp only
  split <;> exact ⟨rfl, rfl, rfl⟩

theorem State.mayLeaveDoze_cool {s : State} (h : s.mg.critical = false) : s.mayLeaveDoze = true := by
  unfold State.mayLeaveDoze
  rw [h]
  rfl

/-- A command to move down, obeyed in Sensing, lets Sensing stop at its next boundary. -/
theorem State.hostEnds_moveDown {s : State} (h : s.pw.power = .sensing) (p : PowerState) :
    let u := s.hostEnds.moveDown p
    u.pw.stopWanted = true ∧ u.pw.goal = some p ∧ u.pw.power = .sensing ∧ u.mg.intended = false ∧ u.wire = s.wire ∧
      u.pw.nmtStopWanted = s.pw.nmtStopWanted := by
  obtain ⟨hpower, hwire, hmg, hnmt⟩ := s.hostEnds_spec
  obtain ⟨hpw, hmg', hwire'⟩ := State.moveDown_sensing (hpower.trans h) p
  exact ⟨(congrArg Power.stopWanted hpw :), (congrArg Power.goal hpw :), (congrArg Power.power hpw :).trans (hpower.trans h),
    (congrArg Manage.intended hmg').trans hmg, hwire'.trans hwire, (congrArg Power.nmtStopWanted hpw :).trans hnmt⟩

/-- An entry that the judgement of R466 lets pass begins now (R91, R92). -/
theorem State.beginEntry_ok {s v : State} (h : s.beginEntry = .ok v) : v.pw.goal = some .sensing ∧
    v.pw.entry = some ⟨s.pw.photonic, s.now, adcEdge (s.now + if s.pw.photonic then 5000000 else 120000000), s.pw.photonic, false⟩ := by
  unfold State.beginEntry at h
  split at h
  · cases h
  · split at h
    next => cases h
    next r hr =>
      split at h
      next => cases h
      next pl hpl =>
        split at h
        next => cases h
        next s' hs' =>
          have hpw : s'.pw = s.pw := (State.reserveEntry_same (m := 130) rfl (.self 130 s) r pl s' hs').pw_eq
          have hnow : s'.now = s.now := (State.reserveEntry_same (m := 2) rfl (.self 2 s) r pl s' hs').now_eq
          have hon : (if s'.pw.photonic = true then s' else s'.photonicOn).now = s.now := by
            split <;> exact hnow
          have hup (l : List Nat) (limit : Nat) :
              ((if s'.pw.photonic = true then s' else s'.photonicOn).bringUp l limit).now = s.now :=
            (State.bringUp_same rfl (.self 2 _) l limit).now_eq.trans hon
          injection h with h
          subst h
          refine ⟨(congrArg Power.goal (State.loadHalf_same rfl (.self 130 _) pl).pw_eq :),
            (congrArg Power.entry (State.loadHalf_same rfl (.self 130 _) pl).pw_eq :).trans ?_⟩
          rw [hpw] at hup
          simp only [State.setPw, hpw, hup]

/-- Settles O14: by what `powerCommand` is in each power state, then the laws of ending, leaving and beginning. -/
theorem powerCommandsComplete : Obligations.PowerCommandsComplete := by
  have hdown {s : State} {t c : Nat} {p : PowerState} (h : s.pw.power = .sensing) :
      let u := (((s.at t).renew c).hostEnds.moveDown p).answer c .done
      u.pw.stopWanted = true ∧ u.pw.goal = some p ∧ u.pw.power = .sensing ∧ u.mg.intended = false ∧
        u.wire = s.wire ++ [.answer c .done] := by
    obtain ⟨hstop, hgoal, hpower, hmg, hwire, -⟩ := State.hostEnds_moveDown (s := (s.at t).renew c) h p
    exact ⟨hstop, hgoal, hpower, hmg, congrArg (· ++ [Wire.answer c .done]) hwire⟩
  refine ⟨?_, ?_, ?_, ?_, ?_, ?_⟩
  · intro s t c h hacc
    exact ⟨_, congrArg Host.Outcome.next (State.hostWrite_ok hacc rfl), hdown h⟩
  · intro s t c h hacc
    exact ⟨_, congrArg Host.Outcome.next (State.hostWrite_ok hacc rfl), hdown h⟩
  · intro s t c h hacc
    have hcmd : powerCommand 2 ((s.at t).renew c) = .ok (((s.at t).renew c).hostEnds.moveDown .ready) := by
      have h' : ((s.at t).renew c).pw.power = .sensing := h
      unfold powerCommand
      rw [h']
      rfl
    exact ⟨_, congrArg Host.Outcome.next (State.hostWrite_ok hacc hcmd), hdown h⟩
  · intro s t c h hcool hacc
    have hcmd : powerCommand 2 ((s.at t).renew c) = .ok (((s.at t).renew c).hostLeaves .ready) := by
      have h' : ((s.at t).renew c).pw.power = .doze := h
      unfold powerCommand
      rw [h']
      exact require_pass (State.mayLeaveDoze_cool hcool)
    obtain ⟨hpw, hwire, -⟩ := ((s.at t).renew c).hostLeaves_spec .ready
    exact ⟨_, congrArg Host.Outcome.next (State.hostWrite_ok hacc hcmd), (congrArg Power.goal hpw :), (congrArg Power.power hpw :).trans h,
      congrArg (· ++ [Wire.answer c .done]) hwire⟩
  · intro s t c h hcool hacc
    have hcmd : powerCommand 3 ((s.at t).renew c) = .ok (((s.at t).renew c).intend.hostLeaves .sensing) := by
      have h' : ((s.at t).renew c).pw.power = .doze := h
      unfold powerCommand
      rw [h']
      exact require_pass (State.mayLeaveDoze_cool hcool)
    obtain ⟨hpw₁, hwire₁, hmg⟩ := ((s.at t).renew c).intend_spec
    obtain ⟨hpw, hwire, hmg'⟩ := ((s.at t).renew c).intend.hostLeaves_spec .sensing
    rw [hpw₁] at hpw
    exact ⟨_, congrArg Host.Outcome.next (State.hostWrite_ok hacc hcmd), (congrArg Power.goal hpw :), (congrArg Power.power hpw :).trans h,
      hmg'.trans hmg, congrArg (· ++ [Wire.answer c .done]) (hwire.trans hwire₁)⟩
  · intro s t c v h hacc hv
    have hcmd : powerCommand 3 ((s.at t).renew c) = .ok v := by
      have h' : ((s.at t).renew c).pw.power = .ready := h
      unfold powerCommand
      rw [h']
      show (match ((s.at t).renew c).intend.beginEntry with | .ok s' => .ok s' | .error _ => .error 0x08000020 : Except Nat State) = _
      rw [hv]
    obtain ⟨hgoal, hentry⟩ := State.beginEntry_ok hv
    have hpw : ((s.at t).renew c).intend.pw.photonic = s.pw.photonic := (congrArg Power.photonic ((s.at t).renew c).intend_spec.1 :)
    have hnow : ((s.at t).renew c).intend.now = max s.now t :=
      (State.intend_same rfl (.self 2 ((s.at t).renew c))).now_eq.trans (State.at_now s t)
    rw [hpw, hnow] at hentry
    exact ⟨congrArg Host.Outcome.next (State.hostWrite_ok hacc hcmd), hgoal, hentry⟩

/-! ## NMT (R463, R465, R487) -/

theorem State.recovery_off {s : State} (h : s.og 0x500001 ≠ 1) : s.recovery = false := beq_eq_false_iff_ne.2 h

/-- The state in which no NMT stop is wanted. -/
def State.nmtGo (s : State) : State := s.setPw fun w => { w with nmtStopWanted := false }

/-- START_REMOTE_NODE obeyed in Doze, cool enough. -/
theorem exec_startRemoteNode {s : State} {t node : Nat} (hok : (s.at t).nmtOk node = true) (hrec : s.og 0x500001 ≠ 1)
    (h : s.pw.power = .doze) (hcool : s.mg.critical = false) :
    exec (.startRemoteNode t node) s = .next ((s.at t).nmtGo.intend.hostLeaves .sensing) := by
  show execStartRemoteNode t node s = _
  unfold execStartRemoteNode
  extract_lets z v
  rw [if_neg (by rw [hok, State.recovery_off (s := z) hrec]; decide), show v.pw.power = .doze from h]
  exact if_pos (State.mayLeaveDoze_cool (s := v) hcool)

/-- The state in which an NMT stop is wanted. -/
def State.nmtHalt (s : State) : State := s.setPw fun w => { w with nmtStopWanted := true }

/-- STOP_REMOTE_NODE obeyed. -/
theorem exec_stopRemoteNode {s : State} {t node : Nat} (hok : (s.at t).nmtOk node = true) :
    exec (.stopRemoteNode t node) s = .next ((s.at t).hostEnds.nmtHalt.moveDown .doze) := if_neg (ne_false_of_eq_true hok)

/-- ENTER_PRE_OPERATIONAL obeyed in Sensing. -/
theorem exec_enterPreOperational {s : State} {t node : Nat} (hok : (s.at t).nmtOk node = true) (hrec : s.og 0x500001 ≠ 1)
    (h : s.pw.power = .sensing) : exec (.enterPreOperational t node) s = .next ((s.at t).nmtGo.hostEnds.moveDown .ready) := by
  show execEnterPreOperational t node s = _
  unfold execEnterPreOperational
  extract_lets z v
  rw [if_neg (by rw [hok, State.recovery_off (s := z) hrec]; decide), show v.pw.power = .sensing from h]
  rfl

/-- RESET_COMMUNICATION obeyed by a node that has an ID. -/
theorem exec_resetCommunication {s : State} {t node : Nat} (hok : (s.at t).nmtOk node = true) (hid : s.ctl.nodeId ≠ 0) :
    exec (.resetCommunication t node) s = .next ((s.at t).endSession.injectLock.emit (.bootUp s.ctl.nodeId)) := by
  have hctl : (s.at t).endSession.injectLock.ctl.nodeId = s.ctl.nodeId :=
    (congrArg Control.nodeId (State.injectLock_same rfl (.self 256 _)).ctl_eq :)
  refine (if_neg (ne_false_of_eq_true hok)).trans (congrArg Host.Outcome.next ?_)
  show (if (s.at t).endSession.injectLock.ctl.nodeId = 0 then _ else _ : State) = _
  rw [hctl]
  exact if_neg hid

/-- Settles O15: an obeyed command is its effect, and the laws of ending, leaving and intending service say what that holds. -/
theorem nmtCommandsComplete : Obligations.NmtCommandsComplete := by
  refine ⟨?_, ?_, ?_, ?_⟩
  · intro s t node hok hrec h hcool
    obtain ⟨hpw₁, -, hmg⟩ := (s.at t).nmtGo.intend_spec
    obtain ⟨hpw, -, hmg'⟩ := (s.at t).nmtGo.intend.hostLeaves_spec .sensing
    rw [hpw₁] at hpw
    exact ⟨_, exec_startRemoteNode hok hrec h hcool, (congrArg Power.goal hpw :), (congrArg Power.power hpw :).trans h,
      (congrArg Power.nmtStopWanted hpw :), hmg'.trans hmg⟩
  · intro s t node hok h
    obtain ⟨hpower, -, hmg, -⟩ := (s.at t).hostEnds_spec
    have hexec := exec_stopRemoteNode hok
    generalize (s.at t).hostEnds = w at hexec hpower hmg
    have hs : w.nmtHalt.pw.power = .sensing := hpower.trans h
    obtain ⟨hpw, hmg', -⟩ := State.moveDown_sensing hs .doze
    exact ⟨_, hexec, (congrArg Power.stopWanted hpw :), (congrArg Power.goal hpw :), (congrArg Power.nmtStopWanted hpw :),
      (congrArg Power.power hpw :).trans hs, (congrArg Manage.intended hmg').trans hmg⟩
  · intro s t node hok hrec h
    obtain ⟨hstop, hgoal, hpower, hmg, -, hnmt⟩ := State.hostEnds_moveDown (s := (s.at t).nmtGo) h .ready
    exact ⟨_, exec_enterPreOperational hok hrec h, hstop, hgoal, hnmt, hpower, hmg⟩
  · intro s t node hok hid
    have hctl : (s.at t).endSession.injectLock.ctl = (s.at t).endSession.ctl := (State.injectLock_same rfl (.self 256 _)).ctl_eq
    have hlad : (s.at t).endSession.injectLock.lad = (s.at t).endSession.lad := (State.injectLock_same rfl (.self 1024 _)).lad_eq
    have hexec := exec_resetCommunication hok hid
    generalize (s.at t).endSession.injectLock = w at hexec hctl hlad
    exact ⟨_, hexec, (congrArg Control.transfer hctl :), (congrArg Control.lease hctl :), hlad,
      by rw [State.emit_wire, List.getLast?_append, List.getLast?_singleton, Option.some_or]⟩

/-! ## The way to Ready (R341, R466, R498, R500) -/

theorem State.enterReady_pw (s : State) : s.enterReady.pw = { s.pw with nmtStopped := false, serial := true, power := .ready } := by
  unfold State.enterReady
  extract_lets r w a b c v d e
  have ha : a.pw = { s.pw with nmtStopped := false } :=
    congrArg (fun w : Power => { w with nmtStopped := false }) (State.readyCounts_same rfl (.self 130 s)).pw_eq
  have hb : b.pw = { s.pw with nmtStopped := false, serial := true } := by
    have hq : a.clockStart.emptyQueues.pw = a.pw := by
      refine (State.emptyQueues_same rfl (.self 130 a.clockStart)).pw_eq.trans ?_
      unfold State.clockStart
      dsimp only
      split <;> rfl
    have hl : a.clockStart.emptyQueues.lanesStart.pw = { a.clockStart.emptyQueues.pw with serial := true } := rfl
    rw [hq, ha] at hl
    exact (State.pipReady_same rfl (State.sesameStart_same rfl (State.darugStart_same rfl (.self 130 _)))).pw_eq.trans hl
  clear_value b
  have he : e.pw = b.pw := by
    unfold e
    split <;> rfl
  rw [State.enterPower_pw, he, hb]

theorem State.enterReady_tb (s : State) : s.enterReady.tb = { s.tb with running := true, acc := 0 } := by
  unfold State.enterReady
  extract_lets r w a b c v d e
  have hr : s.readyCounts.tb = s.tb := (State.readyCounts_same rfl (.self 67108866 s)).tb_eq
  have ha : a.tb = s.tb := by
    dsimp only [a]
    exact hr
  have hb : b.tb = { s.tb with running := true, acc := 0 } := by
    have hc : a.clockStart.tb = { a.tb with running := true, acc := 0 } := by
      unfold State.clockStart
      dsimp only
      split <;> rfl
    rw [ha] at hc
    have hq : a.clockStart.emptyQueues.tb = a.clockStart.tb := (State.emptyQueues_same rfl (.self 67108866 _)).tb_eq
    have hl : a.clockStart.emptyQueues.lanesStart.tb = a.clockStart.emptyQueues.tb := rfl
    exact (State.pipReady_same rfl (State.sesameStart_same rfl (State.darugStart_same rfl (.self 67108866 _)))).tb_eq.trans
      (hl.trans (hq.trans hc))
  clear_value b
  have he : e.tb = b.tb := by
    unfold e
    split <;> rfl
  rw [State.enterPower_tb, he, hb]

theorem Same.mem_eq {r s : State} (h : Same 8388608 r s) : s.mem = r.mem := h.parts .mem rfl

theorem Same.up_eq {r s : State} (h : Same 1073741824 r s) : s.up = r.up := h.parts .up rfl

theorem State.enterReady_cashew (s : State) : s.enterReady.mem.cashew = s.mem.cashew := by
  unfold State.enterReady
  extract_lets r w a b c v d e
  have hr : s.readyCounts.mem = s.mem := (State.readyCounts_same rfl (.self 8388608 s)).mem_eq
  have ha : a.mem = s.mem := by
    dsimp only [a]
    exact hr
  have hb : b.mem = s.mem := (State.pipReady_same rfl (State.sesameStart_same rfl (State.darugStart_same rfl (State.lanesStart_same rfl
    (State.emptyQueues_same rfl (State.clockStart_same rfl (.self 8388608 a))))))).mem_eq.trans ha
  clear_value b
  have he : e.mem.cashew = b.mem.cashew := by
    unfold e
    split <;> rfl
  rw [(State.enterPower_same rfl (.self 8388608 e) .ready).mem_eq, he, hb]

/-- What holds of a state and through writes of boot control holds where a data image is chosen (R456, R459). -/
theorem State.bootKind_data {P : State → Prop} (hw : ∀ z f, P z → P (z.writeBoot f)) (ho : ∀ z v, P z → P (z.os 0x58000C v))
    {s : State} (h : P s) : P (s.bootKind true).2 := by
  unfold State.bootKind
  extract_lets b slot this other half count s1 s2 good
  have h2 : P s2 := by
    unfold s2
    split
    · exact h
    · unfold s1
      rw [if_neg (fun k => nomatch k.1)]
      exact hw _ _ h
  clear_value s2
  split
  · dsimp only
    exact hw _ _ h
  · split
    · exact h2
    · split
      · exact ho _ _ (hw _ _ h2)
      · exact h2

theorem State.writeBoot_pausing (s : State) (f : BootControl → BootControl) : (s.writeBoot f).up.pausing = s.up.pausing := by
  unfold State.writeBoot
  dsimp only
  split <;> rfl

/-- Loading the library settles whether it is there, and moves nothing else of the island. -/
theorem State.loadLibrary_spec (s : State) : s.loadLibrary.pw = { s.pw with library := (s.bootKind true).1 } ∧
    s.loadLibrary.tb = s.tb ∧ s.loadLibrary.up.pausing = s.up.pausing := by
  have hpw : (s.bootKind true).2.pw = s.pw := State.bootKind_data (P := fun z => z.pw = s.pw)
    (fun z f h => (State.writeBoot_same rfl (.self 130 z) f).pw_eq.trans h) (fun _ _ h => h) rfl
  have htb : (s.bootKind true).2.tb = s.tb := State.bootKind_data (P := fun z => z.tb = s.tb)
    (fun z f h => (State.writeBoot_same rfl (.self 67108866 z) f).tb_eq.trans h) (fun _ _ h => h) rfl
  have hup : (s.bootKind true).2.up.pausing = s.up.pausing := State.bootKind_data (P := fun z => z.up.pausing = s.up.pausing)
    (fun z f h => (z.writeBoot_pausing f).trans h) (fun _ _ h => h) rfl
  unfold State.loadLibrary
  generalize s.bootKind true = x at hpw htb hup
  obtain ⟨ok, z⟩ := x
  exact ⟨congrArg (fun w : Power => { w with library := ok }) hpw, htb, hup⟩

/-- A kept plan stands on its rung, and is no longer to be reloaded. -/
theorem State.reloadRung_lad {s : State} {r : Nat} {e : StoreEntry} (hr : r ∈ s.lad.reloading) (he : s.storeLive r = some e) :
    (s.reloadRung r).lad = { s.lad with
      rungs := s.lad.rungs.set r (some ⟨parsePlan e.image, true⟩), reloading := s.lad.reloading.filter (· ≠ r) } := by
  have hput : s.reloadRung r = s.putRung r (parsePlan e.image) true := by
    unfold State.reloadRung
    rw [List.contains_iff_mem.2 hr, he]
  rw [hput]
  unfold State.putRung
  extract_lets fresh a b
  have hb : b.lad = a.lad := (State.setPower_same rfl (.self 1024 a) r).lad_eq
  clear_value b
  split
  · exact (State.planActive_same rfl (.self 1024 b) _).lad_eq.trans hb
  · exact (State.showRungs_same rfl (.self 1024 b)).lad_eq.trans hb

theorem State.judgeWaiting_none {s : State} (h : s.pw.enterWanted = false) : s.judgeWaiting = s := if_pos h

theorem State.reserve_cashew {s : State} {k : RegionKind} {n : Nat} : ((s.reserve k n).getD s).mem.cashew = s.mem.cashew := by
  unfold State.reserve
  dsimp only
  split
  · rfl
  · split <;> rfl

theorem State.reserveFixed_cashew (s : State) : s.reserveFixed.mem.cashew = s.mem.cashew := by
  unfold State.reserveFixed
  dsimp only
  rw [State.reserve_cashew, State.reserve_cashew, State.reserve_cashew]

/-- The first entry to Ready zeroes Cashew and has every kept plan still to reload (R498, R500). -/
theorem State.firstReady_spec (s : State) : s.firstReady.pw = { s.pw with readyDone := true, dramLive := true, library := false } ∧
    s.firstReady.tb = s.tb ∧ s.firstReady.mem.cashew = [] ∧ s.firstReady.up = s.up ∧
    s.firstReady.lad = { s.lad with reloading := (List.range 16).filter fun r => (s.storeLive r).isSome } := by
  unfold State.firstReady
  extract_lets a
  have hpw : a.reserveFixed.pw = a.pw := (State.reserveFixed_same rfl (.self 130 a)).pw_eq
  have htb : a.reserveFixed.tb = a.tb := (State.reserveFixed_same rfl (.self 67108866 a)).tb_eq
  have hup : a.reserveFixed.up = a.up := (State.reserveFixed_same rfl (.self 1073741824 a)).up_eq
  have hlad : a.reserveFixed.lad = a.lad := (State.reserveFixed_same rfl (.self 1024 a)).lad_eq
  have hmem : a.reserveFixed.mem.cashew = a.mem.cashew := a.reserveFixed_cashew
  generalize a.reserveFixed = w at hpw htb hup hlad hmem
  rw [State.setLad_pw, State.setLad_tb, State.setLad_mem, State.setLad_up]
  exact ⟨hpw, htb, hmem, hup, congrArg
    (fun l : Ladder => { l with reloading := (List.range 16).filter fun r => (s.storeLive r).isSome }) hlad⟩

/-- The way to Ready from what a training that passed reports. -/
def State.toReady (s : State) : State :=
  let a := (if s.pw.readyDone then s else s.firstReady).enterReady
  if s.pw.readyDone && a.up.pausing then (a.setUp fun x => { x with pausing := false }).loadLibrary else a

theorem State.toReady_spec (s : State) : s.toReady.pw.power = .ready ∧ s.toReady.pw.goal = s.pw.goal ∧ s.toReady.tb.running = true ∧
    s.toReady.tb.t = s.tb.t ∧ (s.pw.readyDone = false → s.toReady.pw.readyDone = true ∧ s.toReady.mem.cashew = [] ∧
      s.toReady.lad.reloading = (List.range 16).filter fun r => (s.storeLive r).isSome) := by
  unfold State.toReady
  extract_lets a
  cases hfirst : s.pw.readyDone with
  | false =>
    obtain ⟨hpw, htb, hcashew, -, hlad⟩ := s.firstReady_spec
    have ha : a = s.firstReady.enterReady := by
      unfold a
      rw [hfirst]
      rfl
    have hreload : s.firstReady.enterReady.lad = s.firstReady.lad := (State.enterReady_same rfl (.self 1024 _)).lad_eq
    rw [ha, Bool.false_and, if_neg Bool.false_ne_true, State.enterReady_pw, State.enterReady_tb, State.enterReady_cashew, hreload, hpw, htb,
      hlad]
    exact ⟨rfl, rfl, rfl, rfl, fun _ => ⟨rfl, hcashew, rfl⟩⟩
  | true =>
    have ha : a = s.enterReady := by
      unfold a
      rw [hfirst]
      rfl
    have hpw : a.pw = { s.pw with nmtStopped := false, serial := true, power := .ready } := by rw [ha, State.enterReady_pw]
    have htb : a.tb = { s.tb with running := true, acc := 0 } := by rw [ha, State.enterReady_tb]
    clear_value a
    split
    · obtain ⟨hpw', htb', -⟩ := (a.setUp fun x => { x with pausing := false }).loadLibrary_spec
      rw [hpw', htb']
      exact ⟨(congrArg Power.power hpw :), (congrArg Power.goal hpw :), (congrArg TimeBase.running htb :), (congrArg TimeBase.t htb :),
        fun h => nomatch h⟩
    · rw [hpw, htb]
      exact ⟨rfl, rfl, rfl, rfl, fun h => nomatch h⟩

theorem State.showDram_spec (s : State) (x : Nat × Nat × Nat × Nat) : (s.showDram x).pw = s.pw ∧ (s.showDram x).tb = s.tb ∧
    (s.showDram x).lad = s.lad :=
  ⟨(State.showDram_same rfl (.self 130 s) x).pw_eq, (State.showDram_same rfl (.self 67108866 s) x).tb_eq,
    (State.showDram_same rfl (.self 1024 s) x).lad_eq⟩

/-- A device in Doze that is on its way up, by itself and outside recovery mode. -/
structure State.GoesUp (s : State) : Prop where
  power : s.pw.power = .doze
  goal : s.pw.goal = some .ready ∨ s.pw.goal = some .sensing
  waiting : s.dr.waiting = false
  recovery : s.og 0x500001 ≠ 1

theorem State.GoesUp.goes {s : State} (h : s.GoesUp) : ¬ (s.pw.power ≠ .doze ∨ (s.pw.goal ≠ some .ready ∧ s.pw.goal ≠ some .sensing) ∨
    s.dr.waiting = true ∨ s.recovery = true) := by
  rintro (k | ⟨k₁, k₂⟩ | k | k)
  · exact k h.power
  · exact h.goal.elim k₁ k₂
  · exact ne_true_of_eq_false h.waiting k
  · exact ne_true_of_eq_false (State.recovery_off h.recovery) k

/-- DOZE_TO_READY_DONE with a DRAM that trains, on the way to Ready. -/
theorem exec_dozeToReadyDone {s : State} {t : Nat} {fit : DramFit} {x : Nat × Nat × Nat × Nat} (h : (s.at t).GoesUp)
    (hg : s.pw.goal = some .ready) (hx : trainDram s.mem.fit fit = .ok x) :
    exec (.dozeToReadyDone t fit) s = .next ((s.at t).showDram x).toReady.transitionDone.warmIfHeld := by
  obtain ⟨hpw, -, -⟩ := (s.at t).showDram_spec x
  obtain ⟨-, hgoal, -⟩ := ((s.at t).showDram x).toReady_spec
  show execDozeToReadyDone t fit s = _
  unfold execDozeToReadyDone
  extract_lets z first
  rw [if_neg h.goes, show trainDram z.mem.fit fit = .ok x from hx]
  dsimp -zeta only
  extract_lets a b c
  have hc : c = ((s.at t).showDram x).toReady := by
    unfold State.toReady
    rw [hpw]
    show (if (!!z.pw.readyDone && b.up.pausing) = true then _ else b) = _
    rw [Bool.not_not]
    have hb : b = (if z.pw.readyDone = true then a else a.firstReady).enterReady := by
      unfold b first
      cases z.pw.readyDone with
      | false => rw [Bool.not_false, if_pos rfl, if_neg Bool.false_ne_true]
      | true => rw [Bool.not_true, if_neg Bool.false_ne_true, if_pos rfl]
    rw [hb]
  rw [hc, if_neg (by rw [hgoal, hpw]; exact fun k => nomatch hg.symm.trans k)]

/-- DOZE_TO_READY_DONE with a DRAM that fails to train on interface i (R343). -/
theorem exec_dozeToReadyDone_fails {s : State} {t i : Nat} {fit : DramFit} (h : (s.at t).GoesUp)
    (hx : trainDram s.mem.fit fit = .error i) :
    exec (.dozeToReadyDone t fit) s = .next (((s.at t).emcy 0x5050 i 0).transitionDone) := by
  show execDozeToReadyDone t fit s = _
  unfold execDozeToReadyDone
  extract_lets z
  rw [if_neg h.goes, show trainDram z.mem.fit fit = .error i from hx]

/-- ACTIVE_PLAN_RELOAD in Ready with no entry waiting for plans: the library as its image finds it. -/
theorem exec_activePlanReload {s : State} {t : Nat} (hp : s.pw.power = .ready) (hl : s.pw.library = false) (he : s.pw.enterWanted = false) :
    ∃ u, exec (.activePlanReload t) s = .next u ∧ u.pw.power = .ready ∧
      u.pw.library = (((s.at t).setUp fun x => { x with pausing := false }).bootKind true).1 ∧ u.up.pausing = false := by
  show ∃ u, execActivePlanReload t s = .next u ∧ _
  unfold execActivePlanReload
  extract_lets z a b c d
  have hgo : ¬ (z.pw.power ≠ .ready ∨ z.pw.library = true) := fun k => k.elim (absurd hp) fun k => nomatch hl.symm.trans k
  rw [if_neg hgo]
  obtain ⟨hpw, -, hup⟩ := (z.setUp fun x => { x with pausing := false }).loadLibrary_spec
  have ha : a.pw.power = .ready ∧ a.pw.enterWanted = false ∧ a.pw.library = ((z.setUp fun x => { x with pausing := false }).bootKind true).1 := by
    unfold a
    rw [hpw]
    exact ⟨hp, he, rfl⟩
  have haup : a.up.pausing = false := hup
  clear_value a
  have hc : c.pw = a.pw := (State.reloadRung_same rfl (.ite (.self 130 a) (State.emcy_same rfl (.self 130 a) _ _ _)) _).pw_eq
  have hcup : c.up = a.up :=
    (State.reloadRung_same rfl (.ite (.self 1073741824 a) (State.emcy_same rfl (.self 1073741824 a) _ _ _)) _).up_eq
  clear_value c
  have hd : d.pw.power = .ready ∧ d.pw.enterWanted = false ∧ d.pw.library = a.pw.library ∧ d.up = a.up := by
    unfold d
    split
    · rw [hc]
      exact ⟨ha.1, ha.2.1, rfl, hcup⟩
    · obtain ⟨hpower, -, -, hlib, hwant⟩ := c.warmIfHeld_pw
      rw [hpower, hlib, hwant, hc]
      exact ⟨ha.1, ha.2.1, rfl, (State.warmIfHeld_same rfl (.self 1073741824 c)).up_eq.trans hcup⟩
  clear_value d
  obtain ⟨hpower, hwant, hlib, hdup⟩ := hd
  refine ⟨_, rfl, ?_⟩
  rw [State.judgeWaiting_none hwant]
  exact ⟨hpower, hlib.trans ha.2.2, (congrArg Update.pausing hdup).trans haup⟩

/-- Settles O16: the way up is `State.toReady`, a failure of training is an EMCY, and a reload puts back the library or a plan. -/
theorem readyCommandsComplete : Obligations.ReadyCommandsComplete := by
  refine ⟨?_, ?_, ?_, ?_⟩
  · intro s t fit x hd hg hw hrec hx
    obtain ⟨hpw, htb, hlad⟩ := (s.at t).showDram_spec x
    obtain ⟨hpower, -, hrun, ht, hfirst⟩ := ((s.at t).showDram x).toReady_spec
    have hexec := exec_dozeToReadyDone (s := s) (t := t) ⟨hd, .inl hg, hw, hrec⟩ hg hx
    have hstore : ((s.at t).showDram x).storeLive = s.storeLive :=
      congrArg (fun l : Ladder => fun r => l.store.find? fun e => e.rung == r && e.status == 0x7F && e.ok) hlad
    rw [hpw, hstore] at hfirst
    rw [htb] at ht
    generalize ((s.at t).showDram x).toReady = w at hpower hrun ht hfirst hexec
    obtain ⟨hpower', -, hgoal'⟩ := w.transitionDone_pw
    have hdone : w.transitionDone.pw.readyDone = w.pw.readyDone := by
      unfold State.transitionDone
      dsimp only
      split <;> rfl
    have htb' : w.transitionDone.tb = w.tb := w.transitionDone_tb
    have hmem : w.transitionDone.mem = w.mem := (State.transitionDone_same rfl (.self 8388608 w)).mem_eq
    have hlad' : w.transitionDone.lad = w.lad := (State.transitionDone_same rfl (.self 1024 w)).lad_eq
    generalize w.transitionDone = v at hpower' hgoal' hdone htb' hmem hlad' hexec
    obtain ⟨hp, hgo, hrd, -, -⟩ := v.warmIfHeld_pw
    refine ⟨_, hexec, hp.trans (hpower'.trans hpower), hgo.trans hgoal', ?_, ?_, fun hno => ?_⟩
    · rw [v.warmIfHeld_tb, htb', hrun]
    · rw [v.warmIfHeld_tb, htb', ht]
    · obtain ⟨h₁, h₂, h₃⟩ := hfirst hno
      rw [hrd, hdone, (State.warmIfHeld_same rfl (.self 8388608 v)).mem_eq, hmem, (State.warmIfHeld_same rfl (.self 1024 v)).lad_eq, hlad']
      exact ⟨h₁, h₂, h₃⟩
  · intro s t fit i hd hg hw hrec hx hn hlen
    have hexec := exec_dozeToReadyDone_fails (s := s) (t := t) ⟨hd, hg, hw, hrec⟩ hx
    have hpw : ((s.at t).emcy 0x5050 i 0).pw = (s.at t).pw := (State.emcy_same rfl (.self 130 (s.at t)) _ _ _).pw_eq
    have hctl := State.emcy_waiting (s := s.at t) hn hlen 0x5050 i 0
    generalize (s.at t).emcy 0x5050 i 0 = w at hexec hpw hctl
    obtain ⟨hpower, -, hgoal⟩ := w.transitionDone_pw
    exact ⟨_, hexec, hpower.trans ((congrArg Power.power hpw).trans hd), hgoal,
      (congrArg Control.waiting (State.transitionDone_same rfl (.self 256 w)).ctl_eq).trans hctl⟩
  · intro s t hp hl he
    exact exec_activePlanReload hp hl he
  · intro s t r e hdone he hr hlen hstore
    have hlad := State.reloadRung_lad (s := s.at t) hr hstore
    have hwant : ((s.at t).reloadRung r).judgeWaiting = (s.at t).reloadRung r :=
      State.judgeWaiting_none ((congrArg Power.enterWanted (State.reloadRung_same rfl (.self 130 (s.at t)) r).pw_eq).trans he)
    have hexec : exec (.keptPlanReload t r) s = .next ((s.at t).reloadRung r).judgeWaiting :=
      if_pos (c := (s.at t).pw.readyDone = true) hdone
    rw [hwant] at hexec
    refine ⟨_, hexec, ?_, ?_, fun k hk => ?_⟩
    · unfold State.rung
      rw [hlad]
      show ((s.lad.rungs.set r _).getD r none).map _ = _
      rw [List.getD_eq_getElem _ _ (by rwa [List.length_set]), List.getElem_set_self]
      rfl
    · rw [hlad]
      exact fun k => of_decide_eq_true (List.mem_filter.1 k).2 rfl
    · unfold State.rung
      rw [hlad]
      show ((s.lad.rungs.set r _).getD k none).map _ = _
      rw [List.getD_eq_getElem?_getD, List.getElem?_set_ne hk.symm, ← List.getD_eq_getElem?_getD]

end Sys2Proof.Machine
end

section
/-! SUPPORT. The chain (chapter 19): the sides and the enumeration (R406 to R409), skew and time (R410 to R413), the loss of the reference
(R404, R405) and the update grant (R453). -/

namespace Sys2Proof.Machine

open Sys2Proof

/-! ## Sides and enumeration (R406 to R409, R416, R493) -/

/-- A position taken, and told on: what the member then holds. -/
theorem State.takePosition_spec (s : State) (pos : Nat) : (s.takePosition pos).dr.position = pos ∧
    (s.takePosition pos).ctl.nodeId = s.nodeOf pos := by
  unfold State.takePosition
  dsimp only
  split <;> exact ⟨rfl, rfl⟩

theorem State.sendMsg_spec (s : State) (down : Bool) (typ dst : Nat) (p : List Byte) : (s.sendMsg down typ dst p).dr = s.dr ∧
    (s.sendMsg down typ dst p).ctl = s.ctl :=
  ⟨(State.sendMsg_same rfl (.self 268435456 s) down typ dst p).parts .dr rfl, (State.sendMsg_same rfl (.self 256 s) down typ dst p).ctl_eq⟩

theorem exec_enum {s : State} {n : Nat} (t : Nat) (hh : s.pw.sensedHead = false) (hl : s.linkLive = true) :
    exec (.enum t n) s = .next (if 7 ≤ n then ((s.at t).takePosition 0xFF).os 0x4C0006 0
      else ((s.at t).takePosition (n + 1)).sendMsg true 0x01 (n + 2) [byte (n + 1)]) := by
  have hgo : ¬ ((s.at t).isHead = true ∨ (s.at t).linkLive = false) := by
    rintro (k | k)
    · exact ne_true_of_eq_false hh k
    · exact ne_true_of_eq_false k hl
  exact (if_neg hgo).trans (apply_ite Host.Outcome.next _ _ _).symm

/-- Settles O52: each message has its effect on a side that takes it, in the branch that position and lock open. -/
theorem chainLinkComplete : Obligations.ChainLinkComplete := by
  refine ⟨?_, ?_, ?_, ?_, ?_, ?_, ?_, ?_, ?_, ?_, ?_⟩
  · intro s t n hh hl hn
    obtain ⟨hpos, hid⟩ := (s.at t).takePosition_spec (n + 1)
    obtain ⟨hdr, hctl⟩ := ((s.at t).takePosition (n + 1)).sendMsg_spec true 1 (n + 2) [byte (n + 1)]
    refine ⟨_, (exec_enum t hh hl).trans (congrArg Host.Outcome.next (if_neg (by omega))), rfl, ?_, ?_⟩
    · rw [hdr, hpos]
    · rw [hctl, hid]
      rfl
  · intro s t n hh hl hn
    exact (exec_enum t hh hl).trans (congrArg Host.Outcome.next (if_pos hn))
  · intro s t a ha hd hl hs hp
    rw [← State.at_now] at hd
    have ha' : (s.at t).dr.enumAt = some a := ha
    have hgo : a + 20000000 ≤ (s.at t).now ∧ (s.at t).linkLive = true := ⟨hd, hl⟩
    have hno : ¬ (((s.at t).setDr fun d => { d with enumAt := none }).sideUp true = true ∨
        ((s.at t).setDr fun d => { d with enumAt := none }).position = 0xFF) :=
      fun k => k.elim (fun k => Bool.false_ne_true (hs.symm.trans k)) hp
    show execEnumTimeout t s = _
    simp only [execEnumTimeout, ha', if_pos hgo, if_neg hno]
    exact (apply_ite Host.Outcome.next _ _ _).symm
  · intro s t p
    exact (apply_ite Host.Outcome.next _ _ _).symm
  · intro s t hl hp
    have hgo : ¬ ((s.at t).linkLive = false ∨ (true = true ∧ (s.at t).position = 0xFF) ∨ (true = false ∧ (s.at t).isHead = true)) := by
      rintro (k | ⟨-, k⟩ | ⟨k, -⟩)
      · exact ne_true_of_eq_false k hl
      · exact hp k
      · cases k
    exact (if_neg hgo).trans (if_pos rfl)
  · intro s t hl hh
    have hgo : ¬ ((s.at t).linkLive = false ∨ (false = true ∧ (s.at t).position = 0xFF) ∨ (false = false ∧ (s.at t).isHead = true)) := by
      rintro (k | ⟨k, -⟩ | ⟨-, k⟩)
      · exact ne_true_of_eq_false k hl
      · cases k
      · exact ne_true_of_eq_false hh k
    exact (if_neg hgo).trans (if_neg Bool.false_ne_true)
  · intro s t hs
    exact (if_neg (ne_false_of_eq_true (b := (s.at t).sideUp true) hs)).trans (if_pos rfl)
  · intro s t hs
    exact (if_neg (ne_false_of_eq_true (b := (s.at t).sideUp false) hs)).trans (if_neg Bool.false_ne_true)
  · intro s t down hs
    exact if_pos (c := (s.at t).sideUp down = true) hs
  · intro s t on link action hh hs
    exact if_neg (State.member_goesOn (s := s.at t) hh hs)
  · intro s t hh hc
    rw [← State.at_now]
    exact if_neg (c := (s.at t).isHead = true ∨ (s.at t).coreLive = false)
      fun k => k.elim (ne_true_of_eq_false hh) (ne_false_of_eq_true hc)

/-! ## Skew and time (R410 to R413) -/

/-- BOUNDARY at a member in Sensing: what it makes of the head's grid. -/
theorem exec_boundary {s : State} {pl : Plan} (t index stamp period : Nat) (hh : s.pw.sensedHead = false) (hs : s.sideUp false = true)
    (hp : s.pw.power = .sensing) (hpl : s.lad.inForce = some pl) :
    let w := ((s.at t).relay true 5 0 0xFF (le 8 index ++ le 8 stamp ++ le 4 period)).setDr fun d =>
      { d with headBoundary := some (index, stamp, period, max s.now t) }
    let v := if w.og 0x4C0007 = 3 then w.os 0x4C0007 1 else w
    let d := wrapS 64 ((s.sw.lastStamp : Int) - stamp)
    exec (.boundary t index stamp period) s = .next (if pl.period ≠ 16 * period then w.os 0x4C0007 3
      else if s.sw.lastIndex = index ∧ -65536 ≤ d ∧ d ≤ 65536 then v
      else { (if s.sw.realign.isNone = true then v.bump 0x4C000B else v) with
        sw := { s.sw with realign := some (headNext (v.headGrid index stamp period) s.sw.next) } }) := by
  have hnow : ((s.at t).relay true 5 0 0xFF (le 8 index ++ le 8 stamp ++ le 4 period)).now = max s.now t :=
    (State.relay_same rfl (.self 2 (s.at t)) true 5 0 0xFF _).now_eq.trans (State.at_now s t)
  have hpw : ((s.at t).relay true 5 0 0xFF (le 8 index ++ le 8 stamp ++ le 4 period)).pw.power = .sensing :=
    (congrArg Power.power (State.relay_same rfl (.self 130 (s.at t)) true 5 0 0xFF _).pw_eq).trans hp
  have hlad : ((s.at t).relay true 5 0 0xFF (le 8 index ++ le 8 stamp ++ le 4 period)).lad.inForce = some pl := by
    rw [State.relay_lad]
    exact hpl
  have hsw : ((s.at t).relay true 5 0 0xFF (le 8 index ++ le 8 stamp ++ le 4 period)).sw = s.sw :=
    (State.relay_same rfl (.self 2048 (s.at t)) true 5 0 0xFF _).sw_eq
  generalize hr : (s.at t).relay true 5 0 0xFF (le 8 index ++ le 8 stamp ++ le 4 period) = r at hnow hpw hlad hsw
  intro w v d
  show execBoundary t index stamp period s = _
  unfold execBoundary
  extract_lets z r' u d' v' g y
  rw [if_neg (State.member_goesOn (s := z) hh hs)]
  have hu : u = w := by
    unfold u w r'
    rw [hr, hnow]
  have hwsw : w.sw = s.sw := hsw
  have hwpw : w.pw.power = .sensing := hpw
  have hwlad : w.lad.inForce = some pl := hlad
  have hvsw : v.sw = s.sw := by
    unfold v
    split <;> exact hwsw
  have hv : v' = v := by
    unfold v' v
    rw [hu]
  have hd : d' = d := by
    unfold d' d
    rw [hu, hwsw]
  have hg : g = headNext (v.headGrid index stamp period) s.sw.next := by
    unfold g
    rw [hv, hvsw]
  have hy : y = if s.sw.realign.isNone = true then v.bump 0x4C000B else v := by
    unfold y
    rw [hv, hvsw]
  have hysw : y.sw = s.sw := by
    rw [hy]
    split <;> exact hvsw
  have hrealign : ({ y with sw := { y.sw with realign := some g } } : State) =
      { (if s.sw.realign.isNone = true then v.bump 0x4C000B else v) with
        sw := { s.sw with realign := some (headNext (v.headGrid index stamp period) s.sw.next) } } := by
    rw [hysw, hg, hy]
  rw [hu, hwpw, hwlad]
  by_cases hperiod : pl.period = 16 * period
  · rw [if_neg (not_not_intro hperiod)]
    refine (if_neg (not_not_intro hperiod)).trans ?_
    rw [hv, hd, hvsw]
    by_cases hgrid : s.sw.lastIndex = index ∧ -65536 ≤ d ∧ d ≤ 65536
    · rw [if_pos hgrid]
      exact (congrArg Host.Outcome.next (if_pos hgrid)).symm
    · rw [if_neg hgrid]
      exact congrArg Host.Outcome.next (hrealign.trans (if_neg hgrid).symm)
  · rw [if_pos hperiod]
    exact if_pos hperiod

/-- Settles O53: each message has its effect on a side that takes it; a boundary is `exec_boundary`, case by case. -/
theorem chainTimeComplete : Obligations.ChainTimeComplete := by
  refine ⟨?_, ?_, ?_, ?_, ?_, ?_, ?_⟩
  · intro s t code c1 c2 hs hl x
    exact if_pos (c := (s.at t).sideUp true = true ∧ (s.at t).linkLive = true) ⟨hs, hl⟩
  · intro s t a d hh hs
    rw [← State.at_now]
    exact if_pos (c := (s.at t).isHead = false ∧ (s.at t).sideUp false = true) ⟨hh, hs⟩
  · intro s t bins back hs d w
    have hnow : w = (((s.at t).capture 5 (s.at t).now).os 0x4C0009 (d % 2 ^ 32)).os 0x4C0006 3 := by
      rw [State.at_now]
    rw [hnow]
    exact if_neg (ne_false_of_eq_true (b := (s.at t).sideUp true) hs)
  · intro s t ts delay rate st hh hs off
    rw [← State.at_now]
    exact if_neg (State.member_goesOn (s := s.at t) hh hs)
  · intro s t h0 hd one
    rw [← State.at_now] at hd ⊢
    exact if_neg (c := (s.at t).dr.steps = 0 ∨ (s.at t).now < (s.at t).dr.stepFrom + 1000)
      fun k => k.elim h0 (Nat.not_lt.2 hd)
  · intro s t hh hl hd
    rw [← State.at_now] at hd
    exact if_pos (c := (s.at t).isHead = false ∧ (s.at t).linkLive = true ∧ (s.at t).dr.lastSync + 2500000000 ≤ (s.at t).now) ⟨hh, hl, hd⟩
  · intro s t index stamp period pl hh hs hp hpl w
    have hexec := exec_boundary t index stamp period hh hs hp hpl
    refine ⟨fun hne => hexec.trans (congrArg Host.Outcome.next (if_pos hne)), fun heq => ?_⟩
    intro v d
    refine ⟨fun hi h₁ h₂ => hexec.trans (congrArg Host.Outcome.next ((if_neg (not_not_intro heq)).trans (if_pos ⟨hi, h₁, h₂⟩))),
      fun hno hre => hexec.trans (congrArg Host.Outcome.next ((if_neg (not_not_intro heq)).trans ((if_neg hno).trans ?_)))⟩
    rw [if_pos (by rw [hre]; rfl)]

/-! ## The reference and the update grant (R404, R405, R453) -/

/-- Settles O54: a reference that is lost ends by whether the member waits, and the grant goes by who holds it. -/
theorem referenceAndGrantComplete : Obligations.ReferenceAndGrantComplete := by
  refine ⟨?_, ?_, ?_, ?_, ?_⟩
  · intro s t x hx hd hh hc
    rw [← State.at_now] at hd
    have hgo : ¬ ((s.at t).now < x + 10000000 ∨ (s.at t).isHead = true ∨ (s.at t).coreLive = false) := by
      rintro (k | k | k)
      · omega
      · exact ne_true_of_eq_false hh k
      · exact ne_true_of_eq_false k hc
    have hexec : exec (.referenceTimeout t) s =
        if (s.at t).dr.waiting = true then
          .next (((s.at t).setDr fun d => { d with waiting := false }).emcy 0x8110 (s.at t).position 0).transitionDone
        else if (s.at t).pw.power = .doze ∨ (s.at t).pw.goal = some .doze then .next (s.at t)
        else .next ((if ((s.at t).emcy 0x8110 (s.at t).position 0).pw.power = .sensing then
          ((s.at t).emcy 0x8110 (s.at t).position 0).chargeTo 11 else (s.at t).emcy 0x8110 (s.at t).position 0).moveDown .doze) := by
      show execReferenceTimeout t s = _
      unfold execReferenceTimeout
      extract_lets z e
      rw [show z.dr.refLost = some x from hx]
      exact if_neg hgo
    have hpw : ((s.at t).emcy 0x8110 (s.at t).position 0).pw.power = s.pw.power :=
      (congrArg Power.power (State.emcy_same rfl (.self 130 (s.at t)) _ _ _).pw_eq :)
    have hgo' {p : PowerState} (hp : s.pw.power = p) (hne : p ≠ .doze) (hg : s.pw.goal ≠ some .doze) :
        ¬ ((s.at t).pw.power = .doze ∨ (s.at t).pw.goal = some .doze) := fun k => k.elim (fun k => hne (hp.symm.trans k)) hg
    refine ⟨fun hw => hexec.trans (if_pos hw), fun hw hp hg => ?_, fun hw hp hg => ?_⟩
    · refine hexec.trans ((if_neg (ne_true_of_eq_false hw)).trans ((if_neg (hgo' hp (by decide) hg)).trans ?_))
      rw [if_neg (by rw [hpw, hp]; decide)]
      rfl
    · refine hexec.trans ((if_neg (ne_true_of_eq_false hw)).trans ((if_neg (hgo' hp (by decide) hg)).trans ?_))
      rw [if_pos (hpw.trans hp)]
      rfl
  · intro s t hh w v
    exact if_neg (ne_true_of_eq_false (b := (s.at t).isHead) hh)
  · intro s t src give hh hs hg
    have hexec : exec (.update t src give) s = if (s.at t).dr.grant = none ∨ (s.at t).dr.grant = some src then
        .next (((s.at t).setDr fun d => { d with grant := some src }).tellChain 0x20 [byte src, 1])
        else .next ((s.at t).tellChain 0x20 [byte src, 0]) :=
      (if_pos (c := (s.at t).isHead = true) hh).trans ((if_neg (ne_false_of_eq_true (b := (s.at t).sideUp true) hs)).trans (if_neg hg))
    exact ⟨fun h => hexec.trans (if_pos h), fun h₁ h₂ => hexec.trans (if_neg fun k => k.elim h₁ h₂)⟩
  · intro s t src hh hs hg
    exact (if_pos (c := (s.at t).isHead = true) hh).trans ((if_neg (ne_false_of_eq_true (b := (s.at t).sideUp true) hs)).trans
      ((if_pos rfl).trans (congrArg Host.Outcome.next (if_pos (c := (s.at t).dr.grant = some src) hg))))
  · intro s t src give hh hs w
    exact (if_neg (ne_true_of_eq_false (b := (s.at t).isHead) hh)).trans
      (if_neg (ne_false_of_eq_true (b := (s.at t).sideUp false) hs))

end Sys2Proof.Machine
end

section
/-! SUPPORT. The time base commands (R379 to R382, R385, R387, Table 17-1). -/

namespace Sys2Proof.Machine

open Sys2Proof

/-- A device that takes its time from no chain sets it (R379). -/
theorem deviceTime_pass {s : State} {ns : Nat} (hh : s.pw.sensedHead = true) (hns : ns < 2 ^ 64) :
    deviceTime ns s = .ok ({ s with tb := { s.tb with
      t := ns * 65536, lastEdge := s.tb.lastEdge.map fun (e : Nat × Nat) => (toU 80 (e.1 + ((ns * 65536 : Nat) - s.tb.t : Int)), e.2)
      acc := 0, moved := true, good := 0, ppsArm := none } }.os 0x220003 2) := by
  have ht : toU 80 ((s.tb.t : Int) + ((ns * 65536 : Nat) - s.tb.t)) = ns * 65536 := by
    rw [add_sub_cancel, toU_natCast, Nat.mod_eq_of_lt (by omega)]
  refine (require_pass hh).trans ?_
  simp only [State.setT, State.moveT, State.setTb, ht]

theorem timeAtPps_pass {s : State} {ns : Nat} (hh : s.pw.sensedHead = true) :
    timeAtPps ns s = .ok { s with tb := { s.tb with ppsArm := some ns } } := require_pass hh

theorem rateCorrection_pass {s : State} {r : Int} (hh : s.pw.sensedHead = true) (hmode : s.og 0x220004 = 0) :
    rateCorrection r s = .ok (s.osI 32 0x220005 r) := (require_pass hh).trans (require_pass (decide_eq_true hmode))

theorem intervalArm_pass {s : State} (h₁ : s.og 0x221005 ≠ 1) (h₂ : s.og 0x221005 ≠ 2) (hp : s.pw.power = .ready ∨ s.pw.power = .sensing) :
    intervalArm s = .ok ((List.range 8).foldl (fun s i => s.os (0x221010 + i) 0) ((s.os 0x221005 1).os 0x221007 0)) :=
  require_pass (by rw [decide_eq_true (p := _ ∧ _) ⟨h₁, h₂⟩, decide_eq_true hp, Bool.and_self])

theorem intervalDisarm_eq (s : State) :
    intervalDisarm s = .ok (if s.og 0x221005 = 1 ∨ s.og 0x221005 = 2 then s.os 0x221005 0 else s) := (apply_ite Except.ok _ _ _).symm

/-- Interval mode that is idle sees nothing of an edge (R387). -/
theorem State.intervalEdge_idle {s : State} (h : s.og 0x221005 = 0) (src stamp : Nat) : s.intervalEdge src stamp = s := by
  simp only [State.intervalEdge, h, Nat.zero_ne_one, if_false, OfNat.zero_ne_ofNat, false_and]

/-- PPS_EDGE at a head whose edge lies within the window of the last one (R380). -/
theorem exec_ppsEdge {s w : State} {t code c1 c2 stamp : Nat} {cal coarse : Bool} (hrun : s.tb.running = true)
    (hx : (s.at t).tdcEdge 1 code c1 c2 cal = (stamp, coarse, w)) (hh : w.pw.sensedHead = true) (hidle : w.og 0x221005 = 0)
    (hmode : w.og 0x220004 ≠ 0) (hwin : w.inWindow stamp = true) :
    exec (.ppsEdge t code c1 c2 cal) s = .next (((({ w with tb := { w.tb with
      lastEdge := some (stamp, w.now), rejected := 0, edge := some (stamp, w.now + 1001)
      fvalid := w.tb.fvalid && !w.tb.moved, moved := false } }.bump 0x22000E).pulse 13).os 0x220003
        (stateOnEdge (w.og 0x220003) (w.og 0x220004)))) := by
  show execPpsEdge t code c1 c2 cal s = _
  unfold execPpsEdge
  extract_lets z
  rw [if_neg (ne_false_of_eq_true (b := z.tb.running) hrun), hx]
  dsimp only
  rw [State.intervalEdge_idle hidle, if_neg (ne_false_of_eq_true hh), hwin, Bool.true_or, if_pos ⟨hmode, rfl⟩]
  simp only [State.setTb, Bool.and_true]
  rfl

/-- Settles O19: the writes are their effects past the gate, an edge is `exec_ppsEdge`, a time-out the branch its instant opens. -/
theorem timeCommandsComplete : Obligations.TimeCommandsComplete := by
  refine ⟨?_, ?_, ?_, ?_, ?_, ?_, ?_, ?_, ?_, ?_⟩
  · intro s t c ns hacc hh hns w
    have hmod : ns % 2 ^ 64 = ns := Nat.mod_eq_of_lt hns
    refine congrArg Host.Outcome.next (State.hostWrite_ok hacc ?_)
    rw [hmod]
    exact deviceTime_pass (s := w) hh hns
  · intro s t c ns hacc hh hns w
    refine congrArg Host.Outcome.next (State.hostWrite_ok hacc ?_)
    rw [Nat.mod_eq_of_lt hns]
    exact timeAtPps_pass (s := w) hh
  · intro s t c r hacc hh w hmode h₁ h₂
    refine congrArg Host.Outcome.next (State.hostWrite_ok hacc ?_)
    rw [toI_toU32 (by omega) (by omega)]
    exact rateCorrection_pass (s := w) hh hmode
  · intro s t code c1 c2 cal hrun hh hm stamp w hidle hmode hwin
    have hpw : w.pw.sensedHead = true :=
      (congrArg Power.sensedHead (State.tdcEdge_same rfl (.self 128 (s.at t)) 1 code c1 c2 cal).pw_still :).trans hh
    exact exec_ppsEdge (stamp := stamp) (w := w) hrun rfl hpw hidle hmode hwin
  · intro s t te due he hd
    rw [← State.at_now] at hd
    have he' : (s.at t).tb.edge = some (te, due) := he
    show execPpsProcess t s = _
    simp only [execPpsProcess, he', if_pos hd]
  · intro s t p a he hh hst hd
    rw [← State.at_now] at hd
    have he' : (s.at t).tb.lastEdge = some (p, a) := he
    have hgo : (s.at t).pw.sensedHead = true ∧ ((s.at t).og 0x220003 = 3 ∨ (s.at t).og 0x220003 = 4) ∧ a + 2500000000 ≤ (s.at t).now :=
      ⟨hh, hst, hd⟩
    show execPpsLoss t s = _
    simp only [execPpsLoss, he', if_pos hgo]
  · intro s t c hacc hp w h₁ h₂
    exact congrArg Host.Outcome.next (State.hostWrite_ok hacc (intervalArm_pass (s := w) h₁ h₂ hp))
  · intro s t c hacc w
    exact congrArg Host.Outcome.next (State.hostWrite_ok hacc (intervalDisarm_eq w))
  · intro s t hst hd
    rw [← State.at_now] at hd
    exact if_pos (c := (s.at t).og 0x221005 = 2 ∧ (s.at t).tb.intAt + 1000 * (s.at t).og 0x221006 ≤ (s.at t).now) ⟨hst, hd⟩
  · intro s t ch hrun hch
    exact if_pos (c := (s.at t).tb.running = true ∧ ch < 6) ⟨hrun, hch⟩

end Sys2Proof.Machine
end

section
/-! SUPPORT. Pip's commands (R390, R391, R394, R395, R399 to R401). -/

namespace Sys2Proof.Machine

open Sys2Proof

/-- A trigger of an idle converter 1 starts its pass. -/
theorem State.trigger1_starts {s : State} (hl : s.conv1Live = true) (hr : s.pip.run1 = false) (hp : s.pip.paused1 = false) :
    s.trigger1 = s.start1 := by
  unfold State.trigger1
  rw [if_neg (ne_false_of_eq_true hl), hr, hp]
  rfl

/-- A trigger behind one that waits is discarded and counted. -/
theorem State.trigger1_discarded {s : State} (hl : s.conv1Live = true) (hr : s.pip.run1 = true) (hp : s.pip.pend1 = true) :
    s.trigger1 = s.bump 0x48000C := by
  unfold State.trigger1
  rw [if_neg (ne_false_of_eq_true hl), hr, Bool.true_or, if_pos rfl, if_pos hp]

/-- CONVERTER_0_PASS while the core runs: a pass starts, waits, or is counted as an overrun. -/
theorem exec_converter0Pass {s : State} (t : Nat) (hc : s.coreLive = true) :
    exec (.converter0Pass t) s =
      if (s.at t).pip.run0 = false then .next ((s.at t).setPip fun p => { p with run0 := true, since0 := (s.at t).now }).showPip
      else if (s.at t).pip.pend0 = false then .next ((s.at t).setPip fun p => { p with pend0 := true }).showPip
      else .next (if (s.at t).ctl.restarting = true then (s.at t).bump 0x480011 else ((s.at t).bump 0x480011).podRepeat) :=
  if_neg (ne_false_of_eq_true (b := (s.at t).coreLive) hc)

/-- A write to an RTD's setting that no entry of the running pass is under, or that has not begun, acts on later entries. -/
theorem rtdSetting_later {s : State} {r sub v phase : Nat} (h : (s.os (okey (0x4820 + r) sub) v).measures r = false ∨ phase = 0) :
    rtdSetting r sub v phase s = .ok (s.os (okey (0x4820 + r) sub) v) := by
  unfold rtdSetting
  extract_lets k old u
  by_cases hm : u.measures r = false
  · exact if_pos hm
  · obtain rfl := h.resolve_left hm
    exact (if_neg hm).trans ((if_neg (by decide)).trans (if_neg (by decide)))

/-- A write in the midst of its entry restarts it. -/
theorem rtdSetting_restarts {s : State} {r sub v : Nat} (hm : (s.os (okey (0x4820 + r) sub) v).measures r = true)
    (hoff : (s.os (okey (0x4820 + r) sub) v).rtdOff r = false) :
    rtdSetting r sub v 1 s = .ok (((s.os (okey (0x4820 + r) sub) v).bump 0x48000E).setPip fun p => { p with restarted := p.restarted ++ [r] }) :=
  (if_neg (ne_false_of_eq_true hm)).trans ((if_pos rfl).trans (if_neg (ne_true_of_eq_false hoff)))

/-- A write after its entry keeps the settings that the entry ran under. -/
theorem rtdSetting_keeps {s : State} {r sub v : Nat} (hm : (s.os (okey (0x4820 + r) sub) v).measures r = true) :
    rtdSetting r sub v 2 s = .ok ((s.os (okey (0x4820 + r) sub) v).setPip fun p => { p with
      kept := p.kept ++ [(r, s.og (okey (0x4820 + r) 1), s.og (okey (0x4820 + r) 2), s.og (okey (0x4820 + r) 3))] }) :=
  (if_neg (ne_false_of_eq_true hm)).trans ((if_neg (by decide)).trans (if_pos rfl))

theorem exec_rtdSettingWrite {s u : State} {t c r sub v phase : Nat} (hacc : (s.at t).Accepts c (0x4820 + r) sub false (le 1 v))
    (h₁ : 1 ≤ sub) (h₃ : sub ≤ 3) (hv : v < 256) (h : rtdSetting r sub v phase ((s.at t).renew c) = .ok u) :
    exec (.rtdSettingWrite t c r sub v phase) s = .next (u.answer c .done) := by
  refine congrArg Host.Outcome.next (State.hostWrite_ok hacc ?_)
  rw [Nat.mod_eq_of_lt hv]
  exact (if_pos ⟨h₁, h₃⟩).trans h

/-- A new reference of an idle converter 1 acts at once, and settles. -/
theorem reference1_switches {s : State} {v : Nat} (hr : s.pip.run1 = false) (hv : (s.os 0x480003 v).og 0x480003 = v) (hne : s.pip.ref ≠ v) :
    reference1 v s = .ok ((s.os 0x480003 v).setPip fun p =>
      { p with ref := v, settle1 := (s.os 0x480003 v).now + if v = 0 then 500000 else 50000 }) := by
  have hidle : ¬ (s.os 0x480003 v).pip.run1 = true := ne_true_of_eq_false hr
  unfold reference1
  extract_lets u
  rw [if_neg hidle]
  unfold State.switchRef
  extract_lets w
  rw [show w = v from hv]
  exact congrArg Except.ok (if_neg hne)

/-- Settles O50: a trigger acts by whether its converter runs and waits, and the write to a setting by the phase of its entry. -/
theorem housekeepingCommandsComplete : Obligations.HousekeepingCommandsComplete := by
  refine ⟨?_, ?_, ?_, ?_, ?_, ?_, ?_, ?_, ?_, ?_, ?_, ?_⟩
  · intro s t hc hr
    rw [← State.at_now]
    exact (exec_converter0Pass t hc).trans (if_pos hr)
  · intro s t hc hr hp
    exact (exec_converter0Pass t hc).trans ((if_neg (ne_false_of_eq_true hr)).trans (if_pos hp))
  · intro s t hc hr hp hw
    refine (exec_converter0Pass t hc).trans ((if_neg (ne_false_of_eq_true hr)).trans ((if_neg (ne_false_of_eq_true hp)).trans ?_))
    exact congrArg Host.Outcome.next (if_neg (ne_true_of_eq_false hw))
  · intro s t c hacc hl hr hp
    refine congrArg Host.Outcome.next (State.hostWrite_ok hacc (congrArg Except.ok ?_))
    exact State.trigger1_starts (s := (s.at t).renew c) hl hr hp
  · intro s t c hacc hl hr hp
    refine congrArg Host.Outcome.next (State.hostWrite_ok hacc (congrArg Except.ok ?_))
    exact State.trigger1_discarded (s := (s.at t).renew c) hl hr hp
  · intro s t ht hd hl hr hp
    rw [← State.at_now] at hd ⊢
    refine (if_pos (c := (s.at t).og 0x480005 = 1 ∧ (s.at t).pip.nextTimer ≤ (s.at t).now ∧ (s.at t).conv1Live = true) ⟨ht, hd, hl⟩).trans ?_
    exact congrArg Host.Outcome.next (State.trigger1_starts
      (s := (s.at t).setPip fun p => { p with nextTimer := (s.at t).now + 1000 * (s.at t).og 0x480006 }) hl hr hp)
  · intro s t rd hr
    exact congrArg Host.Outcome.next (if_pos (c := (s.at t).pip.run0 = true) hr)
  · intro s t rd hr hp
    exact congrArg Host.Outcome.next (if_pos (c := (s.at t).pip.run1 = true ∧ (s.at t).pip.paused1 = false) ⟨hr, hp⟩)
  · intro s t level
    rfl
  · intro s t c r sub v ph hacc h₁ h₃ hv w u
    exact ⟨fun h => exec_rtdSettingWrite hacc h₁ h₃ hv (rtdSetting_later h),
      fun hm hoff => exec_rtdSettingWrite hacc h₁ h₃ hv (rtdSetting_restarts hm hoff),
      fun hm => exec_rtdSettingWrite hacc h₁ h₃ hv (rtdSetting_keeps hm)⟩
  · intro s t c v hacc hv hr hne u hu
    refine congrArg Host.Outcome.next (State.hostWrite_ok hacc ?_)
    rw [Nat.mod_eq_of_lt hv]
    exact reference1_switches (s := (s.at t).renew c) hr hu hne
  · intro s t c hacc
    exact congrArg Host.Outcome.next (State.hostWrite_ok hacc rfl)

end Sys2Proof.Machine
end

section
/-! SUPPORT. Pod's commands (R424, R426, R428 to R432). -/

namespace Sys2Proof.Machine

open Sys2Proof

theorem toI_toU64 {v : Int} (h₁ : -2 ^ 63 ≤ v) (h₂ : v < 2 ^ 63) : toI 64 (toU 64 v) = v := by
  unfold toI toU wrapS
  dsimp only
  split <;> omega

/-! ## The balance (R424 to R427) -/

/-- A balance within INTEGER64 is taken as it is. -/
theorem State.putBalance_fits {s : State} {b : Int} (h₁ : -2 ^ 63 ≤ b) (h₂ : b < 2 ^ 63) :
    s.putBalance b = s.setPod fun p => { p with balance := b } :=
  if_pos ⟨h₁, h₂⟩

/-- Putting a balance touches nothing else of the account. -/
theorem State.putBalance_pod (s : State) (b : Int) : ∃ v, (s.putBalance b).pod = { s.pod with balance := v } := by
  have hdraw (n : Nat) : ∃ v, (let (v, u) := s.draw n; u.setPod fun p => { p with balance := toI 64 v }).pod =
      { s.pod with balance := v } := ⟨_, rfl⟩
  unfold State.putBalance
  split
  · exact ⟨b, rfl⟩
  · exact hdraw _

/-- Credit less debit under the cap is the balance, where it fits (R424). -/
theorem State.post_balance {s : State} {credit debit b : Int} (hb : b = min (s.og 0x210004 : Int) (s.pod.balance + credit - debit))
    (h₁ : -2 ^ 63 ≤ b) (h₂ : b < 2 ^ 63) : (s.post credit debit).pod.balance = b := by
  rw [State.post, ← hb, State.putBalance_fits h₁ h₂]
  rfl

/-- The second's debit and the hour's income go through the balance, once the second's sums are cleared (R424). -/
theorem State.podTick_post (s : State) : ∃ u : State,
    u.pod = { s.pod with fj := s.pod.fj % 1000000000, secondSum := 0, secondPasses := 0 } ∧ u.og 0x210004 = s.og 0x210004 ∧
      s.podTick = u.post ((if s.og 0x210009 = 0 then incomeOf (s.dg 0x210006) (s.podTod / hourNs) else 0 : Nat) : Int)
        (s.pod.fj / 1000000000) := by
  unfold State.podTick
  extract_lets pod debit credit mean u v w
  have hu : u.og 0x210004 = s.og 0x210004 := s.og_os_of_ne mean (by decide)
  have hv : v.pod = s.pod ∧ v.og 0x210004 = s.og 0x210004 := by
    by_cases hp : u.pw.power = .doze
    · rw [show v = u.os 0x21001D mean from if_pos hp]
      exact ⟨rfl, (u.og_os_of_ne mean (by decide)).trans hu⟩
    · rw [show v = u from if_neg hp]
      exact ⟨rfl, hu⟩
  have hw : w.pod = { v.pod with fj := v.pod.fj % 1000000000, secondSum := 0, secondPasses := 0 } := rfl
  rw [hv.1] at hw
  exact ⟨w, hw, hv.2, rfl⟩

theorem exec_podSecond {s : State} (t : Nat) (hc : s.coreLive = true) (hr : s.ctl.restarting = false) :
    exec (.podSecond t) s = .next (s.at t).podTick.podJudge :=
  if_pos (c := (s.at t).coreLive = true ∧ (s.at t).ctl.restarting = false) ⟨hc, hr⟩

theorem balanceWrite_fits {s : State} {uj : Int} (h₁ : -2 ^ 63 ≤ uj) (h₂ : uj < 2 ^ 63) :
    balanceWrite uj s = .ok ((((s.setPod fun p => { p with balance := uj }).osBit 0x210014 3 false).setPod
      fun p => { p with unknown := false }).podJudge.rechoose) := by
  unfold balanceWrite
  rw [State.putBalance_fits h₁ h₂]

/-! ## The choice (R431) -/

/-- A continuous rung that is the active one, outside managed operation, is shown and ends the duty cycle. -/
theorem State.applyChoice_shows {s : State} {r : Nat} (hm : s.og 0x210002 = 0) (hc : s.choose = .continuous r)
    (hw : s.lad.switch = none) (ha : s.og 0x240001 = r) :
    s.applyChoice = (((s.os 0x210015 r).os 0x210016 0).os 0x210017 0).setPod fun p => { p with cycle := none } := by
  have hown (v : State) (hv : v.lad.switch = none) (hr : v.og 0x240001 = r) : v.ownSwitch r = v := by
    unfold State.ownSwitch
    rw [hv]
    exact if_pos hr
  have hobj : (((s.os 0x210015 r).os 0x210016 0).os 0x210017 0).og 0x240001 = r := by
    rw [State.og_os_of_ne _ _ (by decide), State.og_os_of_ne _ _ (by decide), State.og_os_of_ne _ _ (by decide), ha]
  unfold State.applyChoice
  rw [hc, hm]
  exact hown ((((s.os 0x210015 r).os 0x210016 0).os 0x210017 0).setPod fun p => { p with cycle := none }) hw hobj

theorem State.rechoose_on {s : State} (h₁ : s.og 0x210001 = 1) (h₂ : s.og 0x240004 = 1) (h₃ : s.ctl.restarting = false)
    (h₄ : s.coreLive = true) (h₅ : s.mg.critical = false) : s.rechoose = s.applyChoice :=
  if_pos ⟨h₁, h₂, h₃, h₄, h₅⟩

/-! ## The obligation -/

/-- Settles O59: each command is its effect at its instant, where the clauses' conditions open the branch. -/
theorem podCommandsComplete : Obligations.PodCommandsComplete := by
  refine ⟨?_, ?_, ?_, ?_, ?_, ?_, ?_⟩
  · intro s t hc hr
    refine ⟨(s.at t).podTick, exec_podSecond t hc hr, ?_⟩
    obtain ⟨u, hpod, hcap, htick⟩ := (s.at t).podTick_post
    rw [htick]
    refine ⟨fun credit b hcr hb h₁ h₂ => State.post_balance ?_ h₁ h₂, ?_⟩
    · rw [hcap, hpod, hb, hcr, Nat.cast_ite]
      rfl
    · obtain ⟨v, hv⟩ := u.putBalance_pod (min (u.og 0x210004 : Int) (u.pod.balance +
        ((if (s.at t).og 0x210009 = 0 then incomeOf ((s.at t).dg 0x210006) ((s.at t).podTod / hourNs) else 0 : Nat) : Int) -
          (s.at t).pod.fj / 1000000000))
      rw [State.post, hv, hpod]
      exact ⟨rfl, rfl, rfl⟩
  · intro s t c uj hacc huj
    refine congrArg Host.Outcome.next (State.hostWrite_ok hacc ?_)
    rw [Nat.mod_eq_of_lt huj]
    rfl
  · intro s t c uj hacc h₁ h₂
    refine congrArg Host.Outcome.next (State.hostWrite_ok hacc ?_)
    rw [toI_toU64 h₁ h₂]
    exact balanceWrite_fits h₁ h₂
  · intro s t c hacc hmode
    refine congrArg Host.Outcome.next (State.hostWrite_ok hacc ?_)
    exact require_pass (decide_eq_true (.inr hmode))
  · intro s t r h₁ h₂ h₃ h₄ h₅ hm hch hw ha
    exact congrArg Host.Outcome.next ((State.rechoose_on (s := s.at t) h₁ h₂ h₃ h₄ h₅).trans (State.applyChoice_shows hm hch hw ha))
  · intro s t mean since sum n hmin hp hr hdue r m
    rw [← State.at_now] at hdue
    show execEnergyRefine t mean s = _
    unfold execEnergyRefine
    extract_lets z
    rw [show z.pod.minute = (since, sum, n) from hmin]
    exact if_pos (c := (s.at t).pw.power = .sensing ∧ (s.at t).ctl.restarting = false ∧ since + 60000000000 ≤ (s.at t).now) ⟨hp, hr, hdue⟩
  · intro s t w0 a first hcy hp hst hdue
    rw [← State.at_now] at hdue
    show execOnTimeEnd t s = _
    unfold execOnTimeEnd
    extract_lets z
    rw [show z.pod.cycle = some (w0, a, some first) from hcy]
    exact if_pos (c := (s.at t).pw.power = .sensing ∧ (s.at t).pw.stopWanted = false ∧ first + 1000000 * a ≤ (s.at t).now) ⟨hp, hst, hdue⟩

end Sys2Proof.Machine
end

section
/-! SUPPORT. Walnut's supervision (R436, R437, R439, R440, R445) and Acorn (R441 to R443, R508). -/

namespace Sys2Proof.Machine

open Sys2Proof

/-! ## Restarts, temperatures and the log -/

/-- How a restart leaves Walnut: its cause is kept, and the restart began now (R436). -/
def State.restartFrom (s : State) (cause : Nat) : State :=
  { s.os 0x500003 cause with ctl := { s.ctl with restarting := true, restartAt := s.now } }

/-- A restart of a Walnut that runs: the long operation fails, the session ends, a prepare fails, injection locks. -/
theorem State.restartWalnut_runs {s : State} (cause : Nat) (hc : s.coreLive = true) (hr : s.ctl.restarting = false) :
    s.restartWalnut cause = State.restartFrom (if s.failLong.endSession.preparing then s.failLong.endSession.failPrepare
      else s.failLong.endSession).injectLock cause := by
  have h : ¬ (s.coreLive = false ∨ s.ctl.restarting = true) := by simp [hc, hr]
  unfold State.restartWalnut
  rw [if_neg h]
  extract_lets +onlyGivenNames a b
  rw [show (if s.failLong.endSession.preparing then s.failLong.endSession.failPrepare else s.failLong.endSession) = b from rfl]
  generalize b.injectLock = x
  rfl

theorem exec_walnutRestartDone {s : State} (t : Nat) (hr : s.ctl.restarting = true) (hc : s.coreLive = true) :
    exec (.walnutRestartDone t) s = .next (s.at t).walnutBack :=
  if_pos (c := (s.at t).ctl.restarting = true ∧ (s.at t).coreLive = true) ⟨hr, hc⟩

theorem exec_temperatureReading {s : State} (t : Nat) {temps : List Int} (hc : s.coreLive = true) (hr : s.ctl.restarting = false)
    (hl : temps.length = 8) : exec (.temperatureReading t temps) s =
      .next (((((temps.zipIdx.foldl (fun (s : State) x => s.osI 16 (0x500008 + x.2) x.1) (s.at t)).osI 16 0x500010
        (hottest temps).2).warnTemp temps)).criticalTemp temps) := by
  have h : ¬ ((s.at t).coreLive = false ∨ (s.at t).ctl.restarting = true ∨ temps.length ≠ 8) := by
    simp [hc, hr, hl]
  exact if_neg h

/-- A live Walnut moves the oldest buffered entry to the ring, and to q13 within the severity limit. -/
theorem exec_logEntry {s : State} (t : Nat) {e : List Byte} {rest : List (List Byte)} (hb : s.mg.buffer = e :: rest)
    (hc : s.coreLive = true) (hr : s.ctl.restarting = false) :
    let w := { s.at t with mg := { s.mg with
      buffer := rest, ring := (if 262144 ≤ s.mg.ring.length then s.mg.ring.drop 128 else s.mg.ring) ++ [e] } }
    exec (.logEntry t) s = .next (if fld e 0x0E 1 ≤ s.og 0x540005 then
      (w.offer 13 { typ := 0x0A, sweep := s.sw.lastIndex, stamp := s.sw.lastStamp, olen := 32, payload := e }).2 else w) := by
  intro w
  show execLogEntry t s = _
  unfold execLogEntry
  extract_lets z
  have h : ¬ (z.coreLive = false ∨ z.ctl.restarting = true) := by simp [z, hc, hr]
  rw [show z.mg.buffer = e :: rest from hb]
  exact (if_neg h).trans (apply_ite Host.Outcome.next _ _ _).symm

theorem logSelect_found {s : State} {n : Nat} {e : List Byte} (h : (s.mg.ring.find? fun e => decide (fld e 0 4 = n)) = some e) :
    logSelect n s = .ok ((s.os 0x540003 n).ds 0x540004 e) := by
  unfold logSelect
  rw [h]

/-- Settles O55: each command is its effect at its instant on a Walnut that runs. -/
theorem supervisionComplete : Obligations.SupervisionComplete := by
  refine ⟨?_, ?_, ?_, ?_, ?_, ?_, ?_⟩
  · intro s t hc hr w v
    have hv (cause : Nat) : (s.at t).restartWalnut cause = State.restartFrom v cause := State.restartWalnut_runs cause hc hr
    clear_value v
    exact ⟨congrArg Host.Outcome.next (hv 1), congrArg Host.Outcome.next (hv 4)⟩
  · intro s t c hacc hc hr w v
    have hv : ((s.at t).renew c).restartWalnut 2 = State.restartFrom v 2 := State.restartWalnut_runs 2 hc hr
    clear_value v
    exact congrArg Host.Outcome.next (State.hostWrite_ok hacc (congrArg Except.ok hv))
  · intro s t hr hc
    exact exec_walnutRestartDone t hr hc
  · intro s t temps hc hr hl
    exact exec_temperatureReading t hc hr hl
  · intro s t e rest hb hc hr w
    exact exec_logEntry t hb hc hr
  · intro s t c n e hacc hn he
    refine congrArg Host.Outcome.next (State.hostWrite_ok hacc ?_)
    rw [Nat.mod_eq_of_lt hn]
    exact logSelect_found he
  · intro s t c hacc
    exact congrArg Host.Outcome.next (State.hostWrite_ok hacc rfl)

/-! ## Acorn -/

theorem State.showMonitor_of_value {s : State} {i : Nat} {value : Int} (h : (s.mg.monitors.getD i ⟨0, [], 0⟩).value = value) :
    let rem := acornLimit i - ((value - Config.acornBaseline i).natAbs : Int)
    s.showMonitor i = ((s.osI 32 (okey (0x5010 + i) 1) value).os (okey (0x5010 + i) 2)
      ((max 0 (rdiv (10000 * rem) (acornLimit i))).toNat % 65536)).os (okey (0x5010 + i) 3)
        (projection rem (decide (Config.acornBaseline i ≤ value)) (s.mg.monitors.getD i ⟨0, [], 0⟩).readings) := by
  subst h
  rfl

/-- A measurement of a monitor takes its value in, shows value, margin and projection, and warns where the projection passes the
threshold (R441). -/
theorem exec_acornMeasurement {s : State} (t : Nat) {i : Nat} (value : Int) (hi : i < 8) (hlen : s.mg.monitors.length = 8)
    (hc : s.coreLive = true) (hr : s.ctl.restarting = false) :
    let w := s.at t
    let v := w.setMg fun m => { m with monitors := modAt m.monitors i fun a =>
      { a with value := value, readings := (a.readings ++ [(w.devNs, value)]).filter fun r => decide (w.devNs ≤ r.1 + 90 * dayNs) } }
    let u := v.showMonitor i
    exec (.acornMeasurement t i value) s = .next ((if u.og (okey (0x5010 + i) 3) < u.og 0x500033 ∧ u.og 0x500033 ≤ v.og (okey (0x5010 + i) 3)
      then u.log 0x0031 2 0 [byte i] else u).acornAct i) ∧ (v.mg.monitors.getD i ⟨0, [], 0⟩).value = value := by
  intro w v u
  have h : ¬ (8 ≤ i ∨ w.coreLive = false ∨ w.ctl.restarting = true) := by
    simp [w, hi, hc, hr]
  refine ⟨if_neg h, ?_⟩
  show ((modAt s.mg.monitors i _).getD i _).value = value
  rw [getD_modAt_self (by omega)]

theorem exec_avsStep {s : State} (t : Nat) (up acked : Bool) {mv : Nat} (hmv : (if up then s.og 0x500030 + 5 else s.og 0x500030 - 5) = mv)
    (hact : s.og 0x500032 = 1) (hc : s.coreLive = true) (hr : s.ctl.restarting = false) (hno : s.mg.avsRetry = none)
    (hgap : s.mg.avsLast + 10000000 ≤ (s.at t).now) (hlo : 680 ≤ mv) (hhi : mv ≤ 860)
    (hup : up = true → (s.mg.monitors.getD 0 ⟨0, [], 0⟩).acted + 1000 < (s.mg.monitors.getD 0 ⟨0, [], 0⟩).value) :
    let w := (s.at t).setMg fun m => { m with avsLast := (s.at t).now }
    exec (.avsStep t up acked) s = .next (if acked then w.setAvs mv else w.setMg fun m => { m with avsRetry := some mv }) := by
  subst hmv
  have hup' : up = false ∨ (s.mg.monitors.getD 0 ⟨0, [], 0⟩).acted + 1000 < (s.mg.monitors.getD 0 ⟨0, [], 0⟩).value := by
    cases up with
    | false => exact .inl rfl
    | true => exact .inr (hup rfl)
  exact if_pos (c := (s.at t).og 0x500032 = 1 ∧ (s.at t).coreLive = true ∧ (s.at t).ctl.restarting = false ∧ (s.at t).mg.avsRetry = none ∧
    (s.at t).mg.avsLast + 10000000 ≤ (s.at t).now ∧ _) ⟨hact, hc, hr, hno, hgap, hlo, hhi, hup'⟩

/-- The one retry after 10 ms takes the voltage, or is logged and given up (R508). -/
theorem exec_pmbusRetry {s : State} (t : Nat) (acked : Bool) {mv : Nat} (hre : s.mg.avsRetry = some mv)
    (hgap : s.mg.avsLast + 10000000 ≤ (s.at t).now) :
    exec (.pmbusRetry t acked) s = .next (if acked then (s.at t).setAvs mv
      else ((s.at t).setMg fun m => { m with avsRetry := none, avsLast := (s.at t).now }).log 0x0021 2 0 ([0] ++ le 2 (s.og 0x500030))) := by
  show execPmbusRetry t acked s = _
  unfold execPmbusRetry
  extract_lets z
  rw [show z.mg.avsRetry = some mv from hre]
  exact (if_neg (Nat.not_lt.2 hgap)).trans (apply_ite Host.Outcome.next _ _ _).symm

theorem exec_planDerating {s : State} (t : Nat) {r : Nat} (hact : s.og 0x500032 = 1) (hv : s.og 0x500030 = 860) (hm : s.og 0x501002 < 1000)
    (hc : s.coreLive = true) (hr : s.ctl.restarting = false)
    (hf : ((List.range (s.og 0x500031)).reverse.find? fun r => (s.rung r).isSome) = some r) :
    let w := (s.at t).os 0x500031 r
    exec (.planDerating t) s = .next ((w.setLad fun l => { l with derateDue := decide (r < w.og 0x240001) }).marginAction 0 r) := by
  intro w
  refine (if_pos (c := (s.at t).og 0x500032 = 1 ∧ (s.at t).og 0x500030 = 860 ∧ (s.at t).og 0x501002 < 1000 ∧ (s.at t).coreLive = true ∧
    (s.at t).ctl.restarting = false) ⟨hact, hv, hm, hc, hr⟩).trans ?_
  rw [show ((List.range ((s.at t).og 0x500031)).reverse.find? fun r => ((s.at t).rung r).isSome) = some r from hf]

/-- Settles O56: the measurement shows the monitor that just took its value; the other commands are their effects. -/
theorem acornComplete : Obligations.AcornComplete := by
  refine ⟨?_, ?_, ?_, ?_⟩
  · intro s t i value hi hlen hc hr w base rem v new u
    obtain ⟨hexec, hval⟩ := exec_acornMeasurement t value hi hlen hc hr
    have hu : State.showMonitor v i = u := State.showMonitor_of_value hval
    rw [← hu]
    exact hexec
  · intro s t up acked mv hact hc hr hno hgap hlo hhi hup w
    rw [← State.at_now] at hgap
    exact (exec_avsStep t up acked rfl hact hc hr hno hgap hlo hhi hup).trans (by rw [State.at_now])
  · intro s t acked mv hre hgap
    rw [← State.at_now] at hgap ⊢
    exact exec_pmbusRetry t acked hre hgap
  · intro s t r hact hv hm hc hr hf w
    exact exec_planDerating t hact hv hm hc hr hf

end Sys2Proof.Machine
end

section
/-! SUPPORT. The image commands (R451 to R454, R458). -/

namespace Sys2Proof.Machine

open Sys2Proof

/-! ## The download (R451, R452) -/

theorem State.downloadOpen_iff (s : State) : s.downloadOpen = true ↔ s.og 0x580005 = 1 ∨ s.og 0x580005 = 3 := by
  simp [State.downloadOpen]

/-- A download that is closed or verified opens, where no image is in trial or recovery mode runs. -/
theorem downloadOpen_opens {s : State} (hst : s.og 0x580005 = 0 ∨ s.og 0x580005 = 2)
    (htrial : s.recovery = true ∨ (s.inTrial false = false ∧ s.inTrial true = false)) :
    downloadOpen s = .ok (((s.os 0x580005 1).ds 0x580006 (rep 32 0)).setUp fun u => { u with
      kind := s.og 0x580001
      length := min (s.og 0x580003) (areaSize (s.og 0x580001 == 2 && !s.recovery))
      checks := (List.range ((s.dg 0x580004).length / 4)).map fun i => fld (s.dg 0x580004) (4 * i) 4
      erased := [], prepared := none }) := by
  have h : (decide (s.og 0x580005 = 0 ∨ s.og 0x580005 = 2) && (s.recovery || (!s.inTrial false && !s.inTrial true))) = true := by
    rw [decide_eq_true hst, Bool.true_and]
    obtain h | ⟨hw, hd⟩ := htrial
    · rw [h, Bool.true_or]
    · rw [hw, hd, Bool.not_false, Bool.and_true, Bool.or_true]
  exact require_pass h

theorem downloadClose_closes {s : State} (hst : s.og 0x580005 = 1 ∨ s.og 0x580005 = 3) : downloadClose s = .ok (s.os 0x580005 4) :=
  require_pass (s.downloadOpen_iff.2 hst)

/-- Bytes over CAN FD within the download's length go to the offset object's address. -/
theorem canFdData_programs {s : State} {data : List Byte} (hst : s.og 0x580005 = 1 ∨ s.og 0x580005 = 3)
    (hlen : s.og 0x580007 + data.length ≤ s.up.length) : canFdData data s = .ok (s.programImage (s.og 0x580007) data) :=
  (require_pass (s.downloadOpen_iff.2 hst)).trans (require_pass (decide_eq_true hlen))

/-! ## Preparation and activation (R453, R454) -/

theorem State.writeBoot_objects (s : State) (f : BootControl → BootControl) : (s.writeBoot f).objects = s.objects := by
  unfold State.writeBoot
  dsimp only
  split <;> rfl

/-- At the head a verified download prepares with no grant to ask for. -/
theorem imagePrepare_head {s : State} (hst : s.og 0x580005 = 2) (hh : s.pw.sensedHead = true) :
    imagePrepare s = .ok (s.startLong 5 10000 (s.og 0x580001) (s.area s.targetArea)) := by
  have hhead : (if s.isHead then s else s.tellHead 0x20 [byte s.position, 1]) = s := if_pos hh
  refine (require_pass (decide_eq_true hst)).trans ?_
  rw [hhead]

/-- Outside a chain and outside recovery mode, a prepared image activates as a trial of the other slot. -/
theorem activate_trial {s x v : State} (hrec : s.recovery = false) (hprep : s.up.prepared.isSome = true) (halone : s.inChain = false)
    (hx : x = (s.writeBoot fun b => b.set s.kindData ((s.bootControl.slot s.kindData + 1) % 2) 0).os 0x580005 0)
    (hv : v = x.setUp fun u => { u with prepared := none, confirmBy := some (x.now + 1000000000 * x.og 0x58000D) }) :
    activate s = .ok (if s.kindData then v.takeImage else v.restartWalnut 3) := by
  unfold activate
  rw [hrec, hprep]
  extract_lets data slot trial x' v' y
  have hxv : v' = v := by
    have hxx : x' = x := hx.symm
    rw [hv, ← hxx]
  have hchain : v'.inChain = false := by
    rw [hxv, hv]
    refine Eq.trans ?_ halone
    show (!x.isHead || decide (2 ≤ x.chainLen)) = (!s.isHead || decide (2 ≤ s.chainLen))
    have hobj : x.og 0x4C0010 = s.og 0x4C0010 := by
      rw [hx, State.og_os_of_ne _ _ (by decide)]
      exact State.og_of_objects (s.writeBoot_objects _) _
    have hhead : x.isHead = s.isHead := by
      rw [hx]
      exact congrArg Power.sensedHead (State.writeBoot_same rfl (.self 130 s) _).pw_eq
    rw [hhead, State.chainLen, State.chainLen, hobj]
  have hy : y = v := (if_neg (by rw [hchain]; exact fun h => Bool.false_ne_true h.2)).trans hxv
  rw [hy]
  rfl

/-! ## Confirmation (R458) -/

theorem State.trialData_of {s : State} (hw : s.inTrial false = false) : s.trialData = true := by
  rw [State.trialData, hw, Bool.not_false]

/-- A trial of the data-path image confirms: the counter rises, boot control names the slot for good, the grant goes back. -/
theorem confirm_data {s : State} (hw : s.inTrial false = false) (hd : s.inTrial true = true) :
    let v := { s with board := { s.board with dataCounter := max s.board.dataCounter (s.imgSecurity (s.activeArea true)) } }
    confirm s = .ok ((v.writeBoot fun b => b.set true (b.slot true) 0xFF).returnGrant.setUp fun u => { u with confirmBy := none }) := by
  intro v
  unfold confirm
  rw [State.trialData_of hw, hd, Bool.or_true]
  rfl

/-- Settles O57: each command is its effect at its instant, where the clauses' conditions open the branch. -/
theorem imageCommandsComplete : Obligations.ImageCommandsComplete := by
  refine ⟨?_, ?_, ?_, ?_, ?_, ?_, ?_, ?_, ?_, ?_⟩
  · intro s t c hacc w hst htrial
    exact congrArg Host.Outcome.next (State.hostWrite_ok hacc (downloadOpen_opens hst htrial))
  · intro s t c hacc w hst
    exact congrArg Host.Outcome.next (State.hostWrite_ok hacc (downloadClose_closes hst))
  · intro s t c hacc
    exact congrArg Host.Outcome.next (State.hostWrite_ok hacc rfl)
  · intro s t c data hacc w hst hlen
    exact congrArg Host.Outcome.next (State.hostWrite_ok hacc (canFdData_programs hst hlen))
  · intro s t hst n bad
    exact if_neg (c := (s.at t).og 0x580005 ≠ 4) (not_not_intro hst)
  · intro s t c hacc w hst hh
    exact congrArg Host.Outcome.next (State.hostWrite_ok hacc (imagePrepare_head hst hh))
  · intro s t c hacc w data hrec hprep x v halone
    exact congrArg Host.Outcome.next (State.hostWrite_ok hacc (activate_trial hrec hprep halone rfl rfl))
  · intro s t c hacc w hw hd v
    exact congrArg Host.Outcome.next (State.hostWrite_ok hacc (confirm_data hw hd))
  · intro s t d hby hdue hc hw hd
    rw [← State.at_now] at hdue
    have h : ¬ ((s.at t).now < d ∨ (s.at t).coreLive = false ∨ ((s.at t).inTrial false || (s.at t).inTrial true) = false) := by
      have hd' : (s.at t).inTrial true = true := hd
      have hdue' := Nat.not_lt.2 hdue
      rw [hd', Bool.or_true]
      simp only [hdue', State.at_coreLive, hc, Bool.true_eq_false, or_self, not_false_eq_true]
    show execConfirmTimeout t s = _
    unfold execConfirmTimeout
    extract_lets z data b w
    have hdata : data = true := State.trialData_of (s := z) hw
    clear_value data
    subst hdata
    rw [show z.up.confirmBy = some d from hby]
    exact if_neg h
  · intro s t hp hpw hsh hfl
    have hfl' : (s.at t).sw.flights.isEmpty = true := List.isEmpty_iff.2 hfl
    exact if_pos (c := (s.at t).up.pausing = true ∧ (s.at t).pw.power = .ready ∧ (s.at t).pw.shutting = true ∧
      (s.at t).sw.flights.isEmpty = true) ⟨hp, hpw, hsh, hfl'⟩

end Sys2Proof.Machine
end
